-- ==== Sys2Proof/Word.lean ====
section
/-!
DEFINITION. The words of the VX192 and their plainest arithmetic: a byte, a 32-bit register (R4), a 64-bit statistics
counter that wraps (R460), and rounding-up division.
-/

namespace Sys2Proof

/-- One byte of a memory or of a frame. -/
abbrev Byte := BitVec 8

/-- A 32-bit BAR0 register (R4). -/
abbrev Word := BitVec 32

/-- A 64-bit statistics counter; it wraps modulo 2^64 (R460). -/
abbrev Cnt := BitVec 64

/-- Rounding-up division, `⌈a ÷ b⌉`. -/
def ceilDiv (a b : Nat) : Nat := (a + b - 1) / b

/-- Saturating count: the value one above, but never above `top` (R460). -/
def satAdd (top a b : Nat) : Nat := min top (a + b)

end Sys2Proof
end

