-- ==== Sys2Proof/Config.lean ====
section
/-!
DEFINITION. What the spec leaves open: constants with no body, so that nothing can be proved of their values. The free
values are applied to the state's counter of draws (State.free); the cryptographic functions are those of the outside
standards that the spec names and does not restate (assumption log 4, 5), and so are the coded formats' own syntax and reconstruction
(assumption log 58, 59).
-/

namespace Sys2Proof.Config

/-! ### Syntax of the coded formats that the contexts decode (R249)

The formats are outside standards, which the spec names and does not restate: their syntax comes from functions with no body,
and what the spec itself decides on it is computed from these records. Assumption log 59, DESIGN CHOICE. -/

/-- A parameter set (R250): kind 0 VPS, 1 SPS or sequence header, 2 PPS, its identifier, and what R249 and R250 ask of it.
`maxRefs` is max_num_ref_frames in H.264 and sps_max_dec_pic_buffering_minus1 in HEVC; `dpb` the DPB size in frames that the
stream's parameters require, `reorder` and `latency` the limits of the bumping process; `blk` the side of a block. -/
structure ParamSet where
  ok       : Bool := false
  kind     : Nat := 0
  id       : Nat := 0
  profile  : Nat := 0
  level    : Nat := 0
  /-- constraint_set1_flag -/
  cs1      : Bool := false
  bits     : Nat := 8
  /-- chroma_format_idc; 1 is 4:2:0 -/
  chroma   : Nat := 1
  /-- tools that are not supported: field coding, FMO, redundant slices, extensions, monochrome, large-scale tiles -/
  field    : Bool := false
  fmo      : Bool := false
  redundant : Bool := false
  ext      : Bool := false
  mono     : Bool := false
  largeTile : Bool := false
  w        : Nat := 0
  h        : Nat := 0
  cropX    : Nat := 0
  cropY    : Nat := 0
  cropW    : Nat := 0
  cropH    : Nat := 0
  maxRefs  : Nat := 0
  dpb      : Nat := 1
  reorder  : Nat := 0
  latency  : Option Nat := none
  blk      : Nat := 64
  deriving DecidableEq, Repr, Inhabited

/-- The picture that a coded unit belongs to: the identifier of its SPS or sequence header; whether it uses no reference (an IDR,
IRAP or key picture), begins a coded video sequence, and lets no prior picture be output; its place in output order and its number
for a recovery point; the reference identifiers (a POC, a frame number or a slot) that the marking process keeps, the picture
uses, in list order, and the picture is stored under; whether it is output, and whether it carries film grain parameters. The PPS that
it names and the VPS that its SPS names stand by kind and identifier; an AV1 frame has a size of its own, upscaled, with the render size
that crops it: width, height, cropped width, cropped height. -/
structure PicSyn where
  sps     : Nat := 0
  others  : List (Nat × Nat) := []
  size    : Option (Nat × Nat × Nat × Nat) := none
  noRef   : Bool := false
  clear   : Bool := false
  noPrior : Bool := false
  order   : Int := 0
  num     : Int := 0
  keep    : List Int := []
  uses    : List Int := []
  store   : List Int := []
  output  : Bool := true
  grain   : Bool := false
  deriving DecidableEq, Repr, Inhabited

/-- A syntax value as it was read, with the range that the format allows at that point (R265). -/
structure SynVal where
  v  : Int := 0
  lo : Int := 0
  hi : Int := 0
  deriving DecidableEq, Repr, Inhabited

/-- A block of a coded unit: its raster position, its syntax values, and the byte of the unit where it ends. -/
structure BlkSyn where
  pos  : Nat := 0
  vals : List SynVal := []
  fin  : Nat := 0
  deriving DecidableEq, Repr, Inhabited

/-- A coded unit: an H.264 slice, an HEVC slice segment or an AV1 tile (R266). `ends` says that the entropy decoder neither read
past the unit's end nor found it ending early; `shows` is the slot of an AV1 show_existing_frame. Assumption log 59, DESIGN CHOICE. -/
structure UnitSyn where
  hdrOk  : Bool := true
  first  : Bool := false
  shows  : Option Int := none
  pic    : PicSyn := {}
  blocks : List BlkSyn := []
  ends   : Bool := true
  /-- what the format carries on to later units (a POC, probabilities) -/
  carry  : List Nat := []
  deriving DecidableEq, Repr, Inhabited

/-- The parameter set in the bytes of a NAL unit or OBU, for a codec (R250). -/
opaque psetSyntax : Nat → List Byte → ParamSet

/-- The coded units of the last of the NAL units or OBUs given, those of the queued unit up to it, under the parameter sets in force
by kind and identifier and what earlier units carried on; the flag says that units were lost before (R256, R265). -/
opaque unitSyntax : Nat → List (Nat × Nat × List Byte) → List Nat → Bool → List (List Byte) → List UnitSyn

/-- Number that an SEI message's recovery point counts to, from a picture's number (R268). -/
opaque seiRecovery : Nat → List Byte → Option Int

/-- Rows of the references that a block's prediction reads: reference by its place in the list, first luma row, number. -/
opaque decReads : Nat → List Byte → List Int → List (Nat × Nat × Nat)

/-- Reconstructed samples of a block ahead of in-loop filtering (luma, then CbCr), from its clamped syntax values, the picture's
decoded blocks by position, and the rows of its references. -/
opaque decBlock : Nat → List Byte → List Int → List (Nat × List Nat) → List (List (List Nat)) → List Nat

/-- Final samples of the blocks of a block row: the in-loop filters over the blocks of that row and of the rows beside it; the last
argument lists the copied blocks, inside which and on whose edges nothing is filtered (R266). -/
opaque decFilter : Nat → List Byte → Nat → List (Nat × List Nat) → List Nat → List (List Nat)

/-- Samples of a decode case of GLEAN_GOLDEN before in-loop filtering and final, as the bytes of R211 (R277). -/
opaque decodeCase : Nat → List Byte → List Byte × List Byte

/-! ### Syntax that the encode cores write (R182 to R200)

Headers are the syntax elements of the outside standards by name, with their values. A block's record holds the decisions of
stages 3 to 5. How the standards predict, transform, estimate and code is theirs: functions with no body. Assumption log 58, DESIGN
CHOICE. -/

/-- Syntax elements by name. -/
abbrev Elems := List (String × Int)

/-- Samples of rectangles of a picture, the latest first: plane, left, top, width, height, samples. -/
abbrev Canvas := List (Nat × Nat × Nat × Nat × Nat × List Nat)

/-- A prediction unit of a block in luma samples: kind 0 skip, 1 merge (AV1: a vector of the list) with residual, 2 inter with its own
vector, 3 intra; its mode (merge or predictor index, or intra mode), final vector in quarter luma pixels, vector difference. The first
unit of a coding unit carries what the coding unit has: its chroma mode (0 luma's, 1 chroma from luma), whether it has a residual,
transform choice, whether its transform blocks are split, and the quantised levels of each. -/
structure CuRec where
  x : Nat
  y : Nat
  w : Nat
  h : Nat
  kind : Nat
  mode : Nat := 0
  mv   : Int × Int := (0, 0)
  mvd  : Int × Int := (0, 0)
  first : Bool := true
  uv   : Nat := 0
  cbf  : Bool := true
  tx   : Nat := 0
  split : Bool := false
  levels : List (List Int) := []
  deriving DecidableEq, Repr, Inhabited

/-- A 64 × 64 block: its CTB column, QP, prediction units, and SAO or CDEF parameters. -/
structure BlkRec where
  col  : Nat
  qp   : Nat
  cus  : List CuRec
  filt : List Nat := []
  deriving DecidableEq, Repr, Inhabited

/-- A coded unit: nal_unit_type or obu_type, temporal layer, header elements, blocks. Assumption log 58, DESIGN CHOICE. -/
structure UnitRec where
  type   : Nat
  tid    : Nat := 0
  elems  : Elems := []
  blocks : List BlkRec := []
  deriving DecidableEq, Repr, Inhabited

/-- What the thresher's re-parse finds in a unit: its syntax and derived values, that the arithmetic decoder ends exactly at its end,
and that emulation prevention or OBU sizes hold (R200). Assumption log 58, DESIGN CHOICE. -/
structure Parsed where
  unit   : UnitRec
  ends   : Bool
  framed : Bool
  deriving DecidableEq, Repr, Inhabited

/-- What the thresher's parser reads from the bytes of a unit (R200). Assumption log 58, DESIGN CHOICE. -/
opaque parse : Bool → List Byte → Parsed

/-- Payload of a NAL unit (HEVC) or OBU (AV1) after its header: the syntax elements coded, with emulation prevention in HEVC. -/
opaque unitPayload : Bool → UnitRec → List Byte

/-- Entropy context state after a unit (R196, R209). -/
opaque entropyEnd : Bool → UnitRec → List Nat

/-- Vectors of the merge candidates (HEVC: five), or of NEARESTMV and NEARMV, of a prediction unit at a place and size, from the
units coded before it; and the predictors of its vector (HEVC: AMVP, AV1: the reference vectors). -/
opaque mergeVectors : Bool → List CuRec → Nat × Nat × Nat × Nat → List (Int × Int)
opaque vectorPreds : Bool → List CuRec → Nat × Nat × Nat × Nat → List (Int × Int)

/-- Inter prediction of a rectangle of a plane from the rows of that plane of the reference, with a luma vector. -/
opaque interPred : Bool → Nat → List (List Nat) → Nat × Nat × Nat × Nat → Int × Int → List Nat

/-- Rectangles (left, top, width, height) of luma reference samples that an intra mode reads for a rectangle, those substituted for
counted at their source; and the prediction of a plane at a depth, by an intra mode and a chroma mode. -/
opaque intraReads : Bool → Nat → Nat × Nat × Nat × Nat → Canvas → List (Nat × Nat × Nat × Nat)
opaque intraPred : Bool → Nat → Nat → Nat → Nat → Nat × Nat × Nat × Nat → Canvas → List Nat

/-- Transform choices for a coding unit of intra or inter prediction; forward and inverse transform of a transform block by format, intra,
component (0 luma, 1 Cb, 2 Cr), choice and size; scale of the quantiser for a component at a QP, as numerator and denominator; inverse
quantiser; sign data hiding. -/
opaque txOptions : Bool → Bool → Nat → Nat → List Nat
opaque forward : Bool → Bool → Nat → Nat → Nat → Nat → List Int → List Int
opaque inverse : Bool → Bool → Nat → Nat → Nat → Nat → List Int → List Int
opaque quantScale : Bool → Nat → Nat → Nat → Nat × Nat
opaque dequant : Bool → Nat → Nat → Nat → List Int → List Int
opaque signHide : List Int → List Int

/-- Bit estimate of a candidate's syntax from an entropy snapshot; bins that a block needs. -/
opaque bitEstimate : Bool → List Nat → CuRec → Nat
opaque binCount : Bool → BlkRec → Nat

/-- SAO or CDEF parameters of a block from its QP, source and reconstructed samples; loop filter levels of an AV1 frame from its q. -/
opaque filterChoice : Bool → Nat → List Nat → List Nat → List Nat
opaque frameFilter : Nat → List Nat

/-- In-loop filters of a plane, over the carried rows and a sheaf's own, from the headers and blocks of the carried rows' sheaf and of the
sheaf. -/
opaque loopFilter : Bool → Nat → Elems × List BlkRec → Elems × List BlkRec → List (List Nat) → List (List Nat)

/-- Deblocking across the edge between the parts of a two-lane picture: a row of a plane on both sides of it, from the units of the left
and of the right part. Assumption log 58, DESIGN CHOICE. -/
opaque partEdge : Nat → UnitRec → UnitRec → List Nat → List Nat → List Nat × List Nat

/-- Bytes that the fetch of a sheaf's reference windows leaves in the barn's scratchpad, with their offsets in it: the spec gives no
layout (R188, R401). Assumption log 58, DESIGN CHOICE. -/
opaque barnBytes : Nat → List (List Nat) → List (Nat × Byte)

/-- Bytes of a channel part's state record, from its items: the spec gives no layout (R209). Assumption log 81, DESIGN CHOICE. -/
opaque chanBytes : List Int → List Byte

/-- Entropy snapshot and motion field of the reference, from the data of an encode case after its samples: the spec gives no layout
(R211). Assumption log 85, DESIGN CHOICE. -/
opaque caseState : List Byte → List Nat × List (Nat × Option (Int × Int))

/-! ### Free values, cryptography and the outside -/

/-- Free value of draw `n`: what the TRNG gives, or a choice that the spec leaves to the unit (assumption log 4). -/
opaque freeWord : Nat → BitVec 64

/-- Free bytes of draw `n` at place `i`: contents that the spec calls undefined (R69, R370). Assumption log 4, DESIGN CHOICE. -/
opaque freeByte : Nat → Nat → BitVec 8

/-- Share of a NORMAL sheaf by session, frame, part and sheaf, where R219's quotient has a zero divisor. Assumption log 4, DESIGN CHOICE. -/
opaque freeShare : Nat → Nat → Nat → Nat → BitVec 32

/-- SHA-512 of a byte string (R58, R62, R64). Assumption log 5, DESIGN CHOICE. -/
opaque sha512 : List Byte → BitVec 512

/-- The bytes are a valid uncompressed point of P-521 (R62, R94). Assumption log 5, DESIGN CHOICE. -/
opaque pointOk : List Byte → Bool

/-- An ECDSA P-521 signature (last) verifies under a public key (first) over a SHA-512 digest (R58, R62).
Assumption log 5, DESIGN CHOICE. -/
opaque ecdsaOk : List Byte → BitVec 512 → List Byte → Bool

/-- IDKEY_SEALED unseals and authenticates under the key derived from ROOT_SECRET (R81, R107). -/
opaque idkeyOpens : BitVec 656 → BitVec 256 → Bool

/-- ECDSA P-521 signature, r then s, by the sealed identity key over a digest, with draw `n` (R84, R90). -/
opaque identitySign : BitVec 656 → BitVec 256 → BitVec 512 → Nat → BitVec 1056

/-- Uncompressed key-import public key of generation `n` (R90, R91). -/
opaque importKey : Nat → BitVec 1056

/-- The 66-byte x-coordinate of ECDH between the key-import private key of generation `n` and a P-521 point (R93).
Assumption log 5, DESIGN CHOICE. -/
opaque ecdhX : Nat → List Byte → List Byte

/-- HKDF-SHA-512 (RFC 5869) of a salt, an input, an info string and an output length (R93). Assumption log 5, DESIGN CHOICE. -/
opaque hkdfSha512 : List Byte → List Byte → List Byte → Nat → List Byte

/-- SRTP key derivation of RFC 3711 with the AES-256 PRF of RFC 6188: master key, master salt, label and length (R336). Assumption log 5,
DESIGN CHOICE. -/
opaque srtpDerive : List Byte → List Byte → Nat → Nat → List Byte

/-- AES-256-GCM of RFC 7714: key, IV, associated data and plaintext give the ciphertext and the 16-byte tag (R336). Assumption log 5,
DESIGN CHOICE. -/
opaque aesGcm : List Byte → List Byte → List Byte → List Byte → List Byte

/-- Bytes of a TMMBN after its 8-byte header: media source, and the bounding set, of RFC 5104, from the granted rate (R224). Assumption
log 5, DESIGN CHOICE. -/
opaque tmmbnBody : Nat → List Byte

/-- RFC 3394 unwrapping of bytes under a key-encryption key; nothing where the integrity check fails (R93).
Assumption log 5, DESIGN CHOICE. -/
opaque unwrap3394 : List Byte → List Byte → Option (List Byte)

/-- Byte `i` of the encrypted and authenticated entry that holds a record in a slot, under the internal key of a generation (R95).
Assumption log 5, DESIGN CHOICE. -/
opaque sealEntry : Nat → Nat → List Byte → Nat → Byte

/-- Key and body of entry `i` of the STATIC table `t`, from the bytes of EM_TABLE_DEFS, whose entry layout the spec does
not give (R293). Assumption log 50, DESIGN CHOICE. -/
opaque staticKey : List Byte → Nat → Nat → List Byte

/-- Watermarks of large FIFO `f` in words, which come from the image at a place that the spec does not give (R389, R407).
Assumption log 67, DESIGN CHOICE. -/
opaque fifoHigh : Nat → BitVec 16
opaque fifoLow : Nat → BitVec 16

/-- Bytes of an exception-queue entry, from its reason, port, timestamp, layer records and packet; the spec gives no layout (R291).
Assumption log 81, DESIGN CHOICE. -/
opaque excEntry : Nat → Nat → Nat → List (Nat × Nat × Nat) → List Byte → List Byte

/-- Bank of the DRAM that holds an address, a layout that the spec does not give (R356). Assumption log 69, DESIGN CHOICE. -/
opaque bankOf : Nat → Nat

/-- Level of ball `i` of the boundary scan at draw `n`, where something outside the part sets it (R50). Assumption log 80, DESIGN CHOICE. -/
opaque pinLevel : Nat → Nat → Bool

/-- Total power estimate in 0.125 W and current estimate of rail `r` in 0.125 A, at draw `n` (R47). Assumption log 33, DESIGN CHOICE. -/
opaque powerEstimate : Nat → BitVec 16
opaque railCurrent : Nat → Nat → BitVec 16

end Sys2Proof.Config
end

