-- ==== Sys2Proof/Syntax.lean ====
section
/-!
DEFINITION. The commands of the VX192: one constructor of `Instr` for every row of spec/opcode_table.json, with the
row's operands. The table gives the rows no bits, so the operands are what the row's rules name: an address, a value, a
lane, a unit; and, where a row reports what the silicon or the outside world did (a bit error, a read that failed, the
size of a coded sheaf), that outcome.
-/

namespace Sys2Proof

/-- Header of a mailbox command entry (R415, R78): IRQ and TAG. -/
structure CmdHdr where
  tag : Nat
  irq : Bool
  deriving DecidableEq, Repr

/-- Levels of the straps and of the reset pins (R27, R31). -/
structure PinLevels where
  resetN  : Bool
  perstN  : Bool
  compat  : Bool
  smbAddr : Nat
  deriving DecidableEq, Repr

/-- The fuse fields in which sensing found a double-bit error (R83). -/
structure FuseEcc where
  serial : Bool
  root   : Bool
  idkey  : Bool
  owner  : Bool
  deriving DecidableEq, Repr

/-- The monitored rails in the order of R36. -/
inductive Rail where
  | vddCore | vddSram | vddSerdes | vddhSerdes | hbmVdd | hbmVddq | hbmVpp | vddIo | vddAon
  deriving DecidableEq, Repr

/-- What took the PCIe function down without PERST_N (R44). -/
inductive LinkDownCause where
  | linkDown | hotReset | flr
  deriving DecidableEq, Repr

/-- Whether each flash read of a slot completed (R62, R54): the SFDP read with its xSPI profile, the header, the
directory, and the signed region with its signature. -/
structure FlashReads where
  sfdp   : Bool
  header : Bool
  dir    : Bool
  body   : Bool
  deriving DecidableEq, Repr

/-- A write that a decode core issues through a buffer descriptor beside those of its decoding, after `after` blocks of the run
(R263): the descriptor (0 the buffer of the picture in decoding, 1 the record ring, 2 the context's saved state), the offset from
its base, and the bytes. Sound hardware issues none. -/
structure DecWrite where
  after : Nat
  desc  : Nat
  off   : Nat
  data  : List Byte
  deriving DecidableEq, Repr

/-- The data set of an Announce message of IEEE 1588 (R140): sourcePortIdentity, grandmasterPriority1, clockClass, clockAccuracy,
offsetScaledLogVariance, grandmasterPriority2, grandmasterIdentity, stepsRemoved and logMessageInterval. -/
structure Announce where
  src      : Nat
  prio1    : Nat
  cls      : Nat
  accuracy : Nat
  variance : Nat
  prio2    : Nat
  gm       : Nat
  steps    : Nat
  interval : Int
  deriving DecidableEq, Repr

/-- A PTP message as PTP time reads it (R140): its transport (0 Layer 2, 1 IPv4, 2 IPv6), its domain, and its kind. -/
inductive PtpKind where
  /-- a Sync of a port identity with the measured offset in ns (device minus master, R143) -/
  | sync (src : Nat) (offsetNs : Int)
  | announce (a : Announce)
  | other
  deriving DecidableEq, Repr

structure PtpMsg where
  transport : Nat
  domain    : Nat
  kind      : PtpKind
  deriving DecidableEq, Repr

/-- One message of a compound RTCP packet (R301). -/
inductive RtcpMsg where
  | nack (seqs : List Nat)
  | pli
  | fir
  | tmmbr (mxtbr : Nat)
  | rpsi (pt : Nat) (ts : Nat)
  | other
  deriving DecidableEq, Repr

/-- The inputs of the integrity tag (R340), as pass 1 takes them or as the checker reads them (R341). -/
structure TagIn where
  channel : Nat
  keySlot : Nat
  port    : Nat
  dstMac  : Nat
  dstAddr : Nat
  dstPort : Nat
  ssrc    : Nat
  deriving DecidableEq, Repr

/-- What the seal stage and the MAC boundary see of a frame (R337, R341): the two engines' outputs agree, the sealed
indication is present, and the tag inputs recomputed from the frame where they are not those of the copy. -/
structure SealObs where
  agree  : Bool
  sealed : Bool
  seen   : Option TagIn
  deriving DecidableEq, Repr

/-- What the stack and the ECC make of an access (R358, R360). -/
inductive EccOut where
  | clean | corrected | uncorrectable | linkReplayed | linkFailed
  deriving DecidableEq, Repr

/-- An access that a port presents, for a master of R101; it is split into accesses of at most 64 bytes (R355). -/
structure GranAcc where
  port  : Nat
  master : Nat
  addr  : Nat
  write : Bool
  data  : List Byte
  len   : Nat := 64
  deriving DecidableEq, Repr

/-- What a controller cycle meets beside its first DRAM access's outcome: the outcomes of the others, in ascending order of position, and
the banks that are not ready (R356). -/
structure GranCyc where
  eccs : List EccOut := []
  slow : List Nat := []
  deriving DecidableEq, Repr

/-- What a word's SEC-DED code finds (R386). -/
inductive SpadEcc where
  | clean | single | double
  deriving DecidableEq, Repr

/-- A transaction on the fabric (R101, R102): the 38-bit address carries the alias in bits [37:36]. `ecc` is what a read of a
scratchpad finds (R386). -/
structure FabReq where
  master : Nat
  addr   : Nat
  len    : Nat
  write  : Bool
  data   : List Byte
  ecc    : SpadEcc := .clean
  /-- the request is the host's to BAR2, at the offset `addr` (R410) -/
  bar2   : Bool := false
  deriving DecidableEq, Repr

/-- An access presented to a scratchpad bank in one cycle (R381, R382, R385): the rank of its port (0 is the highest
priority; 64 is the fabric port of every scratchpad; in a barn 0 is the barn DMA and 1 to 4 its cores; in the steward
scratchpad 0 to 3 are the cores), the internal word address, and what it does. `op` 0 reads, 1 writes, 2 sets bits,
3 clears bits, under the byte enables `be`. `master` is the fabric master behind the fabric port, and `ecc` what the first read of
a word finds where the cycle's first read is of another word (R386). -/
structure SpadAcc where
  rank : Nat
  addr : Nat
  op   : Nat
  data : BitVec 64
  be   : Nat
  master : Nat := 0xFF
  ecc  : SpadEcc := .clean
  deriving DecidableEq, Repr

/-- What one cycle presents to a FIFO: a pop, a word with its END flag pushed, a flush (R391, R393). -/
structure FifoOps where
  pop   : Bool := false
  push  : Option (BitVec 512 × Bool) := none
  flush : Bool := false
  deriving DecidableEq, Repr

/-- Items of the ledger, each held in two copies (R454, R455): the entry and the failover count of a unit, the hour counters, a
retirement record, and the SRAM repairs. -/
inductive LedItem where
  | entry (unit : Nat)
  | moves (unit : Nat)
  | hours
  | record (n : Nat)
  | repairs
  deriving DecidableEq, Repr

/-- What a parity or a ledger error hit, where the line tells no more: for FLT_PARITY the reaction byte of a source, in one copy or in
both (R442); for LEDGER_ERR the marigold entry of a unit, none of whose copies is valid (R455), or the write of an item whose
read-back failed twice, in copy 1 or else in copy 0 (R456). -/
inductive FaultOf where
  | other
  | oneCopy (src : Nat)
  | bothCopies (src : Nat)
  | entry (unit : Nat)
  | write (item : LedItem) (copy1 : Bool)
  deriving DecidableEq, Repr

/-- One rise of a fault line: the source of R438 and the unit on the line (R440), indexed as in R465. -/
structure FaultEv where
  src  : Nat
  unit : Nat
  hit  : FaultOf := .other
  deriving DecidableEq, Repr

/-- Arguments of SESSION_OPEN with KIND 0 (R416); `rsvOk` says that every reserved field of the entry is 0. -/
structure OpenArgs where
  channel : Nat
  width   : Nat
  height  : Nat
  pt      : Nat
  ipv6    : Bool
  srcAddr : Nat
  srcPort : Nat
  ssrc    : Nat
  seed    : Nat
  rsvOk   : Bool
  deriving DecidableEq, Repr

/-- Arguments of SESSION_OPEN with KIND 1 (R253, R416). -/
structure CtxArgs where
  dcx     : Nat
  codec   : Nat
  rtp     : Bool
  outHost : Bool
  bindEn  : Bool
  ipv6    : Bool
  bindCh  : Nat
  pt      : Nat
  reorder : Nat
  srcAddr : Nat
  srcPort : Nat
  dstPort : Nat
  ssrc    : Nat
  rsvOk   : Bool
  deriving DecidableEq, Repr

/-- Arguments of DELIVERY_ADD (R416, R298). -/
structure AddArgs where
  channel : Nat
  player  : Bool
  ipv6    : Bool
  maxTid  : Nat
  prof    : Nat
  outer   : Nat
  dstAddr : Nat
  dstPort : Nat
  srcPort : Nat
  ssrc    : Nat
  dstMac  : Nat
  dscp    : Nat
  ecn     : Nat
  hop     : Nat
  vlan0   : Nat
  vlan1   : Nat
  markId  : Nat
  keySlot : Nat
  rate    : Nat
  burst   : Nat
  dropAt  : Nat
  rsvOk   : Bool
  deriving DecidableEq, Repr

/-- Arguments of the Fenic ADD_DEST (R79). -/
structure DestArgs where
  channel : Nat
  dstAddr : Nat
  dstPort : Nat
  vlan    : Nat
  ssrc    : Nat
  keySlot : Nat
  rate    : Nat
  deriving DecidableEq, Repr

/-- A requester of BAR0: the host, or the steward's own register path (R395, R482). -/
inductive Requester where
  | host | steward
  deriving DecidableEq, Repr

/-- What a configuration read asks for (R408, R409, R411). -/
inductive CfgItem where
  | ids | revision | subsystem | command | power | bar (n : Nat) | link | sizes | caps | msix
  deriving DecidableEq, Repr

/-- A configuration request (R408, R489): a read, a write of one BAR, or a write of the command and power state bits. -/
inductive CfgReq where
  | read (item : CfgItem := .ids)
  | setBar (n : Nat) (base : Nat)
  | setCommand (mse : Bool) (bme : Bool)
  | setPower (d3hot : Bool)
  deriving DecidableEq, Repr

/-- A write of the MSI-X function mask, or of one vector's mask bit (R411, R428). -/
inductive MsixWr where
  | function (mask : Bool)
  | vector (n : Nat) (mask : Bool)
  deriving DecidableEq, Repr

/-- The commands, one constructor per row of spec/opcode_table.json, in the table's order. -/
inductive Instr where
  | porRelease (p : PinLevels) (ecc : FuseEcc)
  | railBelowThreshold (r : Rail)
  | resetNAssert (lowNs : Nat)
  | resetNRelease (compat : Bool)
  | perstNAssert (lowNs : Nat)
  | perstNRelease (compat : Bool)
  | restartEnterReset
  | restartLeaveReset (compat : Bool)
  | clkSysLoss (absentNs : Nat)
  | ethRefclkLoss (absentNs : Nat)
  | pcieRefclkLoss
  | pcieLinkDown (c : LinkDownCause)
  | pcieL1Exit
  | thermtrip (ts : Nat) (tj : Int)
  | thermalWarn (ts : Nat) (tj : Int)
  | thermalCrit (ts : Nat) (tj : Int)
  | ppsInEdge (highNs : Nat)
  | powerOnHour (tj : Nat) (writeOk : Bool)
  | slotCheck (slot : Nat) (rd : FlashReads)
  | hbmTrainingComplete (working : List Nat)
  | imageSectionsCopied
  | tablesLoaded
  | rotaStart
  | sheafRunStart (lane idx hp : Nat)
  | catchupRunStart (lane idx : Nat)
  | gleanRunStart (lane idx : Nat)
  | runOverrun (lane : Nat)
  | rotaBacklog (ch part frame sheaf : Nat)
  | sheafPass (lane : Nat) (parsed : List Config.Parsed)
  | threshFail (lane : Nat) (parsed : List Config.Parsed := [])
  | residueMismatch (lane : Nat) (value : Int := 0) (residue : Nat := 0)
  | gleanResult (lane : Nat) (err : BitVec 64) (failed : Bool)
  | decodeRunStart (dlane idx work : Nat) (writes : List DecWrite := [])
  | decodeRunStop (dlane : Nat)
  | decodeGleanRun (dlane idx : Nat) (err : BitVec 64) (failed : Bool)
  | decWatchdog (dlane : Nat)
  | reorderTimeout (dcx : Nat) (seq : Nat)
  | clockStep
  | syncTimeout
  | announceTimeout
  | holdoverExpiry
  | portLinkDown (port : Nat)
  | portRetrainDone (port : Nat) (trained : List Nat)
  | serdesBerWindow (ber : List (Nat × Nat × Nat × Nat))
  | laneSubstitution (port : Nat)
  | frameReceive (port : Nat) (bytes : List Byte) (fcsOk : Bool)
  | parseStart (port : Nat)
  | ext (pe : Nat)
  | key (pe : Nat)
  | keyi (pe : Nat)
  | alu (pe : Nat)
  | br (pe : Nat)
  | hdr (pe : Nat)
  | len (pe : Nat)
  | lkp (pe : Nat)
  | lookupResult (pe : Nat)
  | exc (pe : Nat)
  | done (pe : Nat) (m : PtpMsg) (pop : Bool := false)
  | vftRows (port : Nat)
  | apertureWrite
  | ingDb (w : Word)
  | doorbell
  | sheafDue (ch hp frame sheaf : Nat)
  | sheafReady (ch frame sheaf : Nat)
  | pfcRepeat (port : Nat)
  | rtcpPacket (authOk : Bool) (msgs : List RtcpMsg)
  | pass1 (ch : Nat)
  | pass1Resume
  | buildStage (agree : Bool)
  | calendarBucket (port : Nat)
  | gateEntry (port entry : Nat)
  | schedulerSelect (port : Nat) (same : Bool := false)
  | sealStage (port : Nat) (o : SealObs)
  | bodyFree (ptr : Nat)
  | stashMove (slot : Nat)
  | rulesetFlip
  | rulesetRetire
  | refreshDue (g : Nat) (readsQueued : Bool)
  | scrubRead (addr : Nat) (e : EccOut) (passEnd : Bool)
  | granaryAccess (accs : List GranAcc) (e : EccOut) (cyc : GranCyc := {})
  | drainStart (stack : Nat)
  | drainSwap (stack : Nat)
  | trainingGatherEnd (stack : Nat)
  | trainingDone (stack : Nat) (ok : Bool)
  | hbmResume (stack : Nat) (working : List Nat)
  | fabricTransaction (reqs : List FabReq)
  | scratchpadAccess (accs : List SpadAcc) (e : SpadEcc)
  | dmaFifoLevelStart (ch : Nat) (cycles : List (Nat × FifoOps) := [])
  | dmaComplete (ch : Nat)
  | dmaBeatError (ch : Nat) (written : Nat) (ue : Bool := false)
  | faultEvent (evs : List FaultEv)
  | spareAdmissionDone (decode : Bool) (lane : Nat) (err : BitVec 64) (failed : Bool)
  | laneRebind (decode : Bool) (lane : Nat)
  | stewardTakeover (core : Nat)
  | srtpRemap (sp : Nat)
  | quarantineTestEnd (unit : Nat) (passed : Bool) (err : BitVec 64 := 0)
  | stwWatchdog (core : Nat)
  | stewardLoad
  | irqEvent (src : Nat) (level : Bool) (held : Nat := 64)
  | irqDelivery (tgt : Nat)
  | irqModerationEnd (tgt : Nat)
  | irqRedirect (tgt : Nat)
  | unitBoundary (isl : Nat)
  | islandTransitionDone (isl : Nat)
  | flashOpDone (ok : Bool)
  | fuseBurnDone (readback : BitVec 512) (debugOnes : Nat)
  | mbxSqDb (tail : Nat)
  | mbxCqDb (head : Nat)
  | mbxCtrl (w : Word)
  | mbxAbort (tag : Nat)
  | abortDrain (stack : Nat)
  | sessionOpen (h : CmdHdr) (a : OpenArgs)
  | sessionOpenContext (h : CmdHdr) (a : CtxArgs)
  | sessionClose (h : CmdHdr) (ch : Nat) (rsvOk : Bool)
  | sessionCloseContext (h : CmdHdr) (dcx : Nat) (rsvOk : Bool)
  | deliveryAdd (h : CmdHdr) (a : AddArgs)
  | deliveryDel (h : CmdHdr) (handle : Nat)
  | keyImport (h : CmdHdr) (src len : Nat) (blob : List Byte)
  | keyErase (h : CmdHdr) (slot : Nat)
  | targetSet (h : CmdHdr) (ch value : Nat)
  | targetSetDelivery (h : CmdHdr) (handle value : Nat)
  | rulesetSwap (h : CmdHdr) (idx : Nat)
  | islandState (h : CmdHdr) (isl st : Nat)
  | islandFreq (h : CmdHdr) (isl mhz : Nat)
  | attest (h : CmdHdr) (nonceSrc dst : Nat)
  | imageWriteProgram (h : CmdHdr) (slot off len src : Nat)
  | imageWriteErase (h : CmdHdr) (slot off len : Nat)
  | imageWriteVerify (h : CmdHdr) (slot : Nat) (rd : FlashReads)
  | restart (h : CmdHdr)
  | faultAck (h : CmdHdr) (src : Nat)
  | statsRead (h : CmdHdr) (off dst len : Nat)
  | reservedOpcode (h : CmdHdr) (opcode : Nat)
  | openStream (h : CmdHdr) (ch width height target : Nat)
  | closeStream (h : CmdHdr) (ch : Nat)
  | addDest (h : CmdHdr) (a : DestArgs)
  | delDest (h : CmdHdr) (handle : Nat)
  | loadKey (h : CmdHdr) (src len slot : Nat) (blob : List Byte)
  | setBitrate (h : CmdHdr) (ch value : Nat)
  | getStats (h : CmdHdr) (ch dst len : Nat)
  | clearAlarm (h : CmdHdr) (src : Nat)
  | flashWrite (h : CmdHdr) (addr len src : Nat)
  | reboot (h : CmdHdr)
  | badOpcode (h : CmdHdr) (opcode : Nat)
  | fuseBurnOwner (confirm : Nat)
  | fuseBurnDebugClose (confirm : Nat)
  | fabUnfreeze (m : Nat)
  | fabLock
  | fabViolLastRead
  | secKeyStatRead
  | rotaTimeNsRead
  | counterLowRead (who : Requester) (off : Nat) (size : Nat := 4)
  | decFeed (dcx : Nat) (loss : Bool) (len : Nat)
  | decRelease (dcx buf : Nat)
  | dmaStart (ch : Nat)
  | dmaAbort (ch : Nat) (written : Nat)
  | dmaFifoFlush (f : Nat) (ops : FifoOps := {})
  | irqHostAck (v : Nat)
  | irqSwSet (n : Nat)
  | irqSrcCfg (n : Nat) (w : Word)
  | msixMask (w : MsixWr)
  | fltForce (n : Nat) (w : Word)
  | fltAck (src : Nat)
  | fltAckAll
  | pwrIslReq (n : Nat) (st : Nat)
  | pwrIslFreq (n : Nat) (mhz : Nat)
  | registerWrite (who : Requester) (off size : Nat) (val : BitVec 64) (partialBe : Bool := false)
  | smbReadHottestTj
  | smbReadHottestIndex
  | smbReadPower
  | smbReadState
  | smbReadThermalStatus
  | smbReadSensorTj (code : Nat)
  | smbReadRailCurrent (code : Nat)
  | smbUnknownCommand (code n : Nat)
  | smbAlertResponse
  | tapReset
  | extest (load : List Bool := [])
  | samplePreload (load : List Bool := [])
  | idcode
  | highz
  | clamp
  | extestPulse (load : List Bool := [])
  | extestTrain (load : List Bool := [])
  | dbgSteward
  | dbgFabric
  | bypass
  | apertureTlpArrival (off rd : Nat) (bytes : List Byte := []) (pop : Bool := false)
  | pcieLinkUp
  | configurationRequest (r : CfgReq)
  | delayReqTransmit
  | thermalAlertClears (ts : Nat) (tj : Int)
  | stackTemperatureReport (stack : Nat) (temp : Nat)
  | dmaFifoLevelPause (ch : Nat) (words : Nat)
  | stewardCoreWfi (core : Nat)
  deriving DecidableEq, Repr

end Sys2Proof
end

