-- ==== Sys2Proof/Decode.lean ====
section
/-!
DEFINITION. The command that a word spells. No row of spec/opcode_table.json gives its command any bits: the VX192 is
commanded by pins, clocks, registers and ring entries, each by its own rule. So no word spells a command.
-/

namespace Sys2Proof

/-- The command that a word of the opcode table's bits spells: the table gives no row bits, so none (assumption log 3). -/
def decodeTableWord (_nbits _w : Nat) : Option Instr := none

end Sys2Proof
end

