-- ==== Sys2Proof/Machine/Table.lean ====
section
/-!
DEFINITION. Tables: every array and every addressed memory of the state is a list of (key, value) pairs in one canonical
form, keys strictly rising and no entry equal to what an unlisted key reads as, so that equal contents are equal data.
-/

namespace Sys2Proof.Machine

/-- Contents of an array or of an addressed memory, by key. -/
abbrev Tbl (α : Type) := List (Nat × α)

/-- Reads key `k`; `d` is what an unlisted key reads as. -/
def Tbl.get {α : Type} (d : α) : Tbl α → Nat → α
  | [], _ => d
  | (k', v) :: t, k => if k = k' then v else if k < k' then d else Tbl.get d t k

/-- The entry of key `k` in front of a table whose keys are above `k`: none where the value is the unlisted one. -/
def Tbl.cons {α : Type} [DecidableEq α] (d : α) (k : Nat) (v : α) (t : Tbl α) : Tbl α :=
  if v = d then t else (k, v) :: t

/-- Writes key `k`, keeping the canonical form. -/
def Tbl.set {α : Type} [DecidableEq α] (d : α) : Tbl α → Nat → α → Tbl α
  | [], k, v => Tbl.cons d k v []
  | (k', v') :: t, k, v =>
    if k = k' then Tbl.cons d k v t
    else if k < k' then Tbl.cons d k v ((k', v') :: t)
    else (k', v') :: Tbl.set d t k v

/-- Changes the value of key `k` by `f`. -/
def Tbl.upd {α : Type} [DecidableEq α] (d : α) (t : Tbl α) (k : Nat) (f : α → α) : Tbl α :=
  t.set d k (f (t.get d k))

/-- Every listed key is at least `lo`, keys rise strictly, and no entry holds the unlisted value. -/
def Tbl.wfFrom {α : Type} [DecidableEq α] (d : α) : Nat → Tbl α → Bool
  | _, [] => true
  | lo, (k, v) :: t => decide (lo ≤ k) && decide (v ≠ d) && Tbl.wfFrom d (k + 1) t

/-- The canonical form. -/
def Tbl.wf {α : Type} [DecidableEq α] (d : α) (t : Tbl α) : Bool := Tbl.wfFrom d 0 t

/-- Writes consecutive keys from `k` on. -/
def Tbl.setList {α : Type} [DecidableEq α] (d : α) (t : Tbl α) (k : Nat) : List α → Tbl α
  | [] => t
  | v :: vs => Tbl.setList d (t.set d k v) (k + 1) vs

/-- Reads `n` consecutive keys from `k` on. -/
def Tbl.getList {α : Type} (d : α) (t : Tbl α) (k n : Nat) : List α :=
  (List.range n).map fun i => t.get d (k + i)

/-- Drops every entry whose key satisfies `p`: those keys read as unlisted again. -/
def Tbl.drop {α : Type} (t : Tbl α) (p : Nat → Bool) : Tbl α := t.filter fun e => !p e.1

/-- Changes every listed value by its key. -/
def Tbl.remap {α : Type} [DecidableEq α] (d : α) (f : Nat → α → α) : Tbl α → Tbl α
  | [] => []
  | (k, v) :: t => Tbl.cons d k (f k v) (Tbl.remap d f t)

/-- Number of listed keys. -/
def Tbl.count {α : Type} (t : Tbl α) : Nat := t.length

/-- Value of `n` bytes, the first the most significant (R57). -/
def beNat (bs : List Byte) : Nat := bs.foldl (fun a b => a * 256 + b.toNat) 0

/-- Value of bytes, the first the least significant (R4, R415). -/
def leNat (bs : List Byte) : Nat := bs.foldr (fun b a => b.toNat + 256 * a) 0

/-- The `n` bytes of `v`, least significant first. -/
def leBytes : Nat → Nat → List Byte
  | 0, _ => []
  | n + 1, v => BitVec.ofNat 8 v :: leBytes n (v / 256)

/-- The `n` bytes of `v`, most significant first. -/
def beBytes (n v : Nat) : List Byte := (leBytes n v).reverse

/-- Bits `[lo + n - 1 : lo]` of a number. -/
def bitsOf (v lo n : Nat) : Nat := v / 2 ^ lo % 2 ^ n

/-- Bit `i` of a number. -/
def bitOf (v i : Nat) : Bool := bitsOf v i 1 == 1

/-- One bit as a number. -/
def bit (b : Bool) : Nat := if b then 1 else 0

/-- Adds a natural number to a statistics counter, modulo 2^64 (R460). -/
def cntAdd (n : Nat) (c : Cnt) : Cnt := c + BitVec.ofNat 64 n

/-- Byte `i` of a list, 0 beyond its end. -/
def byteAt (bs : List Byte) (i : Nat) : Nat := ((bs[i]?).getD 0).toNat

/-- `n` bytes of a list from offset `off` on. -/
def slice (bs : List Byte) (off n : Nat) : List Byte := (bs.drop off).take n

/-- Big-endian value of `n` bytes at offset `off`. -/
def beAt (bs : List Byte) (off n : Nat) : Nat := beNat (slice bs off n)

/-- A byte list with the bytes from offset `off` on overwritten by `new`. -/
def splice (bs : List Byte) (off : Nat) (new : List Byte) : List Byte := bs.take off ++ new ++ bs.drop (off + new.length)

/-- Numbers `a, a + 1, …` below `b`. -/
def range2 (a b : Nat) : List Nat := (List.range (b - a)).map (a + ·)

/-- Smallest element of a list by a key, the earlier of equals. -/
def minBy {α : Type} (key : α → Nat) : List α → Option α
  | [] => none
  | x :: xs =>
    match minBy key xs with
    | none => some x
    | some y => if key y < key x then some y else some x

end Sys2Proof.Machine
end

