-- ==== Sys2Proof/Machine/Entry.lean ====
section
/-!
DEFINITION. Command entries of the mailbox: what the bytes of an entry spell in the native and in the Fenic layout, and the objects
that a command names (R77 to R79, R413 to R416).
-/

namespace Sys2Proof.Machine

/-! ### Fields of an entry -/

/-- A field of an entry as a number, least significant byte first: `w` bits from bit `b` of byte `o` on (R78, R415). -/
def fld (bs : List Byte) (o b w : Nat) : Nat := leNat bs / 2 ^ (8 * o + b) % 2 ^ w

/-- Nothing stands outside the given fields, each a byte, a bit of it and a width: reserved and unused bits are 0 (R78, R415). -/
def restZero (bs : List Byte) (fs : List (Nat × Nat × Nat)) : Bool :=
  decide (leNat bs = (fs.map fun f => fld bs f.1 f.2.1 f.2.2 * 2 ^ (8 * f.1 + f.2.1)).sum)

/-- OPCODE, IRQ and TAG, which lie alike in both layouts (R78, R415). -/
def hdrFields : List (Nat × Nat × Nat) := [(0, 0, 8), (1, 0, 1), (2, 0, 16)]
def entryHdr (bs : List Byte) : CmdHdr := { tag := fld bs 2 0 16, irq := fld bs 1 0 1 == 1 }

/-- What a command reads outside its entry, in an entry's instruction: no blob, and reads that succeed. -/
def noReads : FlashReads := { sfdp := true, header := true, dir := true, body := true }

/-! ### Native entries (R415, R416) -/

/-- SESSION_OPEN with KIND 0 and with KIND 1 (R253, R416). -/
def openArgs (bs : List Byte) : OpenArgs :=
  { channel := fld bs 5 0 8, width := fld bs 6 0 16, height := fld bs 8 0 16, pt := fld bs 10 0 7, ipv6 := fld bs 11 0 1 == 1
    srcAddr := beAt bs 12 16, srcPort := fld bs 28 0 16, ssrc := fld bs 32 0 32, seed := fld bs 36 0 64
    rsvOk := restZero bs (hdrFields ++ [(4, 0, 8), (5, 0, 8), (6, 0, 16), (8, 0, 16), (10, 0, 7), (11, 0, 1), (12, 0, 128),
      (28, 0, 16), (32, 0, 32), (36, 0, 64)]) }
def ctxArgs (bs : List Byte) : CtxArgs :=
  { dcx := fld bs 5 0 8, codec := fld bs 6 0 4, rtp := fld bs 7 0 1 == 0, outHost := fld bs 7 1 1 == 1, bindEn := fld bs 7 2 1 == 1
    ipv6 := fld bs 7 3 1 == 1, bindCh := fld bs 8 0 8, pt := fld bs 9 0 7, reorder := fld bs 10 0 16, srcAddr := beAt bs 12 16
    srcPort := fld bs 28 0 16, dstPort := fld bs 30 0 16, ssrc := fld bs 32 0 32
    rsvOk := restZero bs (hdrFields ++ [(4, 0, 8), (5, 0, 8), (6, 0, 4), (7, 0, 4), (8, 0, 8), (9, 0, 7), (10, 0, 16), (12, 0, 128),
      (28, 0, 16), (30, 0, 16), (32, 0, 32)]) }

/-- DELIVERY_ADD (R298, R416). -/
def addArgs (bs : List Byte) : AddArgs :=
  { channel := fld bs 4 0 8, player := fld bs 5 0 1 == 1, ipv6 := fld bs 5 1 1 == 1, maxTid := fld bs 5 2 2, prof := fld bs 5 4 4
    outer := fld bs 6 0 12, dstAddr := beAt bs 8 16, dstPort := fld bs 24 0 16, srcPort := fld bs 26 0 16, ssrc := fld bs 28 0 32
    dstMac := beAt bs 32 6, dscp := fld bs 38 2 6, ecn := fld bs 38 0 2, hop := fld bs 39 0 8, vlan0 := fld bs 40 0 32
    vlan1 := fld bs 44 0 32, markId := fld bs 48 0 32, keySlot := fld bs 52 0 20, rate := fld bs 56 0 32, burst := fld bs 60 0 16
    dropAt := fld bs 62 0 16
    rsvOk := restZero bs (hdrFields ++ [(4, 0, 8), (5, 0, 8), (6, 0, 12), (8, 0, 128), (24, 0, 16), (26, 0, 16), (28, 0, 32), (32, 0, 48),
      (38, 0, 8), (39, 0, 8), (40, 0, 32), (44, 0, 32), (48, 0, 32), (52, 0, 20), (56, 0, 32), (60, 0, 16), (62, 0, 16)]) }

/-- A native entry whose reserved bits are 0 apart from the fields `fs` is `i`; one with a reserved bit set is a reserved form (R414). -/
def formed (bs : List Byte) (fs : List (Nat × Nat × Nat)) (i : Instr) : Instr :=
  if restZero bs (hdrFields ++ fs) then i else .reservedOpcode (entryHdr bs) (fld bs 0 0 8)

/-- The command that a native entry of 64 bytes spells (R415, R416). -/
def nativeCommand (bs : List Byte) : Instr :=
  let h := entryHdr bs
  let op := fld bs 0 0 8
  let bad : Instr := .reservedOpcode h op
  if op = 0x01 then (if fld bs 4 0 8 = 0 then .sessionOpen h (openArgs bs) else if fld bs 4 0 8 = 1 then .sessionOpenContext h (ctxArgs bs)
    else bad)
  else if op = 0x02 then
    let ok := restZero bs (hdrFields ++ [(4, 0, 8), (5, 0, 8)])
    if fld bs 4 0 8 = 0 then .sessionClose h (fld bs 5 0 8) ok
    else if fld bs 4 0 8 = 1 then .sessionCloseContext h (fld bs 5 0 8) ok else bad
  else if op = 0x03 then .deliveryAdd h (addArgs bs)
  else if op = 0x04 then formed bs [(4, 0, 20)] (.deliveryDel h (fld bs 4 0 20))
  else if op = 0x05 then
    formed bs [(4, 0, 2), (8, 0, 64), (16, 0, 32), (20, 0, 20)] (if fld bs 4 0 2 = 0 then .keyImport h (fld bs 8 0 64) (fld bs 16 0 32) []
      else if fld bs 4 0 2 = 1 then .keyErase h (fld bs 20 0 20) else bad)
  else if op = 0x06 then
    formed bs [(4, 0, 8), (5, 0, 1), (8, 0, 32), (12, 0, 20)] (if fld bs 5 0 1 = 0 then .targetSet h (fld bs 4 0 8) (fld bs 8 0 32)
      else .targetSetDelivery h (fld bs 12 0 20) (fld bs 8 0 32))
  else if op = 0x07 then formed bs [(4, 0, 4)] (.rulesetSwap h (fld bs 4 0 4))
  else if op = 0x08 then formed bs [(4, 0, 8), (5, 0, 8)] (.islandState h (fld bs 4 0 8) (fld bs 5 0 8))
  else if op = 0x09 then formed bs [(4, 0, 8), (8, 0, 32)] (.islandFreq h (fld bs 4 0 8) (fld bs 8 0 32))
  else if op = 0x0A then formed bs [(8, 0, 32), (12, 0, 32)] (.attest h (fld bs 8 0 32) (fld bs 12 0 32))
  else if op = 0x0B then
    let slot := fld bs 4 0 8
    formed bs [(4, 0, 8), (5, 0, 8), (8, 0, 32), (12, 0, 32), (16, 0, 32)] (if fld bs 5 0 8 = 0 then
        .imageWriteProgram h slot (fld bs 8 0 32) (fld bs 12 0 32) (fld bs 16 0 32)
      else if fld bs 5 0 8 = 1 then .imageWriteErase h slot (fld bs 8 0 32) (fld bs 12 0 32)
      else if fld bs 5 0 8 = 2 then .imageWriteVerify h slot noReads else bad)
  else if op = 0x0C then formed bs [] (.restart h)
  else if op = 0x0D then formed bs [(4, 0, 9)] (.faultAck h (fld bs 4 0 9))
  else if op = 0x0E then formed bs [(4, 0, 32), (8, 0, 64), (16, 0, 32)] (.statsRead h (fld bs 4 0 32) (fld bs 8 0 64) (fld bs 16 0 32))
  else bad

/-! ### Fenic entries (R78, R79) -/

/-- Fields of a Fenic entry's ARGS by opcode (R79). -/
def fenicFields (op : Nat) : List (Nat × Nat × Nat) :=
  if op = 0x01 then [(8, 0, 16), (10, 0, 16), (12, 0, 32)]
  else if op = 0x03 then [(8, 0, 32), (12, 0, 16), (14, 0, 12), (16, 0, 32), (20, 0, 16), (24, 0, 32)]
  else if op = 0x04 ∨ op = 0x06 then [(8, 0, 32)]
  else if op = 0x05 then [(8, 0, 64), (16, 0, 32), (20, 0, 16)]
  else if op = 0x07 then [(8, 0, 64), (16, 0, 32)]
  else if op = 0x08 then [(8, 0, 16)]
  else if op = 0x09 then [(8, 0, 32), (12, 0, 32), (16, 0, 32)]
  else []

/-- Reserved bits and unused bytes of a Fenic entry are 0, or its opcode is reserved (R78, R79). -/
def fenicFormed (bs : List Byte) : Bool :=
  let op := fld bs 0 0 8
  op == 0 || decide (0x0A < op) || restZero bs (hdrFields ++ (4, 0, 6) :: fenicFields op)

/-- The command that a Fenic entry of 32 bytes spells (R79). DEL_DEST names its delivery by its handle, and ignores CHANNEL. Assumption log
108, DESIGN CHOICE. -/
def fenicCommand (bs : List Byte) : Instr :=
  let h := entryHdr bs
  let op := fld bs 0 0 8
  let ch := fld bs 4 0 6
  if op = 0x01 then .openStream h ch (fld bs 8 0 16) (fld bs 10 0 16) (fld bs 12 0 32)
  else if op = 0x02 then .closeStream h ch
  else if op = 0x03 then
    .addDest h { channel := ch, dstAddr := fld bs 8 0 32, dstPort := fld bs 12 0 16, vlan := fld bs 14 0 12, ssrc := fld bs 16 0 32
                 keySlot := fld bs 20 0 16, rate := fld bs 24 0 32 }
  else if op = 0x04 then .delDest h (fld bs 8 0 32)
  else if op = 0x05 then .loadKey h (fld bs 8 0 64) (fld bs 16 0 32) (fld bs 20 0 16) []
  else if op = 0x06 then .setBitrate h ch (fld bs 8 0 32)
  else if op = 0x07 then .getStats h ch (fld bs 8 0 64) (fld bs 16 0 32)
  else if op = 0x08 then .clearAlarm h (fld bs 8 0 16)
  else if op = 0x09 then .flashWrite h (fld bs 8 0 32) (fld bs 12 0 32) (fld bs 16 0 32)
  else if op = 0x0A then .reboot h
  else .badOpcode h op

/-- The command that an entry spells in a layout. -/
def entryCommand (fenic : Bool) (bs : List Byte) : Instr := if fenic then fenicCommand bs else nativeCommand bs

/-! ### The objects that a command names (R413) -/

/-- Kinds of object: 0 channel, 1 context, 2 delivery, 3 key slot, 4 island, 5 flash slot, 6 rule set; every object of the kind where no
number is given, as for the slot that only a blob names. -/
def namedObjects (i : Instr) : List (Nat × Option Nat) :=
  match i with
  | .sessionOpen _ a => [(0, some a.channel)]
  | .sessionOpenContext _ a => (1, some a.dcx) :: (if a.bindEn then [(0, some a.bindCh)] else [])
  | .sessionClose _ ch _ => [(0, some ch)]
  | .sessionCloseContext _ x _ => [(1, some x)]
  | .deliveryAdd _ a => [(0, some a.channel), (3, some a.keySlot)]
  | .deliveryDel _ k => [(2, some k)]
  | .keyImport _ _ _ _ => [(3, none)]
  | .keyErase _ k => [(3, some k)]
  | .targetSet _ ch _ => [(0, some ch)]
  | .targetSetDelivery _ k _ => [(2, some k)]
  | .rulesetSwap _ k => [(6, some k)]
  | .islandState _ k _ => [(4, some k)]
  | .islandFreq _ k _ => [(4, some k)]
  | .imageWriteProgram _ k _ _ _ => [(5, some k)]
  | .imageWriteErase _ k _ _ => [(5, some k)]
  | .imageWriteVerify _ k _ => [(5, some k)]
  | .openStream _ ch _ _ _ => [(0, some ch)]
  | .closeStream _ ch => [(0, some ch)]
  | .addDest _ a => [(0, some a.channel), (3, some a.keySlot)]
  | .delDest _ k => [(2, some k)]
  | .loadKey _ _ _ k _ => [(3, some k)]
  | .setBitrate _ ch _ => [(0, some ch)]
  | .getStats _ ch _ _ => [(0, some ch)]
  | .flashWrite _ _ _ _ => [(5, none)]
  | _ => []

/-- Two commands name the same object. -/
def sameObject (i j : Instr) : Bool :=
  (namedObjects i).any fun a => (namedObjects j).any fun b =>
    a.1 == b.1 && (a.2.isNone || b.2.isNone || a.2 == b.2)

end Sys2Proof.Machine
end

