-- ==== Sys2Proof/Machine/State.lean ====
section
/-!
DEFINITION. The state of the VX192: everything the spec gives the block, as plain data. Every field's default is its
value at reset. An array is a table (Machine/Table.lean) keyed by the unit's number.
-/

namespace Sys2Proof.Machine

/-- Faults of a step. No command of the VX192 ends in one: whatever goes wrong in the part is an event that its fault
collector records in the state (R438 to R444). -/
inductive Fault where
  /-- Raised by nothing: every command answers a next state. Safe. -/
  | none
  deriving DecidableEq, Repr

/-- Refusals of a step. -/
inductive Refusal where
  /-- Raised by an arm of `exec` whose command has no meaning yet. Safe: the step stops. -/
  | notModelled (mnemonic : String)
  deriving DecidableEq, Repr

/-! ### Device, pins, thermal (01, 02) -/

/-- Device states (R18), in the coding of GLB_STATE.STATE (R23). -/
inductive DevSt where
  | reset | load | train | run | safe | loadfail
  deriving DecidableEq, Repr

/-- Coding of GLB_STATE.STATE (R23). -/
def DevSt.code : DevSt → Nat
  | .reset => 0 | .load => 1 | .train => 2 | .run => 3 | .safe => 4 | .loadfail => 5

/-- GLB block and what decides leaving RESET (R18, R23, R32, R37, R42, R70). -/
structure Glb where
  st          : DevSt := .reset
  /-- slot whose image is loaded: 0 A, 1 B (R23) -/
  imgSlot     : Nat := 0
  /-- LAST_RESET (R23): 0 power-on, 1 RESET_N, 2 PERST_N, 3 RESTART -/
  lastReset   : Nat := 0
  /-- cause that moved the device into the present RESET, and the AON cycle at which it did (R42) -/
  cause       : Nat := 0
  causeAt     : Nat := 0
  /-- the internal power-on reset has released (R36) -/
  por         : Bool := false
  /-- the 1 ms in RESET after RESTART has not yet passed (R70) -/
  restartHold : Bool := false
  /-- RESTART has executed and the device enters RESET within 1 ms (R70), and the AON cycle in which it executed (R18) -/
  restartPend : Bool := false
  restartAt   : Nat := 0
  /-- straps as sampled (R31, R32) -/
  compat      : Bool := false
  smbAddr     : Nat := 0
  /-- step 16 has loaded the tables (R51, R489) -/
  tables      : Bool := false
  deriving DecidableEq, Repr

/-- Levels on the input pins, the clock that AON runs on, and the latched or driven pins (R27, R29, R34, R38).
Assumption log 9, DESIGN CHOICE. -/
structure Pins where
  resetN  : Bool := false
  perstN  : Bool := false
  compat  : Bool := false
  smbAddr : Nat := 0
  /-- AON runs on REFCLK_SYS; otherwise on its internal oscillator (R34) -/
  clkSys  : Bool := true
  /-- THERMTRIP_N has gone low and VDD_AON has not been removed since (R29) -/
  thermtrip : Bool := false
  /-- XSPI_RST_N is high (R38) -/
  xspiRst : Bool := false
  deriving DecidableEq, Repr

/-- Die sensors (R46): Tj in units of 0.25 °C, and the live conditions. Assumption log 9, DESIGN CHOICE. -/
structure Therm where
  tj   : Tbl Int := []
  warn : Tbl Bool := []
  crit : Tbl Bool := []
  deriving DecidableEq, Repr

/-- Clocks of the block: AON cycles passed, and the device's PTP time in half-picoseconds since the PTP epoch, so that
one AON cycle (2.5 ns) is 5000 units and a slew of 200 ppm is one unit of it (R143). -/
structure Clock where
  aon     : Nat := 0
  ptp     : Nat := 0
  /-- seconds latched by a read of ROTA_TIME_NS (R148) -/
  latched : Nat := 0
  /-- the PTP time unit runs: from the entry into TRAIN on (R143) -/
  running : Bool := false
  /-- AON cycle at the entry into RUN, for EGR_TIME (R321) -/
  runAt   : Nat := 0
  deriving DecidableEq, Repr

/-! ### Configuration image (03 and the chapters that lay its sections out) -/

/-- CFG registers (R72 to R75). -/
structure Cfg where
  phase   : Nat := 0
  loaded  : Bool := false
  slotA   : Nat := 0
  slotB   : Nat := 0
  imgVer  : Nat := 0
  imgHash : List Byte := []
  rotaId  : List Byte := []
  /-- step 15 of R51 has copied the staged sections -/
  copied  : Bool := false
  deriving DecidableEq, Repr

/-- Channel class record: size, rate and structure (R116) with the input description (R152). -/
structure ChClass where
  maxW     : Nat
  maxH     : Nat
  rate     : Nat
  format   : Nat
  layers   : Nat
  lanes    : Nat
  latency  : Nat
  pixFmt   : Nat
  hint     : Bool
  cut      : Bool
  transfer : Nat
  primaries : Nat
  segs     : Nat
  pathVft  : Bool
  pathPcie : Bool
  pathBind : Bool
  ring     : Nat
  deriving DecidableEq, Repr

/-- Coding parameters of a class record (R216). -/
structure ChCoding where
  mode     : Nat
  modelSet : Nat
  maxPay   : Nat
  target   : Nat
  peak     : Nat
  minK     : Nat
  qpMin    : Nat
  qpMax    : Nat
  cqQp     : Nat
  refreshN : Nat
  refreshHold : Nat
  feedback : Bool
  ackRef   : Bool
  mark     : Bool
  cutRefresh : Bool
  ackDepth : Nat
  markEvery : Nat
  markDelta : Nat
  extId    : Nat
  deriving DecidableEq, Repr

/-- Class of one channel. -/
structure Class where
  base : ChClass
  cod  : ChCoding
  deriving DecidableEq, Repr

/-- One run entry of the encode rota (R122). -/
structure RunEnt where
  kind  : Nat
  start : Nat
  part  : Nat
  len   : Nat
  ch    : Nat
  sheaf : Nat
  frame : Nat
  lead  : Nat
  deriving DecidableEq, Repr

/-- One run entry of the decode rota (R137). -/
structure DecEnt where
  start : Nat
  kind  : Nat
  dcx   : Nat
  len   : Nat
  deriving DecidableEq, Repr

/-- Declaration of one decode context in DEC_ROTA (R252). -/
structure DecDecl where
  maxW   : Nat
  maxH   : Nat
  rate   : Nat
  codecs : Nat
  outFrames : Nat
  inMib  : Nat
  deriving DecidableEq, Repr

/-- One gleaning case of GLEAN_GOLDEN (R211). -/
structure GleanCase where
  kind   : Nat
  format : Nat
  width  : Nat
  height : Nat
  offset : Nat
  len    : Nat
  sig    : BitVec 64
  /-- the case data -/
  data   : List Byte := []
  deriving DecidableEq, Repr

/-- One set of RC_MODELS (R217): thresholds, default class, and (BPK_INTER, BPK_CUT, LAMBDA) by 64 × class + q. -/
structure RcModel where
  thresh : List Nat
  dflt   : Nat
  bpk    : List (Nat × Nat × Nat)
  deriving DecidableEq, Repr

/-- Parser program (R286): 64-bit instructions and the entry point of each port. -/
structure ParserImg where
  entry0 : Nat := 0
  entry1 : Nat := 0
  code   : List (BitVec 64) := []
  deriving DecidableEq, Repr

/-- One egress profile of a rule set (R306, R311): the fields it may rewrite and its eight action words. -/
structure RwProfile where
  mask    : Nat := 0
  actions : List Nat := []
  deriving DecidableEq, Repr

/-- One outer template (R311): its header bytes and its patch offsets IP4_TOT, IP4_CSUM, UDP_LEN, IP6_PL. -/
structure OuterTpl where
  bytes  : List Byte := []
  ip4Tot : Nat := 0
  ip4Csum : Nat := 0
  udpLen : Nat := 0
  ip6Pl  : Nat := 0
  deriving DecidableEq, Repr

/-- One rule set of RULESETS (R311): profiles, the 4,096 indirection entries and the 4,096 outer templates. -/
structure RuleSet where
  profiles  : List RwProfile := []
  indirect  : List Nat := []
  templates : List OuterTpl := []
  deriving DecidableEq, Repr

/-- One exact-match table definition of EM_TABLE_DEFS (R293). -/
structure EmDef where
  role   : Nat := 0
  keyLen : Nat := 0
  cap    : Nat := 0
  staticOff : Nat := 0
  staticCnt : Nat := 0
  deriving DecidableEq, Repr

/-- One gate list entry (R332). -/
structure GateEnt where
  gates    : Nat := 0
  interval : Nat := 0
  deriving DecidableEq, Repr

/-- Queue parameters of GATE_LISTS (R332). -/
structure QueueCfg where
  cls    : Nat := 0
  weight : Nat := 0
  depth  : Nat := 0
  deriving DecidableEq, Repr

/-- GATE_LISTS of one port (R332). -/
structure GateImg where
  mode    : Nat := 0
  cycleNs : Nat := 0
  phaseNs : Nat := 0
  queues  : List QueueCfg := []
  ents    : List GateEnt := []
  deriving DecidableEq, Repr

/-- One region of HBM_SETUP's map (R371). -/
structure Region where
  type  : Nat
  owner : Nat
  base  : Nat
  pages : Nat
  deriving DecidableEq, Repr

/-- HBM_SETUP (R371): granule, watermarks, port priorities, correctable-error limit, retraining limit, regions. -/
structure HbmImg where
  granule : Nat := 0
  wrHigh  : Nat := 0
  wrLow   : Nat := 0
  prio    : List Nat := []
  ceLimit : Nat := 0
  retrainS : Nat := 0
  regions : List Region := []
  deriving DecidableEq, Repr

/-- Port block of NET_SETUP (R313). -/
structure PortImg where
  mac     : Nat := 0
  laneSub : Bool := false
  txInv   : Nat := 0
  rxInv   : Nat := 0
  ip6     : Nat := 0
  ip4     : Nat := 0
  deriving DecidableEq, Repr

/-- COMPAT delivery defaults of NET_SETUP (R314). -/
structure CompatDel where
  prof   : Nat := 0
  maxTid : Nat := 0
  hop    : Nat := 0
  outer  : Nat := 0
  srcPort : Nat := 0
  dscp   : Nat := 0
  ecn    : Nat := 0
  dstMac : Nat := 0
  tpid   : Nat := 0
  burst  : Nat := 0
  dropAt : Nat := 0
  deriving DecidableEq, Repr

/-- COMPAT channel defaults of NET_SETUP (R314). -/
structure CompatCh where
  srcAddr : Nat := 0
  srcPort : Nat := 0
  ipv6    : Bool := false
  pt      : Nat := 0
  ssrc    : Nat := 0
  deriving DecidableEq, Repr

/-- NET_SETUP (R313). -/
structure NetImg where
  ptpPort   : Nat := 0
  ptpDomain : Nat := 0
  ptpTrans  : Nat := 0
  vftPrio   : Nat := 0
  vftPort   : Nat := 0
  wmHigh    : List Nat := []
  wmLow     : List Nat := []
  holdA     : Nat := 0
  holdB     : Nat := 0
  excDrop   : Nat := 0
  ports     : List PortImg := []
  cDel      : CompatDel := {}
  cCh       : List CompatCh := []
  deriving DecidableEq, Repr

/-- Contents of the loaded configuration image, section by section (R60). Assumption log 75, DESIGN CHOICE. -/
structure Img where
  /-- STEWARD_FW: the firmware's bytes (R60); the firmware's own code is run by no command -/
  fw       : List Byte := []
  classes  : List Class := []
  encRota  : List (Nat × List RunEnt) := []
  decRota  : List (Nat × List DecEnt) := []
  /-- DEC_ROTA is present, and its context records (R60, R252) -/
  hasDec   : Bool := false
  dec      : List DecDecl := []
  laneMap  : List Nat := []
  glean    : List GleanCase := []
  parser   : ParserImg := {}
  rules    : List RuleSet := []
  emSeed1  : Nat := 0
  emSeed2  : Nat := 0
  em       : List EmDef := []
  /-- bytes of EM_TABLE_DEFS, which hold the STATIC entries (R293) -/
  emBytes  : List Byte := []
  models   : List RcModel := []
  gates    : List GateImg := []
  levels   : List Nat := []
  hbm      : HbmImg := {}
  freq     : List Nat := []
  net      : NetImg := {}
  deriving DecidableEq, Repr

/-! ### Identity, fuses, keys, JTAG, firewall (04) -/

/-- The fuse array (R81); a bit only ever changes from 0 to 1 (R87). Assumption log 7, DESIGN CHOICE. -/
structure Fuses where
  serial     : BitVec 64 := 0
  rootSecret : BitVec 256 := 0
  idkey      : BitVec 656 := 0
  owner      : BitVec 512 := 0
  /-- how many of the three OWNER_SET fuses, and of the three DEBUG_CLOSE fuses, are burned -/
  ownerOnes  : Nat := 0
  debugOnes  : Nat := 0
  deriving DecidableEq, Repr

/-- Fuse values as AON sensed them at power-on (R81, R83, R107). Assumption log 7, DESIGN CHOICE. -/
structure Sensed where
  serial      : BitVec 64 := 0
  owner       : BitVec 512 := 0
  ownerSet    : Bool := false
  debugClosed : Bool := false
  idkeyOk     : Bool := false
  eccErr      : Bool := false
  /-- OWNER_HASH has a double-bit error, so check 4 of R62 fails (R83) -/
  ownerBad    : Bool := false
  deriving DecidableEq, Repr

/-- SEC block (R91, R95, R98, R107 to R110). Assumption log 32, PRESUMED. -/
structure Sec where
  fuses    : Fuses := {}
  sensed   : Sensed := {}
  result   : Nat := 0
  /-- operation of the burn that runs: 1 owner key, 2 debug closure -/
  burn     : Option Nat := none
  stage    : Tbl Word := []
  failCnt  : Nat := 0
  /-- key records of the non-empty slots (R92, R95), under the current internal key -/
  keys     : Tbl (List Byte) := []
  /-- draw of the key-import key pair and the internal key in force (R91, R95) -/
  keyGen   : Nat := 0
  reports  : Nat := 0
  /-- sealed entries of the key store as the key engine last wrote them: an entry authenticates where the granary holds exactly
  these bytes (R95) -/
  entries  : Tbl (List Byte) := []
  /-- bounds of the private path into the KEY_STORE region, fixed at step 16 of R51: base and length in bytes (R95) -/
  ksBase   : Nat := 0
  ksLen    : Nat := 0
  /-- instruction of the TAP (R98) -/
  tap      : Nat := 0x02
  /-- update latches of the boundary-scan register, in the order of `scanCells` (R50) -/
  scan     : List Bool := []
  /-- the steward cores' debug module is held in reset (R100) -/
  dmReset  : Bool := false
  deriving DecidableEq, Repr

/-- Response of the fabric to a master: whether it is an error response (for the PCIe function a Completer Abort), and the data of
a read (R103, R105). Assumption log 10, DESIGN CHOICE. -/
structure FabResp where
  master : Nat
  err    : Bool
  data   : List Byte
  deriving DecidableEq, Repr

/-- Fabric firewall (R101 to R113). -/
structure Fab where
  lock    : Bool := false
  violCnt : Nat := 0
  violKind : Nat := 0
  violMaster : Nat := 0
  frozen  : Tbl Bool := []
  /-- window registers: key 32 × master + 4 × window + (0 base, 1 limit, 2 attributes) (R113) -/
  win     : Tbl Nat := []
  /-- requests held at a frozen master's port (R105) -/
  held    : List FabReq := []
  /-- allowed transactions that wait for an island in HOLD or a stopped stack (R466) -/
  waiting : List FabReq := []
  /-- responses of the last transactions (R102, R105, R447) -/
  resps   : List FabResp := []
  deriving DecidableEq, Repr

/-! ### Rota, network time, lanes (05) -/

/-- Coding kinds of a sheaf (R220), coded as RC_STAT.LAST_KIND (R245). -/
inductive SheafKind where
  | none | normal | lean | allSkip
  deriving DecidableEq, Repr

/-- Coding of RC_STAT.LAST_KIND (R245). -/
def SheafKind.code : SheafKind → Nat
  | .none => 0 | .normal => 1 | .lean => 2 | .allSkip => 3

/-- Ledger and coding state of one channel part, committed when a sheaf passes (R209, R210, R219, R245). -/
structure Ledger where
  debt     : Nat := 0
  left     : Int := 0
  goal     : Int := 0
  slack    : Nat := 0
  lastQ    : Nat := 0
  lastKind : SheafKind := .none
  lastClass : Nat := 0
  deriving DecidableEq, Repr

/-- Session of a channel (R181, R207, R225, R416). -/
structure Sess where
  isOpen : Bool := false
  /-- number of the session, one for each SESSION_OPEN -/
  id     : Nat := 0
  w      : Nat := 0
  h      : Nat := 0
  pt     : Nat := 0
  ssrc   : Nat := 0
  seed   : Nat := 0
  fenic  : Bool := false
  /-- VFT source (R158) -/
  srcAddr : Nat := 0
  srcPort : Nat := 0
  ipv6   : Bool := false
  /-- global frame number of the first frame (R125, R225) -/
  n0     : Nat := 0
  /-- the first frame is known: the rota has started -/
  n0set  : Bool := false
  tsOff  : Nat := 0
  /-- next master sequence number (R207) -/
  seq    : Nat := 0
  /-- a grey root is coded ahead of the next frame (R187, R448) -/
  grey   : Bool := true
  /-- a packet of the session has been written (R206) -/
  sent   : Bool := false
  /-- the decode context the channel is bound to (R12, R253) -/
  bind   : Option Nat := none
  /-- a delivery has been added since the session opened (R314) -/
  added  : Bool := false
  deriving DecidableEq, Repr

/-- Decisions taken for a frame at the first run that executes its sheaf 0 (R223, R225, R227, R233, R240). -/
structure FrDec where
  fr     : Nat := 0
  set    : Bool := false
  e      : Nat := 0
  layer  : Nat := 0
  cut    : Bool := false
  cycle  : Bool := false
  recov  : Bool := false
  /-- the cycle start was requested (R233); a cycle start was postponed at this picture (R227) -/
  restart : Bool := false
  postp  : Bool := false
  /-- j of a T0 picture, and CYCLE_SEQ (R226, R242) -/
  j      : Nat := 0
  cycSeq : Nat := 0
  /-- frame the picture predicts from, plus one; 0 is the grey root (R225) -/
  ref1   : Nat := 0
  /-- a root is coded ahead of the picture; it is the grey root, an IDR (R187, R231) -/
  grey   : Bool := false
  idr    : Bool := false
  /-- reference distance d (R192, R225); POC or order hint of the picture and of its reference (R182, R209) -/
  dist   : Nat := 1
  poc    : Nat := 0
  refPoc : Nat := 0
  /-- AV1: slot of the reference, and refresh_frame_flags (R225, R241) -/
  refSlot : Nat := 0
  refresh : Nat := 0
  /-- requests that the decision has seen and discharges as it is committed (R210, R233, R240) -/
  nHold  : Nat := 0
  nNow   : Nat := 0
  nRec   : Nat := 0
  deriving DecidableEq, Repr

/-- What a core makes of a sheaf (R186, R199, R205, R206): the units of a root coded with it, those ahead of its sheaves first, and how
many these are; the units ahead of the picture's sheaves; the sheaf's unit in variant A, and B for a marked sheaf; each with its
bytes. Then its activity (R218), the blocks re-quantised (R190), whether input rows were filled (R447), final samples by plane, row
and column, the rows left for the next sheaf with their filter parameters (R198), final vectors (R209) and the entropy state at its
end (R196). -/
structure Coded where
  root  : List (Config.UnitRec × List Byte) := []
  rootN : Nat := 0
  pre   : List (Config.UnitRec × List Byte) := []
  a     : Config.UnitRec × List Byte
  b     : Option (Config.UnitRec × List Byte) := none
  activity : Nat := 0
  cap   : Nat := 0
  filled : Bool := false
  rows  : List (Nat × Nat × Nat × List Nat) := []
  carryY : List (List Nat) := []
  carryC : List (List Nat) := []
  filt  : Config.Elems × List Config.BlkRec := ([], [])
  hevc  : Bool := true
  mv    : List (Nat × Option (Int × Int)) := []
  snap  : List Nat := []
  deriving DecidableEq, Repr

/-- State record of a channel part (R209, R210, R218, R219, R226, R235, R246): picture and sheaf position (the frame plus one), the
ledger, activity of each co-located sheaf plus one, boundaries X_s, the last mark, the filter carry with its parameters, the
motion field of the current picture, and the entropy snapshots. -/
structure ChanRec where
  fr1    : Nat := 0
  sh     : Nat := 0
  led    : Ledger := {}
  act    : Tbl Nat := []
  xs     : Tbl Nat := []
  markBit : Nat := 0
  markSh : Nat := 0
  carryY : List (List Nat) := []
  carryC : List (List Nat) := []
  filt   : Config.Elems × List Config.BlkRec := ([], [])
  mv     : Tbl (Option (Int × Int)) := []
  snap   : Tbl (List Nat) := []
  deriving DecidableEq, Repr

/-- The two copies of a state record, and the selector that names the one in force (R210). -/
structure Copies where
  sel : Bool := false
  c0  : ChanRec := {}
  c1  : ChanRec := {}
  deriving DecidableEq, Repr

/-- A picture that the reference pool holds, or that is being reconstructed (R209, R228, R237): its frame plus one, its POC or order
hint, boundaries X_s by part and sheaf, marked blocks by sheaf and CTB column, and its motion field. -/
structure PicRec where
  fr1   : Nat := 0
  poc   : Nat := 0
  xs    : Tbl Nat := []
  marks : List (Nat × Nat) := []
  mv    : Tbl (Option (Int × Int)) := []
  deriving DecidableEq, Repr

/-- What a run was issued to execute (R124), and what rate control decided at its start (R219, R220, R234). -/
structure Run where
  /-- kind of the run entry: 0 SHEAF, 1 CATCHUP, 2 GLEAN (R122) -/
  kind  : Nat
  core  : Nat
  ch    : Nat
  /-- part: 0 whole or left, 1 right -/
  part  : Nat
  /-- global frame number N (R159) and sheaf -/
  fr    : Nat
  sh    : Nat
  /-- the session the sheaf belongs to, as the run began -/
  own   : Sess := {}
  /-- the frame's decisions (R223, R225, R227, R233, R240) -/
  dec   : FrDec := {}
  skind : SheafKind := .none
  q     : Nat := 0
  /-- λ of the mode decision (R196, R220) -/
  lam   : Nat := 0
  cls   : Nat := 0
  /-- the ledger opened in this run, the frame's first of its part (R219) -/
  opens : Bool := false
  led   : Ledger := {}
  /-- refresh column of the sheaf band in luma columns (R226); `none` where the picture refreshes no column of it -/
  refresh : Option (Nat × Nat) := none
  /-- CTB column of the block chosen for marking, where this part codes it (R235) -/
  mark  : Option Nat := none
  /-- gleaning case of a GLEAN run (R211) -/
  gcase : Nat := 0
  /-- what the core has coded; none while it waits for the sheaf-ready notice (R171) -/
  coded : Option Coded := none
  deriving DecidableEq, Repr

/-- One encode lane: binding, the run in progress and the move in progress (R124, R135, R149, R150, R450, R453). -/
structure Lane where
  bound    : Option Nat := none
  run      : Option Run := none
  /-- spare whose admission case runs (R450) -/
  adm      : Option Nat := none
  /-- admitted spare that waits for the next slot boundary (R450) -/
  ready    : Option Nat := none
  /-- the move failed: the lane waits for a unit to pass its quarantine test (R453) -/
  failed   : Bool := false
  nRun     : Cnt := 0
  nFallow  : Cnt := 0
  nCatch   : Cnt := 0
  nOver    : Cnt := 0
  deriving DecidableEq, Repr

/-- One decode lane (R135, R138, R149, R150); `run` is the context of the RUN in progress. -/
structure DLane where
  bound    : Option Nat := none
  run      : Option Nat := none
  /-- blocks that the run in progress still has time for (R138) -/
  left     : Nat := 0
  glean    : Option Nat := none
  adm      : Option Nat := none
  ready    : Option Nat := none
  failed   : Bool := false
  nRun     : Cnt := 0
  nFallow  : Cnt := 0
  nOver    : Cnt := 0
  deriving DecidableEq, Repr

/-- A sheaf of a channel part by global frame number and index. -/
structure ShId where
  fr : Nat
  sh : Nat
  deriving DecidableEq, Repr

/-- One part of a channel (R126, R133, R447): the pending list in order of frame and sheaf, the sheaves that passed and
wait for the other part, and what ended its last run. -/
structure PartSt where
  pend    : List ShId := []
  /-- sheaves of the frame that had begun, for which the full list has no room yet (R131, R146) -/
  later   : List ShId := []
  /-- pending sheaves for which ROTA_BACKLOG has been raised (R130) -/
  late    : List ShId := []
  passed  : List Run := []
  /-- sheaf whose last run ended by an error response (R447) -/
  errRun  : Option ShId := none
  /-- the last sheaf, in order of frame and sheaf, whose own run has started or was passed over (R124, R145, R146) -/
  issued  : Option ShId := none
  /-- sheaves before it whose own runs are still to come, which entries out of the order of frame and sheaf leave (R123, R125) -/
  owed    : List ShId := []
  deriving DecidableEq, Repr

/-- Rota sequencer (R144, R147). -/
structure Rota where
  started     : Bool := false
  startNoLock : Bool := false
  hpCnt       : Cnt := 0
  /-- device time before which no entry is issued: the end of the last clock step (R145) -/
  notBefore   : Nat := 0
  lanes       : Tbl Lane := []
  dlanes      : Tbl DLane := []
  /-- channel parts: key 2 × channel + part -/
  parts       : Tbl PartSt := []
  /-- SKIPPED and SKIP_SAT of ROTA_CH_PEND (R151) -/
  skipped     : Tbl Nat := []
  skipSat     : Tbl Bool := []
  deriving DecidableEq, Repr

/-- A clock that sends Announce messages: its data set, and the AON cycles of its last two (R140). -/
structure Foreign where
  ann  : Announce
  last : Nat
  prev : Option Nat := none
  deriving DecidableEq, Repr

/-- PTP time (R140 to R148, R492, R493). -/
structure Ptp where
  holdoverS : Nat := 0x3C
  ppsInEn   : Bool := false
  stepUs    : Nat := 0x14
  stepped   : Bool := false
  /-- AON cycle of the last edge of 1PPS_IN -/
  ppsAt     : Option Nat := none
  lock      : Nat := 0
  /-- receive timestamp in ns of the last message handed to PTP time (R140, R290) -/
  rxAt      : Option Nat := none
  /-- LOCK has read locked since the time unit started (R144) -/
  wasLocked : Bool := false
  offset    : Int := 0
  ppsOffset : Int := 0
  stepLast  : Int := 0
  drop      : Tbl Cnt := []
  /-- consecutive accepted Syncs within 1 µs (R141) -/
  streak    : Nat := 0
  /-- an offset has been measured since the time unit started (R143) -/
  measured  : Bool := false
  /-- Δ of the step that the next slot boundary applies (R143) -/
  stepPend  : Option Int := none
  /-- port identity of the master that the best master clock algorithm has selected (R140, R492) -/
  master    : Option Nat := none
  /-- clocks whose Announce messages are received (R140) -/
  foreign   : List Foreign := []
  /-- holdover: the averaged frequency in millionths of a half-picosecond per AON cycle above 4999, what is left of a
  half-picosecond, and the phase towards 1PPS_IN that is left to slew, in half-picoseconds (R142) -/
  freq      : Nat := 1000000
  acc       : Nat := 0
  phase     : Int := 0
  /-- transport on which Sync is received (R140) -/
  syncTrans : Option Nat := none
  /-- Delay_Req messages sent -/
  delayReqs : Nat := 0
  deriving DecidableEq, Repr

/-! ### Frame ingress (06) -/

/-- One frame slot of an input ring (R166). -/
structure RingSlot where
  /-- the frame it last held, plus one; 0 none -/
  fr1    : Nat := 0
  sess   : Nat := 0
  given  : Bool := false
  cut    : Bool := false
  /-- sheaves (× parts) of the frame that have not passed -/
  left   : Nat := 0
  /-- the decoded buffer that the frame takes: context and buffer (R274), and whether that picture is CONCEALED (R12) -/
  src    : Option (Nat × Nat) := none
  conc   : Bool := false
  /-- rows of a bound frame that the fill wrote into the ring: key 2^16 × plane + row -/
  ringRows : Tbl Bool := []
  /-- rows that answered a core's read with an error response (R447), same key -/
  badRows : Tbl Bool := []
  /-- sheaves that closed with filled rows (R169), and those whose sheaf-ready notice is sent (R167, R171) -/
  filled : Tbl Bool := []
  ready  : Tbl Bool := []
  deriving DecidableEq, Repr

/-- Ingress state of one channel (R157, R161, R166, R167, R179). -/
structure IngCh where
  isOpen  : Bool := false
  /-- open or last frame (N) -/
  fr      : Nat := 0
  cut     : Bool := false
  lastFilled : Bool := false
  /-- segment bits of the open frame, key 2^16 × plane + 8 × row + segment (R161) -/
  segs    : Tbl Bool := []
  /-- sheaves of the open frame that have closed -/
  closed  : Tbl Bool := []
  slots   : Tbl RingSlot := []
  /-- most recent closed frame plus one, and its session (R166, R169) -/
  last1   : Nat := 0
  lastSess : Nat := 0
  /-- next frame to open -/
  next    : Nat := 0
  /-- frames given up by the last frame skip or channel part restart: from the first to below the second (R146, R448) -/
  skipFrom : Nat := 0
  skipTo  : Nat := 0
  /-- the decoded picture that a frame of the session took last, before the open frame's (R274) -/
  prevPic : Option (Nat × Nat) := none
  deriving DecidableEq, Repr

/-- A VFT packet in an ingress FIFO: the channel it was classified to, header and payload (R158, R159). -/
structure VftPkt where
  ch    : Nat
  bytes : List Byte
  deriving DecidableEq, Repr

/-- An entry of ingress FIFO 2: an aperture TLP, or a doorbell that waits behind it (R164, R172). -/
inductive AptItem where
  | tlp (off : Nat) (bytes : List Byte)
  | db (w : Word)
  deriving DecidableEq, Repr

/-- Ingress unit (R160 to R179). -/
structure Ing where
  ch     : Tbl IngCh := []
  /-- RGBX bytes of the rows of the open frames that have arrived, for the blocks that straddle two segments (R155): key 8192 ×
  channel + row -/
  rgb    : Tbl (List Byte) := []
  q0     : List VftPkt := []
  q1     : List VftPkt := []
  q2     : List AptItem := []
  asserted : Tbl Bool := []
  wmHigh : Tbl Nat := []
  wmLow  : Tbl Nat := []
  holdA  : Nat := 0
  holdB  : Nat := 0
  /-- aperture windows: key channel; (base in 4 KiB units, size in 2 MiB units) (R162, R178) -/
  apt    : Tbl (Option (Nat × Nat)) := []
  pfc    : Tbl Cnt := []
  drop   : Tbl Cnt := []
  fill   : Tbl Cnt := []
  hfill  : Tbl Cnt := []
  /-- frames of each channel that took a CONCEALED picture (R12). Assumption log 82, DESIGN CHOICE. -/
  conc   : Tbl Cnt := []
  deriving DecidableEq, Repr

/-! ### Sessions, encode cores, rate control (07, 08) -/

/-- Marks of a frame buffer (R260). -/
structure Marks where
  cur  : Bool := false
  ref  : Bool := false
  out  : Bool := false
  host : Bool := false
  bind : Nat := 0
  hist : Bool := false
  pin  : Bool := false
  /-- the picture it holds plus one; 0 none -/
  pic1 : Nat := 0
  deriving DecidableEq, Repr

/-- What a run reads and writes beside a part's record (R209, R210): POC and decisions of the frame, references, pictures, slots, pool,
cycle and boundaries, and the RTP sequence number. -/
structure RunCopy where
  dec    : FrDec := {}
  refs   : Tbl Nat := []
  curPic : PicRec := {}
  pics   : List PicRec := []
  slots  : Tbl Nat := []
  slot   : Option Nat := none
  pool   : Tbl Marks := []
  cycSeq : Nat := 0
  cyc    : Bool := false
  j      : Nat := 0
  cycG   : Nat := 0
  postp  : Bool := false
  xs0    : Tbl Nat := []
  seq    : Nat := 0
  deriving DecidableEq, Repr

/-- Rate control, refresh, marking and reference state of a channel (R209, R219 to R247). -/
structure Rc where
  host   : Nat := 0
  fb     : Option Nat := none
  eff    : Nat := 0
  dec    : FrDec := {}
  /-- state record of each part -/
  recs   : Tbl Copies := []
  debtSat : Tbl Bool := []
  /-- boundaries as they stood before the frame decided last: key 128 × part + sheaf -/
  xs0    : Tbl Nat := []
  /-- most recent passed picture of layers 0 and 1, plus one (R225) -/
  refs   : Tbl Nat := []
  /-- the picture being reconstructed, and those of the pool, the most recent first -/
  curPic : PicRec := {}
  pics   : List PicRec := []
  /-- AV1 with ACK_REF: frame plus one in each slot, and the slot written last (R241) -/
  slots  : Tbl Nat := []
  slot   : Option Nat := none
  cycSeq : Nat := 0
  /-- a cycle has started; j of the last T0 picture; g of the cycle start -/
  cyc    : Bool := false
  j      : Nat := 0
  cycG   : Nat := 0
  postp  : Bool := false
  /-- g of the last frame whose ledger opened -/
  lastG  : Nat := 0
  /-- pending refresh requests: held by REFRESH_HOLD, of scene cuts, for recovery (R233, R240); and RESTART_HELD -/
  reqHold : Nat := 0
  reqNow : Nat := 0
  reqRec : Nat := 0
  held   : Bool := false
  pinned : Option Nat := none
  hist   : List Nat := []
  /-- buffers of each part's pool: key 8 × part + buffer (R262) -/
  pool   : Tbl Marks := []
  /-- SRTCP index of the next TMMBN (R336) -/
  rtcpIdx : Nat := 0
  /-- the copy that is not in force of what runs read and write beside the parts' records: as the last commit found it (R210) -/
  old    : RunCopy := {}
  deriving DecidableEq, Repr

/-- The copy of a part's state record that the selector names (R210). -/
def Copies.cur (k : Copies) : ChanRec := if k.sel then k.c1 else k.c0

/-- The commit: the other copy is written and the selector flips (R210). -/
def Copies.commit (k : Copies) (r : ChanRec) : Copies :=
  if k.sel then { k with c0 := r, sel := false } else { k with c1 := r, sel := true }

/-- State record of a part. -/
def Rc.part (v : Rc) (p : Nat) : ChanRec := (v.recs.get {} p).cur

/-- One encode core (R211 to R215). -/
structure EncCore where
  ch      : Nat := 0
  sh      : Nat := 0
  part    : Nat := 0
  verdict : Nat := 0
  act     : Nat := 0
  gMatch  : Bool := false
  gCase   : Nat := 0
  gSig    : BitVec 64 := 0
  cnt     : Tbl Cnt := []
  /-- GLEAN runs since the core left reset (R211) -/
  gleans  : Nat := 0
  deriving DecidableEq, Repr

/-- One master, join-root or grey-root packet (R207, R230, R231, R242). -/
structure MPkt where
  /-- number of the packet, one for each packet that a packetiser writes -/
  pid    : Nat
  ch     : Nat
  sess   : Nat
  /-- master sequence number; meaningless for a root packet -/
  seq    : Nat
  ts     : Nat
  marker : Bool
  pt     : Nat
  ssrc   : Nat
  tid    : Nat
  cycle  : Bool
  join   : Bool
  recov  : Bool
  cycSeq : Nat
  fr     : Nat
  sh     : Nat
  /-- first packet of the picture, last packet of the picture -/
  first  : Bool
  last   : Bool
  /-- variant of a marked sheaf: 0 unmarked or shared, 1 A, 2 B (R208, R238) -/
  var    : Nat
  /-- bit index b of a marked sheaf (R238) -/
  bit    : Nat
  /-- RTP payload (R205, R206) -/
  pay    : List Byte := []
  deriving DecidableEq, Repr

/-- Bytes of a packet's RTP payload. -/
def MPkt.len (p : MPkt) : Nat := p.pay.length

/-! ### Faults, ledger, islands (15, 16) -/

/-- Fault collector (R439 to R444, R461 to R464). -/
structure Flt where
  sticky    : Tbl Bool := []
  /-- filtered lines that hold their level: the conditions that last (R439) -/
  line      : Tbl Bool := []
  force     : Tbl Bool := []
  mark      : Tbl Bool := []
  installed : Bool := false
  level     : Tbl Nat := []
  /-- sources whose byte of the reaction table fails parity in both copies (R442) -/
  lost      : Tbl Bool := []
  esc       : Nat := 0
  escSat    : Bool := false
  deriving DecidableEq, Repr

/-- State of a unit in the marigold list (R495), in the coding of FLT_UNIT.STATE (R465). -/
inductive UnitSt where
  | inService | spare | quarantined | retired
  deriving DecidableEq, Repr

/-- Coding of FLT_UNIT.STATE (R465). -/
def UnitSt.code : UnitSt → Nat
  | .inService => 0 | .spare => 1 | .quarantined => 2 | .retired => 3

/-- Marigold entry and failover count of a unit (R452, R454, R465). -/
structure UnitEnt where
  st    : UnitSt := .inService
  fo    : Nat := 0
  foSat : Bool := false
  deriving DecidableEq, Repr

/-- Retirement record (R454, R495). -/
structure RetRec where
  unit  : Nat
  src   : Nat
  fo    : Nat
  hour  : Nat
  deriving DecidableEq, Repr

/-- The two copies of a ledger item: the sequence number of each, and whether its CRC-32C holds (R455). -/
structure LedCopies where
  seq0 : BitVec 32 := 0
  seq1 : BitVec 32 := 0
  ok0  : Bool := true
  ok1  : Bool := true
  deriving DecidableEq, Repr

/-- The ledger write in progress: copy 0 of the item is put down, and copy 1 still holds the earlier value (R455). -/
structure LedWrite where
  item  : LedItem
  ent   : UnitEnt := {}
  hours : Nat := 0
  tj    : Nat := 0
  deriving DecidableEq, Repr

/-- The ledger (R454): certificate, marigold list, SRAM repairs, wear counters, retirement records. The values are those of the valid
copy with the higher sequence number (R455). Assumption log 7, DESIGN CHOICE. -/
structure Ledg where
  cert    : List Byte := []
  units   : Tbl UnitEnt := []
  hours   : Nat := 0
  tjHours : Nat := 0
  records : List RetRec := []
  /-- source that took each unit out of service -/
  cause   : Tbl Nat := []
  /-- SRAM row and column repairs (R454) -/
  repairs : List Byte := []
  copies  : Tbl LedCopies := []
  writing : Option LedWrite := none
  deriving DecidableEq, Repr

/-- States of an island in the coding of PWR_ISL_REQ (R467, R478). -/
inductive IslSt where
  | run | slow2 | slow4 | slow8 | hold | off
  deriving DecidableEq, Repr

/-- Coding of PWR_ISL_REQ.STATE (R478). -/
def IslSt.code : IslSt → Nat
  | .run => 0 | .slow2 => 1 | .slow4 => 2 | .slow8 => 3 | .hold => 4 | .off => 5

/-- State with a given code; none for a reserved code (R478). -/
def IslSt.ofCode : Nat → Option IslSt
  | 0 => some .run | 1 => some .slow2 | 2 => some .slow4 | 3 => some .slow8 | 4 => some .hold | 5 => some .off
  | _ => none

/-- A change that PWR carries out: a new state, or a new frequency (R468, R471). -/
inductive IslReq where
  | state (st : IslSt)
  | freq (mhz : Nat)
  deriving DecidableEq, Repr

/-- A transition in progress (R471 to R473): what, the commands that complete with it (none for a register write), and
whether it still waits for the unit boundary. -/
structure IslTrans where
  req    : IslReq
  hdrs   : List CmdHdr
  waits  : Bool
  deriving DecidableEq, Repr

/-- One island (R467 to R480). -/
structure Isl where
  st     : IslSt := .run
  req    : Nat := 0
  freq   : Nat := 400
  image  : Nat := 400
  result : Nat := 0
  trans  : Option IslTrans := none
  /-- requests held by the HBM hold, in arrival order (R368) -/
  held   : List IslReq := []
  deriving DecidableEq, Repr

/-! ### Interrupts, mailbox, PCIe (14) -/

/-- One interrupt source (R425, R434, R435). -/
structure IrqSrc where
  en      : Bool := false
  target  : Nat := 0
  filter  : Nat := 0
  prio    : Nat := 0
  pend    : Bool := false
  line    : Bool := false
  outcome : Nat := 0
  sat     : Bool := false
  count   : Nat := 0
  /-- target to which the pending delivery is redirected (R430) -/
  alt     : Option Nat := none
  deriving DecidableEq, Repr

/-- One interrupt target (R426, R427, R430, R437). -/
structure IrqTgt where
  altEn    : Bool := false
  altTgt   : Nat := 0
  altDelay : Nat := 0
  interval : Nat := 0
  idle     : Bool := true
  /-- the moderation interval of the last delivery has not passed (R427) -/
  moder    : Bool := false
  /-- source a steward core takes and has not left, by its number plus one (R426) -/
  serving  : Option Nat := none
  deriving DecidableEq, Repr

/-- Interrupt controller (R424 to R437). -/
structure Irq where
  split : Nat := 0
  srcs  : Tbl IrqSrc := []
  tgts  : Tbl IrqTgt := []
  deriving DecidableEq, Repr

/-- A completion entry as a command gives it (R415, R414). -/
structure Cpl where
  tag  : Nat
  status : Nat
  res0 : Nat
  res1 : Nat
  irq  : Bool
  deriving DecidableEq, Repr

/-- A command the handler has fetched and not yet completed (R413, R421): its TAG, its opcode, whether its completion is
withheld (R44), and how far it has gone for an abort (R402, R419). -/
structure Job where
  tag    : Nat
  opcode : Nat
  irq    : Bool
  mute   : Bool
  /-- the command that the fetched entry spells (R78, R416) -/
  cmd    : Option Instr := none
  /-- a reserved bit or unused byte of a Fenic entry is not 0 (R78) -/
  badRsv : Bool := false
  /-- the command has begun and takes time (R413) -/
  begun  : Bool := false
  /-- the command was held until the device entered RUN (R19) -/
  held   : Bool := false
  deriving DecidableEq, Repr

/-- What an abort names: the command with a TAG, or the drain of a stack (R419, R432). -/
inductive AbortOf where
  | command (tag : Nat)
  | drain (stack : Nat)
  deriving DecidableEq, Repr

/-- Mailbox (R412, R413, R431, R432). -/
structure Mbx where
  locked  : Bool := false
  fenic   : Bool := false
  sqHead  : Nat := 0
  sqTail  : Nat := 0
  cqTail  : Nat := 0
  phase   : Bool := true
  cqHead  : Nat := 0
  loadHi  : Bool := false
  abortRes : Nat := 0
  jobs    : List Job := []
  /-- completions that wait for a free slot of the ring, or for the steward's and the PCIE island's clocks (R412, R466, R476) -/
  waiting : List Cpl := []
  /-- an abort that is being resolved, which MBX_ABORT_STAT.BUSY shows: it waits for the steward's clock (R432, R476) -/
  abortPend : Option AbortOf := none
  deriving DecidableEq, Repr

/-- Flash operation of an IMAGE_WRITE in progress (R68): TAG, slot, offset, length, and the bytes to program. -/
structure FlashOp where
  tag  : Nat
  irq  : Bool
  base : Nat
  len  : Nat
  data : Option (List Byte)
  deriving DecidableEq, Repr

/-- One MSI-X vector (R411). -/
structure MsixVec where
  addr : Nat := 0
  data : Nat := 0
  mask : Bool := true
  deriving DecidableEq, Repr

/-- PCIe function (R43, R44, R408 to R411, R489). Assumption log 9, DESIGN CHOICE. -/
structure Pcie where
  link     : Bool := false
  cfgReady : Bool := false
  bars     : Tbl Nat := []
  /-- BARs that the host has assigned (R489) -/
  assigned : Tbl Bool := []
  mse      : Bool := false
  bme      : Bool := false
  d3       : Bool := false
  msix     : Tbl MsixVec := []
  fnMask   : Bool := false
  /-- completion of the last configuration request: 1 successful, 2 Configuration Request Retry Status, 0 none -/
  lastCpl  : Nat := 0
  deriving DecidableEq, Repr

/-- Values that the block last returned to a reader: a BAR0 read, an SMBus read with the acknowledge of its last byte, the
JTAG identity code. They are what the outside sees of a read. Assumption log 10, DESIGN CHOICE. -/
structure Outs where
  bar0  : Nat := 0
  /-- completion of the host's last memory request: 0 successful, 1 Completer Abort, 2 Unsupported Request (R483, R489) -/
  cpl   : Nat := 0
  /-- data of the last configuration read (R408) -/
  cfg   : List Nat := []
  /-- data with which the last read of the ingress aperture completed; none, a Completer Abort (R105, R163) -/
  bar4  : Option (List Byte) := some []
  smb   : List Byte := []
  smbNack : Bool := false
  /-- packet error code of the last SMBus answer (R47) -/
  smbPec  : Nat := 0
  idcode  : Nat := 0
  /-- bits that the last boundary scan shifted out (R50) -/
  scan    : List Bool := []
  /-- offset of each requester's last BAR0 read, which a read of the upper word may complete from the latch (R486) -/
  lastHost : Option Nat := none
  lastStw  : Option Nat := none
  /-- read latches: key the block and its number (R486) -/
  latch : Tbl Nat := []
  deriving DecidableEq, Repr

/-! ### Granary (12) -/

/-- Roles of a pseudo-channel (R377). -/
inductive PcRole where
  | active | spare | offline | retired
  deriving DecidableEq, Repr

/-- Coding of HBM_PC_STAT.ROLE (R377). -/
def PcRole.code : PcRole → Nat
  | .active => 0 | .spare => 1 | .offline => 2 | .retired => 3

/-- One pseudo-channel (R357, R361, R366, R377). -/
structure Pc where
  role  : PcRole := .active
  pos   : Nat := 0
  ceSat : Bool := false
  ueSat : Bool := false
  ue    : Nat := 0
  ce    : Nat := 0
  /-- corrected errors since the last training, for CE_LIMIT (R361, R377) -/
  ceTrain : Nat := 0
  /-- order in which it reached CE_LIMIT, plus one; 0 not reached (R361) -/
  limAt : Nat := 0
  /-- order of its last training (R361) -/
  trainAt : Nat := 0
  /-- outstanding refreshes (R357) -/
  outst : Nat := 0
  deriving DecidableEq, Repr

/-- Phases of a drain (R362, R374). -/
inductive DrainPh where
  | idle | check | copy | offline
  deriving DecidableEq, Repr

/-- The drain of a stack (R361, R362, R366): phase, target, spare, and the pseudo-channel whose fault wants a drain. -/
structure Drain where
  phase   : DrainPh := .idle
  tgt     : Nat := 0
  spare   : Nat := 0
  /-- pseudo-channels whose drain a fault wants, the first first; its own target stays in it until the drain ends (R366) -/
  want    : List Nat := []
  deriving DecidableEq, Repr

/-- States of a stack (R374). -/
inductive StackSt where
  | training | service | selfRef | off
  deriving DecidableEq, Repr

/-- Coding of HBM_STAT.STATE (R374). -/
def StackSt.code : StackSt → Nat
  | .training => 0 | .service => 1 | .selfRef => 2 | .off => 3

/-- One stack (R361 to R370, R374 to R376). -/
structure Stack where
  st      : StackSt := .training
  exhausted : Bool := false
  drain   : Drain := {}
  /-- training data are being gathered (R368) -/
  gather  : Bool := false
  /-- rate in force and rate of the held change, in 100 Mb/s per pin (R375) -/
  rate    : Nat := 0
  pendRate : Option Nat := none
  /-- a full retraining runs: frequency change or return from OFF (R367, R370) -/
  retrain : Bool := false
  /-- the contents were lost in OFF: the retraining places the pseudo-channels anew (R370) -/
  lost    : Bool := false
  /-- a frequency change was stored in HOLD or OFF: the return to RUN retrains the stack (R368, R472) -/
  owed    : Bool := false
  hot     : Bool := false
  temp    : Nat := 0
  maxHit  : Bool := false
  cnt     : Tbl Cnt := []
  /-- trainings and limit hits so far, for the orders of R361 -/
  orderN  : Nat := 0
  deriving DecidableEq, Repr

/-- Response to an access: its port, whether it is an error response, and the data of a read (R356, R358). Assumption log 10, DESIGN CHOICE. -/
structure GranRet where
  port : Nat
  err  : Bool
  data : List Byte
  deriving DecidableEq, Repr

/-- A read in a position's queue (R355, R356): its number among its port's, and what its bytes were when it was accepted; `bad`: its unit was
poisoned then (R358). -/
structure QRead where
  id   : Nat
  acc  : GranAcc
  data : List Byte
  bad  : Bool
  deriving DecidableEq, Repr

/-- A read that its port has issued and not received: its result, an error or data, once that is known (R356). -/
structure RetSlot where
  id  : Nat
  acc : GranAcc
  ret : Option (Bool × List Byte)
  deriving DecidableEq, Repr

/-- The granary (R350 to R379). -/
structure Hbm where
  stk     : Tbl Stack := []
  pcs     : Tbl Pc := []
  /-- HBM_PC_MAP: position to pseudo-channel (R379) -/
  map     : Tbl (Option Nat) := []
  granule : Nat := 0
  wrHigh  : Nat := 0
  wrLow   : Nat := 0
  prio    : Tbl Nat := []
  ceLimit : Nat := 0
  retrainS : Nat := 0
  /-- draws of the stacks that have lost their contents: a stack's bytes then read as free values (R370) -/
  gone    : Tbl (Option Nat) := []
  /-- bytes by granary address, each as what it differs in from what a byte never written reads as (R350, R353), and poisoned 64-byte
  units (R358) -/
  mem     : Tbl Byte := []
  poison  : Tbl Bool := []
  /-- positions whose contents were lost with a failed pseudo-channel, so that every unit of them is poisoned (R367), but for
  the units rewritten whole since -/
  badPos  : Tbl Bool := []
  redone  : Tbl Bool := []
  /-- accesses that ports keep because they were not accepted (R355) -/
  stalled : List GranAcc := []
  /-- read and write queue of each position, oldest first, and whether a batch of its writes runs (R355, R356) -/
  rq      : Tbl (List QRead) := []
  wq      : Tbl (List GranAcc) := []
  batch   : Tbl Bool := []
  /-- reads that each port waits for, in the order it issued them (R356) -/
  retq    : Tbl (List RetSlot) := []
  /-- responses of the last controller cycle (R356, R358) -/
  rets    : List GranRet := []
  deriving DecidableEq, Repr

/-! ### Scratchpads, FIFOs, DMA (13) -/

/-- Contents of a FIFO (R387 to R393): words with END, the last word popped, and its sticky bits. -/
structure Fifo where
  words    : List (BitVec 512 × Bool) := []
  last     : BitVec 512 := 0
  itemsSat : Bool := false
  under    : Bool := false
  ovf      : Bool := false
  asserted : Bool := false
  /-- the last word pushed began or went on with an item that has not ended (R388) -/
  mid      : Bool := false
  /-- the rest of the item that a flush cut is being discarded (R391) -/
  cutting  : Bool := false
  deriving DecidableEq, Repr

/-- States of a DMA channel (R405). -/
inductive DmaSt where
  | idle | waitHigh | run | paused | done | aborted | haltedBus | haltedFrozen | cfgErr
  deriving DecidableEq, Repr

/-- Coding of DMA_CH_STAT.STATE (R405). -/
def DmaSt.code : DmaSt → Nat
  | .idle => 0 | .waitHigh => 1 | .run => 2 | .paused => 3 | .done => 4 | .aborted => 5 | .haltedBus => 6
  | .haltedFrozen => 7 | .cfgErr => 8

/-- One DMA channel (R395 to R405). -/
structure DmaCh where
  src   : Nat := 0
  dst   : Nat := 0
  len   : Nat := 0
  fifo  : Nat := 0
  event : Nat := 0
  trig  : Nat := 0
  dstW  : Nat := 0
  srcW  : Nat := 0
  abortRes : Nat := 0
  st    : DmaSt := .idle
  done  : Nat := 0
  used  : Nat := 0
  limit : Nat := 0
  /-- bytes written before the beat that `used` counts the retries of (R398, R405) -/
  usedAt : Nat := 0
  /-- bytes popped from the FIFO and not yet written (R396) -/
  hold  : List Byte := []
  deriving DecidableEq, Repr

/-- On-chip storage (R380 to R407). -/
structure Chip where
  /-- SRAM repairs applied at step 3 of R51 (R454) -/
  repairs : List Byte := []
  /-- bytes of the scratchpads by internal address (R380) -/
  mem    : Tbl Byte := []
  /-- outcome of the last scratchpad cycle: reads with their words, and accesses answered with an error response (R382, R386, R466) -/
  reads  : List (SpadAcc × BitVec 64) := []
  errs   : List SpadAcc := []
  /-- accesses that stall and are presented again in the next cycle (R382) -/
  stalled : List SpadAcc := []
  /-- word that the last pop of a FIFO answered, and the FIFOs that sent an item notice in their last cycle (R387, R388) -/
  popped : BitVec 512 := 0
  notices : List Nat := []
  fifos  : Tbl Fifo := []
  dma    : Tbl DmaCh := []
  /-- transfers that wait for a channel that passes its quarantine test (R453) -/
  waiting : List DmaCh := []
  /-- EVENT of the last completion pulse sent (R399) -/
  pulse  : Option Nat := none
  /-- completion pulses that wait at the crossing to an island in HOLD (R466) -/
  heldPulses : List Nat := []
  deriving DecidableEq, Repr

/-! ### Decoding (09) -/

/-- One decode core (R277 to R279). -/
structure DecCore where
  ctx     : Nat := 0
  act     : Nat := 0
  gMatch  : Bool := false
  gCase   : Nat := 0
  gSig    : BitVec 64 := 0
  cnt     : Tbl Cnt := []
  gleans  : Nat := 0
  deriving DecidableEq, Repr

/-- A coded unit queued in a context's input ring (R256 to R258). -/
structure DecUnit where
  len  : Nat
  loss : Bool
  ts   : Nat
  deriving DecidableEq, Repr

/-- An RTP packet held in a context's reorder buffer (R255). -/
structure RtpHeld where
  seq    : Nat
  ts     : Nat
  marker : Bool
  pay    : List Byte
  deriving DecidableEq, Repr

/-- RTP input of a context (R254, R255). -/
structure RtpIn where
  srcAddr : Nat := 0
  srcPort : Nat := 0
  dstPort : Nat := 0
  ssrc    : Nat := 0
  pt      : Nat := 0
  reorder : Nat := 0
  ipv6    : Bool := false
  /-- next sequence number to be passed on; none before the first packet -/
  next    : Option Nat := none
  buf     : List RtpHeld := []
  /-- access unit being gathered: whether a packet of it has come, its whole NAL units or OBUs, the one whose fragments are still
  coming, timestamp, and whether a part of it is lost -/
  gather  : Bool := false
  nals    : List (List Byte) := []
  frag    : Option (List Byte) := none
  auTs    : Nat := 0
  auLoss  : Bool := false
  deriving DecidableEq, Repr

/-- What the output record of a decoded picture holds (R272): FLAGS, bit depth, cropped size and offsets, timestamp. -/
structure PicInfo where
  flags : Nat := 0
  bits  : Nat := 0
  w     : Nat := 0
  h     : Nat := 0
  cropX : Nat := 0
  cropY : Nat := 0
  ts    : Nat := 0
  /-- place in output order (R251) -/
  order : Int := 0
  /-- a frame of the bound channel took the picture before it was output (R274) -/
  taken : Bool := false
  deriving DecidableEq, Repr, Inhabited

/-- The picture that a context is decoding (R138, R266, R267): its buffer and syntax, the bytes of its first coded unit, its
parameter set, its FLAGS so far, the buffers of its references in list order, the samples of the blocks decoded so far by
position, ahead of in-loop filtering, and the block rows whose final samples are in the buffer. -/
structure CurPic where
  buf   : Nat
  pic   : Config.PicSyn
  hdr   : List Byte
  set   : Config.ParamSet
  flags : Nat
  refs  : List Nat
  done  : Tbl (List Nat) := []
  rows  : Nat := 0
  deriving DecidableEq, Repr

/-- One decode context (R252 to R276, R280 to R282). -/
structure Dcx where
  isOpen  : Bool := false
  bindCh  : Option Nat := none
  outHost : Bool := false
  rtp     : Option RtpIn := none
  codec   : Nat := 0
  /-- accepted parameter sets by kind and identifier, the latest first, and the SPS or sequence header in force (R250) -/
  psets   : List (Nat × Nat × List Byte) := []
  active  : Option Config.ParamSet := none
  /-- the picture in decoding, and the syntax of the picture begun last -/
  cur     : Option CurPic := none
  lastPic : Option Config.PicSyn := none
  /-- place in the unit at the head of the queue: NAL unit or OBU, coded unit of it, block, and whether its picture has begun -/
  item    : Nat := 0
  sub     : Nat := 0
  blk     : Nat := 0
  begun   : Bool := false
  /-- what the format carries from unit to unit -/
  carry   : List Nat := []
  /-- references by identifier; those identifiers that a substitute holds, and whether it is mid-grey (R267); and buffers of
  correctly decoded pictures, the most recent first -/
  refs    : List (Int × Nat) := []
  subs    : List (Int × Bool) := []
  good    : List Nat := []
  /-- pictures that await output, with the pictures decoded since (R251) -/
  await   : List (Nat × Nat) := []
  /-- number at which a recovery point completes, and the count of an SEI whose picture is still to come (R268) -/
  recov   : Option Int := none
  recovSei : Option Int := none
  /-- size of the picture output last (R272) -/
  lastSize : Option (Nat × Nat) := none
  pool    : Tbl Marks := []
  /-- the pictures that the buffers hold -/
  info    : Tbl PicInfo := []
  inWp    : Nat := 0
  inRp    : Nat := 0
  outSeq  : Nat := 0
  units   : List DecUnit := []
  /-- units were lost before the next accepted feed (R256) -/
  lossPend : Bool := false
  feeds   : Nat := 0
  /-- output pictures waiting to be taken by the bound channel: buffer, width, height, FLAGS (R274) -/
  waiting : List (Nat × Nat × Nat × Nat) := []
  /-- the frame that opened with no picture waiting takes the next one (R274) -/
  wants   : Bool := false
  deriving DecidableEq, Repr

/-! ### Packet engine (10) -/

/-- One layer record (R288). -/
structure Layer where
  type : Nat
  off  : Nat
  len  : Nat
  deriving DecidableEq, Repr

/-- A packet in the exception queue (R291): reason, port, receive timestamp, layer records, bytes. -/
structure ExcPkt where
  reason : Nat
  port   : Nat
  ts     : Nat
  layers : List Layer
  /-- the packet's bytes up to its end -/
  frame  : List Byte := []
  deriving DecidableEq, Repr

/-- Body that a lookup attaches to a packet (R293, R298): the channel of a VFT source, a delivery, a decode context, or
an entry of a STATIC table. Assumption log 50, DESIGN CHOICE. -/
inductive EmBody where
  | vft (ch : Nat)
  | aud (handle : Nat)
  | dec (dcx : Nat)
  | static (table entry : Nat)
  deriving DecidableEq, Repr

/-- One slot of the exact-match index (R294) with the key that its body holds. -/
structure EmEnt where
  tbl  : Nat
  key  : List Byte
  sig  : Nat
  body : EmBody
  deriving DecidableEq, Repr

/-- Registers of a parse engine while it runs a program (R284, R285, R288). -/
structure PeCtx where
  busy   : Bool := false
  port   : Nat := 0
  frame  : List Byte := []
  cur    : Nat := 0
  fin    : Nat := 0
  pc     : Nat := 0
  steps  : Nat := 0
  layers : List Layer := []
  g      : Tbl Nat := []
  kb     : Tbl Byte := []
  hit    : Option EmBody := none
  /-- lookup in progress: table, key bytes, miss target (R288) -/
  lookup : Option (Nat × Nat × Nat) := none
  /-- receive timestamp in ns of PTP time -/
  ts     : Nat := 0
  deriving DecidableEq, Repr

/-- How a program ended (R290, R291). -/
inductive PeEnd where
  | exc (reason : Nat)
  | done (cls : Nat) (m : PtpMsg)
  deriving DecidableEq, Repr

/-- A frame handed to an engine and not yet retired, with the engine's registers once its program has ended (R284). -/
structure Retire where
  pe  : Nat
  res : Option (PeEnd × PeCtx)
  deriving DecidableEq, Repr

/-- States of an audience body (R298). -/
inductive BodySt where
  | empty | held | active
  deriving DecidableEq, Repr

/-- Receiver fields of an audience body (R298). -/
structure Dest where
  player  : Bool := false
  ipv6    : Bool := false
  maxTid  : Nat := 0
  ch      : Nat := 0
  prof    : Nat := 0
  outer   : Nat := 0
  dstAddr : Nat := 0
  dstPort : Nat := 0
  srcPort : Nat := 0
  ssrc    : Nat := 0
  dstMac  : Nat := 0
  dscp    : Nat := 0
  ecn     : Nat := 0
  hop     : Nat := 0
  vlan0   : Nat := 0
  vlan1   : Nat := 0
  markId  : Nat := 0
  keySlot : Nat := 0
  deriving DecidableEq, Repr

/-- Credit shaper of a body (R324). -/
structure Shaper where
  rate   : Nat := 0
  burst  : Nat := 0
  dropAt : Nat := 0
  credit : Int := 0
  last   : Nat := 0
  deriving DecidableEq, Repr

/-- An audience body (R298). NEXT is its successor in the channel's chain. -/
structure Body where
  st      : BodySt := .empty
  root    : Bool := false
  dropPic : Bool := false
  d       : Dest := {}
  roc     : Nat := 0
  dseq    : Nat := 0
  curOff  : Nat := 0
  logHead : Nat := 0
  logCount : Nat := 0
  log     : Tbl (Nat × Nat) := []
  sh      : Shaper := {}
  /-- the body is unlinked and waits to be freed (R297): packets in flight at the unlink -/
  waits   : Option (List Nat) := none
  deriving DecidableEq, Repr

/-- A copy descriptor and, after the build stage, the copy (R304, R306, R322). -/
structure Copy where
  /-- the packet in flight it belongs to (R303) -/
  flight  : Nat
  handle  : Nat
  mp      : MPkt
  d       : Dest
  dseq    : Nat
  roc     : Nat
  epoch   : Nat
  port    : Nat
  queue   : Nat
  /-- length charged (R325) and EGR_TIME from which it is eligible -/
  len     : Nat
  elig    : Nat
  tag     : BitVec 32
  retx    : Bool
  hdr     : List Byte
  /-- length of the outer template in front (R341) -/
  outerLen : Nat
  /-- the finish tag in its queue (R329) -/
  ftag    : Nat
  /-- the SRTCP index of a TMMBN, which takes a copy's way from its queue on (R11, R336); none for a copy -/
  tmmbn   : Option Nat := none
  deriving DecidableEq, Repr

/-- A packet in flight (R303, R312): its epoch, and the copies that have not left pass 2. -/
structure Flight where
  live   : Bool := false
  epoch  : Nat := 0
  /-- pass 1 has not ended -/
  pass1  : Bool := false
  copies : Nat := 0
  pid    : Nat := 0
  deriving DecidableEq, Repr

/-- Pass 1 paused between two bodies (R303). -/
structure Paused where
  mp     : MPkt
  flight : Nat
  /-- bodies that it has passed -/
  seen   : List Nat
  deriving DecidableEq, Repr

/-- A RULESET_SWAP in progress (R312). -/
structure Swap where
  tag  : Nat
  irq  : Bool
  idx  : Nat
  /-- the active bank has been flipped; the epoch it left -/
  flipped : Option Nat
  /-- the command has been completed with DENIED at the entry into SAFE -/
  answered : Bool
  deriving DecidableEq, Repr

/-- Received side of the packet engine (R283 to R297, R316, R317, R319). -/
structure Pkt where
  /-- frames that passed the MAC and wait for an engine, with their receive timestamps in ns: key port -/
  rx      : Tbl (List (Nat × List Byte)) := []
  pes     : Tbl PeCtx := []
  /-- frames in engines, in arrival order: key port -/
  order   : Tbl (List Retire) := []
  /-- index slots: key 4 × bucket + slot, and 655,360 on for the stash (R294) -/
  em      : Tbl (Option EmEnt) := []
  excq    : List ExcPkt := []
  /-- entry of the EXC_QUEUE region that the next packet takes -/
  excWp   : Nat := 0
  /-- deliveries whose RTCP packets wait for authentication, in order (R290, R301) -/
  rtcpQ   : List Nat := []
  excEng  : Nat := 0
  excPort : Nat := 0
  excReason : Nat := 0
  excCnt  : Tbl Cnt := []
  clsCnt  : Tbl Cnt := []
  cnt     : Tbl Cnt := []
  deriving DecidableEq, Repr

/-- Replication (R298 to R312, R315, R318). -/
structure Rep where
  bodies  : Tbl Body := []
  /-- chain of each channel, in order (R300) -/
  chain   : Tbl (List Nat) := []
  /-- packets signalled and not yet taken by pass 1 (R208) -/
  sigQ    : List MPkt := []
  recirc  : List Copy := []
  /-- retransmission descriptors that wait for room in the recirculation queue (R303) -/
  retxQ   : List Copy := []
  paused  : Option Paused := none
  flights : Tbl Flight := []
  nextFlight : Nat := 0
  nextPid : Nat := 0
  /-- payload cache: (packet, bytes), the most recently used first (R310) -/
  cache   : List (Nat × Nat) := []
  active  : Nat := 0
  epoch   : Nat := 0
  swap    : Option Swap := none
  /-- rule set that each epoch of a packet in flight finishes under -/
  setOf   : Tbl Nat := []
  deriving DecidableEq, Repr

/-! ### Egress and ports (11) -/

/-- What left a port, as the outside sees it: kind 0 a copy, 1 PFC, 2 PTP, 3 TMMBN. -/
structure TxFrame where
  port : Nat
  kind : Nat
  len  : Nat
  hdr  : List Byte
  dseq : Nat
  roc  : Nat
  key  : Nat
  /-- the key record that the seal stage read for the frame (R96) -/
  rec_ : List Byte := []
  /-- what follows the headers: the encrypted payload and the tag (R336) -/
  pay  : List Byte := []
  pid  : Nat
  deriving DecidableEq, Repr

/-- Link of one Ethernet port (R449, R453). -/
structure PortSt where
  up       : Bool := false
  /-- spare lane 4 is being trained beside the running lanes to replace this lane (R449) -/
  subFor   : Option Nat := none
  /-- lanes of the link as trained -/
  lanes    : List Nat := [0, 1, 2, 3]
  deriving DecidableEq, Repr

/-- Egress (R320 to R349). -/
structure Egr where
  ports   : Tbl PortSt := []
  /-- pacing calendar: key port (R323) -/
  cal     : Tbl (List Copy) := []
  /-- queues: key 1,024 × port + queue (R328) -/
  queues  : Tbl (List Copy) := []
  ftag    : Tbl Nat := []
  vtime   : Tbl Nat := []
  /-- selected copies whose seal stage has not ended: key port -/
  sealing : Tbl (List Copy) := []
  gateEnt : Tbl Nat := []
  /-- the queue's head has been counted as waiting (R334) -/
  waited  : Tbl Bool := []
  /-- end of the window in which it was counted, in device time (R334) -/
  waitEnd : Tbl Nat := []
  /-- copies that the last CALENDAR_BUCKET of the port put into the queue (R331) -/
  joined  : Tbl Nat := []
  oversize : Tbl Cnt := []
  devCnt  : Tbl Cnt := []
  cnt     : Tbl Cnt := []
  itSeed  : Nat := 0
  tagPort : Nat := 0
  tagCh   : Nat := 0
  /-- physical pair of each logical pair (R338) -/
  srtp    : Tbl (Option Nat) := []
  /-- logical pairs whose remap waits for a frame boundary: the spare physical pair -/
  remap   : Tbl (Option Nat) := []
  /-- logical pair that takes the port's next frame -/
  turn    : Tbl Nat := []
  /-- retransmission rings: key channel, newest first (R343) -/
  rings   : Tbl (List MPkt) := []
  newest  : Tbl Nat := []
  /-- last frame sent on each port -/
  sent    : Tbl (Option TxFrame) := []
  deriving DecidableEq, Repr

/-! ### The state -/

/-- The state of the block, and the queue of commands that wait, first in, first out. -/
structure State where
  glb    : Glb := {}
  pins   : Pins := {}
  therm  : Therm := {}
  time   : Clock := {}
  /-- bytes of the flash (R55); an erased byte is 0xFF -/
  flash  : Tbl Byte := []
  flashOp : Option FlashOp := none
  cfg    : Cfg := {}
  img    : Img := {}
  sec    : Sec := {}
  fab    : Fab := {}
  rota   : Rota := {}
  ptp    : Ptp := {}
  ing    : Ing := {}
  sess   : Tbl Sess := []
  enc    : Tbl EncCore := []
  rc     : Tbl Rc := []
  /-- RC_CNT (R248): key 16 × (2 × channel + part) + index -/
  rcCnt  : Tbl Cnt := []
  dec    : Tbl DecCore := []
  dcx    : Tbl Dcx := []
  /-- DEC_CTX_CNT (R282): key 16 × context + index -/
  dcxCnt : Tbl Cnt := []
  /-- context of each decode lane's RUN in progress as it was last saved (R138) -/
  decRedo : Tbl (Option Dcx) := []
  pkt    : Pkt := {}
  rep    : Rep := {}
  egr    : Egr := {}
  hbm    : Hbm := {}
  chip   : Chip := {}
  flt    : Flt := {}
  led    : Ledg := {}
  isl    : Tbl Isl := []
  irq    : Irq := {}
  mbx    : Mbx := {}
  pcie   : Pcie := {}
  /-- bytes of the BAR2 SRAM by BAR2 offset (R410) -/
  bar2   : Tbl Byte := []
  /-- bytes of host memory that the block has written (R411, R417) -/
  host   : Tbl Byte := []
  outs   : Outs := {}
  /-- the model's own: how many free values the steps have drawn -/
  free   : Nat := 0
  /-- commands that wait -/
  pending : List Instr := []
  deriving DecidableEq, Repr

/-- Units of the marigold list at shipment (R495). -/
def shipUnits : Tbl UnitEnt :=
  (List.range 41 ++ [44, 109, 110, 111, 112, 173, 174, 175, 176] ++ range2 177 241 ++ [245, 250, 255]).map
    fun u => (u, { st := .spare })

/-- The block right after reset: power has just come up and the internal power-on reset has not yet released (R36). -/
def State.reset : State := { led := { units := shipUnits } }

end Sys2Proof.Machine
end

