-- ==== Sys2Proof/Machine/Ops.lean ====
section
/-!
DEFINITION. The named operations on the state that several commands share: free values, per-unit access, islands, lanes'
cores, time, the CRC, interrupts, mailbox completions and packet exceptions.
-/

namespace Sys2Proof.Machine

/-! ### Outcomes and free values -/

/-- A step of the block: the next state, or a stop. -/
abbrev Res := Host.Outcome State Fault Refusal

/-- Draws a free value of `n` bits and advances the counter of draws (assumption log 4). -/
def State.draw (s : State) (n : Nat) : Nat × State :=
  ((Config.freeWord s.free).toNat % 2 ^ n, { s with free := s.free + 1 })

/-- Draws a free value below `n`, or 0 where `n` is 0. -/
def State.drawBelow (s : State) (n : Nat) : Nat × State :=
  ((Config.freeWord s.free).toNat % n, { s with free := s.free + 1 })

/-- The device is out of RESET: the blocks beyond AON's monitors answer (R18). -/
def State.awake (s : State) : Bool := s.glb.st != .reset

/-! ### Access to units by number -/

def State.lane (s : State) (l : Nat) : Lane := s.rota.lanes.get {} l
def State.setLane (s : State) (l : Nat) (v : Lane) : State :=
  { s with rota := { s.rota with lanes := s.rota.lanes.set {} l v } }
def State.dlane (s : State) (l : Nat) : DLane := s.rota.dlanes.get {} l
def State.setDLane (s : State) (l : Nat) (v : DLane) : State :=
  { s with rota := { s.rota with dlanes := s.rota.dlanes.set {} l v } }
/-- Part `p` (0 whole or left, 1 right) of channel `ch`. -/
def State.part (s : State) (ch p : Nat) : PartSt := s.rota.parts.get {} (2 * ch + p)
def State.setPart (s : State) (ch p : Nat) (v : PartSt) : State :=
  { s with rota := { s.rota with parts := s.rota.parts.set {} (2 * ch + p) v } }
def State.sessOf (s : State) (ch : Nat) : Sess := s.sess.get {} ch
def State.setSess (s : State) (ch : Nat) (v : Sess) : State := { s with sess := s.sess.set {} ch v }
def State.rcOf (s : State) (ch : Nat) : Rc := s.rc.get {} ch
def State.setRc (s : State) (ch : Nat) (v : Rc) : State := { s with rc := s.rc.set {} ch v }
def State.ingOf (s : State) (ch : Nat) : IngCh := s.ing.ch.get {} ch
def State.setIng (s : State) (ch : Nat) (v : IngCh) : State :=
  { s with ing := { s.ing with ch := s.ing.ch.set {} ch v } }
def State.encOf (s : State) (k : Nat) : EncCore := s.enc.get {} k
def State.setEnc (s : State) (k : Nat) (v : EncCore) : State := { s with enc := s.enc.set {} k v }
def State.decOf (s : State) (k : Nat) : DecCore := s.dec.get {} k
def State.setDec (s : State) (k : Nat) (v : DecCore) : State := { s with dec := s.dec.set {} k v }
def State.dcxOf (s : State) (n : Nat) : Dcx := s.dcx.get {} n
def State.setDcx (s : State) (n : Nat) (v : Dcx) : State := { s with dcx := s.dcx.set {} n v }
def State.islOf (s : State) (n : Nat) : Isl := s.isl.get {} n
def State.setIsl (s : State) (n : Nat) (v : Isl) : State := { s with isl := s.isl.set {} n v }
def State.unit (s : State) (u : Nat) : UnitEnt := s.led.units.get {} u
/-- Number of a ledger item among the items. -/
def itemCode : LedItem → Nat
  | .entry u => u | .moves u => 256 + u | .hours => 512 | .repairs => 513 | .record n => 1024 + n

/-- The write in progress ends: copy 1 takes the value and the sequence number of copy 0 (R455). -/
def Ledg.settle (l : Ledg) : Ledg :=
  match l.writing with
  | none => l
  | some w =>
    let c := l.copies.get {} (itemCode w.item)
    { l with copies := l.copies.set {} (itemCode w.item) { c with seq1 := c.seq0, ok1 := true }, writing := none }

/-- A write of an item begins, after the one before it: copy 0 takes the next sequence number (R455). `w` holds the earlier value. -/
def Ledg.put (l : Ledg) (w : LedWrite) : Ledg :=
  let l := l.settle
  let c := l.copies.get {} (itemCode w.item)
  { l with
    copies := l.copies.set {} (itemCode w.item) { c with seq0 := (if c.ok0 then c.seq0 else c.seq1) + 1, ok0 := true }
    writing := some w }

/-- A unit's entry and failover count take values; each is written where it changes (R451, R452, R455). -/
def Ledg.setUnit (l : Ledg) (u : Nat) (v : UnitEnt) : Ledg :=
  let o := l.units.get {} u
  let l := if o.st = v.st then l else l.put { item := .entry u, ent := o }
  let l := if o.fo = v.fo ∧ o.foSat = v.foSat then l else l.put { item := .moves u, ent := o }
  { l with units := l.units.set {} u v }

/-- The value that a write's other copy keeps stands (R455, R456). -/
def Ledg.keepOld (l : Ledg) (w : LedWrite) : Ledg :=
  match w.item with
  | .entry u => { l with units := l.units.set {} u { l.units.get {} u with st := w.ent.st } }
  | .moves u => { l with units := l.units.set {} u { l.units.get {} u with fo := w.ent.fo, foSat := w.ent.foSat } }
  | .hours => { l with hours := w.hours, tjHours := w.tj }
  | .record n => { l with records := l.records.eraseIdx n }
  | .repairs => l

/-- A copy of the item being written is not whole: the other copy stands (R455, R456). -/
def Ledg.copyFails (l : Ledg) (copy1 : Bool) : Ledg :=
  match l.writing with
  | none => l
  | some w =>
    let c := l.copies.get {} (itemCode w.item)
    let l := { l with writing := none }
    if copy1 then { l with copies := l.copies.set {} (itemCode w.item) { c with ok1 := false } }
    else { l with copies := l.copies.set {} (itemCode w.item) { c with ok0 := false } }.keepOld w

def State.setUnit (s : State) (u : Nat) (v : UnitEnt) : State := { s with led := s.led.setUnit u v }
def State.stack (s : State) (k : Nat) : Stack := s.hbm.stk.get {} k
def State.setStack (s : State) (k : Nat) (v : Stack) : State :=
  { s with hbm := { s.hbm with stk := s.hbm.stk.set {} k v } }
/-- Pseudo-channel `g` of the granary, 32 × stack + PC. -/
def State.pc (s : State) (g : Nat) : Pc := s.hbm.pcs.get {} g
def State.setPc (s : State) (g : Nat) (v : Pc) : State :=
  { s with hbm := { s.hbm with pcs := s.hbm.pcs.set {} g v } }
def State.dma (s : State) (n : Nat) : DmaCh := s.chip.dma.get {} n
def State.setDma (s : State) (n : Nat) (v : DmaCh) : State :=
  { s with chip := { s.chip with dma := s.chip.dma.set {} n v } }
def State.fifo (s : State) (f : Nat) : Fifo := s.chip.fifos.get {} f
def State.setFifo (s : State) (f : Nat) (v : Fifo) : State :=
  { s with chip := { s.chip with fifos := s.chip.fifos.set {} f v } }
def State.pe (s : State) (k : Nat) : PeCtx := s.pkt.pes.get {} k
def State.setPe (s : State) (k : Nat) (v : PeCtx) : State :=
  { s with pkt := { s.pkt with pes := s.pkt.pes.set {} k v } }
def State.body (s : State) (h : Nat) : Body := s.rep.bodies.get {} h
def State.setBody (s : State) (h : Nat) (v : Body) : State :=
  { s with rep := { s.rep with bodies := s.rep.bodies.set {} h v } }
def State.chain (s : State) (ch : Nat) : List Nat := s.rep.chain.get [] ch
def State.setChain (s : State) (ch : Nat) (v : List Nat) : State :=
  { s with rep := { s.rep with chain := s.rep.chain.set [] ch v } }
def State.portSt (s : State) (p : Nat) : PortSt := s.egr.ports.get {} p
def State.setPortSt (s : State) (p : Nat) (v : PortSt) : State :=
  { s with egr := { s.egr with ports := s.egr.ports.set {} p v } }
/-- DBG_FABRIC is the TAP's active instruction and debug is not closed (R104). -/
def State.jtagActive (s : State) : Bool := s.sec.tap == 0x11 && !s.sec.sensed.debugClosed
/-- A master's bit of FAB_FREEZE_STAT (R112): master 0xC5 is frozen whenever it is not active (R104). -/
def State.isFrozen (s : State) (m : Nat) : Bool :=
  (decide (m = 0xC5) && !s.jtagActive) || s.fab.frozen.get false m

/-- Class of a channel; none at or above CHANNELS (R116). -/
def State.cls (s : State) (ch : Nat) : Option Class := s.img.classes[ch]?

/-- Key of an egress queue. -/
def qKey (p q : Nat) : Nat := 1024 * p + q

/-- Parameters of a queue from GATE_LISTS (R332). -/
def State.queueCfg (s : State) (p q : Nat) : QueueCfg :=
  match s.img.gates[p]? with
  | some g => (g.queues[q]?).getD {}
  | none => {}

/-! ### Counters (R460) -/

def State.encCnt (s : State) (k i n : Nat) : State :=
  let e := s.encOf k
  s.setEnc k { e with cnt := e.cnt.upd 0 i (cntAdd n) }
def State.decCnt (s : State) (k i n : Nat) : State :=
  let e := s.decOf k
  s.setDec k { e with cnt := e.cnt.upd 0 i (cntAdd n) }
def State.rcCount (s : State) (ch p i n : Nat) : State :=
  { s with rcCnt := s.rcCnt.upd 0 (16 * (2 * ch + p) + i) (cntAdd n) }
def State.dcxCount (s : State) (x i n : Nat) : State :=
  { s with dcxCnt := s.dcxCnt.upd 0 (16 * x + i) (cntAdd n) }
def State.pktCount (s : State) (i n : Nat) : State :=
  { s with pkt := { s.pkt with cnt := s.pkt.cnt.upd 0 i (cntAdd n) } }
def State.egrCount (s : State) (p i n : Nat) : State :=
  { s with egr := { s.egr with cnt := s.egr.cnt.upd 0 (16 * p + i) (cntAdd n) } }
def State.devCount (s : State) (i n : Nat) : State :=
  { s with egr := { s.egr with devCnt := s.egr.devCnt.upd 0 i (cntAdd n) } }
def State.hbmCount (s : State) (k i n : Nat) : State :=
  let v := s.stack k
  s.setStack k { v with cnt := v.cnt.upd 0 i (cntAdd n) }
def State.ingDrop (s : State) (i : Nat) : State :=
  { s with ing := { s.ing with drop := s.ing.drop.upd 0 i (cntAdd 1) } }

/-- Adds skipped frames to ROTA_CH_PEND.SKIPPED, which saturates at 127 and sets SKIP_SAT on reaching it (R151, R460). Assumption
log 100, DEDUCED. -/
def State.addSkipped (s : State) (ch n : Nat) : State :=
  let v := s.rota.skipped.get 0 ch + n
  { s with rota := { s.rota with
      skipped := s.rota.skipped.set 0 ch (min 127 v)
      skipSat := s.rota.skipSat.set false ch (s.rota.skipSat.get false ch || decide (127 ≤ v)) } }

/-! ### CRC-32C (R491) -/

/-- One bit of the reflected Castagnoli CRC. -/
def crcBit (c : BitVec 32) : BitVec 32 :=
  if c.getLsbD 0 then (c >>> 1) ^^^ 0x82F63B78#32 else c >>> 1

/-- One byte of the reflected Castagnoli CRC. -/
def crcByte (c : BitVec 32) (b : Byte) : BitVec 32 :=
  crcBit (crcBit (crcBit (crcBit (crcBit (crcBit (crcBit (crcBit (c ^^^ b.setWidth 32))))))))

/-- CRC-32C of bytes with a given initial value and the final XOR 0xFFFF_FFFF (R491). -/
def crc32cFrom (init : BitVec 32) (bs : List Byte) : BitVec 32 := bs.foldl crcByte init ^^^ 0xFFFFFFFF#32

/-- CRC-32C with the default initial value (R491). -/
def crc32c (bs : List Byte) : BitVec 32 := crc32cFrom 0xFFFFFFFF#32 bs

/-! ### Units of the marigold list (R465) -/

def unitEnc (k : Nat) : Nat := k
def unitDec (k : Nat) : Nat := 32 + k
def unitStw (k : Nat) : Nat := 41 + k
def unitDma (n : Nat) : Nat := 45 + n
def unitPe (n : Nat) : Nat := 113 + n
def unitPc (g : Nat) : Nat := 177 + g
/-- SerDes lane `k` of port `p`. -/
def unitLane (p k : Nat) : Nat := 241 + 5 * p + k
def unitSrtp (n : Nat) : Nat := 251 + n

/-- The unit has not been retired or quarantined. -/
def State.sound (s : State) (u : Nat) : Bool :=
  match (s.unit u).st with
  | .inService | .spare => true
  | .quarantined | .retired => false

/-- Number of units of a kind, given by its index range, whose entry reads spare (R457). -/
def State.sparesIn (s : State) (a b : Nat) : Nat :=
  ((range2 a b).filter fun u => (s.unit u).st == .spare).length

/-! ### Islands (R13, R471, R474, R475) -/

def islEnc (k : Nat) : Nat := 17 + k
def islDec (k : Nat) : Nat := 49 + k
def islBarn (k : Nat) : Nat := 9 + k

/-- The island is in RUN at its image frequency and PWR carries out no request for it (R136, R475). -/
def State.atImage (s : State) (n : Nat) : Bool :=
  let i := s.islOf n
  i.st == .run && i.freq == i.image && i.trans == none && i.held.isEmpty

/-- The island's clock is stopped: HOLD or OFF. -/
def State.stopped (s : State) (n : Nat) : Bool :=
  match (s.islOf n).st with
  | .hold | .off => true
  | _ => false

/-- Clock divider of a state (R467). -/
def IslSt.divider : IslSt → Nat
  | .slow2 => 2 | .slow4 => 4 | .slow8 => 8 | _ => 1

/-- A request for the island waits for its unit boundary: the unit takes no new work (R472). -/
def State.stopping (s : State) (n : Nat) : Bool :=
  match (s.islOf n).trans with
  | some t => t.waits
  | none => false

/-- Encode core `k` can be issued a run: not frozen, and its island and its barn's in RUN at their image frequency; in any other
state its lane's runs are fallow (R125, R474). -/
def State.encReady (s : State) (k : Nat) : Bool := !s.isFrozen k && s.atImage (islEnc k) && s.atImage (islBarn (k / 4))

/-- Decode core `k` can be issued a run (R138, R474). -/
def State.decReady (s : State) (k : Nat) : Bool := !s.isFrozen (0x20 + k) && s.atImage (islDec k)

/-- Lanes of the encode rota (R8). -/
def laneNums : List Nat := List.range 28
def dlaneNums : List Nat := List.range 8

/-- Lane that encode core `k` is bound to. -/
def State.laneOfCore (s : State) (k : Nat) : Option Nat := laneNums.find? fun l => (s.lane l).bound == some k
def State.dlaneOfCore (s : State) (k : Nat) : Option Nat := dlaneNums.find? fun l => (s.dlane l).bound == some k

/-- Encode core `k` is bound to a lane or taken by a move in progress. -/
def State.encTaken (s : State) (k : Nat) : Bool :=
  laneNums.any fun l => let v := s.lane l; v.bound == some k || v.adm == some k || v.ready == some k
def State.decTaken (s : State) (k : Nat) : Bool :=
  dlaneNums.any fun l => let v := s.dlane l; v.bound == some k || v.adm == some k || v.ready == some k

/-- Encode core `k` is usable under R134: sound, not frozen, its island (and its barn's) in RUN at image frequency. -/
def State.encUsable (s : State) (k : Nat) : Bool :=
  s.sound (unitEnc k) && !s.isFrozen k && s.atImage (islEnc k) && s.atImage (islBarn (k / 4))
def State.decUsable (s : State) (k : Nat) : Bool :=
  s.sound (unitDec k) && !s.isFrozen (0x20 + k) && s.atImage (islDec k)

/-- The encode core that takes a lane: the lowest-numbered one that qualifies (R136). Assumption log 76, DEDUCED. -/
def State.encSpare (s : State) : Option Nat := (List.range 32).find? fun k => !s.encTaken k && s.encUsable k
/-- The decode core that takes a lane (R136). -/
def State.decSpare (s : State) : Option Nat := (List.range 9).find? fun k => !s.decTaken k && s.decUsable k

/-! ### Time (R114, R143, R321) -/

/-- Half-picoseconds in one nanosecond, one slot, one hyperperiod. -/
def nsTime : Nat := 2000
def slotTime : Nat := 8000 * nsTime
def hpTime : Nat := 12500 * slotTime

/-- Whole nanoseconds of the device's PTP time. -/
def State.ptpNs (s : State) : Nat := s.time.ptp / nsTime
/-- Seconds and nanoseconds of the device's PTP time (R148). -/
def State.ptpSec (s : State) : Nat := s.ptpNs / 1000000000 % 2 ^ 48
def State.ptpNsec (s : State) : Nat := s.ptpNs % 1000000000
/-- Slot of the hyperperiod (R147). -/
def State.slot (s : State) : Nat := s.time.ptp / slotTime % 12500
/-- EGR_TIME: microseconds since the device entered RUN, 400 AON cycles each (R321). -/
def State.egrTime (s : State) : Nat := (s.time.aon - s.time.runAt) / 400 % 2 ^ 32

/-- Device time moves to `t`; a started rota counts the hyperperiod boundaries it passes going forward for the first time (R147).
Assumption log 6, DESIGN CHOICE. -/
def State.timeTo (s : State) (t : Nat) : State :=
  { s with
    time := { s.time with ptp := t }
    rota := { s.rota with
      hpCnt := if s.rota.started then cntAdd (t / hpTime - max s.time.ptp s.rota.notBefore / hpTime) s.rota.hpCnt
        else s.rota.hpCnt } }

/-- A command that names an instant of the slot grid brings device time there, if it lies ahead (assumption log 6). -/
def State.reach (s : State) (slotAbs : Int) : State :=
  let t := slotAbs.toNat * slotTime
  if s.time.ptp < t then s.timeTo t else s

/-! ### Frames and due times (R115, R123, R159) -/

/-- Frames per hyperperiod for a RATE code (R115, R116). -/
def framesPerHp : Nat → Nat
  | 0 => 3 | 1 => 5 | 2 => 6 | 3 => 10 | 4 => 12 | _ => 0

/-- Frames per second for a RATE code. -/
def fpsOf (r : Nat) : Nat := 10 * framesPerHp r

/-- Sheaves of a picture of height `h` (R7). -/
def sheavesOf (h : Nat) : Nat := (h + 63) / 64

/-- Parts of a channel (R133). -/
def partsOf (c : Class) : List Nat := if c.base.lanes = 2 then [0, 1] else [0]

/-- The PART code of part `p` of a channel (R122). -/
def partCode (c : Class) (p : Nat) : Nat := if c.base.lanes = 2 then p + 1 else 0

/-- A run entry that counts as a SHEAF entry (R123). -/
def isSheafEnt (e : RunEnt) : Bool := e.kind == 0 && decide (1 ≤ e.len) && e.part != 3

/-- The lane and SHEAF entry of a sheaf of a channel part in frame index `f` (R123). -/
def State.sheafEnt (s : State) (ch p f sh : Nat) : Option (Nat × RunEnt) :=
  match s.cls ch with
  | none => none
  | some c =>
    s.img.encRota.findSome? fun (l, es) =>
      (es.find? fun e => isSheafEnt e && e.ch == ch && e.part == partCode c p && e.frame == f && e.sheaf == sh).map
        fun e => (l, e)

/-- Absolute slot of the due time of sheaf `sh` of frame `fr` of a channel, from the rota (R123): a due time can lie in the
hyperperiod before the frame's. -/
def State.dueSlot (s : State) (ch fr sh : Nat) : Option Int :=
  match s.cls ch with
  | none => none
  | some c =>
    let n := framesPerHp c.base.rate
    (s.sheafEnt ch 0 (fr % n) sh).map fun (_, e) => (12500 * (fr / n) + e.start : Int) - (e.lead : Int)

/-- Lane that carries the SHEAF runs of a channel part (R123). -/
def State.laneOfPart (s : State) (ch p : Nat) : Option Nat :=
  match s.cls ch with
  | none => none
  | some c =>
    s.img.encRota.findSome? fun (l, es) =>
      if es.any fun e => isSheafEnt e && e.ch == ch && e.part == partCode c p then some l else none

/-! ### Interrupts (R424, R425) -/

/-- Numbers of the interrupt controller that no source has (R424). -/
def irqReserved (n : Nat) : Bool :=
  decide (0x400 ≤ n) || (decide (5 ≤ n) && decide (n < 0x40)) || (decide (0xC0 ≤ n) && decide (n < 0x200))

def State.irqSrc (s : State) (n : Nat) : IrqSrc := s.irq.srcs.get {} n
def State.setIrqSrc (s : State) (n : Nat) (v : IrqSrc) : State :=
  { s with irq := { s.irq with srcs := s.irq.srcs.set {} n v } }
def State.irqTgt (s : State) (t : Nat) : IrqTgt := s.irq.tgts.get {} t
def State.setIrqTgt (s : State) (t : Nat) (v : IrqTgt) : State :=
  { s with irq := { s.irq with tgts := s.irq.tgts.set {} t v } }

/-- The host's requests to BAR `n` reach the function: its link is up, its configuration space ready, the BAR assigned and decoded (R18,
R408, R489). -/
def State.hostBar (s : State) (n : Nat) : Bool :=
  s.glb.st != .reset && s.pcie.link && s.pcie.cfgReady && s.pcie.assigned.get false n && s.pcie.mse && !s.pcie.d3

/-- The completion of the host's last memory request. -/
def State.hostCpl (s : State) (n : Nat) : State := { s with outs := { s.outs with cpl := n } }

/-- A memory request to BAR `n` that is not decoded: an Unsupported Request where the function receives it at all (R408, R489). -/
def State.unreached (s : State) (n : Nat) : State :=
  if s.glb.st != .reset && s.pcie.link && s.pcie.cfgReady && s.pcie.assigned.get false n then s.hostCpl 2 else s

/-- What one event does to a source (R425); SAT sets as COUNT reaches its top value (R435, R460). Assumption log 100, DEDUCED. -/
def IrqSrc.event (v : IrqSrc) : IrqSrc :=
  { v with pend := true, count := min 255 (v.count + 1), sat := v.sat || decide (254 ≤ v.count) }

/-- Island whose unit drives an interrupt source's line: the steward's completions and aborts, the packet engine's exception queue;
none for a line of AON (R424, R477). The contexts' sources follow no one island. -/
def irqIsland (n : Nat) : Option Nat := if n < 2 then some 1 else if n = 4 then some 6 else none

/-- A pulse of FILTER cycles or more on the line of interrupt source `n`: an event (R425). A reserved source is never raised (R424), and
no event arises from the line of a stopped island (R477). Assumption log 68, DEDUCED. -/
def State.irqEvent (s : State) (n : Nat) : State :=
  if irqReserved n || (irqIsland n).any s.stopped then s else s.setIrqSrc n (s.irqSrc n).event

/-- Interrupt sources (R424). -/
def irqMbxCq : Nat := 0x000
def irqMbxAbort : Nat := 0x001
def irqDevSafe : Nat := 0x002
def irqPtpLock : Nat := 0x003
def irqExcQ : Nat := 0x004

def irqDecOut (x : Nat) : Nat := 0x040 + x
def irqSw (n : Nat) : Nat := 0x080 + n
def irqFlt (n : Nat) : Nat := 0x200 + n

/-! ### Mailbox completions (R412 to R415) -/

/-- Status codes (R414). -/
inductive Status where
  | ok | busy | badArg | noChannel | tableFull | alreadyDone | denied | pending
  deriving DecidableEq, Repr

def Status.code : Status → Nat
  | .ok => 0 | .busy => 1 | .badArg => 2 | .noChannel => 3 | .tableFull => 4 | .alreadyDone => 5 | .denied => 6
  | .pending => 7

/-- Fenic status of a native status (R80). -/
def Status.fenic : Status → Nat
  | .ok | .alreadyDone => 0 | .busy => 1 | .badArg => 2 | .noChannel => 3 | .tableFull => 4 | .denied => 5
  | .pending => 7

/-- BAR2 offset of the completion ring (R410). -/
def cqBase : Nat := 0x40000
/-- Bytes of the completion ring (R410). -/
def cqLen : Nat := 0x10000
/-- BAR2 offset and length of the scratchpad aperture (R410). -/
def aptBase : Nat := 0x1000000
def aptLen : Nat := 0x400000

/-- The completion ring has no free slot (R412). -/
def Mbx.cqFull (m : Mbx) : Bool := (m.cqTail + 1) % 4096 == m.cqHead

/-- The 16 bytes of a completion entry (R78, R415). -/
def cplBytes (c : Cpl) (phase : Bool) : List Byte :=
  leBytes 2 c.tag ++ leBytes 1 (c.status % 256) ++ leBytes 1 (bit phase + 2 * (c.status / 256)) ++ leBytes 4 c.res0
    ++ leBytes 8 c.res1

/-- Writes a completion entry at the tail and raises MBX_CQ where the command asked for it (R412, R415, R424). -/
def State.putCpl (s : State) (c : Cpl) : State :=
  let m := s.mbx
  let s := { s with
    bar2 := s.bar2.setList 0 (cqBase + 16 * m.cqTail) (cplBytes c m.phase)
    mbx := { m with cqTail := (m.cqTail + 1) % 4096, phase := if m.cqTail = 4095 then !m.phase else m.phase } }
  if c.irq then s.irqEvent irqMbxCq else s

/-- Removes the first job that satisfies `p` (R413, R419). -/
def dropJob (p : Job → Bool) : List Job → List Job
  | [] => []
  | j :: js => if p j then js else j :: dropJob p js

/-- The job that a completion with a TAG ends, of those that have begun or of those that have not, where there is one such: the oldest
(R413, R419). -/
def endsJob (jobs : List Job) (tag : Nat) (begun : Bool) (j : Job) : Bool :=
  j.tag == tag && (j.begun == begun || !jobs.any fun k => k.tag == tag && k.begun == begun)

/-- Jobs above which the work queue counts as loaded, and the line of STEWARD_LOAD, which follows the condition (R422). -/
def loadLimit : Nat := 230
def lineLoad : Nat := 0x17D

/-- Completions cannot be written now: the ring is full, the steward's clock is stopped where the steward writes them, or that of the
PCIE island, which holds the ring (R410, R412, R466, R476). Assumption log 101, DEDUCED. -/
def State.cplWaits (s : State) : Bool := s.mbx.cqFull || (s.glb.st != .loadfail && s.stopped 1) || s.stopped 8

/-- A completion entry is written, or waits (R412, R476). -/
def State.post (s : State) (c : Cpl) : State :=
  if s.cplWaits then { s with mbx := { s.mbx with waiting := s.mbx.waiting ++ [c] } } else s.putCpl c

/-- Writes completions that waited, as far as they can be written (R412, R476). -/
def State.putWaiting : List Cpl → State → State
  | [], s => { s with mbx := { s.mbx with waiting := [] } }
  | c :: cs, s => if s.cplWaits then { s with mbx := { s.mbx with waiting := c :: cs } } else State.putWaiting cs (s.putCpl c)

/-- The work queue becomes `jobs`; the condition of STEWARD_LOAD ends with its cause, but a stopped steward's line keeps its level
(R422, R477). -/
def State.setJobs (s : State) (jobs : List Job) : State :=
  let high := s.mbx.loadHi && decide (loadLimit < jobs.length)
  { s with
    mbx := { s.mbx with jobs := jobs, loadHi := high }
    flt := { s.flt with line := if high || s.stopped 1 then s.flt.line else s.flt.line.set false lineLoad false } }

/-- A command completes: its job, one that has begun where `begun`, leaves the work queue and its entry is written, or waits; a job
that outlived the PCIe function writes none (R44, R412, R413). -/
def State.finish (s : State) (c : Cpl) (begun : Bool := false) : State :=
  let ends := endsJob s.mbx.jobs c.tag begun
  let t := s.setJobs (dropJob ends s.mbx.jobs)
  if (s.mbx.jobs.find? ends).any fun j => j.mute then t else t.post c

/-- Status byte of a completion in the layout in force (R80, R415); an aborted command carries ABORTED in the native
layout only (R420). -/
def State.statusCode (s : State) (st : Status) (aborted : Bool) : Nat :=
  if s.mbx.fenic then st.fenic else st.code + 256 * bit aborted

/-- Completes the command with header `h` (R413, R414). Assumption log 11, DESIGN CHOICE. -/
def State.complete (s : State) (h : CmdHdr) (st : Status) (res0 : Nat := 0) : State :=
  s.finish { tag := h.tag, status := s.statusCode st false, res0 := res0, res1 := 0, irq := h.irq }

/-- Completes a command that has begun and takes time (R413, R414). -/
def State.completeJob (s : State) (h : CmdHdr) (st : Status) : State :=
  s.finish { tag := h.tag, status := s.statusCode st false, res0 := 0, res1 := 0, irq := h.irq } true

/-! ### Fetching (R412, R413, R421) -/

/-- Jobs that the work queue holds (R421). -/
def queueCap : Nat := 256

/-- The steward can take up background work: its clock runs, and its work queue has room for the job, which it runs to its end at once
(R421, R476). Assumption log 103, DESIGN CHOICE. -/
def State.stewardFree (s : State) : Bool := !s.stopped 1 && decide (s.mbx.jobs.length < queueCap)

/-- The handler fetches commands: in RUN and SAFE the steward, whose island's clock must run, in LOADFAIL the boot ROM; none
once a RESTART has executed, while the completion ring is full, or while the PCIE island, which holds the rings, is stopped (R18,
R70, R71, R410, R412, R476). -/
def State.fetches (s : State) : Bool :=
  s.mbx.sqHead != s.mbx.sqTail && !s.mbx.cqFull && !s.glb.restartPend && !s.stopped 8
    && (match s.glb.st with
      | .run | .safe => !s.stopped 1
      | .loadfail => true
      | _ => false)

/-- Fetches the entry at the head, which spells a command in the layout in force (R78, R79, R415, R416). It becomes a job, or completes
with BUSY where the work queue is full (R413, R421). -/
def State.fetchOne (s : State) : State :=
  let a := (if s.mbx.fenic then 32 else 64) * s.mbx.sqHead
  let b := Tbl.getList 0 s.bar2 a (if s.mbx.fenic then 32 else 64)
  let j : Job :=
    { tag := (entryHdr b).tag, opcode := byteAt b 0, irq := (entryHdr b).irq, mute := false, cmd := some (entryCommand s.mbx.fenic b)
      badRsv := s.mbx.fenic && !fenicFormed b }
  let s := { s with mbx := { s.mbx with sqHead := (s.mbx.sqHead + 1) % 4096 } }
  if s.mbx.jobs.length < queueCap then { s with mbx := { s.mbx with jobs := s.mbx.jobs ++ [j] } }
  else s.post { tag := j.tag, status := s.statusCode .busy false, res0 := 0, res1 := 0, irq := j.irq }

/-- Fetches up to `n` entries. -/
def State.fetchUpTo : Nat → State → State
  | 0, s => s
  | n + 1, s => if s.fetches then State.fetchUpTo n s.fetchOne else s

/-- Fetches every entry up to the tail, as far as fetching goes (R412). -/
def State.fetch (s : State) : State := s.fetchUpTo 4096

/-! ### Packet exceptions (R291) -/

/-! ### Pins that follow the state (R29, R174) -/

/-- FAULT_N is driven low (R29). -/
def State.faultLow (s : State) : Bool := s.glb.st == .safe

/-- An ingress FIFO that a map names is asserted. -/
def State.mapAsserted (s : State) (m : Nat) : Bool :=
  (List.range 3).any fun f => bitOf m f && s.ing.asserted.get false f

/-- HOLD_A_N or HOLD_B_N, with its map, is driven low (R29, R174). -/
def State.holdLow (s : State) (m : Nat) : Bool :=
  match s.glb.st with
  | .run => s.mapAsserted m
  | _ => true

/-- THERMAL_WARN and THERMAL_CRIT of a sensor are live: its condition lasts, or the source is forced (R47, R439). -/
def State.warnLive (s : State) (t : Nat) : Bool := s.therm.warn.get false t || s.flt.force.get false (0x130 + t)
def State.critLive (s : State) (t : Nat) : Bool := s.therm.crit.get false t || s.flt.force.get false (0x140 + t)

/-- SMB_ALERT_N is low (R47), in RESET too while a critical temperature lasts. Assumption log 102, DEDUCED. -/
def State.smbAlertLow (s : State) : Bool := (List.range 16).any fun t => s.warnLive t || s.critLive t

end Sys2Proof.Machine
end

