-- ==== Sys2Proof/Machine/Store.lean ====
section
/-!
DEFINITION. On-chip storage and the granary as memories of internal addresses (R101, R350, R380), FIFOs (R387 to R394), and
the moves of a DMA channel (R395 to R399).
-/

namespace Sys2Proof.Machine

/-! ### Memories by internal address -/

/-- End of the granary's address space in service (R350). -/
def granTop : Nat := 0xB40000000
/-- The span of the scratchpads (R380). -/
def spadBase : Nat := 0xF00000000
def spadTop : Nat := 0xF08400000
/-- Scratchpad of encode core `k`: its first address, and its size (R380). -/
def encSpad (k : Nat) : Nat := spadBase + 0x200000 * k
def encSpadSize : Nat := 0x200000
/-- Scratchpad of barn `k` (R380). -/
def barnSpad (k : Nat) : Nat := 0xF04000000 + 0x800000 * k
def barnSpadSize : Nat := 0x800000
/-- The steward scratchpad (R380). -/
def stwSpad : Nat := 0xF08000000

/-- The interleave granule in bytes, and the position that an address in service decodes to (R353). -/
def State.granuleBytes (s : State) : Nat := 256 * 2 ^ s.hbm.granule
def State.posOf (s : State) (a : Nat) : Nat := a / s.granuleBytes % 60
/-- Stack of a position (R353). -/
def stackOf (i : Nat) : Nat := i % 2

/-- What a byte of the granary that nothing has written reads as: 0, and a free value in a stack that has lost its contents (R370).
Assumption log 8, DESIGN CHOICE. -/
def State.granBase (s : State) (a : Nat) : Byte :=
  match s.hbm.gone.get none (stackOf (s.posOf a)) with
  | some n => Config.freeByte n a
  | none => 0

/-- A byte of the granary or of a scratchpad; an address with no storage reads 0. Assumption log 8, DESIGN CHOICE. -/
def State.ramByte (s : State) (a : Nat) : Byte :=
  if a < granTop then s.hbm.mem.get 0 a ^^^ s.granBase a else s.chip.mem.get 0 a

/-- `n` bytes from an internal address on. -/
def State.ramRead (s : State) (a n : Nat) : List Byte := (List.range n).map fun i => s.ramByte (a + i)

/-- 64-byte units that `n` bytes from `a` on rewrite whole (R358). -/
def wholeUnits (a n : Nat) : List Nat := range2 ((a + 63) / 64) ((a + n) / 64)

/-- Writes bytes of the granary; a poisoned unit that is rewritten whole is poisoned no more (R358). -/
def State.granWrite (s : State) (a : Nat) (bs : List Byte) : State :=
  { s with hbm := { s.hbm with
      mem := s.hbm.mem.setList 0 a (bs.mapIdx fun i b => b ^^^ s.granBase (a + i))
      poison := (wholeUnits a bs.length).foldl (fun t u => t.set false u false) s.hbm.poison
      redone := (wholeUnits a bs.length).foldl
        (fun t u => if s.hbm.badPos.get false (s.posOf (64 * u)) then t.set false u true else t) s.hbm.redone } }

/-- A 64-byte unit is poisoned (R358, R367). -/
def State.unitPoisoned (s : State) (u : Nat) : Bool :=
  s.hbm.poison.get false u || (s.hbm.badPos.get false (s.posOf (64 * u)) && !s.hbm.redone.get false u)

/-- Pseudo-channel that serves a position. -/
def State.pcOf (s : State) (i : Nat) : Option Nat := s.hbm.map.get none i

/-- What an access meets at its position: an error where the address has no storage, the island is OFF or the position is not
served; a wait while the stack is stopped; or the pseudo-channel that serves it. In SAFE a stack in self-refresh answers
the steward's and the host's accesses (R18). -/
inductive Meets where
  | error | wait | served (g : Nat)
  deriving DecidableEq, Repr

def State.meets (s : State) (addr : Nat) : Meets :=
  if granTop ≤ addr then .error
  else
    let i := s.posOf addr
    let k := stackOf i
    let v := s.stack k
    if v.st = .off then .error
    else if v.st = .service ∨ (v.st = .selfRef ∧ s.glb.st = .safe ∧ !s.stopped (2 + k) ∧ !v.retrain) then
      match s.pcOf i with
      | some g => .served g
      | none => .error
    else .wait

/-- First granary address of a region of a type and owner (R371, R372). -/
def State.regionBase (s : State) (type owner : Nat) : Nat :=
  match s.img.hbm.regions.find? fun r => r.type == type && r.owner == owner with
  | some r => 4096 * r.base
  | none => 0

/-- Bytes of a region of a type and owner (R371, R372). -/
def State.regionLen (s : State) (type owner : Nat) : Nat :=
  match s.img.hbm.regions.find? fun r => r.type == type && r.owner == owner with
  | some r => 4096 * r.pages
  | none => 0

/-- A 64-byte unit that overlaps `n` bytes from `a` on is poisoned (R358). -/
def State.poisoned (s : State) (a n : Nat) : Bool := (range2 (a / 64) ((a + n + 63) / 64)).any s.unitPoisoned

/-- What the key engine's private path meets at a slot's entry: an error where the path does not reach the slot (R95, R355). -/
def State.keyPath (s : State) (slot : Nat) : Meets :=
  if 64 * slot + 64 ≤ s.sec.ksLen then s.meets (s.sec.ksBase + 64 * slot) else .error

/-- The path must wait for the stack that holds the slot's entry (R355, R369). -/
def State.keyWaits (s : State) (slot : Nat) : Bool := s.keyPath slot == .wait

/-- The key record of a slot as the key engine's private path reads it, which may have to wait; none where the path does not reach the
slot, its stack is OFF, or its entry is poisoned or no longer what the engine sealed under the internal key in force, so that it fails
authentication (R95). -/
def State.keyAt (s : State) (slot : Nat) : List Byte :=
  let a := s.sec.ksBase + 64 * slot
  if s.keyPath slot != .error && !s.poisoned a 64 && s.ramRead a 64 == s.sec.entries.get [] slot then s.sec.keys.get [] slot
  else []

/-- Number of non-empty slots (R110). -/
def State.validKeys (s : State) : Nat := (s.sec.keys.filter fun e => !(s.keyAt e.1).isEmpty).length

/-- Writes bytes of the scratchpads. -/
def State.chipWrite (s : State) (a : Nat) (bs : List Byte) : State :=
  { s with chip := { s.chip with mem := s.chip.mem.setList 0 a bs } }

/-- Scratchpad of an internal address: 0 to 31 encode core, 32 to 39 barn, 40 steward (R380). -/
def spadOf (a : Nat) : Option Nat :=
  if a < spadBase ∨ spadTop ≤ a then none
  else if a < barnSpad 0 then some ((a - spadBase) / encSpadSize)
  else if a < stwSpad then some (32 + (a - barnSpad 0) / barnSpadSize)
  else some 40

/-- Island of a scratchpad. -/
def spadIsland (p : Nat) : Nat := if p < 32 then islEnc p else if p < 40 then islBarn (p - 32) else 1

/-- Fault sources SPAD_CE and SPAD_UE of a scratchpad (R438). -/
def spadCe (p : Nat) : Nat := if p < 32 then 0x080 + p else if p < 40 then 0x100 + (p - 32) else 0x174
def spadUe (p : Nat) : Nat := if p < 32 then 0x0A0 + p else if p < 40 then 0x108 + (p - 32) else 0x175

/-- What an alias does to a byte: 0 writes, 1 sets bits, 2 clears bits (R385). -/
def aliasByte (al : Nat) (old b : Byte) : Byte :=
  match al with
  | 1 => old ||| b
  | 2 => old &&& ~~~b
  | _ => b

/-- Writes through an alias at an internal address without its alias bits (R101, R385). -/
def State.ramWrite (s : State) (al a : Nat) (bs : List Byte) : State :=
  if a < granTop then s.granWrite a bs
  else if spadBase ≤ a ∧ a + bs.length ≤ spadTop then
    s.chipWrite a (bs.mapIdx fun i b => aliasByte al (s.chip.mem.get 0 (a + i)) b)
  else s

/-- Alias bits and address of a 38-bit internal address (R101). -/
def aliasOf (a : Nat) : Nat := bitsOf a 36 2
def plainOf (a : Nat) : Nat := a % 2 ^ 36

/-- Clears `n` bytes of the scratchpads from `a` on (R450, R476). Assumption log 8, DESIGN CHOICE. -/
def State.clearSpad (s : State) (a n : Nat) : State :=
  { s with chip := { s.chip with mem := s.chip.mem.drop fun k => decide (a ≤ k ∧ k < a + n) } }

/-! ### The exception queue (R291) -/

/-- The packet's entry of 10 KiB in the EXC_QUEUE region, whose layout the spec does not give (R291, R372). Assumption log 81, DESIGN
CHOICE. -/
def State.storeExc (s : State) (slot : Nat) (p : ExcPkt) : State :=
  s.granWrite (s.regionBase 0x09 0xFFFF + 10240 * slot)
    ((Config.excEntry p.reason p.port p.ts (p.layers.map fun l => (l.type, l.off, l.len)) p.frame).take 10240)

/-- A packet goes to the exception queue, or is dropped where the queue is full (R291). -/
def State.queueExc (s : State) (p : ExcPkt) : State :=
  if s.pkt.excq.length < 2048 then
    let s' := ({ s with pkt := { s.pkt with excq := s.pkt.excq ++ [p], excWp := (s.pkt.excWp + 1) % 2048 } }).storeExc s.pkt.excWp p
    if s.pkt.excq.isEmpty then s'.irqEvent irqExcQ else s'
  else s.pktCount 4 1

/-- A packet of engine `k` ends with exception reason `r`, 1 to 15: counted, recorded, and queued or dropped by its policy
(R291, R313). -/
def State.packetExc (s : State) (k r : Nat) (c : PeCtx) : State :=
  let s := { s with pkt := { s.pkt with
    excCnt := s.pkt.excCnt.upd 0 r (cntAdd 1), excEng := k, excPort := c.port, excReason := r } }
  if bitOf s.img.net.excDrop r then s
  else s.queueExc { reason := r, port := c.port, ts := c.ts, layers := c.layers, frame := c.frame.take c.fin }

/-! ### FIFOs (R387 to R394) -/

/-- Kind of a FIFO number: (large, width in bytes, capacity in words); none for a reserved number (R394). -/
def fifoKind (f : Nat) : Option (Bool × Nat × Nat) :=
  if f < 2 then some (true, 64, 32768)
  else if f = 2 then some (true, 64, 16384)
  else if 0x10 ≤ f ∧ f < 0x30 then some (true, 64, 2048)
  else if 0x40 ≤ f ∧ f < 0x49 then some (true, 64, 4096)
  else if 0x60 ≤ f ∧ f < 0xA0 then some (false, 8, 32)
  else if 0xA0 ≤ f ∧ f < 0xA8 then some (false, 8, 64)
  else none

/-- Island of a FIFO (R387, R394). -/
def fifoIsland (f : Nat) : Nat :=
  if f < 3 then 6 else if f < 0x30 then islEnc (f - 0x10) else if f < 0x49 then islDec (f - 0x40)
  else if f < 0xA0 then 6 else islBarn (f - 0xA0)

/-- A large FIFO. -/
def fifoLarge (f : Nat) : Bool :=
  match fifoKind f with
  | some (l, _, _) => l
  | none => false

/-- Words of 64 bytes that a packet of `n` bytes takes in an ingress FIFO (R172). -/
def fifoWords (n : Nat) : Nat := (n + 63) / 64

/-- Words that an entry of ingress FIFO 2 takes: a doorbell takes none of it (R172). -/
def aptWords : AptItem → Nat
  | .tlp _ bs => fifoWords bs.length
  | .db _ => 0

/-- Words held by a FIFO (R407). -/
def State.fifoFill (s : State) (f : Nat) : Nat :=
  if f = 0 then (s.ing.q0.map fun p => fifoWords p.bytes.length).sum
  else if f = 1 then (s.ing.q1.map fun p => fifoWords p.bytes.length).sum
  else if f = 2 then (s.ing.q2.map aptWords).sum
  else (s.fifo f).words.length

/-- Complete items held by a FIFO (R388). -/
def State.fifoItems (s : State) (f : Nat) : Nat :=
  if f = 0 then s.ing.q0.length
  else if f = 1 then s.ing.q1.length
  else if f = 2 then (s.ing.q2.filter fun e => decide (0 < aptWords e)).length
  else ((s.fifo f).words.filter fun w => w.2).length

/-- Watermarks of a large FIFO in words: the ingress FIFOs' come from NET_SETUP in KiB; the others' are free, HIGH from 1 to the capacity
and LOW below HIGH (R176, R389). Assumption log 67, DESIGN CHOICE. -/
def State.fifoHigh (s : State) (f : Nat) : Nat :=
  if f < 3 then s.ing.wmHigh.get 0 f * 16
  else match fifoKind f with
    | some (true, _, cap) => if s.cfg.loaded then 1 + (Config.fifoHigh f).toNat % cap else 0
    | _ => 0
def State.fifoLow (s : State) (f : Nat) : Nat :=
  if f < 3 then s.ing.wmLow.get 0 f * 16 else if s.cfg.loaded then (Config.fifoLow f).toNat % s.fifoHigh f else 0

/-- Watermark state of a FIFO (R389). -/
def State.fifoAsserted (s : State) (f : Nat) : Bool :=
  if f < 3 then s.ing.asserted.get false f else (s.fifo f).asserted

/-- Watermark state after the fill has changed (R389, R390). -/
def wmNext (high low fill : Nat) (was : Bool) : Bool :=
  if high ≤ fill ∧ 0 < high then true else if fill ≤ low then false else was

/-- Port `p` can send: its link is up and its island's clock runs (R476). -/
def State.canSend (s : State) (p : Nat) : Bool := (s.portSt p).up && !s.stopped (4 + p)

/-- Port `p` sends a PFC frame with a quanta for the priorities of a bit mask; a pause frame, one with a quanta other than 0,
is counted (R173, R177). -/
def State.sendPfc (s : State) (p prios quanta : Nat) : State :=
  if s.canSend p then
    let f : TxFrame :=
      { port := p, kind := 1, len := 64, hdr := leBytes 1 prios ++ beBytes 2 quanta, dseq := 0, roc := 0, key := 0, pid := 0 }
    { s with
      egr := { s.egr with sent := s.egr.sent.set none p (some f) }
      ing := { s.ing with pfc := if quanta = 0 then s.ing.pfc else s.ing.pfc.upd 0 p (cntAdd 1) } }
  else s

/-- Evaluates a FIFO's watermark state on its fill (R390); in RUN the change of a port's ingress FIFO sends a PFC frame for
the priority VFT_PRIO (R173). -/
def State.fifoEval (s : State) (f : Nat) : State :=
  let was := s.fifoAsserted f
  let a := wmNext (s.fifoHigh f) (s.fifoLow f) (s.fifoFill f) was
  if f < 3 then
    let s := { s with ing := { s.ing with asserted := s.ing.asserted.set false f a } }
    if f < 2 ∧ s.glb.st = .run ∧ a ≠ was then s.sendPfc f (2 ^ s.img.net.vftPrio) (if a then 0xFFFF else 0) else s
  else s.setFifo f { s.fifo f with asserted := a }

/-- Pops one word of a large FIFO: the head, or the last word popped with UNDERRUN set where it is empty (R387). -/
def Fifo.pop (v : Fifo) : BitVec 512 × Fifo :=
  match v.words with
  | [] => (v.last, { v with under := true })
  | (w, _) :: ws => (w, { v with words := ws, last := w })

/-- Pops `n` words; their bytes, the lowest byte first. -/
def Fifo.popMany : Nat → Fifo → List Byte × Fifo
  | 0, v => ([], v)
  | n + 1, v =>
    let (w, v) := v.pop
    let (bs, v) := Fifo.popMany n v
    (leBytes 64 w.toNat ++ bs, v)

/-- The bytes of an ingress item as words of 64 bytes. -/
def padWords (bs : List Byte) : List Byte := bs ++ List.replicate (64 * fifoWords bs.length - bs.length) 0

/-- Pops `n` words of the packets of ingress FIFO 0 or 1 (R172). -/
def popPkts : Nat → List VftPkt → List Byte × List VftPkt
  | _, [] => ([], [])
  | n, p :: ps =>
    let w := fifoWords p.bytes.length
    if n < w then ((padWords p.bytes).take (64 * n), { p with bytes := p.bytes.drop (64 * n) } :: ps)
    else
      let (bs, rest) := popPkts (n - w) ps
      (padWords p.bytes ++ bs, rest)

/-- Pops `n` words of the aperture writes of ingress FIFO 2; doorbells take no word and stay (R172). -/
def popApt : Nat → List AptItem → List Byte × List AptItem
  | _, [] => ([], [])
  | n, .db w :: es =>
    let (bs, rest) := popApt n es
    (bs, .db w :: rest)
  | n, .tlp off p :: es =>
    let w := fifoWords p.length
    if n < w then ((padWords p).take (64 * n), .tlp (off + 64 * n) (p.drop (64 * n)) :: es)
    else
      let (bs, rest) := popApt (n - w) es
      (padWords p ++ bs, rest)

/-- The last word of popped bytes is the last word popped of a FIFO (R387). -/
def State.lastPop (s : State) (f : Nat) (bs : List Byte) : State :=
  if bs.isEmpty then s
  else s.setFifo f { s.fifo f with last := BitVec.ofNat 512 (leNat (bs.drop ((bs.length - 1) / 64 * 64))) }

/-- Pops `n` words of an ingress FIFO of which `bs` are held: past them each pop answers the last word popped and sets UNDERRUN (R387). -/
def State.popIng (s : State) (f n : Nat) (bs : List Byte) : List Byte × State :=
  let s := s.lastPop f bs
  let have_ := bs.length / 64
  if n ≤ have_ then (bs, s)
  else
    (bs ++ (List.replicate (n - have_) (leBytes 64 (s.fifo f).last.toNat)).flatten, s.setFifo f { s.fifo f with under := true })

/-- Pops `n` words of a large FIFO: their bytes, and the state after (R387). -/
def State.popWords (s : State) (f n : Nat) : List Byte × State :=
  if f = 0 then
    let (bs, q) := popPkts n s.ing.q0
    { s with ing := { s.ing with q0 := q } }.popIng 0 n bs
  else if f = 1 then
    let (bs, q) := popPkts n s.ing.q1
    { s with ing := { s.ing with q1 := q } }.popIng 1 n bs
  else if f = 2 then
    let (bs, q) := popApt n s.ing.q2
    { s with ing := { s.ing with q2 := q } }.popIng 2 n bs
  else
    let (bs, v) := Fifo.popMany n (s.fifo f)
    (bs, s.setFifo f v)

/-- What a pop answers: a large FIFO as Fifo.pop; a small one its head with bit 63 set, or 0 at once where it is empty (R387). -/
def Fifo.take (large : Bool) (v : Fifo) : BitVec 512 × Fifo :=
  if large then v.pop
  else match v.words with
    | [] => (0, v)
    | (w, _) :: ws => (w ||| BitVec.ofNat 512 (2 ^ 63), { v with words := ws })

/-- What a push does after the cycle's pop: the rest of an item that a flush cut is discarded; a full FIFO keeps its producer waiting
and sets OVERFLOW; otherwise the word lands, of a small FIFO its 63 bits of data (R387, R391 to R393). -/
def Fifo.put (large : Bool) (cap : Nat) (w : BitVec 512) (last : Bool) (v : Fifo) : Fifo :=
  if v.cutting then { v with cutting := !last }
  else if cap ≤ v.words.length then { v with ovf := true }
  else
    let words := v.words ++ [(if large then w else BitVec.ofNat 512 (w.toNat % 2 ^ 63), last && large)]
    { v with words := words, mid := !last, itemsSat := v.itemsSat || decide (255 < (words.filter fun x => x.2).length) }

/-- One cycle of a FIFO (R391, R393): the pop sees the head as it stood before the cycle; then the push; a flush discards the push,
empties the FIFO, and has the rest of the item that it cut discarded. Assumption log 67, DESIGN CHOICE. -/
def Fifo.cycle (large : Bool) (cap : Nat) (c : FifoOps) (v : Fifo) : BitVec 512 × Fifo :=
  let (w, v) := if c.pop then v.take large else (0, v)
  if c.flush then
    let open_ := match c.push with
      | some (_, last) => !last
      | none => v.mid
    (w, { v with words := [], asserted := false, cutting := large && (v.cutting || open_), mid := false })
  else match c.push with
    | some (x, last) => (w, v.put large cap x last)
    | none => (w, v)

/-- A pushed word with END landed in a cycle that popped `n` words of a large FIFO (R388, R390). -/
def endLanded (c : FifoOps) (v w : Fifo) (n : Nat) : Bool :=
  match c.push with
  | some (_, true) => !c.flush && decide (w.words.length = v.words.length - n + 1)
  | _ => false

/-- A FIFO of the file is presented one cycle's operations; its watermark state and the item notice are evaluated on the fill after
them (R388, R390, R393). -/
def State.fifoCycle (s : State) (f : Nat) (c : FifoOps) : State :=
  match fifoKind f with
  | none => s
  | some (large, _, cap) =>
    let v := s.fifo f
    let (w, v') := v.cycle large cap c
    let s := s.setFifo f v'
    let s := { s with chip := { s.chip with
      popped := if c.pop then w else s.chip.popped
      notices := if large && endLanded c v v' (if c.pop then 1 else 0) then [f] else [] } }
    if large && !c.flush then s.fifoEval f else s

/-- Flushes a FIFO (R391): it is empty, holds no item, its watermark state is released, and the rest of an item that the
flush cut is discarded; the pop and the push of that cycle come before. -/
def State.fifoFlush (s : State) (f : Nat) (c : FifoOps := {}) : State :=
  if f = 0 then { s with ing := { s.ing with q0 := [] } }.fifoEval 0
  else if f = 1 then { s with ing := { s.ing with q1 := [] } }.fifoEval 1
  else if f = 2 then { s with ing := { s.ing with q2 := s.ing.q2.filter fun e => decide (aptWords e = 0) } }.fifoEval 2
  else s.fifoCycle f { c with flush := true }

/-! ### DMA channels (R395 to R400) -/

/-- Destination and source widths in bytes: under FIFO_LEVEL the source width is the FIFO's word width (R396). -/
def DmaCh.dw (c : DmaCh) : Nat := 2 ^ c.dstW
def DmaCh.sw (c : DmaCh) : Nat :=
  if c.trig = 1 then (match fifoKind c.fifo with | some (_, w, _) => w | none => 1) else 2 ^ c.srcW

/-- The settings meet R396, R403 and R404. -/
def DmaCh.cfgOk (c : DmaCh) : Bool :=
  decide (c.trig < 2) && decide (c.dstW < 7) && decide (c.event < 0x2B) && decide (c.len ≠ 0)
    && (if c.trig = 1 then fifoLarge c.fifo else decide (c.srcW < 7) && decide (c.src % c.sw = 0))
    && decide (c.dst % c.dw = 0) && decide (c.len % max c.dw c.sw = 0)

/-- A transfer is under way or waits to begin. -/
def DmaSt.active : DmaSt → Bool
  | .waitHigh | .run | .paused => true
  | _ => false

/-- A halted channel. -/
def DmaSt.halted : DmaSt → Bool
  | .haltedBus | .haltedFrozen => true
  | _ => false

/-- Begins a transfer with the settings of a channel (R395, R405). -/
def DmaCh.begin (c : DmaCh) (asserted : Bool) : DmaCh :=
  let c := { c with abortRes := 0, done := 0, used := 0, usedAt := 0, hold := [] }
  if !c.cfgOk then { c with st := .cfgErr }
  else if c.trig = 1 ∧ !asserted then { c with st := .waitHigh }
  else { c with st := .run }

/-- START on channel `n` (R395, R405). -/
def State.dmaBegin (s : State) (n : Nat) : State :=
  let c := s.dma n
  if c.st.active then s else s.setDma n (c.begin (s.fifoAsserted c.fifo))

/-- The ranges of an IMMEDIATE transfer overlap and its destination lies above its source: it runs descending (R397). -/
def DmaCh.descends (c : DmaCh) : Bool :=
  let a := plainOf c.src
  let b := plainOf c.dst
  decide (c.trig = 0) && decide (a < b) && decide (b < a + c.len)

/-- Writes to the destination of channel `n` up to `k` bytes of its transfer in all, in its direction and in whole destination
beats; a FIFO_LEVEL transfer pops whole words of its FIFO and keeps what it has not written (R395 to R397). -/
def State.dmaMove (s : State) (n k : Nat) : State :=
  let c := s.dma n
  let k := min k c.len / c.dw * c.dw
  if k ≤ c.done then s
  else if c.trig = 1 then
    let need := k - c.done - c.hold.length
    let (bs, s) := s.popWords c.fifo ((need + 63) / 64)
    let all := c.hold ++ bs
    let s := s.fifoEval c.fifo
    let s := s.ramWrite (aliasOf c.dst) (plainOf c.dst + c.done) (all.take (k - c.done))
    s.setDma n { c with done := k, hold := all.drop (k - c.done) }
  else
    let off := if c.descends then c.len - k else c.done
    let bs := s.ramRead (plainOf c.src + off) (k - c.done)
    let s := s.ramWrite (aliasOf c.dst) (plainOf c.dst + off) bs
    s.setDma n { c with done := k }

/-- Island of the unit that EVENT names (R404). -/
def eventIsland (e : Nat) : Nat := if e ≤ 0x20 then islEnc (e - 1) else if e = 0x21 then 6 else islDec (e - 0x22)

/-- FIFO_LEVEL transfers whose FIFO is asserted and that may begin or resume (R395). -/
def DmaCh.mayGo (c : DmaCh) : Bool :=
  decide (c.trig = 1) && (c.st == .waitHigh || c.st == .paused)

end Sys2Proof.Machine
end

