-- ==== Sys2Proof/Machine/FaultBase.lean ====
section
/-!
DEFINITION. The fault collector: sources, events, reactions up to SAFE, escalation and marks (R438 to R444), the ledger's
unit entries (R451 to R454, R495), and how a run ends without commit (R203). FAILOVER is in Machine/Failover.lean.
-/

namespace Sys2Proof.Machine

/-! ### Sources (R438, R449, R464) -/

/-- Reserved sources: never raised (R438). -/
def fltReserved (n : Nat) : Bool :=
  decide (0x0FB ≤ n ∧ n < 0x100) || decide (0x123 ≤ n ∧ n < 0x130) || decide (0x15A ≤ n ∧ n < 0x160) || decide (0x182 ≤ n)

/-- Class of a source in the coding of FLT_LEVEL.CLASS (R438, R464). -/
def fltClass (n : Nat) : Nat :=
  if n < 0x060 then 1 else if n < 0x080 then 7 else if n < 0x0C0 then 0 else if n < 0x0E0 then 4
  else if n < 0x0F2 then 1 else if n < 0x100 then 4 else if n < 0x110 then 0 else if n < 0x114 then 5
  else if n < 0x119 then 1 else if n < 0x130 then 2 else if n < 0x150 then 3 else if n < 0x154 then 0
  else if n < 0x156 then 2 else if n < 0x160 then 7 else if n = 0x160 then 3 else if n < 0x168 then 2
  else if n < 0x170 then 4 else if n = 0x170 then 5 else if n < 0x174 then 1 else if n < 0x17B then 0
  else if n < 0x181 then 7 else 6

/-- Kinds of units that have spares (R449). -/
inductive FoKind where
  | enc | dec | stw | dma | pe | pc | lane | srtp
  deriving DecidableEq, Repr

/-- Index range of a kind's units (R465). -/
def FoKind.range : FoKind → Nat × Nat
  | .enc => (0, 32) | .dec => (32, 41) | .stw => (41, 45) | .dma => (45, 113) | .pe => (113, 177) | .pc => (177, 241)
  | .lane => (241, 251) | .srtp => (251, 256)

/-- Kind whose unit a source's FAILOVER moves; none for a source that R449 does not list. -/
def fltKind (n : Nat) : Option FoKind :=
  if n < 0x0E0 then some .enc
  else if n < 0x0FB then some .dec
  else if 0x110 ≤ n ∧ n < 0x114 ∨ n = 0x175 ∨ n = 0x16D then some .stw
  else if 0x114 ≤ n ∧ n < 0x119 then some .srtp
  else if 0x119 ≤ n ∧ n < 0x123 then some .lane
  else if 0x150 ≤ n ∧ n < 0x156 then some .pc
  else if n = 0x17B ∨ n = 0x16B then some .dma
  else if n = 0x178 ∨ n = 0x16C then some .pe
  else none

/-- Unit of a source that belongs to one unit (R438); none where several units share the source. -/
def fltOwn (n : Nat) : Option Nat :=
  if n < 0x0E0 then some (unitEnc (n % 32))
  else if n < 0x0E9 then some (unitDec (n - 0x0E0))
  else if n < 0x0F2 then some (unitDec (n - 0x0E9))
  else if n < 0x0FB then some (unitDec (n - 0x0F2))
  else if 0x110 ≤ n ∧ n < 0x114 then some (unitStw (n - 0x110))
  else if 0x114 ≤ n ∧ n < 0x119 then some (unitSrtp (n - 0x114))
  else if 0x119 ≤ n ∧ n < 0x123 then some (241 + (n - 0x119))
  else none

/-- Unit that an event names: the source's own, or for a shared source the one on the line, which must be of the source's
kind (R440). -/
def fltUnit (n : Nat) (u : Option Nat) : Option Nat :=
  match fltKind n with
  | none => none
  | some k =>
    match fltOwn n with
    | some o => some o
    | none => u.filter fun v => decide (k.range.1 ≤ v ∧ v < k.range.2)

/-- Island from which a source's line comes (R438, R477); none for lines of AON and of FABRIC, whose clocks never stop. -/
def fltIsland (n : Nat) : Option Nat :=
  if n < 0x060 then some (islEnc (n % 32))
  else if 0x080 ≤ n ∧ n < 0x0C0 then some (islEnc (n % 32))
  else if 0x0E0 ≤ n ∧ n < 0x0E9 then some (islDec (n - 0x0E0))
  else if 0x0E9 ≤ n ∧ n < 0x0F2 then some (islDec (n - 0x0E9))
  else if 0x100 ≤ n ∧ n < 0x108 then some (islBarn (n - 0x100))
  else if 0x108 ≤ n ∧ n < 0x110 then some (islBarn (n - 0x108))
  else if 0x110 ≤ n ∧ n < 0x114 ∨ n = 0x174 ∨ n = 0x175 ∨ n = 0x17D then some 1
  else if 0x114 ≤ n ∧ n < 0x119 then some 7
  else if 0x119 ≤ n ∧ n < 0x11E then some 4
  else if 0x11E ≤ n ∧ n < 0x123 then some 5
  else if 0x150 ≤ n ∧ n < 0x15A then some (2 + n % 2)
  else if n = 0x171 ∨ n = 0x178 ∨ n = 0x179 then some 6
  else none

/-- Names of sources (R438). -/
def srcThresh (k : Nat) : Nat := 0x000 + k
def srcResidue (k : Nat) : Nat := 0x020 + k
def srcGlean (k : Nat) : Nat := 0x040 + k
def srcOverrun (k : Nat) : Nat := 0x060 + k
def srcDecBounds (k : Nat) : Nat := 0x0E0 + k
def srcDecGlean (k : Nat) : Nat := 0x0E9 + k
def srcStwWd (k : Nat) : Nat := 0x110 + k
def srcSrtp (k : Nat) : Nat := 0x114 + k
/-- SERDES_LANE of lane `k` of port `p`. -/
def srcLane (p k : Nat) : Nat := 0x119 + 5 * p + k
def srcWarn (t : Nat) : Nat := 0x130 + t
def srcCrit (t : Nat) : Nat := 0x140 + t
def srcHbmCe (k : Nat) : Nat := 0x150 + k
def srcHbmUe (k : Nat) : Nat := 0x152 + k
def srcHbmLink (k : Nat) : Nat := 0x154 + k
def srcHbmTrain (k : Nat) : Nat := 0x156 + k
def srcHbmSpares (k : Nat) : Nat := 0x158 + k
def srcTrip : Nat := 0x160
def srcClkSys : Nat := 0x161
def srcEthClk : Nat := 0x162
def srcPtpHold : Nat := 0x163
def srcPtpUnlock : Nat := 0x164
def srcPtpStep : Nat := 0x165
def srcXspi : Nat := 0x166
def srcPcieDown : Nat := 0x167
def srcFuse : Nat := 0x168
def srcKeyFail : Nat := 0x169
def srcDebug : Nat := 0x16A
def srcDecWd : Nat := 0x170
def srcRewrite : Nat := 0x171
def srcTagFail : Nat := 0x172
def srcBodyErr : Nat := 0x179
def srcParity : Nat := 0x173
def srcLedger : Nat := 0x17A
def srcDmaHalt : Nat := 0x17B
def srcBacklog : Nat := 0x17C
def srcStwLoad : Nat := 0x17D
def srcStoreFull : Nat := 0x17E
def srcMoveFail : Nat := 0x17F
def srcChRestart : Nat := 0x180
def srcOversize : Nat := 0x181

/-! ### Marks, live levels -/

/-- Live: the source's line or its force bit (R439). -/
def State.fltLive (s : State) (n : Nat) : Bool := s.flt.line.get false n || s.flt.force.get false n

/-- A source of class `c` holds a mark (R441, R462). -/
def State.classHeld (s : State) (c : Nat) : Bool := s.flt.mark.any fun e => e.2 && fltClass e.1 == c

/-- Level at which a source reacts by the table: RECORD until the table is installed (R20, R440); SAFE where both copies of its byte
fail parity (R442). Assumption log 99, DESIGN CHOICE. -/
def State.fltLevel (s : State) (n : Nat) : Nat :=
  if !s.flt.installed then 0 else if s.flt.lost.get false n then 3 else s.flt.level.get 0 n

/-! ### The safe state (R444) -/

/-- The stack's drain is the move of a pseudo-channel by FAILOVER (R366, R449). -/
def Stack.moving (v : Stack) : Bool := !(v.drain.phase == .idle) && v.drain.want.contains v.drain.tgt

/-- The stacks in service go to self-refresh (R374), but for one whose drain is a FAILOVER move in progress, which completes first
(R444). Assumption log 65, DEDUCED. -/
def State.stacksRest (s : State) : State :=
  [0, 1].foldl (fun s k =>
    let v := s.stack k
    if v.st = .service ∧ !v.moving then s.setStack k { v with st := .selfRef } else s) s

/-- A rule-set swap under way is completed with DENIED (R312): one that has not flipped is given up. Assumption log 63, DEDUCED. -/
def State.swapDenied (s : State) : State :=
  match s.rep.swap with
  | none => s
  | some w =>
    if w.answered then s
    else
      let w' := if w.flipped.isSome then some { w with answered := true } else none
      { s with rep := { s.rep with swap := w' } }.completeJob { tag := w.tag, irq := w.irq } .denied

/-- The device's state becomes SAFE. Assumption log 65, DEDUCED. -/
def State.safeState (s : State) : State := { s with glb := { s.glb with st := .safe } }

/-- The device enters SAFE (R18, R444): FAULT_N low, DEV_SAFE raised, every gate closed, PFC frames on every port for all
priorities, the stacks in self-refresh, and a rule-set swap under way denied. Commands held in TRAIN are fetched (R19). A RESTART
that executed in the same AON cycle keeps it from SAFE; one that executed before does not, until its reset (R18, R70). Assumption log
89, DESIGN CHOICE. -/
def State.enterSafe (s : State) : State :=
  if s.glb.restartPend ∧ s.glb.restartAt = s.time.aon then s
  else if s.glb.st = .train ∨ s.glb.st = .run then
    ((((s.safeState.irqEvent irqDevSafe).sendPfc 0 0xFF 0xFFFF).sendPfc 1 0xFF 0xFFFF).stacksRest.swapDenied).fetch
  else s

/-! ### Events and reactions -/

/-- Records an event: sticky is set (R439). -/
def State.fltSticky (s : State) (n : Nat) : State := { s with flt := { s.flt with sticky := s.flt.sticky.set false n true } }

/-- An escalated reaction is counted (R441, R462). -/
def State.fltEscalated (s : State) : State :=
  { s with flt := { s.flt with esc := min 255 (s.flt.esc + 1), escSat := s.flt.escSat || decide (254 ≤ s.flt.esc) } }

/-- The reaction at a level from NOTIFY up, but for FAILOVER's move (R440, R441). -/
def State.fltNotify (s : State) (n level : Nat) : State :=
  let s := s.irqEvent (irqFlt n)
  let s := { s with flt := { s.flt with mark := s.flt.mark.set false n true } }
  if level = 3 then s.enterSafe else s

/-- The unit's sources react at RECORD and set no mark: it is quarantined or retired (R451). -/
def State.muted (s : State) (u : Option Nat) : Bool :=
  match u with
  | none => false
  | some u => !s.sound u

/-- Applies the reaction to an event of source `n` that names unit `u`; `held` says that a lower-numbered source of its class
reacted in the same cycle, and `mute` that the unit was out of service before the cycle. Answers the level at which it reacted (R20,
R439 to R441, R451). Assumption log 38, DEDUCED. -/
def State.react (s : State) (n : Nat) (u : Option Nat) (held : Bool) (mute : Bool := s.muted (fltUnit n u)) : Nat × State :=
  let s := s.fltSticky n
  if mute ∨ !s.flt.installed then (0, s)
  else
    let esc := held || s.classHeld (fltClass n)
    let lvl := if esc then min 3 (s.fltLevel n + 1) else s.fltLevel n
    let s := if esc then s.fltEscalated else s
    if lvl = 0 then (0, s) else (lvl, s.fltNotify n lvl)

/-- A source can have an event now: it is not reserved, the collector is out of RESET, live is low, and its island's clock
runs (R18, R438, R439, R477); a force bit raises live whatever the power state of the unit (R439, R443). -/
def State.canRise (s : State) (n : Nat) (forced : Bool := false) : Bool :=
  !fltReserved n && !(s.glb.st == .reset) && !s.fltLive n
    && (forced || (match fltIsland n with | none => true | some i => !s.stopped i))

/-- An event on a source whose FAILOVER moves nothing. -/
def State.raiseBasic (s : State) (n : Nat) : State := if s.canRise n then (s.react n none false).2 else s

/-! ### The ledger's unit entries -/

/-- Retires a unit, with its one retirement record (R451, R454, R495). -/
def State.retire (s : State) (u src : Nat) : State :=
  let v := s.unit u
  if v.st = .retired then s
  else
    let s := s.setUnit u { v with st := .retired }
    let l := s.led.put { item := .record s.led.records.length }
    { s with led := { l with records := l.records ++ [{ unit := u, src := src, fo := v.fo, hour := l.hours }] } }

/-- Quarantines a unit on a fault of source `src`, or retires it where its failover count has reached 3 (R451); a unit already out of
service stays as it is. -/
def State.quarantine (s : State) (u src : Nat) : State :=
  let v := s.unit u
  if v.st = .retired ∨ v.st = .quarantined then s
  else if 3 ≤ v.fo then s.retire u src
  else
    let s := s.setUnit u { v with st := .quarantined }
    { s with led := { s.led with cause := s.led.cause.set 0 u src } }

/-- The move of a unit counts in FLT_UNIT.FAILOVERS (R452, R465). -/
def State.countMove (s : State) (u : Nat) : State :=
  let v := s.unit u
  s.setUnit u { v with fo := min 255 (v.fo + 1), foSat := v.foSat || decide (254 ≤ v.fo) }

/-- A unit's marigold entry takes a state. -/
def State.setUnitSt (s : State) (u : Nat) (st : UnitSt) : State := s.setUnit u { s.unit u with st := st }

/-- Island that a unit of the marigold list lies in; none for the DMA channels, which lie in FABRIC (R465, R466). -/
def unitIsland (u : Nat) : Option Nat :=
  if u < 32 then some (islEnc u) else if u < 41 then some (islDec (u - 32)) else if u < 45 then some 1
  else if u < 113 then none else if u < 177 then some 6 else if u < 241 then some (2 + (u - 177) / 32)
  else if u < 251 then some (4 + (u - 241) / 5) else some 7

/-- The host holds the unit's island in HOLD or OFF: the unit is not eligible as a spare (R443). -/
def State.unitHeld (s : State) (u : Nat) : Bool := match unitIsland u with | some i => s.stopped i | none => false

/-- The lowest-numbered spare unit of an index range that is eligible (R443). -/
def State.firstSpare (s : State) (a b : Nat) : Option Nat :=
  (range2 a b).find? fun u => (s.unit u).st == .spare && !s.unitHeld u

/-- The units of the list `us` that are in service, each at its own place, and the others of the kind in service at the places left
(R338, R346, R449). Assumption log 34, DEDUCED. -/
def placeUnits (sound : Nat → Bool) (n spare : Nat) : List (Option Nat) :=
  (List.range n).map fun i =>
    if sound i then some i
    else if ((List.range i).all sound) && sound spare then some spare
    else none

/-- SRTP pairs and SerDes lanes serve as the ledger has them (R346, R449, R487). Assumption log 34, DEDUCED. -/
def State.ledgerUnits (s : State) : State :=
  let inSvc (u : Nat) : Bool := (s.unit u).st == .inService
  let sp := placeUnits (fun i => inSvc (unitSrtp i)) 4 4
  let lanes (p : Nat) : List Nat := (placeUnits (fun k => inSvc (unitLane p k)) 4 4).mapIdx fun i k => k.getD i
  let s := { s with egr := { s.egr with srtp := (List.range 4).foldl (fun t i => t.set none i ((sp[i]?).getD none)) [] } }
  [0, 1].foldl (fun s p => s.setPortSt p { s.portSt p with lanes := lanes p }) s

/-! ### Masters (R101, R105, R450) -/

/-- Unit of the marigold list behind a master; none for the PCIe function and the JTAG master (R465). -/
def masterUnit (m : Nat) : Option Nat :=
  if m < 0x20 then some (unitEnc m) else if m < 0x29 then some (unitDec (m - 0x20))
  else if 0x30 ≤ m ∧ m < 0x74 then some (unitDma (m - 0x30)) else if 0x80 ≤ m ∧ m < 0xC0 then some (unitPe (m - 0x80))
  else if 0xC0 ≤ m ∧ m < 0xC4 then some (unitStw (m - 0xC0)) else none

/-- A master's port is closed: it is frozen, or it is an encode or decode core that failover has isolated (R105, R450). -/
def State.portClosed (s : State) (m : Nat) : Bool := s.isFrozen m || (decide (m < 0x29) && s.muted (masterUnit m))

/-- A response to a master. -/
def State.fabRespond (s : State) (m : Nat) (err : Bool) (data : List Byte) : State :=
  { s with fab := { s.fab with resps := s.fab.resps ++ [{ master := m, err := err, data := data }] } }

/-- A master's outstanding transactions complete with an error response: those that wait on the fabric, and those that the granary has not
accepted (R105, R450). -/
def State.fabCancel (s : State) (m : Nat) : State :=
  let mine := s.fab.waiting.filter fun r => r.master == m
  let lost := s.hbm.stalled.filter fun a => a.master == m
  let s := { s with
    fab := { s.fab with waiting := s.fab.waiting.filter fun r => r.master != m }
    hbm := { s.hbm with
      stalled := s.hbm.stalled.filter fun a => a.master != m
      rets := s.hbm.rets ++ lost.map fun a => { port := a.port, err := true, data := [] } } }
  mine.foldl (fun s r => s.fabRespond r.master true []) s

/-! ### How a run ends without commit (R126, R203) -/

/-- Order of frame and then sheaf (R126). -/
def ShId.lt (a b : ShId) : Bool := decide (a.fr < b.fr) || (decide (a.fr = b.fr) && decide (a.sh < b.sh))

/-- Puts a sheaf into a pending list in order, once (R126). -/
def insPend (x : ShId) : List ShId → List ShId
  | [] => [x]
  | y :: ys => if x = y then y :: ys else if x.lt y then x :: y :: ys else y :: insPend x ys

/-- The session that a run's sheaf belongs to is still the channel's (R126). -/
def State.runSess (s : State) (r : Run) : Bool := (s.sessOf r.ch).isOpen && (s.sessOf r.ch).id == r.own.id

/-- A sheaf goes to its channel part's pending list (R126). -/
def State.putPend (s : State) (ch p : Nat) (x : ShId) : State :=
  let v := s.part ch p
  s.setPart ch p { v with pend := insPend x v.pend }

/-- A frame was given up by the last frame skip or channel part restart (R146, R448). -/
def State.givenUp (s : State) (ch fr : Nat) : Bool :=
  let v := s.ingOf ch
  decide (v.skipFrom ≤ fr ∧ fr < v.skipTo)

/-- An encode core becomes idle; a run that executed a sheaf leaves a verdict (R213). -/
def State.coreIdle (s : State) (k : Nat) (verdict : Option Nat) : State :=
  let e := s.encOf k
  s.setEnc k { e with act := 0, verdict := verdict.getD e.verdict }

/-- The run of lane `l` ends without commit: its output is discarded, its sheaf is pending again while its session is open,
and ENC_STAT.VERDICT shows `verdict` (R203, R213). A gleaning run leaves nothing. -/
def State.dropRun (s : State) (l verdict : Nat) : State :=
  let v := s.lane l
  match v.run with
  | none => s
  | some r =>
    let s := s.setLane l { v with run := none }
    if r.kind = 2 then s.coreIdle r.core none
    else
      let s := s.coreIdle r.core (some verdict)
      let t := s.part r.ch r.part
      let s := s.setPart r.ch r.part { t with errRun := none }
      if s.runSess r && !s.givenUp r.ch r.fr then s.putPend r.ch r.part { fr := r.fr, sh := r.sh } else s

/-- What decoding redone from the last saved state finds: the state as saved, with the input fed and the buffers released
since (R138). -/
def Dcx.rollback (saved cur : Dcx) : Dcx :=
  { saved with
    isOpen := cur.isOpen, bindCh := cur.bindCh, outHost := cur.outHost, rtp := cur.rtp, inWp := cur.inWp, feeds := cur.feeds
    lossPend := cur.lossPend
    units := saved.units ++ cur.units.drop (cur.units.length - (cur.feeds - saved.feeds))
    wants := saved.wants || cur.wants
    waiting := cur.waiting.filter fun w => saved.waiting.contains w
    pool := (List.range 32).foldl (fun t b =>
      let o := saved.pool.get {} b
      let n := cur.pool.get {} b
      t.set {} b { o with host := o.host && n.host, bind := min o.bind n.bind }) [] }

/-- The run of decode lane `l` ends with its core: its context's work since the last saved state is undone (R138).
Assumption log 59, DESIGN CHOICE. -/
def State.dropDecRun (s : State) (l : Nat) : State :=
  let v := s.dlane l
  let s := s.setDLane l { v with run := none, glean := none }
  match v.run, s.decRedo.get none l with
  | some x, some o =>
    let s := { s with decRedo := s.decRedo.set none l none }
    s.setDcx x (o.rollback (s.dcxOf x))
  | _, _ => s

end Sys2Proof.Machine
end

