-- ==== Sys2Proof/Machine/Firewall.lean ====
section
/-!
DEFINITION. The firewall: masters, windows and what it makes of a transaction (R101 to R103, R111, R113).
-/

namespace Sys2Proof.Machine

/-! ### Masters (R101, R438) -/

/-- A master ID that is issued. -/
def masterIssued (m : Nat) : Bool :=
  decide (m < 0x29) || decide (0x30 ≤ m ∧ m < 0x74) || decide (0x80 ≤ m ∧ m < 0xC6)

/-- Fault source of a master's freeze (R438). -/
def freezeSrc (m : Nat) : Nat :=
  if m < 0x20 then 0x0C0 + m else if m < 0x29 then 0x0F2 + (m - 0x20) else if m < 0x74 then 0x16B
  else if m < 0xC0 then 0x16C else if m < 0xC4 then 0x16D else if m = 0xC4 then 0x16E else 0x16F

/-- Master ID of a unit: the inverse of `masterUnit` on the units that are fabric masters. -/
def unitMaster (u : Nat) : Option Nat :=
  if u < 41 then some u else if u < 45 then some (0xC0 + (u - 41)) else if u < 113 then some (0x30 + (u - 45))
  else if u < 177 then some (0x80 + (u - 113)) else none

/-! ### Windows (R102, R103, R113) -/

/-- Key of a window register: 0 base, 1 limit, 2 attributes (R113). -/
def winKey (m w r : Nat) : Nat := 32 * m + 4 * w + r

/-- Window `w` of a master is enabled and the transaction lies entirely within it. -/
def State.inWindow (s : State) (r : FabReq) (w : Nat) : Bool :=
  let a := plainOf r.addr
  bitOf (s.fab.win.get 0 (winKey r.master w 2)) 3
    && decide (4096 * (s.fab.win.get 0 (winKey r.master w 0) % 2 ^ 24) ≤ a)
    && decide (a + r.len ≤ 4096 * (s.fab.win.get 0 (winKey r.master w 1) % 2 ^ 24) + 4096)

/-- The window's attributes grant the access. -/
def State.winGrants (s : State) (r : FabReq) (w : Nat) : Bool :=
  bitOf (s.fab.win.get 0 (winKey r.master w 2)) (if r.write then 1 else 0)

/-- The set and clear aliases need ALIAS. -/
def State.winAlias (s : State) (r : FabReq) (w : Nat) : Bool :=
  aliasOf r.addr == 0 || bitOf (s.fab.win.get 0 (winKey r.master w 2)) 2

/-- What the firewall makes of a transaction (R102, R103, R111): allowed, a violation of a KIND, or answered with Completer
Abort. -/
inductive Verdict where
  | allow | violation (kind : Nat) | abort
  deriving DecidableEq, Repr

/-- The firewall's verdict on a transaction of a master whose port is open. -/
def State.fabVerdict (s : State) (r : FabReq) : Verdict :=
  if aliasOf r.addr = 3 then .violation 3
  else if !s.fab.lock then (if r.master = 0xC4 then .abort else .allow)
  else
    let ws := (List.range 8).filter fun w => s.inWindow r w
    if ws.isEmpty then .violation 0
    else
      let gs := ws.filter fun w => s.winGrants r w
      if gs.isEmpty then .violation 1
      else if gs.any fun w => s.winAlias r w then .allow
      else .violation 2

end Sys2Proof.Machine
end

