-- ==== Sys2Proof/Machine/DecIn.lean ====
section
/-!
DEFINITION. Input of the decode contexts: the input ring, PCIe feeds, RTP packets and their reorder buffer (R254 to R257).
-/

namespace Sys2Proof.Machine

/-- Size of a context's input ring in bytes (R252, R256). -/
def State.ringBytes (s : State) (x : Nat) : Nat :=
  match s.img.dec[x]? with
  | some d => d.inMib * 1048576
  | none => 0

/-- Free space of the input ring (R256). -/
def State.ringFree (s : State) (x : Nat) : Nat :=
  let v := s.dcxOf x
  let n := s.ringBytes x
  if n = 0 then 0 else n - (v.inWp + n - v.inRp) % n - 1

/-- Queues a unit of `len` bytes, or discards and counts it where it does not fit (R256, R257). -/
def State.queueUnit (s : State) (x len ts : Nat) (loss : Bool) : State :=
  let v := s.dcxOf x
  if s.ringFree x < len then (s.setDcx x { v with lossPend := true }).dcxCount x 5 1
  else
    let n := s.ringBytes x
    s.setDcx x { v with
      inWp := (v.inWp + len) % n, feeds := v.feeds + 1, lossPend := false
      units := v.units ++ [{ len := len, loss := loss || v.lossPend, ts := ts }] }

/-- Writes bytes into the input ring from its write offset on, wrapping at its end (R256, R257, R372). -/
def State.ringPut (s : State) (x : Nat) (bs : List Byte) : State :=
  let n := s.ringBytes x
  let a := s.regionBase 0x07 x
  let w := (s.dcxOf x).inWp
  (s.granWrite (a + w) (bs.take (n - w))).granWrite a (bs.drop (n - w))

/-- Bytes of the queued unit at the read offset of the ring (R256). -/
def State.unitBytes (s : State) (x len : Nat) : List Byte :=
  let n := s.ringBytes x
  let a := s.regionBase 0x07 x
  let r := (s.dcxOf x).inRp
  s.ramRead (a + r) (min len (n - r)) ++ s.ramRead a (len - (n - r))

/-- Serial distance from `a` forward to `b` modulo 2^16. -/
def seqDist (a b : Nat) : Nat := (b + 65536 - a % 65536) % 65536

/-! ### RTP payloads taken apart (R254) -/

/-- Parts of an RFC 6184 STAP-A or an RFC 7798 aggregation packet: each has its size in two bytes ahead of it. -/
def sizedParts : Nat → List Byte → List (List Byte)
  | 0, _ => []
  | n + 1, bs => if bs.length ≤ 2 then [] else slice bs 2 (beAt bs 0 2) :: sizedParts n (bs.drop (2 + beAt bs 0 2))

/-- A leb128 number at the front of bytes, with the bytes it takes. -/
def lebRead : Nat → List Byte → Nat × Nat
  | 0, _ => (0, 0)
  | n + 1, bs =>
    let b := byteAt bs 0
    if b < 128 then (b, 1) else let (v, k) := lebRead n (bs.drop 1); (b % 128 + 128 * v, k + 1)

/-- A number in leb128, of at most `n` bytes. -/
def lebBytesOf : Nat → Nat → List Byte
  | 0, _ => []
  | n + 1, v => if v < 128 then leBytes 1 v else leBytes 1 (v % 128 + 128) ++ lebBytesOf n (v / 128)

/-- OBU elements of an AV1 payload after the aggregation header; with W other than 0 the W-th has no length field. -/
def obuParts : Nat → Nat → List Byte → List (List Byte)
  | 0, _, _ => []
  | n + 1, w, bs =>
    if bs.isEmpty then []
    else if w = 1 then [bs]
    else
      let (l, k) := lebRead 8 bs
      slice bs k l :: obuParts n (w - 1) (bs.drop (k + l))

/-- A part of a payload: its bytes, whether it goes on with the fragments before, and whether more follow. -/
structure RtpPart where
  bytes : List Byte
  goesOn : Bool := false
  more   : Bool := false
  deriving DecidableEq, Repr

/-- The parts of a payload in the formats of R254: codec 1 H.264, 2 HEVC, 3 AV1. -/
def rtpParts (codec : Nat) (p : List Byte) : List RtpPart :=
  let b0 := byteAt p 0
  match codec with
  | 1 =>
    let ty := b0 % 32
    if ty = 24 then (sizedParts p.length (p.drop 1)).map fun b => { bytes := b }
    else if ty = 28 then
      let h := byteAt p 1
      let start := bitOf h 7
      [{ bytes := (if start then leBytes 1 (b0 / 32 * 32 + h % 32) else []) ++ p.drop 2, goesOn := !start, more := !bitOf h 6 }]
    else [{ bytes := p }]
  | 2 =>
    let ty := bitsOf b0 1 6
    if ty = 48 then (sizedParts p.length (p.drop 2)).map fun b => { bytes := b }
    else if ty = 49 then
      let h := byteAt p 2
      let start := bitOf h 7
      [{ bytes := (if start then leBytes 1 (b0 / 128 * 128 + h % 64 * 2 + b0 % 2) ++ slice p 1 1 else []) ++ p.drop 3
         goesOn := !start, more := !bitOf h 6 }]
    else [{ bytes := p }]
  | _ =>
    let es := obuParts p.length (bitsOf b0 4 2) (p.drop 1)
    es.mapIdx fun i e => { bytes := e, goesOn := bitOf b0 7 && i == 0, more := bitOf b0 6 && i + 1 == es.length }

/-- Takes in a part: a whole NAL unit or OBU joins the access unit; fragments wait for the last; one that goes on where the
fragments before it are lost is discarded, and with it the whole unit (R254, R255). -/
def RtpIn.takePart (r : RtpIn) (p : RtpPart) : RtpIn :=
  let bs := if p.goesOn then r.frag.map (· ++ p.bytes) else some p.bytes
  match bs with
  | none => { r with auLoss := true }
  | some bs => if p.more then { r with frag := some bs } else { r with nals := r.nals ++ [bs], frag := none }

/-- Bytes of an access unit in the ring: an Annex B byte stream, or OBUs in the low-overhead format, each with its size (R256,
R257). -/
def auBytes (codec : Nat) (nals : List (List Byte)) : List Byte :=
  nals.flatMap fun n =>
    if codec = 3 then
      let h := byteAt n 0
      let hl := if bitOf h 2 then 2 else 1
      if bitOf h 1 then n
      else leBytes 1 (h + 2) ++ slice n 1 (hl - 1) ++ lebBytesOf 8 (n.length - hl) ++ n.drop hl
    else [0, 0, 0, 1] ++ n

/-- The access unit being gathered ends: its bytes are written into the ring and its unit is queued (R254, R257). -/
def State.endAu (s : State) (x : Nat) : State :=
  let v := s.dcxOf x
  match v.rtp with
  | none => s
  | some r =>
    let bs := auBytes v.codec r.nals
    let loss := r.auLoss || r.frag.isSome
    let s := s.setDcx x { v with
      lossPend := v.lossPend || (r.nals.isEmpty && loss)
      rtp := some { r with gather := false, nals := [], frag := none, auLoss := false } }
    if r.nals.isEmpty then s
    else
      let s := if s.ringFree x < bs.length then s else s.ringPut x bs
      s.queueUnit x bs.length r.auTs loss

/-- Passes a packet on in sequence order: its parts join the access unit of its timestamp, which ends after the marker (R254). -/
def State.passRtp (s : State) (x : Nat) (q : RtpHeld) : State :=
  let s := match (s.dcxOf x).rtp with
    | some r => if r.gather ∧ r.auTs ≠ q.ts then s.endAu x else s
    | none => s
  let v := s.dcxOf x
  match v.rtp with
  | none => s
  | some r =>
    let r := { (rtpParts v.codec q.pay).foldl RtpIn.takePart r with gather := true, auTs := q.ts, next := some ((q.seq + 1) % 65536) }
    let s := s.setDcx x { v with rtp := some r }
    if q.marker then s.endAu x else s

/-- Passes on the held packets that follow in sequence (R255). -/
def State.drainRtp : Nat → Nat → State → State
  | 0, _, s => s
  | n + 1, x, s =>
    match (s.dcxOf x).rtp with
    | none => s
    | some r =>
      match r.buf.find? fun q => some q.seq == r.next with
      | none => s
      | some q =>
        let s := s.setDcx x { s.dcxOf x with rtp := some { r with buf := r.buf.filter fun e => e.seq ≠ q.seq } }
        State.drainRtp n x (s.passRtp x q)

/-- Declares lost the sequence numbers missing before the earliest held packet: each is counted, and the unit it belonged to
lacks it (R255). -/
def State.loseRtp (s : State) (x : Nat) : State :=
  let v := s.dcxOf x
  match v.rtp with
  | none => s
  | some r =>
    match r.next with
    | none => s
    | some nx =>
      match minBy (fun q => seqDist nx q.seq) r.buf with
      | none => s
      | some q =>
        let s := s.setDcx x { v with
          lossPend := v.lossPend || !r.gather, rtp := some { r with next := some q.seq, auLoss := true, frag := none } }
        (s.dcxCount x 4 (seqDist nx q.seq)).drainRtp 512 x

/-- Payload formats that are dropped: STAP-B, MTAP16, MTAP24 and FU-B of RFC 6184, PACI of RFC 7798 (R254). -/
def payloadDropped (codec first : Nat) : Bool :=
  match codec with
  | 1 => [25, 26, 27, 29].contains (first % 32)
  | 2 => bitsOf first 1 6 == 50
  | _ => false

/-- Length of an RTP header with its contributing sources and extension. -/
def rtpHdrLen (bs : List Byte) : Nat :=
  let h := 12 + 4 * (byteAt bs 0 % 16)
  if bitOf (byteAt bs 0) 4 then h + 4 + 4 * beAt bs (h + 2) 2 else h

/-- An RTP payload without its padding. -/
def rtpPay (bs : List Byte) : List Byte :=
  let n := bs.length - rtpHdrLen bs
  slice bs (rtpHdrLen bs) (if bitOf (byteAt bs 0) 5 then n - byteAt bs (bs.length - 1) else n)

/-- An RTP packet arrives for a context (R254, R255). -/
def State.rtpArrive (s : State) (x : Nat) (bs : List Byte) : State :=
  let v := s.dcxOf x
  match v.rtp with
  | none => s.dcxCount x 3 1
  | some r =>
    let seq := beAt bs 2 2
    let q : RtpHeld := { seq := seq, ts := beAt bs 4 4, marker := bitOf (byteAt bs 1) 7, pay := rtpPay bs }
    if byteAt bs 1 % 128 ≠ r.pt ∨ payloadDropped v.codec (byteAt bs (rtpHdrLen bs)) then s.dcxCount x 3 1
    else
      match r.next with
      | none => s.passRtp x q
      | some nx =>
        if seq = nx then (s.passRtp x q).drainRtp 512 x
        else if 32768 ≤ seqDist nx seq ∨ r.buf.any fun e => e.seq == seq then s.dcxCount x 3 1
        else
          let s := s.setDcx x { v with rtp := some { r with buf := r.buf ++ [q] } }
          if 512 ≤ r.buf.length + 1 then s.loseRtp x else s

/-- REORDER_TIMEOUT: the window of the gap before sequence number `seq` has passed; the missing number is declared lost
(R255). -/
def execReorderTimeout (dcx seq : Nat) (s : State) : Res :=
  .next (match (s.dcxOf dcx).rtp with
    | some r => if r.next = some seq ∧ !r.buf.isEmpty then s.loseRtp dcx else s
    | none => s)

/-- DEC_FEED: queues one unit written into the input ring; a feed for a context that is not open, or that takes RTP, is
counted as dropped (R256, R276). -/
def execDecFeed (dcx : Nat) (loss : Bool) (len : Nat) (s : State) : Res :=
  let v := s.dcxOf dcx
  .next (if !s.awake then s else if !v.isOpen || v.rtp.isSome then s.dcxCount dcx 3 1 else s.queueUnit dcx len v.feeds loss)

end Sys2Proof.Machine
end

