-- ==== Sys2Proof/Machine/Ptp.lean ====
section
/-!
DEFINITION. Network time: what PTP time does with a message, the lock state, holdover, and the time pins (R35, R140 to R143,
R492). The step itself is in Machine/Rota.lean.
-/

namespace Sys2Proof.Machine

/-- A value in the range of a signed 32-bit register (R148). -/
def sat32 (v : Int) : Int := max (-2147483648) (min 2147483647 v)

/-- Bits of a signed 32-bit register. -/
def int32 (v : Int) : Nat := (v % 4294967296).toNat

/-- The lock state changes; interrupt source PTP_LOCK follows (R141, R424). -/
def State.setLock (s : State) (v : Nat) : State :=
  if s.ptp.lock = v then s else { s with ptp := { s.ptp with lock := v, wasLocked := s.ptp.wasLocked || decide (v = 1) } }.irqEvent irqPtpLock

/-- A locked clock enters holdover and PTP_HOLDOVER is raised; its averaged frequency is a free value within 200 ppm (R141 to R143).
Assumption log 2, DESIGN CHOICE. -/
def State.enterHoldover (s : State) : State :=
  if s.ptp.lock = 1 then
    let (f, s) := s.drawBelow 2000001
    ({ s with ptp := { s.ptp with streak := 0, freq := f, acc := 0, phase := 0 } }.setLock 2).raiseBasic srcPtpHold
  else s

/-- ROTA_PTP_STAT.PORT_STATE (R492). -/
def State.ptpPortState (s : State) : Nat :=
  let p := s.img.net.ptpPort
  if !s.time.running then 0
  else if !s.canSend p then 3
  else if s.ptp.master.isNone then 0
  else if s.ptp.lock = 1 then 2
  else 1

/-- A measured offset in ns (R141, R143): the register, the count towards lock, and a step where slewing does not remove it.
The first offset after each start of the time unit is removed by a step. Assumption log 60, DEDUCED. -/
def State.ptpOffset (s : State) (off : Int) : State :=
  let v := s.ptp
  let streak := if off.natAbs ≤ 1000 then v.streak + 1 else 0
  let step := !v.measured || (decide (v.stepUs ≠ 0) && decide (v.stepUs * 1000 ≤ off.natAbs))
  let s := { s with ptp := { v with
    offset := sat32 off, streak := streak, measured := true, stepPend := if step then some (-off) else v.stepPend } }
  if 16 ≤ streak then s.setLock 1 else s

/-! ### The best master clock algorithm (R140) -/

/-- Lexicographic order. -/
def lexLt : List Nat → List Nat → Bool
  | a :: as, b :: bs => decide (a < b) || (decide (a = b) && lexLt as bs)
  | [], _ :: _ => true
  | _, [] => false

/-- What the data set comparison of IEEE 1588 orders clocks by, the lower the better. Assumption log 60, DEDUCED. -/
def announceKey (a : Announce) : List Nat := [a.prio1, a.cls, a.accuracy, a.variance, a.prio2, a.gm, a.steps, a.src]

/-- Four Announce intervals in AON cycles (R33). -/
def announceWindow (a : Announce) : Nat :=
  if 0 ≤ a.interval then 1600000000 * 2 ^ a.interval.toNat else 1600000000 / 2 ^ (-a.interval).toNat

/-- A clock is qualified: two of its Announce messages lie within four Announce intervals, and it is less than 255 steps away.
Assumption log 60, DEDUCED. -/
def Foreign.qualified (f : Foreign) (now : Nat) : Bool :=
  match f.prev with
  | some t => decide (now ≤ t + announceWindow f.ann ∧ f.ann.steps < 255)
  | none => false

/-- The best qualified clock. -/
def bestMaster (now : Nat) (fs : List Foreign) : Option Nat :=
  (fs.foldl (fun (b : Option Announce) f =>
    if !f.qualified now then b
    else match b with
      | some a => if lexLt (announceKey f.ann) (announceKey a) then some f.ann else b
      | none => some f.ann) none).map (·.src)

/-- An Announce message joins the record of its clock, and the best master clock algorithm selects; Sync is to be received from a
master newly selected (R140, R492). Assumption log 60, DEDUCED. -/
def State.announce (s : State) (a : Announce) : State :=
  let v := s.ptp
  let now := s.time.aon
  let prev := (v.foreign.find? fun f => f.ann.src == a.src).map (·.last)
  let fs := { ann := a, last := now, prev := prev : Foreign } :: v.foreign.filter fun f => f.ann.src != a.src
  let m : Option Nat := match bestMaster now fs with
    | some m => some m
    | none => v.master
  { s with ptp := { v with foreign := fs, master := m, syncTrans := if m = v.master then v.syncTrans else none } }

/-- PTP time takes a message that arrived on port `p` at `ts` ns (R140, R290): it is dropped and counted under the first reason that applies,
or accepted (R493). A Sync counts only from the selected master. Assumption log 60, DEDUCED. -/
def State.ptpMessage (s : State) (p ts : Nat) (m : PtpMsg) : State :=
  let s := { s with ptp := { s.ptp with rxAt := some ts } }
  let drop (i : Nat) : State := { s with ptp := { s.ptp with drop := s.ptp.drop.upd 0 i (cntAdd 1) } }
  if p ≠ s.img.net.ptpPort then drop 0
  else if !bitOf s.img.net.ptpTrans m.transport then drop 1
  else if m.domain ≠ s.img.net.ptpDomain then drop 2
  else
    match m.kind with
    | .sync src off =>
      if s.ptp.master = some src then { s with ptp := { s.ptp with syncTrans := some m.transport } }.ptpOffset off else s
    | .announce a => s.announce a
    | .other => s

/-- ROTA_PTP_STAT.PPS_IN_SEEN: an edge within the last 1.5 s, that is 600,000,000 AON cycles (R33, R148). Assumption log 28, DEDUCED. -/
def State.ppsSeen (s : State) : Bool :=
  match s.ptp.ppsAt with
  | some t => decide (s.time.aon ≤ t + 600000000)
  | none => false

/-- SYNC_TIMEOUT: no Sync was accepted for three Sync intervals (R141). -/
def execSyncTimeout (s : State) : Res := .next s.enterHoldover

/-- ANNOUNCE_TIMEOUT: no master is selected any more, and a locked clock enters holdover (R140, R141, R492). -/
def execAnnounceTimeout (s : State) : Res :=
  .next (
    let v := s.ptp
    { s with ptp := { v with
        master := none, syncTrans := none, foreign := v.foreign.filter fun f => v.master != some f.ann.src } }.enterHoldover)

/-- HOLDOVER_EXPIRY: HOLDOVER_S seconds have passed in holdover; 0 is no limit (R141, R148). -/
def execHoldoverExpiry (s : State) : Res :=
  .next (if s.ptp.lock = 2 ∧ s.ptp.holdoverS ≠ 0 then (s.setLock 0).raiseBasic srcPtpUnlock else s)

/-- DELAY_REQ_TRANSMIT: the slave port sends a Delay_Req to the selected master over the transport of its Sync, in RUN and in
SAFE (R11, R140, R335). -/
def execDelayReqTransmit (s : State) : Res :=
  .next (match s.ptp.syncTrans with
    | some t =>
      let p := s.img.net.ptpPort
      if s.ptp.master.isSome ∧ s.canSend p ∧ (s.glb.st = .run ∨ s.glb.st = .safe) ∧ bitOf s.img.net.ptpTrans t then
        let f : TxFrame :=
          { port := p, kind := 2, len := 64, hdr := [BitVec.ofNat 8 t], dseq := 0, roc := 0, key := 0, pid := 0 }
        { s with
          ptp := { s.ptp with delayReqs := s.ptp.delayReqs + 1 }
          egr := { s.egr with sent := s.egr.sent.set none p (some f) } }
      else s
    | none => s)

/-- PPS_IN_EDGE: a rising edge of 1PPS_IN with a high time of at least 100 ns. Locked or in holdover, its distance from the
device's whole second is measured; in holdover with PPS_IN_EN it steers the phase, a slew (R35, R142, R148). Assumption log 28, DEDUCED. -/
def execPpsInEdge (highNs : Nat) (s : State) : Res :=
  .next (if 100 ≤ highNs ∧ s.time.running then
    let ns : Int := s.ptpNsec
    let off : Int := if ns < 500000000 then ns else ns - 1000000000
    let steers := s.ptp.lock == 2 && s.ptp.ppsInEn
    { s with ptp := { s.ptp with
        ppsAt := some s.time.aon, ppsOffset := sat32 off, phase := if steers then off * nsTime else s.ptp.phase } }
  else s)

end Sys2Proof.Machine
end

