-- ==== Sys2Proof/Machine/Parser.lean ====
section
/-!
DEFINITION. Receiving: the MAC's checks, the parse engines and their instructions, exact-match lookup, and the consumers of
what a program ends with (R283 to R297).
-/

namespace Sys2Proof.Machine

/-! ### Exact-match index (R293, R294) -/

def emBuckets : Nat := 163840
/-- First slot of the stash. -/
def emStash : Nat := 655360

/-- CRC-32C of the table number and the key with a seed (R294). -/
def emHash (seed t : Nat) (k : List Byte) : Nat :=
  (crc32cFrom (BitVec.ofNat 32 seed) (BitVec.ofNat 8 t :: k)).toNat

def State.emBucket1 (s : State) (t : Nat) (k : List Byte) : Nat := emHash s.img.emSeed1 t k % emBuckets
def State.emBucket2 (s : State) (t : Nat) (k : List Byte) : Nat := emHash s.img.emSeed2 t k % emBuckets
/-- The 16-bit signature of a key (R294). -/
def State.emSig (s : State) (t : Nat) (k : List Byte) : Nat := emHash s.img.emSeed1 t k / 65536

def bucketSlots (b : Nat) : List Nat := [4 * b, 4 * b + 1, 4 * b + 2, 4 * b + 3]
def stashSlots : List Nat := (List.range 64).map (emStash + ·)

/-- Slots that a lookup reads: both buckets and the stash (R294). -/
def State.emSlots (s : State) (t : Nat) (k : List Byte) : List Nat :=
  bucketSlots (s.emBucket1 t k) ++ bucketSlots (s.emBucket2 t k) ++ stashSlots

/-- The slot that holds a key of a table. -/
def State.emFind (s : State) (t : Nat) (k : List Byte) : Option Nat :=
  (s.emSlots t k).find? fun i =>
    match s.pkt.em.get none i with
    | some e => e.tbl == t && e.sig == s.emSig t k && e.key == k
    | none => false

/-- A lookup's hit body: none on a miss, where the key length differs from the table's or the table is unused (R288,
R294). -/
def State.emLookup (s : State) (t : Nat) (k : List Byte) : Option EmBody :=
  match s.img.em[t]? with
  | none => none
  | some d =>
    if d.role = 0 ∨ d.keyLen ≠ k.length then none
    else
      match s.emFind t k with
      | none => none
      | some i => (s.pkt.em.get none i).map fun e => e.body

/-- The table of a role (R293). -/
def State.emTable (s : State) (role : Nat) : Option Nat :=
  (List.range 8).find? fun t => match s.img.em[t]? with
    | some d => d.role == role
    | none => false

/-! ### Consumers (R290, R291, R444) -/

/-- The packet engine runs: PKT's clock is not stopped, in RUN or SAFE (R18, R476). -/
def State.pktRuns (s : State) : Bool := (s.glb.st == .run || s.glb.st == .safe) && !s.stopped 6

/-- A FIFO's sticky OVERFLOW bit is set (R392). -/
def State.fifoOverflow (s : State) (f : Nat) : State := s.setFifo f { s.fifo f with ovf := true }

/-- A VFT packet goes to its port's ingress FIFO, with an item notice, or is dropped whole where that is full (R172, R173, R388, R392). -/
def State.vftPush (s : State) (p : Nat) (q : VftPkt) : State :=
  let s := { s with chip := { s.chip with notices := [] } }
  if 32768 < s.fifoFill p + fifoWords q.bytes.length then (s.fifoOverflow p).ingDrop 9
  else
    let s := { s with chip := { s.chip with notices := [p] } }
    let s := if p = 0 then { s with ing := { s.ing with q0 := s.ing.q0 ++ [q] } }
      else { s with ing := { s.ing with q1 := s.ing.q1 ++ [q] } }
    let s := if 255 < s.fifoItems p then s.setFifo p { s.fifo p with itemsSat := true } else s
    s.fifoEval p

/-- Counts a class in PKT_CLASS_CNT (R290, R319). -/
def State.countClass (s : State) (c : Nat) : State :=
  { s with pkt := { s.pkt with clsCnt := s.pkt.clsCnt.upd 0 c (cntAdd 1) } }

/-- The header that the last layer record of a type names, and the payload, which begins at CUR (R288). -/
def PeCtx.from (c : PeCtx) (type : Nat) : List Byte :=
  let f := c.frame.take c.fin
  (match c.layers.reverse.find? fun l => l.type == type with
    | some l => slice f l.off l.len
    | none => []) ++ f.drop c.cur

/-- Hands a packet on as its program ended (R290, R291, R444). Assumption log 98, DESIGN CHOICE. -/
def State.consume (s : State) (k : Nat) (e : PeEnd) (c : PeCtx) : State :=
  match e with
  | .exc r => s.packetExc k r c
  | .done cls m =>
    let safe := s.glb.st == .safe
    match cls, c.hit with
    | 0, _ => s.countClass 0
    | 1, some (.vft ch) =>
      if safe then s.countClass 0 else (s.countClass 1).vftPush c.port { ch := ch, bytes := c.from 0x06 }
    | 2, some (.aud h) =>
      if safe then s.countClass 0
      else { s.countClass 2 with pkt := { (s.countClass 2).pkt with rtcpQ := s.pkt.rtcpQ ++ [h] } }
    | 3, some (.dec x) => if safe then s.countClass 0 else (s.countClass 3).rtpArrive x (c.from 0x07)
    | 4, _ => (s.countClass 4).ptpMessage c.port c.ts m
    | 5, _ => (s.countClass 5).queueExc { reason := 0, port := c.port, ts := c.ts, layers := c.layers, frame := c.frame.take c.fin }
    | _, none => s.packetExc k 5 c
    | cls, some _ => s.countClass (if safe then 0 else cls)

/-- Frames in engines of a port, in arrival order. -/
def State.order (s : State) (p : Nat) : List Retire := s.pkt.order.get [] p
def State.setOrder (s : State) (p : Nat) (l : List Retire) : State :=
  { s with pkt := { s.pkt with order := s.pkt.order.set [] p l } }

/-- Results that have come to the head of a port's order retire, in order (R284). -/
def State.retirePort (s : State) (p : Nat) : State :=
  let l := s.order p
  let ready := l.takeWhile fun r => r.res.isSome
  let s := s.setOrder p (l.drop ready.length)
  ready.foldl (fun s r => match r.res with
    | some (e, c) => s.consume r.pe e c
    | none => s) s

/-- The oldest unfinished frame of an engine gets its result. -/
def markEnded (k : Nat) (res : PeEnd × PeCtx) : List Retire → List Retire
  | [] => []
  | r :: rs => if r.pe = k ∧ r.res = none then { r with res := some res } :: rs else r :: markEnded k res rs

/-- The program of engine `k` ends; the engine is free, and its packet retires in its port's arrival order (R284). -/
def State.peFinish (s : State) (k : Nat) (e : PeEnd) : State :=
  let c := s.pe k
  let s := s.setPe k {}
  (s.setOrder c.port (markEnded k (e, c) (s.order c.port))).retirePort c.port

/-! ### Programs (R284 to R289) -/

/-- Exception reasons of the hardware (R291). -/
def excDepth : Nat := 1
def excWindow : Nat := 2
def excBudget : Nat := 3
def excLength : Nat := 4
def excMiss : Nat := 5
def excUnsupported : Nat := 8

/-- Fields of an instruction (R287). -/
structure PeIns where
  op  : Nat
  a   : Nat
  b   : Nat
  f   : Nat
  off : Nat
  n   : Nat
  imm : Nat
  tgt : Nat
  deriving DecidableEq, Repr

def PeIns.ofWord (w : BitVec 64) : PeIns :=
  let v := w.toNat
  { op := bitsOf v 58 6, a := bitsOf v 55 3, b := bitsOf v 52 3, f := bitsOf v 48 4, off := bitsOf v 40 8
    n := bitsOf v 32 8, imm := bitsOf v 16 16, tgt := bitsOf v 6 10 }

/-- What an instruction does: the program goes on with new registers at a next index, waits for a lookup, or ends. -/
inductive PeOut where
  | go (c : PeCtx)
  | fin (e : PeEnd)
  deriving DecidableEq, Repr

def peExc (r : Nat) : PeOut := .fin (.exc r)

/-- The 97th step does not execute (R285). -/
def peBudget : Nat := 96

/-- The engine ends a program that would execute outside the store, or a reserved opcode (R285, R288). -/
def State.peSettle (s : State) (k : Nat) : State :=
  let c := s.pe k
  let bad := match s.img.parser.code[c.pc]? with
    | none => true
    | some w => let op := (PeIns.ofWord w).op; decide (op = 0) || decide (0x0A < op)
  if c.busy && bad then s.peFinish k (.exc (if peBudget ≤ c.steps then excBudget else excUnsupported)) else s

/-- Engine `k` executes its next instruction, if that has opcode `op` and no lookup is awaited: the budget is checked first,
then the instruction's own checks and effect are `f`; a lookup's result decides where execution continues (R285, R288). Assumption log 21, DEDUCED. -/
def State.peStep (s : State) (k op : Nat) (f : PeIns → PeCtx → PeOut) : State :=
  let c := s.pe k
  match s.img.parser.code[c.pc]? with
  | none => s
  | some w =>
    let i := PeIns.ofWord w
    if !c.busy || c.lookup.isSome || decide (i.op ≠ op) || !s.pktRuns then s
    else if peBudget ≤ c.steps then s.peFinish k (.exc excBudget)
    else
      match f i { c with steps := c.steps + 1, pc := c.pc + 1 } with
      | .go c => if c.lookup.isSome then s.setPe k c else (s.setPe k c).peSettle k
      | .fin e => s.peFinish k e

/-- A read of `n` frame bytes at `p` lies inside the window and the frame (R285). -/
def PeCtx.inWindow (c : PeCtx) (p n : Nat) : Bool := decide (p + n ≤ 256 ∧ p + n ≤ c.fin)

/-- Value of register G`i`, and the registers with it written modulo 2^16 (R288). -/
def PeCtx.reg (c : PeCtx) (i : Nat) : Nat := c.g.get 0 i
def PeCtx.setReg (c : PeCtx) (i v : Nat) : PeCtx := { c with g := c.g.set 0 i (v % 65536) }

def peExt (i : PeIns) (c : PeCtx) : PeOut :=
  if i.n ≠ 1 ∧ i.n ≠ 2 then peExc excUnsupported
  else if !c.inWindow (c.cur + i.off) i.n then peExc excWindow
  else .go (c.setReg i.a ((beAt c.frame (c.cur + i.off) i.n / 2 ^ i.f) &&& i.imm))

def peKey (i : PeIns) (c : PeCtx) : PeOut :=
  if i.n = 0 ∨ 48 < i.n ∨ 48 < i.imm % 64 + i.n then peExc excUnsupported
  else if !c.inWindow (c.cur + i.off) i.n then peExc excWindow
  else .go { c with kb := c.kb.setList 0 (i.imm % 64) (slice c.frame (c.cur + i.off) i.n) }

def peKeyi (i : PeIns) (c : PeCtx) : PeOut :=
  if 46 < i.off then peExc excUnsupported else .go { c with kb := c.kb.setList 0 i.off (beBytes 2 i.imm) }

def peAlu (i : PeIns) (c : PeCtx) : PeOut :=
  let a := c.reg i.a
  let b := c.reg i.b
  match i.f with
  | 0 => .go (c.setReg i.a i.imm)
  | 1 => .go (c.setReg i.a (a + i.imm))
  | 2 => .go (c.setReg i.a (a &&& i.imm))
  | 3 => .go (c.setReg i.a (a / 2 ^ (i.imm % 16)))
  | 4 => .go (c.setReg i.a b)
  | 5 => .go (c.setReg i.a (a + b))
  | 6 => .go (c.setReg i.a (a + 65536 - b))
  | _ => peExc excUnsupported

/-- The condition of BR (R288). -/
def peCond (f a b imm : Nat) : Bool :=
  match f with
  | 0 => a == imm
  | 1 => a != imm
  | 2 => decide (a < imm)
  | 3 => decide (imm ≤ a)
  | 4 => a &&& imm != 0
  | 5 => a &&& imm == 0
  | 6 => true
  | _ => a == b

def peBr (size : Nat) (i : PeIns) (c : PeCtx) : PeOut :=
  if 7 < i.f ∨ size ≤ i.tgt then peExc excUnsupported
  else if peCond i.f (c.reg i.a) (c.reg i.b) i.imm then .go { c with pc := i.tgt } else .go c

/-- Length of the layer that HDR records (R288). -/
def hdrLen (i : PeIns) (c : PeCtx) : Nat := i.imm + (if bitOf i.f 3 then c.reg i.b * 2 ^ (i.f % 4) else 0)

def peHdr (i : PeIns) (c : PeCtx) : PeOut :=
  if i.n = 0 ∨ 0x0A < i.n ∨ bitOf i.f 2 then peExc excUnsupported
  else if 256 < c.cur + hdrLen i c then peExc excWindow
  else if 12 ≤ c.layers.length then peExc excDepth
  else .go { c with
    layers := c.layers ++ [{ type := i.n, off := c.cur, len := hdrLen i c }], cur := c.cur + hdrLen i c }

/-- LEN: the declared length must be what follows, or be followed by Ethernet padding (R289). -/
def peLen (i : PeIns) (c : PeCtx) : PeOut :=
  let d := c.reg i.a * 2 ^ (i.f % 4)
  let o := c.cur + i.off
  if o + d = c.fin then .go c
  else if o + d < c.fin ∧ c.frame.length + 4 = 64 then .go { c with fin := o + d }
  else peExc excLength

def peLkp (size : Nat) (i : PeIns) (c : PeCtx) : PeOut :=
  if i.n = 0 ∨ 48 < i.n ∨ size ≤ i.tgt then peExc excUnsupported
  else .go { c with lookup := some (i.imm % 8, i.n, i.tgt) }

def peExcIns (i : PeIns) (_ : PeCtx) : PeOut := if i.f ≤ 4 then peExc excUnsupported else peExc i.f

def peDone (m : PtpMsg) (i : PeIns) (_ : PeCtx) : PeOut := if 5 < i.f then peExc excUnsupported else .fin (.done i.f m)

/-! ### Commands -/

/-- FRAME_RECEIVE: the MAC drops and counts a frame that is too long or fails its FCS; every other frame goes on to parsing
while PKT runs. `bytes` is the frame without its FCS (R283, R476). Assumption log 73, DEDUCED. -/
def execFrameReceive (port : Nat) (bytes : List Byte) (fcsOk : Bool) (s : State) : Res :=
  .next (if !s.canSend port || !(s.glb.st == .run || s.glb.st == .safe) then s
    else if 9216 < bytes.length + 4 then s.pktCount port 1
    else if !fcsOk then s.pktCount (2 + port) 1
    else if !s.pktRuns then s
    else { s with pkt := { s.pkt with rx := s.pkt.rx.set [] port (s.pkt.rx.get [] port ++ [(s.ptpNs, bytes)]) } })

/-- A free in-service parse engine, the lowest-numbered one (assumption log 20). -/
def State.freePe (s : State) : Option Nat :=
  (List.range 64).find? fun k => (s.unit (unitPe k)).st == .inService && !(s.pe k).busy

/-- PARSE_START: an engine takes the port's oldest waiting frame and starts the port's program (R284). Assumption log 20, DESIGN CHOICE. -/
def execParseStart (port : Nat) (s : State) : Res :=
  .next (match s.pkt.rx.get [] port, s.freePe with
    | (ts, f) :: fs, some k =>
      if s.pktRuns then
        let c : PeCtx :=
          { busy := true, port := port, frame := f, fin := f.length, ts := ts
            pc := if port = 0 then s.img.parser.entry0 else s.img.parser.entry1 }
        let s := { s with pkt := { s.pkt with rx := s.pkt.rx.set [] port fs } }
        ((s.setPe k c).setOrder port (s.order port ++ [{ pe := k, res := none }])).peSettle k
      else s
    | _, _ => s)

/-- EXT (R288). -/
def execExt (pe : Nat) (s : State) : Res := .next (s.peStep pe 0x01 peExt)
/-- KEY (R288). -/
def execKey (pe : Nat) (s : State) : Res := .next (s.peStep pe 0x02 peKey)
/-- KEYI (R288). -/
def execKeyi (pe : Nat) (s : State) : Res := .next (s.peStep pe 0x03 peKeyi)
/-- ALU (R288). -/
def execAlu (pe : Nat) (s : State) : Res := .next (s.peStep pe 0x04 peAlu)
/-- BR (R288). -/
def execBr (pe : Nat) (s : State) : Res := .next (s.peStep pe 0x05 (peBr s.img.parser.code.length))
/-- HDR (R288). -/
def execHdr (pe : Nat) (s : State) : Res := .next (s.peStep pe 0x06 peHdr)
/-- LEN (R288, R289). -/
def execLen (pe : Nat) (s : State) : Res := .next (s.peStep pe 0x07 peLen)
/-- LKP: the lookup begins, and the engine waits for its result (R288). -/
def execLkp (pe : Nat) (s : State) : Res := .next (s.peStep pe 0x08 (peLkp s.img.parser.code.length))
/-- EXC (R288, R291). -/
def execExc (pe : Nat) (s : State) : Res := .next (s.peStep pe 0x09 peExcIns)
/-- DONE ends the program of engine `k`; `m` is the PTP message that the frame carries, for class PTP (R288, R290). Assumption log 73,
DEDUCED. -/
def State.peEnds (s : State) (k : Nat) (m : PtpMsg) : State := s.peStep k 0x0A (peDone m)

/-- LOOKUP_RESULT: the body of the key is attached and the program falls through, or it branches on a miss (R288, R294); the lookup waits
while PKT is stopped (R476). -/
def execLookupResult (pe : Nat) (s : State) : Res :=
  let c := s.pe pe
  .next (match c.lookup with
    | none => s
    | some (t, n, tgt) =>
      if !s.pktRuns then s
      else match s.emLookup t (c.kb.getList 0 0 n) with
      | some b => (s.setPe pe { c with lookup := none, hit := some b }).peSettle pe
      | none => (s.setPe pe { c with lookup := none, pc := tgt }).peSettle pe)

end Sys2Proof.Machine
end

