-- ==== Sys2Proof/Machine/Failover.lean ====
section
/-!
DEFINITION. FAILOVER: how each kind of unit leaves service and a spare takes its place (R423, R446, R449 to R453), and the
raising of a fault source with its whole reaction.
-/

namespace Sys2Proof.Machine

/-! ### Lanes (R135, R450, R453) -/

/-- The lane's move looks for a spare: the spare that R136 selects clears its scratchpad and begins its admission case;
where no core qualifies the move has failed (R450, R453). -/
def State.seekEnc (s : State) (l : Nat) : State :=
  let s := s.setLane l { s.lane l with adm := none, ready := none, failed := false }
  match s.encSpare with
  | some k => (s.clearSpad (encSpad k) encSpadSize).setLane l { s.lane l with adm := some k }
  | none => (s.setLane l { s.lane l with failed := true }).raiseBasic srcMoveFail

/-- The same for a decode lane. -/
def State.seekDec (s : State) (l : Nat) : State :=
  let s := s.setDLane l { s.dlane l with adm := none, ready := none, failed := false }
  match s.decSpare with
  | some k => s.setDLane l { s.dlane l with adm := some k }
  | none => (s.setDLane l { s.dlane l with failed := true }).raiseBasic srcMoveFail

/-- A bound encode core leaves service: its lane is unbound, its run ends as cause 1 of R203, it is isolated as a freeze isolates it and
quarantined, and its lane moves (R105, R135, R450). A spare on trial for a lane is quarantined and the lane's move tries another; any other
spare is quarantined (R450). -/
def State.failEnc (s : State) (k src : Nat) : State :=
  match s.laneOfCore k with
  | some l =>
    let s := s.countMove (unitEnc k)
    let s := s.dropRun l 3
    let s := s.setLane l { s.lane l with bound := none }
    ((s.quarantine (unitEnc k) src).fabCancel k).seekEnc l
  | none =>
    let s := (s.quarantine (unitEnc k) src).fabCancel k
    match laneNums.find? fun l => (s.lane l).adm == some k || (s.lane l).ready == some k with
    | some l => s.seekEnc l
    | none => s

/-- The same for a decode core (R138, R449, R450). -/
def State.failDec (s : State) (k src : Nat) : State :=
  match s.dlaneOfCore k with
  | some l =>
    let s := s.countMove (unitDec k)
    let s := s.dropDecRun l
    let s := s.setDec k { s.decOf k with act := 0 }
    let s := s.setDLane l { s.dlane l with bound := none }
    ((s.quarantine (unitDec k) src).fabCancel (0x20 + k)).seekDec l
  | none =>
    let s := (s.quarantine (unitDec k) src).fabCancel (0x20 + k)
    match dlaneNums.find? fun l => (s.dlane l).adm == some k || (s.dlane l).ready == some k with
    | some l => s.seekDec l
    | none => s

/-! ### Other kinds (R449, R453) -/

/-- An active steward core is retired; the spare takes its place by STEWARD_TAKEOVER (R423, R449, R453). Assumption log 39, DEDUCED. -/
def State.failStw (s : State) (u src : Nat) : State :=
  let s := (s.countMove u).retire u src
  match s.firstSpare 41 45 with
  | some _ => s
  | none => s.raiseBasic srcMoveFail

/-- A DMA channel leaves service: its transfer restarts from its start on the lowest-numbered spare, with the same settings,
or waits for a channel that passes its quarantine test (R449, R453). -/
def State.failDma (s : State) (u src : Nat) : State :=
  let n := u - 45
  let c := s.dma n
  let s := (s.countMove u).quarantine u src
  let moves := c.st.active || c.st.halted
  let s := if c.st.active then s.setDma n { c with st := .haltedBus } else s
  match s.firstSpare 45 113 with
  | some v =>
    let s := s.setUnitSt v .inService
    if moves then s.setDma (v - 45) (({ c with st := .idle } : DmaCh).begin (s.fifoAsserted c.fifo)) else s
  | none =>
    let s := if moves then { s with chip := { s.chip with waiting := s.chip.waiting ++ [c] } } else s
    s.raiseBasic srcMoveFail

/-- A parse engine leaves service: its packet in flight takes UNSUPPORTED (R449, R453). -/
def State.failPe (s : State) (u src : Nat) : State :=
  let k := u - 113
  let s := (s.countMove u).quarantine u src
  let s := if (s.pe k).busy then s.peFinish k (.exc excUnsupported) else s
  match s.firstSpare 113 177 with
  | some v => s.setUnitSt v .inService
  | none => s.raiseBasic srcMoveFail

/-- An SRTP pair leaves service: the logical pair it carries is remapped to the spare at a frame boundary, or is unmapped
where no spare remains (R338, R449, R453). -/
def State.failSrtp (s : State) (u src : Nat) : State :=
  let p := u - 251
  let s := (s.countMove u).quarantine u src
  let lp := (List.range 4).find? fun i => s.egr.srtp.get none i == some p || s.egr.remap.get none i == some p
  match s.firstSpare 251 256, lp with
  | some v, some i =>
    { s.setUnitSt v .inService with egr := { s.egr with remap := s.egr.remap.set none i (some (v - 251)) } }
  | some v, none => s.setUnitSt v .inService
  | none, some i =>
    { s with egr := { s.egr with srtp := s.egr.srtp.set none i none, remap := s.egr.remap.set none i none } }.raiseBasic
      srcMoveFail
  | none, none => s.raiseBasic srcMoveFail

/-- A SerDes lane, where the port's block of NET_SETUP allows substitution and lane 4 is spare: beside a link that is up, lane
4 is trained to take its place, unless it is being trained for another lane; in a link that is down, lane 4 replaces it and the port
retrains (R449, R453). -/
def State.failLane (s : State) (u src : Nat) : State :=
  let p := (u - 241) / 5
  let k := (u - 241) % 5
  let sub := match s.img.net.ports[p]? with
    | some b => b.laneSub
    | none => false
  if !sub then s
  else
    match s.firstSpare (unitLane p 0) (unitLane p 5) with
    | none => s.raiseBasic srcMoveFail
    | some v =>
      let q := s.portSt p
      if q.up then
        match q.subFor with
        | none => s.setPortSt p { q with subFor := some k }
        | some j => if j = k then s else s.raiseBasic srcMoveFail
      else
        let s := ((s.countMove u).quarantine u src).setUnitSt v .inService
        s.setPortSt p { q with lanes := q.lanes.map fun j => if j = k then v - unitLane p 0 else j }

/-- The gather of an abandoned spare check stops, but where a change is held until its end (R364, R368). -/
def State.gatherCut (s : State) (k : Nat) : State :=
  let v := s.stack k
  s.setStack k { v with gather := v.gather && !(s.islOf (2 + k)).held.isEmpty }

/-- A pseudo-channel joins those whose drain a fault wants, once. -/
def addWant (g : Nat) (l : List Nat) : List Nat := if l.contains g then l else l ++ [g]

/-- A pseudo-channel: a drain of it is wanted. A drain of it in progress continues; one of another before its swap is abandoned, and the
fault's takes its place; after one past its swap it starts when that ends, and no drain can start without a spare (R364 to R366, R453).
A spare or offline pseudo-channel is left to its next training (R366). Assumption log 46, DEDUCED. -/
def State.failPc (s : State) (u src : Nat) : State :=
  let g := u - 177
  let k := g / 32
  let s := { s with led := { s.led with cause := s.led.cause.set 0 u src } }
  let v := s.stack k
  let d := v.drain
  if (s.pc g).role ≠ .active then s
  else match d.phase with
    | .idle =>
      match s.firstSpare (unitPc (32 * k)) (unitPc (32 * k + 32)) with
      | none => s.raiseBasic srcMoveFail
      | some _ => s.setStack k { v with drain := { d with want := addWant g d.want } }
    | .offline => s.setStack k { v with drain := { d with want := addWant g d.want } }
    | _ =>
      if d.tgt = g then s.setStack k { v with drain := { d with want := addWant g d.want } }
      else
        let s := s.gatherCut k
        s.setStack k { s.stack k with drain := { d with phase := .idle, want := g :: d.want.filter fun x => x != d.tgt && x != g } }

/-- FAILOVER of a kind on unit `u` (R449 to R453): a unit in service leaves it; a unit that is spare is quarantined, or retired
where its kind has no quarantine test (R449, R450). -/
def State.failover (s : State) (kind : FoKind) (u src : Nat) : State :=
  match kind with
  | .enc => s.failEnc u src
  | .dec => s.failDec (u - 32) src
  | .pc => s.failPc u src
  | kind =>
    match (s.unit u).st with
    | .spare => if kind = .stw then s.retire u src else s.quarantine u src
    | .inService =>
      match kind with
      | .stw => s.failStw u src
      | .dma => s.failDma u src
      | .pe => s.failPe u src
      | .srtp => s.failSrtp u src
      | .lane => s.failLane u src
      | _ => s
    | _ => s

/-! ### Raising a source -/

/-- Channels whose SHEAF runs lie on a lane. -/
def State.laneChans (s : State) (l : Nat) : List Nat :=
  (List.range 192).filter fun ch => s.laneOfPart ch 0 == some l || s.laneOfPart ch 1 == some l

/-- A refresh request: with a picture pinned it asks for recovery (R240); otherwise for a new cycle, ignoring REFRESH_HOLD where
`now`, and else held within REFRESH_HOLD frames of the cycle start (R233). -/
def State.refreshReq (s : State) (ch : Nat) (now : Bool) : State :=
  let v := s.rcOf ch
  if !(s.sessOf ch).isOpen then s
  else if v.pinned.isSome then s.setRc ch { v with reqRec := v.reqRec + 1 }
  else if now then s.setRc ch { v with reqNow := v.reqNow + 1 }
  else
    let hold := match s.cls ch with
      | some c => c.cod.refreshHold
      | none => 0
    s.setRc ch { v with reqHold := v.reqHold + 1, held := v.held || (v.cyc && decide (v.lastG - v.cycG < hold)) }

/-- A gleaning mismatch of encode core `k` whose reaction is FAILOVER or above raises a refresh request that ignores
REFRESH_HOLD, for every channel on the core's lane (R446). -/
def State.gleanRefresh (s : State) (k : Nat) : State :=
  match s.laneOfCore k with
  | none => s
  | some l => (s.laneChans l).foldl (fun s ch => s.refreshReq ch true) s

/-- An event on source `n` from unit `u` with its whole reaction; `held` and `mute` as for State.react, `forced` as for
State.canRise. -/
def State.raiseIn (s : State) (n : Nat) (u : Option Nat) (held : Bool) (forced : Bool := false)
    (mute : Bool := s.muted (fltUnit n u)) : State :=
  if !s.canRise n forced then s
  else
    let (lvl, s) := s.react n u held mute
    let s := if 2 ≤ lvl ∧ 0x040 ≤ n ∧ n < 0x060 then s.gleanRefresh (n - 0x040) else s
    match fltKind n, fltUnit n u with
    | some k, some v => if lvl = 2 then s.failover k v n else s
    | _, _ => s

/-- Raises source `n`, which belongs to one unit or moves none. -/
def State.raise (s : State) (n : Nat) : State := s.raiseIn n none false

/-- Raises a shared source `n` from unit `u` (R440). -/
def State.raiseFrom (s : State) (n u : Nat) : State := s.raiseIn n (some u) false

/-- A line that holds its level rises or falls; a rise of live is an event (R439). Assumption log 38, DEDUCED. -/
def State.setLine (s : State) (n : Nat) (level : Bool) : State :=
  let s' := if level && !s.flt.line.get false n then s.raise n else s
  { s' with flt := { s'.flt with line := s'.flt.line.set false n level } }

/-- The lanes that began to move in a cycle, which `s₀` stood before, take the spares that they found in ascending order: the
lower-numbered lane the lower-numbered spare, and the highest have none where the spares did not suffice (R450). -/
def State.sortEnc (s s₀ : State) : State :=
  let moved := laneNums.filter fun l =>
    !((s.lane l).adm == (s₀.lane l).adm) || ((s.lane l).failed && !(s₀.lane l).failed)
  let cores := (List.range 32).filter fun k => moved.any fun l => (s.lane l).adm == some k
  (moved.zipIdx).foldl (fun s (l, i) => s.setLane l { s.lane l with adm := cores[i]?, failed := decide (cores.length ≤ i) }) s

/-- The same for decode lanes. -/
def State.sortDec (s s₀ : State) : State :=
  let moved := dlaneNums.filter fun l =>
    !((s.dlane l).adm == (s₀.dlane l).adm) || ((s.dlane l).failed && !(s₀.dlane l).failed)
  let cores := (List.range 9).filter fun k => moved.any fun l => (s.dlane l).adm == some k
  (moved.zipIdx).foldl (fun s (l, i) => s.setDLane l { s.dlane l with adm := cores[i]?, failed := decide (cores.length ≤ i) }) s

/-- Raises the events of one cycle in ascending order of source (R441): an event escalates also where a lower-numbered source
of its class has reacted in the cycle, and a unit that the cycle takes out of service is muted from the next one on (R451).
Assumption log 38, DEDUCED. -/
def State.raiseAll (s : State) (evs : List FaultEv) (forced : Bool := false) : State :=
  let t := (evs.foldl (fun (a : State × List Nat) e =>
    let mute := s.muted (fltUnit e.src (some e.unit))
    (a.1.raiseIn e.src (some e.unit) (a.2.contains (fltClass e.src)) forced mute,
      if a.1.canRise e.src forced && a.1.flt.installed && !mute then fltClass e.src :: a.2 else a.2)) (s, [])).1
  if 2 ≤ evs.length then (t.sortEnc s).sortDec s else t

/-- Puts an event into ascending order of source. -/
def insEv (e : FaultEv) : List FaultEv → List FaultEv
  | [] => [e]
  | x :: xs => if e.src ≤ x.src then e :: x :: xs else x :: insEv e xs

/-- What the error behind an event leaves. A reaction byte that fails parity in one copy is taken from the other, which rewrites it; one
that fails in both is lost (R442). A unit whose marigold entry has no valid copy at step 3 of R51 is treated as retired, and AON
writes its entry and its record, with source 0x1FF (R455, R495). An item whose write failed twice keeps its other copy (R456).
Assumption log 99, DESIGN CHOICE. -/
def State.faultHit (s : State) (e : FaultEv) : State :=
  match e.hit with
  | .bothCopies n => if e.src = srcParity ∧ s.flt.installed then { s with flt := { s.flt with lost := s.flt.lost.set false n true } } else s
  | .entry u => if e.src = srcLedger ∧ s.glb.st = .load then (s.retire u 0x1FF).ledgerUnits else s
  | .write i c1 =>
    if e.src = srcLedger ∧ (s.led.writing.map fun w => w.item) = some i then { s with led := s.led.copyFails c1 } else s
  | _ => s

/-- FAULT_EVENT: the events of one cycle react in ascending order of source (R439 to R442, R455). -/
def execFaultEvent (evs : List FaultEv) (s : State) : Res := .next ((evs.foldl State.faultHit s).raiseAll (evs.foldr insEv []))

end Sys2Proof.Machine
end

