-- ==== Sys2Proof/Machine/Samples.lean ====
section
/-!
DEFINITION. Samples in the granary: the packing of rows (R16), the input rings (R166), the reconstruction buffers of a channel
(R16, R209, R372) and the hint entries (R156).
-/

namespace Sys2Proof.Machine

/-! ### Depth and packing (R16, R116) -/

/-- Bit depth of a FORMAT code: 10 for 0x01 and 0x03 (R116). -/
def fmtDepth (format : Nat) : Nat := if format % 2 = 1 then 10 else 8

/-- Bit depth of the channel's format (R116). -/
def depthOf (c : Class) : Nat := fmtDepth c.base.format

/-- The channel is coded in HEVC (R116). -/
def isHevc (c : Class) : Bool := decide (c.base.format < 2)

/-- Mid-grey at a depth (R169, R187). -/
def midGrey (depth : Nat) : Nat := 2 ^ (depth - 1)

/-- Number whose base-2^`d` digits are the samples, the first the lowest. -/
def packNat (d : Nat) (vs : List Nat) : Nat := vs.foldr (fun v a => v % 2 ^ d + 2 ^ d * a) 0

/-- Bytes of `n` samples of `d` bits (R16): 10-bit samples lie packed, four in five bytes. -/
def packLen (d n : Nat) : Nat := (n * d + 7) / 8

/-- Samples packed into bytes, the first in the lowest bits (R16). Assumption log 81, DESIGN CHOICE. -/
def packSamples (d : Nat) (vs : List Nat) : List Byte := leBytes (packLen d vs.length) (packNat d vs)

/-- The first `n` samples of packed bytes (R16). Assumption log 81, DESIGN CHOICE. -/
def unpackSamples (d n : Nat) (bs : List Byte) : List Nat :=
  let v := leNat bs
  (List.range n).map fun i => v / 2 ^ (d * i) % 2 ^ d

/-- Samples at `col` and after replaced in a row. -/
def spliceRow (row : List Nat) (col : Nat) (vs : List Nat) : List Nat := row.take col ++ vs ++ row.drop (col + vs.length)

/-- Writes samples of `d` bits from column `col` of a packed row of `n` samples at an address: only the bytes that hold them. -/
def State.packedWrite (s : State) (d a n col : Nat) (vs : List Nat) : State :=
  let row := unpackSamples d n (s.ramRead a (packLen d n))
  let bs := packSamples d ((spliceRow row col vs).take n)
  let lo := col * d / 8
  let hi := packLen d (col + vs.length)
  s.granWrite (a + lo) (slice bs lo (hi - lo))

/-- Samples of a packed row. -/
def State.packedRead (s : State) (d a n : Nat) : List Nat := unpackSamples d n (s.ramRead a (packLen d n))

/-! ### The input ring (R16, R166, R372) -/

/-- Slot of a frame (R166). -/
def slotOf (c : Class) (fr : Nat) : Nat := fr % c.base.ring

/-- Bytes of a row of a stored plane, 0 Y, 1 CbCr and 3 HINT, at the class's width. -/
def ringPitch (c : Class) (plane : Nat) : Nat := if plane = 3 then c.base.maxW else packLen (depthOf c) c.base.maxW

/-- Offset of a stored plane in a slot: Y, then CbCr, then HINT. Assumption log 81, DESIGN CHOICE. -/
def planeOff (c : Class) (plane : Nat) : Nat :=
  let p := packLen (depthOf c) c.base.maxW
  match plane with
  | 0 => 0
  | 1 => p * c.base.maxH
  | _ => p * c.base.maxH + p * (c.base.maxH / 2)

/-- Bytes of a frame slot (R16, R166). -/
def slotBytes (c : Class) : Nat := planeOff c 3 + c.base.maxW * (c.base.maxH / 8)

/-- Granary address of a row of the ring (R166, R372). -/
def State.ringAddr (s : State) (c : Class) (ch slot plane row : Nat) : Nat :=
  s.regionBase 0x01 ch + slot * slotBytes c + planeOff c plane + row * ringPitch c plane

/-- Depth at which a stored plane's samples lie: a hint row holds bytes. -/
def planeDepth (c : Class) (plane : Nat) : Nat := if plane = 3 then 8 else depthOf c

/-- Writes samples of a row from a column on (R16, R166). -/
def State.ringWrite (s : State) (c : Class) (ch slot plane row col : Nat) (vs : List Nat) : State :=
  s.packedWrite (planeDepth c plane) (s.ringAddr c ch slot plane row) c.base.maxW col vs

/-- The first `w` samples of a row. -/
def State.ringRow (s : State) (c : Class) (ch slot plane row w : Nat) : List Nat :=
  s.packedRead (planeDepth c plane) (s.ringAddr c ch slot plane row) w

/-! ### Free buffers (R261) -/

/-- A buffer is on the free list: every mark is clear (R261). -/
def Marks.free (m : Marks) : Bool := !m.cur && !m.ref && !m.out && !m.host && m.bind == 0 && !m.hist && !m.pin

/-- The lowest free buffer of a pool (R261). -/
def freeBuf (pool : Tbl Marks) (n : Nat) : Option Nat := (List.range n).find? fun b => (pool.get {} b).free

/-! ### Reconstruction buffers (R16, R209, R262, R372) -/

/-- Bytes of a reconstruction buffer: 4:2:0 samples packed (R16). -/
def reconBytes (c : Class) : Nat := planeOff c 3

/-- Granary address of a row of reconstruction buffer `b` of a part, in the channel's CHAN_STATE region; the right part's buffers
follow the left part's (R209, R372). Assumption log 81, DESIGN CHOICE. -/
def State.reconAddr (s : State) (c : Class) (ch b plane row : Nat) : Nat :=
  s.regionBase 0x02 ch + b * reconBytes c + planeOff c plane + row * ringPitch c plane

/-- Writes reconstructed samples of a row from a column on. -/
def State.reconWrite (s : State) (c : Class) (ch b plane row col : Nat) (vs : List Nat) : State :=
  s.packedWrite (depthOf c) (s.reconAddr c ch b plane row) c.base.maxW col vs

/-- The first `w` reconstructed samples of a row. -/
def State.reconRow (s : State) (c : Class) (ch b plane row w : Nat) : List Nat :=
  s.packedRead (depthOf c) (s.reconAddr c ch b plane row) w

/-! ### Hint entries (R156) -/

/-- A hint entry: the vector in quarter luma pixels, CONF and AGE. -/
structure HintEnt where
  mvx  : Int
  mvy  : Int
  conf : Nat
  age  : Nat
  deriving DecidableEq, Repr

/-- A 16-bit two's complement number. -/
def signed16 (v : Nat) : Int := if v % 65536 < 32768 then (v % 65536 : Nat) else ((v % 65536 : Nat) : Int) - 65536

/-- The hint entry in 8 bytes; AGE 9 to 15 is treated as 0 (R156). -/
def hintOf (bs : List Nat) : HintEnt :=
  let at_ (i : Nat) : Nat := (bs[i]?).getD 0
  let age := at_ 5 % 16
  { mvx := signed16 (at_ 0 + 256 * at_ 1), mvy := signed16 (at_ 2 + 256 * at_ 3), conf := at_ 4, age := if age ≤ 8 then age else 0 }

/-- The entries of a hint row, in ascending block column (R154, R156). -/
def hintRow (bs : List Nat) : List HintEnt := (List.range (bs.length / 8)).map fun k => hintOf ((bs.drop (8 * k)).take 8)

/-! ### Decode buffers (R270, R271, R275) -/

/-- Pitch, offset of the CbCr plane and size of a buffer (R271). -/
def decPitch (d : DecDecl) : Nat := ceilDiv (2 * (ceilDiv d.maxW 64 * 64)) 256 * 256
def decChroma (d : DecDecl) : Nat := ceilDiv (decPitch d * (ceilDiv d.maxH 64 * 64)) 4096 * 4096
def decBufSize (d : DecDecl) : Nat :=
  ceilDiv (decChroma d + decPitch d * (ceilDiv d.maxH 64 * 64 / 2)) 2097152 * 2097152

/-- Granary address of a row of a plane of buffer `b` of a context (R271, R372). -/
def State.decAddr (s : State) (x b plane row : Nat) : Nat :=
  match s.img.dec[x]? with
  | some d => s.regionBase 0x06 x + b * decBufSize d + (if plane = 0 then 0 else decChroma d) + row * decPitch d
  | none => 0

/-- Samples of 10 bits in 16-bit little-endian containers, in bits [15:6] (R270). -/
def containers (vs : List Nat) : List Byte := vs.flatMap fun v => leBytes 2 (v % 1024 * 64)

/-- Writes samples of 10 bits to a row of a buffer from a column on (R270). -/
def State.decPut (s : State) (x b plane row col : Nat) (vs : List Nat) : State :=
  s.granWrite (s.decAddr x b plane row + 2 * col) (containers vs)

/-- The first `n` samples of a row of a buffer, of 10 bits (R270). -/
def State.decGet (s : State) (x b plane row n : Nat) : List Nat :=
  let bs := s.ramRead (s.decAddr x b plane row) (2 * n)
  (List.range n).map fun i => leNat (slice bs (2 * i) 2) / 64

/-- A container's sample as the encode core of a bound channel reads it (R275). -/
def decToChan (c : Class) (v : Nat) : Nat := if depthOf c = 10 then v else min 255 ((v + 2) / 4)

/-- The first `w` samples of a row of the cropped picture in a buffer, as a bound channel's core reads them (R270, R275). -/
def State.decRow (s : State) (c : Class) (x b plane row w : Nat) : List Nat :=
  let i := (s.dcxOf x).info.get {} b
  let col := if plane = 0 then i.cropX else i.cropX / 2 * 2
  ((s.decGet x b plane (row + i.cropY / (plane + 1)) (col + w)).drop col).map (decToChan c)

/-! ### What the encode core reads (R166, R274, R275) -/

/-- The decoded buffer that holds a row of a slot's frame: a bound channel's rows lie there, but for those that the fill wrote into
the ring (R12, R274). Assumption log 82, DESIGN CHOICE. -/
def State.rowSrc (s : State) (ch k plane row : Nat) : Option (Nat × Nat) :=
  let v := (s.ingOf ch).slots.get {} k
  if plane = 3 ∨ v.ringRows.get false (65536 * plane + row) then none else v.src

/-- The first `w` samples of a row of the frame in slot `k`. -/
def State.inputRow (s : State) (c : Class) (ch k plane row w : Nat) : List Nat :=
  match s.rowSrc ch k plane row with
  | some (x, b) => s.decRow c x b plane row w
  | none => s.ringRow c ch k plane row w

/-- Address and bytes of a row as the core reads it. -/
def State.rowSpan (s : State) (c : Class) (ch k plane row w : Nat) : Nat × Nat :=
  match s.rowSrc ch k plane row with
  | some (x, b) =>
    let i := (s.dcxOf x).info.get {} b
    (s.decAddr x b plane (row + i.cropY / (plane + 1)), 2 * (i.cropX + w))
  | none => (s.ringAddr c ch k plane row, packLen (planeDepth c plane) w)

/-- The row answers a read with an error response (R358, R447). -/
def State.inputBad (s : State) (c : Class) (ch k plane row w : Nat) : Bool :=
  let a := s.rowSpan c ch k plane row w
  ((s.ingOf ch).slots.get {} k).badRows.get false (65536 * plane + row) || s.poisoned a.1 a.2

end Sys2Proof.Machine
end

