-- ==== Sys2Proof/Machine/Ingress.lean ====
section
/-!
DEFINITION. Frame ingress: formats and conversion, frames and ring slots, sheaf completion and fill, VFT packets, the PCIe
aperture and doorbells (R152 to R179, R274, R494).
-/

namespace Sys2Proof.Machine

/-! ### Planes (R153, R154) -/

/-- The hint plane is in effect for the session (R160 check 6). -/
def hintOn (c : Class) (v : Sess) : Bool := c.base.hint && !v.fenic

/-- Planes of the format: 0 Y, 1 CbCr, 2 RGBX (R153). -/
def fmtPlanes (c : Class) : List Nat := if c.base.pixFmt < 2 then [0, 1] else [2]

/-- Expected planes (R167); 3 is HINT. -/
def expPlanes (c : Class) (v : Sess) : List Nat := fmtPlanes c ++ (if hintOn c v then [3] else [])

/-- Rows of a plane for each luma row that it covers: CbCr one for 2, HINT one for 8 (R153). -/
def planeDiv : Nat → Nat
  | 1 => 2 | 3 => 8 | _ => 1

/-- Rows of sheaf `sh` of a plane in a picture of height `h` (R153). -/
def sheafRows (plane h sh : Nat) : List Nat :=
  let u := 64 / planeDiv plane
  range2 (u * sh) (min (u * (sh + 1)) (h / planeDiv plane))

/-- Bytes of a whole row of a plane at width `w` (R154). -/
def rowBytes (c : Class) (plane w : Nat) : Nat :=
  match plane with
  | 2 => 4 * w
  | 3 => w
  | _ => if c.base.pixFmt = 1 then 2 * w else w

/-- Segments of a row (R152). -/
def segsOf (c : Class) : Nat := 2 ^ c.base.segs

/-! ### Conversion (R154, R155) -/

/-- Samples of Y or CbCr from a row's bytes, at the channel's depth: 10-bit containers hold the sample in bits [15:6], and
8-bit samples are widened by 4 (R154, R155). -/
def samplesOf (c : Class) (bs : List Byte) : List Nat :=
  if c.base.pixFmt = 1 then (List.range (bs.length / 2)).map fun i => leNat (slice bs (2 * i) 2) / 64
  else bs.map fun b => if depthOf c = 10 then 4 * b.toNat else b.toNat

/-- Constants Kr and Kb in ten-thousandths (R155). -/
def rgbKr (c : Class) : Int := if c.base.pixFmt = 3 then 2627 else 2126
def rgbKb (c : Class) : Int := if c.base.pixFmt = 3 then 593 else 722

/-- E′Y × 2,550,000 (R155). -/
def rgbLuma (c : Class) (r g b : Int) : Int := rgbKr c * r + (10000 - rgbKr c - rgbKb c) * g + rgbKb c * b

/-- `num ÷ den` rounded to nearest. -/
def roundDiv (num den : Int) : Int := (2 * num + den) / (2 * den)

/-- Exact luma code of a pixel, rounded to nearest (R155). -/
def rgbY (c : Class) (r g b : Int) : Int :=
  roundDiv ((219 * rgbLuma c r g b + 16 * 2550000) * 2 ^ (depthOf c - 8)) 2550000

/-- Exact chroma code of a 2 × 2 block, rounded to nearest, from the sum over its pixels of the colour minus E′Y, in
2,550,000ths, for a constant `k` of 1 - Kr or 1 - Kb in ten-thousandths (R155). -/
def rgbC (c : Class) (sum k : Int) : Int :=
  let den := 2 * 4 * 255 * k
  roundDiv ((224 * sum + 128 * den) * 2 ^ (depthOf c - 8)) den

/-- Component `x` of pixel `i` of a row of RGBX bytes. -/
def rgbAt (bs : List Byte) (i x : Nat) : Int := (byteAt bs (4 * i + x) : Int)

/-- Luma samples of the pixels of an RGBX row, and chroma samples of the 2 × 2 blocks `i0` to below `i1` of a row pair.
Assumption log 70, DESIGN CHOICE. -/
def rgbLumaRow (c : Class) (bs : List Byte) : List Int :=
  (List.range (bs.length / 4)).map fun i => rgbY c (rgbAt bs i 0) (rgbAt bs i 1) (rgbAt bs i 2)
def rgbChromaRow (c : Class) (a b : List Byte) (i0 i1 : Nat) : List Int :=
  (range2 i0 i1).flatMap fun i =>
    let px := [(a, 2 * i), (a, 2 * i + 1), (b, 2 * i), (b, 2 * i + 1)]
    let part (x : Nat) : Int := (px.map fun (bs, j) =>
      10000 * rgbAt bs j x - rgbLuma c (rgbAt bs j 0) (rgbAt bs j 1) (rgbAt bs j 2)).sum
    [rgbC c (part 2) (10000 - rgbKb c), rgbC c (part 0) (10000 - rgbKr c)]

/-- Each output sample lies within one code of the exact formula: a free value among -1, 0 and 1 (R155, assumption log 4). -/
def nearCodes (n : Nat) (vs : List Int) : List Nat :=
  vs.mapIdx fun i v => (v + Int.ofNat ((Config.freeWord (n + i)).toNat % 3) - 1).toNat

/-! ### The input ring (R166) -/

/-- Rows of the stored planes that a row of an input plane becomes: an RGBX row is a luma row, and each even one carries the
chroma row of its pair (R155). -/
def storedRows (plane row : Nat) : List (Nat × Nat) :=
  match plane with
  | 2 => if row % 2 = 0 then [(0, row), (1, row / 2)] else [(0, row)]
  | p => [(p, row)]

/-- Key of a segment bit (R161). -/
def segKey (plane row seg : Nat) : Nat := 65536 * plane + 8 * row + seg

/-- A row of the open frame is present (R161). -/
def IngCh.present (v : IngCh) (segs plane row : Nat) : Bool :=
  (List.range segs).all fun k => v.segs.get false (segKey plane row k)

/-- Marks every segment of a row present. -/
def IngCh.markRow (v : IngCh) (segs plane row : Nat) : IngCh :=
  { v with segs := (List.range segs).foldl (fun t k => t.set false (segKey plane row k) true) v.segs }

/-- A row of the session's previous input frame: of a bound channel the picture taken before, otherwise the most recent closed
frame, where it is of the session; mid-grey where there is none (R169, R274). -/
def State.prevRow (s : State) (c : Class) (ch plane row w : Nat) : List Nat :=
  let v := s.ingOf ch
  let q := s.sessOf ch
  match q.bind, v.prevPic with
  | some _, some (x, b) => s.decRow c x b plane row w
  | _, _ =>
    if v.last1 ≠ 0 ∧ v.lastSess = q.id then s.inputRow c ch (slotOf c (v.last1 - 1)) plane row w
    else List.replicate w (midGrey (depthOf c))

/-- Fills a missing row of Y, CbCr or RGBX from the session's previous input frame, or with mid-grey (R169). -/
def State.fillRow (s : State) (c : Class) (ch plane row w : Nat) : State :=
  (storedRows plane row).foldl (fun s (p, r) =>
    let v := s.ingOf ch
    let k := slotOf c v.fr
    let s := s.ringWrite c ch k p r 0 (s.prevRow c ch p r w)
    let slot := v.slots.get {} k
    s.setIng ch { v with slots := v.slots.set {} k { slot with ringRows := slot.ringRows.set false (65536 * p + r) true } }) s

/-- Fills the missing rows of a sheaf; answers whether a row of Y, CbCr or RGBX, and whether a HINT row, was missing (R169, R170). -/
def State.fillSheaf (s : State) (c : Class) (ch sh : Nat) : Bool × Bool × State :=
  let v := s.ingOf ch
  let q := s.sessOf ch
  let missing (p : Nat) : List Nat := (sheafRows p q.h sh).filter fun r => !v.present (segsOf c) p r
  let pix := (fmtPlanes c).map fun p => (p, missing p)
  let hint := if hintOn c q then missing 3 else []
  let s := pix.foldl (fun s (p, rs) => rs.foldl (fun s r => s.fillRow c ch p r q.w) s) s
  let s := hint.foldl (fun s r => s.ringWrite c ch (slotOf c v.fr) 3 r 0 (List.replicate q.w 0)) s
  (pix.any fun e => !e.2.isEmpty, !hint.isEmpty, s)

/-! ### Sheaves close (R157, R167, R169, R179) -/

/-- Changes a buffer's marks in a context's pool. -/
def State.markBuf (s : State) (x b : Nat) (f : Marks → Marks) : State :=
  let v := s.dcxOf x
  s.setDcx x { v with pool := v.pool.upd {} b f }

/-- A frame of a bound channel has closed. The picture taken before it stays marked while its sheaves that were filled from it can be
read; where none was filled, its mark clears unless its own frame's sheaves have still to pass (R12, R260). -/
def State.bindClosed (s : State) (c : Class) (ch : Nat) : State :=
  let v := s.ingOf ch
  match v.prevPic with
  | none => s
  | some (x, b) =>
    let filled := (v.slots.get {} (slotOf c v.fr)).filled.any (·.2)
    s.markBuf x b fun m =>
      let own := v.slots.get {} (slotOf c (m.bind - 1))
      if m.bind = 0 then m
      else if filled then { m with bind := v.fr + 1 }
      else if own.fr1 = m.bind ∧ own.left ≠ 0 ∧ !own.given then m
      else { m with bind := 0 }

/-- Every expected row of a sheaf of the open frame is present (R167). -/
def State.sheafFull (s : State) (c : Class) (ch sh : Nat) : Bool :=
  let q := s.sessOf ch
  (expPlanes c q).all fun p => (sheafRows p q.h sh).all fun r => (s.ingOf ch).present (segsOf c) p r

/-- The frame's sheaves that have not closed, in ascending order. -/
def State.unclosed (s : State) (ch : Nat) : List Nat :=
  (List.range (sheavesOf (s.sessOf ch).h)).filter fun sh => !(s.ingOf ch).closed.get false sh

/-- Closes a sheaf of the open frame: by its due time, with its missing rows filled, or complete, with its sheaf-ready notice
sent at once. A scene-cut flag of the frame's sheaf 0 is a refresh request (R157, R167, R169, R170, R233). -/
def State.closeSheaf (s : State) (c : Class) (ch sh : Nat) (byDue : Bool) : State :=
  let (filled, hfill, s) := if byDue then s.fillSheaf c ch sh else (false, false, s)
  let v := s.ingOf ch
  let k := slotOf c v.fr
  let slot := v.slots.get {} k
  let slot := { slot with
    cut := if sh = 0 then v.cut else slot.cut
    filled := slot.filled.set false sh filled
    ready := if byDue then slot.ready else slot.ready.set false sh true }
  let v := { v with closed := v.closed.set false sh true, lastFilled := filled, slots := v.slots.set {} k slot }
  let s := s.setIng ch v
  let s := { s with ing := { s.ing with
    fill := if filled then s.ing.fill.upd 0 ch (cntAdd 1) else s.ing.fill
    hfill := if hfill then s.ing.hfill.upd 0 ch (cntAdd 1) else s.ing.hfill } }
  let s := if sh = 0 ∧ v.cut ∧ c.cod.cutRefresh then s.refreshReq ch true else s
  if (s.unclosed ch).isEmpty then
    (s.setIng ch { s.ingOf ch with isOpen := false, last1 := v.fr + 1, lastSess := (s.sessOf ch).id }).bindClosed c ch
  else s

/-- Closes a sheaf that has become complete (R167). -/
def State.settleSheaf (s : State) (c : Class) (ch sh : Nat) : State :=
  if (s.ingOf ch).isOpen && !(s.ingOf ch).closed.get false sh && s.sheafFull c ch sh then s.closeSheaf c ch sh false else s

/-! ### Transcode binding (R12, R260, R274, R275) -/

/-- Passes over waiting output pictures (R274). -/
def State.bindSkip (s : State) (x : Nat) (bufs : List Nat) : State :=
  (bufs.foldl (fun s b => s.markBuf x b fun m => { m with out := false }) s).dcxCount x 9 bufs.length

/-- A picture is CONCEALED: bit 0, 1, 2, 3 or 5 of FLAGS (R268, R272). -/
def concealed (flags : Nat) : Bool := bitsOf flags 0 4 != 0 || bitOf flags 5

/-- Rows of the cropped picture in a buffer that are final after in-loop filtering, of `h` (R274). -/
def State.finalRows (s : State) (x b h : Nat) : Nat :=
  match (s.dcxOf x).cur with
  | some p => if p.buf = b then min h (p.rows * p.set.blk - p.set.cropY) else h
  | none => h

/-- Sets the row bitmaps of the bound channel's open frame for the rows of its picture that are final (R12, R274). -/
def State.bindRows (s : State) (x b : Nat) : State :=
  match (s.dcxOf x).bindCh with
  | none => s
  | some ch =>
    match s.cls ch with
    | none => s
    | some c =>
      let v := s.ingOf ch
      if v.isOpen && (v.slots.get {} (slotOf c v.fr)).src == some (x, b) then
        let n := s.finalRows x b (s.sessOf ch).h
        let s := s.setIng ch ((fmtPlanes c).foldl (fun v p =>
          (List.range (n / planeDiv p)).foldl (fun v r => v.markRow (segsOf c) p r) v) v)
        (s.unclosed ch).foldl (fun s sh => s.settleSheaf c ch sh) s
      else s

/-- Carries a CONCEALED picture's flag into the statistics of the channel whose frame takes it (R12). -/
def State.noteConc (s : State) (ch x b flags : Nat) : State :=
  if concealed flags then
    let v := s.ingOf ch
    let s := s.setIng ch { v with slots := v.slots.remap {} fun _ k => if k.src = some (x, b) then { k with conc := true } else k }
    { s with ing := { s.ing with conc := s.ing.conc.upd 0 ch (cntAdd 1) } }
  else s

/-- The open frame of a bound channel takes a decoded picture; its rows that are final are present (R12, R274). -/
def State.takePic (s : State) (c : Class) (ch x b : Nat) : State :=
  let v := s.ingOf ch
  let k := slotOf c v.fr
  let s := s.setIng ch { v with slots := v.slots.set {} k { v.slots.get {} k with src := some (x, b) } }
  let s := s.markBuf x b fun m => { m with bind := v.fr + 1 }
  (s.setDcx x { s.dcxOf x with wants := false }).bindRows x b

/-- Offers the open frame of a bound channel the newest waiting picture; the older ones are passed over, and so is one of another
size, whose frame is filled (R274, R275). With none waiting the frame takes the next one. -/
def State.bindFrame (s : State) (c : Class) (ch x : Nat) : State :=
  let d := s.dcxOf x
  match d.waiting.reverse with
  | [] => s.setDcx x { d with wants := true }
  | (b, w, h, flags) :: older =>
    let s := (s.setDcx x { d with waiting := [] }).bindSkip x (older.map fun e => e.1)
    let q := s.sessOf ch
    if w = q.w ∧ h = q.h then
      ((s.markBuf x b fun m => { m with out := false }).takePic c ch x b).noteConc ch x b flags
    else s.bindSkip x [b]

/-- Every sheaf that reads the buffers taken up to frame `fr` has passed: their BIND marks clear, but for the buffer from which the
open frame's missing rows would be filled (R12, R169, R260). -/
def State.bindDone (s : State) (ch fr : Nat) : State :=
  let v := s.ingOf ch
  match (s.sessOf ch).bind with
  | none => s
  | some x => (List.range 32).foldl (fun s b => s.markBuf x b fun m =>
      if m.bind ≤ fr + 1 ∧ !(v.isOpen && v.prevPic == some (x, b)) then { m with bind := 0 } else m) s

/-! ### Frames open (R166, R494) -/

/-- A slot is free for the session now open in the channel (R166). -/
def slotFree (v : IngCh) (sess : Nat) (k : RingSlot) : Bool :=
  k.fr1 == 0 || k.sess != sess || ((k.left == 0 || k.given) && !(v.last1 == k.fr1 && v.lastSess == sess))

/-- Frame `fr` opens if its slot is free; otherwise it is skipped (R166). -/
def State.openFrame (s : State) (c : Class) (ch fr : Nat) : State :=
  let v := s.ingOf ch
  let q := s.sessOf ch
  let k := slotOf c fr
  if slotFree v q.id (v.slots.get {} k) then
    let slot : RingSlot := { fr1 := fr + 1, sess := q.id, left := sheavesOf q.h }
    let last := v.slots.get {} (slotOf c v.fr)
    let prev := if last.fr1 = v.fr + 1 ∧ last.sess = q.id then last.src.or v.prevPic else none
    let s := s.setIng ch { v with
      isOpen := true, fr := fr, cut := false, segs := [], closed := [], next := fr + 1, slots := v.slots.set {} k slot
      prevPic := prev }
    let s := { s with ing := { s.ing with rgb := s.ing.rgb.drop fun e => decide (e / 8192 = ch) } }
    match q.bind with
    | some x => s.bindFrame c ch x
    | none => s
  else ((s.setIng ch { v with isOpen := false, next := fr + 1 }).addSkipped ch 1).raise srcBacklog

/-- Closes the open frame's sheaves that have not closed, as at their due times, in ascending order (R494). -/
def State.closeRest (s : State) (c : Class) (ch : Nat) : State :=
  if (s.ingOf ch).isOpen then (s.unclosed ch).foldl (fun s sh => s.closeSheaf c ch sh true) s else s

/-- The due time of sheaf `sh` of frame `fr` arrives (R166, R167, R494). -/
def State.dueArrive (s : State) (ch fr sh : Nat) : State :=
  match s.cls ch with
  | none => s
  | some c =>
    let q := s.sessOf ch
    let v := s.ingOf ch
    if s.stopped 6 || !q.isOpen || !q.n0set || decide (fr + 1 < q.n0) || decide (sheavesOf q.h ≤ sh) then s
    else
      let s := if v.next ≤ fr ∧ q.n0 ≤ fr ∧ ¬ (v.skipFrom ≤ fr ∧ fr < v.skipTo) then (s.closeRest c ch).openFrame c ch fr else s
      let v := s.ingOf ch
      let s := if v.isOpen && v.fr == fr && !v.closed.get false sh then s.closeSheaf c ch sh true else s
      let v := s.ingOf ch
      let nf := fr + 1
      if sh + 1 = sheavesOf q.h ∧ v.next ≤ nf ∧ ¬ (v.skipFrom ≤ nf ∧ nf < v.skipTo) then
        (s.closeRest c ch).openFrame c ch nf
      else s

/-- The session's first frame, the first whose sheaf-0 due time lies after device time (at it, where `at_`): R125.
Assumption log 57, DEDUCED. -/
def State.firstFrame (s : State) (ch : Nat) (at_ : Bool) : Option Nat :=
  match s.cls ch with
  | none => none
  | some c =>
    let n := framesPerHp c.base.rate
    let hp := s.time.ptp / hpTime
    (range2 (n * hp) (n * (hp + 2) + 1)).find? fun fr =>
      match s.dueSlot ch fr 0 with
      | some d => if at_ then decide ((s.time.ptp : Int) ≤ d * slotTime) else decide ((s.time.ptp : Int) < d * slotTime)
      | none => false

/-- A session whose first frame is now known begins; the frame opens at once where the due time that opens it has passed
(R125, R166). Assumption log 57, DEDUCED. -/
def State.beginSession (s : State) (ch : Nat) (at_ : Bool) : State :=
  match s.cls ch, s.firstFrame ch at_ with
  | some c, some n0 =>
    let q := s.sessOf ch
    let s := s.setSess ch { q with n0 := n0, n0set := true }
    let s := s.setIng ch { s.ingOf ch with next := n0, skipFrom := 0, skipTo := 0 }
    let opened := match s.dueSlot ch (n0 - 1) (sheavesOf q.h - 1) with
      | some d => n0 = 0 || decide (d * slotTime ≤ (s.time.ptp : Int))
      | none => true
    if opened then s.openFrame c ch n0 else s
  | _, _ => s

/-! ### VFT packets (R159, R160) -/

/-- Position of a frame with hyperperiod `hp` (modulo `m`) and index `f` against frame `t` of the channel: 0 the same, 1 later,
2 earlier. -/
def cmpFrame (n m t hp f : Nat) : Nat :=
  let d := (hp + m - t / n % m) % m
  if d = 0 then (if f = t % n then 0 else if t % n < f then 1 else 2) else if d < m / 2 then 1 else 2

/-- Where a named frame and sheaf stand: `none` accepted, 7 EARLY, 8 LATE (R160 check 8, R164). While no frame is open the next frame to
open is EARLY, and so is every frame while the session's first is not known. Assumption log 106, DEDUCED. -/
def State.frameReason (s : State) (c : Class) (ch m hp f sh : Nat) : Option Nat :=
  let v := s.ingOf ch
  let n := framesPerHp c.base.rate
  if v.isOpen then
    match cmpFrame n m v.fr hp f with
    | 0 => if v.closed.get false sh then some 8 else none
    | 1 => some 7
    | _ => some 8
  else if !(s.sessOf ch).n0set then some 7
  else if cmpFrame n m v.next hp f = 2 then some 8 else some 7

/-- Fields of a VFT header (R159). -/
structure VftHdr where
  ch : Nat
  len : Nat
  hp : Nat
  f : Nat
  plane : Nat
  fmt : Nat
  cut : Bool
  seg : Nat
  row : Nat
  rows : Nat
  w : Nat
  h : Nat
  /-- the version, the type and every reserved field are as R160 check 1 asks -/
  ok : Bool
  deriving DecidableEq, Repr

def VftHdr.ofBytes (bs : List Byte) : VftHdr :=
  { ch := byteAt bs 1, len := beAt bs 2 2, hp := beAt bs 4 4 / 16, f := byteAt bs 7 % 16, plane := byteAt bs 8 / 16
    fmt := byteAt bs 8 % 16, cut := bitOf (byteAt bs 9) 7, seg := byteAt bs 9 % 8, row := beAt bs 10 2, rows := byteAt bs 12
    w := beAt bs 14 2, h := beAt bs 16 2
    ok := decide (32 ≤ bs.length) && byteAt bs 0 == 0x10 && bitsOf (byteAt bs 9) 3 4 == 0 && byteAt bs 13 == 0
      && beAt bs 18 14 == 0 }

/-- Rows from `row` on lie in the plane and in one sheaf (R160 check 7). -/
def rowsOk (plane h row rows : Nat) : Bool :=
  let u := 64 / planeDiv plane
  decide (1 ≤ rows ∧ rows ≤ 64 ∧ row + rows ≤ h / planeDiv plane ∧ row / u = (row + rows - 1) / u)

/-- The first check of R160 that a packet fails, by its ING_DROP_CNT index; none where all pass. HP is compared modulo 2^28 by half its
range, as a doorbell's is modulo 512 (R164). Assumption log 106, DEDUCED. -/
def State.vftReason (s : State) (p : VftPkt) : Option Nat :=
  let x := VftHdr.ofBytes p.bytes
  match s.cls p.ch with
  | none => some 0
  | some c =>
    let q := s.sessOf p.ch
    if !x.ok || decide (framesPerHp c.base.rate ≤ x.f) then some 0
    else if x.ch ≠ p.ch then some 1
    else if !q.isOpen then some 2
    else if !c.base.pathVft || q.bind.isSome then some 3
    else if x.fmt ≠ c.base.pixFmt ∨ !(fmtPlanes c ++ [3]).contains x.plane then some 4
    else if x.plane = 3 ∧ !hintOn c q then some 5
    else if x.w ≠ q.w ∨ x.h ≠ q.h ∨ segsOf c ≤ x.seg ∨ !rowsOk x.plane q.h x.row x.rows
        ∨ (x.plane = 2 ∧ (x.row % 2 = 1 ∨ x.rows % 2 = 1)) ∨ x.len ≠ 32 + x.rows * (rowBytes c x.plane q.w / segsOf c) then
      some 6
    else s.frameReason c p.ch (2 ^ 28) x.hp x.f (x.row / (64 / planeDiv x.plane))

/-- Pixels of a row of the open frame that have arrived in RGBX, kept until the blocks that straddle two segments have both (R155). -/
def State.rgbRow (s : State) (ch row : Nat) : List Byte := s.ing.rgb.get [] (8192 * ch + row)

/-- Keeps the pixels of a segment of an RGBX row of a picture of width `w`; a pixel that has not arrived stands as black. -/
def State.rgbKeep (s : State) (ch row col w : Nat) (bs : List Byte) : State :=
  let old := s.rgbRow ch row
  let old := old ++ List.replicate (4 * w - old.length) 0
  { s with ing := { s.ing with rgb := s.ing.rgb.set [] (8192 * ch + row) (splice old (4 * col) bs) } }

/-- Writes one row segment, or an RGBX row pair's segment, of the open frame (R155, R160). -/
def State.writeSeg (s : State) (c : Class) (ch plane row seg : Nat) (bs next : List Byte) : State :=
  let v := s.ingOf ch
  let q := s.sessOf ch
  let k := slotOf c v.fr
  let col := seg * (q.w / segsOf c)
  match plane with
  | 2 =>
    let s := (s.rgbKeep ch row col q.w bs).rgbKeep ch (row + 1) col q.w next
    let ys := rgbLumaRow c bs
    let i0 := col / 2
    let i1 := (col + q.w / segsOf c + 1) / 2
    let cs := if row % 2 = 0 then rgbChromaRow c (s.rgbRow ch row) (s.rgbRow ch (row + 1)) i0 i1 else []
    let n := s.free
    let s := { s with free := n + ys.length + cs.length }
    let s := s.ringWrite c ch k 0 row col (nearCodes n ys)
    if row % 2 = 0 then s.ringWrite c ch k 1 (row / 2) (2 * i0) (nearCodes (n + ys.length) cs) else s
  | 3 => s.ringWrite c ch k 3 row col (bs.map BitVec.toNat)
  | p => s.ringWrite c ch k p row col (samplesOf c bs)

/-- The packet is accepted: its rows are converted and written, its segment bits set, its scene-cut bit honoured on sheaf 0,
and the sheaf closes if it is complete (R157, R160, R161, R167). -/
def State.vftAccept (s : State) (p : VftPkt) : State :=
  let x := VftHdr.ofBytes p.bytes
  match s.cls p.ch with
  | none => s
  | some c =>
    let n := rowBytes c x.plane x.w / segsOf c
    let pay := p.bytes.drop 32
    let s := (List.range x.rows).foldl (fun s i =>
      s.writeSeg c p.ch x.plane (x.row + i) x.seg (slice pay (i * n) n) (slice pay ((i + 1) * n) n)) s
    let v := s.ingOf p.ch
    let sh := x.row / (64 / planeDiv x.plane)
    let s := s.setIng p.ch { v with
      segs := (List.range x.rows).foldl (fun t i => t.set false (segKey x.plane (x.row + i) x.seg) true) v.segs
      cut := v.cut || (c.base.cut && x.cut && sh == 0) }
    s.settleSheaf c p.ch sh

/-- The ingress unit runs: its island's clock is not stopped and the data path is not stopped (R18, R444, R476). -/
def State.ingRuns (s : State) : Bool := s.glb.st == .run && !s.stopped 6

/-! ### The aperture (R162, R163) -/

/-- Row pitch of a plane in a window (R162). -/
def aptPitch (c : Class) (plane : Nat) : Nat := ceilDiv (rowBytes c plane c.base.maxW) 256 * 256
def aptRows (c : Class) (plane : Nat) : Nat := c.base.maxH / planeDiv plane
/-- Planes of a window with their offsets: each starts at the next 4 KiB boundary after the one before (R162). -/
def aptPlanes (c : Class) : List (Nat × Nat) :=
  let go (a : List (Nat × Nat) × Nat) (p : Nat) : List (Nat × Nat) × Nat :=
    (a.1 ++ [(p, a.2)], ceilDiv (a.2 + aptPitch c p * aptRows c p) 4096 * 4096)
  ((fmtPlanes c ++ if c.base.hint then [3] else []).foldl go ([], 0)).1
/-- Size of a window in units of 2 MiB (R162). -/
def aptSize (c : Class) : Nat :=
  match (aptPlanes c).getLast? with
  | none => 0
  | some (p, off) => ceilDiv (off + aptPitch c p * aptRows c p) (2 * 1048576)

/-- Channel, plane, row and byte of the row at an aperture offset; none outside every window, in a pitch's padding, and in a window's
places that no plane holds. Assumption log 106, DEDUCED. -/
def State.aptAt (s : State) (off : Nat) : Option (Nat × Nat × Nat × Nat) :=
  s.ing.apt.findSome? fun (ch, w) =>
    match w, s.cls ch with
    | some (base, size), some c =>
      let lo := 4096 * base
      if lo ≤ off ∧ off < lo + 2097152 * size then
        (aptPlanes c).findSome? fun (p, at_) =>
          let r := (off - lo - at_) / aptPitch c p
          let x := (off - lo - at_) % aptPitch c p
          if at_ ≤ off - lo ∧ r < aptRows c p ∧ x < rowBytes c p c.base.maxW then some (ch, p, r, x) else none
      else none
    | _, _ => none

/-- The first case of R163 that discards the 8-byte group at `off`, in the rule's order: 0 APT_BAD, 1 APT_CLOSED, 2 LATE,
3 MISDIRECTED; none where it is written. -/
def State.aptReason (s : State) (off lo hi : Nat) : Option Nat :=
  if off < lo ∨ hi < off + 8 then some 0
  else
    match s.aptAt off with
    | none => some 0
    | some (ch, p, r, _) =>
      let v := s.ingOf ch
      let q := s.sessOf ch
      if !q.isOpen || !v.isOpen then some 1
      else if v.closed.get false (r / (64 / planeDiv p)) then some 2
      else if q.bind.isSome || (match s.cls ch with | some c => !c.base.pathPcie | none => true) then some 3
      else none

/-- Writes one 8-byte group. -/
def State.aptWrite (s : State) (off : Nat) (bs : List Byte) : State :=
  match s.aptAt off with
  | none => s
  | some (ch, p, r, x) =>
    match s.cls ch with
    | none => s
    | some c =>
      let k := slotOf c (s.ingOf ch).fr
      if p = 3 then s.ringWrite c ch k 3 r x (bs.map BitVec.toNat)
      else s.ringWrite c ch k p r (if c.base.pixFmt = 1 then x / 2 else x) (samplesOf c bs)

/-- ING_DROP_CNT index of a case of R163 (R177). -/
def aptDrop : Nat → Nat
  | 0 => 0xB | 1 => 0xC | 2 => 8 | _ => 3

/-- The TLP at the head of FIFO 2, where the ingress unit runs. -/
def State.aptHead (s : State) : Option (Nat × List Byte) :=
  match s.ing.q2 with
  | .tlp off bs :: _ => if s.ingRuns then some (off, bs) else none
  | _ => none

/-- The head TLP leaves FIFO 2 (R172, R387). -/
def State.aptPop (s : State) (bs : List Byte) : State :=
  { s with ing := { s.ing with q2 := s.ing.q2.drop 1 } }.lastPop 2 (padWords bs)

/-- A TLP that left FIFO 2: each 8-byte group that no case discards is written, and a TLP with a discarded group is counted once,
under the first case that any of its groups met (R163). Assumption log 74, DEDUCED. -/
def State.aptTake (s : State) (off : Nat) (bs : List Byte) : State :=
  let hi := off + bs.length
  let groups := (range2 (off / 8) (ceilDiv hi 8)).map (8 * ·)
  let why := groups.filterMap fun g => s.aptReason g off hi
  let s := groups.foldl (fun s g => if (s.aptReason g off hi).isNone then s.aptWrite g (slice bs (g - off) 8) else s) s
  match minBy id why with
  | some r => s.ingDrop (aptDrop r)
  | none => s

/-- APERTURE_WRITE: the TLP at the head of FIFO 2 leaves it and is judged (R163). -/
def execApertureWrite (s : State) : Res :=
  .next (match s.aptHead with
    | some (off, bs) => ((s.aptPop bs).fifoEval 2).aptTake off bs
    | none => s)

/-- End of the ingress aperture in BAR4 (R162). -/
def aptTop : Nat := 0x400000000

/-- A write TLP enters FIFO 2, with an item notice, where it fits (R172, R388). -/
def State.aptArrive (s : State) (off : Nat) (bytes : List Byte) : State :=
  if s.fifoFill 2 + fifoWords bytes.length ≤ 16384 then
    let s := { s with
      ing := { s.ing with q2 := s.ing.q2 ++ [AptItem.tlp off bytes] }
      chip := { s.chip with notices := if bytes.isEmpty then [] else [2] } }
    if 255 < s.fifoItems 2 then s.setFifo 2 { s.fifo 2 with itemsSat := true } else s
  else s

/-- APERTURE_TLP_ARRIVAL: a write TLP to the aperture enters FIFO 2; where it does not fit, flow-control credits keep it with
its sender (R172, R173, R409). A read of `rd` bytes completes with all-zero data (R163); with master 0xC4 frozen, or before the
firewall's lock, it completes with a Completer Abort, and a write is discarded (R103, R105). Either arrives only while the function decodes BAR4. With `pop` the ingress unit takes the head TLP in the same cycle (R390, R393).
Assumption log 74, DEDUCED. -/
def execApertureTlpArrival (off rd : Nat) (s : State) (bytes : List Byte := []) (pop : Bool := false) : Res :=
  .next (if !s.hostBar 4 || decide (aptTop < off + max rd bytes.length) then s.unreached 4
    else if rd ≠ 0 then
      { s with outs := { s.outs with bar4 := if s.isFrozen 0xC4 || !s.fab.lock then none else some (List.replicate rd 0) } }
    else if !s.isFrozen 0xC4 && s.fab.lock && s.ingRuns then
      match if pop then s.aptHead else none with
      | some (o, bs) => (((s.aptPop bs).aptArrive off bytes).fifoEval 2).aptTake o bs
      | none => (s.aptArrive off bytes).fifoEval 2
    else s)

/-! ### Doorbells (R164, R175) -/

/-- A doorbell queues behind the aperture writes before it (R164). -/
def State.queueDb (s : State) (w : Word) : State := { s with ing := { s.ing with q2 := s.ing.q2 ++ [AptItem.db w] } }

/-- ING_DB: a write to ING_DB (R164, R175); its island must run (R477). -/
def execIngDb (w : Word) (s : State) : Res := .next (if !s.awake || s.stopped 6 then s else s.queueDb w)

/-- The first reason of R164 under which a doorbell is discarded. -/
def State.dbReason (s : State) (w : Nat) : Option Nat :=
  let ch := bitsOf w 0 8
  let f := bitsOf w 19 4
  let sh := bitsOf w 8 7
  match s.cls ch with
  | none => some 0xA
  | some c =>
    let q := s.sessOf ch
    let yuv := bitOf w 15 || bitOf w 16
    if framesPerHp c.base.rate ≤ f ∨ bitsOf w 15 3 = 0 ∨ (yuv ∧ 2 ≤ c.base.pixFmt)
        ∨ sheavesOf (if q.isOpen then q.h else c.base.maxH) ≤ sh then some 0xA
    else if !q.isOpen then some 2
    else if q.bind.isSome ∨ !c.base.pathPcie then some 3
    else s.frameReason c ch 512 (bitsOf w 23 9) f sh

/-- The planes that a doorbell names and that are in effect (R164). -/
def dbPlanes (w : Nat) (hint : Bool) : List Nat :=
  (if bitOf w 15 then [0] else []) ++ (if bitOf w 16 then [1] else []) ++ (if bitOf w 17 && hint then [3] else [])

/-- A doorbell takes effect (R157, R164, R167). -/
def State.dbAccept (s : State) (w : Nat) : State :=
  let ch := bitsOf w 0 8
  let sh := bitsOf w 8 7
  match s.cls ch with
  | none => s
  | some c =>
    let q := s.sessOf ch
    let v := (dbPlanes w (hintOn c q)).foldl (fun v p =>
      (sheafRows p q.h sh).foldl (fun v r => v.markRow (segsOf c) p r) v) (s.ingOf ch)
    let s := s.setIng ch { v with cut := v.cut || (c.base.cut && bitOf w 18 && sh == 0) }
    s.settleSheaf c ch sh

/-! ### Due times, notices, PFC -/

/-- Global frame number of frame `f` of hyperperiod `hp` (R159). -/
def State.frameNo (s : State) (ch hp f : Nat) : Nat :=
  match s.cls ch with
  | none => 0
  | some c => hp * framesPerHp c.base.rate + f

/-- The fill of a sheaf that closed by its due time completes, and its sheaf-ready notice is sent (R167, R171). -/
def State.noteReady (s : State) (c : Class) (ch frame sheaf : Nat) : State :=
  let v := s.ingOf ch
  let k := slotOf c frame
  let slot := v.slots.get {} k
  let closed := (decide (v.fr ≠ frame) || v.closed.get false sheaf) && decide (sheaf < sheavesOf (s.sessOf ch).h)
  if slot.fr1 = frame + 1 ∧ closed then
    s.setIng ch { v with slots := v.slots.set {} k { slot with ready := slot.ready.set false sheaf true } }
  else s

/-- PFC_REPEAT: 40 µs after the last, a port repeats its pause frame while its ingress FIFO is asserted, or, in SAFE, for all
eight priorities (R173, R444). -/
def execPfcRepeat (port : Nat) (s : State) : Res :=
  .next (match s.glb.st with
    | .safe => s.sendPfc port 0xFF 0xFFFF
    | .run => if s.ing.asserted.get false port then s.sendPfc port (2 ^ s.img.net.vftPrio) 0xFFFF else s
    | _ => s)

end Sys2Proof.Machine
end

