-- ==== Sys2Proof/Machine/RateControl.lean ====
section
/-!
DEFINITION. Rate control, gradual refresh, layers and seed marks: what is decided at the start of a run, and the reference set
(R216 to R241, R260 to R262).
-/

namespace Sys2Proof.Machine

/-! ### Layers and columns (R181, R225, R226) -/

/-- Layer period P (R225). -/
def layerPeriod (c : Class) : Nat :=
  match c.base.layers with
  | 2 => 2 | 3 => 4 | _ => 1

/-- Layer of the picture with `g` frames since the session's first (R225). -/
def layerOf (c : Class) (g : Nat) : Nat :=
  match c.base.layers with
  | 2 => g % 2
  | 3 => if g % 4 = 0 then 0 else if g % 4 = 2 then 1 else 2
  | _ => 0

/-- First CTB column and number of CTB columns of a part (R181, R226). -/
def partCols (c : Class) (w p : Nat) : Nat × Nat :=
  let wc := ceilDiv w 64
  if c.base.lanes = 2 then (if p = 0 then (0, ceilDiv wc 2) else (ceilDiv wc 2, wc - ceilDiv wc 2)) else (0, wc)

/-- Left and right edge of a part in luma columns (R226). -/
def partLeft (c : Class) (w p : Nat) : Nat := 64 * (partCols c w p).1
def partRight (c : Class) (w p : Nat) : Nat := min (64 * ((partCols c w p).1 + (partCols c w p).2)) w

/-- Pixels of a sheaf of a part (R117, R218). -/
def sheafPix (c : Class) (w h p sh : Nat) : Nat := (partRight c w p - partLeft c w p) * min 64 (h - 64 * sh)

/-- T0 pictures from one scheduled cycle start to the next: M (R226). -/
def cycleLen (c : Class) : Nat := c.cod.refreshN / layerPeriod c

/-- Target boundary X*(j) of a part (R226). -/
def xStar (c : Class) (w p j : Nat) : Nat :=
  let (a, k) := partCols c w p
  min (64 * (a + (j + 1) * k / cycleLen c)) (partRight c w p)

/-- Key of a sheaf band of a part. -/
def bandKey (p sh : Nat) : Nat := 128 * p + sh

/-- Every boundary of the session's picture has reached its part's right edge (R227). -/
def Rc.swept (v : Rc) (c : Class) (q : Sess) : Bool :=
  (partsOf c).all fun p => (List.range (sheavesOf q.h)).all fun sh => decide (partRight c q.w p ≤ (v.part p).xs.get 0 sh)

/-- Changes a part's state record: the copy that is not in force is written, and the selector flips (R210). -/
def Rc.setRec (v : Rc) (p : Nat) (r : ChanRec) : Rc := { v with recs := v.recs.upd {} p fun k => k.commit r }

/-- Every boundary at its part's left edge (R226). -/
def Rc.xsStart (v : Rc) (c : Class) (q : Sess) : Rc :=
  (partsOf c).foldl (fun v p => v.setRec p { v.part p with
    xs := (List.range (sheavesOf q.h)).foldl (fun t sh => t.set 0 sh (partLeft c q.w p)) [] }) v

/-- The boundaries of every part: key 128 × part + sheaf. -/
def Rc.xsAll (v : Rc) (c : Class) (q : Sess) : Tbl Nat :=
  (partsOf c).foldl (fun t p => (List.range (sheavesOf q.h)).foldl (fun t sh => t.set 0 (bandKey p sh) ((v.part p).xs.get 0 sh)) t) []

/-! ### Targets (R223) -/

/-- Effective target e in kbit/s (R223). -/
def effTarget (c : Class) (v : Rc) : Nat :=
  min (max (match v.fb with | some f => min v.host f | none => v.host) c.cod.minK) c.cod.peak

/-! ### The pool of frame buffers (R260 to R262) -/

/-- Buffers of the channel's pool (R262). -/
def encPool (c : Class) : Nat :=
  if c.cod.ackRef then 3 + c.cod.ackDepth else if c.base.layers = 3 then 3 else 2

/-- Pool of a part: its buffers' marks. -/
def Rc.poolOf (v : Rc) (p : Nat) : Tbl Marks := (v.pool.filter fun e => e.1 / 8 == p).map fun e => (e.1 % 8, e.2)

/-- A picture starts reconstruction in the lowest free buffer of each part's pool, with mark CUR (R209, R260 to R262). -/
def Rc.takeBuf (v : Rc) (c : Class) (fr : Nat) : Rc :=
  (partsOf c).foldl (fun v p =>
    match freeBuf (v.poolOf p) (encPool c) with
    | some b => { v with pool := v.pool.set {} (8 * p + b) { cur := true, pic1 := fr + 1 } }
    | none => v) v

/-- Buffer of a part that holds the picture of frame `fr1` - 1. -/
def Rc.bufOf (v : Rc) (p fr1 : Nat) : Option Nat := (v.pool.find? fun e => e.1 / 8 == p && e.2.pic1 == fr1).map fun e => e.1 % 8

/-- A picture has passed: its buffers' CUR clears, and REF, HIST and the history follow R225, R239 and R241. A T0 picture
replaces every earlier reference; a T1 picture of L1T3 replaces the earlier T1. The record of the picture joins those of the pool
(R209, R237), with the boundaries of its reference where it refreshes nothing (R228). -/
def Rc.picturePassed (v : Rc) (c : Class) (q : Sess) (fr layer : Nat) : Rc :=
  let isRef := layer = 0 ∨ (layer = 1 ∧ c.base.layers = 3)
  let refs := if layer = 0 then (v.refs.set 0 0 (fr + 1)).set 0 1 0 else if isRef then v.refs.set 0 1 (fr + 1) else v.refs
  let hist := if c.cod.ackRef then (fr :: v.hist).take c.cod.ackDepth else []
  let pool := v.pool.remap {} fun _ m =>
    { m with
      cur := m.cur && m.pic1 != fr + 1
      ref := refs.get 0 0 == m.pic1 || refs.get 0 1 == m.pic1
      hist := hist.contains (m.pic1 - 1) }
  let pool := pool.remap {} fun _ m => if m.free then {} else m
  let xs := if layer = 0 then v.xsAll c q
    else match v.pics.find? fun p => p.fr1 == v.dec.ref1 with
      | some p => p.xs
      | none => []
  let pics := ({ v.curPic with xs := xs } :: v.pics).filter fun p => pool.any fun e => e.2.pic1 == p.fr1
  let slots := match v.dec.refresh with
    | 0 => v.slots
    | _ => (List.range 8).foldl (fun t k => if bitOf v.dec.refresh k then t.set 0 k (fr + 1) else t) v.slots
  { v with refs := refs, hist := hist, pool := pool, pics := pics, slots := slots }

/-- The picture of frame `fr` becomes the pinned one (R240). -/
def Rc.pinPicture (v : Rc) (fr : Nat) : Rc :=
  { v with
    pinned := some fr
    pool := v.pool.remap {} fun _ m => let m := { m with pin := m.pic1 == fr + 1 }; if m.free then {} else m }

/-- The session closes: its picture is pinned no more (R260). -/
def Rc.unpin (v : Rc) : Rc :=
  { v with pool := v.pool.remap {} fun _ m => let m := { m with pin := false }; if m.free then {} else m }

/-! ### Decisions of a frame (R223, R225, R227, R231, R233, R240) -/

/-- The frame's scene-cut flag as its sheaf 0 closed (R157). -/
def State.frameCut (s : State) (c : Class) (ch fr : Nat) : Bool :=
  let k := (s.ingOf ch).slots.get {} (slotOf c fr)
  k.fr1 == fr + 1 && k.cut

/-- Slots that an AV1 picture refreshes: slot 0 for T0, slot 1 for T1 of L1T3, none for others; with ACK_REF the next of slots 0 to
ACK_DEPTH in rotation that does not hold the pinned picture (R225, R241). -/
def refreshSlot (c : Class) (v : Rc) (layer : Nat) : Option Nat :=
  if c.cod.ackRef then
    let n := c.cod.ackDepth + 1
    let from_ := match v.slot with
      | some k => k + 1
      | none => 0
    ((List.range n).map fun i => (from_ + i) % n).find? fun k => match v.pinned with
      | some f => v.slots.get 0 k != f + 1
      | none => true
  else if layer = 0 then some 0
  else if layer = 1 ∧ c.base.layers = 3 then some 1
  else none

/-- What is decided for a frame at the run that executes its sheaf 0: the effective target, the layer, whether the picture is a
cycle start, why, or whether one is postponed, whether it is a recovery picture, its reference with its distance, and how its
stream names both. Assumption log 55, DEDUCED. -/
def frameDecision (c : Class) (q : Sess) (v : Rc) (fr : Nat) (cut : Bool) : FrDec :=
  let g := fr - q.n0
  let layer := layerOf c g
  let recov := decide (0 < v.reqRec) && v.pinned.isSome
  let asked := decide (0 < v.reqNow) || (decide (0 < v.reqHold) && decide (c.cod.refreshHold ≤ g - v.cycG))
  let due := v.cyc && decide (cycleLen c ≤ v.j + 1)
  let sched := due && v.swept c q
  let t0 := layer = 0
  let cycle := t0 && (q.grey || !v.cyc || sched || asked)
  let ref1 := if recov then (match v.pinned with | some f => f + 1 | none => 0)
    else if q.grey then 0 else if layer = 0 then v.refs.get 0 0
    else if layer = 2 ∧ v.refs.get 0 1 ≠ 0 then v.refs.get 0 1 else v.refs.get 0 0
  let refPoc := match v.pics.find? fun p => p.fr1 == ref1 && ref1 != 0 with
    | some p => p.poc
    | none => 0
  { fr := fr, set := true, e := effTarget c v, layer := layer, cut := cut, cycle := cycle, recov := recov
    restart := cycle && !q.grey && v.cyc && !sched
    postp := t0 && due && !cycle
    j := if cycle then 0 else if t0 then v.j + 1 else v.j
    cycSeq := if cycle && v.cyc then (v.cycSeq + 1) % 256 else v.cycSeq
    ref1 := ref1
    grey := cycle, idr := q.grey
    dist := if ref1 = 0 then 1 else fr + 1 - ref1
    poc := (if q.grey then 0 else v.dec.poc) + 1
    refPoc := refPoc
    refSlot := if ref1 = 0 then 0 else ((List.range 8).find? fun k => v.slots.get 0 k == ref1).getD 0
    refresh := match refreshSlot c v layer with
      | some k => 2 ^ k
      | none => 0
    nHold := if cycle then v.reqHold else 0
    nNow := if cycle then v.reqNow else 0
    nRec := if recov then v.reqRec else 0 }

/-- The decision takes effect: the requests that it has seen are discharged, the cycle's boundaries are set back at its start, and
the picture takes a buffer (R226, R227, R233, R240, R246). Assumption log 55, DEDUCED. -/
def Rc.applyDecision (v : Rc) (c : Class) (q : Sess) (d : FrDec) : Rc :=
  let v := { v with
    dec := d, eff := d.e, lastG := d.fr - q.n0
    reqRec := v.reqRec - d.nRec, reqHold := v.reqHold - d.nHold, reqNow := v.reqNow - d.nNow
    held := v.held && decide (0 < v.reqHold - d.nHold)
    curPic := { fr1 := d.fr + 1, poc := d.poc }
    slot := (List.range 8).foldl (fun k i => if d.refresh == 2 ^ i then some i else k) v.slot
    slots := if d.idr then [] else v.slots }
  let v := if d.cycle then
      ({ v with
        cyc := true, cycG := d.fr - q.n0, postp := false } : Rc).xsStart c q
    else { v with postp := v.postp || d.postp }
  ({ v with xs0 := v.xsAll c q, j := d.j, cycSeq := d.cycSeq } : Rc).takeBuf c d.fr

/-- The frame's decisions have taken effect: its first run of sheaf 0 has been committed (R210). -/
def Rc.decided (v : Rc) (fr : Nat) : Bool := v.dec.set && v.dec.fr == fr

/-- The decisions of a frame: those committed; otherwise those with which the other part's run of it is being executed; otherwise they
are taken now (R191, R210, R223). Assumption log 55, DEDUCED. -/
def State.frameDec (s : State) (c : Class) (ch fr : Nat) : FrDec :=
  let v := s.rcOf ch
  if v.decided fr then v.dec
  else
    match laneNums.findSome? fun l => (s.lane l).run.bind fun r =>
        if r.kind ≠ 2 ∧ r.ch = ch ∧ r.fr = fr ∧ r.own.id = (s.sessOf ch).id then some r.dec else none with
    | some d => d
    | none => frameDecision c (s.sessOf ch) v fr (s.frameCut c ch fr)

/-! ### The ledger (R217 to R222) -/

/-- Content class of a sheaf (R218). -/
def contentClass (m : RcModel) (v : Rc) (p sh : Nat) : Nat :=
  match (v.part p).act.get 0 sh with
  | 0 => m.dflt
  | a + 1 => (m.thresh.filter fun t => decide (t ≤ a)).length

/-- BPK of a content class and index (R217, R218). -/
def bpkOf (m : RcModel) (cut : Bool) (cls q : Nat) : Nat :=
  match m.bpk[64 * cls + q]? with
  | some (i, k, _) => if cut then k else i
  | none => 0

/-- Opens the ledger of a part for a frame (R219); each part of a two-lane channel has half of every rate. -/
def openLedger (c : Class) (e : Nat) (cut : Bool) (old : Ledger) : Ledger :=
  let rate := (if c.cod.mode = 0 then e * 1000 else c.cod.peak * 1000) / c.base.lanes
  let fps := fpsOf c.base.rate
  let rIn := rate / fps
  let repay := min old.debt (rIn / 2)
  let left := rIn - repay + (if cut then rIn else 0)
  { old with
    debt := old.debt - repay + (if cut then rIn else 0)
    left := left, slack := rIn / 8
    goal := if c.cod.mode = 0 then left else (e * 1000 / c.base.lanes / fps : Nat) }

/-- Kind of a sheaf (R219, R222). -/
def sheafKind (l : Ledger) : SheafKind :=
  if 0 < l.left then .normal else if -(l.slack : Int) < l.left then .lean else .allSkip

/-- Expected bits × 1,024 of the sheaves from `sh` to the last at q_mid (R219). -/
def restBits (c : Class) (q : Sess) (m : RcModel) (v : Rc) (cut : Bool) (p sh : Nat) : Nat :=
  let mid := (c.cod.qpMin + c.cod.qpMax) / 2
  ((range2 sh (sheavesOf q.h)).map fun t => bpkOf m cut (contentClass m v p t) mid * sheafPix c q.w q.h p t).sum

/-- q of a NORMAL sheaf for a given share: the lowest index whose expected bits do not exceed it (R219). -/
def pickQ (c : Class) (q : Sess) (m : RcModel) (v : Rc) (cut : Bool) (p sh : Nat) (share : Int) : Nat :=
  ((range2 c.cod.qpMin (c.cod.qpMax + 1)).find? fun i =>
    decide (((bpkOf m cut (contentClass m v p sh) i * sheafPix c q.w q.h p sh : Nat) : Int) ≤ share * 1024)).getD c.cod.qpMax

/-- q of a sheaf (R219, R220). Where the expected bits of every sheaf left are 0, the share is a free value. -/
def sheafQ (c : Class) (q : Sess) (m : RcModel) (v : Rc) (p sh : Nat) (l : Ledger) : Nat :=
  match sheafKind l with
  | .normal =>
    if c.cod.mode = 2 then c.cod.cqQp
    else
      let mid := (c.cod.qpMin + c.cod.qpMax) / 2
      let cut := v.dec.cut
      let total := restBits c q m v cut p sh
      if total = 0 then pickQ c q m v cut p sh (Config.freeShare q.id v.dec.fr p sh).toNat
      else
        let own : Nat := bpkOf m cut (contentClass m v p sh) mid * sheafPix c q.w q.h p sh
        pickQ c q m v cut p sh (l.goal * own / total)
  | _ => c.cod.qpMax

/-- λ of a sheaf with 16 fractional bits: LAMBDA of its content class at its q, in a LEAN sheaf at min(QP_MAX + 12, 63) (R196, R217,
R220). -/
def sheafLambda (c : Class) (m : RcModel) (cls q : Nat) (k : SheafKind) : Nat :=
  match m.bpk[64 * cls + (if k = .lean then min (c.cod.qpMax + 12) 63 else q)]? with
  | some (_, _, lam) => lam
  | none => 0

/-! ### Seed marks (R234, R235, R238) -/

/-- The picture is marked (R234). -/
def pictureMarked (c : Class) (q : Sess) (d : FrDec) : Bool :=
  c.cod.mark && !q.fenic && d.layer == 0 && (d.fr - q.n0) / layerPeriod c % c.cod.markEvery == 0

/-- A CTB column lies in the refresh column of sheaf `sh`, in the part that holds it (R226, R235). -/
def inRefresh (c : Class) (q : Sess) (v : Rc) (sh col : Nat) : Bool :=
  (partsOf c).any fun p => decide (v.xs0.get 0 (bandKey p sh) ≤ 64 * col ∧ 64 * col < xStar c q.w p v.dec.j)

/-- CTB column of the block chosen for marking in a sheaf (R235). -/
def markColumn (c : Class) (q : Sess) (v : Rc) (sh : Nat) : Option Nat :=
  let cand := (range2 1 (q.w / 64 - 1)).filter fun col => !inRefresh c q v sh col
  let h := (crc32c (beBytes 8 q.seed ++ beBytes 4 v.dec.fr ++ beBytes 4 sh)).toNat
  cand[h % cand.length]?

/-- The column, where part `p` of a sheaf carries the marked block (R234, R235). -/
def partMark (c : Class) (q : Sess) (v : Rc) (p sh : Nat) (k : SheafKind) : Option Nat :=
  if pictureMarked c q v.dec ∧ 64 * sh + 64 ≤ q.h ∧ k ≠ .allSkip then
    (markColumn c q v sh).filter fun col =>
      decide ((partCols c q.w p).1 ≤ col ∧ col < (partCols c q.w p).1 + (partCols c q.w p).2)
  else none

/-! ### A run starts -/

/-- Rate control's inputs at the start of a run of sheaf `sh` of a frame: the channel state, with the frame's decisions in effect
(R191, R210). -/
def State.rcAt (s : State) (c : Class) (ch fr : Nat) : Rc :=
  let v := s.rcOf ch
  if v.decided fr then v else v.applyDecision c (s.sessOf ch) (s.frameDec c ch fr)

/-- Everything that rate control decides at the start of a run of sheaf `x` of a channel part on core `k`; nothing of it is
committed (R191, R210, R219 to R235). -/
def State.planRun (s : State) (c : Class) (k ch p kind : Nat) (x : ShId) : Run :=
  let v := s.rcAt c ch x.fr
  let q := s.sessOf ch
  let m := (s.img.models[c.cod.modelSet]?).getD { thresh := [], dflt := 0, bpk := [] }
  let l := (v.part p).led
  let l := if x.sh = 0 then openLedger c v.dec.e v.dec.cut l else l
  let kd := sheafKind l
  let qv := sheafQ c q m v p x.sh l
  let cls := contentClass m v p x.sh
  let xs := (v.part p).xs.get 0 x.sh
  { kind := kind, core := k, ch := ch, part := p, fr := x.fr, sh := x.sh, own := q, dec := v.dec, skind := kd, q := qv
    lam := sheafLambda c m cls qv kd, cls := cls, opens := decide (x.sh = 0), led := l
    refresh := if v.dec.layer = 0 ∧ kd ≠ .allSkip then some (xs, max xs (xStar c q.w p v.dec.j)) else none
    mark := partMark c q v p x.sh kd }

/-! ### Commit (R210, R219, R221, R226, R245, R248) -/

/-- The ledger after a sheaf of `bits` bits, the last of its part or not (R219); debt saturates (R221). -/
def Ledger.spend (l : Ledger) (r : Run) (bits : Nat) (last : Bool) : Ledger × Bool :=
  let left := l.left - bits
  let debt := if last ∧ left < 0 then l.debt + left.natAbs else l.debt
  ({ l with
     left := left, goal := l.goal - bits, debt := min debt (2 ^ 32 - 1)
     lastQ := r.q, lastKind := r.skind, lastClass := r.cls }, decide (2 ^ 32 - 1 < debt))

/-- Bits that the ledger charges a sheaf: those of its unit, of the larger variant where it is marked (R219, R236). -/
def Coded.bits (o : Coded) : Nat := 8 * max o.a.2.length (match o.b with | some u => u.2.length | none => 0)

/-- The channel state of a passed sheaf is committed: the frame's decisions with its sheaf 0, then the part's record (position, ledger,
activity, boundary, mark, filter carry, motion field, entropy snapshot) in the copy that was not in force, and the picture's
marked blocks and motion field (R209, R210, R218, R219, R226, R237, R246). -/
def Rc.commit (v : Rc) (c : Class) (q : Sess) (r : Run) (o : Coded) : Rc :=
  let v := if v.decided r.fr then v else v.applyDecision c q r.dec
  let (l, sat) := r.led.spend r o.bits (r.sh + 1 == sheavesOf q.h)
  let k := v.part r.part
  let new := { k with
    fr1 := r.fr + 1, sh := r.sh, led := l, act := k.act.set 0 r.sh (o.activity + 1)
    xs := match r.refresh with
      | some (_, x) => k.xs.set 0 r.sh x
      | none => k.xs
    markBit := if o.b.isSome then (r.fr + r.sh) % 32 else k.markBit
    markSh := if o.b.isSome then r.sh else k.markSh
    carryY := o.carryY, carryC := o.carryC, filt := o.filt
    mv := o.mv.foldl (fun t e => t.set none e.1 e.2) (if r.sh = 0 then [] else k.mv)
    snap := k.snap.set [] r.sh o.snap }
  { v with
    recs := v.recs.upd {} r.part fun k => k.commit new
    debtSat := v.debtSat.set false r.part (v.debtSat.get false r.part || sat)
    curPic := { v.curPic with
      marks := match o.b, r.mark with
        | some _, some col => v.curPic.marks ++ [(r.sh, col)]
        | _, _ => v.curPic.marks
      mv := o.mv.foldl (fun t e => t.set none e.1 e.2) v.curPic.mv } }

/-- The copy in force of what runs read and write beside the parts' records (R210). -/
def Rc.runCopy (v : Rc) (seq : Nat) : RunCopy :=
  { dec := v.dec, refs := v.refs, curPic := v.curPic, pics := v.pics, slots := v.slots, slot := v.slot, pool := v.pool, cycSeq := v.cycSeq
    cyc := v.cyc, j := v.j, cycG := v.cycG, postp := v.postp, xs0 := v.xs0, seq := seq }

/-- Items of a state record in one row of numbers (R209). -/
def ChanRec.ints (k : ChanRec) : List Int :=
  let l := k.led
  [(k.fr1 : Int), k.sh, l.debt, l.left, l.goal, l.slack, l.lastQ, l.lastClass, k.markBit, k.markSh]
    ++ (k.act.flatMap fun e => [(e.1 : Int), e.2]) ++ (k.xs.flatMap fun e => [(e.1 : Int), e.2])
    ++ (k.carryY.flatten.map Int.ofNat) ++ (k.carryC.flatten.map Int.ofNat)
    ++ (k.filt.2.flatMap fun b => [(b.col : Int), b.qp] ++ b.filt.map Int.ofNat)
    ++ (k.mv.flatMap fun e => match e.2 with
      | some m => [(e.1 : Int), m.1, m.2]
      | none => [(e.1 : Int)])
    ++ (k.snap.flatMap fun e => (e.1 : Int) :: e.2.map Int.ofNat)

/-- The bytes of a part's record go to its copy in the channel's CHAN_STATE region, behind the reconstruction buffers, and the selector
follows in one write (R209, R210, R372). Assumption log 81, DESIGN CHOICE. -/
def State.storeRec (s : State) (c : Class) (ch p : Nat) : State :=
  let k := (s.rcOf ch).recs.get {} p
  let used := c.base.lanes * encPool c * reconBytes c
  let share := (s.regionLen 0x02 ch - used) / 4
  let at_ (sel : Bool) : Nat := s.regionBase 0x02 ch + used + share * (2 * p + bit sel)
  (s.granWrite (at_ k.sel + 1) ((Config.chanBytes k.cur.ints).take (share - 1))).granWrite (at_ false) [if k.sel then 1 else 0]

/-- The events of RC_CNT that a passed sheaf of a part counts (R248). -/
def State.rcEvents (s : State) (r : Run) : State :=
  let d := r.dec
  let n (i : Nat) (b : Bool) (s : State) : State := if b then s.rcCount r.ch r.part i 1 else s
  let s := n 0 r.opens s
  let s := n 1 (r.skind == .lean) s
  let s := n 2 (r.skind == .allSkip) s
  let s := n 3 (r.opens && d.cycle) s
  let s := n 4 (r.opens && d.restart) s
  let s := n 5 (r.opens && d.postp) s
  n 6 (r.opens && d.recov) s

end Sys2Proof.Machine
end

