-- ==== Sys2Proof/Machine/EncSyntax.lean ====
section
/-!
DEFINITION. The headers of the coded streams: parameter sets, picture and unit headers, levels, colour, the grey and join roots, and the
bytes of units (R182 to R187, R216, R225, R230, R231, R241). The elements carry the outside standards' names. Assumption log 58,
DESIGN CHOICE.
-/

namespace Sys2Proof.Machine

open Config (Elems CuRec BlkRec UnitRec)

/-! ### Levels (R184) -/

/-- A level: its code, largest picture in luma samples, luma samples a second, slice segments or tiles of a picture, and the bit rates of
the Main and High tiers in kbit/s, 0 where it has no High tier. -/
structure LevelRow where
  code : Nat
  pic  : Nat
  rate : Nat
  units : Nat
  main : Nat
  high : Nat
  deriving DecidableEq, Repr

/-- Levels of HEVC by general_level_idc. Assumption log 84, PRESUMED. -/
def hevcLevels : List LevelRow :=
  [⟨30, 36864, 552960, 16, 128, 0⟩, ⟨60, 122880, 3686400, 16, 1500, 0⟩, ⟨63, 245760, 7372800, 20, 3000, 0⟩,
   ⟨90, 552960, 16588800, 30, 6000, 0⟩, ⟨93, 983040, 33177600, 40, 10000, 0⟩, ⟨120, 2228224, 66846720, 75, 12000, 30000⟩,
   ⟨123, 2228224, 133693440, 75, 20000, 50000⟩, ⟨150, 8912896, 267386880, 200, 25000, 100000⟩,
   ⟨153, 8912896, 534773760, 200, 40000, 160000⟩, ⟨156, 8912896, 1069547520, 200, 60000, 240000⟩,
   ⟨180, 35651584, 1069547520, 600, 60000, 240000⟩, ⟨183, 35651584, 2139095040, 600, 120000, 480000⟩,
   ⟨186, 35651584, 4278190080, 600, 240000, 800000⟩]

/-- Levels of AV1 by seq_level_idx. Assumption log 84, PRESUMED. -/
def av1Levels : List LevelRow :=
  [⟨0, 147456, 4423680, 8, 1500, 0⟩, ⟨1, 278784, 8363520, 8, 3000, 0⟩, ⟨4, 665856, 19975680, 16, 6000, 0⟩,
   ⟨5, 1065024, 31950720, 16, 10000, 0⟩, ⟨8, 2359296, 70778880, 32, 12000, 30000⟩, ⟨9, 2359296, 141557760, 32, 20000, 50000⟩,
   ⟨12, 8912896, 267386880, 64, 30000, 100000⟩, ⟨13, 8912896, 534773760, 64, 40000, 160000⟩,
   ⟨14, 8912896, 1069547520, 64, 60000, 240000⟩, ⟨16, 35651584, 1069547520, 128, 60000, 240000⟩,
   ⟨17, 35651584, 2139095040, 128, 100000, 480000⟩, ⟨18, 35651584, 4278190080, 128, 160000, 800000⟩]

/-- Level and tier of a class: the lowest level whose limits admit its size, rate, units and peak bit rate; Main tier where it
suffices (R184). A class that no level admits is signalled as the highest level in High tier, which the spec leaves open. Assumption log 84,
PRESUMED. -/
def levelOf (c : Class) : Nat × Nat :=
  let px := c.base.maxW * c.base.maxH
  let n := sheavesOf c.base.maxH * (if isHevc c then c.base.lanes else 1)
  match (if isHevc c then hevcLevels else av1Levels).find? fun l =>
      decide (px ≤ l.pic ∧ px * fpsOf c.base.rate ≤ l.rate ∧ n ≤ l.units ∧ c.cod.peak ≤ max l.main l.high) with
  | some l => (l.code, if c.cod.peak ≤ l.main then 0 else 1)
  | none => (if isHevc c then 186 else 18, 1)

/-! ### Colour (R185) -/

/-- transfer_characteristics, and colour_primaries, which matrix_coeffs equals (R185). -/
def transferCode (c : Class) : Int := match c.base.transfer with
  | 0 => 1 | 1 => 16 | _ => 18
def primariesCode (c : Class) : Int := if c.base.primaries = 0 then 1 else 9

/-- VUI of HEVC (R185). -/
def vuiElems (c : Class) : Elems :=
  [("video_format", 5), ("video_full_range_flag", 0), ("colour_primaries", primariesCode c),
   ("transfer_characteristics", transferCode c), ("matrix_coeffs", primariesCode c),
   ("chroma_sample_loc_type", if 2 ≤ c.base.pixFmt then 1 else 0), ("vui_timing_info_present_flag", 1), ("time_scale", 90000),
   ("num_units_in_tick", (90000 / fpsOf c.base.rate : Nat)), ("vui_hrd_parameters_present_flag", 0)]

/-- color_config of AV1 (R183, R185). -/
def colorConfig (c : Class) : Elems :=
  [("high_bitdepth", bit (depthOf c == 10)), ("mono_chrome", 0), ("color_primaries", primariesCode c),
   ("transfer_characteristics", transferCode c), ("matrix_coefficients", primariesCode c), ("color_range", 0),
   ("subsampling_x", 1), ("subsampling_y", 1), ("chroma_sample_position", 0)]

/-! ### Parameter sets (R182, R183, R230, R241) -/

/-- Profile, tier and level of HEVC. -/
def profileElems (c : Class) : Elems :=
  [("general_profile_idc", if depthOf c = 10 then 2 else 1), ("general_tier_flag", (levelOf c).2), ("general_level_idc", (levelOf c).1)]

/-- Pictures that a decoder buffers besides the current one: ACK_DEPTH + 1 with ACK_REF (R241), otherwise those of the pool (R262). -/
def decBuffering (c : Class) : Nat := if c.cod.ackRef then c.cod.ackDepth + 1 else encPool c - 1

/-- VPS, SPS and PPS of HEVC (R182). -/
def vpsUnit (c : Class) : UnitRec :=
  { type := 32, elems := ([("vps_video_parameter_set_id", 0), ("vps_max_sub_layers_minus1", (c.base.layers : Int) - 1),
      ("vps_temporal_id_nesting_flag", 1)] : Elems) ++ profileElems c }
def spsUnit (c : Class) (q : Sess) : UnitRec :=
  { type := 33, elems := ([("sps_seq_parameter_set_id", 0), ("sps_max_sub_layers_minus1", (c.base.layers : Int) - 1),
      ("sps_temporal_id_nesting_flag", 1)] : Elems) ++ profileElems c ++
      ([("chroma_format_idc", 1), ("pic_width_in_luma_samples", q.w), ("pic_height_in_luma_samples", q.h),
       ("bit_depth_luma_minus8", depthOf c - 8), ("bit_depth_chroma_minus8", depthOf c - 8),
       ("log2_max_pic_order_cnt_lsb_minus4", 12), ("sps_max_dec_pic_buffering_minus1", decBuffering c),
       ("sps_max_num_reorder_pics", 0),
       ("log2_min_luma_coding_block_size_minus3", 0), ("log2_diff_max_min_luma_coding_block_size", 3),
       ("log2_min_luma_transform_block_size_minus2", 0), ("log2_diff_max_min_luma_transform_block_size", 3),
       ("max_transform_hierarchy_depth_inter", 1), ("max_transform_hierarchy_depth_intra", 1), ("scaling_list_enabled_flag", 0),
       ("amp_enabled_flag", 1), ("sample_adaptive_offset_enabled_flag", 1), ("pcm_enabled_flag", 0),
       ("long_term_ref_pics_present_flag", bit c.cod.ackRef), ("sps_temporal_mvp_enabled_flag", 0),
       ("strong_intra_smoothing_enabled_flag", 1), ("vui_parameters_present_flag", 1)] : Elems) ++ vuiElems c ++
      ([("sps_extension_present_flag", 0)] : Elems) }
def ppsUnit : UnitRec :=
  { type := 34, elems := [("pps_pic_parameter_set_id", 0), ("pps_seq_parameter_set_id", 0),
      ("dependent_slice_segments_enabled_flag", 0), ("output_flag_present_flag", 1), ("sign_data_hiding_enabled_flag", 1),
      ("num_ref_idx_l0_default_active_minus1", 0), ("init_qp_minus26", 0), ("constrained_intra_pred_flag", 0),
      ("transform_skip_enabled_flag", 1), ("cu_qp_delta_enabled_flag", 1), ("diff_cu_qp_delta_depth", 0), ("pps_cb_qp_offset", 0),
      ("pps_cr_qp_offset", 0), ("weighted_pred_flag", 0), ("transquant_bypass_enabled_flag", 0), ("tiles_enabled_flag", 0),
      ("entropy_coding_sync_enabled_flag", 0), ("pps_loop_filter_across_slices_enabled_flag", 1),
      ("deblocking_filter_override_enabled_flag", 1), ("pps_beta_offset_div2", 0), ("pps_tc_offset_div2", 0),
      ("pps_scaling_list_data_present_flag", 0)] }

/-- AUD, and the recovery point SEI of a cycle start (R186, R230). -/
def audUnit (tid : Nat) : UnitRec := { type := 35, tid := tid, elems := [("pic_type", 1)] }
def seiUnit (c : Class) : UnitRec :=
  { type := 39, elems := [("payloadType", 6), ("recovery_poc_cnt", ((cycleLen c - 1) * layerPeriod c : Nat)), ("exact_match_flag", 0),
      ("broken_link_flag", 0)] }

/-- Temporal delimiter and sequence header of AV1 (R183, R186). -/
def tdUnit : UnitRec := { type := 2 }
def seqUnit (c : Class) (q : Sess) : UnitRec :=
  { type := 1, elems := ([("seq_profile", 0), ("still_picture", 0), ("timing_info_present_flag", 0), ("seq_level_idx", (levelOf c).1),
      ("seq_tier", (levelOf c).2), ("max_frame_width_minus_1", (q.w : Int) - 1), ("max_frame_height_minus_1", (q.h : Int) - 1),
      ("use_128x128_superblock", 0), ("enable_filter_intra", 0), ("enable_intra_edge_filter", 1), ("enable_interintra_compound", 0),
      ("enable_masked_compound", 0), ("enable_warped_motion", 0), ("enable_dual_filter", 0), ("enable_order_hint", 1),
      ("enable_jnt_comp", 0), ("enable_ref_frame_mvs", 0), ("seq_force_screen_content_tools", 0), ("order_hint_bits_minus_1", 7),
      ("enable_superres", 0), ("enable_cdef", 1), ("enable_restoration", 0)] : Elems) ++ colorConfig c ++
      ([("film_grain_params_present", 0)] : Elems) }

/-! ### Picture and unit headers (R182, R183, R186, R216, R225, R241) -/

/-- base_q_idx of a model index (R216). -/
def baseQIdx (q : Nat) : Nat := q * 255 / 63

/-- nal_unit_type of a picture: TRAIL_R of a reference picture, TRAIL_N of any other (R225). -/
def trailType (c : Class) (layer : Nat) : Nat := if layer = 0 ∨ (layer = 1 ∧ c.base.layers = 3) then 1 else 0

/-- The pictures that an RPS lists as short-term, most recent first: the history with ACK_REF, otherwise the references in the pool; and
the pinned picture, which it lists as long-term (R225, R241). -/
def rpsShort (c : Class) (v : Rc) : List PicRec :=
  let keep (p : PicRec) : Bool := if c.cod.ackRef then p.fr1 != 0 && v.hist.contains (p.fr1 - 1)
    else v.refs.get 0 0 == p.fr1 || v.refs.get 0 1 == p.fr1
  v.pics.filter keep
def rpsLong (v : Rc) : List PicRec := v.pics.filter fun p => p.fr1 ≠ 0 && v.pinned == some (p.fr1 - 1)

/-- The reference picture set of a picture in its slice header; the grey root stands at POC 0 (R187, R225, R241). -/
def rpsElems (c : Class) (v : Rc) (d : FrDec) : Elems :=
  let lsb (n : Nat) : Nat := n % 65536
  let st := (if d.ref1 = 0 then [(0, true)] else []) ++ (rpsShort c v).map fun p => (p.poc, decide (p.fr1 = d.ref1 ∧ d.ref1 ≠ 0) && !d.recov)
  let lt := rpsLong v
  ([("num_negative_pics", (st.length : Int))] : Elems)
    ++ st.flatMap (fun e => ([("delta_poc", (e.1 : Int) - d.poc), ("used_by_curr_pic_flag", bit e.2)] : Elems))
    ++ (if c.cod.ackRef then ([("num_long_term_pics", (lt.length : Int))] : Elems) ++ lt.flatMap fun p =>
        let amb := (d.poc :: (rpsShort c v).map (·.poc)).any fun n => lsb n == lsb p.poc
        ([("poc_lsb_lt", (lsb p.poc : Int)), ("used_by_curr_pic_lt_flag", bit d.recov),
          ("delta_poc_msb_present_flag", bit amb)] : Elems)
      else [])

/-- slice_segment_address of a sheaf of a part (R186). -/
def sliceAddr (c : Class) (q : Sess) (p sh : Nat) : Nat := sh * ceilDiv q.w 64 + (partCols c q.w p).1

/-- Slice segment header of a sheaf of a picture (R182, R186, R220). -/
def sliceElems (c : Class) (q : Sess) (v : Rc) (d : FrDec) (p sh qp : Nat) (skip : Bool) : Elems :=
  ([("first_slice_segment_in_pic_flag", bit (sh == 0 && p == 0)), ("slice_segment_address", (sliceAddr c q p sh : Int)), ("slice_type", 1),
   ("pic_output_flag", 1), ("slice_pic_order_cnt_lsb", ((d.poc % 65536 : Nat) : Int)), ("short_term_ref_pic_set_sps_flag", 0)] : Elems)
    ++ rpsElems c v d ++
  ([("slice_sao_luma_flag", bit !skip), ("slice_sao_chroma_flag", bit !skip), ("num_ref_idx_l0_active_minus1", 0),
   ("five_minus_max_num_merge_cand", 0), ("slice_qp_delta", (qp : Int) - 26), ("slice_deblocking_filter_disabled_flag", bit skip),
   ("slice_loop_filter_across_slices_enabled_flag", 1), ("num_entry_point_offsets", 0)] : Elems)

/-- Tile layout of an AV1 frame: one column, a row for each sheaf (R186). -/
def tileElems (q : Sess) : Elems :=
  ([("uniform_tile_spacing_flag", 0), ("width_in_sbs_minus_1", (ceilDiv q.w 64 : Int) - 1)] : Elems)
    ++ (List.range (sheavesOf q.h)).map fun _ => ("height_in_sbs_minus_1", 0)

/-- Frame header of an AV1 picture (R183, R186, R216, R220, R225, R241). -/
def frameUnit (q : Sess) (d : FrDec) (qv : Nat) : UnitRec :=
  { type := 3, tid := d.layer, elems := ([("show_existing_frame", 0), ("frame_type", 1), ("show_frame", 1), ("error_resilient_mode", 0),
      ("disable_cdf_update", 0), ("order_hint", ((d.poc % 256 : Nat) : Int)), ("primary_ref_frame", 7),
      ("refresh_frame_flags", (d.refresh : Int)), ("ref_frame_idx", (d.refSlot : Int)), ("allow_high_precision_mv", 0),
      ("is_filter_switchable", 0), ("interpolation_filter", 0), ("is_motion_mode_switchable", 0),
      ("disable_frame_end_update_cdf", 1)] : Elems) ++ tileElems q ++
      ([("base_q_idx", (baseQIdx qv : Int)), ("segmentation_enabled", 0), ("delta_q_present", 1), ("delta_q_res", 0), ("delta_lf_present", 0)] : Elems)
      ++ (Config.frameFilter qv).map (fun l => ("loop_filter_level", (l : Int))) ++
      ([("cdef_bits", 3), ("cdef_y_pri_strength", 0), ("cdef_y_sec_strength", 0), ("cdef_uv_pri_strength", 0),
       ("cdef_uv_sec_strength", 0), ("tx_mode_select", 1), ("reference_select", 0),
       ("reduced_tx_set", 1), ("is_global", 0)] : Elems) }

/-- Tile group of a sheaf (R186). -/
def tileElemsOf (sh : Nat) : Elems := [("tile_start_and_end_present_flag", 1), ("tg_start", (sh : Int)), ("tg_end", (sh : Int))]

/-- The coded unit of a sheaf of a part with its blocks (R186). -/
def sheafUnit (c : Class) (q : Sess) (v : Rc) (r : Run) (blocks : List BlkRec) : UnitRec :=
  let d := r.dec
  if isHevc c then
    { type := trailType c d.layer, tid := d.layer, elems := sliceElems c q v d r.part r.sh r.q (r.skind == .allSkip), blocks := blocks }
  else { type := 4, tid := d.layer, elems := tileElemsOf r.sh, blocks := blocks }

/-- The units ahead of a picture's sheaves (R186, R230): the AUD, and at a cycle start the parameter sets and the SEI; in AV1 the
temporal delimiter, at a cycle start the sequence header, and the frame header. -/
def preUnits (c : Class) (q : Sess) (d : FrDec) (qv : Nat) : List UnitRec :=
  if isHevc c then audUnit d.layer :: (if d.cycle then [vpsUnit c, spsUnit c q, ppsUnit, seiUnit c] else [])
  else tdUnit :: (if d.cycle then [seqUnit c q] else []) ++ [frameUnit q d qv]

/-! ### Grey root and join roots (R187, R231) -/

/-- Units of side 8 · 2^k at most that tile a block, each intra DC without residual (R187). -/
def dcTiles (hevc : Bool) (right bottom : Nat) : Nat → Nat → Nat → List CuRec
  | k, x, y =>
    let n := 8 * 2 ^ k
    if x + n ≤ right ∧ y + n ≤ bottom then [{ x := x, y := y, w := n, h := n, kind := 3, mode := if hevc then 1 else 0, cbf := false }]
    else
      match k with
      | 0 => []
      | k + 1 =>
        let m := 8 * 2 ^ k
        ([(x, y), (x + m, y), (x, y + m), (x + m, y + m)].filter fun (a, b) => a < right ∧ b < bottom).flatMap fun (a, b) =>
          dcTiles hevc right bottom k a b

/-- Blocks of a sheaf of a root: every one DC without residual (R187). -/
def rootBlocks (c : Class) (q : Sess) (p sh : Nat) : List BlkRec :=
  let right := partRight c q.w p
  (range2 (partCols c q.w p).1 ((partCols c q.w p).1 + (partCols c q.w p).2)).map fun col =>
    { col := col, qp := 26, cus := dcTiles (isHevc c) right (min q.h (64 * sh + 64)) 3 (64 * col) (64 * sh) }

/-- Units ahead of a root's sheaves: in HEVC the AUD and the parameter sets; in AV1 the sequence header and the KEY_FRAME's frame
header (R187, R231). -/
def rootPre (c : Class) (q : Sess) : List UnitRec :=
  if isHevc c then [audUnit 0, vpsUnit c, spsUnit c q, ppsUnit]
  else
    let hdr : Elems := [("show_existing_frame", 0), ("frame_type", 0), ("show_frame", 0), ("showable_frame", 0),
      ("error_resilient_mode", 0), ("disable_cdf_update", 0), ("refresh_frame_flags", 255), ("disable_frame_end_update_cdf", 1)]
    let rest : Elems := [("base_q_idx", (baseQIdx 26 : Int)), ("segmentation_enabled", 0), ("delta_q_present", 1),
      ("delta_q_res", 0), ("delta_lf_present", 0), ("cdef_bits", 3), ("tx_mode_select", 1), ("reduced_tx_set", 1)]
    [seqUnit c q, { type := 3, elems := hdr ++ tileElems q ++ rest }]

/-- Sheaves of a root: in HEVC an I slice segment of an IDR_N_LP picture (the grey root), or of a CRA_NUT picture with the POC LSB of the
cycle start's reference (a join root); in AV1 a tile group (R187, R231). -/
def rootSheaves (c : Class) (q : Sess) (d : FrDec) : List UnitRec :=
  (List.range (sheavesOf q.h)).flatMap fun sh => (partsOf c).map fun p =>
    if isHevc c then
      { type := if d.idr then 20 else 21, blocks := rootBlocks c q p sh,
        elems := ([("first_slice_segment_in_pic_flag", bit (sh == 0 && p == 0)), ("slice_segment_address", (sliceAddr c q p sh : Int)),
          ("slice_type", 2), ("pic_output_flag", 0)] : Elems) ++ (if d.idr then [] else
          ([("slice_pic_order_cnt_lsb", ((d.refPoc % 65536 : Nat) : Int)), ("num_negative_pics", 0)] : Elems)) ++
          ([("slice_sao_luma_flag", 0), ("slice_sao_chroma_flag", 0), ("slice_qp_delta", 0), ("slice_deblocking_filter_disabled_flag", 1),
           ("slice_loop_filter_across_slices_enabled_flag", 1), ("num_entry_point_offsets", 0)] : Elems) }
    else { type := 4, elems := tileElemsOf sh, blocks := rootBlocks c q p sh }

/-! ### Bytes of units -/

/-- Bytes of a unit: the NAL unit header of HEVC with layer 0, or the OBU header without a size field and, in a class of several layers,
with the temporal layer in its extension; then the payload (R183, R206). -/
def unitBytes (c : Class) (u : UnitRec) : List Byte :=
  (if isHevc c then leBytes 1 (2 * u.type) ++ leBytes 1 (u.tid + 1)
    else if 2 ≤ c.base.layers then leBytes 1 (8 * u.type + 4) ++ leBytes 1 (32 * u.tid) else leBytes 1 (8 * u.type))
    ++ Config.unitPayload (isHevc c) u

end Sys2Proof.Machine
end

