-- ==== Sys2Proof/Machine/Motion.lean ====
section
/-!
DEFINITION. What an encode core makes of the samples of a sheaf: hints, seeds and search, fences, mode decision, quantisation, the bin
cap, the two variants of a marked block (R188, R190, R192 to R199, R218, R228, R229, R236, R237). Assumption log 58, DESIGN CHOICE.
-/

namespace Sys2Proof.Machine

open Config (Canvas CuRec BlkRec)

/-- A vector in quarter luma pixels, horizontal and vertical. -/
abbrev Mv := Int × Int

/-- A rectangle of luma samples: left, top, width, height. -/
abbrev Rect := Nat × Nat × Nat × Nat

/-! ### Hints (R192) -/

/-- An entry is usable: AGE 1 to 8, CONF 32 or more (R192). -/
def HintEnt.usable (e : HintEnt) : Bool := decide (1 ≤ e.age ∧ e.age ≤ 8 ∧ 32 ≤ e.conf)

/-- `n ÷ d` rounded to nearest with halves away from zero. -/
def divAway (n : Int) (d : Nat) : Int :=
  let q : Int := ((2 * n.natAbs + d) / (2 * d) : Nat)
  if n < 0 then -q else q

/-- The entry's vector scaled to a reference distance (R192). -/
def HintEnt.scaled (e : HintEnt) (d : Nat) : Mv := (divAway (e.mvx * d) e.age, divAway (e.mvy * d) e.age)

/-- A group of hint vectors: its first member, and its members with CONF (R193). -/
structure HintGroup where
  first : Mv
  mems  : List (Mv × Nat)
  deriving DecidableEq, Repr

/-- Two vectors lie within 4 quarter pixels in both components. -/
def nearMv (a b : Mv) : Bool := decide ((a.1 - b.1).natAbs ≤ 4 ∧ (a.2 - b.2).natAbs ≤ 4)

/-- An entry joins the first group whose first member it is near, or starts one (R193). -/
def joinGroup (m : Mv) (conf : Nat) : List HintGroup → List HintGroup
  | [] => [{ first := m, mems := [(m, conf)] }]
  | g :: gs => if nearMv g.first m then { g with mems := g.mems ++ [(m, conf)] } :: gs else g :: joinGroup m conf gs

/-- Sum of the CONF values of a group. -/
def HintGroup.weight (g : HintGroup) : Nat := (g.mems.map (·.2)).sum

/-- The vector of a group's highest-CONF member, the first such (R193). -/
def HintGroup.best (g : HintGroup) : Mv :=
  match g.mems.find? fun m => g.mems.all fun n => decide (n.2 ≤ m.2) with
  | some m => m.1
  | none => g.first

/-- The `n` heaviest groups, the earlier first on ties. -/
def topGroups : Nat → List HintGroup → List HintGroup
  | 0, _ => []
  | n + 1, gs =>
    match gs.findIdx? fun g => gs.all fun h => decide (h.weight ≤ g.weight) with
    | none => []
    | some i => (gs[i]?).toList ++ topGroups n (gs.eraseIdx i)

/-- Hint seeds of a block from the entries of its 8 × 8 blocks in raster order (R193). -/
def hintSeeds (d : Nat) (es : List HintEnt) : List Mv :=
  (topGroups 4 (es.foldl (fun gs e => if e.usable then joinGroup (e.scaled d) e.conf gs else gs) [])).map HintGroup.best

/-! ### Refreshed, clean and marked regions (R228, R237) -/

/-- Boundaries X_s of a picture by part and band, and the column at which the right part begins; its marked blocks by sheaf and CTB
column (R226, R228, R237). -/
structure Regions where
  xs    : Tbl Nat := []
  split : Nat := 0
  marks : List (Nat × Nat) := []
  deriving DecidableEq, Repr

/-- Every sample from (x0, y0) to (x1, y1) lies in the refreshed region F (R228). -/
def Regions.refreshed (g : Regions) (x0 y0 x1 y1 : Nat) : Bool :=
  (range2 (y0 / 64) (y1 / 64 + 1)).all fun b =>
    (decide (g.split ≤ x0) || decide (min x1 (g.split - 1) < g.xs.get 0 b))
      && (decide (x1 < g.split) || decide (x1 < g.xs.get 0 (128 + b)))

/-- A coordinate clamped to 0 to `n` - 1: a sample outside the picture is the one that the padding repeats (R228). -/
def clampTo (n : Nat) (v : Int) : Nat := min v.toNat (n - 1)

/-- Every sample of a footprint lies in the clean region C of a `w` × `h` picture: it is 8 luma samples from every sample outside F
(R228). -/
def Regions.clean (g : Regions) (w h : Nat) (x0 y0 x1 y1 : Int) : Bool :=
  let cx (v : Int) (o : Int) : Nat := clampTo w ((clampTo w v : Int) + o)
  let cy (v : Int) (o : Int) : Nat := clampTo h ((clampTo h v : Int) + o)
  g.refreshed (cx x0 (-7)) (cy y0 (-7)) (cx x1 7) (cy y1 7)

/-- A rectangle touches the marked region: a marked block with 8 luma samples on every side, clipped to the picture (R237). -/
def Regions.touchesMark (g : Regions) (w h : Nat) (x0 y0 x1 y1 : Int) : Bool :=
  g.marks.any fun (sh, col) =>
    decide (clampTo w x0 ≤ 64 * col + 71 ∧ 64 * col ≤ clampTo w x1 + 8 ∧ clampTo h y0 ≤ 64 * sh + 71 ∧ 64 * sh ≤ clampTo h y1 + 8)

/-- Prediction footprint of a rectangle under a vector, as left, top, right, bottom (R195). -/
def footprint (r : Rect) (m : Mv) : Int × Int × Int × Int :=
  let whole := decide (m.1 % 4 = 0 ∧ m.2 % 4 = 0)
  let lo : Int := if whole then 0 else 3
  let hi : Int := if whole then 0 else 4
  let x : Int := r.1 + m.1 / 4
  let y : Int := r.2.1 + m.2 / 4
  (x - lo, y - lo, x + r.2.2.1 - 1 + hi, y + r.2.2.2 - 1 + hi)

/-! ### What a sheaf is coded from (R191) -/

/-- The inputs of a sheaf's coding (R191). Assumption log 58, DESIGN CHOICE. -/
structure EncIn where
  hevc  : Bool
  depth : Nat
  w     : Nat
  h     : Nat
  sh    : Nat
  /-- luma columns of the part, from its left edge to below its right edge -/
  left  : Nat
  right : Nat
  /-- rows of Y and of CbCr of the sheaf, across the picture -/
  srcY  : List (List Nat)
  srcC  : List (List Nat)
  /-- hint rows of the sheaf; none where the hint plane is not in effect -/
  hints : List (List HintEnt)
  refY  : List (List Nat)
  refC  : List (List Nat)
  /-- reference distance (R225) -/
  d     : Nat
  /-- motion fields of the reference and of the current picture: key 1,024 × row + column, by 16 × 16 block (R209) -/
  refMv : Tbl (Option Mv)
  curMv : Tbl (Option Mv)
  snap  : List Nat
  kind  : SheafKind
  qp    : Nat
  /-- highest QP, to which the bin cap may raise it (R190) -/
  qpTop : Nat
  /-- λ with 16 fractional bits (R196, R220) -/
  lam   : Nat
  /-- luma columns of the refresh column (R226) -/
  refresh : Option (Nat × Nat)
  /-- regions of the picture after the sheaf, and of its reference -/
  cur   : Regions
  ref   : Regions
  mark  : Option Nat
  delta : Nat
  seed  : Nat

/-- Rows of the sheaf. -/
def EncIn.rows (i : EncIn) : Nat := min 64 (i.h - 64 * i.sh)

/-- A rectangle lies in F of the picture being coded. -/
def EncIn.inF (i : EncIn) (r : Rect) : Bool := i.cur.refreshed r.1 r.2.1 (r.1 + r.2.2.1 - 1) (r.2.1 + r.2.2.2 - 1)

/-- A vector is excluded for a rectangle: its footprint touches a fenced region of the reference (R195, R229, R237). -/
def EncIn.fenced (i : EncIn) (r : Rect) (m : Mv) : Bool :=
  let (x0, y0, x1, y1) := footprint r m
  i.ref.touchesMark i.w i.h x0 y0 x1 y1 || (i.inF r && !i.ref.clean i.w i.h x0 y0 x1 y1)

/-- A block is coded intra: it lies in the refresh column (R229). -/
def EncIn.intraOnly (i : EncIn) (x : Nat) : Bool :=
  match i.refresh with
  | some (a, b) => decide (a ≤ x ∧ x < b)
  | none => false

/-- An intra mode is excluded for a rectangle: it takes reference samples from the marked region of the picture, or, in F, from
outside F (R229, R237). -/
def EncIn.intraFenced (i : EncIn) (r : Rect) (mode : Nat) (cv : Canvas) (marks : List (Nat × Nat)) : Bool :=
  (Config.intraReads i.hevc mode r cv).any fun (x, y, w, h) =>
    ({ marks := marks } : Regions).touchesMark i.w i.h x y ((x + w : Nat) - 1) ((y + h : Nat) - 1) || (i.inF r && !i.inF (x, y, w, h))

/-! ### Seeds and windows (R193, R194) -/

/-- A seed's integer position for the block at (x, y), clamped so that the 64 × 64 block lies within the extended picture (R194). -/
def clampSeed (w h x y : Nat) (m : Mv) : Int × Int :=
  (max (-64 - x) (min (w - x) (m.1 / 4)), max (-64 - y) (min (h - y) (m.2 / 4)))

/-- The seeds of the block at CTB column `col`: hints, zero, left, co-located, above; equal positions kept once (R193). -/
def EncIn.seeds (i : EncIn) (col : Nat) (leftMv : Option Mv) : List (Int × Int) :=
  let es := i.hints.flatMap fun row => (row.drop (8 * col)).take 8
  let at_ (t : Tbl (Option Mv)) (row : Nat) : List Mv := (t.get none (1024 * row + 4 * col)).toList
  let above := if i.sh = 0 then [] else at_ i.curMv (4 * i.sh - 4)
  let all := hintSeeds i.d es ++ [(0, 0)] ++ leftMv.toList ++ at_ i.refMv (4 * i.sh) ++ above
  (all.map (clampSeed i.w i.h (64 * col) (64 * i.sh))).eraseDups

/-- A vector lies within the window of a seed of the block at (x, y): ±256 and ±128 luma pixels, cut at the extended edge and, for AV1,
at ±2,047 (R194). -/
def EncIn.inWindow (i : EncIn) (x y : Nat) (seed : Int × Int) (m : Mv) : Bool :=
  decide (4 * (seed.1 - 256) ≤ m.1 ∧ m.1 ≤ 4 * (seed.1 + 256) ∧ 4 * (seed.2 - 128) ≤ m.2 ∧ m.2 ≤ 4 * (seed.2 + 128))
    && decide (4 * (-64 - (x : Int)) ≤ m.1 ∧ m.1 ≤ 4 * ((i.w : Int) - x) ∧ 4 * (-64 - (y : Int)) ≤ m.2 ∧ m.2 ≤ 4 * ((i.h : Int) - y))
    && (i.hevc || decide (m.1.natAbs ≤ 8188 ∧ m.2.natAbs ≤ 8188))

/-! ### Search (R195) -/

/-- Sample of rows at a place, the nearest inside where it lies outside. -/
def sampleAt (rows : List (List Nat)) (x y : Int) : Nat :=
  let row := (rows[clampTo rows.length y]?).getD []
  (row[clampTo row.length x]?).getD 0

/-- Luma sample of the source at a place of the picture. -/
def EncIn.src (i : EncIn) (x y : Nat) : Nat := sampleAt i.srcY x ((y : Int) - 64 * i.sh)

/-- Absolute difference. -/
def absDiff (a b : Nat) : Nat := (a - b) + (b - a)

/-- Sum of absolute differences of a rectangle displaced by whole pixels, on every `step`-th sample in each dimension. -/
def EncIn.sad (i : EncIn) (step : Nat) (r : Rect) (dx dy : Int) : Nat :=
  ((List.range ((r.2.2.2 + step - 1) / step)).flatMap fun b => (List.range ((r.2.2.1 + step - 1) / step)).map fun a =>
    let x := r.1 + step * a
    let y := r.2.1 + step * b
    absDiff (i.src x y) (sampleAt i.refY (x + dx) (y + dy))).sum

/-- Integers from `a` to `b`. -/
def intRange (a b : Int) : List Int := (List.range (b + 1 - a).toNat).map fun k => a + Int.ofNat k

/-- The `n` elements with the least keys, the earlier first on ties. -/
def bestN {α : Type} (key : α → Nat) : Nat → List α → List α
  | 0, _ => []
  | n + 1, l =>
    match l.findIdx? fun a => l.all fun b => decide (key a ≤ key b) with
    | none => []
    | some k => (l[k]?).toList ++ bestN key n (l.eraseIdx k)

/-- Coarse step: the 3 best positions of all seeds' windows on the reference subsampled by 4 (R195). -/
def EncIn.coarse (i : EncIn) (col : Nat) (seeds : List (Int × Int)) : List (Int × Int) :=
  let x := 64 * col
  let y := 64 * i.sh
  let r : Rect := (x, y, min 64 (i.w - x), i.rows)
  let grid := (seeds.flatMap fun sd => (intRange (sd.2 - 128) (sd.2 + 128)).flatMap fun dy =>
    (intRange (sd.1 - 256) (sd.1 + 256)).filterMap fun dx =>
      if dx % 4 = 0 ∧ dy % 4 = 0 ∧ i.inWindow x y sd (4 * dx, 4 * dy) then some (dx, dy) else none).eraseDups
  bestN (fun (dx, dy) => i.sad 4 r dx dy) 3 grid

/-- Integer positions within ±4 of the kept ones, in a seed's window (R195). -/
def EncIn.integers (i : EncIn) (col : Nat) (seeds : List (Int × Int)) : List (Int × Int) :=
  ((i.coarse col seeds).flatMap fun (dx, dy) => (intRange (dy - 4) (dy + 4)).flatMap fun b =>
    (intRange (dx - 4) (dx + 4)).filterMap fun a =>
      if seeds.any fun sd => i.inWindow (64 * col) (64 * i.sh) sd (4 * a, 4 * b) then some (a, b) else none).eraseDups

/-- Walsh–Hadamard transform of 2^n values. -/
def wht : Nat → List Int → List Int
  | 0, l => l
  | n + 1, l =>
    let a := l.take (2 ^ n)
    let b := l.drop (2 ^ n)
    wht n (List.zipWith (· + ·) a b) ++ wht n (List.zipWith (· - ·) a b)

/-- Sum of the absolute values of the Hadamard-transformed differences of a `w` × `h` rectangle, in 4 × 4 blocks (R195). -/
def satd (w h : Nat) (res : List Int) : Nat :=
  let at_ (x y : Nat) : Int := (res[w * y + x]?).getD 0
  ((List.range (h / 4)).flatMap fun b => (List.range (w / 4)).map fun a =>
    let rows := (List.range 4).map fun j => wht 2 ((List.range 4).map fun k => at_ (4 * a + k) (4 * b + j))
    let cols := (List.range 4).flatMap fun k => wht 2 (rows.map fun r => (r[k]?).getD 0)
    (cols.map Int.natAbs).sum).sum

/-- Samples of a rectangle of the source's luma. -/
def EncIn.srcRect (i : EncIn) (r : Rect) : List Nat :=
  (List.range r.2.2.2).flatMap fun b => (List.range r.2.2.1).map fun a => i.src (r.1 + a) (r.2.1 + b)

/-- Hadamard cost of a vector for a rectangle (R195). -/
def EncIn.fracCost (i : EncIn) (r : Rect) (m : Mv) : Nat :=
  let pred := Config.interPred i.hevc 0 i.refY r m
  satd r.2.2.1 r.2.2.2 (List.zipWith (fun (a b : Nat) => (a : Int) - b) (i.srcRect r) pred)

/-- One refinement of a vector by ±`step` in each component; excluded vectors never enter (R195). -/
def EncIn.refine (i : EncIn) (r : Rect) (ok : Mv → Bool) (step : Int) (m : Mv) : Mv :=
  let near := [(0 : Int), -1, 1].flatMap fun b => [(0 : Int), -1, 1].map fun a => (m.1 + step * a, m.2 + step * b)
  (minBy (i.fracCost r) (near.filter ok)).getD m

/-- The vector of a candidate partition of the block at `col`: the best integer position, then half-pel, then quarter-pel (R195); none
where every candidate is excluded. -/
def EncIn.search (i : EncIn) (col : Nat) (seeds ints : List (Int × Int)) (r : Rect) : Option Mv :=
  let ok (m : Mv) : Bool := !i.fenced r m && seeds.any fun sd => i.inWindow (64 * col) (64 * i.sh) sd m
  match minBy (fun (dx, dy) => i.sad 1 r dx dy) (ints.filter fun (dx, dy) => ok (4 * dx, 4 * dy)) with
  | none => none
  | some (dx, dy) => some (i.refine r ok 1 (i.refine r ok 2 (4 * dx, 4 * dy)))

/-! ### Residual, quantiser and reconstruction (R196, R197) -/

/-- Quantised level: dead-zone rounding with offset 1/3 for intra and 1/6 for inter (R197). -/
def quantLevel (intra : Bool) (num den : Nat) (c : Int) : Int :=
  let m : Int := ((6 * c.natAbs * num + (if intra then 2 else 1) * den) / (6 * den) : Nat)
  if c < 0 then -m else m

/-- A sample clipped to its depth. -/
def clipSample (depth : Nat) (v : Int) : Nat := min v.toNat (2 ^ depth - 1)

/-- Samples of a rectangle of a plane of the source: 0 luma, raised as a variant asks; 1 CbCr interleaved, half as many rows. -/
def EncIn.planeSrc (i : EncIn) (raised : Bool) (plane : Nat) (r : Rect) : List Nat :=
  if plane = 0 then
    (List.range r.2.2.2).flatMap fun b => (List.range r.2.2.1).map fun a =>
      let v := i.src (r.1 + a) (r.2.1 + b)
      if raised then
        let cell := 8 * ((r.2.1 + b) % 64 / 8) + (r.1 + a) % 64 / 8
        let amp : Int := i.delta * 2 ^ (i.depth - 8)
        clipSample i.depth ((v : Int) + if bitOf i.seed cell then amp else -amp)
      else v
  else
    (List.range (r.2.2.2 / 2)).flatMap fun b => (List.range r.2.2.1).map fun a =>
      sampleAt i.srcC (r.1 + a : Nat) ((r.2.1 / 2 + b : Nat) - 32 * i.sh)

/-- Reconstructed samples of a row of a plane, from a column to below another, ahead of the filters. -/
def canvasRow (cv : Canvas) (plane y x0 x1 : Nat) : List Nat :=
  (range2 x0 x1).map fun x =>
    match cv.find? fun c => c.1 == plane && decide (c.2.1 ≤ x ∧ x < c.2.1 + c.2.2.2.1 ∧ c.2.2.1 ≤ y ∧ y < c.2.2.1 + c.2.2.2.2.1) with
    | some c => (c.2.2.2.2.2[c.2.2.2.1 * (y - c.2.2.1) + (x - c.2.1)]?).getD 0
    | none => 0

/-- Samples of a rectangle of a plane out of a canvas; the rectangle is in luma samples. -/
def canvasRect (cv : Canvas) (plane : Nat) (r : Rect) : List Nat :=
  (range2 (r.2.1 / (plane + 1)) ((r.2.1 + r.2.2.2) / (plane + 1))).flatMap fun y => canvasRow cv plane y r.1 (r.1 + r.2.2.1)

/-- A rectangle cut into squares of side `n`, row by row. -/
def tileRect (n : Nat) (r : Rect) : List Rect :=
  (List.range (r.2.2.2 / n)).flatMap fun b => (List.range (r.2.2.1 / n)).map fun a => (r.1 + n * a, r.2.1 + n * b, n, n)

/-- Transform blocks of a plane of a coding unit, in luma samples: in HEVC of 32 at most, split once where the unit asks, chroma not below
4 × 4; in AV1 the block, or luma split once (R182, R183, R197). -/
def tbRects (hevc split : Bool) (plane : Nat) (r : Rect) : List Rect :=
  if hevc then
    let n := min 32 r.2.2.1
    let n := if split && decide (r.2.2.1 ≤ 32) then n / 2 else n
    tileRect (if plane = 1 then max n 8 else n) r
  else if split && decide (plane = 0) then
    tileRect (if r.2.2.1 = r.2.2.2 then r.2.2.1 / 2 else min r.2.2.1 r.2.2.2) r
  else [r]

/-- The rectangle that the prediction units of a coding unit cover. -/
def cuRect (us : List CuRec) : Rect :=
  match us with
  | [] => (0, 0, 0, 0)
  | u :: _ =>
    let right := (us.map fun v => v.x + v.w).foldl max 0
    let bottom := (us.map fun v => v.y + v.h).foldl max 0
    (u.x, u.y, right - u.x, bottom - u.y)

/-- Inter prediction of a plane of a coding unit: that of each of its prediction units. -/
def EncIn.interCanvas (i : EncIn) (plane : Nat) (us : List CuRec) : Canvas :=
  us.map fun u => (plane, u.x, u.y / (plane + 1), u.w, u.h / (plane + 1),
    Config.interPred i.hevc plane (if plane = 0 then i.refY else i.refC) (u.x, u.y, u.w, u.h) u.mv)

/-- Every second element from the `k`-th on: a component of interleaved CbCr. -/
def component (k : Nat) (l : List Int) : List Int := (List.range (l.length / 2)).map fun n => (l[2 * n + k]?).getD 0

/-- A component of a transform block coded: its levels, and the residual that a decoder computes of them (R197). -/
def EncIn.codeComp (i : EncIn) (intra : Bool) (qp tx comp w h : Nat) (res : List Int) : List Int × List Int :=
  let (num, den) := Config.quantScale i.hevc comp qp tx
  let lv := (Config.forward i.hevc intra comp tx w h res).map (quantLevel intra num den)
  let lv := if i.hevc then Config.signHide lv else lv
  (lv, Config.inverse i.hevc intra comp tx w h (Config.dequant i.hevc comp qp tx lv))

/-- A transform block of a plane coded: the levels of its components, and its residual (R197). -/
def EncIn.codeRes (i : EncIn) (intra : Bool) (qp tx plane : Nat) (r : Rect) (res : List Int) : List (List Int) × List Int :=
  if plane = 0 then
    let (lv, back) := i.codeComp intra qp tx 0 r.2.2.1 r.2.2.2 res
    ([lv], back)
  else
    let c (k : Nat) := i.codeComp intra qp tx (k + 1) (r.2.2.1 / 2) (r.2.2.2 / 2) (component k res)
    ([(c 0).1, (c 1).1], (List.zip (c 0).2 (c 1).2).flatMap fun (a, b) => [a, b])

/-- A plane of a coding unit coded transform block by transform block, each intra block predicted from what stands before it: levels, and
the canvas with its reconstruction, as a decoder computes it (R197). -/
def EncIn.codePlane (i : EncIn) (raised : Bool) (qp plane : Nat) (us : List CuRec) (cv : Canvas) : List (List Int) × Canvas :=
  match us with
  | [] => ([], cv)
  | u :: _ =>
    let intra := u.kind == 3
    let inter := if intra then [] else i.interCanvas plane us
    (tbRects i.hevc u.split plane (cuRect us)).foldl (fun (a : List (List Int) × Canvas) r =>
      let p := if intra then Config.intraPred i.hevc i.depth u.mode u.uv plane r a.2 else canvasRect inter plane r
      let (lv, out) := if u.kind = 0 || !u.cbf then ([], p) else
        let res := List.zipWith (fun (a b : Nat) => (a : Int) - b) (i.planeSrc raised plane r) p
        let (lv, back) := i.codeRes intra qp u.tx plane r res
        (lv, List.zipWith (fun (a : Nat) (b : Int) => clipSample i.depth ((a : Int) + b)) p back)
      (a.1 ++ lv, (plane, r.1, r.2.1 / (plane + 1), r.2.2.1, r.2.2.2 / (plane + 1), out) :: a.2)) ([], cv)

/-- A coding unit coded, luma and then chroma: its prediction units, the canvas, and its sum of squared errors (R196). -/
def EncIn.codeCu (i : EncIn) (raised : Bool) (qp : Nat) (us : List CuRec) (cv : Canvas) : List CuRec × Canvas × Nat :=
  let r := cuRect us
  let (ly, cvY) := i.codePlane raised qp 0 us cv
  let (lc, cvC) := i.codePlane raised qp 1 us cvY
  let sse (plane : Nat) : Nat :=
    (List.zipWith (fun m n => absDiff m n * absDiff m n) (i.planeSrc raised plane r) (canvasRect cvC plane r)).sum
  (us.mapIdx fun k u => if k = 0 then { u with levels := ly ++ lc } else { u with first := false }, cvC, sse 0 + sse 1)

/-! ### Mode decision (R196) -/

/-- What has been coded: units, canvas, and the cost J with 16 fractional bits. -/
structure EncSt where
  cus  : List CuRec := []
  cv   : Canvas := []
  cost : Nat := 0

/-- Bits of a unit for the decision; in a LEAN sheaf, skip and zero-residual merge count none (R196, R220). -/
def EncIn.bits (i : EncIn) (u : CuRec) : Nat :=
  let free := i.kind == .lean && (u.kind == 0 || (u.kind == 1 && u.levels.all fun l => l.all (· == 0)))
  if free then 0 else Config.bitEstimate i.hevc i.snap u

/-- A coding unit tried on what has been coded, with the transform choice and split of least J (R196). -/
def EncIn.tryCu (i : EncIn) (us : List CuRec) (e : EncSt) : EncSt :=
  match us with
  | [] => e
  | u :: rest =>
    let plain := u.kind == 0 || !u.cbf
    let splits := if plain || (i.hevc && decide (32 < (cuRect us).2.2.1)) then [false] else [false, true]
    let opts := if plain then [(0, false)] else splits.flatMap fun sp =>
      (Config.txOptions i.hevc (u.kind == 3) (cuRect us).2.2.1 (cuRect us).2.2.2).map fun tx => (tx, sp)
    let runs := opts.map fun (tx, sp) =>
      let (vs, cv, d) := i.codeCu false i.qp ({ u with tx := tx, split := sp } :: rest) e.cv
      ({ cus := e.cus ++ vs, cv := cv, cost := e.cost + d * 65536 + i.lam * (vs.map i.bits).sum } : EncSt)
    (minBy EncSt.cost runs).getD e

/-- Partitions of an inter block of side `n` at (x, y) beyond the whole: rectangular and, in HEVC, asymmetric at 32 and 16 (R196). -/
def splitRects (hevc : Bool) (x y n : Nat) : List (List Rect) :=
  let hor (k : Nat) : List Rect := [(x, y, n, k), (x, y + k, n, n - k)]
  let ver (k : Nat) : List Rect := [(x, y, k, n), (x + k, y, n - k, n)]
  if hevc then (if n = 32 ∨ n = 16 then [hor (n / 2), ver (n / 2), hor (n / 4), hor (n - n / 4), ver (n / 4), ver (n - n / 4)] else [])
  else [hor (n / 2), ver (n / 2)]

/-- A vector may be coded for a rectangle of the block at CTB column `col`: no fence excludes it, and it lies in a seed's window (R194,
R195). -/
def EncIn.mvOk (i : EncIn) (col : Nat) (seeds : List (Int × Int)) (r : Rect) (m : Mv) : Bool :=
  !i.fenced r m && seeds.any fun sd => i.inWindow (64 * col) (64 * i.sh) sd m

/-- A unit with its own vector, as the search gives it, for each predictor that no fence excludes (R195). -/
def EncIn.interCus (i : EncIn) (col : Nat) (seeds ints : List (Int × Int)) (cus : List CuRec) (r : Rect) : List CuRec :=
  match i.search col seeds ints r with
  | none => []
  | some m => (((Config.vectorPreds i.hevc cus r).mapIdx fun k p => (k, p)).filter fun (_, p) => !i.fenced r p).map fun (k, p) =>
      { x := r.1, y := r.2.1, w := r.2.2.1, h := r.2.2.2, kind := 2, mode := k, mv := m, mvd := (m.1 - p.1, m.2 - p.2) }

/-- Vectors of the list that merge takes, with their numbers: HEVC's 5 merge candidates; in AV1 NEARESTMV 0, NEARMV 1 and GLOBALMV 2
with identity motion (R182, R183). -/
def EncIn.listVectors (i : EncIn) (cus : List CuRec) (r : Rect) : List (Nat × Mv) :=
  let l := (Config.mergeVectors i.hevc cus r).mapIdx fun k m => (k, m)
  if i.hevc then l.take 5 else l.take 2 ++ [(2, (0, 0))]

/-- Units of a rectangle that take a vector of the list: with residual, or as skip. -/
def EncIn.mergeCus (i : EncIn) (col : Nat) (seeds : List (Int × Int)) (kinds : List Nat) (cus : List CuRec) (r : Rect) : List CuRec :=
  ((i.listVectors cus r).filter fun (_, m) => i.mvOk col seeds r m).flatMap fun (k, m) =>
    kinds.map fun kd => { x := r.1, y := r.2.1, w := r.2.2.1, h := r.2.2.2, kind := kd, mode := k, mv := m }

/-- Intra modes: HEVC's 35, of which the 3 of least Hadamard cost are evaluated; AV1's DC, directional with angle delta, SMOOTH,
SMOOTH_V, SMOOTH_H and PAETH (R183, R196). -/
def EncIn.intraModes (i : EncIn) (r : Rect) (cv : Canvas) (marks : List (Nat × Nat)) : List Nat :=
  let all := (List.range (if i.hevc then 35 else 61)).filter fun m => !i.intraFenced r m cv marks
  if i.hevc then
    bestN (fun m => satd r.2.2.1 r.2.2.2 (List.zipWith (fun (a b : Nat) => (a : Int) - b) (i.srcRect r)
      (Config.intraPred true i.depth m 0 0 r cv))) 3 all
  else all

/-- Intra units of a rectangle; in AV1 each with its own chroma mode and, up to 32 × 32, with chroma from luma (R183). -/
def EncIn.intraCus (i : EncIn) (r : Rect) (cv : Canvas) (marks : List (Nat × Nat)) : List CuRec :=
  (i.intraModes r cv marks).flatMap fun m =>
    (if !i.hevc && decide (max r.2.2.1 r.2.2.2 ≤ 32) then [0, 1] else [0]).map fun uv =>
      { x := r.1, y := r.2.1, w := r.2.2.1, h := r.2.2.2, kind := 3, mode := m, uv := uv }

/-- DC's number among a format's intra modes. -/
def dcMode (hevc : Bool) : Nat := if hevc then 1 else 0

/-- Units of one rectangle coded whole that are not excluded; where every one is, intra DC (R195, R196, R229). -/
def EncIn.singles (i : EncIn) (col : Nat) (seeds ints : List (Int × Int)) (marks : List (Nat × Nat)) (r : Rect) (e : EncSt) : List CuRec :=
  let inter := if i.intraOnly r.1 then [] else i.mergeCus col seeds [0, 1] e.cus r ++ i.interCus col seeds ints e.cus r
  let all := inter ++ i.intraCus r e.cv marks
  if all.isEmpty then [{ x := r.1, y := r.2.1, w := r.2.2.1, h := r.2.2.2, kind := 3, mode := dcMode i.hevc }] else all

/-- Inter coding units of several prediction units: each by merge or with its own vector, in the order of the rectangles (R196). -/
def EncIn.pairCus (i : EncIn) (col : Nat) (seeds ints : List (Int × Int)) (cus : List CuRec) : List Rect → List (List CuRec)
  | [] => [[]]
  | r :: rs => (i.mergeCus col seeds [1] cus r ++ i.interCus col seeds ints cus r).flatMap fun u =>
      (EncIn.pairCus i col seeds ints (cus ++ [u]) rs).map fun us => u :: us

/-- The best coding of a rectangle as one unit. -/
def EncIn.bestSingle (i : EncIn) (col : Nat) (seeds ints : List (Int × Int)) (marks : List (Nat × Nat)) (e : EncSt) (r : Rect) : EncSt :=
  (minBy EncSt.cost ((i.singles col seeds ints marks r e).map fun u => i.tryCu [u] e)).getD e

/-- The codings of a block of side `n` at (x, y) that is not split further: whole, and in partitions, which are prediction units of one
coding unit in HEVC and blocks of their own in AV1 (R196). -/
def EncIn.codings (i : EncIn) (col : Nat) (seeds ints : List (Int × Int)) (marks : List (Nat × Nat)) (x y n : Nat) (e : EncSt) : List EncSt :=
  let whole := i.bestSingle col seeds ints marks e (x, y, n, n)
  let parts := splitRects i.hevc x y n
  whole :: (if i.hevc then
      (if i.intraOnly x then [] else (parts.flatMap (i.pairCus col seeds ints e.cus)).map fun us => i.tryCu us e)
    else parts.map fun rs => rs.foldl (i.bestSingle col seeds ints marks) e)

/-- The best coding of the block of side 8 · 2^k at (x, y): a candidate, or its four quarters where they are better, or where it
crosses the picture's or the sheaf's edge (R188, R196). -/
def EncIn.tree (i : EncIn) (col : Nat) (seeds ints : List (Int × Int)) (marks : List (Nat × Nat)) : Nat → Nat → Nat → EncSt → EncSt
  | k, x, y, e =>
    let n := 8 * 2 ^ k
    let leaf : Option EncSt :=
      if x + n ≤ i.right ∧ y + n ≤ 64 * i.sh + i.rows then minBy EncSt.cost (i.codings col seeds ints marks x y n e) else none
    match k with
    | 0 => leaf.getD e
    | k + 1 =>
      let m := 8 * 2 ^ k
      let quarters := [(x, y), (x + m, y), (x, y + m), (x + m, y + m)].filter fun (a, b) => a < i.right ∧ b < 64 * i.sh + i.rows
      let split := quarters.foldl (fun e (a, b) => EncIn.tree i col seeds ints marks k a b e) e
      match leaf with
      | some l => if l.cost ≤ split.cost then l else split
      | none => split

/-- The blocks of the quad-tree that tile a block up to the edges of the picture or part: of side 8 · 2^k at most (R188). -/
def edgeTiles (right bottom : Nat) : Nat → Nat → Nat → List Rect
  | k, x, y =>
    let n := 8 * 2 ^ k
    if x + n ≤ right ∧ y + n ≤ bottom then [(x, y, n, n)]
    else
      match k with
      | 0 => []
      | k + 1 =>
        let m := 8 * 2 ^ k
        ([(x, y), (x + m, y), (x, y + m), (x + m, y + m)].filter fun (a, b) => a < right ∧ b < bottom).flatMap fun (a, b) =>
          edgeTiles right bottom k a b

/-- A block copied from the co-located reference: in HEVC skip with the first zero merge candidate, otherwise 2N × 2N inter with a zero
vector and no residual; in AV1 GLOBALMV with skip (R196). -/
def EncIn.copied (i : EncIn) (r : Rect) (cus : List CuRec) : CuRec :=
  let u : CuRec := { x := r.1, y := r.2.1, w := r.2.2.1, h := r.2.2.2, kind := 0 }
  if !i.hevc then { u with mode := 2 }
  else match (i.listVectors cus r).find? fun e => e.2 == (0, 0) with
    | some (k, _) => { u with mode := k }
    | none =>
      match ((Config.vectorPreds true cus r).mapIdx fun k p => (k, p)).find? fun e => !i.fenced r e.2 with
      | some (k, p) => { u with kind := 2, mode := k, mvd := (-p.1, -p.2), cbf := false }
      | none => { u with kind := 2, cbf := false }

/-- A block at (x, y) copied whole (R196, R220). -/
def EncIn.copyBlock (i : EncIn) (x y : Nat) (e : EncSt) : EncSt :=
  (edgeTiles i.right (64 * i.sh + i.rows) 3 x y).foldl (fun e r => i.tryCu [i.copied r e.cus] e) e

/-! ### Blocks (R188, R190, R199, R236) -/

/-- 8 × 8 units of a block at a CTB column. -/
def EncIn.units (i : EncIn) (col : Nat) : Nat := (min 64 (i.right - 64 * col) / 8) * (i.rows / 8)

/-- Prediction units gathered into their coding units. -/
def codingUnits : List CuRec → List (List CuRec)
  | [] => []
  | u :: us =>
    match codingUnits us with
    | [] => [[u]]
    | (v :: vs) :: gs => if v.first then [u] :: (v :: vs) :: gs else (u :: v :: vs) :: gs
    | [] :: gs => [u] :: gs

/-- The decided units coded again at a QP, on the canvas as it stood ahead of the block (R190, R236). -/
def EncIn.rebuild (i : EncIn) (raised : Bool) (qp : Nat) (us : List CuRec) (cv : Canvas) : List CuRec × Canvas :=
  (codingUnits us).foldl (fun (a : List CuRec × Canvas) us =>
    let (us, cv, _) := i.codeCu raised qp us a.2
    (a.1 ++ us, cv)) ([], cv)

/-- The bin cap: while a variant of the block needs more than 340 bins for each of its 8 × 8 units, its QP is raised by 2 and it is
quantised again (R190). Answers the QP. -/
def EncIn.capQp (i : EncIn) (col : Nat) (marked : Bool) (us : List CuRec) (cv : Canvas) : Nat → Nat → Nat
  | 0, qp => qp
  | n + 1, qp =>
    let exceeds (raised : Bool) : Bool :=
      decide (340 * i.units col < Config.binCount i.hevc { col := col, qp := qp, cus := (i.rebuild raised qp us cv).1 })
    if (exceeds false || (marked && exceeds true)) && decide (qp + 2 ≤ i.qpTop) then EncIn.capQp i col marked us cv n (qp + 2) else qp

/-- The final vector of a block: that of its first inter unit (R193). -/
def blkMv (us : List CuRec) : Option Mv := (us.find? fun u => u.kind != 3).map (·.mv)

/-- A sheaf as it is being coded: the blocks of variant A and, from the marked block on, of variant B; units, canvas, blocks
re-quantised, and the last block's vector. -/
structure SheafSt where
  a    : List BlkRec := []
  b    : List BlkRec := []
  cus  : List CuRec := []
  cv   : Canvas := []
  cap  : Nat := 0
  last : Option Mv := none

/-- Codes the block at a CTB column (R188, R190, R196, R198, R236). -/
def EncIn.codeBlock (i : EncIn) (t : SheafSt) (col : Nat) : SheafSt :=
  let x := 64 * col
  let y := 64 * i.sh
  let marks := match i.mark with
    | some m => if m < col then [(i.sh, m)] else []
    | none => []
  let e : EncSt := { cus := t.cus, cv := t.cv }
  let us := if i.kind = .allSkip then
      (i.copyBlock x y e).cus.drop t.cus.length
    else
      let seeds := i.seeds col t.last
      (i.tree col seeds (i.integers col seeds) marks 3 x y e).cus.drop t.cus.length
  let marked := i.mark == some col
  let qp := i.capQp col marked us t.cv 32 i.qp
  let (us, cv) := i.rebuild false qp us t.cv
  let r : Rect := (x, y, min 64 (i.right - x), i.rows)
  let rec_ := (cv.filter fun c => c.1 == 0 && decide (x ≤ c.2.1 ∧ c.2.1 < x + 64)).flatMap fun c => c.2.2.2.2.2
  let filt := if i.kind = .allSkip then [] else Config.filterChoice i.hevc qp (i.srcRect r) rec_
  let blk : BlkRec := { col := col, qp := qp, cus := us, filt := filt }
  let blkB := if marked then { blk with cus := (i.rebuild true qp us t.cv).1 } else blk
  { a := t.a ++ [blk], b := t.b ++ [blkB], cus := t.cus ++ us, cv := cv, cap := t.cap + bit (decide (qp ≠ i.qp))
    last := blkMv us }

/-- Codes a sheaf of a part, its blocks from left to right (R188). -/
def EncIn.codeSheaf (i : EncIn) : SheafSt := (range2 (i.left / 64) (ceilDiv i.right 64)).foldl i.codeBlock {}

/-- The levels of the two variants differ: the sheaf is marked (R236). -/
def SheafSt.marked (t : SheafSt) : Bool := t.a != t.b

/-- What a run codes: the sheaf with its mark, or, where the levels of the two variants are equal, unmarked (R236). -/
def EncIn.coded (i : EncIn) : SheafSt :=
  let t := i.codeSheaf
  if i.mark.isSome && !t.marked then ({ i with mark := none } : EncIn).codeSheaf else t

/-- Final vectors at 16 × 16 granularity (R209). -/
def motionOf (i : EncIn) (us : List CuRec) : List (Nat × Option Mv) :=
  (range2 (4 * i.sh) (ceilDiv (64 * i.sh + i.rows) 16)).flatMap fun r => (range2 (i.left / 16) (ceilDiv i.right 16)).map fun c =>
    (1024 * r + c, match us.find? fun u => decide (u.x ≤ 16 * c ∧ 16 * c < u.x + u.w ∧ u.y ≤ 16 * r ∧ 16 * r < u.y + u.h) with
      | some u => if u.kind = 3 then none else some u.mv
      | none => none)

/-- Activity of a sheaf: the sum of the absolute differences between adjacent luma samples, in 8-bit units, times 16, over its pixels
(R218). -/
def EncIn.activity (i : EncIn) : Nat :=
  let v (x y : Nat) : Nat := if i.depth = 10 then i.src x y / 4 else i.src x y
  let y0 := 64 * i.sh
  let sum := ((range2 y0 (y0 + i.rows)).flatMap fun y => (range2 i.left i.right).map fun x =>
    (if x + 1 < i.right then absDiff (v x y) (v (x + 1) y) else 0) + (if y + 1 < y0 + i.rows then absDiff (v x y) (v x (y + 1)) else 0)).sum
  sum * 16 / ((i.right - i.left) * i.rows)

end Sys2Proof.Machine
end

