-- ==== Sys2Proof/Machine/EncCore.lean ====
section
/-!
DEFINITION. An encode core codes a run: its inputs out of the state, the sheaf, its filters, its units and its bytes; the thresher's
comparison; gleaning cases (R169, R170, R186 to R202, R209, R211, R447). Assumption log 58, DESIGN CHOICE.
-/

namespace Sys2Proof.Machine

open Config (Elems BlkRec UnitRec Parsed)

/-! ### Inputs (R191, R447) -/

/-- Rows of a stored plane of a sheaf as the core reads them: a row that answers with an error response is mid-grey (R447). -/
def State.encRows (s : State) (c : Class) (ch k plane w : Nat) (rows : List Nat) : List (List Nat) :=
  rows.map fun r => if s.inputBad c ch k plane r w then List.replicate w (midGrey (depthOf c)) else s.inputRow c ch k plane r w

/-- Hint rows of a sheaf; a row that answers with an error response has no valid entry (R447). -/
def State.encHints (s : State) (c : Class) (ch k w : Nat) (rows : List Nat) : List (List HintEnt) :=
  rows.map fun r => if s.inputBad c ch k 3 r w then [] else hintRow (s.inputRow c ch k 3 r w)

/-- A row of the reference picture: each part's columns lie in the buffer of its own pool; the grey root's are mid-grey (R133, R187,
R209, R262). -/
def State.refRow (s : State) (c : Class) (v : Rc) (ch fr1 plane row w : Nat) : List Nat :=
  if fr1 = 0 then List.replicate w (midGrey (depthOf c))
  else
    let split := partLeft c w 1
    (partsOf c).flatMap fun p =>
      let all := match v.bufOf p fr1 with
        | some b => s.reconRow c ch (encPool c * p + b) plane row w
        | none => List.replicate w (midGrey (depthOf c))
      if c.base.lanes = 2 then (if p = 0 then all.take split else all.drop split) else all

/-- Regions of a picture of the pool; the grey root has none (R228, R237). -/
def regionsOf (c : Class) (q : Sess) (v : Rc) (fr1 : Nat) : Regions :=
  let split := if c.base.lanes = 2 then partLeft c q.w 1 else q.w
  match v.pics.find? fun p => p.fr1 == fr1 && fr1 != 0 with
  | some p => { xs := p.xs, split := split, marks := p.marks }
  | none => { split := split }

/-- Regions of the picture being coded once the run's sheaf is coded: in a T0 picture by its own boundaries, otherwise by those of its
reference (R228). -/
def regionsCur (c : Class) (q : Sess) (v : Rc) (r : Run) : Regions :=
  let split := if c.base.lanes = 2 then partLeft c q.w 1 else q.w
  if r.dec.layer = 0 then
    let xs := v.xsAll c q
    { split := split, xs := match r.refresh with
        | some (_, x) => xs.set 0 (bandKey r.part r.sh) x
        | none => xs }
  else { regionsOf c q v r.dec.ref1 with marks := [] }

/-- The inputs of a run's sheaf (R191). -/
def State.encIn (s : State) (c : Class) (r : Run) : EncIn :=
  let q := r.own
  let v := s.rcAt c r.ch r.fr
  let k := slotOf c r.fr
  { hevc := isHevc c, depth := depthOf c, w := q.w, h := q.h, sh := r.sh, left := partLeft c q.w r.part, right := partRight c q.w r.part
    srcY := s.encRows c r.ch k 0 q.w (sheafRows 0 q.h r.sh), srcC := s.encRows c r.ch k 1 q.w (sheafRows 1 q.h r.sh)
    hints := if hintOn c q then s.encHints c r.ch k q.w (sheafRows 3 q.h r.sh) else []
    refY := (List.range q.h).map fun y => s.refRow c v r.ch r.dec.ref1 0 y q.w
    refC := (List.range (q.h / 2)).map fun y => s.refRow c v r.ch r.dec.ref1 1 y q.w
    d := r.dec.dist
    refMv := match v.pics.find? fun p => p.fr1 == r.dec.ref1 && r.dec.ref1 != 0 with
      | some p => p.mv
      | none => []
    curMv := v.curPic.mv
    snap := (v.part r.part).snap.get [] r.sh
    kind := r.skind, qp := r.q, qpTop := if isHevc c then 51 else 63, lam := r.lam
    refresh := r.refresh, cur := regionsCur c q v r, ref := regionsOf c q v r.dec.ref1
    mark := r.mark, delta := c.cod.markDelta, seed := q.seed }

/-! ### Filters (R198) -/

/-- Pre-filter rows of a plane of the sheaf as it was coded: 0 luma, 1 CbCr. -/
def EncIn.preRows (i : EncIn) (t : SheafSt) (plane : Nat) : List (List Nat) :=
  let u := if plane = 0 then 64 else 32
  (range2 (u * i.sh) (u * i.sh + i.rows / (plane + 1))).map fun y => canvasRow t.cv plane y i.left i.right

/-- Rows left unfiltered for the next sheaf: 16 luma, 8 chroma; the last sheaf leaves none (R198). -/
def EncIn.keep (i : EncIn) (plane : Nat) : Nat := if 64 * (i.sh + 1) < i.h then 16 / (plane + 1) else 0

/-- Final rows that a run writes: those carried from the sheaf before and its own, but for the rows it leaves; with their place (R198). -/
def EncIn.finalRows (i : EncIn) (t : SheafSt) (k : ChanRec) (hdr : Elems) (plane : Nat) : List (Nat × Nat × Nat × List Nat) :=
  let carried := if i.sh = 0 then [] else if plane = 0 then k.carryY else k.carryC
  let own := i.preRows t plane
  let out := Config.loopFilter i.hevc plane (if i.sh = 0 then ([], []) else k.filt) (hdr, t.a) (carried ++ own)
  let y0 := (if plane = 0 then 64 else 32) * i.sh - carried.length
  (List.range (carried.length + own.length - i.keep plane)).map fun n => (plane, y0 + n, i.left, (out[n]?).getD [])

/-! ### The units of a run (R186, R187, R199, R236) -/

/-- A unit with its bytes. -/
def withBytes (c : Class) (u : UnitRec) : UnitRec × List Byte := (u, unitBytes c u)

/-- What the core makes of a run's sheaf (R188 to R199, R205, R206, R218, R236). -/
def State.codeRun (s : State) (c : Class) (r : Run) : Coded :=
  let q := r.own
  let v := s.rcAt c r.ch r.fr
  let i := s.encIn c r
  let t := i.coded
  let a := sheafUnit c q v r t.a
  let first := decide (r.sh = 0) && decide (r.part = 0)
  let k := slotOf c r.fr
  let bad (plane : Nat) : Bool := (sheafRows plane q.h r.sh).any fun y => s.inputBad c r.ch k plane y q.w
  { root := if first && r.dec.grey then (rootPre c q ++ rootSheaves c q r.dec).map (withBytes c) else []
    rootN := (rootPre c q).length
    pre := if first then (preUnits c q r.dec r.q).map (withBytes c) else []
    a := withBytes c a
    b := if r.mark.isSome && t.marked then some (withBytes c (sheafUnit c q v r t.b)) else none
    activity := i.activity, cap := t.cap, filled := bad 0 || bad 1
    rows := i.finalRows t (v.part r.part) a.elems 0 ++ i.finalRows t (v.part r.part) a.elems 1
    carryY := (i.preRows t 0).drop (i.rows - i.keep 0), carryC := (i.preRows t 1).drop (i.rows / 2 - i.keep 1)
    filt := (a.elems, t.a), hevc := isHevc c
    mv := motionOf i t.cus, snap := Config.entropyEnd (isHevc c) a }

/-- Every unit that the thresher checks with the sheaf (R200, R201). -/
def Coded.units (o : Coded) : List (UnitRec × List Byte) := o.root ++ o.pre ++ [o.a] ++ o.b.toList

/-- What the thresher's parser reads from the bytes of each unit; `seen` holds, for the first units, what it reads instead where a coder or
the parser is at fault (R200). Assumption log 58, DESIGN CHOICE. -/
def Coded.parsed (o : Coded) (seen : List Parsed) : List Parsed :=
  o.units.mapIdx fun k u => (seen[k]?).getD (Config.parse o.hevc u.2)

/-- The thresher passes the sheaf: what it parses of every unit equals the decision record, each ends as it should, and its framing holds
(R200, R201). -/
def Coded.passes (o : Coded) (seen : List Parsed) : Bool :=
  decide ((o.parsed seen).map (·.unit) = o.units.map (·.1)) && (o.parsed seen).all fun p => p.ends && p.framed

/-- The sheaf-ready notice of a run's sheaf has been sent (R171). -/
def State.noticed (s : State) (c : Class) (r : Run) : Bool :=
  let k := (s.ingOf r.ch).slots.get {} (slotOf c r.fr)
  k.fr1 == r.fr + 1 && k.ready.get false r.sh

/-- A run whose sheaf's rows are ready is coded; otherwise its core waits for the notice (R171). -/
def State.codeReady (s : State) (c : Class) (r : Run) : Run := if s.noticed c r then { r with coded := some (s.codeRun c r) } else r

/-! ### Gleaning cases (R211) -/

/-- Rows of `w` samples of a plane from packed bytes at an offset. -/
def caseRows (d w n off : Nat) (bs : List Byte) : List (List Nat) :=
  (List.range n).map fun y => unpackSamples d w (slice bs (off + y * packLen d w) (packLen d w))

/-- The inputs of an encode case out of its data: the input's rows, the reference's, then QP and λ, then its state (R211). Assumption
log 85, DESIGN CHOICE. -/
def caseIn (g : GleanCase) : EncIn :=
  let d := fmtDepth g.format
  let row := packLen d g.width
  let pic := row * g.height + row * (g.height / 2)
  let st := Config.caseState (g.data.drop (2 * pic + 5))
  { hevc := decide (g.format < 2), depth := d, w := g.width, h := g.height, sh := 0, left := 0, right := g.width
    srcY := caseRows d g.width g.height 0 g.data, srcC := caseRows d g.width (g.height / 2) (row * g.height) g.data
    hints := []
    refY := caseRows d g.width g.height pic g.data, refC := caseRows d g.width (g.height / 2) (pic + row * g.height) g.data
    d := 1, refMv := st.2.foldl (fun t e => t.set none e.1 e.2) [], curMv := [], snap := st.1, kind := .normal, qp := byteAt g.data (2 * pic), qpTop := if g.format < 2 then 51 else 63
    lam := beAt g.data (2 * pic + 1) 4, refresh := none, cur := { split := g.width }, ref := { split := g.width }
    mark := none, delta := 0, seed := 0 }

/-- Slice segment header of an HEVC case: a P slice at address 0 that refers to the picture before it. Assumption log 85, DESIGN CHOICE. -/
def caseElems (qp : Nat) : Elems :=
  [("first_slice_segment_in_pic_flag", 1), ("slice_segment_address", 0), ("slice_type", 1), ("pic_output_flag", 1),
   ("slice_pic_order_cnt_lsb", 1), ("short_term_ref_pic_set_sps_flag", 0), ("num_negative_pics", 1), ("delta_poc", -1),
   ("used_by_curr_pic_flag", 1), ("slice_sao_luma_flag", 1), ("slice_sao_chroma_flag", 1), ("num_ref_idx_l0_active_minus1", 0),
   ("five_minus_max_num_merge_cand", 0), ("slice_qp_delta", (qp : Int) - 26), ("slice_deblocking_filter_disabled_flag", 0),
   ("slice_loop_filter_across_slices_enabled_flag", 1), ("num_entry_point_offsets", 0)]

/-- Blocks of an encode case that are quantised again (R190). -/
def caseCap (g : GleanCase) : Nat := (caseIn g).codeSheaf.cap

/-- The signature that sound hardware gives for an encode case: the CRC-32C of its bitstream, and that of its reconstructed samples as
16-bit little-endian words, luma then chroma (R211). -/
def caseSig (g : GleanCase) : BitVec 64 :=
  let i := caseIn g
  let t := i.codeSheaf
  let u : UnitRec := { type := if i.hevc then 1 else 4, elems := if i.hevc then caseElems i.qp else tileElemsOf 0, blocks := t.a }
  let head := if i.hevc then leBytes 1 (2 * u.type) ++ leBytes 1 1 else leBytes 1 (8 * u.type)
  let words (plane : Nat) : List Byte :=
    ((i.finalRows t {} u.elems plane).flatMap fun e => e.2.2.2).flatMap fun v => leBytes 2 v
  BitVec.ofNat 64 ((crc32c (head ++ Config.unitPayload i.hevc u)).toNat * 2 ^ 32 + (crc32c (words 0 ++ words 1)).toNat)

/-- The signature of a case of GLEAN_GOLDEN as a core with errors `err` computes it. -/
def State.encCaseSig (s : State) (gcase : Nat) (err : BitVec 64) : BitVec 64 :=
  match s.img.glean[gcase]? with
  | some g => caseSig g ^^^ err
  | none => err

/-- Case data in core `k`'s share of the GLEAN region, which the run holds privately (R211, R372). Assumption log 85, DESIGN CHOICE. -/
def State.gleanArea (s : State) (k gcase : Nat) : State :=
  let share := s.regionLen 0x0B 0xFFFF / 41
  match s.img.glean[gcase]? with
  | some g => s.granWrite (s.regionBase 0x0B 0xFFFF + share * k) (g.data.take share)
  | none => s

/-- A case on encode core `k` counts the blocks that it quantises again (R190, R215). -/
def State.caseCapped (s : State) (k gcase : Nat) : State :=
  match s.img.glean[gcase]? with
  | some g => s.encCnt k 4 (caseCap g)
  | none => s

/-- A signature is the one expected of the case (R211). -/
def State.caseMatches (s : State) (gcase : Nat) (sig : BitVec 64) : Bool :=
  match s.img.glean[gcase]? with
  | some g => g.sig == sig
  | none => false

end Sys2Proof.Machine
end

