-- ==== Sys2Proof/Machine/Packetise.lean ====
section
/-!
DEFINITION. The packetiser and the retransmission ring (R187, R205 to R208, R231, R242, R302, R343). Assumption log 58, DESIGN CHOICE.
-/

namespace Sys2Proof.Machine

open Config (UnitRec)

/-! ### Payloads (R205, R206) -/

/-- Lengths of `k` fragments of `n` bytes: they differ by at most one, the longer first (R205). -/
def fragments (n k : Nat) : List Nat := (List.range k).map fun i => n / k + (if i < n % k then 1 else 0)

/-- Bytes cut into pieces of the given lengths. -/
def cutBytes : List Nat → List Byte → List (List Byte)
  | [], _ => []
  | n :: ns, bs => bs.take n :: cutBytes ns (bs.drop n)

/-- First byte of a payload header of RFC 7798: the forbidden bit and upper layer bit of the NAL header's, with a packet type. -/
def nalHead (type b : Nat) : List Byte := leBytes 1 (b / 128 * 128 + 2 * type + b % 2)

/-- Payloads of one HEVC unit: a single NAL unit packet, or fragmentation units of type 49, whose FU header holds S, E and the unit's
type (R205). -/
def hevcUnit (maxPay : Nat) (u : List Byte) : List (List Byte) :=
  let l := u.length
  if l ≤ maxPay then [u]
  else
    let k := ceilDiv (l - 2) (maxPay - 3)
    (cutBytes (fragments (l - 2) k) (u.drop 2)).mapIdx fun i bs =>
      nalHead 49 (byteAt u 0) ++ slice u 1 1 ++
        leBytes 1 ((if i = 0 then 128 else 0) + (if i + 1 = k then 64 else 0) + byteAt u 0 / 2 % 64) ++ bs

/-- Aggregation packet of type 48: its header has the lowest temporal layer of its units, each of which follows its length (R205). -/
def aggregate (us : List (List Byte)) : List Byte :=
  let tid := us.foldl (fun m u => min m (byteAt u 1)) 255
  nalHead 48 0 ++ leBytes 1 tid ++ us.flatMap fun u => beBytes 2 u.length ++ u

/-- Aggregation header of AV1: Z, Y, W; N is set apart (R206). -/
def avHead (z y : Bool) (w : Nat) : List Byte := leBytes 1 ((if z then 128 else 0) + (if y then 64 else 0) + 16 * w)

/-- Payloads of one OBU in packets of its own, with W = 1 (R206). -/
def av1Unit (maxPay : Nat) (u : List Byte) : List (List Byte) :=
  let k := ceilDiv u.length (maxPay - 1)
  (cutBytes (fragments u.length k) u).mapIdx fun i bs => avHead (decide (i ≠ 0)) (decide (i + 1 ≠ k)) 1 ++ bs

/-- A leb128 length field: the `n`-th byte before the last carries 7 bits and the continuation bit. -/
def leb128 : Nat → Nat → List Byte
  | 0, v => leBytes 1 (v % 128)
  | n + 1, v => if v < 128 then leBytes 1 v else leBytes 1 (v % 128 + 128) ++ leb128 n (v / 128)

/-- A coded unit is a temporal delimiter of AV1, which is not sent (R206). -/
def notSent (c : Class) (u : UnitRec) : Bool := !isHevc c && u.type == 2

/-- Payloads of one sheaf's unit. -/
def unitPackets (c : Class) (u : List Byte) : List (List Byte) :=
  if isHevc c then hevcUnit c.cod.maxPay u else av1Unit c.cod.maxPay u

/-- Payloads of the units before sheaf 0, or before a root's sheaves (R205, R206). -/
def prePackets (c : Class) (us : List (UnitRec × List Byte)) : List (List Byte) :=
  let m := c.cod.maxPay
  let us := (us.filter fun u => !notSent c u.1).map (·.2)
  if isHevc c then
    let ap := aggregate us
    if 2 ≤ us.length ∧ ap.length ≤ m then [ap] else us.flatMap (hevcUnit m)
  else
    match us with
    | [a, b] =>
      let both := leb128 3 a.length ++ a ++ b
      if both.length ≤ m - 1 then [avHead false false 2 ++ both] else [a, b].flatMap (av1Unit m)
    | us => us.flatMap (av1Unit m)

/-- Payloads of a grey or join root: its first `k` units precede its sheaves (R187, R231). -/
def rootPackets (c : Class) (k : Nat) (us : List (UnitRec × List Byte)) : List (List Byte) :=
  prePackets c (us.take k) ++ (us.drop k).flatMap fun u => unitPackets c u.2

/-- The N bit of AV1 is set in a session's first packet (R206). -/
def firstPay (c : Class) (sent : Bool) (p : MPkt) : MPkt :=
  if isHevc c || sent then p else { p with pay := leBytes 1 (byteAt p.pay 0 + 8) ++ p.pay.drop 1 }

/-- Packets of one list before the first that differs from the other's (R208). -/
def sharedPre : List (List Byte) → List (List Byte) → Nat
  | a :: as, b :: bs => if a = b then sharedPre as bs + 1 else 0
  | _, _ => 0

/-! ### Fields of a packet (R207, R242) -/

/-- RTP timestamp of a frame (R207). -/
def rtpTime (c : Class) (q : Sess) (fr : Nat) : Nat :=
  let n := framesPerHp c.base.rate
  (fr / n * 9000 + fr % n * 9000 / n + q.tsOff) % 2 ^ 32

/-- RTP timestamp of the root ahead of a frame: in HEVC one less, in AV1 the frame's (R207, R231). -/
def rootTime (c : Class) (q : Sess) (fr : Nat) : Nat :=
  if isHevc c then (rtpTime c q fr + 2 ^ 32 - 1) % 2 ^ 32 else rtpTime c q fr

/-- A packet of a passed sheaf, without its place in the picture, its number and its payload. -/
def basePkt (c : Class) (q : Sess) (d : FrDec) (ch fr sh : Nat) : MPkt :=
  { pid := 0, ch := ch, sess := q.id, seq := 0, ts := rtpTime c q fr, marker := false, pt := q.pt, ssrc := q.ssrc
    tid := d.layer, cycle := d.cycle, join := false, recov := d.recov, cycSeq := d.cycSeq, fr := fr, sh := sh, first := false
    last := false, var := 0, bit := 0 }

/-- Packets of the root ahead of a frame (R187, R207, R231). -/
def rootPkts (c : Class) (q : Sess) (b : MPkt) (ps : List (List Byte)) : List MPkt :=
  ps.mapIdx fun i pay => { b with
    pay := pay, ts := rootTime c q b.fr, tid := 0, cycle := false, recov := false, join := true
    first := decide (i = 0), last := decide (i + 1 = ps.length), marker := isHevc c && decide (i + 1 = ps.length) }

/-- Numbers packets from `seq` on with the marker and LAST on the final one where it ends the picture. -/
def numberPkts (b : MPkt) (seq var : Nat) (fin : Bool) (ps : List (List Byte)) : List MPkt :=
  ps.mapIdx fun i pay => { b with
    pay := pay, seq := (seq + i) % 65536, var := var, marker := fin && decide (i + 1 = ps.length)
    last := fin && decide (i + 1 = ps.length) }

/-- Packets of one part of a sheaf and the next master sequence number: in a marked sheaf the shared ones are written once, and
sequences A and B number from the same number (R207, R208, R302). -/
def sheafPkts (c : Class) (b : MPkt) (seq : Nat) (fin : Bool) (o : Coded) : List MPkt × Nat :=
  let a := unitPackets c o.a.2
  match o.b with
  | some u =>
    let x := unitPackets c u.2
    let k := sharedPre a x
    let b' := { b with bit := (b.fr + b.sh) % 32 }
    let n := seq + (a.take k).length
    (numberPkts b' seq 0 false (a.take k) ++ numberPkts b' n 1 fin (a.drop k) ++ numberPkts b' n 2 fin (x.drop k),
      n + max (a.drop k).length (x.drop k).length)
  | none => (numberPkts b seq 0 fin a, seq + a.length)

/-- Marks the first packet of a picture (R302). -/
def markFirst : List MPkt → List MPkt
  | [] => []
  | p :: ps => { p with first := true } :: ps

/-! ### The retransmission ring (R208, R343) -/

/-- Bytes of the channel's ring: its region of type RETX_RING (R343, R372). Assumption log 61, DEDUCED. -/
def State.ringCap (s : State) (ch : Nat) : Nat :=
  ((s.img.hbm.regions.filter fun r => r.type == 0x03 && r.owner == ch).map fun r => 4096 * r.pages).sum

/-- The newest packets of a list, newest first, that fit in `cap` bytes with a descriptor of 64 bytes each (R343).
Assumption log 61, DEDUCED. -/
def fitRing : Nat → List MPkt → List MPkt
  | _, [] => []
  | cap, p :: ps => if p.len + 64 ≤ cap then p :: fitRing (cap - (p.len + 64)) ps else []

/-- A packet is written: a master packet into its channel's ring and the core's counters, and every packet is signalled to the
packet engine (R208, R215, R231, R343); while the PKT island's clock is stopped none is replicated (R476). Assumption log 61, DEDUCED. -/
def State.writePkt (s : State) (k : Nat) (p : MPkt) : State :=
  let p := { p with pid := s.rep.nextPid }
  let s := { s with rep := { s.rep with nextPid := s.rep.nextPid + 1, sigQ := if s.stopped 6 then s.rep.sigQ else s.rep.sigQ ++ [p] } }
  if p.join then s
  else
    let s := { s with egr := { s.egr with
      rings := s.egr.rings.set [] p.ch (fitRing (s.ringCap p.ch) (p :: s.egr.rings.get [] p.ch))
      newest := s.egr.newest.set 0 p.ch p.seq } }
    (s.encCnt k 8 1).encCnt k 9 p.len

/-! ### A sheaf is released (R187, R205 to R208, R231, R302) -/

/-- The session that a run's packets carry: as it stands while it is the channel's, otherwise as it was (R204). -/
def State.ownSess (s : State) (r : Run) : Sess := if (s.sessOf r.ch).id = r.own.id then s.sessOf r.ch else r.own

/-- The packetiser of core `k` releases a sheaf from what its parts' runs gave, the left part first: a root's packets first
where one is coded ahead of the picture, then the units ahead of sheaf 0, then the parts. -/
def State.packetise (s : State) (c : Class) (k ch : Nat) (outs : List (Run × Coded)) : State :=
  match outs with
  | [] => s
  | (r, o) :: _ =>
    let q := s.ownSess r
    let b := basePkt c q r.dec ch r.fr r.sh
    let root := rootPkts c q b (rootPackets c o.rootN o.root)
    let pre := numberPkts b q.seq 0 false (prePackets c o.pre)
    let fin := decide (r.sh + 1 = sheavesOf q.h)
    let (body, seq) := (outs.zipIdx).foldl (fun (a : List MPkt × Nat) (e : (Run × Coded) × Nat) =>
      let (ps, n) := sheafPkts c b a.2 (fin && decide (e.2 + 1 = outs.length)) e.1.2
      (a.1 ++ ps, n)) ([], q.seq + pre.length)
    let pkts := pre ++ body
    let pkts := root ++ (if r.sh = 0 then markFirst pkts else pkts)
    let pkts := match pkts with
      | p :: ps => firstPay c q.sent p :: ps
      | [] => []
    let s := if (s.sessOf ch).id = q.id then
        s.setSess ch { q with seq := seq % 65536, sent := true, grey := q.grey && decide (r.sh ≠ 0) }
      else s
    pkts.foldl (fun s p => s.writePkt k p) s

end Sys2Proof.Machine
end

