-- ==== Sys2Proof/Machine/Rota.lean ====
section
/-!
DEFINITION. The rota sequencer and the runs of the encode lanes (R122 to R133, R144 to R146, R201 to R213, R447, R448).
-/

namespace Sys2Proof.Machine

open Config (Parsed)

/-! ### Sheaves that are outstanding (R125 to R128, R133) -/

/-- The sheaf of the channel's session that a run of part `p` executes now. -/
def State.runningSheaf (s : State) (ch p : Nat) : Option ShId :=
  laneNums.findSome? fun l => match (s.lane l).run with
    | some r =>
      if r.kind ≠ 2 ∧ r.ch = ch ∧ r.part = p ∧ r.own.id = (s.sessOf ch).id then some { fr := r.fr, sh := r.sh } else none
    | none => none

/-- Sheaves of the session's picture in a frame. -/
def frameSheaves (q : Sess) (fr : Nat) : List ShId := (List.range (sheavesOf q.h)).map fun sh => { fr := fr, sh := sh }

/-- A frame was skipped, by the frame-skip rule or by the ingress unit, so that none of its sheaves becomes pending (R146,
R166). -/
def State.frameGone (s : State) (c : Class) (ch fr : Nat) : Bool :=
  let v := s.ingOf ch
  s.givenUp ch fr || (decide (fr < v.next) && (v.slots.get {} (slotOf c fr)).fr1 != fr + 1)

/-- The sheaf is one of the session's pictures, and its frame is not skipped (R120, R125, R146, R166). Assumption log 52, DEDUCED. -/
def State.ownSheaf (s : State) (c : Class) (ch : Nat) (x : ShId) : Bool :=
  let q := s.sessOf ch
  q.isOpen && q.n0set && decide (q.n0 ≤ x.fr) && decide (x.sh < sheavesOf q.h) && !s.frameGone c ch x.fr

/-- Sheaves of a channel part earlier than `x` whose own runs have not come yet (R123, R125). -/
def State.unissued (s : State) (c : Class) (ch p : Nat) (x : ShId) : List ShId :=
  let v := s.part ch p
  let q := s.sessOf ch
  let from_ := match v.issued with
    | some y => y.fr
    | none => q.n0
  v.owed.filter (fun y => y.lt x && s.ownSheaf c ch y)
    ++ ((range2 from_ (x.fr + 1)).flatMap (frameSheaves q)).filter fun y =>
        y.lt x && v.issued.all (fun z => z.lt y) && s.ownSheaf c ch y

/-- Every sheaf of a channel, of either part, earlier than `x` has passed in both parts: none is pending, waits for its pair, runs, or
has its own run still to come (R125, R133). -/
def State.earlierPassed (s : State) (c : Class) (ch : Nat) (x : ShId) : Bool :=
  (partsOf c).all fun p =>
    let v := s.part ch p
    (s.unissued c ch p x).isEmpty && v.pend.all (fun y => !y.lt x)
      && v.passed.all (fun r => r.own.id != (s.sessOf ch).id || !({ fr := r.fr, sh := r.sh } : ShId).lt x)
      && (match s.runningSheaf ch p with
          | some y => !y.lt x
          | none => true)

/-- LEN of a sheaf's own run (R127). -/
def State.sheafLen (s : State) (c : Class) (ch p : Nat) (x : ShId) : Nat :=
  match s.sheafEnt ch p (x.fr % framesPerHp c.base.rate) x.sh with
  | some (_, e) => e.len
  | none => 0

/-- The oldest pending sheaf of a channel part, if it fits in `len` slots (R127, R128). -/
def State.oldestShort (s : State) (c : Class) (ch p len : Nat) : Option ShId :=
  match (s.part ch p).pend with
  | [] => none
  | x :: _ => if s.sheafLen c ch p x ≤ len then some x else none

/-- The oldest pending sheaf of a channel part, if it fits in `len` slots and every earlier sheaf has passed (R127). -/
def State.oldestFit (s : State) (c : Class) (ch p len : Nat) : Option ShId :=
  (s.oldestShort c ch p len).filter fun x => s.earlierPassed c ch x

/-! ### Frames given up, and channel part restart (R146, R166, R447, R448) -/

/-- Sheaves that wait for room join the pending list (R126, R131, R146). Assumption log 51, DEDUCED. -/
def PartSt.refill (v : PartSt) : PartSt :=
  let n := 128 - v.pend.length
  { v with pend := (v.later.take n).foldl (fun l x => insPend x l) v.pend, later := v.later.drop n }

/-- Only the sheaves that `f` holds of stay pending (R126, R146). -/
def PartSt.keepOnly (v : PartSt) (f : ShId → Bool) : PartSt :=
  ({ v with pend := v.pend.filter f, later := v.later.filter f, late := v.late.filter f, owed := v.owed.filter f } : PartSt).refill

/-- Frames `a` to below `b` of a channel are given up: their slots are free, none of their sheaves stays pending or waits for
its pair, and the ingress unit opens none of them (R146, R166, R448). An open frame among them is open no more, without closing or
filling its sheaves. Assumption log 106, DEDUCED. -/
def State.giveUp (s : State) (ch a b : Nat) : State :=
  let inside (f : Nat) : Bool := decide (a ≤ f ∧ f < b)
  let v := s.ingOf ch
  let s := s.setIng ch { v with
    isOpen := v.isOpen && !inside v.fr, skipFrom := a, skipTo := b
    next := if inside v.next then b else v.next
    slots := v.slots.remap {} fun _ k => if k.fr1 ≠ 0 ∧ inside (k.fr1 - 1) then { k with given := true } else k }
  [0, 1].foldl (fun s p =>
    let t := s.part ch p
    s.setPart ch p (({ t with passed := t.passed.filter fun r => !inside r.fr } : PartSt).keepOnly fun x => !inside x.fr)) s

/-- Every delivery of a channel returns to held, without log records, so that no packet of the new root is ever resolved (R231, R305,
R448). Assumption log 56, DEDUCED. -/
def State.holdChain (s : State) (ch : Nat) : State :=
  (s.chain ch).foldl (fun s h =>
    let b := s.body h
    if b.st = .active then s.setBody h { b with st := .held, root := false, logHead := 0, logCount := 0, log := [] } else s) s

/-- The channel state as SESSION_OPEN leaves it, but for the debt, and for the host target and feedback, which are not part of it
(R448). Assumption log 56, DEDUCED. -/
def Rc.restart (v : Rc) : Rc :=
  { host := v.host, fb := v.fb, rtcpIdx := v.rtcpIdx
    recs := v.recs.remap {} fun _ k => { c0 := { led := { debt := k.cur.led.debt } } }, debtSat := v.debtSat }

/-- A channel part restart (R448): every frame that has begun and not been completed is skipped, the channel state is reset, a
grey root is coded ahead of the next frame, and every delivery is held. Both parts of a two-lane channel restart, since they
share the picture. Assumption log 56, DEDUCED. -/
def State.partRestart (s : State) (ch fr : Nat) : State :=
  let after := [0, 1].foldl (fun n p => match (s.part ch p).issued with
    | some y => max n (y.fr + 1)
    | none => n) (fr + 1)
  let s := ((s.giveUp ch fr after).addSkipped ch (after - fr)).setRc ch (s.rcOf ch).restart
  let s := s.setSess ch { s.sessOf ch with grey := true, n0 := after }
  (s.holdChain ch).raise srcChRestart

/-- A run of encode core `k` ends by an error response (R447): without commit, as cause 1 of R203; the second such end in a row of
the same sheaf restarts the channel part. -/
def State.encErrorEnd (s : State) (k : Nat) : State :=
  match s.laneOfCore k with
  | none => s
  | some l =>
    match (s.lane l).run with
    | none => s
    | some r =>
      let x : ShId := { fr := r.fr, sh := r.sh }
      let again := (s.part r.ch r.part).errRun == some x
      let s := s.dropRun l 3
      if r.kind = 2 ∨ !s.runSess r then s
      else if again then s.partRestart r.ch r.fr
      else s.setPart r.ch r.part { s.part r.ch r.part with errRun := some x }

/-! ### Fetch (R188, R401) -/

/-- The firewall's verdict on the fetch of a run's reference windows, which barn DMA reads under the core's master ID; the grey root is read
from nowhere (R103, R187, R401). Assumption log 58, DESIGN CHOICE. -/
def State.fetchVerdict (s : State) (c : Class) (r : Run) : Verdict :=
  match (s.rcAt c r.ch r.fr).bufOf r.part r.dec.ref1 with
  | some b => if r.dec.ref1 = 0 then .allow else
    s.fabVerdict {
      master := r.core, addr := s.reconAddr c r.ch (encPool c * r.part + b) 0 0, len := reconBytes c, write := false, data := [] }
  | none => .allow

/-- A violation by the fetch of core `k`: it is recorded, the core is frozen and its run ends (R105, R401, R447). -/
def State.fetchViolates (s : State) (k kind : Nat) : State :=
  let s := { s with fab := { s.fab with
    frozen := s.fab.frozen.set false k true, violCnt := min 255 (s.fab.violCnt + 1), violKind := kind, violMaster := k } }
  ((s.fabCancel k).encErrorEnd k).raiseFrom (freezeSrc k) (unitEnc k)

/-- Barn DMA leaves a run's reference windows in the scratchpad of the core's barn (R188, R401). Assumption log 58, DESIGN CHOICE. -/
def State.barnFill (s : State) (c : Class) (r : Run) : State :=
  let rows := (List.range r.own.h).map fun y => s.refRow c (s.rcAt c r.ch r.fr) r.ch r.dec.ref1 0 y r.own.w
  (Config.barnBytes r.core rows).foldl (fun s e =>
    if e.1 < barnSpadSize then s.chipWrite (barnSpad (r.core / 4) + e.1) [e.2] else s) s

/-! ### Lanes -/

/-- A run with nothing to execute (R150). Assumption log 53, DEDUCED. -/
def State.fallow (s : State) (l : Nat) : State := s.setLane l { s.lane l with nFallow := (s.lane l).nFallow + 1 }

/-- The core that executes the lane's next run: bound, not frozen, its island and its barn's running (R124, R125, R474).
Assumption log 53, DEDUCED. -/
def State.laneCore (s : State) (l : Nat) : Option Nat := (s.lane l).bound.filter fun k => s.encReady k

/-- Lane `l` holds a run whose core codes it once its sheaf's rows are ready; its references are fetched
and BINCAP and MARKED count then (R171, R188, R190, R199, R215, R401). -/
def State.holdRun (s : State) (c : Class) (l : Nat) (r : Run) : State :=
  let r := s.codeReady c r
  let s := s.setLane l { s.lane l with run := some r }
  match r.coded with
  | some o =>
    match s.fetchVerdict c r with
    | .violation kind => s.fetchViolates r.core kind
    | _ =>
      let s := (s.barnFill c r).encCnt r.core 4 o.cap
      if o.b.isSome then s.encCnt r.core 5 1 else s
  | none => s

/-- Core `k` of lane `l` starts a run of a sheaf (R124, R150, R213, R215). -/
def State.startRun (s : State) (c : Class) (l k ch p kind : Nat) (x : ShId) : State :=
  let r := s.planRun c k ch p kind x
  let v := s.lane l
  let s := s.setLane l { v with nRun := v.nRun + 1, nCatch := if kind = 1 then v.nCatch + 1 else v.nCatch }
  ((s.setEnc k { s.encOf k with ch := ch, sh := x.sh, part := partCode c p, act := 1 }).encCnt k 0 1).holdRun c l r

/-- Runs that wait for a sheaf-ready notice are coded where it has been sent (R171). -/
def State.wakeRuns (s : State) : State :=
  laneNums.foldl (fun s l => match (s.lane l).run with
    | some r =>
      match s.cls r.ch with
      | some c => if r.kind ≠ 2 ∧ r.coded.isNone then s.holdRun c l r else s
      | none => s
    | none => s) s

/-- SHEAF_READY: the fill of a sheaf that closed by its due time completes, and its sheaf-ready notice is sent; a core that waits for
it begins to code (R167, R171). -/
def execSheafReady (ch frame sheaf : Nat) (s : State) : Res :=
  .next (match s.cls ch with
    | none => s
    | some c => (s.noteReady c ch frame sheaf).wakeRuns)

/-- Position of an encode case in GLEAN_GOLDEN: the m-th run of a core uses encode case m mod E (R211). -/
def gleanCaseAt (cases : List GleanCase) (kind m : Nat) : Nat :=
  let idx := (List.range cases.length).filter fun i => match cases[i]? with
    | some g => g.kind == kind
    | none => false
  (idx[m % idx.length]?).getD 0

/-- The end of a gleaning case on encode core `k`: LAST_MATCH, CASE and SIG; a mismatch counts and raises ENC_GLEAN_MISS (R211,
R214, R215). -/
def State.gleanEnd (s : State) (k gcase : Nat) (sig : Option (BitVec 64)) (ok : Bool) : State :=
  let e := s.encOf k
  let s := s.setEnc k { e with act := 0, gMatch := ok, gCase := gcase, gSig := sig.getD e.gSig }
  if ok then s else (s.encCnt k 7 1).raise (srcGlean k)

/-- The lane's run is abandoned (R129): counted, its sheaf pending again, ROTA_OVERRUN raised; a gleaning run is a gleaning
mismatch too, whose signature no run computed. Assumption log 51, DEDUCED. -/
def State.overrun (s : State) (l : Nat) : State :=
  match (s.lane l).run with
  | none => s
  | some r =>
    let s := s.dropRun l 3
    let s := s.setLane l { s.lane l with nOver := (s.lane l).nOver + 1 }
    let s := s.raise (srcOverrun r.core)
    if r.kind = 2 then s.gleanEnd r.core r.gcase none false else s

/-! ### Frame skips (R131, R146, R166) -/

/-- A session none of whose frames has begun starts with the frame at which it resumes (R125, R146). Assumption log 57, DEDUCED. -/
def State.moveFirst (s : State) (ch a b : Nat) : State :=
  let q := s.sessOf ch
  if q.n0 = a then s.setSess ch { q with n0 := b } else s

/-- The frame-skip rule skips frames `a` to below `b`: counted, and ROTA_BACKLOG raised, where no frame has to be skipped too (R130,
R131, R146). -/
def State.skipFrames (s : State) (ch a b : Nat) : State :=
  (if a < b then ((s.giveUp ch a b).moveFirst ch a b).addSkipped ch (b - a) else s).raise srcBacklog

/-- A sheaf that did not run in its own run becomes pending. At a full list it is not appended, and the frame-skip rule applies: a frame
whose first sheaf it is is skipped; a frame that has begun is completed through the list, which its sheaves join as there is room
(R126, R130, R131, R146). Assumption log 51, DEDUCED. -/
def State.appendPend (s : State) (ch p : Nat) (x : ShId) : State :=
  let v := s.part ch p
  if v.pend.length < 128 then s.putPend ch p x
  else if x.sh = 0 then s.skipFrames ch x.fr (x.fr + 1)
  else (s.setPart ch p { v with later := insPend x v.later }).skipFrames ch (x.fr + 1) (x.fr + 1)

/-! ### SHEAF runs (R124 to R127) -/

/-- The own run of a sheaf has neither started nor been passed over. -/
def PartSt.fresh (v : PartSt) (x : ShId) : Bool := v.issued.all (fun y => y.lt x) || v.owed.contains x

/-- Notes that the own run of a sheaf has started or was passed over. Assumption log 52, DEDUCED. -/
def State.markIssued (s : State) (c : Class) (ch p : Nat) (x : ShId) : State :=
  let v := s.part ch p
  if v.issued.all fun y => y.lt x then s.setPart ch p { v with owed := s.unissued c ch p x, issued := some x }
  else s.setPart ch p { v with owed := v.owed.filter fun y => y ≠ x }

/-- A SHEAF run of `len` slots on lane `l` starts (R125, R127). One whose own sheaf has had its run, or belongs to a frame before the
session's first, records nothing of that sheaf. Assumption logs 51 and 52, DEDUCED. -/
def State.sheafRun (s : State) (c : Class) (l ch p len : Nat) (x : ShId) : State :=
  let q := s.sessOf ch
  let own := s.ownSheaf c ch x && (s.part ch p).fresh x
  let s := s.markIssued c ch p x
  if !q.isOpen || !q.n0set || decide (x.fr < q.n0) || decide (sheavesOf q.h ≤ x.sh) then s.fallow l
  else
    match s.laneCore l, s.oldestFit c ch p len with
    | some k, some y => (if own then s.appendPend ch p x else s).startRun c l k ch p 0 y
    | some k, none =>
      if own && (s.part ch p).pend.isEmpty && s.earlierPassed c ch x then s.startRun c l k ch p 0 x
      else (if own then s.appendPend ch p x else s).fallow l
    | none, _ => (if own then s.appendPend ch p x else s).fallow l

/-- The sequencer issues entries: the rota has started, the device is in RUN, and device time is not behind a step (R144,
R145). -/
def State.issues (s : State) (slotAbs : Nat) : Bool :=
  s.rota.started && s.glb.st == .run && decide (s.rota.notBefore ≤ slotAbs * slotTime)

/-- Entry `idx` of a lane. -/
def State.laneEnt (s : State) (l idx : Nat) : Option RunEnt :=
  (s.img.encRota.findSome? fun (k, es) => if k = l then some es else none).bind fun es => es[idx]?

/-- Part of a PART code (R122). -/
def partOfCode (k : Nat) : Nat := if k = 2 then 1 else 0

/-- SHEAF_RUN_START: entry `idx` of a lane starts in hyperperiod `hp`. A run in progress on the lane ends first (R145); a reserved
KIND or PART is fallow, and LEN 0 occupies no slot, so that it counts as no run (R122; log 53, DEDUCED). A sheaf's own run starts once
(R145): an entry that comes again after a step back runs no sheaf of its own. Assumption log 6, DESIGN CHOICE. -/
def execSheafRunStart (lane idx hp : Nat) (s : State) : Res :=
  .next (match s.laneEnt lane idx with
    | none => s
    | some e =>
      let at_ := 12500 * hp + e.start
      if !s.issues at_ || e.len == 0 || e.kind == 1 || e.kind == 2 then s
      else
        match s.cls e.ch with
        | some c =>
          let x : ShId := { fr := hp * framesPerHp c.base.rate + e.frame, sh := e.sheaf }
          let p := partOfCode e.part
          let again := !(s.part e.ch p).fresh x && decide (at_ * slotTime ≤ s.time.ptp)
          let s' := (s.reach at_).overrun lane
          if !isSheafEnt e then s'.fallow lane else if again then s else s'.sheafRun c lane e.ch p e.len x
        | none => ((s.reach at_).overrun lane).fallow lane)

/-! ### CATCHUP and GLEAN runs (R124, R128, R135, R211) -/

/-- Channel parts whose SHEAF runs lie on a lane. -/
def State.laneParts (s : State) (l : Nat) : List (Nat × Nat) :=
  (List.range 192).flatMap fun ch => [0, 1].filterMap fun p => if s.laneOfPart ch p = some l then some (ch, p) else none

/-- Due time of a pending sheaf in slots, for its age (R128). -/
def State.sheafAge (s : State) (ch : Nat) (x : ShId) : Nat := ((s.dueSlot ch x.fr x.sh).getD 0 + 12500).toNat

/-- The pending sheaf that a CATCHUP run of `len` slots executes: the oldest by due time, then by channel, then by part; the ordering
conditions of R125 are none of its own (R128). Assumption log 87, DEDUCED. -/
def State.catchupPick (s : State) (l len : Nat) : Option (Class × Nat × Nat × ShId) :=
  minBy (fun e => s.sheafAge e.2.1 e.2.2.2) ((s.laneParts l).filterMap fun (ch, p) =>
    match s.cls ch with
    | none => none
    | some c => (s.oldestShort c ch p len).map fun x => (c, ch, p, x))

/-- The slot of device time. -/
def State.nowSlot (s : State) : Nat := s.time.ptp / slotTime

/-- CATCHUP_RUN_START: a CATCHUP run of a lane executes the oldest fitting pending sheaf of its channel parts, or is fallow
(R128). -/
def execCatchupRunStart (lane idx : Nat) (s : State) : Res :=
  .next (match s.laneEnt lane idx with
    | none => s
    | some e =>
      if !s.issues s.nowSlot || e.len == 0 || e.kind != 1 then s
      else
        let s := s.overrun lane
        if e.part = 3 then s.fallow lane
        else
          match s.laneCore lane, s.catchupPick lane e.len with
          | some k, some (c, ch, p, x) => s.startRun c lane k ch p 1 x
          | _, _ => s.fallow lane)

/-- Core `k` starts the next encode case of GLEAN_GOLDEN: the case's index, and the core with the run counted for m (R211). -/
def State.nextGlean (s : State) (k : Nat) : Nat × State :=
  let e := s.encOf k
  (gleanCaseAt s.img.glean 0 e.gleans, s.setEnc k { e with gleans := e.gleans + 1 })

/-- GLEAN_RUN_START: the lane's core encodes its next case; on an unbound lane the run is skipped, that is fallow (R135, R150,
R211). Assumption log 53, DEDUCED. -/
def execGleanRunStart (lane idx : Nat) (s : State) : Res :=
  .next (match s.laneEnt lane idx with
    | none => s
    | some e =>
      if !s.issues s.nowSlot || e.len == 0 || e.kind != 2 then s
      else
        let s := s.overrun lane
        if e.part = 3 then s.fallow lane
        else
          match s.laneCore lane with
          | none => s.fallow lane
          | some k =>
            let (g, s) := s.nextGlean k
            let v := s.lane lane
            let r : Run := { kind := 2, core := k, ch := 0, part := 0, fr := 0, sh := 0, gcase := g }
            let s := s.setLane lane { v with run := some r, nRun := v.nRun + 1 }
            ((s.gleanArea k g).setEnc k { s.encOf k with act := 2 }).encCnt k 6 1)

/-! ### How runs end (R129, R201 to R204, R211) -/

/-- RUN_OVERRUN (R129). -/
def execRunOverrun (lane : Nat) (s : State) : Res := .next (s.overrun lane)

/-- ROTA_BACKLOG: a sheaf still pending one frame period after its due time, once for each (R130). -/
def execRotaBacklog (ch part frame sheaf : Nat) (s : State) : Res :=
  .next (
    let v := s.part ch part
    let x : ShId := { fr := frame, sh := sheaf }
    if v.pend.contains x && !v.late.contains x then (s.setPart ch part { v with late := x :: v.late }).raise srcBacklog else s)

/-- A sheaf's run fails its check: counted, without commit, and its source raised (R201, R202). -/
def State.checkFail (s : State) (l verdict cnt src : Nat) : State :=
  match (s.lane l).run with
  | none => s
  | some r =>
    if r.kind = 2 then s
    else ((s.dropRun l verdict).encCnt r.core cnt 1).raise (src + r.core)

/-- The thresher fails the lane's sheaf (R201). -/
def State.threshFailed (s : State) (l : Nat) : State := s.checkFail l 2 2 0x000

/-- The core has coded the lane's sheaf, and the thresher's re-parse differs from the decision record or fails a check (R200, R201). -/
def Run.fails (r : Run) (parsed : List Parsed) : Bool :=
  match r.coded with
  | some o => !o.passes parsed
  | none => false

/-- THRESH_FAIL: the thresher, from what it parsed of the run's units, fails the sheaf (R200, R201, R213). Where every comparison is
equal and every check holds there is no failure. -/
def execThreshFail (lane : Nat) (s : State) (parsed : List Parsed := []) : Res :=
  .next (match (s.lane lane).run with
    | none => s
    | some r => if r.fails parsed then s.threshFailed lane else s)

/-- RESIDUE_MISMATCH: an arithmetic step of the lane's run gives a value whose residue modulo 7 differs from the one carried (R202,
R213). -/
def execResidueMismatch (lane : Nat) (s : State) (value : Int := 0) (residue : Nat := 0) : Res :=
  .next (if value % 7 = residue then s else s.checkFail lane 3 3 0x020)

/-- GLEAN_RESULT: a gleaning run ends; a thresher failure or residue mismatch, or a signature unequal to SIG is a mismatch; `err` are the
bits in which the core's signature differs from that of sound hardware (R211, R214). -/
def execGleanResult (lane : Nat) (err : BitVec 64) (failed : Bool) (s : State) : Res :=
  .next (match (s.lane lane).run with
    | none => s
    | some r =>
      if r.kind ≠ 2 then s
      else
        let sig := s.encCaseSig r.gcase err
        let s := s.caseCapped r.core r.gcase
        (s.setLane lane { s.lane lane with run := none }).gleanEnd r.core r.gcase (some sig) (s.caseMatches r.gcase sig && !failed))

/-! ### SHEAF_PASS (R203 to R210) -/

/-- The last sheaf of a picture has been released: the reference set moves on, and the buffers that the frame read from a bound
context are let go (R12, R209, R225, R239). -/
def State.pictureDone (s : State) (c : Class) (r : Run) : State :=
  (s.setRc r.ch ((s.rcOf r.ch).picturePassed c (s.sessOf r.ch) r.fr r.dec.layer)).bindDone r.ch r.fr

/-- The run's session is still the channel's, or was closed last (R203, R204). -/
def State.ownRun (s : State) (r : Run) : Bool := (s.sessOf r.ch).id == r.own.id

/-- A sheaf has passed in every part: it is released, and its ring slot holds one sheaf fewer (R133, R166, R208). -/
def State.releaseSheaf (s : State) (c : Class) (k : Nat) (outs : List Run) : State :=
  match outs with
  | [] => s
  | r :: _ =>
    let s := s.packetise c k r.ch (outs.filterMap fun r => r.coded.map fun o => (r, o))
    let v := s.ingOf r.ch
    let i := slotOf c r.fr
    let slot := v.slots.get {} i
    let s := if slot.fr1 = r.fr + 1 then s.setIng r.ch { v with slots := v.slots.set {} i { slot with left := slot.left - 1 } } else s
    if r.sh + 1 = sheavesOf r.own.h ∧ s.ownRun r then s.pictureDone c r else s

/-- Columns of a row on each side of the edge between the parts that deblocking reaches. -/
def edgeCols : Nat := 8

/-- The edge between the parts of a two-lane picture is filtered once both have passed: the final rows that both wrote, on 8 samples of
each side, with the units of both (R182, R198). Assumption log 58, DESIGN CHOICE. -/
def State.joinParts (s : State) (c : Class) (a b : Run) : State :=
  match a.coded, b.coded, (s.rcOf a.ch).bufOf 0 (a.fr + 1), (s.rcOf a.ch).bufOf 1 (a.fr + 1) with
  | some oa, some ob, some ba, some bb =>
    let x := partLeft c a.own.w 1
    oa.rows.foldl (fun s (plane, row, _, _) =>
      if !ob.rows.any fun e => e.1 == plane && e.2.1 == row then s
      else
        let l := ((s.reconRow c a.ch ba plane row x).drop (x - edgeCols)).take edgeCols
        let r := ((s.reconRow c a.ch (encPool c + bb) plane row (x + edgeCols)).drop x).take edgeCols
        let (l, r) := Config.partEdge plane oa.a.1 ob.a.1 l r
        (s.reconWrite c a.ch ba plane row (x - edgeCols) (l.take edgeCols)).reconWrite c a.ch (encPool c + bb) plane row x (r.take edgeCols)) s
  | _, _, _, _ => s

/-- Two runs executed the two parts of one sheaf. -/
def Run.sameSheaf (a b : Run) : Bool := a.fr == b.fr && a.sh == b.sh && a.own.id == b.own.id

/-- A part's sheaf has passed: a one-lane channel releases it; the other part's same sheaf, if it has passed, is released with it,
left before right; otherwise it waits, unless its session has closed (R133, R204, R208). -/
def State.passPart (s : State) (c : Class) (r : Run) : State :=
  if c.base.lanes ≠ 2 then s.releaseSheaf c r.core [r]
  else
    let t := s.part r.ch (1 - r.part)
    match t.passed.find? r.sameSheaf with
    | some e =>
      let s := s.setPart r.ch (1 - r.part) { t with passed := t.passed.filter fun e => !r.sameSheaf e }
      let (a, b) := if r.part = 0 then (r, e) else (e, r)
      (s.joinParts c a b).releaseSheaf c r.core [a, b]
    | none =>
      if s.runSess r then
        let u := s.part r.ch r.part
        s.setPart r.ch r.part { u with passed := u.passed ++ [r] }
      else s

/-- The final samples of a run go to the buffer of its part's pool that reconstructs its picture (R198, R209, R262). -/
def State.writeRecon (s : State) (c : Class) (r : Run) (o : Coded) : State :=
  match (s.rcOf r.ch).bufOf r.part (r.fr + 1) with
  | some b => o.rows.foldl (fun s (plane, row, col, vs) => s.reconWrite c r.ch (encPool c * r.part + b) plane row col vs) s
  | none => s

/-- The sheaf's input rows had to be filled as they were read: it carries FILLED (R447). -/
def State.noteFilled (s : State) (c : Class) (r : Run) (o : Coded) : State :=
  let v := s.ingOf r.ch
  let i := slotOf c r.fr
  let slot := v.slots.get {} i
  if o.filled && slot.fr1 == r.fr + 1 then
    s.setIng r.ch { v with slots := v.slots.set {} i { slot with filled := slot.filled.set false r.sh true } }
  else s

/-- A passed run commits: the channel state, its picture's samples, its events; its sheaf leaves the pending list (R126, R203, R210,
R215, R248). -/
def State.commitRun (s : State) (c : Class) (r : Run) (o : Coded) : State :=
  let v := s.part r.ch r.part
  let s := s.setPart r.ch r.part
    { v.keepOnly fun x => !(x.fr == r.fr && x.sh == r.sh) with errRun := none }
  let v := s.rcOf r.ch
  let s := (s.setRc r.ch { v.commit c (s.sessOf r.ch) r o with old := v.runCopy (s.sessOf r.ch).seq }).rcEvents r
  (((s.writeRecon c r o).storeRec c r.ch r.part).noteFilled c r o).encCnt r.core 1 1

/-- The lane's run ends with a pass: committed while its session is the channel's, and packetised (R203, R204, R208, R213). -/
def State.passRun (s : State) (c : Class) (l : Nat) (r : Run) (o : Coded) : State :=
  let s := (s.setLane l { s.lane l with run := none }).coreIdle r.core (some 1)
  if !s.ownRun r then s.passPart c r
  else if s.frameGone c r.ch r.fr then s
  else (s.commitRun c r o).passPart c r

/-- SHEAF_PASS: the thresher's verdict on the lane's sheaf from what it parsed of every unit. A pass is committed and its packets are
written; where the re-parse differs from the decision record or a check fails, the sheaf fails as in THRESH_FAIL (R126, R200, R201,
R203 to R210, R213, R215). A run that waits for its sheaf-ready notice has no verdict (R171). Assumption log 1, DESIGN CHOICE. -/
def execSheafPass (lane : Nat) (parsed : List Parsed) (s : State) : Res :=
  .next (match (s.lane lane).run with
    | none => s
    | some r =>
      match s.cls r.ch, r.coded with
      | some c, some o =>
        if r.kind = 2 then s
        else if o.passes parsed then s.passRun c lane r o
        else s.threshFailed lane
      | _, _ => s)

/-! ### The start of the rota (R144) -/

/-- The rota is started, and its count of hyperperiods begins (R144, R147). -/
def State.rotaOn (s : State) : State := { s with rota := { s.rota with started := true, hpCnt := 0 } }

/-- ROTA_START: at the next hyperperiod boundary, in RUN, once LOCK has read locked or with START_NOLOCK set; the sessions that are
open know their first frames (R125, R144, R147). -/
def execRotaStart (s : State) : Res :=
  .next (if s.glb.st == .run && !s.rota.started && (s.ptp.wasLocked || s.rota.startNoLock) then
    let s := (s.timeTo (ceilDiv s.time.ptp hpTime * hpTime)).rotaOn
    ((List.range 192).filter fun ch => (s.sessOf ch).isOpen).foldl (fun s ch => s.beginSession ch true) s
  else s)

/-! ### Clock steps (R143, R145, R146, R333, R494) -/

/-- Gate entry in force on a port at a device time in ns (R333). -/
def gateAt (g : GateImg) (ns : Nat) : Nat :=
  let pos := if g.cycleNs = 0 then 0 else (ns + g.cycleNs - g.phaseNs % g.cycleNs) % g.cycleNs
  let rec go : Nat → Nat → List GateEnt → Nat
    | i, _, [] => i - 1
    | i, acc, e :: es => if pos < acc + e.interval then i else go (i + 1) (acc + e.interval) es
  go 0 0 g.ents

/-- Gate list of a port. -/
def State.gateImg (s : State) (p : Nat) : GateImg := (s.img.gates[p]?).getD {}

/-- Gates of an entry. -/
def GateImg.gatesOf (g : GateImg) (k : Nat) : Nat := ((g.ents[k]?).getD {}).gates

/-- A class whose gate opens begins a new window: heads that waited wait anew (R334). -/
def State.freshWindows (s : State) (p old new : Nat) : State :=
  let opens (k : Nat) : Bool :=
    k / 1024 == p && bitOf new (s.queueCfg p (k % 1024)).cls && !bitOf old (s.queueCfg p (k % 1024)).cls
  { s with egr := { s.egr with waited := s.egr.waited.drop opens } }

/-- The gate entry in force follows device time (R333). -/
def State.gatesFollow (s : State) : State :=
  let at_ (p : Nat) : Nat := match s.img.gates[p]? with
    | some g => gateAt g s.ptpNs
    | none => 0
  { s with egr := { s.egr with gateEnt := (s.egr.gateEnt.set 0 0 (at_ 0)).set 0 1 (at_ 1) } }

/-- The gate entries in force follow device time (R333). -/
def State.gatesNow (s : State) : State :=
  let g (s : State) (p : Nat) : Nat := (s.gateImg p).gatesOf (s.egr.gateEnt.get 0 p)
  let t := s.gatesFollow
  (t.freshWindows 0 (g s 0) (g t 0)).freshWindows 1 (g s 1) (g t 1)

/-- START of a sheaf's own run, in slots (R114, R122). -/
def State.startSlot (s : State) (c : Class) (ch p : Nat) (x : ShId) : Option Nat :=
  let n := framesPerHp c.base.rate
  (s.sheafEnt ch p (x.fr % n) x.sh).map fun (_, e) => 12500 * (x.fr / n) + e.start

/-- Sheaves among `xs` of a channel part that have not been issued are not issued any more, and become pending (R145, R146). -/
def State.passSheaves (s : State) (c : Class) (ch p : Nat) (xs : List ShId) : State :=
  xs.foldl (fun s x =>
    if (s.part ch p).fresh x && s.ownSheaf c ch x then (s.markIssued c ch p x).appendPend ch p x else s) s

/-- Sheaves of a channel part whose runs start from time `t0` to before `t1` (R145). -/
def State.startsIn (s : State) (c : Class) (ch p t0 t1 : Nat) : List ShId :=
  let n := framesPerHp c.base.rate
  ((range2 (n * (t0 / hpTime)) (n * (t1 / hpTime + 1))).flatMap (frameSheaves (s.sessOf ch))).filter fun x =>
    match s.startSlot c ch p x with
    | some a => decide (t0 ≤ a * slotTime ∧ a * slotTime < t1)
    | none => false

/-- Due times of a channel that lie from `t0` to before `t1` arrive, in order; `open_` keeps to the sheaves of that frame (R145,
R146). -/
def State.passDues (s : State) (c : Class) (ch t0 t1 : Nat) (open_ : Option Nat) : State :=
  let q := s.sessOf ch
  let n := framesPerHp c.base.rate
  let frames := match open_ with
    | some f => [f]
    | none => range2 (n * (t0 / hpTime)) (n * (t1 / hpTime + 2))
  (frames.flatMap fun fr => (List.range (sheavesOf q.h)).map fun sh => (fr, sh)).foldl (fun s (fr, sh) =>
    match s.dueSlot ch fr sh with
    | some d => if (t0 : Int) ≤ d * slotTime ∧ d * slotTime < (t1 : Int) then s.dueArrive ch fr sh else s
    | none => s) s

/-- A step of at most 2 ms forward, for one channel (R145). Assumption log 54, DEDUCED. -/
def State.smallStep (s : State) (t0 t1 ch : Nat) : State :=
  match s.cls ch with
  | none => s
  | some c =>
    if !(s.sessOf ch).n0set then s
    else
      let s := s.passDues c ch t0 t1 none
      (partsOf c).foldl (fun s p => s.passSheaves c ch p (s.startsIn c ch p t0 t1)) s

/-- The first frame, not below `lo`, whose sheaf-0 run starts at or after time `t` (R146). -/
def State.resumeFrame (s : State) (c : Class) (ch lo t : Nat) : Nat :=
  let n := framesPerHp c.base.rate
  let a := max lo (n * (t / hpTime))
  ((range2 a (a + 2 * n + 1)).find? fun fr => match s.startSlot c ch 0 { fr := fr, sh := 0 } with
    | some k => decide (t ≤ k * slotTime)
    | none => false).getD a

/-- A step of more than 2 ms from `t0` to `t1`, for one channel: the frame that has begun is completed through the pending list,
the frames up to the one at which the channel resumes are skipped, and the ingress unit closes what the step passed over and
opens the frame at which the channel resumes where its opening due time was passed (R146, R494). Assumption log 54, DEDUCED. -/
def State.bigStep (s : State) (t0 t1 ch : Nat) : State :=
  match s.cls ch with
  | none => s
  | some c =>
    let q := s.sessOf ch
    if !q.n0set then s
    else
      let lo := (partsOf c).foldl (fun n p => match (s.part ch p).issued with
        | some y => max n (y.fr + 1)
        | none => n) q.n0
      let hi := s.resumeFrame c ch lo t1
      let v := s.ingOf ch
      let s := if v.isOpen then (List.range (sheavesOf q.h)).foldl (fun s sh =>
          match s.dueSlot ch v.fr sh with
          | some d =>
            if (t0 : Int) ≤ d * slotTime ∧ d * slotTime < (t1 : Int) ∧ (s.ingOf ch).isOpen ∧ !(s.ingOf ch).closed.get false sh
            then s.closeSheaf c ch sh true else s
          | none => s) s else s
      let s := (partsOf c).foldl (fun s p => match (s.part ch p).issued with
        | some y => s.passSheaves c ch p (frameSheaves q y.fr)
        | none => s) s
      let s := s.skipFrames ch lo hi
      let passed := match s.dueSlot ch (hi - 1) (sheavesOf q.h - 1) with
        | some d => decide ((t0 : Int) ≤ d * slotTime ∧ d * slotTime < (t1 : Int))
        | none => false
      if passed && decide ((s.ingOf ch).next ≤ hi) then (s.closeRest c ch).openFrame c ch hi else s

/-- The registers of a step of Δ = `d` ns (R143, R148). -/
def State.stepTaken (s : State) (d : Int) : State :=
  { s with ptp := { s.ptp with stepPend := none, stepped := true, stepLast := sat32 d } }

/-- What a started rota does with a step of Δ = `d` ns from time `t0` to time `t1` (R145, R146). -/
def State.stepRota (s : State) (d : Int) (t0 t1 : Nat) : State :=
  let chans := (List.range 192).filter fun ch => (s.sessOf ch).isOpen
  if !s.rota.started then s
  else if 2000000 < d.natAbs then chans.foldl (fun s ch => s.bigStep t0 t1 ch) s
  else if 0 < d then chans.foldl (fun s ch => s.smallStep t0 t1 ch) s else s

/-- Device time moves to `t1`; a started rota issues entries from there on, or once time again reaches `t0` (R145). -/
def State.stepTime (s : State) (d : Int) (t0 t1 : Nat) : State :=
  let s := s.timeTo t1
  if s.rota.started then { s with rota := { s.rota with notBefore := if d.natAbs ≤ 2000000 then max t0 t1 else t1 } } else s

/-- CLOCK_STEP: at the next slot boundary of device time, one step removes the offset (R143), with the effects of R145 up to 2 ms
and of R146 beyond. Assumption log 54, DEDUCED. -/
def execClockStep (s : State) : Res :=
  .next (match s.ptp.stepPend with
    | none => s
    | some d =>
      let t0 := ceilDiv s.time.ptp slotTime * slotTime
      let t1 := ((t0 : Int) + d * nsTime).toNat
      ((((s.timeTo t0).stepTaken d).stepRota d t0 t1).stepTime d t0 t1).gatesNow.wakeRuns.raise srcPtpStep)

end Sys2Proof.Machine
end

