-- ==== Sys2Proof/Machine/Arrivals.lean ====
section
/-!
DEFINITION. What completes sheaves: VFT packets, doorbells and due times, and the runs that waited for their notices (R160, R164, R167,
R171).
-/

namespace Sys2Proof.Machine

/-- The packet at the head of a port's ingress FIFO, where the ingress unit runs. -/
def State.vftHead (s : State) (port : Nat) : Option VftPkt :=
  if s.ingRuns then (if port = 0 then s.ing.q0 else s.ing.q1).head? else none

/-- The head packet leaves its FIFO (R172, R387). -/
def State.vftPop (s : State) (port : Nat) (p : VftPkt) : State :=
  let s := if port = 0 then { s with ing := { s.ing with q0 := s.ing.q0.drop 1 } } else { s with ing := { s.ing with q1 := s.ing.q1.drop 1 } }
  s.lastPop port (padWords p.bytes)

/-- A packet that left its FIFO is dropped and counted, or accepted (R160). -/
def State.vftTake (s : State) (p : VftPkt) : State :=
  match s.vftReason p with
  | some r => s.ingDrop r
  | none => (s.vftAccept p).wakeRuns

/-- VFT_ROWS: the packet at the head of a port's ingress FIFO leaves it, and is dropped and counted, or accepted (R160). -/
def execVftRows (port : Nat) (s : State) : Res :=
  let port := if port = 0 then 0 else 1
  .next (match s.vftHead port with
    | none => s
    | some p => ((s.vftPop port p).fifoEval port).vftTake p)

/-- DONE; `m` is the PTP message that the frame carries, for class PTP (R288, R290). With `pop` the ingress unit takes the head packet of
the port's ingress FIFO in the cycle in which DONE's packet arrives, which frees its slots for it; the fill is evaluated once
(R390, R393). Assumption log 73, DEDUCED. -/
def execDone (pe : Nat) (m : PtpMsg) (s : State) (pop : Bool := false) : Res :=
  let port := if (s.pe pe).port = 0 then 0 else 1
  .next (match if pop then s.vftHead port else none with
    | none => s.peEnds pe m
    | some p => (((s.vftPop port p).peEnds pe m).fifoEval port).vftTake p)

/-- DOORBELL: the doorbell at the head of FIFO 2, every aperture write before it judged, is discarded and counted, or takes
effect (R164). -/
def execDoorbell (s : State) : Res :=
  .next (match s.ing.q2 with
    | .db w :: rest =>
      if !s.ingRuns then s
      else
        let s := { s with ing := { s.ing with q2 := rest } }
        match s.dbReason w.toNat with
        | some r => s.ingDrop r
        | none => (s.dbAccept w.toNat).wakeRuns
    | _ => s)

/-- SHEAF_DUE: the due time of a sheaf of the rota arrives (R123, R166, R167, R494). -/
def execSheafDue (ch hp frame sheaf : Nat) (s : State) : Res :=
  let fr := s.frameNo ch hp frame
  .next (match s.dueSlot ch fr sheaf with
    | none => s
    | some d => if s.rota.started && s.glb.st == .run then ((s.reach d).dueArrive ch fr sheaf).wakeRuns else s)

end Sys2Proof.Machine
end

