-- ==== Sys2Proof/Machine/RuleSet.lean ====
section
/-!
DEFINITION. Rule sets: the shape, the headers and the route of a copy, its integrity tag, and the swap (R306, R307, R309, R311,
R312, R325, R340).
-/

namespace Sys2Proof.Machine

/-! ### Shape of a copy (R306, R307, R325) -/

/-- What an egress profile's actions make of a copy: its tags, its outer template (0 none), whether the extension is removed,
its DSCP. -/
structure Shape where
  vlans : List Nat
  outer : Nat
  pop   : Bool
  dscp  : Nat
  deriving DecidableEq, Repr

/-- A tag with the PCP bits of its TCI replaced (R307). -/
def setPcp (v tag : Nat) : Nat := tag - bitsOf tag 13 3 * 8192 + v % 8 * 8192

/-- Runs the actions of a profile in order until END (R307). -/
def runActions (d : Dest) : List Nat → Shape → Shape
  | [], v => v
  | a :: as, v =>
    let arg := a % 4096
    match a / 4096 with
    | 1 =>
      let tag := if bitOf arg 0 then d.vlan1 else d.vlan0
      runActions d as (if tag = 0 then v else { v with vlans := v.vlans ++ [tag] })
    | 2 => runActions d as { v with outer := d.outer }
    | 3 => runActions d as { v with pop := true }
    | 4 => runActions d as { v with vlans := v.vlans.map (setPcp arg) }
    | 5 => runActions d as { v with dscp := arg % 64 }
    | _ => v

/-- Rule set that packets of an epoch finish under (R312). -/
def State.ruleSet (s : State) (epoch : Nat) : RuleSet := (s.img.rules[s.rep.setOf.get 0 epoch]?).getD {}

/-- Profile of a delivery. -/
def RuleSet.profile (r : RuleSet) (d : Dest) : RwProfile := (r.profiles[d.prof]?).getD {}

/-- Shape of a delivery's copies under a rule set. -/
def RuleSet.shape (r : RuleSet) (d : Dest) : Shape :=
  runActions d (r.profile d).actions { vlans := [], outer := 0, pop := false, dscp := d.dscp }

/-- Outer template of a shape (R311). -/
def RuleSet.template (r : RuleSet) (v : Shape) : OuterTpl := if v.outer = 0 then {} else (r.templates[v.outer]?).getD {}

/-- Bytes from the destination MAC address to the end of the UDP header. -/
def Shape.netLen (v : Shape) (d : Dest) : Nat := 14 + 4 * v.vlans.length + (if d.ipv6 then 40 else 20) + 8

/-- Bytes of the RTP header with its extension (R242, R243, R307). -/
def Shape.rtpLen (v : Shape) : Nat := if v.pop then 12 else 20

/-- Length L of a copy with a payload of `n` bytes: through the FCS, with template, tags and SRTP tag (R325). -/
def RuleSet.copyLen (r : RuleSet) (d : Dest) (n : Nat) : Nat :=
  let v := r.shape d
  (r.template v).bytes.length + v.netLen d + v.rtpLen + n + 16 + 4

/-! ### Route (R309) -/

/-- Fields that a FIELD_MASK selects, concatenated in bit order (R309). -/
def maskBytes (mask h : Nat) (d : Dest) : List Byte :=
  (if bitOf mask 0 then beBytes 16 d.dstAddr else []) ++ (if bitOf mask 1 then beBytes 2 d.dstPort else [])
    ++ (if bitOf mask 2 then beBytes 2 d.srcPort else []) ++ (if bitOf mask 3 then beBytes 4 d.ssrc else [])
    ++ (if bitOf mask 4 then beBytes 1 d.ch else []) ++ (if bitOf mask 5 then beBytes 3 h else [])
    ++ (if bitOf mask 6 then beBytes 4 d.markId else []) ++ (if bitOf mask 7 then beBytes 3 d.keySlot else [])

/-- Port and queue of a delivery's copies (R309). -/
def RuleSet.route (r : RuleSet) (h : Nat) (d : Dest) : Nat × Nat :=
  let m := (r.profile d).mask % 256
  let i := if m = 0 then 0 else (crc32c (maskBytes m h d)).toNat % 4096
  let e := (r.indirect[i]?).getD 0
  (bitsOf e 15 1, e % 1024)

/-! ### The integrity tag (R340) -/

/-- Tag over its inputs under a seed. -/
def itag (seed : Nat) (t : TagIn) : BitVec 32 :=
  crc32cFrom (BitVec.ofNat 32 seed) (beBytes 1 t.channel ++ beBytes 3 t.keySlot ++ beBytes 1 t.port ++ beBytes 6 t.dstMac
    ++ beBytes 16 t.dstAddr ++ beBytes 2 t.dstPort ++ beBytes 4 t.ssrc)

/-- Tag inputs of a delivery's copy from a port. -/
def Dest.tagIn (d : Dest) (port : Nat) : TagIn :=
  { channel := d.ch, keySlot := d.keySlot, port := port, dstMac := d.dstMac, dstAddr := d.dstAddr, dstPort := d.dstPort
    ssrc := d.ssrc }

/-! ### Headers (R242, R306, R307) -/

/-- Internet checksum of bytes: the one's complement of their one's complement sum. -/
def inetSum (bs : List Byte) : Nat :=
  let t := ((List.range ((bs.length + 1) / 2)).map fun i => byteAt bs (2 * i) * 256 + byteAt bs (2 * i + 1)).sum
  let t := t % 65536 + t / 65536
  65535 - (t % 65536 + t / 65536)

/-- Patches two bytes at an offset of a template; 0xFF is unused (R307). -/
def patch (o v : Nat) (bs : List Byte) : List Byte := if o = 0xFF ∨ bs.length < o + 2 then bs else splice bs o (beBytes 2 (v % 65536))

/-- The outer template of a frame of `fl` bytes without FCS, patched (R307). -/
def OuterTpl.patched (t : OuterTpl) (fl : Nat) : List Byte :=
  let bs := patch t.ip4Tot (fl + 2 - t.ip4Tot) t.bytes
  let bs := patch t.ip4Csum (inetSum (slice (patch t.ip4Csum 0 bs) (t.ip4Csum - 10) 20)) bs
  let bs := patch t.udpLen (fl + 4 - t.udpLen) bs
  patch t.ip6Pl (fl + 4 - t.ip6Pl - 40) bs

/-- The frame-information extension (R242). -/
def extBytes (id : Nat) (p : MPkt) : List Byte :=
  [0xBE, 0xDE] ++ beBytes 2 1 ++ beBytes 1 (id * 16 + 1)
    ++ beBytes 1 (p.tid * 64 + bit p.cycle * 32 + bit p.join * 16 + bit p.recov * 8) ++ beBytes 1 p.cycSeq ++ [0]

/-- The RTP header of a copy (R306). -/
def rtpBytes (id : Nat) (v : Shape) (p : MPkt) (ssrc dseq : Nat) : List Byte :=
  beBytes 1 (if v.pop then 0x80 else 0x90) ++ beBytes 1 (bit p.marker * 128 + p.pt) ++ beBytes 2 dseq ++ beBytes 4 p.ts
    ++ beBytes 4 ssrc ++ (if v.pop then [] else extBytes id p)

/-- IPv4 header of a datagram with `n` bytes of UDP (R306). -/
def ip4Bytes (src : Nat) (v : Shape) (d : Dest) (n : Nat) : List Byte :=
  let h := [0x45#8] ++ beBytes 1 (v.dscp * 4 + d.ecn) ++ beBytes 2 (20 + n) ++ beBytes 2 0 ++ beBytes 2 0x4000 ++ beBytes 1 d.hop
    ++ [17] ++ beBytes 2 0 ++ beBytes 4 src ++ beBytes 4 d.dstAddr
  splice h 10 (beBytes 2 (inetSum h))

/-- IPv6 header (R306). -/
def ip6Bytes (src : Nat) (v : Shape) (d : Dest) (n : Nat) : List Byte :=
  beBytes 4 (6 * 2 ^ 28 + (v.dscp * 4 + d.ecn) * 2 ^ 20) ++ beBytes 2 n ++ [17] ++ beBytes 1 d.hop ++ beBytes 16 src
    ++ beBytes 16 d.dstAddr

/-- Ethernet, tags, IP and UDP headers of a datagram with `n` bytes after the UDP header; the UDP checksum is computed at the seal
stage (R306, R337). -/
def netBytes (pi : PortImg) (v : Shape) (d : Dest) (n : Nat) : List Byte :=
  beBytes 6 d.dstMac ++ beBytes 6 pi.mac ++ v.vlans.flatMap (beBytes 4) ++ beBytes 2 (if d.ipv6 then 0x86DD else 0x0800)
    ++ (if d.ipv6 then ip6Bytes pi.ip6 v d (8 + n) else ip4Bytes pi.ip4 v d (8 + n))
    ++ beBytes 2 d.srcPort ++ beBytes 2 d.dstPort ++ beBytes 2 (8 + n) ++ beBytes 2 0

/-- The headers of a copy: outer template, network headers, RTP header (R306). -/
def State.copyHdr (s : State) (c : Copy) : List Byte :=
  let r := s.ruleSet c.epoch
  let v := r.shape c.d
  let pi := (s.img.net.ports[c.port]?).getD {}
  let id := match s.cls c.mp.ch with
    | some k => k.cod.extId
    | none => 0
  (r.template v).patched (c.len - 4) ++ netBytes pi v c.d (v.rtpLen + c.mp.len + 16) ++ rtpBytes id v c.mp c.d.ssrc c.dseq

/-! ### Packets in flight (R303, R312) -/

def State.flight (s : State) (f : Nat) : Flight := s.rep.flights.get {} f
def State.setFlight (s : State) (f : Nat) (v : Flight) : State :=
  { s with rep := { s.rep with flights := s.rep.flights.set {} f v } }

/-- A packet starts under the active epoch (R312). -/
def State.beginFlight (s : State) (v : Flight) : Nat × State :=
  let f := s.rep.nextFlight
  (f, { s with rep := { s.rep with nextFlight := f + 1 } }.setFlight f { v with live := true, epoch := s.rep.epoch })

/-- A flight with neither a pass 1 nor a copy left has finished pass 2. -/
def State.settleFlight (s : State) (f : Nat) : State :=
  let v := s.flight f
  if v.live && !v.pass1 && v.copies == 0 then s.setFlight f {} else s

/-- A copy leaves pass 2: sent, discarded or lost (R303, R322). -/
def State.copyDone (s : State) (c : Copy) : State :=
  match c.tmmbn with
  | some _ => s
  | none =>
    let v := s.flight c.flight
    (s.setFlight c.flight { v with copies := v.copies - 1 }).settleFlight c.flight

/-- Flights alive. -/
def State.liveFlights (s : State) : List Nat := (s.rep.flights.filter fun e => e.2.live).map fun e => e.1

/-- Packets in flight under an epoch (R315). -/
def State.inFlight (s : State) (epoch : Nat) : Nat := (s.rep.flights.filter fun e => e.2.live && e.2.epoch == epoch).length

/-! ### The swap (R312) -/

/-- RULESET_FLIP: the active bank flips; EPOCH rises by 1 modulo 16 (R312). Assumption log 63, DEDUCED. -/
def execRulesetFlip (s : State) : Res :=
  .next (match s.rep.swap with
    | none => s
    | some w =>
      if w.flipped.isSome || s.stopped 6 then s
      else
        let e := (s.rep.epoch + 1) % 16
        { s with rep := { s.rep with
          epoch := e, active := w.idx, setOf := s.rep.setOf.set 0 e w.idx, swap := some { w with flipped := some s.rep.epoch } } })

/-- RULESET_RETIRE: no packet of the old epoch is in flight; the old set is retired and the command completes (R312).
Assumption log 63, DEDUCED. -/
def execRulesetRetire (s : State) : Res :=
  .next (match s.rep.swap with
    | none => s
    | some w =>
      match w.flipped with
      | none => s
      | some old =>
        if s.stopped 6 || s.inFlight old != 0 then s
        else
          let s := { s with rep := { s.rep with swap := none } }
          if w.answered then s else s.completeJob { tag := w.tag, irq := w.irq } .ok)

end Sys2Proof.Machine
end

