-- ==== Sys2Proof/Machine/EmTable.lean ====
section
/-!
DEFINITION. Insertion into and deletion from the exact-match index (R293 to R297).
-/

namespace Sys2Proof.Machine

/-! ### Keys (R293) -/

/-- Version field of a key. -/
def emVersion (ipv6 : Bool) : List Byte := beBytes 2 (if ipv6 then 6 else 4)
def vftKey (addr port : Nat) (ipv6 : Bool) : List Byte := beBytes 16 addr ++ beBytes 2 port ++ emVersion ipv6
def audKey (d : Dest) : List Byte := beBytes 16 d.dstAddr ++ beBytes 2 d.dstPort ++ beBytes 2 d.srcPort ++ emVersion d.ipv6
def decKey (r : RtpIn) : List Byte :=
  beBytes 16 r.srcAddr ++ beBytes 2 r.srcPort ++ beBytes 2 r.dstPort ++ beBytes 4 r.ssrc ++ emVersion r.ipv6

/-- Roles of tables (R293). -/
def roleVft : Nat := 1
def roleAud : Nat := 2
def roleDec : Nat := 3

/-! ### Insertion (R295, R296) -/

/-- Index contents. -/
abbrev EmIdx := Tbl (Option EmEnt)

def EmIdx.at (t : EmIdx) (i : Nat) : Option EmEnt := t.get none i

/-- Entries of a table (R317). -/
def EmIdx.occ (t : EmIdx) (n : Nat) : Nat := (t.filter fun e => match e.2 with | some x => x.tbl == n | none => false).length

/-- First free slot of a list. -/
def EmIdx.firstFree (t : EmIdx) (l : List Nat) : Option Nat := l.find? fun i => (t.at i).isNone

/-- Slots of the alternative bucket of the entry in slot `i`. -/
def State.emAlt (s : State) (e : EmEnt) (i : Nat) : List Nat :=
  let b := s.emBucket1 e.tbl e.key
  bucketSlots (if b = i / 4 then s.emBucket2 e.tbl e.key else b)

/-- Vacates slot `i` by at most `n` relocations to alternative buckets, none of them to a slot already on the path (R295). -/
def State.emVacate (s : State) : Nat → List Nat → EmIdx → Nat → Option EmIdx
  | 0, _, _, _ => none
  | n + 1, path, t, i =>
    match t.at i with
    | none => some t
    | some e =>
      match t.firstFree (s.emAlt e i) with
      | some j => some ((t.set none j (some e)).set none i none)
      | none =>
        ((s.emAlt e i).filter fun j => j != i && !path.contains j).findSome? fun j =>
          (s.emVacate n (i :: path) t j).map fun t' => (t'.set none j (some e)).set none i none

/-- Places an entry: a free slot of its buckets, else at most 3 relocations along the shortest path, else the stash (R295).
Where none of these has room the insertion fails, below 500,000 entries too (R14, R296). Assumption log 88, DESIGN CHOICE. -/
def State.emPlace (s : State) (e : EmEnt) : Option EmIdx :=
  let t : EmIdx := s.pkt.em
  let b := bucketSlots (s.emBucket1 e.tbl e.key) ++ bucketSlots (s.emBucket2 e.tbl e.key)
  match t.firstFree b with
  | some i => some (t.set none i (some e))
  | none =>
    match [1, 2, 3].findSome? fun n => b.findSome? fun i => (s.emVacate n [] t i).map fun t' => t'.set none i (some e) with
    | some t' => some t'
    | none => (t.firstFree stashSlots).map fun i => t.set none i (some e)

/-- Inserts a key that is not present; none is TABLE_FULL (R295, R296). Between 500,000 and 524,288 entries an insertion into the
AUDIENCE table may fail, which is left open. Assumption log 48, DESIGN CHOICE. -/
def State.emInsert (s : State) (n : Nat) (key : List Byte) (b : EmBody) : Option State :=
  match s.img.em[n]? with
  | none => none
  | some d =>
    let k := EmIdx.occ s.pkt.em n
    if d.cap ≤ k then none
    else
      let (v, s') := s.draw 1
      let open_ := d.role = roleAud ∧ 500000 ≤ k
      if open_ ∧ v = 1 then none
      else
        let s := if open_ then s' else s
        (s.emPlace { tbl := n, key := key, sig := s.emSig n key, body := b }).map fun t =>
          { s with pkt := { s.pkt with em := t } }

/-- A key of a table is present. -/
def State.emHas (s : State) (n : Nat) (key : List Byte) : Bool := (s.emFind n key).isSome

/-- Deletes a key of a table: its slot is cleared (R297). -/
def State.emDelete (s : State) (n : Nat) (key : List Byte) : State :=
  match s.emFind n key with
  | some i => { s with pkt := { s.pkt with em := s.pkt.em.set none i none } }
  | none => s

/-- STASH_MOVE: a stash slot goes back into a bucket that has room (R295, R297). -/
def execStashMove (slot : Nat) (s : State) : Res :=
  .next (
    let i := emStash + slot
    let t : EmIdx := s.pkt.em
    match t.at i with
    | none => s
    | some e =>
      if !s.stewardFree || s.stopped 6 then s
      else
        match t.firstFree (bucketSlots (s.emBucket1 e.tbl e.key) ++ bucketSlots (s.emBucket2 e.tbl e.key)) with
        | some j => { s with pkt := { s.pkt with em := (t.set none j (some e)).set none i none } }
        | none => s)

end Sys2Proof.Machine
end

