-- ==== Sys2Proof/Machine/Sections.lean ====
section
/-!
DEFINITION. Sections of the configuration image, read from their bytes: each reader answers none where the section breaks its
layout, a range, a coding or an order that its chapter gives (R63). Fields are stored most significant byte first (R57).
-/

namespace Sys2Proof.Machine

/-- `n` bytes from offset `o` on exist and are 0: reserved bytes (R57). -/
def zeros (bs : List Byte) (o n : Nat) : Bool := (slice bs o n).length == n && (slice bs o n).all (· == 0)

/-- A value lies in a range. -/
def inRange (lo hi v : Nat) : Bool := decide (lo ≤ v) && decide (v ≤ hi)

/-- A value, where a condition holds. -/
def given {α : Type} (ok : Bool) (v : α) : Option α := if ok then some v else none

/-- Every element satisfies its check and the results are collected. -/
def collect {α β : Type} (f : α → Option β) : List α → Option (List β)
  | [] => some []
  | x :: xs =>
    match f x, collect f xs with
    | some y, some ys => some (y :: ys)
    | _, _ => none

/-- No value occurs twice. -/
def noDup : List Nat → Bool
  | [] => true
  | x :: xs => !xs.contains x && noDup xs

/-! ### ISLAND_FREQ, FAULT_REACTIONS (R440, R469, R470) -/

/-- Rated frequency of an island in MHz (R469). -/
def islRatedMhz (n : Nat) : Nat :=
  if n = 0 then 2000 else if n = 1 then 1500 else if n = 8 then 1000 else if n = 58 then 400 else 1600

/-- ISLAND_FREQ (R470). -/
def readFreq (bs : List Byte) : Option (List Nat) :=
  let fs := (List.range 59).map fun n => beAt bs (2 * n) 2
  given (bs.length == 118 && (List.range 59).all fun n =>
    let f := (fs[n]?).getD 0
    f % 25 == 0 && inRange 400 (islRatedMhz n) f) fs

/-- A fault source number has no source (R438). -/
def noSource (n : Nat) : Bool :=
  inRange 0x0FB 0x0FF n || inRange 0x123 0x12F n || inRange 0x15A 0x15F n || decide (0x182 ≤ n)

/-- FAULT_REACTIONS (R440); CLK_SYS_LOSS must have level SAFE (R63). -/
def readLevels (bs : List Byte) : Option (List Nat) :=
  given (bs.length == 512
      && (List.range 512).all (fun n => decide (byteAt bs n < 4) && (!noSource n || byteAt bs n == 0))
      && byteAt bs 0x161 == 3)
    ((List.range 512).map fun n => byteAt bs n)

/-! ### CHANNEL_CLASSES (R116, R152, R153, R180, R216) -/

/-- Frames in 10 s for a RATE code (R115, R116). -/
def rateFps : Nat → Nat
  | 0 => 30 | 1 => 50 | 2 => 60 | 3 => 100 | 4 => 120 | _ => 0

/-- Size, rate, structure and input of a class record (R116, R152). -/
def readBase (bs : List Byte) : ChClass :=
  { maxW := beAt bs 0 2, maxH := beAt bs 2 2, rate := byteAt bs 4, format := byteAt bs 5, layers := byteAt bs 6
    lanes := byteAt bs 7, latency := beAt bs 8 2, pixFmt := byteAt bs 0x10, hint := bitOf (byteAt bs 0x11) 0
    cut := bitOf (byteAt bs 0x11) 1, transfer := byteAt bs 0x12, primaries := byteAt bs 0x13, segs := byteAt bs 0x14
    pathVft := bitOf (byteAt bs 0x15) 0, pathPcie := bitOf (byteAt bs 0x15) 1, pathBind := bitOf (byteAt bs 0x15) 2
    ring := byteAt bs 0x16 }

/-- The size limits of R180; `fmin` is the lowest image frequency among the ENC islands in MHz (R117). -/
def sizeOk (c : ChClass) (fmin : Nat) : Bool :=
  decide (c.maxW % 8 = 0) && decide (c.maxH % 8 = 0)
    && (if c.lanes = 1 then inRange 320 4096 c.maxW && inRange 184 2304 c.maxH && decide (c.maxW * c.maxH ≤ 8912896)
        else decide (c.format < 2) && decide (c.rate < 3) && inRange 2048 8192 c.maxW && inRange 184 4352 c.maxH
          && decide (c.maxW * c.maxH ≤ 35651584))
    && decide (c.maxW * c.maxH * rateFps c.rate * 1600 ≤ 1200000000 * fmin * c.lanes)

/-- The conditions of R152 and R153 on the INPUT bytes. -/
def inputOk (c : ChClass) : Bool :=
  decide (c.pixFmt < 4) && (c.pixFmt != 1 || c.format % 2 == 1) && (decide (c.pixFmt < 2) || !c.pathPcie)
    && decide (c.transfer < 3) && decide (c.primaries < 2) && (decide (c.pixFmt < 2) || c.primaries == c.pixFmt - 2)
    && decide (c.segs < 4) && decide (c.maxW % (8 * 2 ^ c.segs) = 0) && (c.pathVft || c.pathPcie || c.pathBind)
    && inRange 2 4 c.ring

/-- Coding parameters (R216). -/
def readCoding (bs : List Byte) : ChCoding :=
  let f := byteAt bs 0x35
  { mode := byteAt bs 0x20, modelSet := byteAt bs 0x21, maxPay := beAt bs 0x22 2, target := beAt bs 0x24 4, peak := beAt bs 0x28 4
    minK := beAt bs 0x2C 4, qpMin := byteAt bs 0x30, qpMax := byteAt bs 0x31, cqQp := byteAt bs 0x32, refreshN := byteAt bs 0x33
    refreshHold := byteAt bs 0x34, feedback := bitOf f 0, ackRef := bitOf f 1, mark := bitOf f 2, cutRefresh := bitOf f 3
    ackDepth := byteAt bs 0x36, markEvery := byteAt bs 0x37, markDelta := byteAt bs 0x38, extId := byteAt bs 0x39 }

/-- Frames of a layer period for a LAYERS code (R225). -/
def layersPeriod (l : Nat) : Nat := if l = 2 then 2 else if l = 3 then 4 else 1

/-- The conditions of R216; `sets` is the number of model sets. -/
def codingOk (b : ChClass) (c : ChCoding) (sets : Nat) : Bool :=
  decide (c.mode < 3) && decide (c.modelSet < sets) && inRange 256 8900 c.maxPay && decide (64 ≤ c.minK)
    && decide (c.minK ≤ c.target) && decide (c.target ≤ c.peak) && decide (c.qpMin ≤ c.cqQp) && decide (c.cqQp ≤ c.qpMax)
    && decide (c.qpMax ≤ if b.format < 2 then 51 else 63) && inRange 8 120 c.refreshN
    && decide (c.refreshN % layersPeriod b.layers = 0) && decide (c.refreshHold ≤ c.refreshN)
    && (!c.ackRef || b.layers == 1) && (if c.ackRef then inRange 1 4 c.ackDepth else c.ackDepth == 0)
    && (if c.mark then inRange 1 15 c.markEvery && inRange 1 4 c.markDelta else c.markEvery == 0 && c.markDelta == 0)
    && inRange 1 14 c.extId

/-- One class record (R116). -/
def readClass (sets fmin : Nat) (bs : List Byte) : Option Class :=
  let b := readBase bs
  let c := readCoding bs
  given (decide (b.rate < 5) && decide (b.format < 4) && inRange 1 3 b.layers && inRange 1 2 b.lanes && inRange 100 2000 b.latency
      && zeros bs 0x0A 6 && decide (byteAt bs 0x11 < 4) && decide (byteAt bs 0x15 < 8) && zeros bs 0x17 9
      && decide (byteAt bs 0x21 < 16) && decide (byteAt bs 0x35 < 16) && zeros bs 0x3A 6
      && sizeOk b fmin && inputOk b && codingOk b c sets)
    { base := b, cod := c }

/-- CHANNEL_CLASSES (R116). -/
def readClasses (sets fmin : Nat) (bs : List Byte) : Option (List Class) :=
  let n := beAt bs 0 2
  if inRange 1 192 n && zeros bs 2 14 && decide (16 + 64 * n ≤ bs.length) then
    collect (fun i => readClass sets fmin (slice bs (16 + 64 * i) 64)) (List.range n)
  else none

/-! ### ENC_ROTA, DEC_ROTA, LANE_MAP (R121 to R123, R134, R137 to R139, R252) -/

/-- One run entry (R122). Fields of other kinds are 0. -/
def readRun (bs : List Byte) : Option RunEnt :=
  let e : RunEnt :=
    { kind := beAt bs 0 2 / 2 ^ 14, start := beAt bs 0 2 % 2 ^ 14, part := byteAt bs 2 / 64, len := byteAt bs 2 % 64
      ch := byteAt bs 3, sheaf := byteAt bs 4, frame := byteAt bs 5 / 16, lead := byteAt bs 6 }
  given (decide (e.start < 12500) && decide (e.sheaf < 128) && byteAt bs 5 % 16 == 0 && decide (e.lead < 64) && byteAt bs 7 == 0
      && (e.kind == 0 || (e.ch == 0 && e.sheaf == 0 && e.frame == 0 && e.lead == 0))) e

/-- One decode entry (R137). -/
def readDecEnt (bs : List Byte) : Option DecEnt :=
  let w := beAt bs 0 4
  let e : DecEnt := { start := w / 2 ^ 18, kind := bitsOf w 16 2, dcx := bitsOf w 10 6, len := w % 1024 }
  given (decide (e.start < 12500) && (e.kind != 2 || e.dcx == 0)) e

/-- Runs, as (START, LEN), do not overlap and lie inside the hyperperiod (R123). -/
def noOverlap : List (Nat × Nat) → Bool
  | [] => true
  | [(s, n)] => decide (s + n ≤ 12500)
  | (s, n) :: (t, m) :: es => decide (s + n ≤ t) && noOverlap ((t, m) :: es)

/-- Starts in ascending order (R123). -/
def ascending : List Nat → Bool
  | a :: b :: as => decide (a ≤ b) && ascending (b :: as)
  | _ => true

/-- Entries, as (START, LEN), in ascending order of START, whose runs fit; an entry with LEN 0 occupies no slot (R122, R123, R137). -/
def runsFit (es : List (Nat × Nat)) : Bool := ascending (es.map (·.1)) && noOverlap (es.filter fun e => e.2 != 0)

/-- Consecutive gleaning slots start at most 500 slots apart, across the end of the hyperperiod too (R63, R132). -/
def gleansFit (starts : List Nat) : Bool :=
  match starts with
  | [] => false
  | a :: _ => (starts.zip (starts.drop 1 ++ [a + 12500])).all fun (x, y) => decide (y - x ≤ 500)

/-- Lane descriptors of a rota section (R121): lane, entry count, offset; `top` is the highest lane number, `al` the alignment of
offsets, `sz` the size of an entry, `fin` where entries must end. Entries begin at or after the end of the descriptors (R63). Assumption
log 94, DEDUCED. -/
def readDescs (top al sz fin : Nat) (bs : List Byte) : Option (List (Nat × Nat × Nat)) :=
  let n := beAt bs 0 2
  let ds := (List.range n).map fun i => (byteAt bs (16 + 8 * i), beAt bs (18 + 8 * i) 2, beAt bs (20 + 8 * i) 4)
  given (inRange 1 (top + 1) n && beAt bs 2 2 == 12500 && zeros bs 4 12 && decide (16 + 8 * n ≤ fin) && decide (fin ≤ bs.length)
      && (List.range n).all (fun i => byteAt bs (17 + 8 * i) == 0)
      && ds.all (fun (l, k, o) => decide (l ≤ top) && inRange 1 12500 k && decide (o % al = 0) && decide (16 + 8 * n ≤ o)
        && decide (o + sz * k ≤ fin))
      && noDup (ds.map fun d => d.1)) ds

/-- Slots of the catch-up runs of a lane. -/
def catchupSlots (es : List RunEnt) : Nat := ((es.filter fun e => e.kind == 1 && e.part != 3).map (·.len)).sum

/-- One lane of the encode rota with the checks of R63 on it. -/
def readLane (bs : List Byte) (d : Nat × Nat × Nat) : Option (Nat × List RunEnt) :=
  match collect (fun i => readRun (slice bs (d.2.2 + 8 * i) 8)) (List.range d.2.1) with
  | none => none
  | some es =>
    given (runsFit (es.map fun e => (e.start, e.len)) && decide (1000 ≤ catchupSlots es)
        && gleansFit ((es.filter fun e => e.kind == 2 && decide (e.len ≠ 0) && e.part != 3).map (·.start)))
      (d.1, es)

/-- Sheaves of a picture of a class, frames per hyperperiod, PART codes of its entries (R7, R115, R122). -/
def classSheaves (c : Class) : Nat := (c.base.maxH + 63) / 64
def classFrames (c : Class) : Nat := rateFps c.base.rate / 10
def classParts (c : Class) : List Nat := if c.base.lanes = 2 then [1, 2] else [0]

/-- A SHEAF entry that counts, with its lane (R123). -/
def sheafEnts (r : List (Nat × List RunEnt)) : List (Nat × RunEnt) :=
  r.flatMap fun (l, es) => (es.filter fun e => e.kind == 0 && decide (1 ≤ e.len) && e.part != 3).map fun e => (l, e)

/-- Number of a channel, part, frame and sheaf. -/
def entKey (e : RunEnt) : Nat := ((e.ch * 4 + e.part) * 16 + e.frame) * 128 + e.sheaf

/-- The conditions of R123 on the SHEAF entries: every channel, part, frame and sheaf in exactly one; each channel part on one
lane, the two parts of a channel on different ones. -/
def sheavesOk (cs : List Class) (r : List (Nat × List RunEnt)) : Bool :=
  let es := sheafEnts r
  es.all (fun (_, e) => match cs[e.ch]? with
      | some c => (classParts c).contains e.part && decide (e.frame < classFrames c) && decide (e.sheaf < classSheaves c)
      | none => false)
    && noDup (es.map fun (_, e) => entKey e)
    && es.length == ((cs.map fun c => (classParts c).length * classFrames c * classSheaves c).sum)
    && es.all fun (l, e) => es.all fun (l', e') => e.ch != e'.ch || (l == l') == (e.part == e'.part)

/-- ENC_ROTA (R121 to R123). -/
def readEncRota (cs : List Class) (bs : List Byte) : Option (List (Nat × List RunEnt)) :=
  match readDescs 27 8 8 bs.length bs with
  | none => none
  | some ds =>
    match collect (readLane bs) ds with
    | none => none
    | some r => given (sheavesOk cs r) r

/-- One lane of the decode rota (R137, R139). -/
def readDLane (bs : List Byte) (d : Nat × Nat × Nat) : Option (Nat × List DecEnt) :=
  match collect (fun i => readDecEnt (slice bs (d.2.2 + 4 * i) 4)) (List.range d.2.1) with
  | none => none
  | some es =>
    given (runsFit (es.map fun e => (e.start, e.len))
        && gleansFit ((es.filter fun e => e.kind == 2 && decide (e.len ≠ 0)).map (·.start))) (d.1, es)

/-- One context record (R252). -/
def readDecl (bs : List Byte) : Option DecDecl :=
  let d : DecDecl :=
    { maxW := beAt bs 0 2, maxH := beAt bs 2 2, rate := byteAt bs 4, codecs := byteAt bs 5, outFrames := byteAt bs 6
      inMib := byteAt bs 7 }
  given (zeros bs 8 8 && decide (byteAt bs 5 < 8)
      && (if d.maxW = 0 then d.maxH == 0
          else inRange 16 8192 d.maxW && d.maxW % 8 == 0 && inRange 16 4352 d.maxH && d.maxH % 8 == 0
            && decide (d.maxW * d.maxH ≤ 35651584) && decide (d.rate < 5) && inRange 1 7 d.codecs && inRange 2 8 d.outFrames
            && inRange 1 64 d.inMib)) d

/-- Contexts of a lane's RUN entries that count (R138). -/
def laneDcx (es : List DecEnt) : List Nat := (es.filter fun e => e.kind == 0 && decide (e.len ≠ 0)).map (·.dcx)

/-- DEC_ROTA (R137, R252): lanes, each context in one lane at most, and the context records. -/
def readDecRota (bs : List Byte) : Option (List (Nat × List DecEnt) × List DecDecl) :=
  if bs.length < 1024 then none
  else
    let o := bs.length - 1024
    match readDescs 7 4 4 o bs with
    | none => none
    | some ds =>
      match collect (readDLane bs) ds, collect (fun n => readDecl (slice bs (o + 16 * n) 16)) (List.range 64) with
      | some r, some cs =>
        given (r.all fun (l, es) => r.all fun (l', es') => l == l' || !((laneDcx es).any fun x => (laneDcx es').contains x)) (r, cs)
      | _, _ => none

/-- LANE_MAP (R134): no core is bound twice (R63). -/
def readLaneMap (bs : List Byte) : Option (List Nat) :=
  let m := (List.range 36).map fun n => byteAt bs n
  let used (l : List Nat) := l.filter fun k => k != 0xFF
  given (bs.length == 36 && (m.take 28).all (fun k => decide (k < 32) || k == 0xFF)
      && (m.drop 28).all (fun k => decide (k < 9) || k == 0xFF) && noDup (used (m.take 28)) && noDup (used (m.drop 28))) m

/-! ### GLEAN_GOLDEN, RC_MODELS, PARSER_PROGRAMS (R211, R217, R286) -/

/-- One gleaning case (R211). -/
def readCase (all bs : List Byte) : Option GleanCase :=
  let total := all.length
  let c : GleanCase :=
    { kind := byteAt bs 0, format := byteAt bs 1, width := beAt bs 2 2, height := beAt bs 4 2, offset := beAt bs 8 4
      len := beAt bs 12 4, sig := BitVec.ofNat 64 (beAt bs 16 8)
      data := slice all (beAt bs 8 4) (beAt bs 12 4) }
  given (decide (c.kind < 2) && decide (c.format < 4) && inRange 8 96 c.width && c.width % 8 == 0 && inRange 8 64 c.height
      && c.height % 8 == 0 && zeros bs 6 2 && c.offset % 256 == 0 && decide (c.offset + c.len ≤ total) && zeros bs 24 8) c

/-- GLEAN_GOLDEN (R211): at least one encode case; with a DEC_ROTA at least one decode case (R277). -/
def readGlean (hasDec : Bool) (bs : List Byte) : Option (List GleanCase) :=
  let n := byteAt bs 0
  if inRange 1 8 n && zeros bs 1 15 && decide (16 + 32 * n ≤ bs.length) then
    match collect (fun i => readCase bs (slice bs (16 + 32 * i) 32)) (List.range n) with
    | none => none
    | some cs => given (cs.any (fun c => c.kind == 0) && (!hasDec || cs.any fun c => c.kind == 1)) cs
  else none

/-- Thresholds ascend (R217). -/
def ascends : List Nat → Bool
  | a :: b :: l => decide (a ≤ b) && ascends (b :: l)
  | _ => true

/-- One model set (R217). -/
def readModel (bs : List Byte) : Option RcModel :=
  let t := (List.range 7).map fun i => beAt bs (2 * i) 2
  given (ascends t && decide (byteAt bs 14 < 8) && zeros bs 15 17)
    { thresh := t, dflt := byteAt bs 14
      bpk := (List.range 512).map fun i => (beAt bs (32 + 8 * i) 2, beAt bs (34 + 8 * i) 2, beAt bs (36 + 8 * i) 4) }

/-- RC_MODELS (R217). -/
def readModels (bs : List Byte) : Option (List RcModel) :=
  let n := byteAt bs 0
  if inRange 1 16 n && zeros bs 1 15 && bs.length == 16 + 4128 * n then
    collect (fun k => readModel (slice bs (16 + 4128 * k) 4128)) (List.range n)
  else none

/-- PARSER_PROGRAMS (R286, R287). -/
def readParser (bs : List Byte) : Option ParserImg :=
  let n := beAt bs 0 2
  given (inRange 1 1024 n && decide (beAt bs 2 2 < n) && decide (beAt bs 4 2 < n) && zeros bs 6 10 && bs.length == 16 + 8 * n
      && (List.range n).all fun j => decide (byteAt bs (16 + 8 * j + 7) % 64 = 0))
    { entry0 := beAt bs 2 2, entry1 := beAt bs 4 2
      code := (List.range n).map fun j => BitVec.ofNat 64 (beAt bs (16 + 8 * j) 8) }

/-! ### GATE_LISTS, RULESETS (R311, R332, R339) -/

/-- The block of one port (R332). -/
def readGate (bs : List Byte) : Option GateImg :=
  let n := beAt bs 2 2
  let q (i : Nat) : QueueCfg :=
    let w := beAt bs (16 + 4 * i) 4
    { cls := bitsOf w 29 3, weight := bitsOf w 21 8, depth := bitsOf w 0 13 }
  let e (k : Nat) : GateEnt := { gates := byteAt bs (0x1010 + 4 * k), interval := beAt bs (0x1011 + 4 * k) 3 }
  let g : GateImg :=
    { mode := byteAt bs 0, cycleNs := beAt bs 4 4, phaseNs := beAt bs 8 4, queues := (List.range 1024).map q
      ents := (List.range n).map e }
  given (decide (g.mode < 2) && byteAt bs 1 == 0 && inRange 1 256 n && zeros bs 12 4 && decide (10000 ≤ g.cycleNs)
      && 100000000 % g.cycleNs == 0 && decide (g.phaseNs < g.cycleNs)
      && (List.range 1024).all (fun i => bitsOf (beAt bs (16 + 4 * i) 4) 13 8 == 0)
      && g.queues.all (fun q => if q.weight = 0 then q.depth == 0 else inRange 1 4096 q.depth)
      && g.ents.all (fun e => decide (100 ≤ e.interval)) && (g.ents.map (·.interval)).sum == g.cycleNs
      && g.queues.all fun q => q.weight == 0 || g.ents.any fun e => bitOf e.gates q.cls) g

/-- GATE_LISTS (R332). -/
def readGates (bs : List Byte) : Option (List GateImg) :=
  if zeros bs 0 16 && decide (16 + 2 * 5136 ≤ bs.length) then
    collect (fun p => readGate (slice bs (16 + 5136 * p) 5136)) [0, 1]
  else none

/-- One outer template (R311). -/
def readTemplate (bs : List Byte) : Option OuterTpl :=
  given (decide (byteAt bs 64 ≤ 64) && zeros bs 69 11)
    { bytes := bs.take (byteAt bs 64), ip4Tot := byteAt bs 65, ip4Csum := byteAt bs 66, udpLen := byteAt bs 67
      ip6Pl := byteAt bs 68 }

/-- One egress profile (R311). -/
def readProfile (bs : List Byte) : Option RwProfile :=
  given (zeros bs 18 14) { mask := beAt bs 0 2, actions := (List.range 8).map fun i => beAt bs (2 + 2 * i) 2 }

/-- An indirection entry names a queue in use (R309, R332). -/
def routeOk (gs : List GateImg) (v : Nat) : Bool :=
  bitsOf v 10 5 == 0
    && (match gs[bitsOf v 15 1]? with
      | some g => (match g.queues[v % 1024]? with | some q => q.weight != 0 | none => false)
      | none => false)

/-- One rule set (R311). -/
def readRules (gs : List GateImg) (bs : List Byte) : Option RuleSet :=
  let ind := (List.range 4096).map fun i => beAt bs (0x200 + 2 * i) 2
  match collect (fun i => readProfile (slice bs (32 * i) 32)) (List.range 16),
      collect (fun i => readTemplate (slice bs (0x2200 + 80 * i) 80)) (List.range 4096) with
  | some ps, some ts => given (ind.all (routeOk gs)) { profiles := ps, indirect := ind, templates := ts }
  | _, _ => none

/-- The profile holds POP_EXT before its END (R307, R339). -/
def popsExt : List Nat → Bool
  | [] => false
  | a :: as => if a / 4096 = 3 then true else if 1 ≤ a / 4096 ∧ a / 4096 ≤ 5 then popsExt as else false

/-- RULESETS (R311, R339). -/
def readRuleSets (gs : List GateImg) (bs : List Byte) : Option (List RuleSet) :=
  let n := byteAt bs 0
  if inRange 1 16 n && zeros bs 1 15 && decide (16 + 336384 * n ≤ bs.length) then
    match collect (fun k => readRules gs (slice bs (16 + 336384 * k) 336384)) (List.range n) with
    | none => none
    | some rs =>
      let pops (r : RuleSet) := r.profiles.map fun p => popsExt p.actions
      given (rs.all fun r => rs.all fun r' => pops r == pops r') rs
  else none

/-! ### EM_TABLE_DEFS (R293) -/

/-- One table record; `total` is the section's length. Bytes +0x02 and +0x03, which no row of R293 names, are 0. Assumption log 93, DESIGN
CHOICE. -/
def readEm (total : Nat) (bs : List Byte) : Option EmDef :=
  let d : EmDef :=
    { role := byteAt bs 0, keyLen := byteAt bs 1, cap := beAt bs 4 4, staticOff := beAt bs 8 4, staticCnt := beAt bs 12 4 }
  given (decide (d.role < 5) && zeros bs 2 2
      && (d.role == 0 || inRange 1 48 d.keyLen)
      && (d.role != 1 || (d.keyLen == 20 && decide (192 ≤ d.cap))) && (d.role != 2 || (d.keyLen == 22 && d.cap == 524288))
      && (d.role != 3 || (d.keyLen == 26 && decide (64 ≤ d.cap)))
      && (if d.role = 4 then decide (d.staticOff ≤ total) && decide (d.staticCnt ≤ d.cap) else d.staticOff == 0 && d.staticCnt == 0))
    d

/-- EM_TABLE_DEFS: the seeds and the eight tables (R293). The CAPACITY and KEY_LEN of a table with ROLE 0x00 are not checked. Assumption
log 95, DEDUCED. -/
def readEmDefs (bs : List Byte) : Option (Nat × Nat × List EmDef) :=
  match collect (fun t => readEm bs.length (slice bs (16 + 16 * t) 16)) (List.range 8) with
  | none => none
  | some ds =>
    let n (r : Nat) := (ds.filter fun d => d.role == r).length
    given (decide (144 ≤ bs.length) && zeros bs 8 8 && n 2 == 1 && n 1 == 1 && decide (n 3 ≤ 1)
        && decide (((ds.filter fun d => d.role != 2 && d.role != 0).map (·.cap)).sum ≤ 12000))
      (beAt bs 0 4, beAt bs 4 4, ds)

/-! ### HBM_SETUP (R371 to R373) -/

/-- Types that R372 gives to channels, and to contexts. -/
def chTypes : List Nat := [1, 2, 3]
def dcxTypes : List Nat := [6, 7, 8, 13]

/-- One region record (R371). -/
def readRegion (bs : List Byte) : Option Region :=
  let r : Region := { type := byteAt bs 0, owner := beAt bs 2 2, base := beAt bs 4 4, pages := beAt bs 8 4 }
  given (inRange 1 13 r.type && byteAt bs 1 == 0 && decide (r.pages ≠ 0) && zeros bs 12 4
      && (if chTypes.contains r.type then decide (r.owner < 192)
          else if dcxTypes.contains r.type then decide (r.owner < 64) else r.owner == 0xFFFF)
      && decide (4096 * (r.base + r.pages) ≤ 0xB40000000)) r

/-- The regions of one type form one contiguous span: together they are as long as the span from the first to the last. -/
def spanOk (rs : List Region) (t : Nat) : Bool :=
  let l := rs.filter fun r => r.type == t
  match l with
  | [] => true
  | a :: _ =>
    let lo := l.foldl (fun m r => min m r.base) a.base
    let hi := l.foldl (fun m r => max m (r.base + r.pages)) 0
    (l.map (·.pages)).sum == hi - lo

/-- No two regions overlap. -/
def disjoint : List Region → Bool
  | [] => true
  | r :: rs => rs.all (fun q => decide (r.base + r.pages ≤ q.base) || decide (q.base + q.pages ≤ r.base)) && disjoint rs

/-- How many regions a type and owner have. -/
def regionCount (rs : List Region) (t o : Nat) : Nat := (rs.filter fun r => r.type == t && r.owner == o).length

/-- The conditions of R373; `chans` channels have a class, `dcxs` are the declared contexts. -/
def mapOk (chans : Nat) (dcxs : List Nat) (rs : List Region) : Bool :=
  disjoint rs && (range2 1 14).all (spanOk rs)
    && (List.range chans).all (fun c => chTypes.all fun t => regionCount rs t c == 1)
    && dcxs.all (fun x => dcxTypes.all fun t => regionCount rs t x == 1)
    && [4, 5, 9, 11].all fun t => regionCount rs t 0xFFFF == 1

/-- HBM_SETUP (R371). -/
def readHbm (chans : Nat) (dcxs : List Nat) (bs : List Byte) : Option HbmImg :=
  let n := beAt bs 0x1E 2
  let prio := (List.range 13).map fun p => byteAt bs (8 + p)
  match collect (fun r => readRegion (slice bs (0x20 + 16 * r) 16)) (List.range n) with
  | none => none
  | some rs =>
    let h : HbmImg :=
      { granule := byteAt bs 0, wrHigh := byteAt bs 1, wrLow := byteAt bs 2, prio := prio, ceLimit := beAt bs 6 2
        retrainS := beAt bs 4 2, regions := rs }
    given (decide (h.granule < 9) && inRange 2 64 h.wrHigh && decide (h.wrLow < h.wrHigh) && byteAt bs 3 == 0
        && decide (60 ≤ h.retrainS) && decide (1 ≤ h.ceLimit) && prio.all (fun p => decide (p < 16)) && noDup prio
        && zeros bs 0x15 9 && inRange 1 4096 n && decide (0x20 + 16 * n ≤ bs.length) && mapOk chans dcxs rs) h

/-! ### NET_SETUP (R313, R314) -/

/-- The block of one port (R313). -/
def readPort (bs : List Byte) : Option PortImg :=
  given (byteAt bs 6 == bit (bitOf (byteAt bs 6) 1) * 2 && decide (byteAt bs 7 < 32) && decide (byteAt bs 8 < 32) && zeros bs 9 7
      && decide (beAt bs 16 16 ≠ 0) && decide (beAt bs 32 4 ≠ 0) && zeros bs 36 28)
    { mac := beAt bs 0 6, laneSub := bitOf (byteAt bs 6) 1, txInv := byteAt bs 7, rxInv := byteAt bs 8, ip6 := beAt bs 16 16
      ip4 := beAt bs 32 4 }

/-- COMPAT delivery defaults (R314). -/
def readCompatDel (bs : List Byte) : Option CompatDel :=
  let d : CompatDel :=
    { prof := byteAt bs 0 / 16, maxTid := byteAt bs 0 / 4 % 4, hop := byteAt bs 1, outer := beAt bs 2 2, srcPort := beAt bs 4 2
      dscp := byteAt bs 6 / 4, ecn := byteAt bs 6 % 4, dstMac := beAt bs 8 6, tpid := beAt bs 14 2, burst := beAt bs 16 2
      dropAt := beAt bs 18 2 }
  given (byteAt bs 0 % 4 == 0 && decide (d.maxTid < 3) && decide (d.outer < 4096) && byteAt bs 7 == 0
      && (d.tpid == 0x8100 || d.tpid == 0x88A8) && inRange 1 16384 d.burst && zeros bs 20 12) d

/-- COMPAT channel defaults (R314). -/
def readCompatCh (bs : List Byte) : Option CompatCh :=
  given (byteAt bs 19 == 0 && zeros bs 24 8)
    { srcAddr := beAt bs 0 16, srcPort := beAt bs 16 2, ipv6 := bitOf (byteAt bs 18) 7, pt := byteAt bs 18 % 128
      ssrc := beAt bs 20 4 }

/-- Watermarks of ingress FIFO `f` (R313). -/
def marksOk (bs : List Byte) (f : Nat) : Bool :=
  let hi := beAt bs (8 + 4 * f) 2
  let lo := beAt bs (10 + 4 * f) 2
  decide (1 ≤ lo) && decide (lo < hi) && decide (hi ≤ if f = 2 then 1024 else 2048)

/-- NET_SETUP (R313). -/
def readNet (bs : List Byte) : Option NetImg :=
  match collect (fun p => readPort (slice bs (0x20 + 0x40 * p) 64)) [0, 1], readCompatDel (slice bs 0xA0 32),
      collect (fun c => readCompatCh (slice bs (0xC0 + 32 * c) 32)) (List.range 64) with
  | some ps, some d, some cs =>
    let h := byteAt bs 0x14
    given (bs.length == 2240 && decide (byteAt bs 0 < 2) && inRange 1 7 (byteAt bs 2) && decide (byteAt bs 3 < 8)
        && decide (beAt bs 4 2 ≠ 0) && zeros bs 6 2 && [0, 1, 2].all (marksOk bs) && !bitOf h 7 && !bitOf h 3 && zeros bs 0x15 3
        && !bitOf (beAt bs 0x18 2) 0 && zeros bs 0x1A 6)
      { ptpPort := byteAt bs 0, ptpDomain := byteAt bs 1, ptpTrans := byteAt bs 2, vftPrio := byteAt bs 3, vftPort := beAt bs 4 2
        wmHigh := [0, 1, 2].map fun f => beAt bs (8 + 4 * f) 2, wmLow := [0, 1, 2].map fun f => beAt bs (10 + 4 * f) 2
        holdA := bitsOf h 0 3, holdB := bitsOf h 4 3, excDrop := beAt bs 0x18 2, ports := ps, cDel := d, cCh := cs }
  | _, _, _ => none

end Sys2Proof.Machine
end

