-- ==== Sys2Proof/Machine/Image.lean ====
section
/-!
DEFINITION. Flash slots and the image container: the ordered checks of a slot (R53 to R64), and the flash as a memory (R55, R67 to
R69).
-/

namespace Sys2Proof.Machine

/-! ### The flash (R55) -/

/-- Length of a slot: 120 MiB (R55). -/
def slotLen : Nat := 125829120

/-- First flash address of a slot: 0 slot A, 1 slot B (R55). -/
def slotBase (slot : Nat) : Nat := if slot = 0 then 0 else 0x08000000

/-- `n` bytes at an offset of a slot; an erased byte is 0xFF. -/
def State.slotBytes (s : State) (slot off n : Nat) : List Byte := Tbl.getList 0xFF s.flash (slotBase slot + off) n

/-- Writes bytes of the flash. -/
def State.flashWrite (s : State) (a : Nat) (bs : List Byte) : State := { s with flash := s.flash.setList 0xFF a bs }

/-- Erases a range of the flash. -/
def State.flashErase (s : State) (a n : Nat) : State := { s with flash := s.flash.drop fun k => decide (a ≤ k ∧ k < a + n) }

/-- A range of the flash takes contents that the spec calls undefined (R69). Assumption log 18, DESIGN CHOICE. -/
def State.flashSpoil (s : State) (a n : Nat) : State :=
  { s with flash := s.flash.setList 0xFF a ((List.range n).map fun i => Config.freeByte s.free i), free := s.free + 1 }

/-! ### Result codes (R72) -/

def resOk : Nat := 1
def resNoFlash : Nat := 2
def resBadMagic : Nat := 3
def resBadHeader : Nat := 4
def resWrongPart : Nat := 5
def resOwnerUnset : Nat := 6
def resKeyMismatch : Nat := 7
def resBadDirectory : Nat := 8
def resReadError : Nat := 9
def resBadSignature : Nat := 10
def resBadContent : Nat := 11
def resTooLarge : Nat := 12

/-! ### The header and the directory (R58 to R60) -/

/-- Fields of an image header that the checks use (R58). -/
structure ImgHdr where
  imgLen : Nat
  count  : Nat
  ver    : Nat
  ident  : List Byte
  key    : List Byte
  deriving DecidableEq, Repr

/-- One directory entry (R59). -/
structure DirEnt where
  type : Nat
  ver  : Nat
  off  : Nat
  len  : Nat
  deriving DecidableEq, Repr

def readHeader (bs : List Byte) : ImgHdr :=
  { imgLen := beAt bs 8 4, count := byteAt bs 15, ver := beAt bs 16 4, ident := slice bs 0x20 16, key := slice bs 0x80 133 }

/-- FORMAT, HDR_LEN, IMG_LEN, SECT_COUNT, FLAGS and the reserved bytes are as R58 requires. -/
def headerOk (bs : List Byte) : Bool :=
  let h := readHeader bs
  beAt bs 4 2 == 1 && beAt bs 6 2 == 0x200 && h.imgLen % 256 == 0 && decide (h.imgLen + 132 ≤ slotLen)
    && (h.count == 14 || h.count == 15) && beAt bs 0x14 4 == 0 && zeros bs 0x30 0x50 && zeros bs 0x105 0xFB

/-- The `n` entries of a directory. -/
def readDir (n : Nat) (bs : List Byte) : List DirEnt :=
  (List.range n).map fun i =>
    { type := beAt bs (32 * i) 2, ver := beAt bs (32 * i + 2) 2, off := beAt bs (32 * i + 4) 4, len := beAt bs (32 * i + 8) 4 }

/-- No two sections overlap (R60). -/
def sectionsApart : List DirEnt → Bool
  | [] => true
  | e :: es => es.all (fun f => decide (e.off + e.len ≤ f.off) || decide (f.off + f.len ≤ e.off)) && sectionsApart es

/-- The directory meets R59 and R60. -/
def dirOk (h : ImgHdr) (bs : List Byte) : Bool :=
  let ds := readDir h.count bs
  ds.all (fun e => inRange 1 15 e.type && e.off % 256 == 0 && decide (0x200 + 32 * h.count ≤ e.off) && decide (e.len ≠ 0)
      && decide (e.off + e.len ≤ h.imgLen))
    && (List.range h.count).all (fun i => zeros bs (32 * i + 12) 20)
    && noDup (ds.map (·.type))
    && (range2 1 16).all (fun t => t == 4 || ds.any fun e => e.type == t)
    && sectionsApart ds

/-! ### Checks 1 to 7 (R53, R62) -/

/-- Staging capacity in bytes: retired encode cores' scratchpads are not used (R53). -/
def State.stageCap (s : State) : Nat :=
  8 * 0x800000 + ((List.range 32).filter fun k => (s.unit (unitEnc k)).st != .retired).length * 0x200000

/-- Checks 1 to 7 of a slot in their order, with a failed flash read in its place (R54, R62). Assumption log 27, DEDUCED. -/
def State.slotVerify (s : State) (slot : Nat) (rd : FlashReads) : Nat :=
  let bs := s.slotBytes slot 0 512
  let h := readHeader bs
  let n := h.imgLen
  if !rd.sfdp then resNoFlash
  else if !rd.header then resReadError
  else if beAt bs 0 4 ≠ 0x5657594E then resBadMagic
  else if !headerOk bs then resBadHeader
  else if beAt bs 12 2 ≠ 0x0192 ∨ 0xA1 < byteAt bs 14 then resWrongPart
  else if !s.sec.sensed.ownerSet then resOwnerUnset
  else if s.sec.sensed.ownerBad || Config.sha512 h.key != s.sec.sensed.owner || !Config.pointOk h.key then resKeyMismatch
  else if !rd.dir then resReadError
  else if !dirOk h (s.slotBytes slot 0x200 (32 * h.count)) then resBadDirectory
  else if s.stageCap < n + 132 then resTooLarge
  else if !rd.body then resReadError
  else if !Config.ecdsaOk h.key (Config.sha512 (s.slotBytes slot 0 n)) (s.slotBytes slot n 132) then resBadSignature
  else resOk

/-! ### Check 8 (R63) -/

/-- Bytes of the section of a type; none where the directory has none. -/
def State.sectBytes (s : State) (slot : Nat) (ds : List DirEnt) (t : Nat) : Option (List Byte) :=
  (ds.find? fun e => e.type == t).map fun e => s.slotBytes slot e.off e.len

/-- Every rota lane has a core in LANE_MAP (R63, R134). -/
def lanesMapped (m : List Nat) (first : Nat) (ls : List Nat) : Bool := ls.all fun l => m[first + l]? != some 0xFF

/-- Reads every section with the content checks of R63; none where the slot fails them. -/
def buildImage (hasDec : Bool) (sect : Nat → List Byte) : Option Img :=
  match readFreq (sect 14), readLevels (sect 12), readModels (sect 10), readLaneMap (sect 5), readGates (sect 11) with
  | some freq, some lv, some ms, some lm, some gs =>
    let fmin := ((freq.drop 17).take 32).foldl min 1600
    let dec := if hasDec then readDecRota (sect 4) else some ([], [])
    match readClasses ms.length fmin (sect 2), dec, readGlean hasDec (sect 6), readParser (sect 7), readEmDefs (sect 9) with
    | some cs, some (dr, ds), some gl, some ps, some (s1, s2, em) =>
      let dcxs := (List.range 64).filter fun x => match ds[x]? with | some d => decide (d.maxW ≠ 0) | none => false
      match readEncRota cs (sect 3), readRuleSets gs (sect 8), readHbm cs.length dcxs (sect 13), readNet (sect 15) with
      | some er, some rs, some hb, some net =>
        given (lanesMapped lm 0 (er.map (·.1)) && lanesMapped lm 28 (dr.map (·.1)))
          { fw := sect 1, classes := cs, encRota := er, decRota := dr, hasDec := hasDec, dec := ds, laneMap := lm, glean := gl
            parser := ps, rules := rs, emSeed1 := s1, emSeed2 := s2, em := em, emBytes := sect 9, models := ms, gates := gs
            levels := lv, hbm := hb, freq := freq, net := net }
      | _, _, _, _ => none
    | _, _, _, _, _ => none
  | _, _, _, _, _ => none

/-- Check 8 on a slot that passed checks 1 to 7: the image's contents, where they pass (R63). Assumption log 27, DEDUCED. -/
def State.slotImage (s : State) (slot : Nat) : Option Img :=
  let h := readHeader (s.slotBytes slot 0 512)
  let ds := readDir h.count (s.slotBytes slot 0x200 (32 * h.count))
  if ds.all fun e => e.ver == 1 then
    buildImage (ds.any fun e => e.type == 4) fun t => (s.sectBytes slot ds t).getD []
  else none

/-- Every check of a slot: its result code, and the image of a slot that passes (R61, R62). Assumption log 27, DEDUCED. -/
def State.slotCheck (s : State) (slot : Nat) (rd : FlashReads) : Nat × Option Img :=
  let r := s.slotVerify slot rd
  if r = resOk then
    match s.slotImage slot with
    | some i => (resOk, some i)
    | none => (resBadContent, none)
  else (r, none)

end Sys2Proof.Machine
end

