-- ==== Sys2Proof/Machine/Irq.lean ====
section
/-!
DEFINITION. The interrupt controller: source lines, deliveries to steward cores and MSI-X vectors, moderation, masks and
redirection (R411, R424 to R430, R434 to R437).
-/

namespace Sys2Proof.Machine

/-! ### Sources and targets -/

/-- The sources that have an entry, in ascending number. -/
def State.irqPending (s : State) : List Nat := (s.irq.srcs.filter fun e => e.2.pend && e.2.en).map fun e => e.1

/-- Group and sub-priority of a source under SPLIT (R426). -/
def State.irqGroup (s : State) (n : Nat) : Nat := (s.irqSrc n).prio / 2 ^ s.irq.split
def State.irqSub (s : State) (n : Nat) : Nat := (s.irqSrc n).prio % 2 ^ s.irq.split

/-- Target of a source's pending delivery: its own, or the one it was redirected to (R426, R430). -/
def IrqSrc.goesTo (v : IrqSrc) : Nat := v.alt.getD v.target

/-- Pending sources that take part in deliveries to target `t` (R426, R430). -/
def State.irqFor (s : State) (t : Nat) : List Nat := s.irqPending.filter fun n => (s.irqSrc n).goesTo == t

/-- The pending source that comes first: highest group, then highest sub-priority, then lowest number (R426). Assumption log 78, DEDUCED. -/
def State.irqBest (s : State) (ns : List Nat) : Option Nat :=
  minBy (fun n => (256 - s.irqGroup n) * 512 + (256 - s.irqSub n)) ns

/-- Target `t` is held (R430). -/
def State.irqHeld (s : State) (t : Nat) : Bool :=
  if t < 4 then s.stopped 1 || s.isFrozen (0xC0 + t) || (s.unit (unitStw t)).st == .retired
  else s.stopped 8 || !s.pcie.link

/-- Vector `v` may send its message: it is not masked, and the function masters the bus (R411, R428). -/
def State.vecOpen (s : State) (v : Nat) : Bool :=
  !s.pcie.fnMask && !(s.pcie.msix.get {} v).mask && s.pcie.bme && !s.pcie.d3

/-- Sources that one delivery to target `t` takes from `ns`: a steward core takes one, of a group above the one it serves; a vector
takes all (R426). -/
def State.irqTakes (s : State) (t : Nat) (ns : List Nat) : List Nat :=
  if t < 4 then
    match s.irqBest ns with
    | none => []
    | some n =>
      match (s.irqTgt t).serving with
      | none => [n]
      | some m => if s.irqGroup m < s.irqGroup n then [n] else []
  else if s.vecOpen (t - 4) then ns else []

/-- Target `t` may be presented a delivery now: it is not held, and it is idle or its moderation interval has passed (R427).
Assumption log 78, DEDUCED. -/
def State.irqReady (s : State) (t : Nat) : Bool := !s.irqHeld t && ((s.irqTgt t).idle || !(s.irqTgt t).moder)

/-- Sources whose delivery to target `t` is being presented. -/
def State.irqPresents (s : State) (t : Nat) : List Nat := if s.irqReady t then s.irqTakes t (s.irqFor t) else []

/-- Bytes of a vector's message leave for host memory (R411). -/
def State.sendMsi (s : State) (v : Nat) : State :=
  let m := s.pcie.msix.get {} v
  { s with host := s.host.setList 0 m.addr (leBytes 4 m.data) }

/-- A source whose delivery was accepted: LAST_OUTCOME reads DELIVERED, or REDIRECTED (R428, R430). -/
def IrqSrc.accepted (v : IrqSrc) : IrqSrc := { v with pend := false, outcome := if v.alt.isSome then 3 else 1, alt := none }

/-- Target `t` accepts a delivery of sources `ns` (R426 to R430). -/
def State.irqAccept (s : State) (t : Nat) (ns : List Nat) : State :=
  match ns with
  | [] => s
  | n :: _ =>
    let s := ns.foldl (fun s n => s.setIrqSrc n (s.irqSrc n).accepted) s
    let v := s.irqTgt t
    let s := s.setIrqTgt t { v with
      idle := false, moder := decide (v.interval ≠ 0), serving := if t < 4 then some n else none }
    if t < 4 then s else s.sendMsi (t - 4)

/-- A mask write withdraws the deliveries being presented: they stay pending (R428). -/
def State.irqWithdraw (s : State) (ns : List Nat) : State :=
  ns.foldl (fun s n => s.setIrqSrc n { s.irqSrc n with outcome := 2 }) s

/-! ### Commands -/

/-- IRQ_EVENT: the line of a source takes a level and holds it for `held` controller cycles; the change is accepted once that is FILTER,
and an accepted rise is an event (R424, R425, R435). The line of a stopped island keeps its level (R477). Assumption log 68,
DEDUCED. -/
def execIrqEvent (src : Nat) (level : Bool) (s : State) (held : Nat := 64) : Res :=
  .next (
    if !s.awake || irqReserved src || (irqIsland src).any s.stopped || decide (held < (s.irqSrc src).filter) then s
    else
      let v := s.irqSrc src
      let v' := if level && !v.line then v.event else v
      s.setIrqSrc src { v' with line := level })

/-- IRQ_DELIVERY: the delivery presented to a target is accepted (R426 to R428). Assumption log 75, DESIGN CHOICE. -/
def execIrqDelivery (tgt : Nat) (s : State) : Res := .next (s.irqAccept tgt (s.irqPresents tgt))

/-- IRQ_MODERATION_END: the interval since the target's last delivery has passed (R427). -/
def execIrqModerationEnd (tgt : Nat) (s : State) : Res := .next (s.setIrqTgt tgt { s.irqTgt tgt with moder := false })

/-- IRQ_REDIRECT: deliveries have been due at a held target for ALT_DELAY: they go to ALT_TGT, which takes what it can at once; the rest
waits there, also where ALT_TGT is held itself. A delivery is redirected once (R430). Assumption log 78, DEDUCED. -/
def execIrqRedirect (tgt : Nat) (s : State) : Res :=
  .next (
    let v := s.irqTgt tgt
    let due := (s.irqFor tgt).filter fun n => (s.irqSrc n).alt.isNone
    if !s.irqHeld tgt ∨ !v.altEn ∨ 68 ≤ v.altTgt ∨ due.isEmpty then s
    else
      let s := due.foldl (fun s n => s.setIrqSrc n { s.irqSrc n with alt := some v.altTgt }) s
      s.irqAccept v.altTgt (s.irqPresents v.altTgt))

/-- IRQ_HOST_ACK: the vector is idle (R427, R436). -/
def execIrqHostAck (v : Nat) (s : State) : Res := .next (if s.awake then s.setIrqTgt (4 + v) { s.irqTgt (4 + v) with idle := true } else s)

/-- IRQ_SW_SET: one event on a software source (R436). -/
def execIrqSwSet (n : Nat) (s : State) : Res := .next (if s.awake then s.irqEvent (irqSw n) else s)

/-- IRQ_SRC_CFG: a write that clears EN or names another target masks a delivery being presented (R428, R429, R434). -/
def execIrqSrcCfg (n : Nat) (w : Word) (s : State) : Res :=
  .next (
    if !s.awake || irqReserved n then s
    else
      let v := s.irqSrc n
      let x := w.toNat
      let v' := { v with en := bitOf x 31, target := bitsOf x 24 7, filter := bitsOf x 16 6, prio := bitsOf x 0 8 }
      let off := !v'.en || decide (v'.target ≠ v.target)
      let s := if (s.irqPresents v.goesTo).contains n && off then s.irqWithdraw [n] else s
      s.setIrqSrc n { v' with outcome := (s.irqSrc n).outcome, alt := if off then none else v.alt })

/-- MSIX_MASK: the function mask, or a vector's mask bit (R411, R428). -/
def execMsixMask (w : MsixWr) (s : State) : Res :=
  .next (if !s.awake then s else match w with
    | .function m =>
      let s := if m then (range2 4 68).foldl (fun s t => s.irqWithdraw (s.irqPresents t)) s else s
      { s with pcie := { s.pcie with fnMask := m } }
    | .vector n m =>
      let s := if m then s.irqWithdraw (s.irqPresents (4 + n)) else s
      { s with pcie := { s.pcie with msix := s.pcie.msix.upd {} n fun x => { x with mask := m } } })

end Sys2Proof.Machine
end

