-- ==== Sys2Proof/Machine/Bodies.lean ====
section
/-!
DEFINITION. The bytes of audience bodies: what an access to the AUDIENCE region of the granary reads and writes (R298, R324, R372).
-/

namespace Sys2Proof.Machine

/-- Bytes of a body (R298). -/
def bodyLen : Nat := 128

def BodySt.code : BodySt → Nat
  | .empty => 0 | .held => 1 | .active => 2

/-- STATE 0b11 is treated as empty (R298). -/
def BodySt.ofCode (n : Nat) : BodySt := if n = 1 then .held else if n = 2 then .active else .empty

/-- NEXT of a body: its successor in its channel's chain, or the end of it; a body never written reads 0 (R298). -/
def State.nextBody (s : State) (h : Nat) : Nat :=
  if s.body h = {} then 0 else (((s.chain (s.body h).d.ch).dropWhile fun k => k != h)[1]?).getD 0xFFFFF

/-- The 128 bytes of a body with its NEXT (R298, R324). -/
def Body.bytes (b : Body) (next : Nat) : List Byte :=
  let d := b.d
  beBytes 4 (b.st.code * 2 ^ 30 + bit d.player * 2 ^ 29 + bit d.ipv6 * 2 ^ 28 + bit b.root * 2 ^ 27 + bit b.dropPic * 2 ^ 26
      + d.maxTid % 4 * 2 ^ 24 + d.ch % 256 * 2 ^ 16 + d.prof % 16 * 2 ^ 12 + d.outer % 4096)
    ++ beBytes 4 (next % 2 ^ 20 * 2 ^ 12 + b.logHead % 16 * 2 ^ 4 + b.logCount % 16)
    ++ beBytes 16 d.dstAddr ++ beBytes 2 d.dstPort ++ beBytes 2 d.srcPort ++ beBytes 4 d.ssrc ++ beBytes 6 d.dstMac
    ++ beBytes 1 (d.dscp % 64 * 4 + d.ecn % 4) ++ beBytes 1 d.hop ++ beBytes 4 d.vlan0 ++ beBytes 4 d.vlan1 ++ beBytes 4 d.markId
    ++ beBytes 4 (d.keySlot % 2 ^ 20) ++ beBytes 4 b.roc ++ beBytes 2 b.dseq ++ beBytes 2 b.curOff
    ++ beBytes 4 b.sh.rate ++ beBytes 2 b.sh.burst ++ beBytes 2 b.sh.dropAt ++ beBytes 4 (b.sh.credit % 2 ^ 32).toNat ++ beBytes 4 b.sh.last
    ++ (List.range 12).flatMap fun i => beBytes 2 (b.log.get (0, 0) i).1 ++ beBytes 2 (b.log.get (0, 0) i).2

/-- The body that 128 bytes stand for (R298, R324); what is no field of them stays as `b` has it. -/
def Body.ofBytes (b : Body) (bs : List Byte) : Body :=
  let f (off n : Nat) : Nat := beNat (slice bs off n)
  let w := f 0 4
  { b with
    st := BodySt.ofCode (bitsOf w 30 2), root := bitOf w 27, dropPic := bitOf w 26
    d := {
      player := bitOf w 29, ipv6 := bitOf w 28, maxTid := bitsOf w 24 2, ch := bitsOf w 16 8, prof := bitsOf w 12 4, outer := bitsOf w 0 12
      dstAddr := f 0x08 16, dstPort := f 0x18 2, srcPort := f 0x1A 2, ssrc := f 0x1C 4, dstMac := f 0x20 6
      dscp := f 0x26 1 / 4, ecn := f 0x26 1 % 4, hop := f 0x27 1, vlan0 := f 0x28 4, vlan1 := f 0x2C 4, markId := f 0x30 4
      keySlot := f 0x34 4 % 2 ^ 20 }
    logHead := bitsOf (f 4 4) 4 4, logCount := bitsOf (f 4 4) 0 4
    roc := f 0x38 4, dseq := f 0x3C 2, curOff := f 0x3E 2
    sh := {
      rate := f 0x40 4, burst := f 0x44 2, dropAt := f 0x46 2
      credit := (BitVec.ofNat 32 (f 0x48 4)).toInt, last := f 0x4C 4 }
    log := (List.range 12).foldl (fun t i => t.set (0, 0) i (f (0x50 + 4 * i) 2, f (0x52 + 4 * i) 2)) [] }

/-- A range lies in the AUDIENCE region (R372). -/
def State.inAudience (s : State) (a n : Nat) : Bool :=
  let base := s.regionBase 0x04 0xFFFF
  decide (base ≤ a) && decide (a + n ≤ base + s.regionLen 0x04 0xFFFF)

/-- Bytes that an access to the granary or the scratchpads reads: in the AUDIENCE region those of the bodies (R298). -/
def State.accRead (s : State) (a n : Nat) : List Byte :=
  if s.inAudience a n then
    let o := a - s.regionBase 0x04 0xFFFF
    let bs := (range2 (o / bodyLen) ((o + n + bodyLen - 1) / bodyLen)).flatMap fun h => (s.body h).bytes (s.nextBody h)
    slice bs (o % bodyLen) n
  else s.ramRead a n

/-- A unit of the granary that is rewritten whole is poisoned no more (R358). -/
def State.heal (s : State) (a n : Nat) : State :=
  { s with hbm := { s.hbm with
      poison := (wholeUnits a n).foldl (fun t u => t.set false u false) s.hbm.poison
      redone := (wholeUnits a n).foldl
        (fun t u => if s.hbm.badPos.get false (s.posOf (64 * u)) then t.set false u true else t) s.hbm.redone } }

/-- Bytes that an access writes, through an alias: in the AUDIENCE region they change bodies, but for NEXT, which is the chains' own
(R298). Assumption log 81, DESIGN CHOICE. -/
def State.accWrite (s : State) (al a : Nat) (bs : List Byte) : State :=
  if s.inAudience a bs.length then
    let o := a - s.regionBase 0x04 0xFFFF
    let t := (range2 (o / bodyLen) ((o + bs.length + bodyLen - 1) / bodyLen)).foldl (fun t h =>
      let from_ := max o (bodyLen * h)
      let part := slice bs (from_ - o) (min (o + bs.length) (bodyLen * h + bodyLen) - from_)
      t.setBody h ((s.body h).ofBytes (splice ((s.body h).bytes (s.nextBody h)) (from_ - bodyLen * h) part))) s
    t.heal a bs.length
  else s.ramWrite al a bs

end Sys2Proof.Machine
end

