-- ==== Sys2Proof/Machine/DecCore.lean ====
section
/-!
DEFINITION. What a decode core makes of queued units: parameter sets, coded units and their checks, reference marks, concealment,
final samples, output (R249 to R251, R258, R260 to R272). Assumption log 59, DESIGN CHOICE.
-/

namespace Sys2Proof.Machine

open Config (ParamSet PicSyn UnitSyn BlkSyn)

/-! ### Units taken apart (R254, R256) -/

/-- A NAL unit gathered in reverse, without its trailing zero bytes. -/
def closeNal : Option (Nat × List Byte) → List (Nat × List Byte)
  | none => []
  | some (o, r) => [(o, (r.dropWhile (· == 0)).reverse)]

/-- NAL units of an Annex B byte stream with their offsets, from the byte at an offset on, with bytes of a start code still to be
skipped and the NAL unit gathered so far. -/
def annexB : List Byte → Nat → Nat → Option (Nat × List Byte) → List (Nat × List Byte)
  | [], _, _, c => closeNal c
  | _ :: bs, o, k + 1, c => annexB bs (o + 1) k c
  | b :: bs, o, 0, c =>
    if b = 0 ∧ 2 ≤ bs.length ∧ byteAt bs 0 = 0 ∧ byteAt bs 1 = 1 then closeNal c ++ annexB bs (o + 1) 2 (some (o + 3, []))
    else annexB bs (o + 1) 0 (c.map fun e => (e.1, b :: e.2))

/-- OBUs of the low-overhead bitstream format with their offsets. -/
def obuSplit : Nat → List Byte → Nat → List (Nat × List Byte)
  | 0, _, _ => []
  | n + 1, bs, o =>
    if bs.isEmpty then []
    else
      let hl := if bitOf (byteAt bs 0) 2 then 2 else 1
      let (l, k) := if bitOf (byteAt bs 0) 1 then lebRead 8 (bs.drop hl) else (bs.length - hl, 0)
      (o, bs.take (hl + k + l)) :: obuSplit n (bs.drop (hl + k + l)) (o + hl + k + l)

/-- NAL units or OBUs of a queued unit, with their offsets (R256). -/
def splitUnit (codec : Nat) (bs : List Byte) : List (Nat × List Byte) :=
  if codec = 3 then obuSplit bs.length bs 0 else annexB bs 0 0 none

/-- What a NAL unit or OBU is to the decode core. -/
inductive NalKind where
  | pset | sei | coded | other
  deriving DecidableEq, Repr

/-- Kind of a NAL unit or OBU by its type in H.264, HEVC and AV1. -/
def nalKind (codec : Nat) (nal : List Byte) : NalKind :=
  let b := byteAt nal 0
  match codec with
  | 1 =>
    let ty := b % 32
    if ty = 7 ∨ ty = 8 then .pset else if ty = 6 then .sei else if ty = 1 ∨ ty = 5 then .coded else .other
  | 2 =>
    let ty := bitsOf b 1 6
    if b % 2 = 1 ∨ 8 ≤ byteAt nal 1 then .other
    else if 32 ≤ ty ∧ ty ≤ 34 then .pset else if ty = 39 then .sei else if ty < 32 then .coded else .other
  | _ =>
    let ty := bitsOf b 3 4
    if ty = 1 then .pset else if ty = 3 ∨ ty = 4 ∨ ty = 6 then .coded else .other

/-! ### Parameter sets (R249, R250) -/

/-- Profile and level lie within R249. -/
def profileOk (codec : Nat) (p : ParamSet) : Bool :=
  match codec with
  | 1 => ((p.profile == 66 && p.cs1) || p.profile == 77 || p.profile == 100) && decide (p.level ≤ 52)
  | 2 => (p.profile == 1 || p.profile == 2) && decide (p.level ≤ 183)
  | _ => p.profile == 0 && decide (p.level ≤ 16)

/-- Bit depth, chroma format and tools lie within R249. -/
def toolsOk (codec : Nat) (p : ParamSet) : Bool :=
  (p.bits == 8 || (p.bits == 10 && codec != 1 && !(codec == 2 && p.profile == 1))) && p.chroma == 1
    && !p.field && !p.fmo && !p.redundant && !p.ext && !p.mono && !p.largeTile

/-- The size lies within R249 and the context's declaration: the cropped size within MAX_WIDTH and MAX_HEIGHT, and the coded size
within the buffer, which rounds them up to multiples of 64 (R262). Assumption log 59, DESIGN CHOICE. -/
def codedSizeOk (d : DecDecl) (codec : Nat) (p : ParamSet) : Bool :=
  decide (16 ≤ p.w ∧ p.w ≤ 8192 ∧ 16 ≤ p.h ∧ p.h ≤ 4352) && decide (p.w * p.h ≤ if codec = 1 then 9437184 else 35651584)
    && decide (p.cropW ≤ d.maxW ∧ p.cropH ≤ d.maxH ∧ p.cropX + p.cropW ≤ p.w ∧ p.cropY + p.cropH ≤ p.h)
    && decide (p.w ≤ ceilDiv d.maxW 64 * 64 ∧ p.h ≤ ceilDiv d.maxH 64 * 64)

/-- A parameter set meets every condition of R250. -/
def psetOk (d : DecDecl) (codec : Nat) (p : ParamSet) : Bool :=
  p.ok && (match p.kind with
    | 0 => profileOk codec p && decide (p.maxRefs ≤ 8)
    | 1 => profileOk codec p && toolsOk codec p && decide (p.maxRefs ≤ 8) && codedSizeOk d codec p
    | _ => !p.fmo && !p.redundant && !p.ext)

/-- A parameter set arrives: accepted and in force, or discarded and counted (R250). -/
def State.takeSet (s : State) (x : Nat) (nal : List Byte) : State :=
  let v := s.dcxOf x
  let p := Config.psetSyntax v.codec nal
  match s.img.dec[x]? with
  | none => s
  | some d =>
    if psetOk d v.codec p then
      s.setDcx x { v with
        psets := (p.kind, p.id, nal) :: v.psets.filter fun e => !(e.1 == p.kind && e.2.1 == p.id)
        active := if p.kind = 1 then some p else v.active }
    else s.dcxCount x 2 1

/-! ### Samples of blocks -/

/-- Buffers of a context's pool (R262). -/
def State.decPool (s : State) (x : Nat) : Nat :=
  match s.img.dec[x]? with
  | some d => if d.maxW = 0 then 0 else 9 + d.outFrames
  | none => 0

/-- Blocks in a row and rows of blocks of a coded picture. -/
def setCols (p : ParamSet) : Nat := ceilDiv p.w p.blk
def setRows (p : ParamSet) : Nat := ceilDiv p.h p.blk

/-- A sample of the stream's depth from and to the 10 bits of a container (R270). -/
def fromTen (p : ParamSet) (v : Nat) : Nat := if p.bits = 8 then v / 4 else v
def toTen (p : ParamSet) (v : Nat) : Nat := if p.bits = 8 then 4 * v else v

/-- Row `i` of a plane of a block of side `n`: luma rows, then CbCr rows. -/
def blkRow (n plane i : Nat) (vs : List Nat) : List Nat := (vs.drop (if plane = 0 then n * i else n * n + n * i)).take n

/-- Rows of a buffer's picture at the stream's depth: Y, then CbCr. -/
def State.picRows (s : State) (x b : Nat) (p : ParamSet) : List (List Nat) :=
  (List.range p.h).map (fun r => (s.decGet x b 0 r p.w).map (fromTen p))
    ++ (List.range (p.h / 2)).map fun r => (s.decGet x b 1 r p.w).map (fromTen p)

/-- The co-located samples of a block in a buffer (R266). -/
def State.blkOf (s : State) (x b : Nat) (p : ParamSet) (pos : Nat) : List Nat :=
  let c0 := pos % setCols p * p.blk
  let r0 := pos / setCols p * p.blk
  let row (plane r : Nat) : List Nat := ((s.decGet x b plane r (c0 + p.blk)).drop c0).map (fromTen p)
  (List.range p.blk).flatMap (fun i => row 0 (r0 + i)) ++ (List.range (p.blk / 2)).flatMap fun i => row 1 (r0 / 2 + i)

/-- A block of mid-grey (R266, R267). -/
def greyBlk (p : ParamSet) : List Nat := List.replicate (p.blk * p.blk + p.blk * p.blk / 2) (midGrey p.bits)

/-- Fills a buffer with mid-grey (R267). -/
def State.greyBuf (s : State) (x b : Nat) (p : ParamSet) : State :=
  let row := List.replicate p.w (toTen p (midGrey p.bits))
  let s := (List.range p.h).foldl (fun s r => s.decPut x b 0 r 0 row) s
  (List.range (p.h / 2)).foldl (fun s r => s.decPut x b 1 r 0 row) s

/-- Writes the final samples of a block row to the buffer: copied blocks are not filtered (R266, R270). -/
def State.writeRow (s : State) (x : Nat) (p : CurPic) (copied : List Nat) (r : Nat) : State :=
  let n := p.set.blk
  let cols := setCols p.set
  let near := p.done.filter fun e => decide (e.1 / cols ≤ r + 1)
  let fin := Config.decFilter (s.dcxOf x).codec p.hdr r near copied
  let blk (c : Nat) : List Nat :=
    if copied.contains (r * cols + c) then p.done.get [] (r * cols + c) else (fin[c]?).getD []
  let line (plane i : Nat) : List Nat :=
    (((List.range cols).flatMap fun c => blkRow n plane i (blk c)).take p.set.w).map (toTen p.set)
  let s := (List.range (min n (p.set.h - r * n))).foldl (fun s i => s.decPut x p.buf 0 (r * n + i) 0 (line 0 i)) s
  (List.range (min (n / 2) ((p.set.h - r * n) / 2))).foldl (fun s i => s.decPut x p.buf 1 (r * n / 2 + i) 0 (line 1 i)) s

/-- Leading block rows whose final samples the decoded blocks determine: the filters reach into the next row. -/
def CurPic.rowsReady (p : CurPic) : Nat :=
  let n := ((List.range (setRows p.set)).takeWhile fun r =>
    (List.range (setCols p.set)).all fun c => !(p.done.get [] (r * setCols p.set + c)).isEmpty).length
  if n = setRows p.set then n else n - 1

/-- Writes the block rows that have become final, and marks them for the bound channel (R270, R274). -/
def State.writeRows (s : State) (x n : Nat) (copied : List Nat) : State :=
  let v := s.dcxOf x
  match v.cur with
  | none => s
  | some p =>
    if n ≤ p.rows then s
    else
      let s := (range2 p.rows n).foldl (fun s r => s.writeRow x p copied r) s
      let s := s.setDcx x { s.dcxOf x with cur := some { p with rows := n } }
      if ((s.dcxOf x).info.get {} p.buf).taken then s.bindRows x p.buf else s

/-! ### Marks (R260, R261, R267) -/

/-- REF stands on the buffers that the references name (R260). -/
def Dcx.remark (v : Dcx) : Dcx :=
  { v with pool := (List.range 32).foldl (fun t b =>
      t.upd {} b fun m => { m with ref := v.refs.any fun e => e.2 == b }) v.pool }

/-- The buffer of a reference. -/
def Dcx.refBuf (v : Dcx) (id : Int) : Option Nat := (v.refs.find? fun e => e.1 == id).map (·.2)

/-- A buffer is taken for a new picture: it holds no correctly decoded picture any more (R261). -/
def Dcx.takeBuf (v : Dcx) (b : Nat) : Dcx := { v with good := v.good.filter fun g => g ≠ b }

/-- Substitutes take the places of missing references: the most recent correctly decoded picture, or a mid-grey buffer (R267). None
where no buffer is free for the latter. -/
def State.substitute (s : State) (x : Nat) (p : ParamSet) (missing : List Int) : Option State :=
  let v := s.dcxOf x
  let put (s : State) (b : Nat) (grey : Bool) : State :=
    let v := s.dcxOf x
    s.setDcx x ({ v with refs := v.refs ++ missing.map (·, b), subs := v.subs ++ missing.map (·, grey) } : Dcx).remark
  if missing.isEmpty then some s
  else
    match v.good with
    | b :: _ => some (put s b false)
    | [] =>
      match freeBuf v.pool (s.decPool x) with
      | none => none
      | some b =>
        let i : PicInfo := { bits := p.bits, w := p.cropW, h := p.cropH, cropX := p.cropX, cropY := p.cropY }
        let v := v.takeBuf b
        some (put ((s.setDcx x { v with info := v.info.set {} b i }).greyBuf x b p) b true)

/-! ### Output (R251, R260, R272, R274) -/

/-- BAR4 offset of granary address 0 (R273). -/
def bar4Granary : Nat := 0x400000000

/-- The 32 bytes of an output record (R272). -/
def State.outRecord (s : State) (x b seq : Nat) : List Byte :=
  match s.img.dec[x]? with
  | none => []
  | some d =>
    let i := (s.dcxOf x).info.get {} b
    let p := decPitch d
    let y := i.cropY * p + 2 * i.cropX
    let c := decChroma d + i.cropY / 2 * p + 2 * (i.cropX / 2 * 2)
    leBytes 4 seq ++ leBytes 1 (b % 32) ++ leBytes 1 (i.flags % 128) ++ leBytes 1 i.bits ++ leBytes 1 (s.dcxOf x).codec
      ++ leBytes 2 i.w ++ leBytes 2 i.h ++ leBytes 4 p ++ leBytes 8 (bar4Granary + s.regionBase 0x06 x + b * decBufSize d + y)
      ++ leBytes 4 (c - y) ++ leBytes 4 i.ts

/-- Buffers of a context that hold HOST marks. -/
def Dcx.hostHeld (v : Dcx) : Nat := (v.pool.filter fun e => e.2.host).length

/-- The host holds every output buffer that it may hold (R10, R272). -/
def State.hostFull (s : State) (x : Nat) : Bool :=
  match s.img.dec[x]? with
  | some d => (s.dcxOf x).outHost && decide (d.outFrames ≤ (s.dcxOf x).hostHeld)
  | none => false

/-- The host's side of an output: a record and HOST, or a drop where OUT_FRAMES buffers are held (R272). -/
def State.outHost (s : State) (x b : Nat) : State :=
  let v := s.dcxOf x
  match s.img.dec[x]? with
  | none => s
  | some d =>
    if !v.outHost then s
    else if d.outFrames ≤ v.hostHeld then s.dcxCount x 8 1
    else
      let rec_ := s.outRecord x b v.outSeq
      let s := s.granWrite (s.regionBase 0x08 x + 32 * (v.outSeq % 64)) rec_
      let s := s.setDcx x { v with outSeq := (v.outSeq + 1) % 2 ^ 32 }
      (s.markBuf x b fun m => { m with host := true }).irqEvent (irqDecOut x)

/-- The bound channel's side of an output: a picture that the open frame has taken while it was decoded is done with; the open frame
that found no picture takes this one; otherwise the picture waits, and keeps OUT meanwhile (R274, R275). -/
def State.outBind (s : State) (x b : Nat) : State :=
  let v := s.dcxOf x
  match v.bindCh with
  | none => s.markBuf x b fun m => { m with out := false }
  | some ch =>
    if (v.info.get {} b).taken then s.markBuf x b fun m => { m with out := false }
    else
      match s.cls ch with
      | none => s
      | some c =>
        let i := v.info.get ({} : PicInfo) b
        let s := s.setDcx x { v with waiting := v.waiting ++ [(b, i.w, i.h, i.flags)] }
        if v.wants && (s.ingOf ch).isOpen then (s.setDcx x { s.dcxOf x with wants := false }).bindFrame c ch x else s

/-- A picture is output (R251, R272, R274): SIZE_CHANGE marks the first at a new size. `extra` are FLAGS that this output alone has.
Assumption log 59, DESIGN CHOICE. -/
def State.outputPic (s : State) (x b : Nat) (extra : Nat := 0) : State :=
  let v := s.dcxOf x
  let i := v.info.get {} b
  let new := match v.lastSize with
    | some z => decide (z ≠ (i.w, i.h))
    | none => false
  let s := s.setDcx x { v with
    lastSize := some (i.w, i.h), info := v.info.set {} b { i with flags := (i.flags ||| extra) % 64 + if new then 64 else 0 } }
  let s := (s.outHost x b).outBind x b
  let v := s.dcxOf x
  s.setDcx x { v with info := v.info.upd ({} : PicInfo) b fun j => { j with flags := i.flags % 64 } }

/-- Bumping outputs the waiting picture that is first in output order (R251). -/
def State.bump (s : State) (x : Nat) : State :=
  let v := s.dcxOf x
  let order (e : Nat × Nat) : Int := (v.info.get {} e.1).order
  match v.await.find? fun e => v.await.all fun a => decide (order e ≤ order a) with
  | none => s
  | some e => (s.setDcx x { v with await := v.await.filter fun a => a.1 ≠ e.1 }).outputPic x e.1

/-- Bumping goes on while a condition holds. -/
def State.bumpWhile (f : Dcx → Bool) (x : Nat) : Nat → State → State
  | 0, s => s
  | n + 1, s => if f (s.dcxOf x) && !(s.dcxOf x).await.isEmpty then State.bumpWhile f x n (s.bump x) else s

/-- Frames in the DPB: awaiting output, or references; the buffer of the current picture is none of them (R251). -/
def Dcx.dpbFull (v : Dcx) : Nat :=
  ((v.await.map (·.1) ++ v.refs.map (·.2)).eraseDups.filter fun b => v.cur.all fun p => p.buf ≠ b).length

/-- DPB size for bumping (R251). -/
def dpbSize (p : ParamSet) : Nat := min p.dpb 8

/-- More pictures await output than the stream reorders, or one has waited for its latency (R251). -/
def Dcx.lateOut (p : ParamSet) (v : Dcx) : Bool :=
  decide (p.reorder < v.await.length) || (match p.latency with
    | some n => v.await.any fun e => decide (n ≤ e.2)
    | none => false)

/-- At the start of a coded video sequence the pictures that await output are output in order, or, under
no_output_of_prior_pics_flag, found not to be output (R251). -/
def State.flushOut (s : State) (x : Nat) (noPrior : Bool) : State :=
  if noPrior then
    let v := s.dcxOf x
    let s := v.await.foldl (fun s e => s.markBuf x e.1 fun m => { m with out := false }) s
    s.setDcx x { s.dcxOf x with await := [] }
  else s.bumpWhile (fun _ => true) x (s.dcxOf x).await.length

/-- The DPB has no empty frame buffer (R251). -/
def Dcx.noRoom (p : CurPic) (v : Dcx) : Bool := decide (dpbSize p.set ≤ v.dpbFull)

/-- The current picture comes before every picture that awaits output. -/
def Dcx.comesFirst (p : CurPic) (v : Dcx) : Bool := v.await.all fun e => decide (p.pic.order < (v.info.get {} e.1).order)

/-- The current picture joins those that await output. -/
def State.awaitOut (s : State) (x : Nat) (p : CurPic) : State :=
  let v := s.dcxOf x
  s.setDcx x { v with await := v.await.map (fun e => (e.1, e.2 + 1)) ++ [(p.buf, 0)] }

/-- An H.264 picture that is no reference: while the DPB has no room, it is output if it comes first, and otherwise another picture is
bumped (R251). -/
def State.storeNonRef (x : Nat) (p : CurPic) : Nat → State → State
  | 0, s => s.awaitOut x p
  | n + 1, s =>
    let v := s.dcxOf x
    if !v.noRoom p then s.awaitOut x p
    else if v.comesFirst p then s.outputPic x p.buf
    else State.storeNonRef x p n (s.bump x)

/-- The decoded picture awaits output, or is output, by its format's process (R251). -/
def State.storeOut (s : State) (x : Nat) (p : CurPic) : State :=
  let v := s.dcxOf x
  if !p.pic.output then (if v.codec = 1 ∧ !p.pic.store.isEmpty then s.bumpWhile (Dcx.noRoom p) x v.await.length else s)
  else
    let s := s.markBuf x p.buf fun m => { m with out := true }
    match v.codec with
    | 1 =>
      if p.pic.store.isEmpty then s.storeNonRef x p (v.await.length + 1)
      else (s.bumpWhile (Dcx.noRoom p) x v.await.length).awaitOut x p
    | 2 => let s := s.awaitOut x p; s.bumpWhile (Dcx.lateOut p.set) x (s.dcxOf x).await.length
    | _ => s.outputPic x p.buf

/-! ### Pictures (R260, R266 to R269) -/

/-- Adds FLAGS to the picture in decoding. -/
def State.flagPic (s : State) (x flags : Nat) : State :=
  let v := s.dcxOf x
  s.setDcx x { v with cur := v.cur.map fun p => { p with flags := p.flags ||| flags } }

/-- The picture in decoding ends: blocks that no correct unit gave are copied from the concealment reference, its rows are final, its
flags, marks and output follow (R251, R260, R266, R268, R282). -/
def State.finishPic (s : State) (x : Nat) : State :=
  let v := s.dcxOf x
  match v.cur with
  | none => s
  | some p =>
    let gaps := (List.range (setCols p.set * setRows p.set)).filter fun i => (p.done.get [] i).isEmpty
    let blk (i : Nat) : List Nat := match p.refs.head?.or v.good.head? with
      | some b => s.blkOf x b p.set i
      | none => greyBlk p.set
    let p := { p with
      done := gaps.foldl (fun t i => t.set [] i (blk i)) p.done, flags := if gaps.isEmpty then p.flags else p.flags ||| 1 }
    let s := (s.setDcx x { v with cur := some p }).writeRows x (setRows p.set) gaps
    let v := s.dcxOf x
    let ok := p.flags % 16 == 0
    let s := s.setDcx x ({ v with
      info := v.info.upd ({} : PicInfo) p.buf fun i => { i with flags := p.flags }
      good := if ok then p.buf :: v.good else v.good
      recov := if ok then v.recov else none
      refs := (v.refs.filter fun e => !p.pic.store.contains e.1) ++ p.pic.store.map (·, p.buf)
      subs := v.subs.filter fun e => !p.pic.store.contains e.1 } : Dcx).remark
    let s := (s.markBuf x p.buf fun m => { m with cur := false }).dcxCount x 0 1
    let s := if concealed p.flags then s.dcxCount x 1 1 else s
    let s := match v.bindCh with
      | some ch => if (v.info.get ({} : PicInfo) p.buf).taken then s.noteConc ch x p.buf p.flags else s
      | none => s
    let s := s.storeOut x p
    s.setDcx x { s.dcxOf x with cur := none }

/-- The picture in decoding is the next to be output: in AV1 as soon as it ends; otherwise where it comes before those that await output
and the stream can put no later picture before it, or where it is no reference and finds the DPB without room (R251, R274). -/
def Dcx.outNext (v : Dcx) (p : CurPic) : Bool :=
  p.pic.output && (v.codec == 3
    || (v.comesFirst p && (decide (p.set.reorder ≤ v.await.length) || (v.codec == 1 && p.pic.store.isEmpty && v.noRoom p))))

/-- A picture that the open frame of the bound channel waits for, and that is the next to be output, is taken as it begins (R274). -/
def State.takeEarly (s : State) (x : Nat) : State :=
  let v := s.dcxOf x
  match v.cur, v.bindCh with
  | some p, some ch =>
    match s.cls ch with
    | some c =>
      let q := s.sessOf ch
      if v.outNext p && v.wants && (s.ingOf ch).isOpen && decide (p.set.cropW = q.w ∧ p.set.cropH = q.h) then
        (s.setDcx x { v with info := v.info.upd ({} : PicInfo) p.buf fun i => { i with taken := true } }).takePic c ch x p.buf
      else s
    | none => s
  | _, _ => s

/-- The SPS or sequence header that a picture refers to, where it and every other set that the picture names have been accepted (R250).
An AV1 frame has the size that its own header gives it, within the bounds of R249; otherwise it counts as having no set. -/
def Dcx.setOf (v : Dcx) (d : DecDecl) (y : PicSyn) : Option ParamSet :=
  if y.others.all fun o => v.psets.any fun e => e.1 == o.1 && e.2.1 == o.2 then
    match (v.psets.find? fun e => e.1 == 1 && e.2.1 == y.sps).map fun e => Config.psetSyntax v.codec e.2.2 with
    | none => none
    | some p =>
      let q := match y.size with
        | some (w, h, cw, ch) => { p with w := w, h := h, cropX := 0, cropY := 0, cropW := cw, cropH := ch }
        | none => p
      if codedSizeOk d v.codec q then some q else none
  else none

/-- The set of a picture of a context (R250). -/
def State.picSet (s : State) (x : Nat) (y : PicSyn) : Option ParamSet := (s.img.dec[x]?).bind fun d => (s.dcxOf x).setOf d y

/-- FLAGS of a picture as it begins: CONC_UNIT where its parameter set is absent; CONC_REF and GREY by the substitutes it uses;
CONC_INHERIT by its references, unless a recovery point completes with it; GRAIN (R249, R250, R267, R268). -/
def Dcx.startFlags (v : Dcx) (noSet : Bool) (y : PicSyn) : Nat :=
  let sub := v.subs.filter fun e => y.uses.contains e.1
  let done := match v.recov with
    | some n => decide (n ≤ y.num)
    | none => false
  let inherits := !y.noRef && !done && (y.uses.filterMap v.refBuf).any fun b => concealed (v.info.get {} b).flags
  bit noSet + bit (!sub.isEmpty) * 2 + bit (sub.any (·.2)) * 4 + bit y.grain * 16 + bit inherits * 32

/-- A picture begins (R250, R251, R260, R261, R267 to R269): references that the marking process drops lose REF, substitutes take the
places of missing ones, and it takes the lowest free buffer. None where no buffer is free (R259). -/
def State.startPic (s : State) (x : Nat) (u : DecUnit) (nal : List Byte) (y : PicSyn) (set : ParamSet) : Option State :=
  let v := s.dcxOf x
  let s := s.setDcx x { v with
    active := some set, lastPic := some y, begun := true
    recov := match v.recovSei with
      | some n => some (y.num + n)
      | none => v.recov
    recovSei := none }
  let s := if y.clear then s.flushOut x y.noPrior else s
  let v := s.dcxOf x
  let kept := if y.clear then [] else if v.codec = 3 then v.refs else v.refs.filter fun e => y.keep.contains e.1
  let s := s.setDcx x ({ v with refs := kept, subs := v.subs.filter fun e => kept.any fun k => k.1 == e.1 } : Dcx).remark
  let ids := if v.codec = 3 then y.uses else y.keep ++ y.uses
  match s.substitute x set ((ids.filter fun i => !kept.any fun e => e.1 == i).eraseDups) with
  | none => none
  | some s =>
    let s := if v.codec = 2 then
        s.bumpWhile (fun w => w.lateOut set || decide (dpbSize set ≤ w.dpbFull)) x (s.dcxOf x).await.length
      else s
    let v := s.dcxOf x
    match freeBuf v.pool (s.decPool x) with
    | none => none
    | some b =>
      let i : PicInfo :=
        { bits := set.bits, w := set.cropW, h := set.cropH, cropX := set.cropX, cropY := set.cropY, ts := u.ts, order := y.order }
      let s := s.setDcx x { v.takeBuf b with
        cur := some { buf := b, pic := y, hdr := nal, set := set, flags := v.startFlags (s.picSet x y).isNone y, refs := y.uses.filterMap v.refBuf }
        info := v.info.set {} b i
        recov := match v.recov with
          | some n => if n ≤ y.num then none else v.recov
          | none => none }
      some ((s.markBuf x b fun m => { m with cur := true }).takeEarly x)

/-! ### Work in decoding order (R138, R258, R265, R266) -/

/-- Goes on to the next coded unit of a NAL unit or OBU, and to the next NAL unit or OBU. -/
def State.nextSub (s : State) (x : Nat) (carry : List Nat) : State :=
  let v := s.dcxOf x
  s.setDcx x { v with sub := v.sub + 1, blk := 0, begun := false, carry := carry }
def State.nextItem (s : State) (x : Nat) : State :=
  let v := s.dcxOf x
  s.setDcx x { v with item := v.item + 1, sub := 0, blk := 0, begun := false }

/-- The unit at the head of the queue is consumed: its picture ends, and RP passes it (R138, R281). -/
def State.takeUnit (s : State) (x : Nat) : State :=
  let s := s.finishPic x
  let v := s.dcxOf x
  match v.units with
  | [] => s
  | u :: us => s.setDcx x { v with
      units := us, item := 0, sub := 0, blk := 0, begun := false
      inRp := if s.ringBytes x = 0 then 0 else (v.inRp + u.len) % s.ringBytes x }

/-- Bytes from `lo` to below `hi` of the queued unit answer a read with an error response (R358, R447). -/
def State.unitBad (s : State) (x lo hi : Nat) : Bool :=
  let n := s.ringBytes x
  let a := s.regionBase 0x07 x
  let r := (s.dcxOf x).inRp
  let w := n - r
  s.poisoned (a + r + lo) (min hi w - lo) || (decide (w < hi) && s.poisoned (a + (lo - w)) (hi - max lo w))

/-- A row of a reference that the block reads answers with an error response (R447). -/
def State.readsBad (s : State) (x : Nat) (p : CurPic) (nal : List Byte) (vals : List Int) : Bool :=
  (Config.decReads (s.dcxOf x).codec nal vals).any fun (i, r, n) =>
    match p.refs[i]? with
    | some b => (range2 r (r + n)).any fun row => s.poisoned (s.decAddr x b 0 row) (2 * p.set.w) || s.poisoned (s.decAddr x b 1 (row / 2)) (2 * p.set.w)
    | none => false

/-- A block can be decoded: every syntax value lies in its range, and no unit has decoded the block before (R265). -/
def CurPic.blockOk (p : CurPic) (b : BlkSyn) : Bool :=
  b.vals.all (fun e => decide (e.lo ≤ e.v ∧ e.v ≤ e.hi)) && decide (b.pos < setCols p.set * setRows p.set)
    && (p.done.get [] b.pos).isEmpty

/-- Decodes the next block of a coded unit, or finds the unit corrupt from it on, or at its end (R265, R266, R447). -/
def State.stepBlock (s : State) (x off : Nat) (nal : List Byte) (t : UnitSyn) (p : CurPic) : State :=
  let v := s.dcxOf x
  match t.blocks[v.blk]? with
  | none => (if t.ends then s else s.flagPic x 1).nextSub x t.carry
  | some b =>
    let vals := b.vals.map (·.v)
    if !p.blockOk b || s.unitBad x off (off + b.fin) || s.readsBad x p nal vals then (s.flagPic x 1).nextSub x t.carry
    else
      let n := p.set.blk * p.set.blk + p.set.blk * p.set.blk / 2
      let smp := Config.decBlock v.codec nal vals p.done (p.refs.map fun r => s.picRows x r p.set)
      let p := { p with done := p.done.set [] b.pos ((smp ++ List.replicate n 0).take n) }
      (s.setDcx x { v with cur := some p, blk := v.blk + 1 }).writeRows x p.rowsReady []

/-- Shows an existing frame of a slot (R251): where the slot was never filled, its substitute, with CONC_REF, and GREY where it is a
mid-grey buffer (R267). -/
def State.showSlot (s : State) (x : Nat) (u : DecUnit) (slot : Int) (y : PicSyn) : Option State :=
  let v := s.dcxOf x
  match v.active with
  | none => some s
  | some set =>
    match s.substitute x set (if (v.refBuf slot).isSome then [] else [slot]) with
    | none => none
    | some s =>
      let v := s.dcxOf x
      match v.refBuf slot with
      | none => some s
      | some b =>
        let extra := match v.subs.find? fun e => e.1 == slot with
          | some e => 2 + 4 * bit e.2
          | none => 0
        let s := s.setDcx x ({ v with
          refs := (v.refs.filter fun e => !y.store.contains e.1) ++ y.store.map (·, b)
          info := if 4 ≤ extra then v.info.upd ({} : PicInfo) b fun i => { i with ts := u.ts } else v.info } : Dcx).remark
        some (s.outputPic x b extra)

/-- One step on a coded unit: the picture before it ends, its own begins, or its next block is decoded. None where the picture that it
begins finds no free buffer (R259). A unit whose header cannot be decoded, or whose parameter set is absent, is corrupt (R250,
R266); one of a picture that the watchdog stopped is passed over (R264). -/
def State.codedStep (s : State) (x : Nat) (u : DecUnit) (off : Nat) (nal : List Byte) (t : UnitSyn) : Option State :=
  let v := s.dcxOf x
  if !t.hdrOk then some ((s.flagPic x 1).nextSub x t.carry)
  else
    match t.shows with
    | some slot => ((s.finishPic x).showSlot x u slot t.pic).map fun s => s.nextSub x t.carry
    | none =>
      if !v.begun && v.blk == 0 && (t.first || v.lastPic != some t.pic) then
        match (s.picSet x t.pic).or v.active with
        | none => some (s.nextSub x t.carry)
        | some set => if v.cur.isSome then some (s.finishPic x) else s.startPic x u nal t.pic set
      else
        match v.cur with
        | none => some (s.nextSub x t.carry)
        | some p =>
          some (if (s.picSet x t.pic).isNone then (s.flagPic x 1).nextSub x t.carry else s.stepBlock x off nal t p)

/-- One step of decoding on the queued units; none where there is no unit, or no free buffer (R258, R259). -/
def State.decodeOne (s : State) (x : Nat) : Option State :=
  let v := s.dcxOf x
  match v.units with
  | [] => none
  | u :: _ =>
    let nals := splitUnit v.codec (s.unitBytes x u.len)
    match nals[v.item]? with
    | none => some (s.takeUnit x)
    | some (off, nal) =>
      match nalKind v.codec nal with
      | .pset => some ((s.takeSet x nal).nextItem x)
      | .sei => some ((s.setDcx x { v with recovSei := (Config.seiRecovery v.codec nal).or v.recovSei }).nextItem x)
      | .other => some (s.nextItem x)
      | .coded =>
        match (Config.unitSyntax v.codec v.psets v.carry u.loss ((nals.map (·.2)).take (v.item + 1)))[v.sub]? with
        | none => some (s.nextItem x)
        | some t => s.codedStep x u off nal t

/-- The next picture of the queued units finds no free buffer (R259). -/
def State.starves (x : Nat) : Nat → State → Bool
  | 0, _ => false
  | n + 1, s =>
    if (s.dcxOf x).cur.isSome || (s.dcxOf x).units.isEmpty then false
    else
      match s.decodeOne x with
      | none => true
      | some s => State.starves x n s

end Sys2Proof.Machine
end

