-- ==== Sys2Proof/Machine/DecRun.lean ====
section
/-!
DEFINITION. The decode lanes: runs, the write-port check, the watchdog, gleaning (R137, R138, R258, R259, R263, R264, R277).
-/

namespace Sys2Proof.Machine

/-! ### Decode lanes (R137, R138, R150, R277) -/

/-- Entry `idx` of a decode lane. -/
def State.dlaneEnt (s : State) (l idx : Nat) : Option DecEnt :=
  (s.img.decRota.findSome? fun (k, es) => if k = l then some es else none).bind fun es => es[idx]?

/-- A decode run with nothing to execute. -/
def State.dfallow (s : State) (l : Nat) : State := s.setDLane l { s.dlane l with nFallow := (s.dlane l).nFallow + 1 }

/-- The core that executes the decode lane's next run. -/
def State.dlaneCore (s : State) (l : Nat) : Option Nat := (s.dlane l).bound.filter fun k => s.decReady k

/-- The run of a decode lane has saved its context's state and ends (R138). -/
def State.endDecRun (s : State) (l : Nat) : State :=
  let v := s.dlane l
  let s := s.setDLane l { v with run := none }
  let s := { s with decRedo := s.decRedo.set none l none }
  match v.bound with
  | some k => s.setDec k { s.decOf k with act := 0 }
  | none => s

/-- Base and length of a buffer descriptor: 0 the buffer of the picture in decoding, 1 the record ring, 2 the context's saved state
(R263, R271, R272, R372). -/
def State.descOf (s : State) (x desc : Nat) : Nat × Nat :=
  match desc, s.img.dec[x]?, (s.dcxOf x).cur with
  | 0, some d, some p => (s.decAddr x p.buf 0 0, decBufSize d)
  | 1, _, _ => (s.regionBase 0x08 x, 64 * 32)
  | 2, _, _ => (s.regionBase 0x0D x, s.regionLen 0x0D x)
  | _, _, _ => (0, 0)

/-- The check on a core's write port: a write within its descriptor goes through; any other is suppressed, the rest of the coded unit
is corrupt, and it counts and raises DEC_BOUNDS (R263). -/
def State.portWrite (s : State) (k x : Nat) (w : DecWrite) : State :=
  let (base, len) := s.descOf x w.desc
  if w.off + w.data.length ≤ len then s.granWrite (base + w.off) w.data
  else (((s.flagPic x 1).nextSub x (s.dcxOf x).carry).decCnt k 3 1).raise (srcDecBounds k)

/-- The steps of a run on core `k`, as many as it has time for; answers what is left of them (R138, R258, R263). -/
def State.decodeAll (k x : Nat) (ws : List DecWrite) : Nat → Nat → State → State × Nat
  | 0, _, s => (s, 0)
  | n + 1, i, s =>
    let s := (ws.filter fun w => w.after == i).foldl (fun s w => s.portWrite k x w) s
    match s.decodeOne x with
    | none => (s, n + 1)
    | some s => State.decodeAll k x ws n (i + 1) s

/-- The core of a decode lane decodes a context's queued units (R138, R258, R278, R279). -/
def State.decodeRun (s : State) (l k x work : Nat) (ws : List DecWrite) : State :=
  let s := { s with decRedo := s.decRedo.set none l (some (s.dcxOf x)) }
  let v := s.dlane l
  let s := s.setDLane l { v with run := some x, nRun := v.nRun + 1 }
  let s := (s.setDec k { s.decOf k with ctx := x, act := 1 }).decCnt k 0 1
  let (s, left) := s.decodeAll k x ws work 0
  s.setDLane l { s.dlane l with left := left }

/-- A decode run that has not ended when the lane's next entry starts is abandoned: its output is discarded and its input stays queued,
and it counts as an overrun (R129, R138, R145). A gleaning run has left its results. Assumption log 105, DEDUCED. -/
def State.doverrun (s : State) (l : Nat) : State :=
  let v := s.dlane l
  let s := match v.bound with
    | some k => s.setDec k { s.decOf k with act := 0 }
    | none => s
  if v.run.isSome then (s.dropDecRun l).setDLane l { (s.dropDecRun l).dlane l with nOver := v.nOver + 1 }
  else s.setDLane l { v with glean := none }

/-- The rota issues decode runs (R144, R145). -/
def State.dissues (s : State) (e : DecEnt) : Bool := s.issues s.nowSlot && decide (e.len ≠ 0)

/-- DECODE_RUN_START: a RUN restores its context's state and decodes its queued units; it is fallow without input, and without a
free buffer for the next picture, which POOL_WAIT counts (R138, R258, R259), or while the host holds every buffer that it may hold (R10).
The core has time for `work` blocks in the run, and `writes` are what it writes beside its decoding (R263). Assumption log 59, DESIGN
CHOICE; 83, DEDUCED. -/
def execDecodeRunStart (dlane idx work : Nat) (s : State) (writes : List DecWrite := []) : Res :=
  .next (match s.dlaneEnt dlane idx with
    | none => s
    | some e =>
      if !s.dissues e || e.kind == 2 then s
      else
        let s := s.doverrun dlane
        let x := e.dcx
        let v := s.dcxOf x
        match s.dlaneCore dlane with
        | none => s.dfallow dlane
        | some k =>
          if e.kind ≠ 0 ∨ !v.isOpen ∨ v.units.isEmpty then s.dfallow dlane
          else if s.hostFull x || s.starves x (s.ringBytes x + 2) then (s.dfallow dlane).dcxCount x 6 1
          else (s.decodeRun dlane k x work writes).wakeRuns)

/-- DECODE_RUN_STOP: the core has stopped taking work, with units fed during the run decoded in the time that was left, and saved the
context's state (R138, R276). -/
def execDecodeRunStop (dlane : Nat) (s : State) : Res :=
  .next (match (s.dlane dlane).run, (s.dlane dlane).bound with
    | some x, some k => ((s.decodeAll k x [] (s.dlane dlane).left 0).1.endDecRun dlane).wakeRuns
    | some _, none => s.endDecRun dlane
    | none, _ => if (s.dlane dlane).glean.isSome then s.doverrun dlane else s)

/-- DEC_WATCHDOG: the cycle budget of the picture in decoding is spent: decoding of it stops, the blocks not yet decoded are concealed,
and it carries WATCHDOG (R264). -/
def execDecWatchdog (dlane : Nat) (s : State) : Res :=
  .next (match (s.dlane dlane).run with
    | none => s
    | some x =>
      if (s.dcxOf x).cur.isNone then s
      else ((((s.flagPic x 8).finishPic x).nextSub x (s.dcxOf x).carry).dcxCount x 7 1).wakeRuns.raise srcDecWd)

/-- The end of a gleaning case on decode core `k` (R277, R279). -/
def State.decGleanEnd (s : State) (k gcase : Nat) (sig : BitVec 64) (ok : Bool) : State :=
  let e := s.decOf k
  let s := s.setDec k { e with gMatch := ok, gCase := gcase, gSig := sig }
  if ok then s else (s.decCnt k 2 1).raise (srcDecGlean k)

/-- The signature that sound hardware gives for a decode case: the CRC-32C of the samples before in-loop filtering, and that of the
final samples (R211, R277). -/
def State.decCaseSig (s : State) (gcase : Nat) : BitVec 64 :=
  match s.img.glean[gcase]? with
  | none => 0
  | some g =>
    let (pre, fin) := Config.decodeCase g.format g.data
    BitVec.ofNat 64 ((crc32c pre).toNat * 2 ^ 32 + (crc32c fin).toNat)

/-- Core `k`'s next decode case, and the core with the run counted (R277). -/
def State.nextDecGlean (s : State) (k : Nat) : Nat × State :=
  let e := s.decOf k
  (gleanCaseAt s.img.glean 1 e.gleans, s.setDec k { e with gleans := e.gleans + 1 })

/-- DECODE_GLEAN_RUN: the lane's core decodes its next case; `err` is what the hardware's errors change in the signature, 0 in sound
hardware, and `failed` says that a bounds hit or a watchdog expiry ended it. The core shows gleaning until the run's time is over. On an
unbound lane the run is skipped (R135, R139, R277, R278). -/
def execDecodeGleanRun (dlane idx : Nat) (err : BitVec 64) (failed : Bool) (s : State) : Res :=
  .next (match s.dlaneEnt dlane idx with
    | none => s
    | some e =>
      if !s.dissues e || e.kind != 2 then s
      else
        let s := s.doverrun dlane
        match s.dlaneCore dlane with
        | none => s.dfallow dlane
        | some k =>
          let (g, s) := s.nextDecGlean k
          let v := s.dlane dlane
          let s := (s.setDLane dlane { v with nRun := v.nRun + 1, glean := some g }).decCnt k 1 1
          let s := s.setDec k { s.decOf k with act := 2 }
          let sig := s.decCaseSig g ^^^ err
          s.decGleanEnd k g sig (s.caseMatches g sig && !failed))

/-- DEC_RELEASE: the HOST mark of a buffer clears (R260, R273). -/
def execDecRelease (dcx buf : Nat) (s : State) : Res := .next (if s.awake then s.markBuf dcx buf fun m => { m with host := false } else s)

end Sys2Proof.Machine
end

