-- ==== Sys2Proof/Machine/Replicate.lean ====
section
/-!
DEFINITION. Replication: audience bodies, shapers, pass 1, the build stage, RTCP and retransmission (R298 to R308, R310, R322 to
R327, R344).
-/

namespace Sys2Proof.Machine

/-! ### Bodies (R297, R298, R300) -/

/-- A handle names a held or active body that is linked. -/
def State.named (s : State) (h : Nat) : Bool := (s.body h).st != .empty && (s.chain (s.body h).d.ch).contains h

/-- Unlinks a delivery: its slot is cleared, and its body waits for the packets in flight (R297, R300). -/
def State.unlinkBody (s : State) (h : Nat) : State :=
  let b := s.body h
  let s := s.setChain b.d.ch ((s.chain b.d.ch).filter fun k => k != h)
  let s := match s.emTable roleAud with
    | some t => s.emDelete t (audKey b.d)
    | none => s
  s.setBody h { b with st := .empty, waits := some s.liveFlights }

/-- A packet whose lookup found the body has not left the packet engine: it is in an engine, waits for its turn, or waits for
RTCP authentication (R284, R297, R301). -/
def State.foundBody (s : State) (ptr : Nat) : Bool :=
  (s.pkt.pes.any fun e => e.2.busy && e.2.hit == some (.aud ptr))
    || (s.pkt.order.any fun e => e.2.any fun r => r.res.any fun x => x.2.hit == some (.aud ptr))
    || s.pkt.rtcpQ.contains ptr

/-- BODY_FREE: no packet whose lookup or pass 1 began before the unlink is under way any more; the pointer is free again (R297). -/
def execBodyFree (ptr : Nat) (s : State) : Res :=
  .next (match (s.body ptr).waits with
    | some fs => if s.stewardFree && (fs.all fun f => !(s.flight f).live) && !s.foundBody ptr then s.setBody ptr {} else s
    | none => s)

/-- The granary unit of a body gives an error response (R358, R447). -/
def State.bodyBad (s : State) (h : Nat) : Bool := s.poisoned (s.regionBase 0x04 0xFFFF + 128 * h) 128

/-- A body that cannot be read: PKT_BODY_ERR is raised, and the steward unlinks and frees the delivery from its own record (R447). -/
def State.bodyErr (s : State) (h : Nat) : State := (s.raise srcBodyErr).unlinkBody h

/-! ### Credit shapers (R324, R325, R327) -/

/-- Full credit. -/
def Shaper.full (v : Shaper) : Int := (v.burst * 65536 : Nat)

/-- update(e) at EGR_TIME `now` (R325). -/
def Shaper.update (v : Shaper) (now : Nat) : Shaper :=
  let d := (now + 2 ^ 32 - v.last) % 2 ^ 32
  { v with
    last := now
    credit := if 2 ^ 31 ≤ d then v.full else min (v.credit + ((v.rate * d * 16 / 125 : Nat) : Int)) v.full }

/-- Microseconds until the debt is repaid (R325). -/
def Shaper.wait (v : Shaper) : Nat := if 0 ≤ v.credit then 0 else ceilDiv (v.credit.natAbs * 125) (16 * v.rate)

/-- The charge of `l` bytes after an update would pass the debt limit (R325). -/
def Shaper.tooDeep (v : Shaper) (l : Nat) : Bool := decide (v.credit - ((l * 1024 : Nat) : Int) < -2147483648)

/-- Charges `l` bytes. -/
def Shaper.charge (v : Shaper) (l : Nat) : Shaper := { v with credit := v.credit - ((l * 1024 : Nat) : Int) }

/-- layer_drop (R327), after update. -/
def Shaper.layerDrop (v : Shaper) : Bool := decide (v.dropAt ≠ 0) && decide (((v.dropAt * 65536 : Nat) : Int) ≤ -v.credit)

/-! ### The payload cache (R310) -/

def cacheCap : Nat := 8388608

/-- A packet is pinned while a flight of it lives. Assumption log 62, DESIGN CHOICE. -/
def State.pinned (s : State) (pid : Nat) : Bool := s.rep.flights.any fun e => e.2.live && e.2.pid == pid

/-- Drops the least recently used entries (at the head) that are not pinned until at most `cap` bytes remain.
Assumption log 62, DESIGN CHOICE. -/
def dropLru (pin : Nat → Bool) (total cap : Nat) : List (Nat × Nat) → List (Nat × Nat)
  | [] => []
  | e :: es => if total ≤ cap then e :: es else if pin e.1 then e :: dropLru pin total cap es else dropLru pin (total - e.2) cap es

/-- Bytes of a list of cache entries. -/
def cacheBytes (l : List (Nat × Nat)) : Nat := (l.map fun e => e.2).sum

/-- A payload is used: it moves to the front; one read at its first pass 1 enters, where pinned payloads leave room (R310).
Assumption log 62, DESIGN CHOICE. -/
def State.cacheUse (s : State) (pid len : Nat) : State :=
  let l := s.rep.cache.filter fun e => e.1 != pid
  let kept := (dropLru s.pinned (cacheBytes l + len) cacheCap l.reverse).reverse
  let l := if cacheBytes kept + len ≤ cacheCap then (pid, len) :: kept else kept
  { s with rep := { s.rep with cache := l } }

/-- The payload is in the cache. -/
def State.cached (s : State) (pid : Nat) : Bool := s.rep.cache.any fun e => e.1 == pid

/-! ### Pass 1 (R303, R304) -/

def recircCap : Nat := 16384

/-- A copy descriptor of a body for a packet (R304, R309, R325, R340). -/
def State.descriptor (s : State) (f h : Nat) (d : Dest) (mp : MPkt) (dseq roc elig : Nat) (retx : Bool) : Copy :=
  let r := s.ruleSet (s.flight f).epoch
  let (port, queue) := r.route h d
  { flight := f, handle := h, mp := mp, d := d, dseq := dseq, roc := roc, epoch := (s.flight f).epoch, port := port
    queue := queue, len := r.copyLen d mp.len, elig := elig, tag := itag s.egr.itSeed (d.tagIn port), retx := retx, hdr := []
    outerLen := (r.template (r.shape d)).bytes.length, ftag := 0 }

/-- A copy descriptor joins the recirculation queue. -/
def State.pushCopy (s : State) (c : Copy) : State :=
  let v := s.flight c.flight
  { s with rep := { s.rep with recirc := s.rep.recirc ++ [c] } }.setFlight c.flight { v with copies := v.copies + 1 }

/-- A retransmission's descriptor joins the queue, or waits for room in it where it is full (R303, R344). Assumption log 64, DEDUCED. -/
def State.pushRetx (s : State) (c : Copy) : State :=
  if s.rep.recirc.length < recircCap then s.pushCopy c
  else
    let v := s.flight c.flight
    { s with rep := { s.rep with retxQ := s.rep.retxQ ++ [c] } }.setFlight c.flight { v with copies := v.copies + 1 }

/-- advance(e) (R304). -/
def Body.advance (b : Body) : Body :=
  let n := (b.dseq + 1) % 65536
  { b with dseq := n, roc := if n = 0 then (b.roc + 1) % 2 ^ 32 else b.roc }

/-- emit(e, p) and advance(e): the copy is charged, and refused or sent on (R304, R325). -/
def State.emitCopy (s : State) (f h : Nat) (b : Body) (mp : MPkt) : State :=
  let now := s.egrTime
  let sh := b.sh.update now
  let l := (s.ruleSet (s.flight f).epoch).copyLen b.d mp.len
  if decide (8191 < sh.wait) || sh.tooDeep l then (s.setBody h { b.advance with sh := sh }).devCount 1 1
  else
    let c := s.descriptor f h b.d mp b.dseq b.roc ((now + sh.wait) % 2 ^ 32) false
    (s.setBody h { b.advance with sh := sh.charge l }).pushCopy c

/-- The variant of a marked sheaf that a delivery receives: 1 A, 2 B (R238). -/
def Dest.variant (d : Dest) (b : Nat) : Nat := if bitOf d.markId b then 2 else 1

/-- MAX_TID, where 0b11 is treated as 2 (R298). -/
def Dest.topTid (d : Dest) : Nat := min 2 d.maxTid

/-- The delivery log takes the offset in force from DSEQ on (R304). -/
def Body.logOff (b : Body) (off : Nat) : Body :=
  if b.logCount = 0 ∨ off ≠ b.curOff then
    { b with
      log := b.log.set (0, 0) b.logHead (b.dseq, off), logHead := (b.logHead + 1) % 12, logCount := min 12 (b.logCount + 1)
      curOff := off }
  else b

/-- Pass 1 on one body (R304). -/
def State.passBody (s : State) (mp : MPkt) (f h : Nat) : State :=
  let b := s.body h
  let wakes := b.st == .held && mp.join && mp.first
  if b.st == .held && !wakes then s
  else
    let b := if wakes then { b with st := .active, root := true, sh := { b.sh with credit := b.sh.full, last := s.egrTime } } else b
    if mp.join then (if b.root then s.emitCopy f h b mp else s)
    else
      let up := b.sh.update s.egrTime
      let drop := decide (1 ≤ mp.tid) && up.layerDrop
      let s := if mp.first && drop then s.devCount 0 1 else s
      let b := { b with root := false, dropPic := if mp.first then drop else b.dropPic }
      let b := if mp.first && decide (1 ≤ mp.tid) then { b with sh := up } else b
      if decide (b.d.topTid < mp.tid) || b.dropPic || (mp.var != 0 && mp.var != b.d.variant mp.bit) then
        s.setBody h { b with sh := up }
      else s.emitCopy f h (b.logOff ((mp.seq + 65536 - b.dseq) % 65536)) mp

/-- Pass 1 ends. -/
def State.endPass1 (s : State) (f : Nat) : State := (s.setFlight f { s.flight f with pass1 := false }).settleFlight f

/-- Pass 1 over the rest of a chain: it pauses where the recirculation queue is full, and ends at a body that it cannot read
(R303, R304, R447). -/
def State.passChain (mp : MPkt) (f : Nat) : List Nat → List Nat → State → State
  | _, [], s => s.endPass1 f
  | seen, h :: hs, s =>
    if recircCap ≤ s.rep.recirc.length then { s with rep := { s.rep with paused := some { mp := mp, flight := f, seen := seen } } }
    else if s.bodyBad h then (s.bodyErr h).endPass1 f
    else passChain mp f (h :: seen) hs (s.passBody mp f h)

/-- Replication runs: in RUN, and PKT's clock is not stopped (R444, R476). -/
def State.repRuns (s : State) : Bool := s.glb.st == .run && !s.stopped 6

/-- PASS1: the oldest signalled packet of a channel is taken through its audience chain (R303, R304, R310, R312). A packet of an
earlier session is made for nobody. -/
def execPass1 (ch : Nat) (s : State) : Res :=
  .next (
    if !s.repRuns || s.rep.paused.isSome then s
    else
      match s.rep.sigQ.find? fun p => p.ch == ch with
      | none => s
      | some mp =>
        let s := { s with rep := { s.rep with sigQ := s.rep.sigQ.erase mp } }
        if mp.sess ≠ (s.sessOf ch).id then s
        else
          let (f, s) := s.beginFlight { pass1 := true, pid := mp.pid }
          (s.cacheUse mp.pid mp.len).passChain mp f [] (s.chain ch))

/-- Bodies of a chain behind the last one already passed. -/
def afterSeen (seen chain : List Nat) : List Nat := (chain.reverse.takeWhile fun h => !seen.contains h).reverse

/-- PASS1_RESUME: pass 1 goes on where it stopped once the recirculation queue has room (R303). -/
def execPass1Resume (s : State) : Res :=
  .next (match s.rep.paused with
    | none => s
    | some w =>
      if !s.repRuns || decide (recircCap ≤ s.rep.recirc.length) then s
      else
        let s := { s with rep := { s.rep with paused := none } }
        if w.mp.sess ≠ (s.sessOf w.mp.ch).id then s.endPass1 w.flight
        else s.passChain w.mp w.flight w.seen (afterSeen w.seen (s.chain w.mp.ch)))

/-! ### The build stage (R306, R308, R322) -/

def storeCap : Nat := 65536

/-- Copies of a list that hold entries of the copy store. -/
def stored (l : List Copy) : List Copy := l.filter fun c => c.tmmbn.isNone

/-- Key of a queue of a port. -/
def State.queue (s : State) (p q : Nat) : List Copy := s.egr.queues.get [] (qKey p q)
def State.setQueue (s : State) (p q : Nat) (l : List Copy) : State :=
  { s with egr := { s.egr with queues := s.egr.queues.set [] (qKey p q) l } }

/-- Copy-store entries in use (R322, R346). -/
def State.storeUsed (s : State) (p : Nat) : Nat :=
  (s.egr.cal.get [] p).length + (stored (s.egr.sealing.get [] p)).length
    + ((s.egr.queues.filter fun e => e.1 / 1024 == p).map fun e => (stored e.2).length).sum

/-- Copies of a queue in the calendar or the queue (R322, R349). -/
def State.queueDepth (s : State) (p q : Nat) : Nat :=
  ((s.egr.cal.get [] p).filter fun c => c.queue == q).length + (stored (s.queue p q)).length

/-- EGR_STORE_FULL is raised by the port's unit, whose line does not rise while its NET island is stopped (R322, R477). -/
def State.storeFull (s : State) (p : Nat) : State := if s.stopped (4 + p) then s else s.raise srcStoreFull

/-- Admission of a built copy to its port's copy store (R322); a port in an island that is OFF takes none (R466). Assumption log 64, DEDUCED. -/
def State.storeCopy (s : State) (c : Copy) : State :=
  if (s.islOf (4 + c.port)).st = .off then s.copyDone c
  else if storeCap ≤ s.storeUsed c.port then ((s.egrCount c.port 2 1).storeFull c.port).copyDone c
  else if (s.queueCfg c.port c.queue).depth ≤ s.queueDepth c.port c.queue then (s.egrCount c.port 3 1).copyDone c
  else
    let s := if c.retx then s.egrCount c.port 8 1 else s
    { s with egr := { s.egr with cal := s.egr.cal.set [] c.port (s.egr.cal.get [] c.port ++ [c]) } }

/-- The rewrite checks on a built copy; `agree` says that the two builders' bytes are equal (R308). -/
def rewriteOk (c : Copy) (agree : Bool) : Bool :=
  agree && c.d.ch == c.mp.ch && c.hdr.length + c.mp.len + 16 + 4 == c.len

/-- Retransmission descriptors that found the recirculation queue full join it where it has room (R303). -/
def State.retxJoin (s : State) : State :=
  let n := recircCap - s.rep.recirc.length
  { s with rep := { s.rep with recirc := s.rep.recirc ++ s.rep.retxQ.take n, retxQ := s.rep.retxQ.drop n } }

/-- Pass 2 finds an error in a body: its delivery is unlinked where it is linked still, and the packet is copied neither to it nor to any
later delivery of the chain (R447). -/
def State.pass2Err (s : State) (c : Copy) : State :=
  let gone := s.rep.recirc.filter fun x => x.flight == c.flight
  let s := if s.named c.handle then s.bodyErr c.handle else s.raise srcBodyErr
  let s := { s with rep := { s.rep with recirc := s.rep.recirc.filter fun x => x.flight != c.flight } }
  let s := gone.foldl State.copyDone (s.copyDone c)
  match s.rep.paused with
  | some w => if w.flight = c.flight then { s with rep := { s.rep with paused := none } }.endPass1 w.flight else s
  | none => s

/-- BUILD_STAGE: the oldest copy descriptor is built, checked and admitted (R306, R308, R322), unless its delivery's body answers with an
error (R447); its place in the recirculation queue is free again (R303). Assumption log 65, DEDUCED. -/
def execBuildStage (agree : Bool) (s : State) : Res :=
  .next (match s.rep.recirc with
    | [] => s
    | c :: cs =>
      if !s.pktRuns then s
      else
        let c := { c with hdr := s.copyHdr c }
        let s := { s with rep := { s.rep with recirc := cs } }.retxJoin
        if s.bodyBad c.handle then s.pass2Err c
        else if rewriteOk c agree then s.storeCopy c else ((s.pktCount 6 1).raise srcRewrite).copyDone c)

/-! ### RTCP (R224, R233, R240, R301, R305, R336, R344) -/

/-- Log records of a body, newest first. -/
def Body.records (b : Body) : List (Nat × Nat) :=
  (List.range b.logCount).map fun i => b.log.get (0, 0) ((b.logHead + 11 - i) % 12)

/-- resolve(d): the master sequence number of a delivery sequence number (R305). -/
def Body.resolve (b : Body) (d : Nat) : Option Nat :=
  let before (a c : Nat) : Bool := decide (seqDist a c < 32768)
  if d = b.dseq ∨ !before d b.dseq then none
  else (b.records.find? fun r => before r.1 d).map fun r => (d + r.2) % 65536

/-- The master packet of a number in a channel's ring for a delivery: the one variant that it first received (R238, R344). -/
def State.ringFind (s : State) (ch m : Nat) (d : Dest) : Option MPkt :=
  (s.egr.rings.get [] ch).find? fun p =>
    p.seq == m && p.sess == (s.sessOf ch).id && (p.var == 0 || p.var == d.variant p.bit)

/-- One lost number of a NACK (R305, R344). Assumption log 64, DEDUCED. -/
def State.nack (s : State) (h d : Nat) : State :=
  let b := s.body h
  match b.resolve d with
  | none => s.pktCount 8 1
  | some m =>
    match s.ringFind b.d.ch m b.d with
    | none => s.devCount 2 1
    | some mp =>
      let sh := b.sh.update s.egrTime
      let l := (s.ruleSet s.rep.epoch).copyLen b.d mp.len
      if sh.tooDeep l then (s.setBody h { b with sh := sh }).devCount 3 1
      else
        let roc := if d < b.dseq then b.roc else (b.roc + 2 ^ 32 - 1) % 2 ^ 32
        let (f, s) := (s.setBody h { b with sh := sh.charge l }).beginFlight { pid := mp.pid }
        s.pushRetx (s.descriptor f h b.d mp d roc s.egrTime true)

/-- A packet that stands for a TMMBN, which grants a rate in kbit/s: its payload is what follows the 8-byte header. -/
def tmmbnPkt (ch sess ssrc fb : Nat) : MPkt :=
  { pid := 0, ch := ch, sess := sess, seq := 0, ts := 0, marker := false, pt := 205, ssrc := ssrc, tid := 0
    cycle := false, join := false, recov := false, cycSeq := 0, fr := 0, sh := 0, first := false, last := false, var := 0, bit := 0
    pay := Config.tmmbnBody fb }

/-- A copy joins its queue, with its finish tag (R329). -/
def State.joinQueue (s : State) (c : Copy) : State :=
  let cfg := s.queueCfg c.port c.queue
  let l := s.queue c.port c.queue
  let start := if l.isEmpty then s.egr.vtime.get 0 (8 * c.port + cfg.cls) else s.egr.ftag.get 0 (qKey c.port c.queue)
  let f := (start + ceilDiv (c.len * 16) cfg.weight) % 2 ^ 32
  let s := { s with egr := { s.egr with ftag := s.egr.ftag.set 0 (qKey c.port c.queue) f } }
  s.setQueue c.port c.queue (l ++ [{ c with ftag := f }])

/-- The TMMBN that answers an accepted TMMBR, on the player's delivery: 20 bytes, the SRTCP index and the tag; it joins its
queue at once, outside the copy store and the shaper (R11, R224, R336). Assumption log 64, DEDUCED. -/
def State.sendTmmbn (s : State) (h : Nat) : State :=
  let d := (s.body h).d
  let v := s.rcOf d.ch
  let i := v.rtcpIdx
  let r := s.ruleSet s.rep.epoch
  let (port, queue) := r.route h d
  let sh := r.shape d
  let s := s.setRc d.ch { v with rtcpIdx := (i + 1) % 2 ^ 31 }
  let pi := (s.img.net.ports[port]?).getD {}
  let n := 20 + 16 + 4
  let outer := (r.template sh).bytes.length
  let len := outer + sh.netLen d + n + 4
  let hdr := (r.template sh).patched (len - 4) ++ netBytes pi sh d n ++ [0x84, 205] ++ beBytes 2 4 ++ beBytes 4 d.ssrc
  let c := s.descriptor 0 h d (tmmbnPkt d.ch (s.sessOf d.ch).id (s.sessOf d.ch).ssrc (v.fb.getD 0)) 0 0 s.egrTime false
  if (s.islOf (4 + port)).st = .off then s
  else s.joinQueue { c with
    epoch := s.rep.epoch, port := port, queue := queue, len := len, hdr := hdr, outerLen := outer, tmmbn := some i
    tag := itag s.egr.itSeed (d.tagIn port) }

/-- The picture of the history that an RPSI acknowledges (R240). -/
def State.ackedPic (s : State) (ch ts : Nat) : Option Nat :=
  match s.cls ch with
  | none => none
  | some c => if c.cod.ackRef then (s.rcOf ch).hist.find? fun fr => rtpTime c (s.sessOf ch) fr == ts else none

/-- One message of a compound packet from a delivery (R224, R233, R240, R301). -/
def State.rtcpMsg (s : State) (h : Nat) (m : RtcpMsg) : State :=
  let b := s.body h
  let ch := b.d.ch
  let ignored := s.rcCount ch 0 9 1
  let fbOn := match s.cls ch with
    | some c => c.cod.feedback
    | none => false
  let refresh := if b.d.player then (s.rcCount ch 0 8 1).refreshReq ch false else ignored
  match m with
  | .nack ds => ds.foldl (fun s d => s.nack h (d % 65536)) s
  | .pli => refresh
  | .fir => refresh
  | .tmmbr mx =>
    if b.d.player && fbOn then
      let s := s.rcCount ch 0 7 1
      (s.setRc ch { s.rcOf ch with fb := if mx = 0 then none else some (mx * 15 / 16000) }).sendTmmbn h
    else ignored
  | .rpsi pt ts =>
    if !b.d.player || decide (pt ≠ (s.sessOf ch).pt) then ignored
    else
      match s.ackedPic ch ts with
      | none => ignored
      | some fr =>
        let newer := match (s.rcOf ch).pinned with
          | some o => decide (o < fr)
          | none => true
        if newer then s.setRc ch ((s.rcOf ch).pinPicture fr) else ignored
  | .other => s.pktCount 9 1

/-- RTCP_PACKET: the oldest RTCP packet that waits is authenticated as SRTCP and its messages are dispatched; at a SEC island in
HOLD it waits, at one that is OFF it is lost (R301, R466, R476). Assumption log 73, DEDUCED. -/
def execRtcpPacket (authOk : Bool) (msgs : List RtcpMsg) (s : State) : Res :=
  .next (match s.pkt.rtcpQ with
    | [] => s
    | h :: hs =>
      if !s.repRuns || (s.islOf 7).st == .hold || s.keyWaits (s.body h).d.keySlot then s
      else
        let s := { s with pkt := { s.pkt with rtcpQ := hs } }
        if (s.islOf 7).st == .off || !s.named h then s
        else if s.bodyBad h then s.bodyErr h
        else if !authOk || (s.keyAt (s.body h).d.keySlot).isEmpty then s.pktCount 5 1
        else msgs.foldl (fun s m => s.rtcpMsg h m) s)

end Sys2Proof.Machine
end

