-- ==== Sys2Proof/Machine/Egress.lean ====
section
/-!
DEFINITION. Egress: the pacing calendar, gates, selection, the seal stage and the MAC boundary (R320 to R342).
-/

namespace Sys2Proof.Machine

/-! ### Calendar (R323) -/

/-- Microseconds by which a copy's eligible time lies ahead of `now` (0 where it has come), compared modulo 2^32 (R460). -/
def aheadOf (now elig : Nat) : Nat :=
  let d := (elig + 2 ^ 32 - now % 2 ^ 32) % 2 ^ 32
  if d < 2 ^ 31 then d else 0

/-- Order of buckets, earliest first, for copies whose time has come. -/
def bucketAge (now elig : Nat) : Nat := (elig + 2 ^ 31 + 2 ^ 32 - now % 2 ^ 32) % 2 ^ 32

/-- Puts a copy into ascending order of bucket, behind those of its bucket. -/
def insBucket (now : Nat) (c : Copy) : List Copy → List Copy
  | [] => [c]
  | x :: xs => if bucketAge now c.elig < bucketAge now x.elig then c :: x :: xs else x :: insBucket now c xs

/-- CALENDAR_BUCKET: the copies whose bucket has started join their queues, in the order of their emission within a bucket (R323). -/
def execCalendarBucket (port : Nat) (s : State) : Res :=
  .next (
    if s.stopped (4 + port) || !(s.glb.st == .run || s.glb.st == .safe) then s
    else
      let now := s.egrTime
      let l := s.egr.cal.get [] port
      let due := (l.filter fun c => aheadOf now c.elig == 0).foldl (fun a c => insBucket now c a) []
      let s := { s with egr := { s.egr with
        cal := s.egr.cal.set [] port (l.filter fun c => aheadOf now c.elig != 0)
        joined := due.foldl (fun t c => t.upd 0 (qKey c.port c.queue) fun n => n + 1) (s.egr.joined.drop fun k => k / 1024 == port) } }
      due.foldl State.joinQueue s)

/-! ### Gates (R332 to R334) -/

/-- Classes open on a port: none before the lists are loaded and none in the safe state (R345, R444, R489). -/
def State.openGates (s : State) (p : Nat) : Nat :=
  if s.glb.st = .safe ∨ !s.glb.tables then 0 else (s.gateImg p).gatesOf (s.egr.gateEnt.get 0 p)

/-- Offset of entry `k` in its cycle (R333). -/
def GateImg.startOf (g : GateImg) (k : Nat) : Nat := ((g.ents.take k).map fun e => e.interval).sum

/-- Nanoseconds of a window of class `c` from the head of a list of entries on (R333). -/
def windowNs (c : Nat) : List GateEnt → Nat
  | [] => 0
  | e :: es => if bitOf e.gates c then e.interval + windowNs c es else 0

/-- A class that every entry opens has no window end. -/
def GateImg.alwaysOpen (g : GateImg) (c : Nat) : Bool := g.ents.all fun e => bitOf e.gates c

/-- Half-picoseconds that remain of the present window of class `c` at a device time; its gate is open (R333). -/
def GateImg.remaining (g : GateImg) (c k t : Nat) : Nat :=
  let cyc := g.cycleNs * nsTime
  let pos := if cyc = 0 then 0 else (t + cyc - g.phaseNs * nsTime % cyc) % cyc
  (g.startOf k * nsTime + ((g.ents[k]?).getD {}).interval * nsTime - pos)
    + windowNs c (g.ents.drop (k + 1) ++ g.ents.take k) * nsTime

/-- The longest window of class `c`, in ns (R333). -/
def GateImg.longest (g : GateImg) (c : Nat) : Nat :=
  ((List.range g.ents.length).map fun k => windowNs c (g.ents.drop k ++ g.ents.take k)).foldl max 0

/-- Transmission time of a frame in half-picoseconds: (L + 20) ÷ 50 ns (R334). -/
def txTime (l : Nat) : Nat := (l + 20) * 40

/-- GATE_ENTRY: the next interval of an entry of a port's list begins, unless the entry is in force already (R333). -/
def execGateEntry (port entry : Nat) (s : State) : Res :=
  .next (
    let g := s.gateImg port
    if !(s.glb.st == .run || s.glb.st == .safe) || decide (g.ents.length ≤ entry) || decide (g.cycleNs = 0) then s
    else if gateAt g s.ptpNs = entry then s.gatesNow
    else
      let at_ := (g.phaseNs + g.startOf entry) % g.cycleNs
      let now := ceilDiv s.time.ptp nsTime
      (s.timeTo ((now + (at_ + g.cycleNs - now % g.cycleNs) % g.cycleNs) * nsTime)).gatesNow)

/-! ### Selection (R328 to R331, R334) -/

/-- Logical pairs of a port that are mapped (R338). -/
def State.pairsOf (s : State) (p : Nat) : List Nat := [2 * p, 2 * p + 1].filter fun n => (s.egr.srtp.get none n).isSome

/-- Queues of a port that hold something, in ascending number. -/
def State.busyQueues (s : State) (p : Nat) : List Nat :=
  (s.egr.queues.filter fun e => e.1 / 1024 == p).map fun e => e.1 % 1024

/-- Drops the oversize heads of a queue in LIST_GUARD mode (R334). -/
def State.dropOversize (s : State) (p q longest : Nat) : List Copy → State
  | [] => s.setQueue p q []
  | c :: cs =>
    if longest * nsTime < txTime c.len then
      let s := { s with egr := { s.egr with
        oversize := s.egr.oversize.upd 0 p (cntAdd 1), waited := s.egr.waited.set false (qKey p q) false } }
      ((s.raise srcOversize).copyDone c).dropOversize p q longest cs
    else s.setQueue p q (c :: cs)

/-- Judges the head of a queue whose class's gate is open: whether it is a candidate (R328, R334). -/
def State.judgeQueue (s : State) (p q : Nat) : Bool × State :=
  let g := s.gateImg p
  let c := (s.queueCfg p q).cls
  if g.mode = 0 ∨ g.alwaysOpen c then (!(s.queue p q).isEmpty, s)
  else
    let s := s.dropOversize p q (g.longest c) (s.queue p q)
    match s.queue p q with
    | [] => (false, s)
    | h :: _ =>
      let left := g.remaining c (s.egr.gateEnt.get 0 p) s.time.ptp
      let ends := s.time.ptp + left
      if txTime h.len ≤ left then (true, s)
      else if s.egr.waited.get false (qKey p q) && s.egr.waitEnd.get 0 (qKey p q) == ends then (false, s)
      else (false, { s with egr := { s.egr with
        waited := s.egr.waited.set false (qKey p q) true, waitEnd := s.egr.waitEnd.set 0 (qKey p q) ends } }.egrCount p 9 1)

/-- A queue takes part in a selection: with `same`, which says that the port's last CALENDAR_BUCKET falls into the selection's cycle, only
where it held a copy before (R331). -/
def State.takesPart (s : State) (same : Bool) (p q : Nat) : Bool :=
  !same || decide (s.egr.joined.get 0 (qKey p q) < (s.queue p q).length)

/-- Judges every queue of a port that takes part and whose class's gate is open; answers the candidates. -/
def State.judgeAll (s : State) (same : Bool) (p : Nat) : List Nat × State :=
  (s.busyQueues p).foldl (fun (a : List Nat × State) q =>
    if bitOf (a.2.openGates p) (a.2.queueCfg p q).cls && s.takesPart same p q then
      let (ok, s) := a.2.judgeQueue p q
      (if ok then a.1 ++ [q] else a.1, s)
    else a) ([], s)

/-- Distance of a queue's head tag ahead of its class's virtual time (R330). -/
def State.tagAhead (s : State) (p q : Nat) : Nat :=
  match s.queue p q with
  | [] => 0
  | c :: _ => (c.ftag + 2 ^ 32 - s.egr.vtime.get 0 (8 * p + (s.queueCfg p q).cls)) % 2 ^ 32

/-- The queue chosen among candidates: the highest class, then the earliest finish tag, then the lower number (R328, R330). -/
def State.chooseQueue (s : State) (p : Nat) (qs : List Nat) : Option Nat :=
  let top := (qs.map fun q => (s.queueCfg p q).cls).foldl max 0
  minBy (fun q => s.tagAhead p q) (qs.filter fun q => (s.queueCfg p q).cls == top)

/-- A port can start frames: in RUN, its link up, its island's and SEC's clocks running, and a logical pair mapped (R328, R338,
R444, R449, R476). -/
def State.canStart (s : State) (p : Nat) : Bool :=
  s.glb.st == .run && s.canSend p && !s.stopped 7 && !(s.pairsOf p).isEmpty

/-- The queue's head leaves it for the seal stage, and the class's virtual time becomes its finish tag (R329). -/
def State.selectHead (s : State) (p q : Nat) : State :=
  match s.queue p q with
  | [] => s
  | c :: cs =>
    let s := s.setQueue p q cs
    { s with egr := { s.egr with
        vtime := s.egr.vtime.set 0 (8 * p + (s.queueCfg p q).cls) c.ftag
        waited := s.egr.waited.set false (qKey p q) false
        sealing := s.egr.sealing.set [] p (s.egr.sealing.get [] p ++ [c]) } }

/-- SCHEDULER_SELECT: the port picks the class and the queue of its next frame (R328 to R334); `same`: in the cycle of its last CALENDAR_BUCKET. -/
def execSchedulerSelect (port : Nat) (s : State) (same : Bool := false) : Res :=
  .next (
    if !s.canStart port then s
    else
      let (qs, s) := s.gatesNow.judgeAll same port
      match s.chooseQueue port qs with
      | some q => s.selectHead port q
      | none => s)

/-! ### The seal stage and the MAC boundary (R337, R338, R341, R342) -/

/-- Offset of the IP header and of what follows the UDP header in a copy's headers (R306). -/
def State.ipAt (s : State) (c : Copy) : Nat := c.outerLen + 14 + 4 * ((s.ruleSet c.epoch).shape c.d).vlans.length
def State.udpEnd (s : State) (c : Copy) : Nat := s.ipAt c + (if c.d.ipv6 then 40 else 20) + 8

/-- The UDP checksum over the encrypted packet: pseudo-header, UDP header and data (R337). -/
def State.udpSum (s : State) (c : Copy) (enc : List Byte) : Nat :=
  let addrs := if c.d.ipv6 then slice c.hdr (s.ipAt c + 8) 32 else slice c.hdr (s.ipAt c + 12) 8
  let udp := c.hdr.drop (s.udpEnd c - 8) ++ enc
  let v := inetSum (addrs ++ beBytes 2 17 ++ beBytes 2 udp.length ++ udp)
  if v = 0 then 65535 else v

/-- IV of RFC 7714: the session salt XOR 12 bytes (R336). -/
def srtpIv (salt bs : List Byte) : List Byte := List.zipWith (· ^^^ ·) salt bs

/-- What follows the headers of a copy as SRTP, and of a TMMBN as SRTCP, under a key record: master key, then master salt (R93, R336).
The index word of SRTCP follows the tag, with its E bit set. -/
def State.encrypted (s : State) (c : Copy) (rec_ : List Byte) : List Byte :=
  let derive := Config.srtpDerive (rec_.take 32) (slice rec_ 32 12)
  let aad := c.hdr.drop (s.udpEnd c)
  match c.tmmbn with
  | none =>
    Config.aesGcm (derive 0 32) (srtpIv (derive 2 12) (beBytes 2 0 ++ beBytes 4 c.d.ssrc ++ beBytes 4 c.roc ++ beBytes 2 c.dseq)) aad
      c.mp.pay
  | some i =>
    let word := beBytes 4 (2 ^ 31 + i)
    Config.aesGcm (derive 3 32) (srtpIv (derive 5 12) (beBytes 2 0 ++ beBytes 4 c.d.ssrc ++ beBytes 2 0 ++ beBytes 4 i)) (aad ++ word)
      c.mp.pay ++ word

/-- The frame leaves the port, sealed under the key record that its seal stage read, and is counted (R96, R336, R337, R341, R348). -/
def State.transmit (s : State) (p : Nat) (c : Copy) : State :=
  let rec_ := s.keyAt c.d.keySlot
  let enc := s.encrypted c rec_
  let f : TxFrame :=
    { port := p, kind := if c.tmmbn.isSome then 3 else 0, len := c.len
      hdr := splice c.hdr (s.udpEnd c - 2) (beBytes 2 (s.udpSum c enc)), dseq := c.dseq, roc := c.roc, key := c.d.keySlot
      rec_ := rec_, pay := enc, pid := c.mp.pid }
  ({ s with egr := { s.egr with sent := s.egr.sent.set none p (some f) } }.egrCount p 0 1).egrCount p 1 c.len

/-- Tag inputs as the checker reads them: those of the frame as built, or the ones observed where they differ (R341). -/
def tagSeen (c : Copy) (p : Nat) (o : SealObs) : TagIn := o.seen.getD { c.d.tagIn p with channel := c.mp.ch }

/-- Physical pair of a logical one. -/
def State.physPair (s : State) (n : Nat) : Nat := (s.egr.srtp.get none n).getD 0

/-- The next logical pair of a port takes its turn (R338). -/
def State.takeTurn (s : State) (p : Nat) : Nat × State :=
  let l := s.pairsOf p
  let t := s.egr.turn.get 0 p
  let n := (l[t % max 1 l.length]?).getD (2 * p)
  (n, { s with egr := { s.egr with turn := s.egr.turn.set 0 p ((t + 1) % 2) } })

/-- A copy whose payload the cache does not hold is read from the granary and counted (R310, R319). -/
def State.readPayload (s : State) (c : Copy) : State :=
  if c.tmmbn.isSome then s
  else if s.cached c.mp.pid then s.cacheUse c.mp.pid c.mp.len else s.pktCount 7 1

/-- SEAL_STAGE: the oldest selected copy is sealed and checked, and leaves the port or is discarded (R337, R341,
R342); the stage waits for the stack that holds its key's entry (R95, R355). -/
def execSealStage (port : Nat) (o : SealObs) (s : State) : Res :=
  .next (match s.egr.sealing.get [] port with
    | [] => s
    | c :: cs =>
      if !s.canStart port || s.keyWaits c.d.keySlot then s
      else
        let s := { s with egr := { s.egr with sealing := s.egr.sealing.set [] port cs } }
        let (n, s) := s.takeTurn port
        if (s.keyAt c.d.keySlot).isEmpty then (s.egrCount port 5 1).copyDone c
        else
          let s := s.readPayload c
          if !o.agree then ((s.egrCount port 6 1).raise (srcSrtp (s.physPair n))).copyDone c
          else if !o.sealed || itag s.egr.itSeed (tagSeen c port o) != c.tag then
            (({ s with egr := { s.egr with tagPort := port, tagCh := c.mp.ch } }.egrCount port 7 1).raise srcTagFail).copyDone c
          else
            (s.transmit port c).copyDone c)

/-- SRTP_REMAP: at a frame boundary a logical pair whose physical pair failed takes the spare (R338, R449). -/
def execSrtpRemap (sp : Nat) (s : State) : Res :=
  .next (match s.egr.remap.get none sp with
    | some n => { s with egr := { s.egr with srtp := s.egr.srtp.set none sp (some n), remap := s.egr.remap.set none sp none } }
    | none => s)

end Sys2Proof.Machine
end

