-- ==== Sys2Proof/Machine/Jobs.lean ====
section
/-!
DEFINITION. The steward's work queue: its jobs, what serves a mailbox command in each device state, and the end of a job that
fails or is aborted (R18, R413, R420, R421, R447).
-/

namespace Sys2Proof.Machine

/-- The next job to begin of those with a TAG: the oldest that has not begun (R413). -/
def startsJob (tag : Nat) (j : Job) : Bool := j.tag == tag && !j.begun

/-- Marks the first job that satisfies `p` as begun. -/
def markBegun (p : Job → Bool) : List Job → List Job
  | [] => []
  | j :: js => if p j then { j with begun := true } :: js else j :: markBegun p js

/-- A command that takes time begins: it is a job of the work queue (R413, R421), where fetching has not made it one. -/
def State.addJob (s : State) (h : CmdHdr) (opcode : Nat) : State :=
  if s.mbx.jobs.any (startsJob h.tag) then { s with mbx := { s.mbx with jobs := markBegun (startsJob h.tag) s.mbx.jobs } }
  else { s with mbx := { s.mbx with
    jobs := s.mbx.jobs ++ [{ tag := h.tag, opcode := opcode, irq := h.irq, mute := false, begun := true }] } }

/-- A job's command completes with DENIED, as an aborted one where `aborted` (R420, R447). -/
def State.denyJob (s : State) (j : Job) (aborted : Bool) : State :=
  s.finish { tag := j.tag, status := s.statusCode .denied aborted, res0 := 0, res1 := 0, irq := j.irq } j.begun

/-- A change of an island no longer completes a command. -/
def Isl.forget (i : Isl) (tag : Nat) : Isl :=
  match i.trans with
  | some t => { i with trans := some { t with hdrs := t.hdrs.filter fun h => h.tag ≠ tag } }
  | none => i

/-- What a job had begun and not committed is given up. -/
def State.dropWork (s : State) (j : Job) : State :=
  if !j.begun then s
  else { s with
    flashOp := s.flashOp.filter fun o => o.tag ≠ j.tag
    rep := { s.rep with swap := s.rep.swap.filter fun w => w.tag ≠ j.tag || w.flipped.isSome || w.answered }
    isl := Tbl.remap {} (fun _ i => i.forget j.tag) s.isl }

/-- A steward core met an error response: its job fails, and its command completes with DENIED (R447). The job at work is the
oldest. Assumption log 45, DESIGN CHOICE. -/
def State.failJob (s : State) : State :=
  match s.mbx.jobs with
  | [] => s
  | j :: _ => (s.dropWork j).denyJob j false

/-- The command has been fetched: a job of the work queue has its TAG. -/
def State.fetched (s : State) (h : CmdHdr) : Bool := s.mbx.jobs.any fun j => j.tag == h.tag

/-- The job that the command is: commands of one TAG begin in ring order (R413). Assumption log 11, DESIGN CHOICE. -/
def State.jobOf (s : State) (h : CmdHdr) : Option Job := s.mbx.jobs.find? (startsJob h.tag)

/-- The jobs before the command's own. -/
def State.before (s : State) (h : CmdHdr) : List Job := s.mbx.jobs.takeWhile fun j => !startsJob h.tag j

/-- The command is one of those held until the device entered RUN (R19). -/
def State.wasHeld (s : State) (h : CmdHdr) : Bool :=
  match s.jobOf h with
  | some j => j.held
  | none => false

/-- An earlier command that names the same object has not begun (R413), or, for a command held until RUN, an earlier one of these,
which execute in ring order (R19). -/
def State.behind (s : State) (h : CmdHdr) (i : Instr) : Bool :=
  (s.before h).any fun j => !j.begun && ((j.held && s.wasHeld h) || (match j.cmd with
    | some k => sameObject i k
    | none => false))

/-- The command executes, or completes with DENIED where the device's state does not list it (R18). A fetched one is the command that
its entry spells, and executes once; a Fenic entry with a reserved bit set completes with INVALID (R78, R414). It waits for earlier
commands that name the same object (R413). One that was not fetched completes with BUSY where it finds the work queue full (R421).
Assumption log 11, DESIGN CHOICE. -/
def State.work (s : State) (i : Instr) (h : CmdHdr) (listed : Bool) (f : State → State) : State :=
  if s.behind h i then s
  else match s.jobOf h with
    | some j =>
      if j.cmd.any fun k => k != i then s
      else if !listed then s.complete h .denied
      else if j.badRsv then s.complete h .badArg
      else f s
    | none =>
      if s.fetched h then s
      else if queueCap ≤ s.mbx.jobs.length then s.complete h .busy
      else if listed then f s
      else s.complete h .denied

/-- What serves a mailbox command `i`, its outside inputs set apart (R18, R71, R412): in RUN everything; in SAFE and in LOADFAIL the
commands listed for them, the others completing with DENIED; nothing in the states before, after a RESTART (R70), in the
other layout, while the steward's island is stopped (R476), or while a full completion ring keeps the command from being
fetched (R412). Assumption log 11, DESIGN CHOICE. -/
def State.serve (s : State) (i : Instr) (fenic safeOk loadOk : Bool) (h : CmdHdr) (f : State → State) : State :=
  if s.mbx.fenic != fenic || s.glb.restartPend || (!s.fetched h && s.mbx.cqFull) then s
  else match s.glb.st with
    | .run => if s.stopped 1 then s else s.work i h true f
    | .safe => if s.stopped 1 then s else s.work i h safeOk f
    | .loadfail => s.work i h loadOk f
    | _ => s

/-- An earlier command has not completed: IMAGE_WRITE, RESTART and ATTEST do not begin yet (R413). -/
def State.earlier (s : State) (h : CmdHdr) : Bool := !(s.before h).isEmpty

end Sys2Proof.Machine
end

