-- ==== Sys2Proof/Machine/GranaryBase.lean ====
section
/-!
DEFINITION. The granary's map and its stacks: address decoding, training, drains, and full retraining (R353, R354, R361 to
R370).
-/

namespace Sys2Proof.Machine

/-! ### Address decoding (R353) -/

/-- Offset within the pseudo-channel. -/
def State.offOf (s : State) (a : Nat) : Nat := a / s.granuleBytes / 60 * s.granuleBytes + a % s.granuleBytes

/-! ### Training (R354, R362, R377) -/

/-- Pseudo-channels of a stack. -/
def pcsOf (k : Nat) : List Nat := range2 (32 * k) (32 * k + 32)

/-- Training of a pseudo-channel clears its error counts and dates it (R361, R377); a fault named against it is past. -/
def State.pcTrained (s : State) (g : Nat) : State :=
  let v := s.pc g
  let s := s.setPc g { v with ce := 0, ue := 0, ceTrain := 0, limAt := 0, trainAt := (s.stack (g / 32)).orderN + 1 }
  { s with led := { s.led with cause := s.led.cause.set 0 (unitPc g) 0 } }

/-- Later trainings of the stack come after those before (R361). -/
def State.nextOrder (s : State) (k : Nat) : State :=
  let v := s.stack k
  s.setStack k { v with orderN := v.orderN + 1 }

/-- Spares of a stack, in ascending number. -/
def State.stackSpares (s : State) (k : Nat) : List Nat := (pcsOf k).filter fun g => (s.pc g).role == .spare

/-- Source that a retirement record of a pseudo-channel names: its fault's, or 0x1FF after a training without one (R495). -/
def State.pcCause (s : State) (g : Nat) : Nat :=
  let c := s.led.cause.get 0 (unitPc g)
  if c = 0 then 0x1FF else c

/-- A pseudo-channel finds no working setting and is retired; in RUN it is counted (R354, R362, R376). -/
def State.pcRetire (s : State) (g : Nat) : State :=
  let s := s.retire (unitPc g) (s.pcCause g)
  let s := s.setPc g { s.pc g with role := .retired }
  if s.glb.st = .run then s.hbmCount (g / 32) 1 1 else s

/-- Retirements have left the stack without a spare (R365). -/
def State.spentSpares (s : State) (k : Nat) : State :=
  if (s.stackSpares k).isEmpty then
    (s.setStack k { s.stack k with exhausted := true }).raise (srcHbmSpares k)
  else s

/-- Pseudo-channel `g` serves position `i` (R354). -/
def State.placePc (s : State) (i g : Nat) : State :=
  let s := s.setPc g { s.pc g with role := .active, pos := i }
  let s := s.setUnitSt (unitPc g) .inService
  { s with hbm := { s.hbm with map := s.hbm.map.set none i (some g) } }

/-- Pseudo-channel `g` is a spare of its stack. -/
def State.sparePc (s : State) (g : Nat) : State :=
  (s.setPc g { s.pc g with role := .spare }).setUnitSt (unitPc g) .spare

/-- Positions of a stack in ascending order (R354). -/
def stackPositions (k : Nat) : List Nat := (List.range 30).map fun j => 2 * j + k

/-- Trains every pseudo-channel of a stack that is not retired; those that do not work are retired (R354). Assumption log 77, DEDUCED. -/
def State.trainAll (s : State) (k : Nat) (working : List Nat) : State :=
  let live := (pcsOf k).filter fun g => (s.unit (unitPc g)).st != .retired
  let s := (live.filter fun g => !working.contains g).foldl State.pcRetire s
  ((live.filter fun g => working.contains g).foldl State.pcTrained s).nextOrder k

/-- Places a stack's working pseudo-channels on its positions in ascending order; those left over are spares, and the
ledger's retired ones stay so (R354, R495). Assumption log 77, DEDUCED. -/
def State.placeAll (s : State) (k : Nat) : State :=
  let works := (pcsOf k).filter fun g => (s.unit (unitPc g)).st != .retired
  let gone := (pcsOf k).filter fun g => (s.unit (unitPc g)).st == .retired
  let s := gone.foldl (fun s g => s.setPc g { s.pc g with role := .retired }) s
  let s := { s with hbm := { s.hbm with map := s.hbm.map.drop fun i => i % 2 == k } }
  let s := ((stackPositions k).zip works).foldl (fun s (i, g) => s.placePc i g) s
  (works.drop 30).foldl State.sparePc s

/-- Working pseudo-channels of a stack. -/
def State.worksOf (s : State) (k : Nat) : Nat := ((pcsOf k).filter fun g => (s.pc g).role != .retired).length

/-- What follows a full training: HBM_TRAIN_FAIL with fewer than 30 working pseudo-channels (R354), and the end of the spares
(R365, R374). -/
def State.afterTraining (s : State) (k retired : Nat) : State :=
  let s := if (s.stackSpares k).isEmpty then s.setStack k { s.stack k with exhausted := true } else s
  let s := if s.worksOf k < 30 then s.raise (srcHbmTrain k) else s
  if 0 < retired ∧ (s.stackSpares k).isEmpty then s.raise (srcHbmSpares k) else s

/-- Number of pseudo-channels of a stack that a training retires. -/
def State.wouldRetire (s : State) (k : Nat) (working : List Nat) : Nat :=
  ((pcsOf k).filter fun g => (s.unit (unitPc g)).st != .retired && !working.contains g).length

/-! ### Drains (R361 to R366) -/

/-- Target of a periodic drain: the pseudo-channel whose corrected errors first reached CE_LIMIT, or the one trained longest
ago (R361). -/
def State.drainTarget (s : State) (k : Nat) : Option Nat :=
  let act := (pcsOf k).filter fun g => (s.pc g).role == .active
  match minBy (fun g => (s.pc g).limAt) (act.filter fun g => (s.pc g).limAt ≠ 0) with
  | some g => some g
  | none => minBy (fun g => (s.pc g).trainAt) act

/-- The stack's drain ends: what a fault wanted of it is done or given up. In SAFE the stack, whose rest waited for the move, goes to
self-refresh (R366, R374, R444). -/
def State.drainEnds (s : State) (k : Nat) : State :=
  let v := s.stack k
  s.setStack k { v with
    st := if s.glb.st = .safe ∧ v.st = .service then .selfRef else v.st
    drain := { v.drain with phase := .idle, want := v.drain.want.filter fun g => g != v.drain.tgt } }

/-- The stack's drain is abandoned before its swap: the spare stays a spare and the target stays in service (R364). -/
def State.abandonDrain (s : State) (k : Nat) : State :=
  match (s.stack k).drain.phase with
  | .check | .copy => (s.gatherCut k).drainEnds k
  | _ => s

/-! ### Aborts (R364, R402, R419, R420) -/

/-- The host reaches the mailbox's registers: it reaches BAR0, and the PCIE island's clock runs (R18, R477, R489). -/
def State.mbxReached (s : State) : Bool := s.hostBar 0 && !s.stopped 8

/-- The opcode is one of an abortable command: SESSION_CLOSE, KEY_IMPORT, and in the native layout RULESET_SWAP (R420). -/
def State.abortable (s : State) (opcode : Nat) : Bool :=
  opcode == 0x02 || opcode == 0x05 || (opcode == 0x07 && !s.mbx.fenic)

/-- The swap of a job has flipped the active bank, and its command has not been answered: its commit point has passed (R402). -/
def State.swapCommitted (s : State) (j : Job) : Bool :=
  match s.rep.swap with
  | some w => j.begun && w.tag == j.tag && w.flipped.isSome && !w.answered
  | none => false

/-- An abort is resolved: its outcome reads back and MBX_ABORT is raised (R419). Assumption log 46, DEDUCED. -/
def State.abortDone (s : State) (res : Nat) : State :=
  { s with mbx := { s.mbx with abortRes := res } }.irqEvent irqMbxAbort

/-- Resolves an abort. Of a command, it names the oldest fetched one with the TAG that has not completed: before its commit point the
command completes with DENIED and ABORTED, its object unchanged; any other goes on, one that only waits for its completion to be
written among them. Of a drain, it abandons the drain before its swap and changes nothing after it (R364, R402, R419, R420).
Assumption log 46, DEDUCED. -/
def State.resolveAbort (s : State) (a : AbortOf) : State :=
  match a with
  | .command tag =>
    match s.mbx.jobs.find? fun j => j.tag == tag with
    | some j =>
      if s.abortable j.opcode && !s.swapCommitted j then ((s.dropWork j).denyJob j true).abortDone 1 else s.abortDone 2
    | none => if s.mbx.waiting.any fun c => c.tag == tag then s.abortDone 2 else s.abortDone 3
  | .drain k =>
    match (s.stack k).drain.phase with
    | .idle => s.abortDone 3
    | .check | .copy => (s.abandonDrain k).abortDone 1
    | .offline => s.abortDone 2

/-- A write of MBX_ABORT requests an abort; one while another is being resolved is ignored, and none is resolved while the steward is
stopped (R419, R432, R476). Assumption log 46, DEDUCED. -/
def State.requestAbort (s : State) (a : AbortOf) : State :=
  if s.stopped 8 || s.mbx.abortPend.isSome then s
  else if s.stopped 1 then { s with mbx := { s.mbx with abortPend := some a } }
  else s.resolveAbort a

/-- The steward's or the PCIE island's clock runs again: completions that waited are written, an abort that waited is resolved, and
fetching goes on (R412, R419, R476). -/
def State.mailboxReturns (s : State) : State :=
  let s := State.putWaiting s.mbx.waiting s
  (match s.mbx.abortPend with
    | some a => if s.stopped 1 then s else { s with mbx := { s.mbx with abortPend := none } }.resolveAbort a
    | none => s).fetch

/-! ### Full retraining and loss of contents (R367, R369, R370) -/

/-- The stack stops and every pseudo-channel of it is trained again; a drain before its swap is abandoned, and an offline
pseudo-channel joins the training (R367, R368). One that lost its contents trains in full, and not from self-refresh (R370, R374). -/
def State.retrainStack (s : State) (k : Nat) : State :=
  let v := s.stack k
  let d := if v.drain.phase = .idle then v.drain
    else { v.drain with phase := .idle, want := v.drain.want.filter fun g => g != v.drain.tgt }
  s.setStack k { v with st := if v.lost then .training else .selfRef, retrain := true, gather := true, drain := d }

/-- Rate of a stack in 100 Mb/s per pin at an island clock of `mhz`: four times the clock (R352, R375). -/
def rateOf (mhz : Nat) : Nat := mhz * 4 / 100

/-- The contents of a stack become undefined (R370). Assumption log 8, DESIGN CHOICE. -/
def State.loseStack (s : State) (k : Nat) : State :=
  let n := s.free
  { s with
    free := n + 1
    hbm := { s.hbm with
      gone := s.hbm.gone.set none k (some n)
      mem := s.hbm.mem.drop fun a => stackOf (s.posOf a) == k
      poison := s.hbm.poison.drop fun u => stackOf (s.posOf (64 * u)) == k
      badPos := s.hbm.badPos.drop fun i => stackOf i == k
      redone := s.hbm.redone.drop fun u => stackOf (s.posOf (64 * u)) == k } }

/-- The contents of position `i` are poisoned: they cannot be copied from a failed pseudo-channel (R367). -/
def State.poisonPos (s : State) (i : Nat) : State :=
  { s with hbm := { s.hbm with
      badPos := s.hbm.badPos.set false i true
      redone := s.hbm.redone.drop fun u => s.posOf (64 * u) == i } }

end Sys2Proof.Machine
end

