-- ==== Sys2Proof/Machine/Links.lean ====
section
/-!
DEFINITION. The Ethernet links: loss, retraining, error ratios and lane substitution (R141, R438, R446, R449, R453).
-/

namespace Sys2Proof.Machine

/-- A port's link goes down: a lane exchange in progress ends, and the PTP slave port's loss starts holdover (R141). -/
def State.linkLost (s : State) (p : Nat) : State :=
  let q := s.portSt p
  if q.up then
    let s := s.setPortSt p { q with up := false, subFor := none }
    if p = s.img.net.ptpPort then s.enterHoldover else s
  else s

/-- PORT_LINK_DOWN (R141, R449). -/
def execPortLinkDown (port : Nat) (s : State) : Res := .next (s.linkLost port)

/-- The retraining is the quarantine test of the port's quarantined lanes: one that trains is spare, another is retired
(R449, R451). -/
def State.laneTests (s : State) (p : Nat) (trained : List Nat) : State :=
  (List.range 5).foldl (fun s k =>
    let u := unitLane p k
    if (s.unit u).st ≠ .quarantined then s
    else if trained.contains k then s.setUnitSt u .spare
    else s.retire u (s.led.cause.get 0 u)) s

/-- PORT_RETRAIN_DONE: the port's quarantined lanes are tested; a lane of the link that failed training raises SERDES_LANE; the
link is up where every lane of it trained (R449, R453). -/
def execPortRetrainDone (port : Nat) (trained : List Nat) (s : State) : Res :=
  .next (
    let on := s.glb.st == .train || s.glb.st == .run || s.glb.st == .safe
    if (s.portSt port).up || s.stopped (4 + port) || !on then s
    else
      let s := s.laneTests port trained
      match (s.portSt port).lanes.filter fun k => !trained.contains k with
      | [] => s.setPortSt port { s.portSt port with up := true }
      | bad => bad.foldl (fun s k => s.raise (srcLane port k)) s)

/-- SERDES_BER_WINDOW: per port and lane, errored bits and bits of a 1 ms window; a ratio above 1 in 10,000 raises
SERDES_LANE, in ascending order of source (R438, R441, R446). -/
def execSerdesBerWindow (ber : List (Nat × Nat × Nat × Nat)) (s : State) : Res :=
  .next (s.raiseAll (((ber.filter fun (_, _, e, n) => decide (n < 10000 * e)).map fun (p, k, _, _) =>
    ({ src := srcLane p k, unit := unitLane p k } : FaultEv)).foldr insEv []))

/-- LANE_SUBSTITUTION: the exchange in lock ends; the spare lane serves in the lane's place, which is quarantined (R449,
R452). -/
def execLaneSubstitution (port : Nat) (s : State) : Res :=
  .next (
    let q := s.portSt port
    match q.subFor, s.firstSpare (unitLane port 0) (unitLane port 5) with
    | some k, some v =>
      let u := unitLane port k
      let s := ((s.countMove u).quarantine u (srcLane port k)).setUnitSt v .inService
      s.setPortSt port { q with subFor := none, lanes := q.lanes.map fun j => if j = k then v - unitLane port 0 else j }
    | some _, none => s.setPortSt port { q with subFor := none }
    | none, _ => s)

end Sys2Proof.Machine
end

