-- ==== Sys2Proof/Machine/Islands.lean ====
section
/-!
DEFINITION. Power and clock islands: requests for a state or a frequency, the unit boundary, the HBM hold, and what a
transition does to the island's unit (R367 to R370, R467 to R477).
-/

namespace Sys2Proof.Machine

/-! ### What is permitted (R467, R469) -/

/-- The clock is stopped. -/
def IslSt.halts : IslSt → Bool
  | .hold | .off => true
  | _ => false

/-- Rated frequency of an island in MHz (R469). -/
def islRated (n : Nat) : Nat :=
  if n = 0 then 2000 else if n = 1 then 1500 else if n = 8 then 1000 else if n = 58 then 400 else 1600

/-- A frequency that the island may be asked for (R469). -/
def islFreqOk (n mhz : Nat) : Bool := decide (mhz % 25 = 0) && decide (400 ≤ mhz) && decide (mhz ≤ islRated n)

/-- A state that the island permits (R469). -/
def State.islPermits (s : State) (n : Nat) (st : IslSt) : Bool :=
  if n = 58 then st == .run
  else if n = 0 then !st.halts
  else if n = 1 ∨ n = 8 then st != .off
  else if n = 6 ∧ st = .off then s.glb.st == .safe || s.glb.st == .loadfail
  else true

/-- An HBM island (R13). -/
def islHbm (n : Nat) : Bool := n == 2 || n == 3

/-- Clock in force in MHz (R479). -/
def Isl.effMhz (i : Isl) : Nat := if i.st.halts then 0 else i.freq / i.st.divider

/-! ### Answers (R473) -/

/-- Coding of PWR_ISL_STAT.RESULT for an answer; none leaves the field (R473, R479). -/
def islResult : Status → Option Nat
  | .ok | .alreadyDone => some 1
  | .denied => some 2
  | .badArg => some 3
  | _ => none

/-- Records and gives the answer to a request (R473). A register write that arrives while BUSY reads DENIED. Assumption log 41, DEDUCED. -/
def State.islAnswer (s : State) (n : Nat) (hdr : Option CmdHdr) (st : Status) : State :=
  let i := s.islOf n
  match hdr with
  | none => s.setIsl n { i with result := (islResult (if st = .busy then .denied else st)).getD i.result }
  | some h => (s.setIsl n { i with result := (islResult st).getD i.result }).complete h st

/-- Completes the commands that wait for a transition with OK, and records DONE. -/
def State.islDone (s : State) (n : Nat) (hdrs : List CmdHdr) : State :=
  hdrs.foldl (fun s h => s.completeJob h .ok) (s.setIsl n { s.islOf n with result := 1 })

/-! ### Taking up a request -/

/-- The island's unit works at something that must end first: a run of its encode core or of its decode core (R472). -/
def State.unitBusy (s : State) (n : Nat) : Bool :=
  if 17 ≤ n ∧ n < 49 then laneNums.any fun l => (s.lane l).run.any fun r => r.core == n - 17
  else if 49 ≤ n ∧ n < 58 then
    match s.dlaneOfCore (n - 49) with
    | some l => (s.dlane l).run.isSome
    | none => false
  else false

/-- A change begins on island `n`; `hdrs` are the commands that complete with it. -/
def State.islBegin (s : State) (n : Nat) (r : IslReq) (hdrs : List CmdHdr) : State :=
  let i := s.islOf n
  let stops := match r with
    | .freq _ => true
    | .state st => st.halts && !i.st.halts
  s.setIsl n { i with trans := some { req := r, hdrs := hdrs, waits := stops && !i.st.halts && s.unitBusy n } }

/-- Stores a frequency at once (R472); for an HBM island in HOLD or OFF the retraining is owed at its return. -/
def State.islStoreFreq (s : State) (n mhz : Nat) : State :=
  let s := s.setIsl n { s.islOf n with freq := mhz }
  if islHbm n then s.setStack (n - 2) { s.stack (n - 2) with owed := true } else s

/-- What a change that has been superseded before its stack resumed leaves in place: its state or its frequency. -/
def Isl.settle (i : Isl) : Isl :=
  match i.trans with
  | some t =>
    match t.req with
    | .freq m => { i with freq := m }
    | .state st => { i with st := st }
  | none => i

/-- Commands that wait for the change in progress. -/
def Isl.waiting (i : Isl) : List CmdHdr :=
  match i.trans with
  | some t => t.hdrs
  | none => []

/-- A change of the clock of a running HBM stack stops it for a full retraining (R367); a stack that was never trained has
nothing to retrain. -/
def State.hbmRetune (s : State) (n : Nat) (r : IslReq) (hdrs : List CmdHdr) : State := (s.islBegin n r hdrs).retrainStack (n - 2)

/-- Carries out a permitted request that asks for something new; true where it is complete at once. Assumption log 42, DEDUCED. -/
def State.islTake (s : State) (n : Nat) (r : IslReq) (hdrs : List CmdHdr) : Bool × State :=
  let i := s.islOf n
  match r with
  | .freq m =>
    if i.st.halts then (true, s.islStoreFreq n m)
    else if islHbm n then
      if (s.stack (n - 2)).st = .training then (true, s.setIsl n { i with freq := m }) else (false, s.hbmRetune n r hdrs)
    else if i.st = .run then (false, s.islBegin n r hdrs)
    else (true, s.setIsl n { i with freq := m })
  | .state st =>
    if islHbm n ∧ !i.st.halts ∧ !st.halts ∧ (s.stack (n - 2)).st ≠ .training then (false, s.hbmRetune n r hdrs)
    else (false, s.islBegin n r hdrs)

/-- The request asks for what is in place (R471). -/
def Isl.same (i : Isl) : IslReq → Bool
  | .freq m => i.freq == m
  | .state st => i.st == st

/-- OFF returns only to RUN (R471). -/
def Isl.legal (i : Isl) : IslReq → Bool
  | .freq _ => true
  | .state st => !(i.st == .off && st != .off && st != .run)

/-! ### The HBM hold (R368) -/

/-- Training data are being gathered on an HBM island's stack. -/
def State.gathering (s : State) (n : Nat) : Bool := islHbm n && (s.stack (n - 2)).gather

/-- A request is for a frequency. -/
def IslReq.isFreq : IslReq → Bool
  | .freq _ => true
  | _ => false

/-- State that an island in state `st` would have after a request. -/
def IslReq.stAfter (st : IslSt) : IslReq → IslSt
  | .freq _ => st
  | .state x => x

/-- A request to an HBM island in state `st` changes its clock: for such an island an entry into or an exit from SLOW is a frequency
change too (R367). -/
def IslReq.reclocks (st : IslSt) : IslReq → Bool
  | .freq _ => true
  | .state x => !st.halts && !x.halts

/-- The held requests, from state `st` on, without those that change the clock. -/
def dropReclocks : IslSt → List IslReq → List IslReq
  | _, [] => []
  | st, r :: rs => if r.reclocks st then dropReclocks st rs else r :: dropReclocks (r.stAfter st) rs

/-- Rate that a request asks for: the clock it would put in force (R375). -/
def Isl.rateAfter (i : Isl) : IslReq → Option Nat
  | .freq m => some (rateOf (m / i.st.divider))
  | .state st => if i.st.halts || st.halts then none else some (rateOf (i.freq / st.divider))

/-- A request is held; a change of the clock takes the place of one held before (R368). Assumption log 42, DEDUCED. -/
def State.islHold (s : State) (n : Nat) (r : IslReq) : State :=
  let i := s.islOf n
  let v := s.stack (n - 2)
  let rest := if r.reclocks (i.held.foldl IslReq.stAfter i.settle.st) then dropReclocks i.settle.st i.held else i.held
  let rate := match i.settle.rateAfter r with
    | some x => some x
    | none => v.pendRate
  (s.setIsl n { i with held := rest ++ [r] }).setStack (n - 2) { v with pendRate := rate }

/-- Applies one held request: a change whose full retraining it takes the place of is in place from here on, and that change's
commands complete with this one. One that asks for just that change retrains the stack again, whose gather has been discarded (R368).
Assumption log 42, DEDUCED. -/
def State.islApply (s : State) (n : Nat) (r : IslReq) : State :=
  let hs := (s.islOf n).waiting
  let s := s.setIsl n { (s.islOf n).settle with trans := none }
  let i := s.islOf n
  if i.same r then (if (s.stack (n - 2)).retrain && !i.st.halts then s.hbmRetune n r hs else s.islDone n hs)
  else if !i.legal r then (s.islDone n hs).islAnswer n none .denied
  else
    let (now, s) := s.islTake n r hs
    if now then s.islDone n hs else s

/-- Applies held requests in arrival order up to the first that takes time (R368). `fresh` says that the gather of a full
retraining has just ended, whose change the first request may supersede. Assumption log 42, DEDUCED. -/
def State.islApplyHeld (n : Nat) : List IslReq → Bool → State → State
  | [], _, s => s.setIsl n { s.islOf n with held := [] }
  | r :: rs, fresh, s =>
    if !fresh && (s.islOf n).trans.isSome then s.setIsl n { s.islOf n with held := r :: rs }
    else State.islApplyHeld n rs false (s.islApply n r)

/-- Held requests apply where no change is in progress and no gather runs, or where a gather has just ended. -/
def State.islHeldNow (s : State) (n : Nat) (fresh : Bool) : State :=
  if (s.islOf n).held.isEmpty then s else State.islApplyHeld n (s.islOf n).held fresh s

/-! ### Requests (R468 to R473, R475) -/

/-- Opcode of the command that makes a request (R416). -/
def IslReq.opcode : IslReq → Nat
  | .state _ => 0x08
  | .freq _ => 0x09

/-- A request for a state or a frequency of island `n`, from a command or from a register write. While a change is in progress a
command is answered with BUSY but for the gather's hold, a register write always with DENIED (R368, R473). Assumption log 41, DEDUCED. -/
def State.islRequest (s : State) (n : Nat) (r : IslReq) (hdr : Option CmdHdr) : State :=
  let i := s.islOf n
  let g := s.gathering n
  if i.trans.isSome && (!g || hdr.isNone) then s.islAnswer n hdr .busy
  else
    let bad := match r with
      | .freq m => !islFreqOk n m
      | .state _ => false
    let denied := match r with
      | .freq _ => false
      | .state st => !s.islPermits n st
    if bad then s.islAnswer n hdr .badArg
    else if denied then s.islAnswer n hdr .denied
    else if i.same r then s.islAnswer n hdr .alreadyDone
    else if !i.legal r then s.islAnswer n hdr .denied
    else if g then
      let s := s.islHold n r
      match hdr with
      | some h => s.complete h .pending
      | none => s
    else
      let (now, s) := s.islTake n r hdr.toList
      if now then s.islAnswer n hdr .ok
      else match hdr with
        | some h => s.addJob h r.opcode
        | none => s

/-- Register requests are accepted in RUN, SAFE and LOADFAIL (R468). -/
def State.islRegOk (s : State) : Bool := s.glb.st == .run || s.glb.st == .safe || s.glb.st == .loadfail

/-- PWR_ISL_REQ: a write asks for a state; a reserved code is refused with DENIED (R468, R478). -/
def execPwrIslReq (n : Nat) (st : Nat) (s : State) : Res :=
  .next (
    if !s.islRegOk ∨ 59 ≤ n then s
    else match IslSt.ofCode st with
      | none => s.islAnswer n none .denied
      | some x =>
        let took := !(s.islOf n).trans.isSome && s.islPermits n x && (s.islOf n).legal (.state x)
        let s := if took then s.setIsl n { s.islOf n with req := st } else s
        s.islRequest n (.state x) none)

/-- PWR_ISL_FREQ: a write acts as ISLAND_FREQ (R468, R480). -/
def execPwrIslFreq (n : Nat) (mhz : Nat) (s : State) : Res :=
  .next (if !s.islRegOk ∨ 59 ≤ n then s else s.islRequest n (.freq mhz) none)

/-- PCIE_L1_EXIT: an exit from L1 by the host asks for a return of the PCIE island to RUN (R476). -/
def execPcieL1Exit (s : State) : Res :=
  .next (if (s.islOf 8).st = .hold ∧ s.islRegOk then s.islRequest 8 (.state .run) none else s)

/-! ### The unit boundary (R472) -/

/-- UNIT_BOUNDARY: an encode core has ended its run; a decode core saves its context's state and leaves the rest of its run
fallow. -/
def execUnitBoundary (isl : Nat) (s : State) : Res :=
  .next (match (s.islOf isl).trans with
    | none => s
    | some t =>
      if !t.waits then s
      else
        let go (s : State) : State := s.setIsl isl { s.islOf isl with trans := some { t with waits := false } }
        if 49 ≤ isl then
          match s.dlaneOfCore (isl - 49) with
          | some l => go (s.endDecRun l)
          | none => go s
        else if s.unitBusy isl then s
        else go s)

/-! ### What a transition does (R369, R370, R476) -/

/-- Every copy that waits at a port is lost, and its scheduling state restarts at 0 (R476). Assumption log 43, DEDUCED. -/
def State.netOff (s : State) (p : Nat) : State :=
  let mine := (s.egr.queues.filter fun e => e.1 / 1024 == p).flatMap fun e => e.2
  let gone := s.egr.cal.get [] p ++ mine ++ s.egr.sealing.get [] p
  let s := gone.foldl State.copyDone s
  let e := s.egr
  { s with egr := { e with
    cal := e.cal.set [] p []
    queues := e.queues.drop fun k => k / 1024 == p
    sealing := e.sealing.set [] p []
    ftag := e.ftag.drop fun k => k / 1024 == p
    waited := e.waited.drop fun k => k / 1024 == p
    vtime := e.vtime.drop fun k => k / 8 == p } }

/-- The packet engine's memories are lost with its island, the ingress FIFOs' words, the segments of the open frames and the packets in
the recirculation queue among them: RESTART must follow (R387, R467, R469). Assumption log 43, DEDUCED. -/
def State.pktOff (s : State) : State :=
  { s with
    pkt := { s.pkt with rx := [], pes := [], order := [], em := [], rtcpQ := [] }
    ing := { s.ing with
      q0 := [], q1 := [], q2 := [], asserted := [], rgb := [], ch := s.ing.ch.remap {} fun _ v => { v with segs := [] } }
    img := { s.img with rules := [], parser := {} }
    rep := { s.rep with cache := [], sigQ := [], recirc := [], retxQ := [], paused := none, flights := [] } }

/-- Key-store entries in a stack that lost its contents fail authentication (R95, R370). Assumption log 43, DEDUCED. -/
def State.keysLost (s : State) (k : Nat) : State :=
  let base := s.regionBase 5 0xFFFF
  { s with sec := { s.sec with keys := s.sec.keys.drop fun n => stackOf (s.posOf (base + 64 * n)) == k } }

/-- Registers of the FIFOs of an island take their reset values, and their words are lost (R387, R467). -/
def State.fifosReset (s : State) (n : Nat) : State :=
  { s with chip := { s.chip with fifos := s.chip.fifos.drop fun f => fifoIsland f == n } }

/-- The fault and interrupt lines of an island in OFF read low (R477). Assumption log 43, DEDUCED. -/
def State.linesLow (s : State) (n : Nat) : State :=
  { s with
    flt := { s.flt with line := s.flt.line.drop fun k => fltIsland k == some n }
    irq := { s.irq with srcs := s.irq.srcs.remap {} fun k v => if irqIsland k = some n then { v with line := false } else v } }

/-- The completion pulses that wait for an island cross to it, or are discarded where it goes OFF (R399, R466). -/
def State.pulsesGo (s : State) (n : Nat) (off : Bool) : State :=
  let mine := s.chip.heldPulses.filter fun e => eventIsland e == n
  if mine.isEmpty then s
  else { s with chip := { s.chip with
    heldPulses := s.chip.heldPulses.filter fun e => eventIsland e != n, pulse := if off then s.chip.pulse else mine.getLast? } }

/-- Entering HOLD or OFF. -/
def State.islStops (s : State) (n : Nat) (off : Bool) : State :=
  let s := if off then (s.linesLow n).pulsesGo n true else s
  if n = 4 ∨ n = 5 then
    let s := s.linkLost (n - 4)
    if off then s.netOff (n - 4) else s
  else if n = 6 then (if off then s.pktOff.fifosReset 6 else s)
  else if islHbm n then
    let k := n - 2
    let s := s.abandonDrain k
    let s := (pcsOf k).foldl (fun s g => s.setPc g { s.pc g with outst := 0 }) s
    let v := s.stack k
    if off then
      ((s.setStack k { v with st := .off, gather := false, retrain := false, lost := true,
                              drain := { v.drain with phase := .idle, want := [] } }).keysLost k)
    else s.setStack k { v with st := if v.st = .training then .training else .selfRef, gather := false }
  else s

/-- Returning from HOLD or OFF to a running clock; `off` says from which. Assumption log 42, DEDUCED. -/
def State.islReturns (s : State) (n : Nat) (off : Bool) : State :=
  let s := s.pulsesGo n false
  if islHbm n then
    let k := n - 2
    let v := s.stack k
    let i := s.islOf n
    let change := v.owed || decide (rateOf i.effMhz ≠ v.rate && v.st ≠ .training)
    if off || v.retrain || change then
      let s := if off then (s.loseStack k) else s
      let r : IslReq := if change then .freq i.freq else .state i.st
      (s.setIsl n { s.islOf n with trans := some { req := r, hdrs := [], waits := false } }).retrainStack k
    else
      s.setStack k { v with
        st := if v.st = .training then .training else if s.glb.st = .safe then .selfRef else .service
        gather := v.drain.phase == .check || v.drain.phase == .offline }
  else if n = 1 ∨ n = 8 then s.mailboxReturns
  else if !off then s
  else if 9 ≤ n ∧ n < 17 then (s.clearSpad (barnSpad (n - 9)) barnSpadSize).fifosReset n
  else if 17 ≤ n ∧ n < 49 then ((s.clearSpad (encSpad (n - 17)) encSpadSize).setEnc (n - 17) {}).fifosReset n
  else if 49 ≤ n ∧ n < 58 then (s.setDec (n - 49) {}).fifosReset n
  else if n = 7 then
    { s with sec := { s.sec with keys := [], entries := [], keyGen := s.free }, free := s.free + 1 }
  else s

/-- ISLAND_TRANSITION_DONE: PWR_ISL_STAT shows the new state or frequency (R471, R473). A stack's change of clock ends at its
resumption instead (R367). I1 and I8 write their completion before the island stops. Assumption log 69, DESIGN CHOICE. -/
def execIslandTransitionDone (isl : Nat) (s : State) : Res :=
  .next (
    let i := s.islOf isl
    match i.trans with
    | none => s
    | some t =>
      if t.waits then s
      else match t.req with
        | .freq m =>
          if islHbm isl then s else (s.setIsl isl { i with freq := m, trans := none }).islDone isl t.hdrs
        | .state st =>
          if islHbm isl ∧ (s.stack (isl - 2)).retrain ∧ !st.halts ∧ !i.st.halts then s
          else
            let s := (s.setIsl isl { i with trans := none }).islDone isl t.hdrs
            let s := s.setIsl isl { s.islOf isl with st := st }
            let s := if st.halts then s.islStops isl (st == .off)
              else if i.st.halts then s.islReturns isl (i.st == .off)
              else s
            s.islHeldNow isl false)

end Sys2Proof.Machine
end

