-- ==== Sys2Proof/Machine/Granary.lean ====
section
/-!
DEFINITION. The granary at work: refresh, accesses and their errors, drain-and-train, and full retraining (R355 to R370).
-/

namespace Sys2Proof.Machine

/-! ### Refresh and temperature (R357) -/

/-- The stack holds its contents by its controller: it is trained, and not OFF. -/
def Stack.alive (v : Stack) : Bool := v.st == .service || v.st == .selfRef

/-- REFRESH_DUE on pseudo-channel `g`: with reads queued it is postponed up to 8, and a 9th is issued at once; without, all are
made up (R357). -/
def execRefreshDue (g : Nat) (readsQueued : Bool) (s : State) : Res :=
  .next (
    let k := g / 32
    let v := s.stack k
    let p := s.pc g
    if !v.alive ∨ p.role = .retired then s
    else if !readsQueued then s.setPc g { p with outst := 0 }
    else
      let n := if p.outst < 8 then p.outst + 1 else 7
      let hit := decide (7 ≤ p.outst)
      (s.setPc g { p with outst := n }).setStack k { v with maxHit := v.maxHit || hit })

/-- STACK_TEMPERATURE_REPORT, while the island runs: from 85 °C on the refresh interval halves (R357, R375). -/
def execStackTemperatureReport (stack : Nat) (temp : Nat) (s : State) : Res :=
  .next (
    if !s.awake ∨ s.stopped (2 + stack) then s
    else s.setStack stack { s.stack stack with temp := temp % 256, hot := decide (85 ≤ temp) })

/-! ### Error counts and sources (R358, R360, R361, R366, R377) -/

/-- A corrected error of pseudo-channel `g`: both counts rise, and HBM_CE is raised from it (R358, R361). -/
def State.correctedErr (s : State) (g : Nat) : State :=
  let p := s.pc g
  let k := g / 32
  let v := s.stack k
  let n := p.ceTrain + 1
  let first := decide (p.limAt = 0) && decide (s.hbm.ceLimit ≤ n)
  let s := s.setPc g { p with
    ce := min 0xFFFF (p.ce + 1), ceSat := p.ceSat || decide (0xFFFE ≤ p.ce), ceTrain := n
    limAt := if first then v.orderN + 1 else p.limAt }
  let s := if first then s.setStack k { v with orderN := v.orderN + 1 } else s
  s.raiseFrom (srcHbmCe k) (unitPc g)

/-- An uncorrectable error of pseudo-channel `g` at an address: the unit is poisoned, UE rises, and HBM_UE is raised from it
(R358). -/
def State.uncorrectableErr (s : State) (g addr : Nat) : State :=
  let p := s.pc g
  let s := { s with hbm := { s.hbm with poison := s.hbm.poison.set false (addr / 64) true } }
  let s := s.setPc g { p with ue := min 31 (p.ue + 1), ueSat := p.ueSat || decide (30 ≤ p.ue) }
  s.raiseFrom (srcHbmUe (g / 32)) (unitPc g)

/-! ### Masters (R447) -/

/-- Type of the region an address lies in (R371, R372). -/
def State.regionType (s : State) (a : Nat) : Nat :=
  match s.img.hbm.regions.find? fun r => decide (4096 * r.base ≤ a ∧ a < 4096 * (r.base + r.pages)) with
  | some r => r.type
  | none => 0

/-- Rows of a run's sheaf that hold the byte at an address. -/
def State.rowsAt (s : State) (c : Class) (r : Run) (addr : Nat) : List Nat :=
  [0, 1, 3].flatMap fun plane => (sheafRows plane r.own.h r.sh).filterMap fun row =>
    let a := s.rowSpan c r.ch (slotOf c r.fr) plane row c.base.maxW
    if a.1 ≤ addr ∧ addr < a.1 + a.2 then some (65536 * plane + row) else none

/-- A row that encode core `k` reads answers with an error response: it is filled with mid-grey, or its hint entries are invalid; the
sheaf of its run carries FILLED (R447). -/
def State.runFilled (s : State) (k addr : Nat) : State :=
  match s.laneOfCore k with
  | none => s
  | some l =>
    match (s.lane l).run with
    | none => s
    | some r =>
      match s.cls r.ch with
      | none => s
      | some c =>
        let v := s.ingOf r.ch
        let b := v.slots.get {} (slotOf c r.fr)
        let b := { b with
          badRows := (s.rowsAt c r addr).foldl (fun t n => t.set false n true) b.badRows, filled := b.filled.set false r.sh true }
        let s := s.setIng r.ch { v with slots := v.slots.set {} (slotOf c r.fr) b }
        s.setLane l { s.lane l with run := some { r with coded := r.coded.map fun _ => s.codeRun c r } }

/-- The coded unit that decode core `k` is decoding is corrupt from this point (R266, R447). -/
def State.corruptUnit (s : State) (k : Nat) : State :=
  match (s.dlaneOfCore k).bind fun l => (s.dlane l).run with
  | none => s
  | some x =>
    let v := s.dcxOf x
    if v.cur.isSome && !v.units.isEmpty then (s.flagPic x 1).nextSub x v.carry else s

/-- How a master takes an error response (R447); a DMA channel's halt and a pass's body error are rows of their own.
Assumption log 45, DESIGN CHOICE. -/
def State.masterError (s : State) (m addr : Nat) : State :=
  if m < 0x20 then (if s.regionType addr = 1 ∨ s.regionType addr = 6 then s.runFilled m addr else s.encErrorEnd m)
  else if m < 0x29 then s.corruptUnit (m - 0x20)
  else if 0x80 ≤ m ∧ m < 0xC0 then
    (if (s.pe (m - 0x80)).busy then s.peFinish (m - 0x80) (.exc excUnsupported) else s)
  else if 0xC0 ≤ m ∧ m < 0xC4 then s.failJob
  else s

/-! ### Accesses (R353, R355, R356, R358, R360) -/

/-- A response leaves the granary; an error response reaches the master (R447). -/
def State.respond (s : State) (a : GranAcc) (err : Bool) (data : List Byte) : State :=
  let s := { s with hbm := { s.hbm with rets := s.hbm.rets ++ [{ port := a.port, err := err, data := data }] } }
  if err then s.masterError a.master a.addr else s

/-- Puts an access before those of lower priority, and behind those of its own (R355). -/
def State.insPrio (s : State) (a : GranAcc) : List GranAcc → List GranAcc
  | [] => [a]
  | x :: xs => if s.hbm.prio.get 0 x.port ≤ s.hbm.prio.get 0 a.port then a :: x :: xs else x :: s.insPrio a xs

/-- The accesses of at most 64 bytes that a request is split into, at 64-byte boundaries, on which every granule boundary lies (R353,
R355). -/
def GranAcc.split (a : GranAcc) : List GranAcc :=
  if a.addr % 64 + a.len ≤ 64 then [a]
  else (range2 (a.addr / 64) ((a.addr + a.len + 63) / 64)).map fun u =>
    let b := max a.addr (64 * u)
    let e := min (a.addr + a.len) (64 * u + 64)
    { a with addr := b, len := e - b, data := slice a.data (b - a.addr) (e - b) }

/-! The queues of a position (R355, R356) -/

/-- Nothing is queued for position `i`, nor does a port keep an access for it. -/
def State.posIdle (s : State) (i : Nat) : Bool :=
  (s.hbm.rq.get [] i).isEmpty && (s.hbm.wq.get [] i).isEmpty && !s.hbm.stalled.any fun a => s.posOf a.addr == i

/-- The results that stand at the head of a port's reads leave, in the order it issued them (R356). -/
def State.deliver (s : State) (port : Nat) : List RetSlot → State
  | [] => s
  | x :: xs =>
    match x.ret with
    | some (err, data) => ({ s with hbm := { s.hbm with retq := s.hbm.retq.set [] port xs } }.respond x.acc err data).deliver port xs
    | none => { s with hbm := { s.hbm with retq := s.hbm.retq.set [] port (x :: xs) } }

/-- The result of read `id` of a port is known. -/
def State.fillRet (s : State) (port id : Nat) (err : Bool) (data : List Byte) : State :=
  s.deliver port ((s.hbm.retq.get [] port).map fun x => if x.id = id then { x with ret := some (err, data) } else x)

/-- A port issues a read: its place among the port's reads, and that place's number. -/
def State.openRet (s : State) (a : GranAcc) : Nat × State :=
  let l := s.hbm.retq.get [] a.port
  let id := (l.map fun x => x.id + 1).foldl max 0
  (id, { s with hbm := { s.hbm with retq := s.hbm.retq.set [] a.port (l ++ [{ id := id, acc := a, ret := none }]) } })

/-- A queued write of position `i` has bytes of a range; `all`: the queued writes cover the range. -/
def State.inWq (s : State) (i : Nat) (a : GranAcc) : Bool × Bool :=
  let ws := s.hbm.wq.get [] i
  let hit (b : Nat) : Bool := ws.any fun w => decide (w.addr ≤ b) && decide (b < w.addr + w.len)
  let bs := range2 a.addr (a.addr + a.len)
  (bs.any hit, bs.all hit)

/-- Position `i` accepts an access for which it has room: a write is queued, and every later read returns it; a read is queued with the
bytes of the writes accepted before it, or answered from the write queue (R356). Assumption log 69, DEDUCED. -/
def State.acceptAcc (s : State) (i : Nat) (a : GranAcc) : State :=
  if a.write then
    ({ s with hbm := { s.hbm with wq := s.hbm.wq.upd [] i (· ++ [a]) } }).accWrite 0 a.addr a.data
  else
    let data := s.accRead a.addr a.len
    let bad := s.unitPoisoned (a.addr / 64)
    let (some_, all_) := s.inWq i a
    let (id, s) := s.openRet a
    if some_ then s.fillRet a.port id (bad && !all_) (if bad && !all_ then [] else data)
    else { s with hbm := { s.hbm with rq := s.hbm.rq.upd [] i (· ++ [{ id := id, acc := a, data := data, bad := bad }]) } }

/-- The queue concerned of position `i` has room (R355). -/
def State.hasRoom (s : State) (i : Nat) (a : GranAcc) : Bool :=
  if a.write then decide ((s.hbm.wq.get [] i).length < 64) else decide ((s.hbm.rq.get [] i).length < 64)

/-- One access in the order of priority: it is accepted, where its position has accepted none in the cycle and has room and its port has
not stalled, or its port keeps it (R355, R356). `taken` holds the positions that have accepted one, `shut` the ports that stalled.
One that meets an error reaches no position. Assumption log 44, DEDUCED. -/
def State.present (acc : State × List Nat × List Nat) (a : GranAcc) : State × List Nat × List Nat :=
  let (s, taken, shut) := acc
  let i := s.posOf a.addr
  let keep : State × List Nat × List Nat :=
    ({ s with hbm := { s.hbm with stalled := s.hbm.stalled ++ [a] } }, taken, a.port :: shut)
  if shut.contains a.port then keep
  else match s.meets a.addr with
    | .wait => keep
    | .error =>
      if a.write then (s.respond a true [], taken, shut)
      else
        let (id, s) := s.openRet a
        (s.fillRet a.port id true [], taken, shut)
    | .served _ =>
      if taken.contains i || !s.hasRoom i a then keep else (s.acceptAcc i a, i :: taken, shut)

/-- The read at a queue's DRAM access, of which the stack and its ECC make `e` (R356, R358, R360). Assumption log 45, DESIGN CHOICE. -/
def State.issueRead (s : State) (g : Nat) (q : QRead) (e : EccOut) : State :=
  let fill (s : State) (err : Bool) (data : List Byte) : State := s.fillRet q.acc.port q.id err data
  match e with
  | .linkFailed => fill ((s.raiseFrom (srcHbmLink (g / 32)) (unitPc g)).uncorrectableErr g q.acc.addr) true []
  | _ =>
    if q.bad then fill s true []
    else match e with
      | .corrected => (fill s false q.data).correctedErr g
      | .uncorrectable => fill (s.uncorrectableErr g q.acc.addr) true []
      | _ => fill s false q.data

/-- The write at a queue's DRAM access: a unit rewritten whole is poisoned no more (R358, R360). Assumption log 45, DESIGN CHOICE. -/
def State.issueWrite (s : State) (g : Nat) (a : GranAcc) (e : EccOut) : State :=
  match e with
  | .linkFailed => ((s.raiseFrom (srcHbmLink (g / 32)) (unitPc g)).uncorrectableErr g a.addr).respond a true []
  | _ =>
    { s with hbm := { s.hbm with
        poison := (wholeUnits a.addr a.len).foldl (fun t u => t.set false u false) s.hbm.poison } }.respond a false []

/-- A batch of writes runs at position `i`: it starts at WR_HIGH and lasts down to WR_LOW (R356). -/
def State.batchRuns (s : State) (i : Nat) : Bool :=
  let n := (s.hbm.wq.get [] i).length
  (s.hbm.batch.get false i || decide (s.hbm.wrHigh ≤ n)) && decide (s.hbm.wrLow < n)

/-- The oldest queued read whose bank is ready (R356). -/
def State.readyRead (s : State) (i : Nat) (slow : List Nat) : Option QRead :=
  (s.hbm.rq.get [] i).find? fun q => slow.isEmpty || !slow.contains (Config.bankOf q.acc.addr)

/-- The cycle's DRAM access of position `i`, with the outcomes that are left: in a batch, or with no read queued, the oldest write; else
the oldest read whose bank is ready (R356). -/
def State.issuePos (slow : List Nat) (acc : State × List EccOut) (i : Nat) : State × List EccOut :=
  let (s, es) := acc
  let e := es.headD .clean
  let writes := s.hbm.wq.get [] i
  let run := s.batchRuns i
  let s := { s with hbm := { s.hbm with batch := s.hbm.batch.set false i run } }
  if run || (s.hbm.rq.get [] i).isEmpty then
    match writes with
    | [] => (s, es)
    | a :: as =>
      let s' := { s with hbm := { s.hbm with wq := s.hbm.wq.set [] i as } }
      let s' := { s' with hbm := { s'.hbm with batch := s'.hbm.batch.set false i (s'.batchRuns i && run) } }
      match s.meets a.addr with
      | .served g => (s'.issueWrite g a e, es.tail)
      | .error => (s'.respond a true [], es)
      | .wait => (s, es)
  else
    match s.readyRead i slow with
    | none => (s, es)
    | some q =>
      let s' := { s with hbm := { s.hbm with rq := s.hbm.rq.upd [] i fun l => l.filter fun x => decide (x ≠ q) } }
      match s.meets q.acc.addr with
      | .served g => (s'.issueRead g q e, es.tail)
      | .error => (s'.fillRet q.acc.port q.id true [], es)
      | .wait => (s, es)

/-- Positions with a queued access, ascending. -/
def State.queuedPos (s : State) : List Nat :=
  (List.range 60).filter fun i => !(s.hbm.rq.get [] i).isEmpty || !(s.hbm.wq.get [] i).isEmpty

/-- An access that a master whose port is closed presents: it is held at the port, but the PCIe function's reads are answered with an error
and its writes are discarded (R105). -/
def State.holdAccess (s : State) (a : GranAcc) : State :=
  if a.master = 0xC4 then
    (if a.write then s else { s with hbm := { s.hbm with rets := s.hbm.rets ++ [{ port := a.port, err := true, data := [] }] } })
  else { s with fab := { s.fab with
    held := s.fab.held ++ [{ master := a.master, addr := a.addr, len := a.len, write := a.write, data := a.data }] } }

/-- GRANARY_ACCESS: one controller cycle. Every position accepts at most one access, from the highest-priority port that has one for it
and finds room; a port keeps what is not accepted and stalls, and its accesses are accepted in its order. Then every position makes at
most one DRAM access (R355, R356). Assumption log 44, DEDUCED. -/
def execGranaryAccess (accs : List GranAcc) (e : EccOut) (s : State) (cyc : GranCyc := {}) : Res :=
  .next (
    let all := s.hbm.stalled ++ (accs.filter fun a => !s.portClosed a.master).flatMap GranAcc.split
    let shut := accs.filter fun a => s.portClosed a.master
    let s := shut.foldl State.holdAccess { s with hbm := { s.hbm with stalled := [], rets := [] } }
    let s := ((all.foldr s.insPrio []).foldl State.present (s, [], [])).1
    (s.queuedPos.foldl (State.issuePos cyc.slow) (s, e :: cyc.eccs)).1)

/-- SCRUB_READ: the scrub reads a unit of an active pseudo-channel and writes corrected data back; a full pass of the stack is
counted (R358, R359). -/
def execScrubRead (addr : Nat) (e : EccOut) (passEnd : Bool) (s : State) : Res :=
  .next (
    let k := stackOf (s.posOf addr)
    match s.meets addr with
    | .served g =>
      if (s.stack k).st ≠ .service || !s.posIdle (s.posOf addr) then s
      else
        let s := match e with
          | .corrected => if s.unitPoisoned (addr / 64) then s else s.correctedErr g
          | .uncorrectable => if s.unitPoisoned (addr / 64) then s else s.uncorrectableErr g addr
          | .linkFailed => (s.raiseFrom (srcHbmLink k) (unitPc g)).uncorrectableErr g addr
          | _ => s
        if passEnd then s.hbmCount k 2 1 else s
    | _ => s)

/-! ### Drain-and-train (R361 to R366) -/

/-- A drain of target `t` begins with the check of spare `sp`: its training data are gathered (R362). -/
def State.beginDrain (s : State) (k t sp : Nat) : State :=
  let v := s.stack k
  s.setStack k { v with gather := true, drain := { v.drain with phase := .check, tgt := t, spare := sp } }

/-- Drains of a stack start in RUN of the device, in service, with no retraining. -/
def State.drainsRun (s : State) (k : Nat) : Bool := s.glb.st == .run && (s.stack k).st == .service && !(s.stack k).retrain
  && !(s.stack k).gather

/-- DRAIN_START: the drain that a fault wants, else a periodic one, which an exhausted stack starts no more (R361, R365,
R366). -/
def execDrainStart (stack : Nat) (s : State) : Res :=
  .next (
    let v := s.stack stack
    let sp := s.stackSpares stack
    if !s.drainsRun stack ∨ v.drain.phase ≠ .idle then s
    else
      match v.drain.want, sp with
      | g :: gs, x :: _ =>
        if (s.pc g).role = .active then s.beginDrain stack g x
        else s.setStack stack { v with drain := { v.drain with want := gs } }
      | _ :: gs, [] => (s.setStack stack { v with drain := { v.drain with want := gs } }).raise srcMoveFail
      | [], x :: _ =>
        if v.exhausted then s
        else match s.drainTarget stack with
          | some t => s.beginDrain stack t x
          | none => s
      | [], [] => s)

/-- TRAINING_GATHER_END: the gather of a spare check, an offline training or a full retraining ends; where changes are held its
result is discarded and they apply (R368). -/
def execTrainingGatherEnd (stack : Nat) (s : State) : Res :=
  .next (
    let v := s.stack stack
    if !v.gather then s
    else (s.setStack stack { v with gather := false }).islHeldNow (2 + stack) true)

/-- The spare check failed: the drain uses the stack's other spare, or does not start (R362, R365, R453). -/
def State.checkFailed (s : State) (k : Nat) : State :=
  let d := (s.stack k).drain
  let s := (s.pcRetire d.spare).spentSpares k
  match s.stackSpares k with
  | x :: _ => s.beginDrain k d.tgt x
  | [] =>
    let s := s.drainEnds k
    if d.want.contains d.tgt then s.raise srcMoveFail else s

/-- TRAINING_DONE: the spare check ends and the copy begins, or the offline training ends (R362, R365, R377). -/
def execTrainingDone (stack : Nat) (ok : Bool) (s : State) : Res :=
  .next (
    let v := s.stack stack
    let d := v.drain
    if v.gather ∨ v.retrain ∨ v.st ≠ .service then s
    else match d.phase with
      | .check =>
        if ok then ((s.pcTrained d.spare).nextOrder stack).setStack stack
          { ((s.pcTrained d.spare).nextOrder stack).stack stack with drain := { d with phase := .copy } }
        else s.checkFailed stack
      | .offline =>
        let s := s.drainEnds stack
        if ok then ((s.pcTrained d.tgt).nextOrder stack).sparePc d.tgt
        else (s.pcRetire d.tgt).spentSpares stack
      | _ => s)

/-- DRAIN_SWAP: the position is served by the spare from here on, and the target's offline training begins (R362, R374, R379). A
drain that a fault wanted counts as the move of its unit (R449, R452). Assumption log 46, DEDUCED. -/
def execDrainSwap (stack : Nat) (s : State) : Res :=
  .next (
    let v := s.stack stack
    let d := v.drain
    if d.phase ≠ .copy ∨ v.st ≠ .service then s
    else
      let i := (s.pc d.tgt).pos
      let s := s.placePc i d.spare
      let s := s.setPc d.tgt { s.pc d.tgt with role := .offline }
      let s := s.setUnitSt (unitPc d.tgt) .quarantined
      let s := if d.want.contains d.tgt then s.countMove (unitPc d.tgt) else s
      let s := s.hbmCount stack 0 1
      s.setStack stack { s.stack stack with gather := true, drain := { d with phase := .offline } })

/-- ABORT_DRAIN: an abort of the stack's drain, requested as one of a command (R364, R419, R432). -/
def execAbortDrain (stack : Nat) (s : State) : Res := .next (if s.mbxReached then s.requestAbort (.drain stack) else s.unreached 0)

/-! ### Full retraining (R354, R367, R370) -/

/-- An active pseudo-channel that found no working setting is replaced by the lowest spare, which holds poison; with no spare
its position is not served (R354, R367). -/
def State.replacePc (s : State) (k g : Nat) : State :=
  let i := (s.pc g).pos
  let s := s.pcRetire g
  match s.stackSpares k with
  | x :: _ => (s.placePc i x).poisonPos i
  | [] => { s with hbm := { s.hbm with map := s.hbm.map.set none i none } }.poisonPos i

/-- The stack's pseudo-channels after a full retraining that kept its contents (R367). -/
def State.retrained (s : State) (k : Nat) (working : List Nat) : State :=
  let live := (pcsOf k).filter fun g => (s.pc g).role != .retired
  let bad := live.filter fun g => !working.contains g
  let act := bad.filter fun g => (s.pc g).role == .active
  let s := (bad.filter fun g => (s.pc g).role != .active).foldl State.pcRetire s
  let s := ((live.filter fun g => working.contains g).foldl State.pcTrained s).nextOrder k
  let s := ((live.filter fun g => working.contains g && (s.pc g).role == .offline)).foldl State.sparePc s
  act.foldl (fun s g => s.replacePc k g) s

/-- HBM_RESUME: every pseudo-channel has been trained at the new rate and the stack resumes; the change in progress completes
with OK and counts (R354, R365, R367, R370). Requests that are still held apply next (R368). Assumption log 1, DESIGN CHOICE. -/
def execHbmResume (stack : Nat) (working : List Nat) (s : State) : Res :=
  .next (
    let n := 2 + stack
    let v := s.stack stack
    if !v.retrain ∨ v.gather ∨ s.stopped n then s
    else
      let gone := ((pcsOf stack).filter fun g => (s.pc g).role != .retired && !working.contains g).length
      let s := if v.lost then (s.trainAll stack working).placeAll stack else s.retrained stack working
      let s := s.afterTraining stack gone
      let i := (s.islOf n).settle
      let hs := i.waiting
      let fresh := match i.trans with
        | some t => t.req.isFreq || decide (rateOf i.effMhz ≠ v.rate)
        | none => false
      let s := s.setIsl n { i with trans := none }
      let s := if fresh then s.hbmCount stack 3 1 else s
      let s := s.setStack stack { s.stack stack with
        st := if s.glb.st = .safe then .selfRef else .service
        retrain := false, lost := false, owed := false, rate := rateOf i.effMhz
        pendRate := if i.held.isEmpty then none else v.pendRate }
      (s.islDone n hs).islHeldNow n false)

end Sys2Proof.Machine
end

