-- ==== Sys2Proof/Machine/Mailbox.lean ====
section
/-!
DEFINITION. The mailbox: doorbells, the layout, aborts of commands, and the memory behind BAR2 (R76, R410 to R413, R419, R420, R431
to R433).
-/

namespace Sys2Proof.Machine

/-- The doorbells are reached, which lie in BAR2: a frozen PCIe function discards posted writes to BAR2 and BAR4 (R105, R433, R489). -/
def State.dbReached (s : State) : Bool := s.hostBar 2 && !s.stopped 8 && !s.isFrozen 0xC4

/-- A write of MBX_SQ_DB: the new tail; the first doorbell fixes the layout (R76, R412, R433). Assumption log 11, DESIGN CHOICE. -/
def State.sqDoorbell (s : State) (tail : Nat) : State :=
  { s with mbx := { s.mbx with locked := true, sqTail := tail % 4096 } }.fetch

/-- A write of MBX_CQ_DB: the host's new head frees slots, so completions that waited are written and fetching goes on (R412, R433).
It is a doorbell too (R76). Assumption log 72, DEDUCED. -/
def State.cqDoorbell (s : State) (head : Nat) : State :=
  (State.putWaiting s.mbx.waiting { s with mbx := { s.mbx with locked := true, cqHead := head % 4096 } }).fetch

/-- A write of MBX_CTRL: FENIC_LAYOUT, until the first doorbell (R76, R431). Assumption log 72, DEDUCED. -/
def State.setLayout (s : State) (fenic : Bool) : State :=
  if s.mbx.locked then s else { s with mbx := { s.mbx with fenic := fenic } }

/-- MBX_SQ_DB. The write is accepted in LOAD and TRAIN, and its commands are held there (R18). -/
def execMbxSqDb (tail : Nat) (s : State) : Res := .next (if s.dbReached then s.sqDoorbell tail else s.unreached 2)

/-- MBX_CQ_DB. -/
def execMbxCqDb (head : Nat) (s : State) : Res := .next (if s.dbReached then s.cqDoorbell head else s.unreached 2)

/-- MBX_CTRL. -/
def execMbxCtrl (w : Word) (s : State) : Res :=
  .next (if s.mbxReached then s.setLayout (w.getLsbD 0) else s.unreached 0)

/-- MBX_ABORT naming a command: it is resolved, while the steward's clock runs; a write while an abort is being resolved is ignored
(R419, R420, R432). -/
def execMbxAbort (tag : Nat) (s : State) : Res := .next (if s.mbxReached then s.requestAbort (.command tag) else s.unreached 0)

/-! ### BAR2 (R410) -/

/-- Size of BAR2 (R409). -/
def bar2Len : Nat := 2 ^ 28

/-- An offset of BAR2 that has storage: the rings and the scratchpad aperture (R410). -/
def bar2Held (o : Nat) : Bool := decide (o < cqBase + cqLen) || (decide (aptBase ≤ o) && decide (o < aptBase + aptLen))

/-- Bytes of a read of BAR2: reserved offsets and the doorbells read 0 (R410, R433). -/
def State.bar2Read (s : State) (o n : Nat) : List Byte :=
  (List.range n).map fun i => if bar2Held (o + i) then s.bar2.get 0 (o + i) else 0

/-- Word that a write of `bs` at offset `o` puts at offset `a`, where it covers it whole. -/
def wordAt (o : Nat) (bs : List Byte) (a : Nat) : Option Nat :=
  if o ≤ a ∧ a + 4 ≤ o + bs.length then some (leNat (slice bs (a - o) 4)) else none

/-- A write of BAR2: bytes with storage are written, those at reserved offsets are discarded, and a doorbell that is written whole takes
effect (R410, R433). Assumption log 74, DEDUCED. -/
def State.bar2Write (s : State) (o : Nat) (bs : List Byte) : State :=
  let s := { s with bar2 := (List.range bs.length).foldl (fun t i =>
    if bar2Held (o + i) then t.set 0 (o + i) ((bs[i]?).getD 0) else t) s.bar2 }
  let s := match wordAt o bs 0x50000 with
    | some w => s.sqDoorbell w
    | none => s
  match wordAt o bs 0x50004 with
  | some w => s.cqDoorbell w
  | none => s

end Sys2Proof.Machine
end

