-- ==== Sys2Proof/Machine/Power.lean ====
section
/-!
DEFINITION. Power, resets, reference clocks and the PCIe function's link (R18, R21, R29 to R44, R52, R69, R70, R81 to R83, R87,
R408, R489).
-/

namespace Sys2Proof.Machine

/-! ### What a DEV reset does (R21, R69, R87, R487) -/

/-- `n` free bits (assumption log 4). -/
def State.freeBits (s : State) (n : Nat) : Nat := leNat ((List.range ((n + 7) / 8)).map (Config.freeByte s.free)) % 2 ^ n

/-- SEC_OWNER_STAGE as a digest, in the byte order of R74 (R86, R109). -/
def Sec.digest (v : Sec) : BitVec 512 :=
  BitVec.ofNat 512 ((List.range 16).foldl (fun a n => a * 2 ^ 32 + (v.stage.get 0 n).toNat) 0)

/-- A burn that a reset interrupts has burned a part of what it was to burn; which part is left open (R87). Assumption log 18, DESIGN CHOICE. -/
def State.cutBurn (s : State) : State :=
  match s.sec.burn with
  | none => s
  | some op =>
    let f := s.sec.fuses
    let f := if op = 1 then { f with owner := f.owner ||| (s.sec.digest &&& BitVec.ofNat 512 (s.freeBits 512)) }
      else { f with debugOnes := f.debugOnes + s.freeBits 2 % (4 - f.debugOnes) }
    { s with sec := { s.sec with fuses := f, burn := none }, free := s.free + 1 }

/-- A flash operation that a reset or a loss of power interrupts leaves its range undefined (R69). Assumption log 18, DESIGN CHOICE. -/
def State.cutFlash (s : State) : State :=
  match s.flashOp with
  | none => s
  | some o => { s with flashOp := none }.flashSpoil o.base o.len

/-- A DEV reset (R21): everything takes its reset value but the fuses and their sensed values, the ledger, the flash, the TAP's
instruction, the straps as sampled and the pins. AON's sensors go on (R18); a warning has no threshold without an image (R46).
Assumption log 17, DEDUCED. -/
def State.clearDev (s : State) : State :=
  { glb := { s.glb with st := .reset, imgSlot := 0, restartPend := false }
    pins := { s.pins with xspiRst := false }
    therm := { s.therm with warn := [] }
    time := { aon := s.time.aon }
    flash := s.flash
    sec := { fuses := s.sec.fuses, sensed := s.sec.sensed, result := s.sec.result, tap := s.sec.tap
             scan := s.sec.scan, dmReset := s.sec.dmReset }
    fab := { frozen := [(0xC5, true)] }
    led := s.led
    host := s.host
    outs := { s.outs with lastHost := none, lastStw := none, latch := [] }
    free := s.free
    pending := s.pending }

/-- The cause that stands when another arrives: in RESET the one that moved the device there, or, among causes of the same AON
cycle, the one that ranks first: power-on, RESET_N, PERST_N, RESTART (R42). Assumption log 16, DEDUCED. -/
def Glb.causeOf (g : Glb) (cause now : Nat) : Nat :=
  if g.st = .reset then (if g.causeAt = now then min g.cause cause else g.cause) else cause

/-- The device enters RESET (R42). Assumption log 16, DEDUCED. -/
def State.devReset (s : State) (cause : Nat) : State :=
  let c := s.glb.causeOf cause s.time.aon
  let a := if s.glb.st = .reset then s.glb.causeAt else s.time.aon
  let s := s.cutBurn.cutFlash.clearDev
  { s with glb := { s.glb with cause := c, causeAt := a } }

/-- A power-on event (R36): a DEV reset, with the fields that only the power-on reset sets (R487). The ledger word being written is
finished (R40). Only here does AON return to REFCLK_SYS after a loss (R34; assumption log 92, DESIGN CHOICE). Assumption log 16,
DEDUCED. -/
def State.powerOn (s : State) : State :=
  let s := s.devReset 0
  { s with
    glb := { s.glb with por := false, restartHold := false }
    pins := { s.pins with clkSys := true }
    sec := { s.sec with sensed := {}, result := 0, tap := 0x02, scan := [], dmReset := false } }

/-! ### Leaving RESET (R37, R51) -/

/-- Encode and decode cores that read in service are spare from step 3 on (R495). Assumption log 76, DEDUCED. -/
def State.coresSpare (s : State) : State :=
  { s with led := { s.led with units := (List.range 41).foldl (fun t u =>
      let v := t.get {} u
      if v.st = .inService then t.set {} u { v with st := .spare } else t) s.led.units } }

/-- Steps 1 to 3: LOAD begins; the strap is sampled and seeds the layout; slot A is read; a fuse error is an event, and so is a
critical temperature that lasts (R18, R23, R31, R46, R51, R72, R76, R83). Assumption log 19, DEDUCED. -/
def State.leaveReset (s : State) : State :=
  let s := { s with
    glb := { s.glb with st := .load, lastReset := s.glb.cause, compat := s.pins.compat }
    pins := { s.pins with xspiRst := true }
    mbx := { s.mbx with fenic := s.pins.compat }
    cfg := { s.cfg with phase := 1 } }
  let s := { s with chip := { s.chip with repairs := s.led.repairs } }.coresSpare.ledgerUnits
  let s := (List.range 16).foldl (fun s t => if s.therm.crit.get false t then s.setLine (srcCrit t) true else s) s
  if s.sec.sensed.eccErr then s.raise srcFuse else s

/-- The device leaves RESET once the power-on reset has released, both reset pins are high and the time after a RESTART has passed
(R37, R70). -/
def State.tryLeave (s : State) : State :=
  if s.glb.st = .reset ∧ s.glb.por ∧ s.pins.resetN ∧ s.pins.perstN ∧ !s.glb.restartHold then s.leaveReset else s

/-- The fuses as sensed; a field with a double-bit error holds no value that the spec gives (R81, R83, R107).
Assumption log 22, DESIGN CHOICE. -/
def State.sense (s : State) (e : FuseEcc) : State :=
  let f := s.sec.fuses
  let bits := s.freeBits 576
  { s with
    free := s.free + 1
    sec := { s.sec with dmReset := decide (2 ≤ f.debugOnes), sensed :=
      { serial := if e.serial then BitVec.ofNat 64 bits else f.serial
        owner := if e.owner then BitVec.ofNat 512 (bits / 2 ^ 64) else f.owner
        ownerSet := decide (2 ≤ f.ownerOnes)
        debugClosed := decide (2 ≤ f.debugOnes)
        idkeyOk := !e.root && !e.idkey && Config.idkeyOpens f.idkey f.rootSecret
        eccErr := e.serial || e.root || e.idkey || e.owner
        ownerBad := e.owner } } }

/-- POR_RELEASE (R31, R36, R37, R81). Assumption log 22, DESIGN CHOICE. -/
def execPorRelease (p : PinLevels) (ecc : FuseEcc) (s : State) : Res :=
  .next (
    if s.glb.por then s
    else
      let s := { s with
        glb := { s.glb with por := true, smbAddr := p.smbAddr % 4 }
        pins := { s.pins with resetN := p.resetN, perstN := p.perstN, compat := p.compat, smbAddr := p.smbAddr % 4 } }
      (s.sense ecc).tryLeave)

/-- A loss of VDD_AON while an item's copy 0 is written: the copy is whole or it is not (R455). Assumption log 66, DESIGN CHOICE. -/
def State.cutLedger (s : State) : State :=
  match s.led.writing with
  | none => s
  | some _ =>
    let (v, s) := s.draw 1
    if v = 0 then { s with led := s.led.copyFails false } else s

/-- RAIL_BELOW_THRESHOLD: a power-on event; the ledger word being written is finished, but where VDD_AON itself fell, and no further
write starts, so that the other copy keeps the earlier value (R36, R40, R455). THERMTRIP_N is released where VDD_AON is the rail (R29):
a fall of VDD_AON below its threshold counts as its removal. Assumption log 91, DESIGN CHOICE. -/
def execRailBelowThreshold (r : Rail) (s : State) : Res :=
  .next (
    let s := (if r = .vddAon then s.cutLedger else s).powerOn
    let s := { s with led := { s.led with writing := none } }
    if r = .vddAon then { s with pins := { s.pins with thermtrip := false } } else s)

/-! ### Reset pins (R41, R42) -/

/-- The filter passes a low level: of 340 ns or longer always, of 300 ns or less never, and between as it may (R41).
Assumption log 15, DESIGN CHOICE. -/
def State.passes (s : State) (lowNs : Nat) : Bool × State :=
  if 340 ≤ lowNs then (true, s)
  else if lowNs ≤ 300 then (false, s)
  else
    let (v, s) := s.draw 1
    (v == 1, s)

/-- RESET_N_ASSERT (R21, R41, R42). Assumption log 15, DESIGN CHOICE. -/
def execResetNAssert (lowNs : Nat) (s : State) : Res :=
  .next (
    let (yes, s) := s.passes lowNs
    if yes then
      let s := s.devReset 1
      { s with pins := { s.pins with resetN := false } }
    else s)

/-- RESET_N_RELEASE (R31, R37). -/
def execResetNRelease (compat : Bool) (s : State) : Res :=
  .next ({ s with pins := { s.pins with resetN := true, compat := compat } }.tryLeave)

/-- PERST_N_ASSERT (R21, R41, R42). Assumption log 15, DESIGN CHOICE. -/
def execPerstNAssert (lowNs : Nat) (s : State) : Res :=
  .next (
    let (yes, s) := s.passes lowNs
    if yes then
      let s := s.devReset 2
      { s with pins := { s.pins with perstN := false } }
    else s)

/-- PERST_N_RELEASE (R31, R37). -/
def execPerstNRelease (compat : Bool) (s : State) : Res :=
  .next ({ s with pins := { s.pins with perstN := true, compat := compat } }.tryLeave)

/-- RESTART_ENTER_RESET: 1 ms after RESTART (R70). -/
def execRestartEnterReset (s : State) : Res :=
  .next (
    if s.glb.restartPend then
      let s := s.devReset 3
      { s with glb := { s.glb with restartHold := true } }
    else s)

/-- RESTART_LEAVE_RESET: 1 ms in RESET has passed (R37, R70). Assumption log 16, DEDUCED. -/
def execRestartLeaveReset (compat : Bool) (s : State) : Res :=
  .next (
    if s.glb.restartHold then
      { s with glb := { s.glb with restartHold := false }, pins := { s.pins with compat := compat } }.tryLeave
    else s)

/-! ### Reference clocks (R34) -/

/-- CLK_SYS_LOSS: a loss of more than 1 µs in RUN; AON goes on on its internal oscillator (R34). Assumption log 19, DEDUCED. -/
def execClkSysLoss (absentNs : Nat) (s : State) : Res :=
  .next (
    if s.glb.st = .run ∧ 1000 < absentNs then { s with pins := { s.pins with clkSys := false } }.raise srcClkSys else s)

/-- ETH_REFCLK_LOSS: a loss of more than 1 µs takes both ports down (R34). -/
def execEthRefclkLoss (absentNs : Nat) (s : State) : Res :=
  .next (
    if s.glb.st ≠ .reset ∧ 1000 < absentNs then ((s.linkLost 0).linkLost 1).raise srcEthClk else s)

/-! ### The PCIe function (R43, R44, R408, R489) -/

/-- The mailbox after a reset of the PCIE island alone: the ring registers are reset, unfetched commands are gone, and no
completion of a fetched one is written (R44, R412). -/
def Mbx.pcieReset (m : Mbx) : Mbx :=
  { m with
    sqHead := 0, sqTail := 0, cqTail := 0, cqHead := 0, phase := true, waiting := []
    jobs := m.jobs.map fun j => { j with mute := true } }


/-- The function goes down without PERST_N (R44): its configuration space, BARs, MSI-X table and the ring registers are reset, the
completion ring is cleared, and messages not yet sent are withdrawn. `link` says whether the link stays up. Assumption log 23, DEDUCED. -/
def State.pcieDown (s : State) (link : Bool) : State :=
  let s := (range2 4 68).foldl (fun s t => s.irqWithdraw (s.irqPresents t)) s
  { s with
    pcie := { link := link && s.pcie.link }
    mbx := s.mbx.pcieReset
    bar2 := s.bar2.drop fun a => decide (cqBase ≤ a ∧ a < cqBase + cqLen) }

/-- The link leaves L0, and the source is raised (R438). Assumption log 23, DEDUCED. -/
def State.linkDown (s : State) : State :=
  if s.pcie.link then (s.pcieDown false).raise srcPcieDown else s

/-- PCIE_REFCLK_LOSS (R34, R44). -/
def execPcieRefclkLoss (s : State) : Res := .next s.linkDown

/-- PCIE_LINK_DOWN (R44): a function-level reset leaves the link in L0. Assumption log 23, DEDUCED. -/
def execPcieLinkDown (c : LinkDownCause) (s : State) : Res :=
  .next (match c with
    | .flr => if s.pcie.link then s.pcieDown true else s
    | _ => s.linkDown)

/-- PCIE_LINK_UP: the link reaches L0, after PERST_N or after a link-down (R43, R430, R489). -/
def execPcieLinkUp (s : State) : Res :=
  .next (
    if s.glb.st ≠ .reset ∧ s.pins.perstN ∧ !s.stopped 8 then { s with pcie := { s.pcie with link := true } } else s)

/-- Size of a BAR (R409). -/
def barSize (n : Nat) : Nat := if n = 0 then 2 ^ 26 else if n = 2 then 2 ^ 28 else 2 ^ 36

/-- What a configuration read answers: identities, class and capabilities; a BAR as its base, size, width and prefetch bit; the link as
whether it is up, the rates it trains at in 100 MT/s and its widths; the supported payload and read request sizes; MSI-X as its
vectors, the BAR and the offsets of table and PBA, and the function mask (R408, R409, R411). Capabilities are numbered in the
order of R408's table. Assumption log 24, DESIGN CHOICE. -/
def State.cfgRead (s : State) (item : CfgItem) : List Nat :=
  match item with
  | .ids => [0x1D7A, 0x0192]
  | .revision => [0xA1, 0x120000]
  | .subsystem => [0x1D7A, 0x0192]
  | .command => [bit s.pcie.mse, bit s.pcie.bme]
  | .power => [if s.pcie.d3 then 3 else 0]
  | .bar n => if n = 0 ∨ n = 2 ∨ n = 4 then [s.pcie.bars.get 0 n, barSize n, 64, bit (n == 4)] else []
  | .link => [bit s.pcie.link, 640, 320, 160, 80, 50, 25, 16, 8, 4, 2, 1]
  | .sizes => [512, 4096]
  | .caps => [0, 1, 2, 3]
  | .msix => [64, 0, 0x68000, 0x69000, bit s.pcie.fnMask]

/-- A configuration request takes effect (R408, R409). Assumption log 24, DESIGN CHOICE. -/
def State.configure (s : State) (r : CfgReq) : State :=
  match r with
  | .read item => { s with outs := { s.outs with cfg := s.cfgRead item } }
  | .setBar n base =>
    if n = 0 ∨ n = 2 ∨ n = 4 then
      { s with pcie := { s.pcie with
          bars := s.pcie.bars.set 0 n (base % 2 ^ 64 / barSize n * barSize n), assigned := s.pcie.assigned.set false n true } }
    else s
  | .setCommand mse bme => { s with pcie := { s.pcie with mse := mse, bme := bme } }
  | .setPower d3 => { s with pcie := { s.pcie with d3 := d3 } }

/-- CONFIGURATION_REQUEST: until the configuration space is ready it completes with Configuration Request Retry Status; when that
is, within its bound, is left open (R43, R489). Assumption log 24, DESIGN CHOICE. -/
def execConfigurationRequest (r : CfgReq) (s : State) : Res :=
  .next (
    if !s.pcie.link ∨ s.stopped 8 then s
    else
      let (v, s') := s.draw 1
      let (ready, s) := if s.pcie.cfgReady then (true, s) else (v == 1, s')
      if ready then { s with pcie := { s.pcie with cfgReady := true, lastCpl := 1 } }.configure r
      else { s with pcie := { s.pcie with lastCpl := 2 } })

end Sys2Proof.Machine
end

