-- ==== Sys2Proof/Machine/Fabric.lean ====
section
/-!
DEFINITION. The fabric and its firewall: windows, violations, freezes, and the FAB commands (R101 to R106, R111 to R113).
-/

namespace Sys2Proof.Machine

/-! ### Transactions -/

/-- The range has storage: the granary in service, or the scratchpads (R350, R380). -/
def hasStorage (a n : Nat) : Bool := decide (a + n ≤ granTop) || (decide (spadBase ≤ a) && decide (a + n ≤ spadTop))

/-- Island of an on-chip address (R380). -/
def chipIsland (a : Nat) : Nat :=
  if a < barnSpad 0 then islEnc ((a - spadBase) / encSpadSize)
  else if a < stwSpad then islBarn ((a - barnSpad 0) / barnSpadSize)
  else 1

/-- What the places of a range are to a transaction: an error where one has no storage, its island is OFF, or its unit is poisoned
for a read; else a wait where one's island is in HOLD or its stack is stopped (R358, R370, R466). -/
def State.rangeMeets (s : State) (a n : Nat) (write : Bool) : Meets :=
  if !hasStorage a n then .error
  else if a < granTop then
    let us := range2 (a / 64) ((a + n + 63) / 64)
    if us.any fun u => s.meets (64 * u) == .error || (!write && s.meets (64 * u) != .wait && s.unitPoisoned u) then .error
    else if us.any fun u => s.meets (64 * u) == .wait then .wait
    else .served 0
  else
    let is_ := [chipIsland a, chipIsland (a + n - 1)]
    if is_.any fun i => (s.islOf i).st == .off then .error
    else if is_.any fun i => (s.islOf i).st == .hold then .wait
    else .served 0

/-- SPAD_UE of scratchpad `p` is raised; in the steward's the access of a steward core names it (R386, R438, R440). -/
def State.spadUeFrom (s : State) (p : Nat) (core : Option Nat) : State :=
  match core with
  | some k => if p = 40 then s.raiseFrom (spadUe p) (unitStw k) else s.raise (spadUe p)
  | none => s.raise (spadUe p)

/-- Steward core behind a master. -/
def stwOf (m : Nat) : Option Nat := if 0xC0 ≤ m ∧ m < 0xC4 then some (m - 0xC0) else none

/-- A read by the fabric answers: with data, corrected where the code found a single-bit error, or with an error response where it found
a double-bit error in a scratchpad word (R386, R447). -/
def State.fabRead (s : State) (r : FabReq) (a : Nat) : State :=
  match spadOf a, r.ecc with
  | some p, .single => (s.fabRespond r.master false (s.accRead a r.len)).raise (spadCe p)
  | some p, .double => ((s.fabRespond r.master true []).spadUeFrom p (stwOf r.master)).masterError r.master a
  | _, _ => s.fabRespond r.master false (s.accRead a r.len)

/-- Carries out an allowed transaction: a write through its alias, or a read, which returns the words as they are whatever its
alias (R385); it waits at a stopped target (R466); an error response reaches the master (R447). -/
def State.fabPerform (s : State) (r : FabReq) : State :=
  let a := plainOf r.addr
  match s.rangeMeets a r.len r.write with
  | .error => (s.fabRespond r.master true []).masterError r.master a
  | .wait => { s with fab := { s.fab with waiting := s.fab.waiting ++ [r] } }
  | .served _ =>
    if r.write then (s.accWrite (aliasOf r.addr) a r.data).fabRespond r.master false []
    else s.fabRead r a

/-- What a freeze does to the unit behind the master: an encode core's run ends, a parse engine's packet and a steward's job fail
(R105, R447), a decode core's coded unit is corrupt from there (R266, R447), and a DMA channel halts at once (R398). -/
def State.freezeUnit (s : State) (m : Nat) : State :=
  if 0x30 ≤ m ∧ m < 0x74 then
    let c := s.dma (m - 0x30)
    if c.st.active then s.setDma (m - 0x30) { c with st := .haltedFrozen } else s
  else if m < 0x20 then s.encErrorEnd m
  else s.masterError m 0

/-- The host's access to BAR2: with its port frozen a write is discarded and a read answered with Completer Abort; the lock does not concern
it, and at a stopped PCIE island nothing answers (R105, R409, R410, R477, R489). Assumption log 74, DEDUCED. -/
def State.fabBar2 (s : State) (r : FabReq) : State :=
  if !s.hostBar 2 || decide (bar2Len < r.addr + r.len) then s.unreached 2
  else if s.stopped 8 then s
  else if s.isFrozen 0xC4 then (if r.write then s else (s.fabRespond 0xC4 true []).hostCpl 1)
  else if r.write then (s.bar2Write r.addr r.data).hostCpl 0
  else (s.fabRespond 0xC4 false (s.bar2Read r.addr r.len)).hostCpl 0

/-- One transaction of a cycle; `bad` gathers the violators with their KIND. -/
def State.fabOne (a : State × List (Nat × Nat)) (r : FabReq) : State × List (Nat × Nat) :=
  let (s, bad) := a
  if !masterIssued r.master then a
  else if r.master = 0xC4 ∧ r.bar2 then (s.fabBar2 r, bad)
  else if r.master = 0xC4 ∧ !s.hostBar 4 then (s.unreached 4, bad)
  else if s.portClosed r.master then
    if r.master = 0xC4 then (if r.write then s else s.fabRespond r.master true [], bad)
    else ({ s with fab := { s.fab with held := s.fab.held ++ [r] } }, bad)
  else match s.fabVerdict r with
    | .allow => (s.fabPerform r, bad)
    | .abort => (s.fabRespond r.master true [], bad)
    | .violation k =>
      ((({ s with fab := { s.fab with frozen := s.fab.frozen.set false r.master true } }).fabRespond r.master true []).fabCancel
        r.master, bad ++ [(r.master, k)])

/-- Records the violations of a cycle and raises each freeze (R105, R111). -/
def State.fabViolations (s : State) (bad : List (Nat × Nat)) : State :=
  match minBy (fun e => e.1) bad with
  | none => s
  | some (m, k) =>
    let s := { s with fab := { s.fab with
      violCnt := min 255 (s.fab.violCnt + bad.length), violKind := k, violMaster := m } }
    let s := bad.foldl (fun s e => s.freezeUnit e.1) s
    s.raiseAll ((bad.map fun e =>
      ({ src := freezeSrc e.1, unit := (masterUnit e.1).getD 0 } : FaultEv)).foldr insEv [])

/-- FABRIC_TRANSACTION: the transactions of one cycle, in the order the fabric delivers them; those that waited come first (R101
to R105, R466). Assumption log 74, DEDUCED. -/
def execFabricTransaction (reqs : List FabReq) (s : State) : Res :=
  .next (
    if !s.awake then s
    else
      let old := s.fab.waiting
      let s := { s with fab := { s.fab with resps := [], waiting := [] } }
      let s := old.foldl State.fabPerform s
      let (s, bad) := reqs.foldl State.fabOne (s, [])
      s.fabViolations bad)

/-- Requests held at a master's port are discarded with an error response (R106). Assumption log 40, DEDUCED. -/
def State.fabDiscard (s : State) (m : Nat) : State :=
  let mine := s.fab.held.filter fun r => r.master == m
  let s := { s with fab := { s.fab with held := s.fab.held.filter fun r => r.master != m, resps := [] } }
  mine.foldl (fun s r => s.fabRespond r.master true []) s

/-- FAB_UNFREEZE: the port of a frozen master reopens (R106). Assumption log 40, DEDUCED. -/
def execFabUnfreeze (m : Nat) (s : State) : Res :=
  .next (
    if !s.awake ∨ m = 0xC5 ∨ !masterIssued m ∨ !s.fab.frozen.get false m then s
    else
      let s := s.fabDiscard m
      { s with fab := { s.fab with frozen := s.fab.frozen.set false m false } })

/-- FAB_LOCK: the windows are fixed until the next DEV reset; in LOADFAIL the lock is never set (R103, R111). -/
def execFabLock (s : State) : Res := .next (if s.awake && s.glb.st != .loadfail then { s with fab := { s.fab with lock := true } } else s)

/-- The word of FAB_VIOL_LAST (R111). -/
def State.fabViolLast (s : State) : Nat := s.fab.violCnt * 2 ^ 24 + s.fab.violKind * 2 ^ 8 + s.fab.violMaster

/-- Islands that a unit's quarantine test runs in: its own and its barn's at the image's frequency (R451). -/
def State.testClocks (s : State) (u : Nat) : Bool :=
  if u < 32 then s.atImage (islEnc u) && s.atImage (islBarn (u / 4))
  else if u < 41 then s.atImage (islDec (u - 32))
  else if u < 113 then s.atImage 0
  else if u < 177 then s.atImage 6
  else s.atImage 7

/-- A unit's quarantine test can end now: in RUN, at its islands' image frequency, and not frozen (R451, R495). A SerDes lane's
test is its port's retraining and a pseudo-channel's its training, and a steward core has none (R449). Assumption log 39, DEDUCED. -/
def State.testable (s : State) (u : Nat) : Bool :=
  s.glb.st == .run && (s.unit u).st == .quarantined
    && !(decide (41 ≤ u ∧ u < 45) || decide (177 ≤ u ∧ u < 251)) && s.testClocks u
    && (match unitMaster u with
      | some m => !s.fab.frozen.get false m
      | none => true)

end Sys2Proof.Machine
end

