-- ==== Sys2Proof/Machine/Spares.lean ====
section
/-!
DEFINITION. Spares: admission and binding of lanes, the steward's takeover, quarantine tests, and the ledger's hour (R422, R423,
R449 to R459).
-/

namespace Sys2Proof.Machine

/-! ### Lanes (R135, R450) -/

/-- A lane is bound to encode core `k`, whose marigold entry reads in service (R134, R495). Assumption log 76, DEDUCED. -/
def State.bindEnc (s : State) (l k : Nat) : State :=
  (s.setLane l { s.lane l with bound := some k, adm := none, ready := none, failed := false }).setUnitSt (unitEnc k) .inService

/-- The same for a decode lane. -/
def State.bindDec (s : State) (l k : Nat) : State :=
  (s.setDLane l { s.dlane l with bound := some k, adm := none, ready := none, failed := false }).setUnitSt (unitDec k) .inService

/-- The admission case of encode core `k` on lane `l` ended: the core is ready to be bound; after a mismatch it is quarantined and
the move tries another (R450). -/
def State.admitEnc (s : State) (l k : Nat) (err : BitVec 64) (failed : Bool) : State :=
  let (g, s) := s.nextGlean k
  let sig := s.encCaseSig g err
  let ok := s.caseMatches g sig && !failed
  let s := (((s.gleanArea k g).caseCapped k g).encCnt k 6 1).gleanEnd k g (some sig) ok
  if ok then s.setLane l { s.lane l with adm := none, ready := some k }
  else if (s.lane l).adm = some k then (s.quarantine (unitEnc k) (srcGlean k)).seekEnc l
  else s

/-- The same for decode core `k`. -/
def State.admitDec (s : State) (l k : Nat) (err : BitVec 64) (failed : Bool) : State :=
  let (g, s) := s.nextDecGlean k
  let sig := s.decCaseSig g ^^^ err
  let ok := s.caseMatches g sig && !failed
  let s := (s.decCnt k 1 1).decGleanEnd k g sig ok
  if ok then s.setDLane l { s.dlane l with adm := none, ready := some k }
  else if (s.dlane l).adm = some k then (s.quarantine (unitDec k) (srcDecGlean k)).seekDec l
  else s

/-- SPARE_ADMISSION_DONE: the admission case of a lane's move ends; `err` are the bits in which its signature differs from that of sound
hardware, `failed` a thresher failure, residue mismatch, bounds hit or watchdog expiry (R211, R277, R450). -/
def execSpareAdmissionDone (decode : Bool) (lane : Nat) (err : BitVec 64) (failed : Bool) (s : State) : Res :=
  .next (
    if decode then
      match (s.dlane lane).adm with
      | some k => s.admitDec lane k err failed
      | none => s
    else
      match (s.lane lane).adm with
      | some k => s.admitEnc lane k err failed
      | none => s)

/-- LANE_REBIND: at a slot boundary the lane's entry names the admitted core (R135, R450); a core that no longer qualifies is
passed over. -/
def execLaneRebind (decode : Bool) (lane : Nat) (s : State) : Res :=
  .next (
    if decode then
      match (s.dlane lane).ready with
      | some k => if s.decUsable k then s.bindDec lane k else s.seekDec lane
      | none => s
    else
      match (s.lane lane).ready with
      | some k => if s.encUsable k then s.bindEnc lane k else s.seekEnc lane
      | none => s)

/-! ### The steward (R422, R423, R438) -/

/-- Steward cores in service. -/
def State.stewards (s : State) : Nat := ((range2 41 45).filter fun u => (s.unit u).st == .inService).length

/-- STEWARD_TAKEOVER: spare core `core` takes the place of one that was retired; the jobs go on (R423). In RESET, and with it after a loss
of supply, no ledger write starts (R40). Assumption log 39, DEDUCED. -/
def execStewardTakeover (core : Nat) (s : State) : Res :=
  .next (if s.awake ∧ (s.unit (unitStw core)).st = .spare ∧ s.stewards < 3 then s.setUnitSt (unitStw core) .inService else s)

/-- STW_WATCHDOG: an active core has retired no instruction for 10 ms while not in WFI; never in HOLD (R438, R476). -/
def execStwWatchdog (core : Nat) (s : State) : Res :=
  .next (if (s.unit (unitStw core)).st = .inService ∧ !(s.irqTgt core).idle ∧ !s.stopped 1 then s.raise (srcStwWd core) else s)

/-- STEWARD_CORE_WFI: the core waits in WFI: it has left the source it served, and its interrupt target is idle (R427).
Assumption log 75, DESIGN CHOICE. -/
def execStewardCoreWfi (core : Nat) (s : State) : Res :=
  .next (s.setIrqTgt core { s.irqTgt core with idle := true, serving := none })

/-- STEWARD_LOAD: the work queue has held more than 230 jobs throughout 100 ms (R422); the line of a stopped steward does not rise
(R477). -/
def execStewardLoad (s : State) : Res :=
  .next (if loadLimit < s.mbx.jobs.length ∧ !s.stopped 1 then { s with mbx := { s.mbx with loadHi := true } }.setLine srcStwLoad true else s)

/-! ### Quarantine tests (R451, R453) -/

/-- The lowest-numbered lane that has no core seeks one again (R453). -/
def State.retryEnc (s : State) : State :=
  match laneNums.find? fun l => (s.lane l).failed with
  | some l => s.seekEnc l
  | none => s
def State.retryDec (s : State) : State :=
  match dlaneNums.find? fun l => (s.dlane l).failed with
  | some l => s.seekDec l
  | none => s

/-- A transfer that waits restarts from its start on the channel that passed (R453). -/
def State.retryDma (s : State) (n : Nat) : State :=
  match s.chip.waiting with
  | [] => s
  | c :: rest =>
    let s := { s with chip := { s.chip with waiting := rest } }
    (s.setUnitSt (unitDma n) .inService).setDma n (({ c with st := .idle } : DmaCh).begin (s.fifoAsserted c.fifo))

/-- The unit becomes spare, and what waits for one of its kind takes it (R451, R453). Assumption log 40, DEDUCED. -/
def State.testPassed (s : State) (u : Nat) : State :=
  let s := s.setUnitSt u .spare
  let s := { s with led := { s.led with cause := s.led.cause.set 0 u 0 } }
  if u < 32 then (s.fabDiscard u).retryEnc
  else if u < 41 then (s.fabDiscard u).retryDec
  else if 45 ≤ u ∧ u < 113 then s.retryDma (u - 45)
  else s

/-- Position of the last case of a kind in GLEAN_GOLDEN, with which a test of a core ends (R449). -/
def lastCase (cases : List GleanCase) (kind : Nat) : Nat :=
  ((List.range cases.length).reverse.find? fun i => match cases[i]? with
    | some g => g.kind == kind
    | none => false).getD 0

/-- A core's quarantine test leaves the results of its last case (R213, R214, R279, R449); the answer says whether that case matched.
`err` are the bits in which its signature differs from that of sound hardware. -/
def State.testResults (s : State) (u : Nat) (err : BitVec 64) : Bool × State :=
  if u < 32 then
    let g := lastCase s.img.glean 0
    let sig := s.encCaseSig g err
    let ok := s.caseMatches g sig
    (ok, s.setEnc u { s.encOf u with gMatch := ok, gCase := g, gSig := sig })
  else if u < 41 then
    let g := lastCase s.img.glean 1
    let sig := s.decCaseSig g ^^^ err
    let ok := s.caseMatches g sig
    (ok, s.setDec (u - 32) { s.decOf (u - 32) with gMatch := ok, gCase := g, gSig := sig })
  else (true, s)

/-- QUARANTINE_TEST_END (R449, R451). -/
def execQuarantineTestEnd (unit : Nat) (passed : Bool) (s : State) (err : BitVec 64 := 0) : Res :=
  .next (
    if !s.testable unit then s
    else
      let (ok, s) := s.testResults unit err
      if passed && ok then s.testPassed unit else s.retire unit (s.led.cause.get 0 unit))

/-! ### The ledger's hour (R454, R456, R459) -/

/-- POWER_ON_HOUR: the wear counters are written once per power-on hour; a write whose read-back fails twice leaves the earlier
value and raises LEDGER_ERR (R456). Assumption log 66, DEDUCED. -/
def execPowerOnHour (tj : Nat) (writeOk : Bool) (s : State) : Res :=
  .next (
    if !s.glb.por then s
    else if writeOk then
      let l := s.led.put { item := .hours, hours := s.led.hours, tj := s.led.tjHours }
      { s with led := { l with hours := l.hours + 1, tjHours := l.tjHours + tj } }
    else s.raise srcLedger)

end Sys2Proof.Machine
end

