-- ==== Sys2Proof/Machine/Boot.lean ====
section
/-!
DEFINITION. Start-up: the slots, TRAIN, and the entry into RUN (R18 to R20, R51 to R56, R61 to R64, R71, R103, R104, R134, R143,
R162, R293, R354, R371, R372, R470).
-/

namespace Sys2Proof.Machine

/-! ### LOAD (R18, R51, R56, R71, R72) -/

/-- Both slots have failed: the boot ROM's handler serves the held commands (R18, R19, R71). A lock that the host set in LOAD is set no more,
since in LOADFAIL it never is (R103). Assumption log 107, DEDUCED. -/
def State.loadFails (s : State) : State :=
  { s with glb := { s.glb with st := .loadfail }, cfg := { s.cfg with phase := 3 }, fab := { s.fab with lock := false } }.fetch

/-- The result of a slot is recorded (R72). -/
def State.slotResult (s : State) (slot r : Nat) : State :=
  if slot = 0 then { s with cfg := { s.cfg with slotA := r } } else { s with cfg := { s.cfg with slotB := r } }

/-- Step 12: the frequencies of the image (R52, R470, R480). -/
def State.imageFreqs (s : State) (fs : List Nat) : State :=
  (List.range 59).foldl (fun s n =>
    let f := fs.getD n 400
    s.setIsl n { s.islOf n with freq := f, image := f }) s

/-- The fault reaction table is installed (R20, R440). Assumption log 19, DEDUCED. -/
def State.installLevels (s : State) (ls : List Nat) : State :=
  { s with flt := { s.flt with
      installed := true
      level := (List.range 512).foldl (fun t n => t.set 0 n (ls.getD n 0)) [] } }

/-- Registers that take their values from NET_SETUP and HBM_SETUP in TRAIN (R176, R313, R371). -/
def State.imageRegs (s : State) (i : Img) : State :=
  { s with
    ing := { s.ing with
      wmHigh := (List.range 3).foldl (fun t f => t.set 0 f (i.net.wmHigh.getD f 0)) []
      wmLow := (List.range 3).foldl (fun t f => t.set 0 f (i.net.wmLow.getD f 0)) []
      holdA := i.net.holdA
      holdB := i.net.holdB }
    hbm := { s.hbm with
      granule := i.hbm.granule
      wrHigh := i.hbm.wrHigh
      wrLow := i.hbm.wrLow
      prio := (List.range 13).foldl (fun t p => t.set 0 p (i.hbm.prio.getD p 0)) []
      ceLimit := i.hbm.ceLimit
      retrainS := i.hbm.retrainS } }

/-- The time unit starts at the PTP epoch (R35, R143). Assumption log 60, DEDUCED. -/
def State.startTime (s : State) : State :=
  { s with
    time := { s.time with ptp := 0, latched := 0, running := true }
    ptp := { s.ptp with measured := false, wasLocked := false, streak := 0, master := none, syncTrans := none, foreign := [] } }

/-- Fresh key-import keys and internal key, and IT_SEED, from the TRNG (R91, R95, R340). Assumption log 49, DESIGN CHOICE. -/
def State.drawKeys (s : State) : State :=
  let s := { s with sec := { s.sec with keyGen := s.free, keys := [], entries := [] }, free := s.free + 1 }
  let (v, s) := s.draw 32
  { s with egr := { s.egr with itSeed := v } }

/-- Steps 11 to 13: the image of a slot that passed takes effect and the device enters TRAIN (R18, R51, R64, R83). -/
def State.enterTrain (s : State) (slot : Nat) (i : Img) : State :=
  let h := readHeader (s.slotBytes slot 0 512)
  let s := { s with
    cfg := { s.cfg with
      phase := 3, loaded := true, imgVer := h.ver, rotaId := h.ident
      imgHash := beBytes 64 (Config.sha512 (s.slotBytes slot 0 h.imgLen)).toNat }
    glb := { s.glb with st := .train, imgSlot := slot }
    img := i }
  let s := (s.installLevels i.levels).imageFreqs i.freq
  let s := (s.imageRegs i).startTime.drawKeys
  if s.sec.sensed.eccErr then s.raise srcFuse else s

/-! ### Staging (R53) -/

/-- The scratchpads that hold the staged image, as base and length: those of the barns, then those of the encode cores that the ledger
does not record as retired (R53). Assumption log 86, DESIGN CHOICE. -/
def State.stageSpans (s : State) : List (Nat × Nat) :=
  (List.range 8).map (fun b => (barnSpad b, barnSpadSize))
    ++ ((List.range 32).filter fun k => (s.unit (unitEnc k)).st != .retired).map fun k => (encSpad k, encSpadSize)

/-- Bytes written to spans in their order. -/
def State.spanWrite : List (Nat × Nat) → List Byte → State → State
  | [], _, s => s
  | (a, n) :: sp, bs, s => spanWrite sp (bs.drop n) (s.chipWrite a (bs.take n))

/-- Bytes of spans from an offset on. -/
def State.spanRead (s : State) : List (Nat × Nat) → Nat → Nat → List Byte
  | [], _, _ => []
  | (a, n) :: sp, off, k =>
    if off < n then
      let m := min k (n - off)
      (List.range m).map (fun i => s.chip.mem.get 0 (a + off + i)) ++ s.spanRead sp 0 (k - m)
    else s.spanRead sp (off - n) k

/-- A slot's signed region and signature are staged (R53, R62). -/
def State.stageSlot (s : State) (slot : Nat) : State :=
  State.spanWrite s.stageSpans (s.slotBytes slot 0 ((readHeader (s.slotBytes slot 0 512)).imgLen + 132)) s

/-- Staged content is discarded (R53). -/
def State.discardStage (s : State) : State := s.stageSpans.foldl (fun s e => s.clearSpad e.1 e.2) s

/-- Bytes of the staged image. -/
def State.staged (s : State) (off n : Nat) : List Byte := s.spanRead s.stageSpans off n

/-- SLOT_CHECK: slot A first, and slot B only if it fails; without a flash both fail at once (R53, R54, R56, R61, R62).
A slot that passes is staged; what a slot that fails had staged is discarded. -/
def execSlotCheck (slot : Nat) (rd : FlashReads) (s : State) : Res :=
  .next (
    if s.glb.st ≠ .load ∨ 2 ≤ slot ∨ s.cfg.phase ≠ slot + 1 then s
    else match s.slotCheck slot rd with
      | (r, some i) => ((s.stageSlot slot).slotResult slot r).enterTrain slot i
      | (r, none) =>
        let s := s.discardStage.slotResult slot r
        if slot = 1 then s.loadFails
        else if r = resNoFlash then (s.slotResult 1 r).loadFails
        else { s with cfg := { s.cfg with phase := 2 } })

/-! ### TRAIN (R51, R354) -/

/-- A stack is in service at its island's rate (R352, R354, R374, R375). -/
def State.stackServes (s : State) (k : Nat) : State :=
  s.setStack k { s.stack k with st := .service, rate := rateOf (s.islOf (2 + k)).effMhz }

/-- HBM_TRAINING_COMPLETE: step 14, on both stacks in parallel (R51, R354). Assumption log 69, DESIGN CHOICE. -/
def execHbmTrainingComplete (working : List Nat) (s : State) : Res :=
  .next (
    if s.glb.st ≠ .train ∨ (s.stack 0).st ≠ .training ∨ (s.stack 1).st ≠ .training then s
    else
      let a := s.wouldRetire 0 working
      let b := s.wouldRetire 1 working
      let s := (s.trainAll 0 working).placeAll 0
      let s := (s.trainAll 1 working).placeAll 1
      ((s.stackServes 0).stackServes 1).afterTraining 0 a |>.afterTraining 1 b)

/-- The sections of the staged image lie in the IMAGE region at the OFFSET of each, as far as the region reaches (R51, R59, R372).
Assumption log 86, DESIGN CHOICE. -/
def State.copySections (s : State) : State :=
  match s.img.hbm.regions.find? fun r => r.type == 0x0C with
  | none => s
  | some r =>
    (readDir (readHeader (s.staged 0 512)).count (s.staged 0x200 (32 * 15))).foldl (fun s e =>
      s.granWrite (4096 * r.base + e.off) (s.staged e.off (min e.len (4096 * r.pages - e.off)))) s

/-- IMAGE_SECTIONS_COPIED: step 15 (R51, R372). -/
def execImageSectionsCopied (s : State) : Res :=
  .next (
    if s.glb.st ≠ .train ∨ (s.stack 0).st ≠ .service ∨ (s.stack 1).st ≠ .service ∨ s.cfg.copied then s
    else
      let s := s.copySections
      { s with cfg := { s.cfg with copied := true } })

/-! ### Step 16: windows (R103, R104, R372) -/

/-- Grants of a master's kind: region type and attribute bits, R in bit 0 and W in bit 1 (R372). -/
def grantsOf (m : Nat) : List (Nat × Nat) :=
  if m < 0x20 then [(0x1, 1), (0x2, 3), (0x3, 2), (0x6, 1), (0xB, 3), (0xC, 1)]
  else if m < 0x29 then [(0x6, 3), (0x7, 1), (0x8, 2), (0xB, 3), (0xC, 1), (0xD, 3)]
  else if m < 0x74 then [(0x1, 3), (0x2, 3), (0x6, 3), (0x7, 3), (0xA, 3), (0xB, 1), (0xC, 3)]
  else if m < 0xC0 then [(0x3, 1), (0x4, 3), (0x7, 2), (0x9, 2), (0xC, 1), (0xD, 3)]
  else if m = 0xC4 then [(0x6, 1), (0x7, 3), (0x8, 1)]
  else [(0x2, 1), (0x4, 3), (0x9, 3), (0xA, 3), (0xC, 3)]

/-- The master has a window over the on-chip span (R104). -/
def hasChipWindow (m : Nat) : Bool := decide (0x30 ≤ m ∧ m < 0x74) || (decide (0xC0 ≤ m) && m != 0xC4)

/-- First and last page of a region type's span (R373). -/
def typeSpan (rs : List Region) (t : Nat) : Option (Nat × Nat) :=
  match rs.filter fun r => r.type == t with
  | [] => none
  | r :: more => some (more.foldl (fun (a : Nat × Nat) x => (min a.1 x.base, max a.2 (x.base + x.pages - 1))) (r.base, r.base + r.pages - 1))

/-- The windows of a master, each as its base, limit and attributes, EN included (R103, R104, R113). Assumption log 29, DEDUCED. -/
def masterWindows (rs : List Region) (m : Nat) : List (Nat × Nat × Nat) :=
  (grantsOf m).filterMap (fun (t, a) => (typeSpan rs t).map fun (b, l) => (b, l, 8 + a))
    ++ (if hasChipWindow m then [(spadBase / 4096, spadTop / 4096 - 1, 0xF)] else [])

/-- Master IDs that are issued (R101). -/
def masters : List Nat := (List.range 0xC6).filter masterIssued

/-- Writes a master's windows, from window 0 on. Assumption log 29, DEDUCED. -/
def State.writeWindows (s : State) (m : Nat) : State :=
  let ws := masterWindows s.img.hbm.regions m
  let t := (List.range 8).foldl (fun t w =>
    let (b, l, a) := (ws[w]?).getD (0, 0, 0)
    ((t.set 0 (winKey m w 0) b).set 0 (winKey m w 1) l).set 0 (winKey m w 2) a) s.fab.win
  { s with fab := { s.fab with win := t } }

/-! ### Step 16: tables and lanes (R134, R162, R293, R323) -/

/-- Aperture windows, in ascending channel order from BAR4 offset 0 (R162, R178). -/
def aptWindows (cs : List Class) : Tbl (Option (Nat × Nat)) :=
  ((cs.mapIdx fun ch c => (ch, c)).foldl (fun (a : Nat × Tbl (Option (Nat × Nat))) (e : Nat × Class) =>
    if e.2.base.pathPcie then (a.1 + 512 * aptSize e.2, a.2.set none e.1 (some (a.1, aptSize e.2))) else a) (0, [])).2

/-- The STATIC entries of a table (R293). Assumption log 50, DESIGN CHOICE. -/
def State.installStatic (s : State) (t : Nat) : State :=
  match s.img.em[t]? with
  | none => s
  | some d =>
    if d.role ≠ 4 then s
    else (List.range d.staticCnt).foldl (fun s i =>
      let key := Config.staticKey s.img.emBytes t i
      if s.emHas t key then s else (s.emInsert t key (.static t i)).getD s) s

/-- The core that LANE_MAP names for byte `i`. -/
def State.mapCore (s : State) (i : Nat) : Option Nat := (s.img.laneMap[i]?).filter fun k => k ≠ 0xFF

/-- The first pass of R134: a lane is bound to the core it names, where that is usable. Assumption log 29, DEDUCED. -/
def State.bindNamed (s : State) : State :=
  let s := laneNums.foldl (fun s l => match s.mapCore l with
    | some k => if s.encUsable k && !s.encTaken k then s.bindEnc l k else s
    | none => s) s
  dlaneNums.foldl (fun s l => match s.mapCore (28 + l) with
    | some k => if s.decUsable k && !s.decTaken k then s.bindDec l k else s
    | none => s) s

/-- The second pass of R134: a lane of the map that is still unbound takes the core of R136, or its move has failed. -/
def State.bindRest (s : State) : State :=
  let s := laneNums.foldl (fun s l =>
    if (s.mapCore l).isNone ∨ (s.lane l).bound.isSome then s
    else match s.encSpare with
      | some k => s.bindEnc l k
      | none => (s.setLane l { s.lane l with failed := true }).raise srcMoveFail) s
  dlaneNums.foldl (fun s l =>
    if (s.mapCore (28 + l)).isNone ∨ (s.dlane l).bound.isSome then s
    else match s.decSpare with
      | some k => s.bindDec l k
      | none => (s.setDLane l { s.dlane l with failed := true }).raise srcMoveFail) s

/-- The bounds of the key engine's private path: the KEY_STORE region (R95, R372). -/
def State.keyBounds (s : State) : State :=
  match s.img.hbm.regions.find? fun r => r.type == 0x05 with
  | some r => { s with sec := { s.sec with ksBase := 4096 * r.base, ksLen := 4096 * r.pages } }
  | none => s

/-- What the steward loads at step 16: windows, which ignore writes where FAB_LOCK is set already, and their lock, the key store's
bounds, aperture windows, STATIC entries, rule set 0, and the lanes (R95, R103, R111). -/
def State.loadTables (s : State) : State :=
  let s := if s.fab.lock then s else masters.foldl State.writeWindows s
  let s := s.keyBounds
  let s := { s with
    glb := { s.glb with tables := true }
    fab := { s.fab with lock := true }
    ing := { s.ing with apt := aptWindows s.img.classes }
    rep := { s.rep with active := 0, epoch := 0, setOf := [] } }
  ((List.range 8).foldl State.installStatic s).bindNamed.bindRest

/-- The commands fetched as the device enters RUN are those held since LOAD and TRAIN (R19). -/
def State.holdJobs (s : State) : State :=
  { s with mbx := { s.mbx with jobs := s.mbx.jobs.map fun j => { j with held := true } } }

/-- The device enters RUN: EGR_TIME starts, the gates follow their lists, and the held commands are fetched (R18, R19, R321,
R333). A fault that reached SAFE meanwhile stands. -/
def State.enterRun (s : State) : State :=
  if s.glb.st ≠ .train then s
  else
    let s := { s with glb := { s.glb with st := .run }, time := { s.time with runAt := s.time.aon } }
    s.gatesFollow.fetch.holdJobs

/-- TABLES_LOADED: step 16 (R51). -/
def execTablesLoaded (s : State) : Res :=
  .next (if s.glb.st ≠ .train ∨ !s.cfg.copied then s else s.loadTables.enterRun)

end Sys2Proof.Machine
end

