-- ==== Sys2Proof/Machine/Chip.lean ====
section
/-!
DEFINITION. Scratchpad cycles, FIFO commands, and the DMA channels at work (R381 to R400, R403 to R407).
-/

namespace Sys2Proof.Machine

/-! ### Scratchpads (R381 to R386) -/

/-- Bank of a word: its scratchpad, and the bank in it (R381). -/
def bankOf (a : Nat) : Option (Nat × Nat) :=
  (spadOf a).map fun p => (p, a / 8 % (if 32 ≤ p ∧ p < 40 then 16 else 8))

/-- The word at an address. -/
def State.spadWord (s : State) (a : Nat) : BitVec 64 := BitVec.ofNat 64 (leNat (s.ramRead a 8))

/-- Puts an access in the order of the ports' priority; those of one port keep their order (R381). -/
def insRank (a : SpadAcc) : List SpadAcc → List SpadAcc
  | [] => [a]
  | x :: xs => if a.rank ≤ x.rank then a :: x :: xs else x :: insRank a xs

/-- The oldest access of each port, which makes no other progress until it is served (R382). -/
def spadHeads (seen : List (Option Nat × Nat)) : List SpadAcc → List SpadAcc
  | [] => []
  | a :: as =>
    if seen.contains (spadOf a.addr, a.rank) then spadHeads seen as
    else a :: spadHeads ((spadOf a.addr, a.rank) :: seen) as

/-- Accesses that a cycle serves: in each bank the word of the highest-priority access, with every read of it and the first write
or alias operation on it; `wrote` are the words that have their write (R382). The fabric port of an encode scratchpad is served only
where no pipeline port presents an access to the bank (R383). -/
def spadServed (taken : List ((Nat × Nat) × Nat)) (wrote : List Nat) : List SpadAcc → List SpadAcc
  | [] => []
  | a :: as =>
    match bankOf a.addr with
    | none => spadServed taken wrote as
    | some b =>
      match taken.find? fun e => e.1 == b with
      | none => a :: spadServed ((b, a.addr) :: taken) (if a.op = 0 then wrote else a.addr :: wrote) as
      | some (_, w) =>
        if w = a.addr && (a.op = 0 || !wrote.contains w) && !(a.rank = 64 && decide (b.1 < 32)) then
          a :: spadServed taken (if a.op = 0 then wrote else w :: wrote) as
        else spadServed taken wrote as

/-- The bytes that a write or an alias operation leaves in its word; only the enabled bytes take part (R385). -/
def State.spadStore (s : State) (a : SpadAcc) : List Byte :=
  (leBytes 8 a.data.toNat).mapIdx fun i b =>
    let old := s.ramByte (a.addr + i)
    if bitOf a.be i then aliasByte (a.op - 1) old b else old

/-- What the SEC-DED code finds in the word at `a`: `e` in the word of the cycle's first read (R386). -/
def wordEcc (reads : List SpadAcc) (e : SpadEcc) (a : Nat) : SpadEcc :=
  match reads with
  | [] => .clean
  | r :: _ => if r.addr = a then e else ((reads.find? fun x => x.addr == a).map fun x => x.ecc).getD .clean

/-- The port behind an error response: a core's run ends without commit, a steward core's job fails, and a fabric master reacts as R447
sets out (R386, R447, R466). -/
def State.spadPortError (s : State) (p : Nat) (a : SpadAcc) : State :=
  if a.rank = 64 then s.masterError a.master a.addr
  else if p < 32 then s.encErrorEnd p
  else if p < 40 then (if 1 ≤ a.rank ∧ a.rank < 5 then s.encErrorEnd (4 * (p - 32) + (a.rank - 1)) else s)
  else s.failJob

/-- The error responses of a cycle reach their ports. -/
def State.spadAnswer (s : State) (bad : List SpadAcc) : State :=
  bad.foldl (fun s a => match spadOf a.addr with
    | some p => s.spadPortError p a
    | none => s) s

/-- The sources of the words read, each once (R386). -/
def State.spadSources (s : State) (reads : List SpadAcc) (e : SpadEcc) : State :=
  (reads.foldl (fun (acc : State × List Nat) a =>
    if acc.2.contains a.addr then acc
    else (match spadOf a.addr, wordEcc reads e a.addr with
      | some p, .single => acc.1.raise (spadCe p)
      | some p, .double => acc.1.spadUeFrom p (if a.rank < 4 then some a.rank else stwOf a.master)
      | _, _ => acc.1, a.addr :: acc.2)) (s, [])).1

/-- Removes the accesses of a list, each once. -/
def dropAccs (won : List SpadAcc) (l : List SpadAcc) : List SpadAcc := won.foldl (fun l a => l.erase a) l

/-- SCRATCHPAD_ACCESS: one cycle, in which the accesses that stalled are presented again before the new ones. Reads return the words as
they stood before the cycle's writes; losing accesses stall (R382). Towards an island in HOLD an access waits, and towards one that is
OFF it is answered with an error response (R466). -/
def execScratchpadAccess (accs : List SpadAcc) (e : SpadEcc) (s : State) : Res :=
  .next (
    if !s.awake then s
    else
      let all := (s.chip.stalled ++ accs).filter fun a => (spadOf a.addr).isSome
      let isl (a : SpadAcc) : IslSt := ((spadOf a.addr).map fun p => (s.islOf (spadIsland p)).st).getD .off
      let off := all.filter fun a => isl a == .off
      let able := all.filter fun a => isl a != .off && isl a != .hold
      let won := spadServed [] [] ((spadHeads [] able).foldr insRank [])
      let reads := won.filter fun a => a.op == 0
      let bad := reads.filter fun a => wordEcc reads e a.addr == .double
      let data := (reads.filter fun a => wordEcc reads e a.addr != .double).map fun a => (a, s.spadWord a.addr)
      let s := (won.filter fun a => a.op != 0).foldl (fun s a => s.chipWrite a.addr (s.spadStore a)) s
      let s := { s with chip := { s.chip with reads := data, errs := bad ++ off, stalled := dropAccs won (dropAccs off all) } }
      (s.spadAnswer (bad ++ off)).spadSources reads e)

/-- DMA_FIFO_FLUSH: writing FLUSH of a FIFO, in a cycle that may present a pop and a push (R391, R407); a register of a stopped island
ignores writes (R477). -/
def execDmaFifoFlush (f : Nat) (s : State) (ops : FifoOps := {}) : Res :=
  .next (if !s.awake || s.stopped (fifoIsland f) then s else s.fifoFlush f ops)

/-! ### DMA transfers and the firewall (R102, R105, R398) -/

/-- Offsets within a transfer at which its source or its destination enters a 64-byte unit, and its start. -/
def DmaCh.pieces (c : DmaCh) : List Nat :=
  let cross (b : Nat) : List Nat := (List.range (c.len / 64 + 1)).map fun i => (64 - b % 64) % 64 + 64 * i
  0 :: ((if c.trig = 1 then cross c.dst else cross c.src ++ cross c.dst).filter fun o => decide (0 < o ∧ o < c.len))

/-- What stops a channel at a place of its transfer: the firewall, with the KIND of the violation; an error response; an island or a stack
that makes it wait (R102, R398, R466). -/
inductive DmaStop where
  | violation (kind : Nat) | error | wait
  deriving DecidableEq, Repr

/-- What stops the bytes at offset `o` of a channel's transfer, on the read side or on the write side. -/
def State.dmaStop (s : State) (n o : Nat) : Option DmaStop :=
  let c := s.dma n
  let m := 0x30 + n
  let rd := if c.trig = 1 then Verdict.allow
    else s.fabVerdict { master := m, addr := c.src + o, len := 1, write := false, data := [] }
  let wr := s.fabVerdict { master := m, addr := c.dst + o, len := 1, write := true, data := [] }
  let rm := if c.trig = 1 then Meets.served 0 else s.rangeMeets (plainOf c.src + o) 1 false
  let wm := s.rangeMeets (plainOf c.dst + o) 1 true
  match rd, wr with
  | .violation k, _ => some (.violation k)
  | _, .violation k => some (.violation k)
  | _, _ =>
    if rm = .error ∨ wm = .error then some .error
    else if rm = .wait ∨ wm = .wait then some .wait
    else none

/-- Bytes of its transfer that a channel reaches before the first place still ahead that stops it, with what does: in the direction of
the copy (R397). -/
def State.dmaReach (s : State) (n : Nat) : Option (Nat × DmaStop) :=
  let c := s.dma n
  let ps := c.pieces
  let next (o : Nat) : Nat := (minBy (fun x => x) (ps.filter fun x => decide (o < x))).getD c.len
  let bad := ps.filterMap fun o =>
    let b := if c.descends then (c.len - next o, c.len - o) else (o, next o)
    if b.2 ≤ c.done then none else (s.dmaStop n o).map fun w => (max b.1 c.done, w)
  minBy (fun e => e.1) bad

/-- Every retry of a beat failed: the channel halts and DMA_HALT is raised; bytes written earlier stay written (R398). -/
def State.dmaHalt (s : State) (n used : Nat) : State :=
  let c := s.dma n
  (s.setDma n { c with st := .haltedBus, used := used, usedAt := c.done }).raiseFrom srcDmaHalt (unitDma n)

/-- Bytes that a channel can have written by `k`: under FIFO_LEVEL the words popped come from above the low watermark (R389, R395). -/
def State.dmaCap (s : State) (n k : Nat) : Nat :=
  let c := s.dma n
  if c.trig = 1 then min k (c.done + c.hold.length + 64 * (s.fifoFill c.fifo - s.fifoLow c.fifo)) else k

/-- Moves up to `k` bytes of a channel's transfer in all. On the way a violation freezes the channel, which halts at once; a place that
answers with an error response at every retry halts it; and at one that is stopped it waits (R105, R398, R466). -/
def State.dmaAdvance (s : State) (n k : Nat) : State :=
  let k := s.dmaCap n k
  match s.dmaReach n with
  | none => s.dmaMove n k
  | some (lim, why) =>
    if k ≤ lim then s.dmaMove n k
    else
      let s := s.dmaMove n lim
      match why with
      | .wait => s
      | .error => s.dmaHalt n (s.dma n).limit
      | .violation kind =>
        let s := { s with fab := { s.fab with frozen := s.fab.frozen.set false (0x30 + n) true } }.fabCancel (0x30 + n)
        s.fabViolations [(0x30 + n, kind)]

/-- A completion pulse: towards an island in HOLD it waits at the crossing, towards one that is OFF it is discarded (R399, R466). -/
def State.sendPulse (s : State) (e : Nat) : State :=
  if e = 0 then s
  else match (s.islOf (eventIsland e)).st with
    | .off => s
    | .hold => { s with chip := { s.chip with heldPulses := s.chip.heldPulses ++ [e] } }
    | _ => { s with chip := { s.chip with pulse := some e } }

/-- A channel that has written its last byte is DONE and sends its completion pulse (R399). -/
def State.dmaFinish (s : State) (n : Nat) : State :=
  let c := s.dma n
  if c.st = .run ∧ c.done = c.len then (s.setDma n { c with st := .done }).sendPulse c.event else s

/-- The channel runs and its port is open. -/
def State.dmaRuns (s : State) (n : Nat) : Bool := (s.dma n).st == .run && !s.isFrozen (0x30 + n)

/-! ### DMA commands (R395 to R400, R405) -/

/-- DMA_START: writing START (R395, R405). -/
def execDmaStart (ch : Nat) (s : State) : Res := .next (if s.awake then s.dmaBegin ch else s)

/-- DMA_FIFO_LEVEL_START: after the given cycles of FIFOs, in which their producers and consumers push and pop, the watermark state of
the channel's FIFO is asserted: a waiting or paused transfer begins or resumes (R387 to R393, R395). Assumption log 67, DESIGN CHOICE. -/
def execDmaFifoLevelStart (ch : Nat) (s : State) (cycles : List (Nat × FifoOps) := []) : Res :=
  .next (
    let s := cycles.foldl (fun s e =>
      if !s.awake || decide (e.1 < 3) || s.stopped (fifoIsland e.1) then s else s.fifoCycle e.1 e.2) s
    let c := s.dma ch
    if c.mayGo && s.fifoAsserted c.fifo then s.setDma ch { c with st := .run } else s)

/-- DMA_FIFO_LEVEL_PAUSE: after `words` more words, each written out in full, the watermark state is released and the transfer
pauses, unless they were its last (R395, R399). -/
def execDmaFifoLevelPause (ch : Nat) (words : Nat) (s : State) : Res :=
  .next (
    let c := s.dma ch
    if !s.dmaRuns ch ∨ c.trig ≠ 1 then s
    else
      let s := (s.dmaAdvance ch (c.done + words * c.sw)).dmaFinish ch
      let v := s.dma ch
      if v.st = .run ∧ !s.fifoAsserted v.fifo then s.setDma ch { v with st := .paused } else s)

/-- A transfer can run to its end: the words that a FIFO_LEVEL transfer still pops lie in its FIFO above the low watermark until the last
is popped (R389, R395). Assumption log 36, DEDUCED. -/
def State.dmaCanEnd (s : State) (n : Nat) : Bool := decide ((s.dma n).len ≤ s.dmaCap n (s.dma n).len)

/-- DMA_COMPLETE: the channel runs to its end, where nothing on the way stops it; the last byte is written and the completion pulse is
sent to the unit that EVENT names (R399). Assumption log 1, DESIGN CHOICE. -/
def execDmaComplete (ch : Nat) (s : State) : Res :=
  .next (if !s.dmaRuns ch ∨ !s.dmaCanEnd ch then s else (s.dmaAdvance ch (s.dma ch).len).dmaFinish ch)

/-- The scratchpad word that the channel's next beat reads, whose code found a double-bit error, raises SPAD_UE (R386). -/
def State.dmaUe (s : State) (n : Nat) : State :=
  let c := s.dma n
  let a := plainOf c.src + (if c.descends then c.len - c.done - min c.dw c.len else c.done)
  match spadOf a with
  | some p => if c.trig = 0 then s.raise (spadUe p) else s
  | none => s

/-- DMA_BEAT_ERROR: the beat after `written` bytes receives an error response, where `ue` for a double-bit error of a scratchpad: it is
retried while the limit allows, and then the channel halts and DMA_HALT is raised (R386, R398). Assumption log 36, DEDUCED. -/
def execDmaBeatError (ch : Nat) (written : Nat) (s : State) (ue : Bool := false) : Res :=
  .next (
    if !s.dmaRuns ch then s
    else
      let old := s.dma ch
      let s := s.dmaAdvance ch (min written (old.len - old.dw))
      let c := s.dma ch
      if c.st ≠ .run then s
      else
        let s := if ue then s.dmaUe ch else s
        let used := if c.done = c.usedAt then c.used else 0
        if used < c.limit then s.setDma ch { c with used := used + 1, usedAt := c.done } else s.dmaHalt ch used)

/-- DMA_ABORT: before the completion pulse the channel stops at its next beat boundary, `written` bytes in; otherwise the abort
changes nothing (R400, R402). Assumption log 36, DEDUCED. -/
def execDmaAbort (ch : Nat) (written : Nat) (s : State) : Res :=
  .next (
    let c := s.dma ch
    if !s.awake then s
    else if c.st.active then
      let s := if s.dmaRuns ch && decide (written < c.len) then s.dmaAdvance ch written else s
      let v := s.dma ch
      if v.st.active then s.setDma ch { v with st := .aborted, abortRes := 1, hold := [] }
      else s.setDma ch { v with abortRes := 2 }
    else s.setDma ch { c with abortRes := 2 })

end Sys2Proof.Machine
end

