-- ==== Sys2Proof/Machine/Pinout.lean ====
section
/-!
DEFINITION. The signal pins (R27, R29, R35, R49) and the boundary scan that reaches them (R50, R98).
-/

namespace Sys2Proof.Machine

/-- The signal balls of R27, but for the reference clock inputs and the sense pins; a lane's balls are numbered in the table's order. -/
inductive Ball where
  | pcieTx (n : Nat) | pcieRx (n : Nat) | ethTx (n : Nat) | ethRx (n : Nat)
  | resetN | perstN | compat | smbAddr (n : Nat) | faultN | holdA | holdB | thermtripN | ppsIn | ppsOut | ptpClk
  | xspiClk | xspiCs | xspiDqs | xspiIo (n : Nat) | xspiRst | smbScl | smbSda | smbAlertN | tck | tms | tdi | tdo | trstN
  deriving DecidableEq, Repr

/-- What the part does to a ball: it drives a level, leaves it released, idle or undriven, or moves it with a clock or data. -/
inductive Drive where
  | low | high | released | moving
  deriving DecidableEq, Repr

/-- 1PPS_OUT is high: for 100 ms from each whole second of the device's PTP time, once the time unit runs (R35). -/
def State.ppsOutHigh (s : State) : Bool := s.time.running && decide (s.ptpNsec < 100000000)

/-- PTP_CLK_OUT is high: 10 MHz with 50% duty, its rising edges with the whole second (R35). -/
def State.ptpClkHigh (s : State) : Bool := s.time.running && decide (s.ptpNsec % 100 < 50)

/-- The xSPI interface works: during image reads in LOAD and while an IMAGE_WRITE executes (R49). -/
def State.xspiActive (s : State) : Bool :=
  (s.glb.st == .load && (s.cfg.phase == 1 || s.cfg.phase == 2)) || s.flashOp.isSome

/-- A level. -/
def driveOf (b : Bool) : Drive := if b then .high else .low

/-- An open-drain output: driven low or released. -/
def openDrain (lowNow : Bool) : Drive := if lowNow then .low else .released

/-- What the part does to a ball while the TAP leaves the pins to it (R27, R29, R35, R38, R43, R47, R49). -/
def State.coreDrive (s : State) : Ball → Drive
  | .pcieTx _ => if s.pcie.link then .moving else .released
  | .ethTx n => if (s.portSt (n / 10)).up then .moving else .released
  | .faultN => openDrain s.faultLow
  | .holdA => openDrain (s.holdLow s.ing.holdA)
  | .holdB => openDrain (s.holdLow s.ing.holdB)
  | .thermtripN => openDrain s.pins.thermtrip
  | .ppsOut => driveOf s.ppsOutHigh
  | .ptpClk => driveOf s.ptpClkHigh
  | .xspiClk => if s.xspiActive then .moving else .low
  | .xspiCs => driveOf (!s.xspiActive)
  | .xspiDqs => if s.xspiActive then .moving else .released
  | .xspiIo _ => if s.xspiActive then .moving else .released
  | .xspiRst => driveOf s.pins.xspiRst
  | .smbAlertN => openDrain s.smbAlertLow
  | .pcieRx _ | .ethRx _ | .resetN | .perstN | .compat | .smbAddr _ | .ppsIn | .smbScl | .smbSda | .tck | .tms | .tdi | .tdo
  | .trstN => .released

/-! ### Boundary scan (R50, R98) -/

/-- Balls that the part drives, and among them those of an open-drain output. -/
def Ball.isOut : Ball → Bool
  | .pcieTx _ | .ethTx _ | .faultN | .holdA | .holdB | .thermtripN | .ppsOut | .ptpClk | .xspiClk | .xspiCs | .xspiDqs | .xspiIo _
  | .xspiRst | .smbScl | .smbSda | .smbAlertN => true
  | _ => false
def Ball.isOd : Ball → Bool
  | .faultN | .holdA | .holdB | .thermtripN | .smbScl | .smbSda | .smbAlertN => true
  | _ => false

/-- The cells of the boundary-scan register: every signal ball but the sense pins and the reference clock inputs, in the order of
R27 (R50). Assumption log 80, DESIGN CHOICE. -/
def scanCells : List Ball :=
  (List.range 32).map .pcieTx ++ (List.range 32).map .pcieRx ++ (List.range 20).map .ethTx ++ (List.range 20).map .ethRx
    ++ [.resetN, .perstN, .compat, .smbAddr 0, .smbAddr 1, .faultN, .holdA, .holdB, .thermtripN, .ppsIn, .ppsOut, .ptpClk,
        .xspiClk, .xspiCs, .xspiDqs]
    ++ (List.range 8).map .xspiIo ++ [.xspiRst, .smbScl, .smbSda, .smbAlertN, .tck, .tms, .tdi, .tdo, .trstN]

/-- What a ball carries under the TAP's instruction: HIGHZ releases every output; EXTEST, CLAMP, EXTEST_PULSE and EXTEST_TRAIN drive
the outputs from the update latches, the last two with pulses on the lanes (R50, R98). Assumption log 80, DESIGN CHOICE. -/
def State.pinDrive (s : State) (b : Ball) : Drive :=
  let t := s.sec.tap
  if !b.isOut then .released
  else if t = 0x03 then .released
  else if t = 0x00 ∨ t = 0x04 ∨ t = 0x05 ∨ t = 0x06 then
    let v := (s.sec.scan[scanCells.findIdx (· == b)]?).getD false
    match b with
    | .pcieTx _ | .ethTx _ => if t = 0x05 ∨ t = 0x06 then .moving else driveOf v
    | _ => if b.isOd then openDrain !v else driveOf v
  else s.coreDrive b

/-- The level that a cell captures: of a driven ball, or of an input whose level the state holds; else a free value (R50).
Assumption log 80, DESIGN CHOICE. -/
def State.pinLevel (s : State) (i : Nat) (b : Ball) : Bool :=
  match b with
  | .resetN => s.pins.resetN
  | .perstN => s.pins.perstN
  | .compat => s.pins.compat
  | .smbAddr n => bitOf s.pins.smbAddr n
  | b => match s.pinDrive b with
    | .low => false
    | .high => true
    | _ => Config.pinLevel s.free i

/-- One scan of the boundary register: the levels are captured and shifted out, and the bits shifted in reach the update latches
(R50). An empty `load` is an instruction selected with no scan. Assumption log 80, DESIGN CHOICE. -/
def State.scanDr (s : State) (load : List Bool) : State :=
  if load = [] then s
  else
    let out := scanCells.mapIdx s.pinLevel
    { s with
      free := s.free + 1
      outs := { s.outs with scan := out }
      sec := { s.sec with scan := (List.range scanCells.length).map fun i => (load[i]?).getD false } }

end Sys2Proof.Machine
end

