-- ==== Sys2Proof/Machine/Debug.lean ====
section
/-!
DEFINITION. The fuse burns and the JTAG test access port (R28, R50, R86, R87, R98 to R100, R104, R107, R108).
-/

namespace Sys2Proof.Machine

/-! ### Burning fuses (R86, R87, R100, R108) -/

/-- SEC_FUSE_STAT.RESULT (R107). -/
def burnDone : Nat := 1
def burnRefused : Nat := 2
def burnMismatch : Nat := 3
def burnError : Nat := 4

/-- CONFIRM of SEC_FUSE_CMD (R108). -/
def burnConfirm : Nat := 0xA55A

/-- A result of SEC_FUSE_CMD. -/
def State.burnResult (s : State) (r : Nat) : State := { s with sec := { s.sec with result := r } }

/-- FUSE_BURN_OWNER: SEC_FUSE_CMD with OP 1 (R86, R87). A write while a burn runs is ignored (R108). -/
def execFuseBurnOwner (confirm : Nat) (s : State) : Res :=
  .next (
    if s.glb.st = .reset ∨ s.sec.burn.isSome then s
    else if s.sec.sensed.ownerSet ∨ s.glb.st ≠ .loadfail ∨ confirm ≠ burnConfirm then s.burnResult burnRefused
    else if (s.sec.sensed.owner ||| s.sec.fuses.owner) &&& ~~~s.sec.digest ≠ 0 then s.burnResult burnMismatch
    else { s with sec := { s.sec with burn := some 1 } })

/-- FUSE_BURN_DEBUG_CLOSE: SEC_FUSE_CMD with OP 2, in any state from LOAD onward (R100). -/
def execFuseBurnDebugClose (confirm : Nat) (s : State) : Res :=
  .next (
    if s.glb.st = .reset ∨ s.sec.burn.isSome then s
    else if confirm ≠ burnConfirm then s.burnResult burnRefused
    else { s with sec := { s.sec with burn := some 2 } })

/-- A debug instruction of R98. -/
def tapDebug (code : Nat) : Bool := code == 0x10 || code == 0x11

/-- Debug is closed: an active debug instruction falls to BYPASS (R98, R100). Assumption log 26, DEDUCED. -/
def State.closeDebug (s : State) : State :=
  { s with sec := { s.sec with
      sensed := { s.sec.sensed with debugClosed := true }
      dmReset := true
      tap := if tapDebug s.sec.tap then 0xFF else s.sec.tap } }

/-- The owner burn ended: `readback` is OWNER_HASH as it then reads. OWNER_SET is burned only where it equals the digest; a bit that
the digest needs and that did not take is an error, and a bit more, left by a burn that was cut short, a mismatch (R86, R87).
The digest is the one staged at the end of the burn (assumption log 97, DESIGN CHOICE). Assumption log 25, DEDUCED. -/
def State.ownerBurned (s : State) (readback : BitVec 512) : State :=
  let d := s.sec.digest
  let owner := s.sec.fuses.owner ||| (readback &&& d)
  let ok := decide (owner = d)
  let took := decide (owner &&& d = d)
  let s := { s with sec := { s.sec with
    burn := none
    fuses := { s.sec.fuses with owner := owner, ownerOnes := if ok then 3 else s.sec.fuses.ownerOnes }
    sensed := { s.sec.sensed with owner := owner, ownerSet := s.sec.sensed.ownerSet || ok } } }
  if ok then s.burnResult burnDone
  else if took then s.burnResult burnMismatch
  else (s.burnResult burnError).raise srcFuse

/-- The debug burn ended with `ones` of the three fuses reading 1 (R87, R100). -/
def State.debugBurned (s : State) (ones : Nat) : State :=
  let n := max s.sec.fuses.debugOnes (min 3 ones)
  let s := { s with sec := { s.sec with burn := none, fuses := { s.sec.fuses with debugOnes := n } } }
  if 2 ≤ n then (s.burnResult burnDone).closeDebug else s.burnResult burnError

/-- FUSE_BURN_DONE (R87). Assumption log 25, DEDUCED. -/
def execFuseBurnDone (readback : BitVec 512) (debugOnes : Nat) (s : State) : Res :=
  .next (match s.sec.burn with
    | none => s
    | some op => if op = 1 then s.ownerBurned readback else s.debugBurned debugOnes)

/-! ### The test access port (R98, R99, R104) -/

/-- The TAP's instruction becomes one that moves no state of the device. -/
def State.tapSelect (s : State) (code : Nat) : State := { s with sec := { s.sec with tap := code } }

/-- A debug instruction is selected: after closure it is BYPASS; outside RESET, LOAD and LOADFAIL the keys are discarded and
DEBUG_OPEN is raised before it becomes active (R98, R99). Assumption log 26, DEDUCED. -/
def State.tapOpen (s : State) (code : Nat) : State :=
  if s.sec.sensed.debugClosed then s.tapSelect 0xFF
  else
    let s := match s.glb.st with
      | .reset | .load | .loadfail => s
      | _ => { s with sec := { s.sec with keys := [], entries := [], keyGen := s.free }, free := s.free + 1 }.raise srcDebug
    s.tapSelect code

/-- TAP_RESET: TRST_N low or Test-Logic-Reset; master 0xC5 is frozen with it (R28, R104). Assumption log 32, PRESUMED. -/
def execTapReset (s : State) : Res := .next (s.tapSelect 0x02)

/-- EXTEST: the outputs are driven from the boundary-scan register, and one scan of it follows (R50, R98). -/
def execExtest (s : State) (load : List Bool := []) : Res := .next ((s.tapSelect 0x00).scanDr load)

/-- SAMPLE/PRELOAD: the levels of the pins are captured and the update latches loaded while the part works on (R50, R98). -/
def execSamplePreload (s : State) (load : List Bool := []) : Res := .next ((s.tapSelect 0x01).scanDr load)

/-- IDCODE: the identity code is shifted out (R98). -/
def execIdcode (s : State) : Res := .next { s.tapSelect 0x02 with outs := { s.outs with idcode := 0x10192B5D } }

/-- HIGHZ: every output is released (R98). -/
def execHighz (s : State) : Res := .next (s.tapSelect 0x03)

/-- CLAMP: the outputs hold the update latches' levels (R98). -/
def execClamp (s : State) : Res := .next (s.tapSelect 0x04)

/-- EXTEST_PULSE: EXTEST with a pulse on the lanes (R50, R98). -/
def execExtestPulse (s : State) (load : List Bool := []) : Res := .next ((s.tapSelect 0x05).scanDr load)

/-- EXTEST_TRAIN: EXTEST with a train of pulses on the lanes (R50, R98). -/
def execExtestTrain (s : State) (load : List Bool := []) : Res := .next ((s.tapSelect 0x06).scanDr load)

/-- BYPASS, and every code outside the table (R98). -/
def execBypass (s : State) : Res := .next (s.tapSelect 0xFF)

/-- DBG_STEWARD (R98, R99). -/
def execDbgSteward (s : State) : Res := .next (s.tapOpen 0x10)

/-- DBG_FABRIC: master 0xC5 becomes active; what its port held while it was frozen is discarded (R99, R104, R106).
Assumption log 26, DEDUCED. -/
def execDbgFabric (s : State) : Res :=
  .next (
    let s := s.tapOpen 0x11
    if s.jtagActive then
      let s := if s.fab.held.any fun r => r.master == 0xC5 then s.fabDiscard 0xC5 else s
      { s with fab := { s.fab with frozen := s.fab.frozen.set false 0xC5 false } }
    else s)

end Sys2Proof.Machine
end

