-- ==== Sys2Proof/Machine/Sessions.lean ====
section
/-!
DEFINITION. Sessions of encode channels and of decode contexts: opening and closing, in the native and in the Fenic layout (R77,
R79, R125, R126, R181, R207, R244, R253, R276, R314, R417, R418).
-/

namespace Sys2Proof.Machine

/-! ### Encode sessions (R418) -/

/-- Output of a part that has passed and whose other part's run of the same sheaf goes on (R204). -/
def State.pairAwaited (s : State) (ch p : Nat) : List Run :=
  (s.part ch p).passed.filter fun e => laneNums.any fun l => (s.lane l).run.any fun r => r.kind != 2 && r.ch == ch && r.sameSheaf e

/-- The upper 12 bytes of an address are not 0 where it is an IPv4 one (R415, R418). -/
def badAddr (ipv6 : Bool) (addr : Nat) : Bool := !ipv6 && decide (2 ^ 32 ≤ addr)

/-- The session's size breaks R181. -/
def badSize (c : Option Class) (w h : Nat) : Bool :=
  decide (w % 8 ≠ 0) || decide (h % 8 ≠ 0) || decide (w < 320) || decide (h < 184)
    || (match c with | some c => decide (c.base.maxW < w) || decide (c.base.maxH < h) | none => false)

/-- The class is one that R77 refuses in the Fenic layout: not HEVC with L1T1. -/
def fenicRefuses (c : Option Class) : Bool :=
  match c with
  | some c => !isHevc c || layerPeriod c != 1
  | none => false

/-- The class has the VFT path, so its VFT source counts. -/
def usesVft (c : Option Class) : Bool :=
  match c with
  | some c => c.base.pathVft
  | none => true

/-- SESSION_OPEN's checks that need no table, in the order of R418; none where they pass. Assumption log 47, DEDUCED. -/
def State.openRefused (s : State) (fenic : Bool) (a : OpenArgs) : Option Status :=
  let c := s.cls a.channel
  if !a.rsvOk || badSize c a.width a.height || (usesVft c && badAddr a.ipv6 a.srcAddr) || (fenic && fenicRefuses c) then
    some .badArg
  else if c.isNone || (fenic && decide (63 < a.channel)) then some .noChannel
  else if (s.sessOf a.channel).isOpen then some .busy
  else none

/-- The channel's new session: its RTP sequence number and TS_OFFSET are drawn (R207), its RC instance takes its reset values, and
its first frame is known where the rota has started (R125, R166, R223, R244). Assumption log 49, DESIGN CHOICE. -/
def State.startSession (s : State) (fenic : Bool) (a : OpenArgs) (host : Nat) : State :=
  let ch := a.channel
  let (seq, s) := s.draw 16
  let (ts, s) := s.draw 32
  let s := s.setSess ch
    { isOpen := true, id := (s.sessOf ch).id + 1, w := a.width, h := a.height, pt := a.pt, ssrc := a.ssrc, seed := a.seed
      fenic := fenic, srcAddr := a.srcAddr, srcPort := a.srcPort, ipv6 := a.ipv6, tsOff := ts, seq := seq }
  let s := s.setRc ch { host := host }
  let s := (s.setPart ch 0 { passed := s.pairAwaited ch 0 }).setPart ch 1 { passed := s.pairAwaited ch 1 }
  if s.rota.started then s.beginSession ch false else s

/-- SESSION_OPEN with KIND 0 (R418). An insertion waits while the packet engine's island is stopped (R476). Assumption log 47, DEDUCED. -/
def State.openSession (s : State) (fenic : Bool) (h : CmdHdr) (a : OpenArgs) (host : Class → Nat) : State :=
  match s.openRefused fenic a, s.cls a.channel with
  | some st, _ => s.complete h st
  | none, none => s.complete h .noChannel
  | none, some c =>
    if !c.base.pathVft then (s.startSession fenic a (host c)).complete h .ok
    else if s.stopped 6 then s
    else
      let key := vftKey a.srcAddr a.srcPort a.ipv6
      match s.emTable roleVft with
      | none => s.complete h .tableFull
      | some t =>
        if s.emHas t key then s.complete h .badArg
        else match s.emInsert t key (.vft a.channel) with
          | none => s.complete h .tableFull
          | some s => (s.startSession fenic a (host c)).complete h .ok

/-- SESSION_OPEN with KIND 0 in the native layout: HOST is the class's TARGET_KBPS (R223). -/
def execSessionOpen (h : CmdHdr) (a : OpenArgs) (s : State) : Res :=
  .next (s.serve (.sessionOpen h a) false false false h fun s => s.openSession false h a fun c => c.cod.target)

/-- OPEN_STREAM: VFT source, IPV6 bit, SSRC and PT come from the COMPAT channel defaults, the target from the command (R79, R314,
R417). Assumption log 47, DEDUCED. -/
def execOpenStream (h : CmdHdr) (ch width height target : Nat) (s : State) : Res :=
  .next (s.serve (.openStream h ch width height target) true false false h fun s =>
    let d := (s.img.net.cCh[ch]?).getD {}
    s.openSession true h
      { channel := ch, width := width, height := height, pt := d.pt, ipv6 := d.ipv6, srcAddr := d.srcAddr, srcPort := d.srcPort
        ssrc := d.ssrc, seed := 0, rsvOk := true } fun _ => target)

/-- The binding of a channel to a context ends: its BIND marks clear, the pictures that wait for it alone are released (R276). -/
def State.unbind (s : State) (x : Nat) : State :=
  let v := s.dcxOf x
  let pool := v.pool.remap {} fun b m =>
    { m with bind := 0, out := m.out && !(v.waiting.any fun w => w.1 == b) }
  s.setDcx x { v with bindCh := none, waiting := [], wants := false, pool := pool }

/-- Unlinks the whole chain of a channel (R300). Assumption log 79, DEDUCED. -/
def State.unlinkChain (s : State) (ch : Nat) : State := (s.chain ch).foldl (fun s k => s.unlinkBody k) s

/-- SESSION_CLOSE's commit: the VFT_SOURCE entry goes, the chain is unlinked, the pending lists are emptied, a binding ends, the
feedback rate lapses; a run in progress finishes under R204 (R126, R224, R276, R300, R418). Assumption log 79, DEDUCED. -/
def State.closeSession (s : State) (ch : Nat) : State :=
  let q := s.sessOf ch
  let s := match s.cls ch, s.emTable roleVft with
    | some c, some t => if c.base.pathVft then s.emDelete t (vftKey q.srcAddr q.srcPort q.ipv6) else s
    | _, _ => s
  let s := s.unlinkChain ch
  let s := (s.setPart ch 0 { passed := s.pairAwaited ch 0 }).setPart ch 1 { passed := s.pairAwaited ch 1 }
  let s := match q.bind with
    | some x => s.unbind x
    | none => s
  let s := s.setRc ch { (s.rcOf ch).unpin with fb := none }
  let s := s.setIng ch { s.ingOf ch with isOpen := false }
  s.setSess ch { s.sessOf ch with isOpen := false, bind := none }

/-- SESSION_CLOSE with KIND 0 (R418). Deletion waits while the packet engine's island is stopped (R476). -/
def State.closeCommand (s : State) (h : CmdHdr) (ch : Nat) (rsvOk fenic : Bool) : State :=
  if !rsvOk then s.complete h .badArg
  else if (s.cls ch).isNone || (fenic && decide (63 < ch)) then s.complete h .noChannel
  else if !(s.sessOf ch).isOpen then s.complete h .alreadyDone
  else if s.stopped 6 then s
  else (s.closeSession ch).complete h .ok

/-- SESSION_CLOSE with KIND 0 in the native layout. -/
def execSessionClose (h : CmdHdr) (ch : Nat) (rsvOk : Bool) (s : State) : Res :=
  .next (s.serve (.sessionClose h ch rsvOk) false false false h fun s => s.closeCommand h ch rsvOk false)

/-- CLOSE_STREAM (R79). -/
def execCloseStream (h : CmdHdr) (ch : Nat) (s : State) : Res :=
  .next (s.serve (.closeStream h ch) true false false h fun s => s.closeCommand h ch true true)

/-! ### Decode contexts (R253, R276) -/

/-- The context is declared (R252). -/
def State.dcxDeclared (s : State) (x : Nat) : Bool :=
  match s.img.dec[x]? with
  | some d => decide (d.maxW ≠ 0)
  | none => false

/-- The context lies in a decode rota entry (R138). -/
def State.dcxInRota (s : State) (x : Nat) : Bool :=
  s.img.decRota.any fun (_, es) => es.any fun e => e.kind == 0 && decide (e.len ≠ 0) && e.dcx == x

/-- A buffer of the context still has a HOST mark (R276). -/
def Dcx.hostMarked (v : Dcx) : Bool := v.pool.any fun e => e.2.host

/-- CODEC is not in the context's CODECS (R252, R253). -/
def State.badCodec (s : State) (x codec : Nat) : Bool :=
  match s.img.dec[x]? with
  | some d => codec == 0 || decide (3 < codec) || !bitOf d.codecs (codec - 1)
  | none => true

/-- A channel cannot be bound: no open session, PATH_BIND 0, or bound already (R253). -/
def State.bindRefused (s : State) (ch : Nat) : Bool :=
  !(s.sessOf ch).isOpen || (s.sessOf ch).bind.isSome
    || (match s.cls ch with | some c => !c.base.pathBind | none => true)

/-- RTP input of an opened context (R254). -/
def rtpInput (a : CtxArgs) : RtpIn :=
  { srcAddr := a.srcAddr, srcPort := a.srcPort, dstPort := a.dstPort, ssrc := a.ssrc, pt := a.pt, reorder := a.reorder
    ipv6 := a.ipv6 }

/-- Opening's checks before the classification entry, in the order of R253; none where they pass. -/
def State.ctxRefused (s : State) (a : CtxArgs) : Option Status :=
  if !s.dcxDeclared a.dcx || !s.dcxInRota a.dcx then some .noChannel
  else if (s.dcxOf a.dcx).isOpen || (s.dcxOf a.dcx).hostMarked then some .busy
  else if !a.rsvOk || s.badCodec a.dcx a.codec || (a.bindEn && decide (191 < a.bindCh))
      || (a.rtp && (decide (20000 < a.reorder) || badAddr a.ipv6 a.srcAddr)) then some .badArg
  else if (!a.outHost && !a.bindEn) || (a.bindEn && s.bindRefused a.bindCh) then some .denied
  else none

/-- The context opens with its input, output and binding (R12, R253). -/
def State.openCtx (s : State) (a : CtxArgs) : State :=
  let s := s.setDcx a.dcx
    { isOpen := true, bindCh := if a.bindEn then some a.bindCh else none, outHost := a.outHost
      rtp := if a.rtp then some (rtpInput a) else none, codec := a.codec }
  if a.bindEn then s.setSess a.bindCh { s.sessOf a.bindCh with bind := some a.dcx } else s

/-- SESSION_OPEN with KIND 1 (R253): RTP input needs its classification entry, whose key must be new (R295). -/
def execSessionOpenContext (h : CmdHdr) (a : CtxArgs) (s : State) : Res :=
  .next (s.serve (.sessionOpenContext h a) false false false h fun s =>
    match s.ctxRefused a with
    | some st => s.complete h st
    | none =>
      if !a.rtp then (s.openCtx a).complete h .ok
      else if s.stopped 6 then s
      else match s.emTable roleDec with
        | none => s.complete h .tableFull
        | some t =>
          if s.emHas t (decKey (rtpInput a)) then s.complete h .badArg
          else match s.emInsert t (decKey (rtpInput a)) (.dec a.dcx) with
            | none => s.complete h .tableFull
            | some s => (s.openCtx a).complete h .ok)

/-- The context closes: a run on it ends, its RTP entry and its queued input go, every mark but HOST clears, and the channel bound to
it is bound no more (R276). Assumption log 79, DEDUCED. -/
def State.closeCtx (s : State) (x : Nat) : State :=
  let s := dlaneNums.foldl (fun s l => if (s.dlane l).run = some x then s.endDecRun l else s) s
  let v := s.dcxOf x
  let s := match v.rtp, s.emTable roleDec with
    | some r, some t => s.emDelete t (decKey r)
    | _, _ => s
  let s := match v.bindCh with
    | some ch => s.setSess ch { s.sessOf ch with bind := none }
    | none => s
  let pool := v.pool.remap {} fun _ m => if m.host then { host := true, pic1 := m.pic1 } else {}
  s.setDcx x { pool := pool, info := v.info, inWp := v.inWp, inRp := v.inWp, outSeq := v.outSeq, outHost := v.outHost
               codec := v.codec, feeds := v.feeds }

/-- SESSION_CLOSE with KIND 1 (R276, R418). -/
def execSessionCloseContext (h : CmdHdr) (dcx : Nat) (rsvOk : Bool) (s : State) : Res :=
  .next (s.serve (.sessionCloseContext h dcx rsvOk) false false false h fun s =>
    if !rsvOk then s.complete h .badArg
    else if !s.dcxDeclared dcx then s.complete h .noChannel
    else if !(s.dcxOf dcx).isOpen then s.complete h .alreadyDone
    else if (s.dcxOf dcx).rtp.isSome && s.stopped 6 then s
    else (s.closeCtx dcx).complete h .ok)

end Sys2Proof.Machine
end

