-- ==== Sys2Proof/Machine/Deliveries.lean ====
section
/-!
DEFINITION. Commands on deliveries, targets and rule sets (R79, R223, R239, R295 to R300, R312, R314, R324, R326).
-/

namespace Sys2Proof.Machine

/-! ### Handles (R299) -/

/-- Audience bodies (R293, R298). -/
def bodyCount : Nat := 524288

/-- The body of a pointer is free (R297, R299). -/
def State.bodyIsFree (s : State) (k : Nat) : Bool := (s.body k).st == .empty && (s.body k).waits.isNone

/-- The first free body of the next `n` pointers from `k` on. Assumption log 48, DESIGN CHOICE. -/
def State.freeFrom (s : State) : Nat → Nat → Option Nat
  | 0, _ => none
  | n + 1, k => if s.bodyIsFree k then some k else s.freeFrom n ((k + 1) % bodyCount)

/-- A free body: the order of allocation is left open (R299). Assumption log 48, DESIGN CHOICE. -/
def State.allocBody (s : State) : Option Nat × State :=
  let (k, s) := s.drawBelow bodyCount
  (s.freeFrom bodyCount k, s)

/-! ### DELIVERY_ADD (R299) -/

/-- Shaper parameters lie in their ranges (R324). -/
def rateOk (kbps : Nat) : Bool := decide (64 ≤ kbps) && decide (kbps ≤ 400000000)

/-- Every field lies in its range (R298, R324, R415). -/
def addOk (a : AddArgs) : Bool :=
  a.rsvOk && decide (a.prof < 16) && decide (a.outer < 4096) && decide (a.keySlot < 524288) && !badAddr a.ipv6 a.dstAddr
    && rateOk a.rate && decide (1 ≤ a.burst) && decide (a.burst ≤ 16384)

/-- The session has a player (R299). -/
def State.hasPlayer (s : State) (ch : Nat) : Bool := (s.chain ch).any fun k => (s.body k).d.player

/-- The channel serves its player only (R239). -/
def State.playerOnly (s : State) (ch : Nat) : Bool :=
  match s.cls ch with
  | some c => c.cod.ackRef
  | none => false

/-- Receiver fields of a delivery. -/
def destOf (a : AddArgs) : Dest :=
  { player := a.player, ipv6 := a.ipv6, maxTid := a.maxTid, ch := a.channel, prof := a.prof, outer := a.outer, dstAddr := a.dstAddr
    dstPort := a.dstPort, srcPort := a.srcPort, ssrc := a.ssrc, dstMac := a.dstMac, dscp := a.dscp, ecn := a.ecn, hop := a.hop
    vlan0 := a.vlan0, vlan1 := a.vlan1, markId := a.markId, keySlot := a.keySlot }

/-- The delivery is linked into its channel's chain, held: the player at the head, the others in order (R299, R300).
Assumption log 49, DESIGN CHOICE. -/
def State.linkBody (s : State) (k : Nat) (a : AddArgs) : State :=
  let (q, s) := s.draw 16
  let s := s.setBody k
    { st := .held, d := destOf a, dseq := q, sh := { rate := a.rate, burst := a.burst, dropAt := a.dropAt } }
  let s := s.setSess a.channel { s.sessOf a.channel with added := true }
  s.setChain a.channel (if a.player then k :: s.chain a.channel else s.chain a.channel ++ [k])

/-- DELIVERY_ADD's insertion, for arguments that passed its other checks (R295, R296, R299). -/
def State.addBody (s : State) (h : CmdHdr) (a : AddArgs) : State :=
  match s.emTable roleAud with
  | none => s.complete h .tableFull
  | some t =>
    let key := audKey (destOf a)
    if s.emHas t key then s.complete h .badArg
    else match s.allocBody with
      | (none, s) => s.complete h .tableFull
      | (some k, s) =>
        match s.emInsert t key (.aud k) with
        | none => s.complete h .tableFull
        | some s => (s.linkBody k a).complete h .ok k

/-- DELIVERY_ADD, its statuses in the order of R299. It waits while the packet engine's island is stopped (R476). -/
def State.addDelivery (s : State) (h : CmdHdr) (a : AddArgs) : State :=
  if !(s.sessOf a.channel).isOpen then s.complete h .noChannel
  else if (a.player && s.hasPlayer a.channel) || (!a.player && s.playerOnly a.channel) then s.complete h .denied
  else if !addOk a then s.complete h .badArg
  else if s.stopped 6 then s
  else s.addBody h a

/-- DELIVERY_ADD in the native layout. -/
def execDeliveryAdd (h : CmdHdr) (a : AddArgs) (s : State) : Res :=
  .next (s.serve (.deliveryAdd h a) false false false h fun s => s.addDelivery h a)

/-- ADD_DEST: IPv4, and what it does not carry comes from the COMPAT delivery defaults; the first after OPEN_STREAM is the player
(R79, R299, R314). -/
def execAddDest (h : CmdHdr) (a : DestArgs) (s : State) : Res :=
  .next (s.serve (.addDest h a) true false false h fun s =>
    let c := s.img.net.cDel
    s.addDelivery h
      { channel := a.channel, player := !(s.sessOf a.channel).added, ipv6 := false, maxTid := c.maxTid, prof := c.prof, outer := c.outer
        dstAddr := a.dstAddr, dstPort := a.dstPort, srcPort := c.srcPort, ssrc := a.ssrc, dstMac := c.dstMac, dscp := c.dscp
        ecn := c.ecn, hop := c.hop, vlan0 := if a.vlan = 0 then 0 else c.tpid * 65536 + a.vlan, vlan1 := 0, markId := 0
        keySlot := a.keySlot, rate := a.rate, burst := c.burst, dropAt := c.dropAt, rsvOk := true })

/-! ### DELIVERY_DEL (R300) -/

/-- A handle that names no held or active delivery is refused; otherwise the delivery is unlinked (R300). -/
def State.delDelivery (s : State) (h : CmdHdr) (handle : Nat) : State :=
  if !s.named handle then s.complete h .badArg
  else if s.stopped 6 then s
  else (s.unlinkBody handle).complete h .ok

/-- DELIVERY_DEL in the native layout. -/
def execDeliveryDel (h : CmdHdr) (handle : Nat) (s : State) : Res :=
  .next (s.serve (.deliveryDel h handle) false false false h fun s => s.delDelivery h handle)

/-- DEL_DEST (R79). -/
def execDelDest (h : CmdHdr) (handle : Nat) (s : State) : Res :=
  .next (s.serve (.delDest h handle) true false false h fun s => s.delDelivery h handle)

/-! ### Targets (R223, R326) -/

/-- TARGET_SET in its channel form, its statuses in the order of R223. -/
def State.setTarget (s : State) (h : CmdHdr) (ch value : Nat) : State :=
  match s.cls ch with
  | none => s.complete h .noChannel
  | some c =>
    if !(s.sessOf ch).isOpen then s.complete h .noChannel
    else if value < c.cod.minK ∨ c.cod.peak < value then s.complete h .badArg
    else (s.setRc ch { s.rcOf ch with host := value }).complete h .ok

/-- TARGET_SET in its channel form. -/
def execTargetSet (h : CmdHdr) (ch value : Nat) (s : State) : Res :=
  .next (s.serve (.targetSet h ch value) false false false h fun s => s.setTarget h ch value)

/-- SET_BITRATE (R79). -/
def execSetBitrate (h : CmdHdr) (ch value : Nat) (s : State) : Res :=
  .next (s.serve (.setBitrate h ch value) true false false h fun s => if 63 < ch then s.complete h .noChannel else s.setTarget h ch value)

/-- TARGET_SET in its delivery form: RATE is written, CREDIT and LAST stay (R326). -/
def execTargetSetDelivery (h : CmdHdr) (handle value : Nat) (s : State) : Res :=
  .next (s.serve (.targetSetDelivery h handle value) false false false h fun s =>
    if !s.named handle || !rateOk value then s.complete h .badArg
    else if s.stopped 6 then s
    else
      let b := s.body handle
      (s.setBody handle { b with sh := { b.sh with rate := value } }).complete h .ok)

/-! ### RULESET_SWAP (R312) -/

/-- RULESET_SWAP: the named set is loaded into the standby bank; the flip and the retirement follow (R312). -/
def execRulesetSwap (h : CmdHdr) (idx : Nat) (s : State) : Res :=
  .next (s.serve (.rulesetSwap h idx) false false false h fun s =>
    if s.img.rules.length ≤ idx then s.complete h .badArg
    else if idx = s.rep.active then s.complete h .alreadyDone
    else if s.rep.swap.isSome then s.complete h .busy
    else
      { s with rep := { s.rep with swap := some { tag := h.tag, irq := h.irq, idx := idx, flipped := none, answered := false } } }.addJob
        h 0x07)

end Sys2Proof.Machine
end

