-- ==== Sys2Proof/Machine/RegRead.lean ====
section
/-!
DEFINITION. Reads of BAR0: every register of the index, with the fields of its table (R22, R23, R32, R72 to R75, R107 to R113,
R147 to R151, R176 to R179, R212 to R215, R244 to R248, R278 to R282, R315 to R319, R345 to R349, R374 to R379, R403 to
R407, R431, R432, R434 to R437, R461 to R465, R478 to R493).
-/

namespace Sys2Proof.Machine

/-! ### Places (R481, R490) -/

/-- Entry of an array of `n` words with a stride that an offset names. -/
def entryOf (off base stride n : Nat) : Option Nat :=
  if base ≤ off ∧ (off - base) % stride = 0 ∧ (off - base) / stride < n then some ((off - base) / stride) else none

/-- Island of the register at an offset; none for a register whose clock never stops (R477, R481). -/
def regIsland (off : Nat) : Option Nat :=
  if off = 0x000300C0 then some 7
  else if off / 0x10000 = 0x0006 then some 8
  else if 0x00200000 ≤ off ∧ off < 0x00300000 then some 6
  else if 0x01000000 ≤ off ∧ off < 0x01800000 then some (islEnc ((off - 0x01000000) / 0x40000))
  else if 0x01C00000 ≤ off ∧ off < 0x01E40000 then some (islDec ((off - 0x01C00000) / 0x40000))
  else if 0x02000000 ≤ off ∧ off < 0x02400000 then some 6
  else if 0x02400000 ≤ off ∧ off < 0x02800000 then
    let o := off - 0x02400000
    if o < 0x10 then some (4 + o / 4 % 2)
    else if 0x18 ≤ o ∧ o < 0x20 then some (4 + (o - 0x18) / 4)
    else if 0x40 ≤ o ∧ o < 0x80 then some (4 + (o - 0x40) / 32)
    else if 0x100 ≤ o ∧ o < 0x110 then some (4 + (o - 0x100) / 8)
    else if 0x200 ≤ o ∧ o < 0x300 then some (4 + (o - 0x200) / 128)
    else if 0x10000 ≤ o ∧ o < 0x12000 then some (4 + (o - 0x10000) / 0x1000)
    else some 7
  else if 0x02800000 ≤ off ∧ off < 0x02C00000 then some (2 + (off - 0x02800000) / 0x200000)
  else if 0x02C10000 ≤ off ∧ off < 0x02C14000 then some (fifoIsland ((off - 0x02C10000) / 0x10))
  else none

/-- The register's block is reachable: its island's clock runs (R477). -/
def State.regRuns (s : State) (off : Nat) : Bool :=
  match regIsland off with
  | some i => !s.stopped i
  | none => true

/-! ### Statistics counters (R460, R486) -/

/-- The statistics counter whose lower word lies at an offset, with the read latch of its block instance. -/
def State.counterAt (s : State) (off : Nat) : Option (Nat × Cnt) :=
  if off < 0x00200000 then
    if off = 0x00100040 then some (1, s.rota.hpCnt)
    else match entryOf off 0x00100050 8 3, entryOf off 0x00101000 8 112, entryOf off 0x00101400 8 32 with
      | some i, _, _ => some (1, s.ptp.drop.get 0 i)
      | _, some i, _ =>
        let v := s.lane (i / 4)
        some (1, match i % 4 with | 0 => v.nRun | 1 => v.nFallow | 2 => v.nCatch | _ => v.nOver)
      | _, _, some i =>
        let v := s.dlane (i / 4)
        some (1, match i % 4 with | 0 => v.nRun | 1 => v.nFallow | 2 => 0 | _ => v.nOver)
      | _, _, _ => none
  else if off < 0x01000000 then
    match entryOf off 0x00200040 8 2, entryOf off 0x00200100 8 16, entryOf off 0x00202000 8 192, entryOf off 0x00202800 8 192 with
    | some i, _, _, _ => some (2, s.ing.pfc.get 0 i)
    | _, some i, _, _ => some (2, s.ing.drop.get 0 i)
    | _, _, some i, _ => some (2, s.ing.fill.get 0 i)
    | _, _, _, some i => some (2, s.ing.hfill.get 0 i)
    | _, _, _, _ => none
  else if off < 0x01800000 then
    let k := (off - 0x01000000) / 0x40000
    (entryOf (off % 0x40000) 0x100 8 10).map fun i => (16 + k, (s.encOf k).cnt.get 0 i)
  else if off < 0x01830000 then
    let ch := (off - 0x01800000) / 0x400
    (entryOf (off % 0x200) 0x100 8 10).map fun i => (100 + ch, s.rcCnt.get 0 (16 * (2 * ch + off % 0x400 / 0x200) + i))
  else if 0x01C00000 ≤ off ∧ off < 0x01E40000 then
    let k := (off - 0x01C00000) / 0x40000
    (entryOf (off % 0x40000) 0x100 8 4).map fun i => (300 + k, (s.decOf k).cnt.get 0 i)
  else if 0x01E40000 ≤ off ∧ off < 0x01E44000 then
    let x := (off - 0x01E40000) / 0x100
    (entryOf (off % 0x100) 0x40 8 10).map fun i => (320 + x, s.dcxCnt.get 0 (16 * x + i))
  else if 0x02000000 ≤ off ∧ off < 0x02400000 then
    match entryOf off 0x02002000 8 16, entryOf off 0x02002100 8 8, entryOf off 0x02002200 8 10 with
    | some i, _, _ => some (3, s.pkt.excCnt.get 0 i)
    | _, some i, _ => some (3, s.pkt.clsCnt.get 0 i)
    | _, _, some i => some (3, s.pkt.cnt.get 0 i)
    | _, _, _ => none
  else if 0x02400000 ≤ off ∧ off < 0x02800000 then
    match entryOf off 0x02400100 8 2, entryOf off 0x02400180 8 4, entryOf off 0x02400200 8 32 with
    | some i, _, _ => some (4, s.egr.oversize.get 0 i)
    | _, some i, _ => some (4, s.egr.devCnt.get 0 i)
    | _, _, some i => some (4, s.egr.cnt.get 0 i)
    | _, _, _ => none
  else if 0x02800000 ≤ off ∧ off < 0x02C00000 then
    let k := (off - 0x02800000) / 0x200000
    (entryOf (off % 0x200000) 0x40 8 4).map fun i => (5 + k, (s.stack k).cnt.get 0 i)
  else none

/-! ### Words of blocks -/

/-- Bits of a list of flags, the first the least significant. -/
def flagBits : List Bool → Nat
  | [] => 0
  | b :: bs => bit b + 2 * flagBits bs

/-- Word `n` of a byte string in the order of R74: byte 4n in bits [31:24]. -/
def beWord (bs : List Byte) (n : Nat) : Nat :=
  byteAt bs (4 * n) * 2 ^ 24 + byteAt bs (4 * n + 1) * 2 ^ 16 + byteAt bs (4 * n + 2) * 2 ^ 8 + byteAt bs (4 * n + 3)

/-- GLB, PWR and CFG. -/
def State.regGlb (s : State) (off : Nat) : Nat :=
  if off = 0x0 then 0x0192A15A
  else if off = 0x4 then 2 * s.glb.smbAddr + bit s.glb.compat
  else if off = 0x8 then
    let slot := if s.glb.st = .train ∨ s.glb.st = .run ∨ s.glb.st = .safe then s.glb.imgSlot else 0
    s.glb.lastReset * 2 ^ 16 + slot * 2 ^ 8 + s.glb.st.code
  else match entryOf off 0x10000 4 59, entryOf off 0x10100 4 59, entryOf off 0x10200 4 59 with
    | some n, _, _ => (s.islOf n).req
    | _, some n, _ =>
      let i := s.islOf n
      bit i.trans.isSome * 2 ^ 31 + bit (!i.held.isEmpty) * 2 ^ 30 + i.result * 2 ^ 28 + i.effMhz * 2 ^ 8 + i.st.code
    | _, _, some n => (s.islOf n).image * 2 ^ 16 + (s.islOf n).freq
    | _, _, _ =>
      if off = 0x20000 then s.cfg.phase * 2 ^ 12 + bit s.cfg.loaded * 2 ^ 8 + s.cfg.slotB * 16 + s.cfg.slotA
      else if off = 0x20004 then s.cfg.imgVer
      else match entryOf off 0x20040 4 16, entryOf off 0x20080 4 4 with
        | some n, _ => beWord s.cfg.imgHash n
        | _, some n => beWord s.cfg.rotaId n
        | _, _ => 0

/-- SEC_FUSE_STAT.DEBUG_CLOSED and the rest of R107. -/
def State.fuseStat (s : State) : Nat :=
  s.sec.result * 2 ^ 8 + bit s.sec.burn.isSome * 16 + bit s.sec.sensed.eccErr * 8 + bit s.sec.sensed.idkeyOk * 4
    + bit s.sec.sensed.debugClosed * 2 + bit s.sec.sensed.ownerSet

/-- SEC (R107 to R110). -/
def State.regSec (s : State) (off : Nat) : Nat :=
  if off = 0x30000 then s.fuseStat
  else if off = 0x30010 then s.sec.sensed.serial.toNat / 2 ^ 32
  else if off = 0x30014 then s.sec.sensed.serial.toNat % 2 ^ 32
  else if off = 0x300C0 then s.sec.failCnt * 2 ^ 24 + s.validKeys
  else if off = 0x300C8 then s.led.cert.length
  else match entryOf off 0x30040 4 16, entryOf off 0x30080 4 16, entryOf off 0x31000 4 512 with
    | some n, _, _ => s.sec.sensed.owner.toNat / 2 ^ (480 - 32 * n) % 2 ^ 32
    | _, some n, _ => (s.sec.stage.get 0 n).toNat
    | _, _, some n => beWord s.led.cert n
    | _, _, _ => 0

/-- IRQ (R434 to R437). -/
def State.regIrq (s : State) (off : Nat) : Nat :=
  if off = 0x42000 then s.irq.split
  else match entryOf off 0x40000 4 1024, entryOf off 0x41000 4 1024, entryOf off 0x42100 4 68, entryOf off 0x42300 4 68 with
    | some n, _, _, _ =>
      let v := s.irqSrc n
      bit v.en * 2 ^ 31 + v.target * 2 ^ 24 + v.filter * 2 ^ 16 + v.prio
    | _, some n, _, _ =>
      let v := s.irqSrc n
      bit v.pend * 2 ^ 31 + bit v.line * 2 ^ 30 + v.outcome * 2 ^ 28 + bit v.sat * 2 ^ 16 + v.count
    | _, _, some t, _ =>
      let v := s.irqTgt t
      bit v.altEn * 2 ^ 31 + v.altTgt * 2 ^ 24 + v.altDelay * 2 ^ 14 + v.interval
    | _, _, _, some t => bit (s.irqTgt t).idle * 2 ^ 31 + bit (s.irqHeld t) * 2 ^ 30
    | _, _, _, _ => 0

/-- Bits of 32 fault sources from `n` on. -/
def fltBits (n : Nat) (f : Nat → Bool) : Nat := flagBits ((List.range 32).map fun b => f (32 * n + b))

/-- FLT (R461 to R465). Assumption log 66, DEDUCED. -/
def State.regFlt (s : State) (off : Nat) : Nat :=
  match entryOf off 0x50000 4 16, entryOf off 0x50040 4 16, entryOf off 0x50080 4 16, entryOf off 0x500C0 4 16 with
  | some n, _, _, _ => fltBits n fun b => s.flt.sticky.get false b
  | _, some n, _, _ => fltBits n s.fltLive
  | _, _, some n, _ => fltBits n fun b => s.flt.force.get false b
  | _, _, _, some n => fltBits n fun b => s.flt.mark.get false b
  | _, _, _, _ =>
    if off = 0x50104 then
      bit (s.glb.st == .safe) * 2 ^ 31 + bit s.flt.escSat * 2 ^ 30
        + flagBits ((List.range 8).map s.classHeld) * 2 ^ 16 + s.flt.esc
    else if off = 0x50110 then
      s.sparesIn 0 32 + s.sparesIn 32 41 * 2 ^ 8 + s.sparesIn 41 45 * 2 ^ 16 + s.sparesIn 45 113 * 2 ^ 24
    else if off = 0x50114 then
      s.sparesIn 113 177 + s.sparesIn 177 241 * 2 ^ 8 + s.sparesIn 241 251 * 2 ^ 16 + s.sparesIn 251 256 * 2 ^ 24
    else if off = 0x50118 then s.led.records.length % 2 ^ 12
    else if off = 0x5011C then
      min 0xFFFFFF s.led.hours * 2 ^ 8 + min 255 (if s.led.hours = 0 then 0 else s.led.tjHours / s.led.hours)
    else match entryOf off 0x51000 4 512, entryOf off 0x52000 4 256 with
      | some n, _ =>
        if fltReserved n then 0 else bit (fltKind n).isSome * 2 ^ 8 + fltClass n * 16 + s.fltLevel n
      | _, some u =>
        let v := s.unit u
        bit v.foSat * 2 ^ 31 + v.fo * 2 ^ 8 + v.st.code
      | _, _ => 0

/-- MBX_STAT.HANDLER (R431). Assumption log 37, DEDUCED. -/
def State.mbxHandler (s : State) : Nat :=
  match s.glb.st with
  | .reset | .load | .train => 2
  | .loadfail => 1
  | .run | .safe => 0

/-- MBX, the MSI-X table and the PBA (R408, R411, R431, R432). -/
def State.regMbx (s : State) (off : Nat) : Nat :=
  let m := s.mbx
  if off = 0x60000 then 2 * bit m.locked + bit m.fenic
  else if off = 0x60004 then m.sqHead
  else if off = 0x60008 then m.sqTail
  else if off = 0x6000C then bit m.phase * 2 ^ 16 + m.cqTail
  else if off = 0x60010 then m.cqHead
  else if off = 0x60014 then bit m.loadHi * 2 ^ 18 + s.mbxHandler * 2 ^ 16 + min 256 m.jobs.length
  else if off = 0x60024 then bit m.abortPend.isSome * 2 ^ 31 + m.abortRes
  else if 0x68000 ≤ off ∧ off < 0x68400 then
    let v := s.pcie.msix.get {} ((off - 0x68000) / 16)
    match off % 16 / 4 with
    | 0 => v.addr % 2 ^ 32
    | 1 => v.addr / 2 ^ 32
    | 2 => v.data
    | _ => bit v.mask
  else if off = 0x69000 ∨ off = 0x69004 then
    let b := 32 * ((off - 0x69000) / 4)
    flagBits ((List.range 32).map fun i => !s.vecOpen (b + i) && !(s.irqFor (4 + (b + i))).isEmpty)
  else 0

/-- FAB (R111 to R113). -/
def State.regFab (s : State) (off : Nat) : Nat :=
  if off = 0x70000 then bit s.fab.lock
  else if off = 0x70008 then s.fabViolLast
  else match entryOf off 0x70020 4 8 with
    | some n => flagBits ((List.range 32).map fun b => masterIssued (32 * n + b) && s.isFrozen (32 * n + b))
    | none =>
      if 0x78000 ≤ off ∧ off < 0x78000 + 0x80 * 0xC6 then
        let m := (off - 0x78000) / 0x80
        if masterIssued m ∧ off % 16 / 4 < 3 then s.fab.win.get 0 (winKey m (off % 0x80 / 16) (off % 16 / 4)) else 0
      else 0

/-- WAIT_LOCK: the rota has not started in RUN and waits for lock (R144, R147). -/
def State.waitLock (s : State) : Bool :=
  s.glb.st == .run && !s.rota.started && !s.rota.startNoLock && !s.ptp.wasLocked

/-- The part of a channel with the older oldest-pending sheaf (R151). -/
def State.pendPart (s : State) (ch : Nat) : PartSt :=
  let a := s.part ch 0
  let b := s.part ch 1
  match a.pend, b.pend with
  | [], _ => if b.pend.isEmpty then a else b
  | _, [] => a
  | x :: _, y :: _ => if y.lt x then b else a

/-- ROTA_CH_PEND (R151). -/
def State.regChPend (s : State) (ch : Nat) : Nat :=
  let p := (s.pendPart ch).pend
  let n := match s.cls ch with
    | some c => framesPerHp c.base.rate
    | none => 0
  let old := match p with
    | x :: _ => x.fr % n * 2 ^ 8 + x.sh
    | [] => 0
  bit (s.rota.skipSat.get false ch) * 2 ^ 31 + s.rota.skipped.get 0 ch * 2 ^ 24 + min 128 p.length * 2 ^ 16 + old

/-- ROTA_CH_PHASE (R151). -/
def State.regChPhase (s : State) (ch : Nat) : Nat :=
  match (s.cls ch).filter fun _ => s.glb.tables, s.laneOfPart ch 0, s.dueSlot ch 0 0 with
  | some c, some l, some d =>
    let two := c.base.lanes == 2
    2 ^ 31 + bit two * 2 ^ 30 + (if two then ((s.laneOfPart ch 1).getD 0) * 2 ^ 24 else 0) + l * 2 ^ 16 + (d % 12500).toNat
  | _, _, _ => 0

/-- ROTA (R147 to R151). -/
def State.regRota (s : State) (off : Nat) : Nat :=
  let o := off - 0x100000
  if o = 0x0 then bit s.rota.startNoLock
  else if o = 0x4 then 2 * bit s.waitLock + bit s.rota.started
  else if o = 0x8 then s.slot
  else if o = 0x10 then s.ptp.holdoverS * 2 ^ 24 + bit s.ptp.ppsInEn * 2 ^ 16 + s.ptp.stepUs
  else if o = 0x14 then bit s.ptp.stepped * 2 ^ 16 + s.ptpPortState * 16 + bit s.ppsSeen * 4 + s.ptp.lock
  else if o = 0x18 then int32 s.ptp.offset
  else if o = 0x1C then int32 s.ptp.ppsOffset
  else if o = 0x20 then int32 s.ptp.stepLast
  else if o = 0x30 then s.ptpNsec
  else if o = 0x34 then s.time.latched % 2 ^ 32
  else if o = 0x38 then s.time.latched / 2 ^ 32 % 2 ^ 16
  else match entryOf o 0x100 4 28, entryOf o 0x180 4 8, entryOf o 0x2000 4 192, entryOf o 0x2400 4 192 with
    | some l, _, _, _ => match (s.lane l).bound with | some k => 2 ^ 8 + k | none => 0
    | _, some l, _, _ => match (s.dlane l).bound with | some k => 2 ^ 8 + k | none => 0
    | _, _, some ch, _ => s.regChPend ch
    | _, _, _, some ch => s.regChPhase ch
    | _, _, _, _ => 0

/-- ING_CH_POS (R179); NEXT_SHEAF reads 0 while no frame is open. Assumption log 106, DEDUCED. -/
def State.regChPos (s : State) (ch : Nat) : Nat :=
  let v := s.ingOf ch
  let n := match s.cls ch with
    | some c => framesPerHp c.base.rate
    | none => 0
  let next := if v.isOpen then (s.unclosed ch).headD 0 else 0
  bit v.isOpen * 2 ^ 31 + bit v.lastFilled * 2 ^ 30 + bit v.cut * 2 ^ 29 + next * 2 ^ 20 + v.fr % n * 2 ^ 16 + v.fr / n % 2 ^ 16

/-- ING (R176, R178, R179). -/
def State.regIng (s : State) (off : Nat) : Nat :=
  let o := off - 0x200000
  if o = 0x30 then
    bit (s.holdLow s.ing.holdB) * 2 ^ 9 + bit (s.holdLow s.ing.holdA) * 2 ^ 8
      + flagBits ((List.range 3).map fun f => s.ing.asserted.get false f)
  else if o = 0x34 then s.ing.holdB * 16 + s.ing.holdA
  else match entryOf o 0x20 4 3, entryOf o 0x800 8 192, entryOf o 0x804 8 192, entryOf o 0x1000 4 192 with
    | some f, _, _, _ => s.ing.wmHigh.get 0 f * 2 ^ 16 + s.ing.wmLow.get 0 f
    | _, some ch, _, _ => match s.ing.apt.get none ch with | some (b, _) => 2 ^ 31 + b | none => 0
    | _, _, some ch, _ => match s.ing.apt.get none ch with | some (_, n) => n | none => 0
    | _, _, _, some ch => s.regChPos ch
    | _, _, _, _ => 0

/-- The fields of R214 and R279. -/
def gleanReg (o : Nat) (ok : Bool) (c : Nat) (sig : BitVec 64) : Nat :=
  if o = 0x10 then bit ok * 2 ^ 8 + c % 8 else if o = 0x14 then sig.toNat % 2 ^ 32 else if o = 0x18 then sig.toNat / 2 ^ 32 else 0

/-- ACT of an encode core: its admission case and its quarantine test are gleaning cases (R213, R449, R450). -/
def State.encAct (s : State) (k : Nat) : Nat :=
  if s.testable (unitEnc k) || laneNums.any (fun l => (s.lane l).adm == some k) then 2 else (s.encOf k).act

/-- ACT of a decode core (R278, R449, R450). -/
def State.decAct (s : State) (k : Nat) : Nat :=
  if s.testable (unitDec k) || dlaneNums.any (fun l => (s.dlane l).adm == some k) then 2 else (s.decOf k).act

/-- ENC instance (R212 to R214). -/
def State.regEnc (s : State) (k o : Nat) : Nat :=
  let v := s.encOf k
  if o = 0x0 then bit ((s.unit (unitEnc k)).st == .retired) * 2 ^ 8 + k / 4 * 2 ^ 5 + k
  else if o = 0x4 then
    let b := match s.laneOfCore k with
      | some l => 2 ^ 31 + l * 2 ^ 24
      | none => 0
    b + v.ch * 2 ^ 16 + v.sh * 2 ^ 8 + v.part * 2 ^ 6 + v.verdict * 2 ^ 4 + s.encAct k
  else gleanReg o v.gMatch v.gCase v.gSig

/-- DEC core instance (R278, R279). -/
def State.regDec (s : State) (k o : Nat) : Nat :=
  let v := s.decOf k
  if o = 0x0 then bit ((s.unit (unitDec k)).st == .retired) * 2 ^ 8 + k
  else if o = 0x4 then
    let b := match s.dlaneOfCore k with
      | some l => 2 ^ 31 + l * 2 ^ 24
      | none => 0
    b + v.ctx * 2 ^ 8 + s.decAct k
  else gleanReg o v.gMatch v.gCase v.gSig

/-- RC instance, part `p` (R244 to R247). The right part's registers serve a two-lane channel. -/
def State.regRc (s : State) (ch p o : Nat) : Nat :=
  let v := s.rcOf ch
  let q := s.sessOf ch
  match s.cls ch with
  | none => 0
  | some c =>
    if 1 ≤ p ∧ c.base.lanes ≠ 2 then 0
    else
      let k := v.part p
      let l := k.led
      if o = 0x0 then v.eff
      else if o = 0x4 then v.host
      else if o = 0x8 then (match v.fb with | some f => 2 ^ 31 + f % 2 ^ 31 | none => 0)
      else if o = 0xC then l.debt
      else if o = 0x10 then
        bit (v.debtSat.get false p) * 2 ^ 31 + l.lastQ * 2 ^ 16 + l.lastKind.code * 2 ^ 14 + l.lastClass * 2 ^ 8
      else if o = 0x14 then
        let xs := (List.range (sheavesOf q.h)).map fun sh => ceilDiv (k.xs.get 0 sh) 64
        v.cycSeq * 2 ^ 24 + min 255 v.j * 2 ^ 16 + bit v.postp * 2 ^ 15 + bit v.held * 2 ^ 14 + ((minBy (fun x => x) xs).getD 0)
      else if o = 0x18 then bit (q.isOpen && c.cod.mark && !q.fenic) * 2 ^ 31 + k.markBit * 2 ^ 8 + k.markSh
      else if o = 0x1C then (match v.pinned with | some fr => rtpTime c q fr | none => 0)
      else if o = 0x20 then bit v.pinned.isSome * 2 ^ 31 + v.hist.length
      else 0

/-- First page of a region as a BAR4 offset in 4 KiB units: the granary window begins at 16 GiB (R273, R281, R409). -/
def State.bar4Page (s : State) (type x : Nat) : Nat := (0x400000000 + s.regionBase type x) / 4096 % 2 ^ 24

/-- DEC context instance (R280, R281). -/
def State.regDcx (s : State) (x o : Nat) : Nat :=
  let v := s.dcxOf x
  let n := s.decPool x
  if n = 0 ∨ !s.glb.tables then 0
  else if o = 0x0 then
    let b := match v.bindCh with
      | some ch => 2 ^ 30 + ch * 2 ^ 16
      | none => 0
    bit v.isOpen * 2 ^ 31 + b + bit v.outHost * 2 ^ 29 + bit v.active.isSome * 2 ^ 28 + bit v.isOpen * v.codec * 2 ^ 8 + (v.active.elim 0 (·.bits))
  else if o = 0x4 then (v.active.elim 0 (·.cropH)) * 2 ^ 16 + v.active.elim 0 (·.cropW)
  else if o = 0x8 then s.bar4Page 7 x
  else if o = 0xC then (match s.img.dec[x]? with | some d => d.inMib | none => 0)
  else if o = 0x10 then v.inWp
  else if o = 0x14 then v.inRp
  else if o = 0x20 then s.bar4Page 8 x
  else if o = 0x24 then v.outSeq % 2 ^ 32
  else if o = 0x2C then ((List.range n).filter fun b => (v.pool.get {} b).free).length * 2 ^ 16 + n
  else 0

/-- PKT (R315 to R318). -/
def State.regPkt (s : State) (off : Nat) : Nat :=
  let o := off - 0x2000000
  let t : EmIdx := s.pkt.em
  if o = 0x0 then
    let (p, old) := match s.rep.swap with
      | some w => match w.flipped with
        | some e => (true, s.inFlight e)
        | none => (false, 0)
      | none => (false, 0)
    bit p * 2 ^ 31 + s.rep.epoch * 2 ^ 24 + s.rep.active * 2 ^ 16 + min 0xFFFF old
  else if o = 0x10 ∨ o = 0x14 then
    flagBits ((List.range 32).map fun b => (s.unit (unitPe (8 * (o - 0x10) + b))).st == .inService)
  else if o = 0x18 then s.pkt.excEng * 2 ^ 16 + s.pkt.excPort * 2 ^ 8 + s.pkt.excReason
  else if o = 0x1C then s.pkt.excq.length
  else if o = 0x60 then (t.filter fun e => decide (emStash ≤ e.1)).length
  else if o = 0x64 then t.length
  else match entryOf o 0x40 4 8, entryOf o 0x1000 4 192 with
    | some n, _ => t.occ n
    | _, some ch => bit ((s.chain ch).any fun h => (s.body h).d.player) * 2 ^ 31 + (s.chain ch).length
    | _, _ => 0

/-- EGR (R345 to R347, R349). -/
def State.regEgr (s : State) (off : Nat) : Nat :=
  let o := off - 0x2400000
  if o = 0x10 then (if s.glb.st = .run ∨ s.glb.st = .safe then s.egrTime else 0)
  else if o = 0x14 then
    flagBits ((List.range 5).map fun n => (s.unit (unitSrtp n)).st == .inService) * 2 ^ 16
      + ((List.range 4).map fun i => s.physPair i * 2 ^ (4 * i)).sum
  else if o = 0x20 then s.egr.tagPort * 2 ^ 8 + s.egr.tagCh
  else match entryOf o 0x0 4 2, entryOf o 0x8 4 2, entryOf o 0x18 4 2, entryOf o 0x40 4 16 with
    | some p, _, _, _ =>
      bit (s.glb.tables && (s.gateImg p).mode == 1) * 2 ^ 31 + bit (s.glb.st == .safe) * 2 ^ 30 + s.openGates p * 2 ^ 16 + s.egr.gateEnt.get 0 p
    | _, some p, _, _ => if s.glb.tables then (s.gateImg p).cycleNs else 0
    | _, _, some p, _ => s.storeUsed p
    | _, _, _, some n => s.egr.vtime.get 0 n
    | _, _, _, _ =>
      match entryOf o 0x1000 4 192, entryOf o 0x10000 4 2048 with
      | some ch, _ =>
        let old := match (s.egr.rings.get [] ch).getLast? with
          | some m => m.seq
          | none => 0
        s.egr.newest.get 0 ch * 2 ^ 16 + old
      | _, some q =>
        let c := if s.glb.tables then s.queueCfg (q / 1024) (q % 1024) else {}
        c.cls * 2 ^ 29 + c.weight * 2 ^ 21 + s.queueDepth (q / 1024) (q % 1024)
      | _, _ => 0

/-- HBM instance `k` (R374 to R379). -/
def State.regHbm (s : State) (k o : Nat) : Nat :=
  let v := s.stack k
  if o = 0x0 then
    let ph := match v.drain.phase with | .idle => 0 | .check => 1 | .copy => 2 | .offline => 3
    v.st.code * 2 ^ 10 + (s.stackSpares k).length * 2 ^ 8 + bit v.exhausted * 2 ^ 7 + ph * 2 ^ 5 + v.drain.tgt % 32
  else if o = 0x4 then (match v.pendRate with | some r => 2 ^ 31 + r * 2 ^ 16 | none => 0) + v.rate
  else if o = 0x8 then bit v.hot * 2 ^ 8 + v.temp
  else if o = 0xC then bit v.maxHit * 2 ^ 31 + ((pcsOf k).map fun g => (s.pc g).outst).foldl max 0
  else match entryOf o 0x100 4 32 with
    | some n =>
      let p := s.pc (32 * k + n)
      p.role.code * 2 ^ 29 + p.pos * 2 ^ 23 + bit p.ceSat * 2 ^ 22 + bit p.ueSat * 2 ^ 21 + p.ue * 2 ^ 16 + p.ce
    | none =>
      if k ≠ 0 then 0
      else if o = 0x80 then s.hbm.wrHigh * 2 ^ 16 + s.hbm.wrLow * 2 ^ 8 + s.hbm.granule
      else if o = 0x88 then ((List.range 8).map fun p => s.hbm.prio.get 0 p * 2 ^ (4 * p)).sum
      else if o = 0x8C then ((List.range 5).map fun p => s.hbm.prio.get 0 (8 + p) * 2 ^ (4 * p)).sum
      else if o = 0x90 then s.hbm.ceLimit * 2 ^ 16 + s.hbm.retrainS
      else match entryOf o 0x200 4 60 with
        | some i => (match s.pcOf i with | some g => 2 ^ 6 + g | none => 0)
        | none => 0

/-- Register `o` of a FIFO's entry (R407). -/
def State.regFifo (s : State) (f o : Nat) : Nat :=
  match fifoKind f with
  | none => 0
  | some (large, w, cap) =>
    let v := s.fifo f
    if o = 0x4 then
      let fill := s.fifoFill f
      bit v.under * 2 ^ 31 + bit v.ovf * 2 ^ 30 + bit v.itemsSat * 2 ^ 29 + bit (fill == 0) * 2 ^ 28
        + bit (large && s.fifoAsserted f) * 2 ^ 27 + bit large * 2 ^ 26
        + (if large then min 255 (s.fifoItems f) else 0) * 2 ^ 16 + fill
    else if o = 0x8 then (if large then s.fifoHigh f * 2 ^ 16 + s.fifoLow f else 0)
    else if o = 0xC then w * 2 ^ 16 + cap
    else 0

/-- DMA (R403 to R407). -/
def State.regDma (s : State) (off : Nat) : Nat :=
  let o := off - 0x2C00000
  if o < 0x40 * 68 then
    let c := s.dma (o / 0x40)
    match o % 0x40 / 4 with
    | 0 => c.src % 2 ^ 32
    | 1 => c.src / 2 ^ 32
    | 2 => c.dst % 2 ^ 32
    | 3 => c.dst / 2 ^ 32
    | 4 => c.len
    | 5 => c.fifo * 2 ^ 22 + c.event * 2 ^ 12 + c.trig * 2 ^ 10 + c.dstW * 2 ^ 4 + c.srcW
    | 7 => c.abortRes * 2 ^ 8 + c.st.code
    | 8 => c.done
    | 9 => c.used * 2 ^ 8 + c.limit
    | _ => 0
  else match entryOf o 0x2000 4 3 with
    | some n =>
      flagBits ((List.range 32).map fun b => decide (32 * n + b < 68) && (s.unit (unitDma (32 * n + b))).st == .inService)
    | none => if 0x10000 ≤ o ∧ o < 0x14000 then s.regFifo ((o - 0x10000) / 0x10) (o % 0x10) else 0

/-! ### Words and reads -/

/-- The word of a register that is no half of a statistics counter; a reserved offset reads 0 (R482). -/
def State.plainWord (s : State) (off : Nat) : Nat :=
  if off < 0x30000 then s.regGlb off
  else if off < 0x40000 then s.regSec off
  else if off < 0x50000 then s.regIrq off
  else if off < 0x60000 then s.regFlt off
  else if off < 0x70000 then s.regMbx off
  else if off < 0x80000 then s.regFab off
  else if off < 0x100000 then 0
  else if off < 0x200000 then s.regRota off
  else if off < 0x300000 then s.regIng off
  else if off < 0x1000000 then 0
  else if off < 0x1800000 then s.regEnc ((off - 0x1000000) / 0x40000) (off % 0x40000)
  else if off < 0x1830000 then s.regRc ((off - 0x1800000) / 0x400) (off % 0x400 / 0x200) (off % 0x200)
  else if off < 0x1C00000 then 0
  else if off < 0x1E40000 then s.regDec ((off - 0x1C00000) / 0x40000) (off % 0x40000)
  else if off < 0x1E44000 then s.regDcx ((off - 0x1E40000) / 0x100) (off % 0x100)
  else if off < 0x2000000 then 0
  else if off < 0x2400000 then s.regPkt off
  else if off < 0x2800000 then s.regEgr off
  else if off < 0x2C00000 then s.regHbm ((off - 0x2800000) / 0x200000) (off % 0x200000)
  else if off < 0x3000000 then s.regDma off
  else 0

/-- The live word at a BAR0 offset (R477, R482, R490). Assumption log 37, DEDUCED. -/
def State.regWord (s : State) (off : Nat) : Nat :=
  if !s.regRuns off then 0
  else match s.counterAt off with
    | some (_, c) => c.toNat % 2 ^ 32
    | none =>
      match (if 4 ≤ off then s.counterAt (off - 4) else none) with
      | some (_, c) => c.toNat / 2 ^ 32
      | none => s.plainWord off

/-- What a read of the word does: RC fields clear, and ROTA_TIME_NS latches the whole time (R110, R111, R148, R484). -/
def State.readEffect (s : State) (off : Nat) : State :=
  if !s.regRuns off then s
  else if off = 0x300C0 then { s with sec := { s.sec with failCnt := 0 } }
  else if off = 0x70008 then { s with fab := { s.fab with violCnt := 0 } }
  else if off = 0x100030 then { s with time := { s.time with latched := s.ptpSec } }
  else s

/-- BAR0 reaches the requester: for the host, the function's configuration space is ready and decodes its BARs; for the steward,
its island runs (R408, R489). In RESET nothing is reached (R18). -/
def State.reaches (s : State) (who : Requester) : Bool :=
  match who with
  | .host => s.hostBar 0
  | .steward => (s.glb.st == .train || s.glb.st == .run || s.glb.st == .safe) && !s.stopped 1

/-- Offset of a requester's last read. -/
def Outs.last (o : Outs) : Requester → Option Nat
  | .host => o.lastHost
  | .steward => o.lastStw

/-- A requester has read an offset. -/
def Outs.readBy (o : Outs) (who : Requester) (off : Option Nat) : Outs :=
  match who with
  | .host => { o with lastHost := off }
  | .steward => { o with lastStw := off }

/-- A 4-byte read by a requester (R483, R484, R486): the lower word of a counter latches its upper word, which the same requester's
next read of that word returns. -/
def State.read4 (s : State) (who : Requester) (off : Nat) : Nat × State :=
  let upper := match (if 4 ≤ off then s.counterAt (off - 4) else none) with
    | some (b, _) => if s.outs.last who == some (off - 4) && s.regRuns off then some (s.outs.latch.get 0 b) else none
    | none => none
  let v := match upper with
    | some u => u
    | none => s.regWord off
  let latch := match s.counterAt off with
    | some (b, c) => if s.regRuns off then s.outs.latch.set 0 b (c.toNat / 2 ^ 32) else s.outs.latch
    | none => s.outs.latch
  let s := s.readEffect off
  (v, { s with outs := { s.outs.readBy who (some off) with bar0 := v, latch := latch } })

/-- An 8-byte read by a requester: both words as they stood in one cycle, with the effects of a read of each and no latch (R483,
R486). -/
def State.read8 (s : State) (who : Requester) (off : Nat) : State :=
  let v := s.regWord (off + 4) * 2 ^ 32 + s.regWord off
  let s := (s.readEffect off).readEffect (off + 4)
  { s with outs := { s.outs.readBy who none with bar0 := v } }

/-- A request by a requester that its block answers: the host's completes successfully (R489). -/
def State.answered (s : State) : Requester → State
  | .host => s.hostCpl 0
  | .steward => s

/-- A request of a size or alignment that BAR0 does not accept has no effect, and completes with Completer Abort (R483). -/
def State.refusedAccess (s : State) : Requester → State
  | .host => s.hostCpl 1
  | .steward => s

/-- A request that does not reach BAR0 (R489). -/
def State.offBar0 (s : State) : Requester → State
  | .host => s.unreached 0
  | .steward => s

/-- COUNTER_LOW_READ: a read of BAR0, of 4 or 8 bytes (R483, R486, R489). -/
def execCounterLowRead (who : Requester) (off : Nat) (s : State) (size : Nat := 4) : Res :=
  .next (
    if !s.reaches who ∨ 2 ^ 26 ≤ off then s.offBar0 who
    else if size = 4 ∧ off % 4 = 0 then (s.read4 who off).2.answered who
    else if size = 8 ∧ off % 8 = 0 then (s.read8 who off).answered who
    else s.refusedAccess who)

/-- SEC_KEY_STAT_READ: FAIL_CNT clears on the host's read (R110, R489). -/
def execSecKeyStatRead (s : State) : Res :=
  .next (if s.reaches .host then (s.read4 .host 0x300C0).2.hostCpl 0 else s.unreached 0)

/-- FAB_VIOL_LAST_READ: VIOL_CNT clears on the host's read (R111, R489). -/
def execFabViolLastRead (s : State) : Res :=
  .next (if s.reaches .host then (s.read4 .host 0x70008).2.hostCpl 0 else s.unreached 0)

/-- ROTA_TIME_NS_READ: the host's read latches the whole time (R148, R489). -/
def execRotaTimeNsRead (s : State) : Res :=
  .next (if s.reaches .host then (s.read4 .host 0x100030).2.hostCpl 0 else s.unreached 0)

end Sys2Proof.Machine
end

