-- ==== Sys2Proof/Machine/Keys.lean ====
section
/-!
DEFINITION. Keys and attestation: KEY_IMPORT, KEY_ERASE, LOAD_KEY and ATTEST (R79, R89 to R97, R110, R411).
-/

namespace Sys2Proof.Machine

/-- Slots of the key store (R95). -/
def keySlots : Nat := 524288

/-- Host memory may be mastered: Bus Master Enable is 1 and the function is in D0 (R408, R411). Assumption log 13, DEDUCED. -/
def State.masters (s : State) : Bool := s.pcie.bme && !s.pcie.d3

/-- KEY_SLOT of a blob (R92). -/
def blobSlot (b : List Byte) : Nat := beAt b 8 4

/-- The header fields of a blob are valid, and its reserved bytes 0x095 to 0x097 are 0 (R92, R94). Assumption log 96, DESIGN CHOICE. -/
def blobOk (b : List Byte) : Bool :=
  beAt b 0 4 == 0x564B4931 && beAt b 4 2 == 1 && beAt b 6 2 == 0xF0 && decide (blobSlot b < keySlots) && byteAt b 12 == 1
    && zeros b 13 3 && zeros b 0x95 3

/-- EPH_KEY, SALT and WRAPPED of a blob (R92). -/
def blobEph (b : List Byte) : List Byte := slice b 0x10 133
def blobSalt (b : List Byte) : List Byte := slice b 0x98 32
def blobWrapped (b : List Byte) : List Byte := slice b 0xB8 56

/-- The 16 ASCII bytes "VAWYN KEY IMPORT" (R93). -/
def importInfo : List Byte :=
  [0x56, 0x41, 0x57, 0x59, 0x4E, 0x20, 0x4B, 0x45, 0x59, 0x20, 0x49, 0x4D, 0x50, 0x4F, 0x52, 0x54]

/-- The key-encryption key of a blob: ECDH on EPH_KEY, then HKDF with SALT and the info that binds the header (R93). -/
def State.blobKek (s : State) (b : List Byte) : List Byte :=
  Config.hkdfSha512 (blobSalt b) (Config.ecdhX s.sec.keyGen (blobEph b)) (importInfo ++ slice b 0 16) 32

/-- The key record of a blob under the import key in force: none where EPH_KEY is no point, the integrity check fails or the
padding is not 0 (R93, R94). -/
def State.unwrap (s : State) (b : List Byte) : Option (List Byte) :=
  if !Config.pointOk (blobEph b) then none
  else match Config.unwrap3394 (s.blobKek b) (blobWrapped b) with
    | some k => if zeros k 44 4 then some k else none
    | none => none

/-- A slot's entry is written through the private path: sealed under the internal key into the slot's 64 bytes of the key store; an
erased slot holds no record (R95, R96). -/
def State.storeKey (s : State) (slot : Nat) (k : List Byte) : State :=
  let e := (List.range 64).map (Config.sealEntry s.sec.keyGen slot k)
  { s with sec := { s.sec with keys := s.sec.keys.set [] slot k, entries := s.sec.entries.set [] slot e } }.granWrite
    (s.sec.ksBase + 64 * slot) e

/-- Writes a slot's entry and completes the command: it waits for the slot's stack, and a slot that the path does not reach, or whose
stack is OFF, is left alone (R95, R355, R370). Assumption log 104, DESIGN CHOICE. -/
def State.commitKey (s : State) (h : CmdHdr) (slot : Nat) (k : List Byte) : State :=
  match s.keyPath slot with
  | .served _ => (s.storeKey slot k).complete h .ok
  | .wait => s
  | .error => s.complete h .denied

/-- An import that is refused: the slot is unchanged, FAIL_CNT rises and KEY_UNWRAP_FAIL is raised (R94, R110). -/
def State.unwrapFailed (s : State) : State :=
  { s with sec := { s.sec with failCnt := min 255 (s.sec.failCnt + 1) } }.raise srcKeyFail

/-- An import of a blob of `len` bytes; `slot` is the one that the command names, in the Fenic layout (R79, R94). It waits while
SEC is stopped (R476). Assumption log 13, DEDUCED. -/
def State.importBlob (s : State) (h : CmdHdr) (len : Nat) (blob : List Byte) (slot : Option Nat) : State :=
  if !s.masters then s.complete h .denied
  else if len ≠ 240 then s.complete h .badArg
  else if s.stopped 7 then s
  else if !blobOk blob then s.complete h .badArg
  else if slot.any fun k => k != blobSlot blob then s.complete h .badArg
  else match s.unwrap blob with
    | some k => s.commitKey h (blobSlot blob) k
    | none => s.unwrapFailed.complete h .denied

/-- KEY_IMPORT with OP IMPORT; `blob` is what host memory holds at SRC (R94, R411). Assumption log 14, DEDUCED. -/
def execKeyImport (h : CmdHdr) (src len : Nat) (blob : List Byte) (s : State) : Res :=
  .next (s.serve (.keyImport h src len []) false false false h fun s => s.importBlob h len blob none)

/-- LOAD_KEY: the slot must equal the blob's KEY_SLOT (R79, R97). Assumption log 14, DEDUCED. -/
def execLoadKey (h : CmdHdr) (src len slot : Nat) (blob : List Byte) (s : State) : Res :=
  .next (s.serve (.loadKey h src len slot []) true false false h fun s => s.importBlob h len blob (some slot))

/-- KEY_IMPORT with OP ERASE (R94); as a KEY_IMPORT it needs Bus Master Enable (R411). Assumption log 13, DEDUCED. -/
def execKeyErase (h : CmdHdr) (slot : Nat) (s : State) : Res :=
  .next (s.serve (.keyErase h slot) false false false h fun s =>
    if !s.masters then s.complete h .denied
    else if keySlots ≤ slot then s.complete h .badArg
    else if s.stopped 7 then s
    else s.commitKey h slot [])

/-! ### The Sarvel report (R89, R90) -/


/-- Spares remaining, one byte per kind (R90, R457). -/
def State.spareCounts (s : State) : List Byte :=
  [FoKind.enc, .dec, .stw, .dma, .pe, .pc, .lane, .srtp].map fun k => BitVec.ofNat 8 (s.sparesIn k.range.1 k.range.2)

/-- Bytes 0x000 to 0x19F of the report (R90). -/
def State.reportBody (s : State) (nonce : List Byte) : List Byte :=
  beBytes 4 0x53525631 ++ beBytes 2 1 ++ beBytes 2 0x224 ++ beBytes 2 0x0192 ++ [0xA1] ++ beBytes 1 s.glb.st.code
    ++ beBytes 1 s.glb.imgSlot ++ beBytes 1 s.glb.lastReset ++ beBytes 2 0 ++ beBytes 8 s.sec.sensed.serial.toNat
    ++ beBytes 4 s.cfg.imgVer ++ beBytes 4 (s.fuseStat % 16) ++ nonce
    ++ beBytes 64 (beNat s.cfg.imgHash) ++ beBytes 16 (beNat s.cfg.rotaId) ++ beBytes 64 s.sec.sensed.owner.toNat
    ++ s.spareCounts ++ beBytes 4 s.led.records.length ++ beBytes 4 s.sec.reports
    ++ [0x04] ++ beBytes 132 (Config.importKey s.sec.keyGen).toNat ++ beBytes 3 0
    ++ beBytes 8 s.ptpSec ++ beBytes 4 s.ptpNsec ++ beBytes 1 s.ptp.lock ++ beBytes 11 0

/-- The report with its signature by the identity key (R84, R90). -/
def State.report (s : State) (nonce : List Byte) : List Byte :=
  let b := s.reportBody nonce
  b ++ beBytes 132 (Config.identitySign s.sec.fuses.idkey s.sec.fuses.rootSecret (Config.sha512 b) s.free).toNat

/-- ATTEST: the report on the nonce is written into the aperture (R89). It begins when every earlier command has completed (R413),
and waits while SEC is stopped (R476). -/
def execAttest (h : CmdHdr) (nonceSrc dst : Nat) (s : State) : Res :=
  .next (s.serve (.attest h nonceSrc dst) false true false h fun s =>
    if s.earlier h || s.stopped 7 then s
    else if nonceSrc % 64 ≠ 0 ∨ aptLen < nonceSrc + 64 ∨ dst % 4096 ≠ 0 ∨ aptLen < dst + 548 then s.complete h .badArg
    else if !s.sec.sensed.idkeyOk then s.complete h .denied
    else
      let nonce := Tbl.getList 0 s.bar2 (aptBase + nonceSrc) 64
      let s := { s with sec := { s.sec with reports := s.sec.reports + 1 }, free := s.free + 1 }
      { s with bar2 := s.bar2.setList 0 (aptBase + dst) (s.report nonce) }.complete h .ok 548)

end Sys2Proof.Machine
end

