-- ==== Sys2Proof/Machine/HostCmds.lean ====
section
/-!
DEFINITION. The other mailbox commands: islands, flash updates, restart, fault acknowledgement, statistics, reserved opcodes (R67
to R70, R77 to R80, R416, R417, R441, R469 to R473).
-/

namespace Sys2Proof.Machine

/-! ### Islands (R416, R468 to R473) -/

/-- A request by command: LOADFAIL refuses it with DENIED, which the island's RESULT records too (R18, R473); `r` is none for a
reserved state code. Assumption log 41, DEDUCED. -/
def State.islCommand (s : State) (h : CmdHdr) (isl : Nat) (r : Option IslReq) : State :=
  if 59 ≤ isl then s.complete h (if s.glb.st = .loadfail then .denied else .badArg)
  else if s.glb.st = .loadfail then s.islAnswer isl (some h) .denied
  else match r with
    | none => s.islAnswer isl (some h) .badArg
    | some r => s.islRequest isl r (some h)

/-- ISLAND_STATE: a job until the change ends (R471, R473). Assumption log 41, DEDUCED. -/
def execIslandState (h : CmdHdr) (isl st : Nat) (s : State) : Res :=
  .next (s.serve (.islandState h isl st) false true true h fun s => s.islCommand h isl ((IslSt.ofCode st).map .state))

/-- ISLAND_FREQ (R469, R473). -/
def execIslandFreq (h : CmdHdr) (isl mhz : Nat) (s : State) : Res :=
  .next (s.serve (.islandFreq h isl mhz) false true true h fun s => s.islCommand h isl (some (.freq mhz)))

/-! ### IMAGE_WRITE (R67, R68) -/

/-- The range of a PROGRAM or ERASE is as R67 requires. -/
def rangeOk (slot off len : Nat) : Bool :=
  decide (slot < 2) && decide (off % 4096 = 0) && decide (len % 4096 = 0) && inRange 4096 0x100000 len
    && decide (off + len ≤ slotLen)

/-- The data of a PROGRAM lie in the aperture (R67, R410). -/
def srcOk (src len : Nat) : Bool := decide (src % 4096 = 0) && decide (src + len ≤ aptLen)

/-- The flash operation of an IMAGE_WRITE begins (R68). -/
def State.beginFlash (s : State) (h : CmdHdr) (opcode base len : Nat) (data : Option (List Byte)) : State :=
  { s with flashOp := some { tag := h.tag, irq := h.irq, base := base, len := len, data := data } }.addJob h opcode

/-- PROGRAM from the aperture (R67). -/
def State.program (s : State) (h : CmdHdr) (opcode base len src : Nat) : State :=
  s.beginFlash h opcode base len (some (Tbl.getList 0 s.bar2 (aptBase + src) len))

/-- IMAGE_WRITE with OP PROGRAM (R67). It begins when every earlier command has completed (R413). -/
def execImageWriteProgram (h : CmdHdr) (slot off len src : Nat) (s : State) : Res :=
  .next (s.serve (.imageWriteProgram h slot off len src) false true true h fun s =>
    if s.earlier h then s
    else if !rangeOk slot off len || !srcOk src len then s.complete h .badArg
    else s.program h 0x0B (slotBase slot + off) len src)

/-- IMAGE_WRITE with OP ERASE (R67). -/
def execImageWriteErase (h : CmdHdr) (slot off len : Nat) (s : State) : Res :=
  .next (s.serve (.imageWriteErase h slot off len) false true true h fun s =>
    if s.earlier h then s
    else if !rangeOk slot off len then s.complete h .badArg
    else s.beginFlash h 0x0B (slotBase slot + off) len none)

/-- IMAGE_WRITE with OP VERIFY: RESULT0 is the result code of checks 1 to 7 (R67, R416). -/
def execImageWriteVerify (h : CmdHdr) (slot : Nat) (rd : FlashReads) (s : State) : Res :=
  .next (s.serve (.imageWriteVerify h slot noReads) false true true h fun s =>
    if s.earlier h then s
    else if 2 ≤ slot then s.complete h .badArg
    else s.complete h .ok (s.slotVerify slot rd))

/-- The slot that holds a whole range of flash addresses, with the offset in it (R55, R79). -/
def slotOfAddr (a len : Nat) : Option (Nat × Nat) :=
  [0, 1].findSome? fun k => if slotBase k ≤ a ∧ a + len ≤ slotBase k + slotLen then some (k, a - slotBase k) else none

/-- FLASH_WRITE: PROGRAM at a flash address inside one slot (R79). -/
def execFlashWrite (h : CmdHdr) (addr len src : Nat) (s : State) : Res :=
  .next (s.serve (.flashWrite h addr len src) true true true h fun s =>
    if s.earlier h then s
    else match slotOfAddr addr len with
      | none => s.complete h .badArg
      | some (k, off) => if rangeOk k off len && srcOk src len then s.program h 0x09 addr len src else s.complete h .badArg)

/-- FLASH_OP_DONE: the flash operation ends and its IMAGE_WRITE completes; an error completes it with DENIED and raises XSPI_ERR,
and the range holds what the spec leaves open (R68). -/
def execFlashOpDone (ok : Bool) (s : State) : Res :=
  .next (match s.flashOp with
    | none => s
    | some o =>
      let h : CmdHdr := { tag := o.tag, irq := o.irq }
      let s := { s with flashOp := none }
      if ok then
        (match o.data with
          | some bs => s.flashWrite o.base bs
          | none => s.flashErase o.base o.len).completeJob h .ok
      else ((s.flashSpoil o.base o.len).raise srcXspi).completeJob h .denied)

/-! ### RESTART (R70) -/

/-- RESTART completes with OK, and the device enters RESET within 1 ms; later commands are discarded (R70, R413). -/
def State.restartNow (s : State) (h : CmdHdr) : State :=
  let s := (s.complete h .ok).setJobs []
  { s with glb := { s.glb with restartPend := true, restartAt := s.time.aon } }

/-- RESTART. -/
def execRestart (h : CmdHdr) (s : State) : Res :=
  .next (s.serve (.restart h) false true true h fun s => if s.earlier h then s else s.restartNow h)

/-- REBOOT (R79). -/
def execReboot (h : CmdHdr) (s : State) : Res :=
  .next (s.serve (.reboot h) true true true h fun s => if s.earlier h then s else s.restartNow h)

/-! ### FAULT_ACK (R441) -/

/-- The mark of a source clears (R441). -/
def State.clearMark (s : State) (n : Nat) : State := { s with flt := { s.flt with mark := s.flt.mark.set false n false } }

/-- FAULT_ACK's statuses (R441). -/
def State.ackFault (s : State) (h : CmdHdr) (n : Nat) : State :=
  if fltReserved n then s.complete h .badArg
  else if s.flt.mark.get false n then (s.clearMark n).complete h .ok
  else s.complete h .alreadyDone

/-- FAULT_ACK in the native layout. -/
def execFaultAck (h : CmdHdr) (src : Nat) (s : State) : Res := .next (s.serve (.faultAck h src) false true false h fun s => s.ackFault h src)

/-- CLEAR_ALARM (R79). -/
def execClearAlarm (h : CmdHdr) (src : Nat) (s : State) : Res := .next (s.serve (.clearAlarm h src) true true false h fun s => s.ackFault h src)

/-! ### STATS_READ (R417) -/

/-- Length of BAR0 (R409). -/
def bar0Len : Nat := 0x4000000

/-- Copies `n` words of 4 bytes from a BAR0 offset on, each with the effects of a read of it, as one snapshot (R417).
Assumption log 14, DEDUCED. -/
def State.copyRegs : Nat → Nat → State → List Byte × State
  | 0, _, s => ([], s)
  | n + 1, off, s =>
    let w := s.regWord off
    let (bs, s) := State.copyRegs n (off + 4) (s.readEffect off)
    (leBytes 4 w ++ bs, s)

/-- STATS_READ (R411, R416, R417). -/
def State.stats (s : State) (h : CmdHdr) (off dst len : Nat) : State :=
  if !s.masters then s.complete h .denied
  else if off % 8 ≠ 0 ∨ len % 8 ≠ 0 ∨ len < 8 ∨ 65536 < len ∨ bar0Len < off + len then s.complete h .badArg
  else
    let (bs, s) := State.copyRegs (len / 4) off s
    { s with host := s.host.setList 0 dst bs }.complete h .ok len

/-- STATS_READ in the native layout. Assumption log 13, DEDUCED. -/
def execStatsRead (h : CmdHdr) (off dst len : Nat) (s : State) : Res :=
  .next (s.serve (.statsRead h off dst len) false true false h fun s => s.stats h off dst len)

/-- GET_STATS: the RC instance of the channel, LENGTH capped at 0x400 (R417). -/
def execGetStats (h : CmdHdr) (ch dst len : Nat) (s : State) : Res :=
  .next (s.serve (.getStats h ch dst len) true true false h fun s => s.stats h (0x01800000 + 0x400 * ch) dst (min len 0x400))

/-! ### Reserved opcodes (R414, R416, R79) -/

/-- The command's opcode is one that SAFE executes (R18). Assumption log 12, DEDUCED. -/
def safeOpcode (op : Nat) : Bool := inRange 0x08 0x0E op

/-- The opcode names no command (R416). Assumption log 71, DEDUCED. -/
def noOpcode (op : Nat) : Bool := op == 0 || decide (0x0F ≤ op)

/-- RESERVED_OPCODE: an entry with a reserved opcode, a reserved KIND or OP, or a reserved bit set completes with BAD_ARG (R67, R94,
R414, R416); a reserved opcode does so in every state that serves commands, a reserved form of a command where that
command executes (R18). Assumption log 71, DEDUCED. -/
def execReservedOpcode (h : CmdHdr) (opcode : Nat) (s : State) : Res :=
  .next (s.serve (.reservedOpcode h opcode) false (noOpcode opcode || safeOpcode opcode) (noOpcode opcode || opcode == 0x0B || opcode == 0x0C) h fun s =>
    s.complete h .badArg)

/-- BAD_OPCODE: a reserved Fenic opcode; its status has no native counterpart (R79, R80). Assumption log 71, DEDUCED. -/
def execBadOpcode (h : CmdHdr) (opcode : Nat) (s : State) : Res :=
  .next (s.serve (.badOpcode h opcode) true true true h fun s => s.finish { tag := h.tag, status := 6, res0 := 0, res1 := 0, irq := h.irq })

end Sys2Proof.Machine
end

