-- ==== Sys2Proof/Machine/Telemetry.lean ====
section
/-!
DEFINITION. Die sensors, the thermal sources and pins, and the SMBus target (R29, R30, R46, R47).
-/

namespace Sys2Proof.Machine

/-! ### Sensors (R46): temperatures in units of 0.25 °C -/

/-- 120 °C, 110 °C, and the range of the warning threshold, which the image sets: 85 °C to 105 °C (R29, R46). -/
def tripAt : Int := 480
def critAt : Int := 440
def warnLow : Int := 340
def warnHigh : Int := 420

/-- A sensor reports a temperature. -/
def State.setTj (s : State) (ts : Nat) (tj : Int) : State := { s with therm := { s.therm with tj := s.therm.tj.set 0 ts tj } }

/-- A thermal source's line follows its condition outside RESET, where the collector is held (R18, R439). -/
def State.thermLine (s : State) (n : Nat) (level : Bool) : State := if s.glb.st = .reset then s else s.setLine n level

/-- THERMTRIP: THERMTRIP_N goes low, and THERMAL_TRIP is raised when it does (R29, R30). -/
def execThermtrip (ts : Nat) (tj : Int) (s : State) : Res :=
  .next (
    let s := s.setTj ts tj
    if tj < tripAt ∨ s.pins.thermtrip then s else { s with pins := { s.pins with thermtrip := true } }.raise srcTrip)

/-- THERMAL_WARN: a sensor reaches the threshold of the loaded image, whose place in the image the spec does not give (R46).
Assumption log 30, DESIGN CHOICE. -/
def execThermalWarn (ts : Nat) (tj : Int) (s : State) : Res :=
  .next (
    let s := s.setTj ts tj
    if tj < warnLow ∨ !s.cfg.loaded then s
    else { s with therm := { s.therm with warn := s.therm.warn.set false ts true } }.thermLine (srcWarn ts) true)

/-- THERMAL_CRIT (R46). -/
def execThermalCrit (ts : Nat) (tj : Int) (s : State) : Res :=
  .next (
    let s := s.setTj ts tj
    if tj < critAt then s
    else { s with therm := { s.therm with crit := s.therm.crit.set false ts true } }.thermLine (srcCrit ts) true)

/-- THERMAL_ALERT_CLEARS: the sensor falls below 110 °C, or below the warning threshold: with a critical condition just cleared, that
is certain only below the threshold's range (R46, R47). Assumption log 30, DESIGN CHOICE. -/
def execThermalAlertClears (ts : Nat) (tj : Int) (s : State) : Res :=
  .next (
    let s := s.setTj ts tj
    let wasCrit := s.therm.crit.get false ts
    let s := if tj < critAt then
        { s with therm := { s.therm with crit := s.therm.crit.set false ts false } }.thermLine (srcCrit ts) false
      else s
    if tj < warnLow ∨ (tj < warnHigh ∧ !wasCrit) then
      { s with therm := { s.therm with warn := s.therm.warn.set false ts false } }.thermLine (srcWarn ts) false
    else s)

/-! ### The SMBus target (R47) -/

/-- One bit of SMBus's packet error code, CRC-8 by x^8 + x^2 + x + 1, and the code of a byte string (R47). Assumption log 31, PRESUMED. -/
def pecBit (c : Nat) : Nat := if 128 ≤ c then (2 * c % 256) ^^^ 7 else 2 * c
def pecByte (c : Nat) (b : Byte) : Nat := (List.range 8).foldl (fun c _ => pecBit c) (c ^^^ b.toNat)
def pecOf (bs : List Byte) : Nat := bs.foldl pecByte 0

/-- 7-bit SMBus address (R32). -/
def State.smbAddress (s : State) : Nat := 0x4C + s.glb.smbAddr

/-- The target returns bytes, the low byte first, and acknowledges as read commands do; the packet error code, which a host that
clocks one more byte reads, covers the bytes `pre` of the transaction before them (R47). Assumption log 31, PRESUMED. -/
def State.smbAnswer (s : State) (pre bs : List Byte) (nack : Bool) : State :=
  { s with outs := { s.outs with smb := bs, smbNack := nack, smbPec := pecOf (pre ++ bs) } }

/-- The answer to a read of a command code: the address with write, the code, and the address with read come before the data (R47).
Assumption log 31, PRESUMED. -/
def State.smbReturn (s : State) (code : Nat) (bs : List Byte) (nack : Bool) : State :=
  s.smbAnswer [BitVec.ofNat 8 (2 * s.smbAddress), BitVec.ofNat 8 code, BitVec.ofNat 8 (2 * s.smbAddress + 1)] bs nack

/-- Two bytes of a temperature, signed (R47). -/
def tjBytes (tj : Int) : List Byte := leBytes 2 (tj % 65536).toNat

/-- The hottest sensor, the lowest-numbered of equals (R47). Assumption log 90, DESIGN CHOICE. -/
def State.hottest (s : State) : Nat :=
  (List.range 16).foldl (fun b t => if s.therm.tj.get 0 b < s.therm.tj.get 0 t then t else b) 0

/-- Code 0x00. -/
def execSmbReadHottestTj (s : State) : Res := .next (s.smbReturn 0x00 (tjBytes (s.therm.tj.get 0 s.hottest)) false)

/-- Code 0x01. -/
def execSmbReadHottestIndex (s : State) : Res := .next (s.smbReturn 0x01 (leBytes 1 s.hottest) false)

/-- Code 0x02: the estimate is the device's, which the spec does not give. Assumption log 33, DESIGN CHOICE. -/
def execSmbReadPower (s : State) : Res :=
  .next ({ s with free := s.free + 1 }.smbReturn 0x02 (leBytes 2 (Config.powerEstimate s.free).toNat) false)

/-- Code 0x03. -/
def execSmbReadState (s : State) : Res := .next (s.smbReturn 0x03 (leBytes 1 s.glb.st.code) false)

/-- Code 0x04. -/
def execSmbReadThermalStatus (s : State) : Res :=
  .next (
    let w := (List.range 16).any s.warnLive
    let c := (List.range 16).any s.critLive
    s.smbReturn 0x04 (leBytes 1 (bit w + 2 * bit c + 4 * bit s.pins.thermtrip)) false)

/-- Codes 0x10 to 0x1F. -/
def execSmbReadSensorTj (code : Nat) (s : State) : Res :=
  .next (if 0x10 ≤ code ∧ code < 0x20 then s.smbReturn code (tjBytes (s.therm.tj.get 0 (code - 0x10))) false else s)

/-- Codes 0x20 to 0x28: the estimate is the device's, which the spec does not give. Assumption log 33, DESIGN CHOICE. -/
def execSmbReadRailCurrent (code : Nat) (s : State) : Res :=
  .next (
    if 0x20 ≤ code ∧ code ≤ 0x28 then
      { s with free := s.free + 1 }.smbReturn code (leBytes 2 (Config.railCurrent (code - 0x20) s.free).toNat) false
    else s)

/-- A command code that R47 defines. -/
def smbKnown (code : Nat) : Bool := decide (code < 5) || decide (0x10 ≤ code ∧ code ≤ 0x28)

/-- SMB_UNKNOWN_COMMAND: `n` bytes of 0xFF, the last not acknowledged. -/
def execSmbUnknownCommand (code n : Nat) (s : State) : Res :=
  .next (if smbKnown code then s else s.smbReturn code (List.replicate n 0xFF) true)

/-- SMB_ALERT_RESPONSE: while SMB_ALERT_N is low the target answers with its address in bits [7:1]; otherwise nobody does.
Assumption log 31, PRESUMED. -/
def execSmbAlertResponse (s : State) : Res :=
  .next (if s.smbAlertLow then s.smbAnswer [0x19] (leBytes 1 (2 * s.smbAddress)) false else s.smbAnswer [0x19] [] true)

end Sys2Proof.Machine
end

