-- ==== Sys2Proof/Machine/Writes.lean ====
section
/-!
DEFINITION. Writes of BAR0 registers (R395, R403 to R405, R425, R434 to R437, R439, R441, R461, R462, R477, R482 to R485, R488).
-/

namespace Sys2Proof.Machine

/-! ### The fault collector's registers (R439, R441, R461, R462) -/

/-- Sources that a write of FLT_FORCE word `n` names. Assumption log 35, DEDUCED. -/
def forceSrcs (n : Nat) : List Nat := (range2 (32 * n) (32 * n + 32)).filter fun k => !fltReserved k

/-- The unit on the line of a forced source that several units share is left open (R440). Assumption log 35, DEDUCED. -/
def State.forcedUnit (s : State) (n : Nat) : Nat × State :=
  match fltKind n, fltOwn n with
  | some k, none =>
    let (v, s) := s.drawBelow (k.range.2 - k.range.1)
    (k.range.1 + v, s)
  | _, _ => (0, s)

/-- Events of the sources whose force bits rise. -/
def State.forceEvents : List Nat → State → List FaultEv × State
  | [], s => ([], s)
  | n :: ns, s =>
    let (u, s) := s.forcedUnit n
    let (es, s) := State.forceEvents ns s
    ({ src := n, unit := u } :: es, s)

/-- Word `n` of FLT_FORCE takes a value: sources whose live level rises have an event, all in one cycle (R439, R461).
Assumption log 35, DEDUCED. -/
def State.setForce (s : State) (n : Nat) (w : Nat) : State :=
  let ups := (forceSrcs n).filter fun k => bitOf w (k - 32 * n) && !s.flt.force.get false k
  let (es, s) := State.forceEvents ups s
  let s := s.raiseAll es true
  { s with flt := { s.flt with
      force := (forceSrcs n).foldl (fun t k => t.set false k (bitOf w (k - 32 * n))) s.flt.force } }

/-- FLT_FORCE. -/
def execFltForce (n : Nat) (w : Word) (s : State) : Res :=
  .next (if s.awake ∧ n < 16 then s.setForce n w.toNat else s)

/-- FLT_ACK: the named source's mark clears (R441, R462). -/
def execFltAck (src : Nat) (s : State) : Res := .next (if s.awake then s.clearMark src else s)

/-- FLT_ACK with ALL (R462). -/
def execFltAckAll (s : State) : Res :=
  .next (if s.awake then { s with flt := { s.flt with mark := [] } } else s)

/-! ### Writes by access type (R484, R488) -/

/-- The state that a command with no stop leaves. -/
def resState (s : State) : Res → State
  | .next t => t
  | _ => s

/-- A word of SEC (R108, R109). -/
def State.writeSec (s : State) (off w : Nat) : State :=
  if off = 0x30004 then
    match w % 4 with
    | 1 => resState s (execFuseBurnOwner (w / 2 ^ 16) s)
    | 2 => resState s (execFuseBurnDebugClose (w / 2 ^ 16) s)
    | 3 => if s.sec.burn.isSome then s else s.burnResult burnRefused
    | _ => if s.sec.burn.isSome ∨ w / 2 ^ 16 = burnConfirm then s else s.burnResult burnRefused
  else match entryOf off 0x30080 4 16 with
    | some n => { s with sec := { s.sec with stage := s.sec.stage.set 0 n (BitVec.ofNat 32 w) } }
    | none => s

/-- A word of IRQ (R434 to R437). -/
def State.writeIrq (s : State) (off w : Nat) : State :=
  if off = 0x42000 then (if w % 16 ≤ 8 then { s with irq := { s.irq with split := w % 16 } } else s)
  else if off = 0x42004 then resState s (execIrqHostAck (w % 64) s)
  else if off = 0x42008 then resState s (execIrqSwSet (w % 64) s)
  else match entryOf off 0x40000 4 1024, entryOf off 0x41000 4 1024, entryOf off 0x42100 4 68 with
    | some n, _, _ => resState s (execIrqSrcCfg n (BitVec.ofNat 32 w) s)
    | _, some n, _ =>
      if bitOf w 16 && !irqReserved n then s.setIrqSrc n { s.irqSrc n with sat := false, count := 0 } else s
    | _, _, some t =>
      s.setIrqTgt t { s.irqTgt t with
        altEn := bitOf w 31, altTgt := bitsOf w 24 7, altDelay := bitsOf w 14 10, interval := bitsOf w 0 10 }
    | _, _, _ => s

/-- A word of FLT (R461, R462). -/
def State.writeFlt (s : State) (off w : Nat) : State :=
  if off = 0x50100 then resState s (if bitOf w 31 then execFltAckAll s else execFltAck (bitsOf w 0 9) s)
  else if off = 0x50104 then
    (if bitOf w 30 then { s with flt := { s.flt with escSat := false, esc := 0 } } else s)
  else match entryOf off 0x50000 4 16, entryOf off 0x50080 4 16 with
    | some n, _ =>
      { s with flt := { s.flt with
          sticky := (range2 (32 * n) (32 * n + 32)).foldl (fun t k =>
            if bitOf w (k - 32 * n) then t.set false k false else t) s.flt.sticky } }
    | _, some n => s.setForce n w
    | _, _ => s

/-- A word of an MSI-X vector's entry (R408, R411). -/
def State.writeMsix (s : State) (v field w : Nat) : State :=
  let set (f : MsixVec → MsixVec) : State := { s with pcie := { s.pcie with msix := s.pcie.msix.upd {} v f } }
  match field with
  | 0 => set fun m => { m with addr := m.addr / 2 ^ 32 * 2 ^ 32 + w }
  | 1 => set fun m => { m with addr := w * 2 ^ 32 + m.addr % 2 ^ 32 }
  | 2 => set fun m => { m with data := w }
  | _ => resState s (execMsixMask (.vector v (bitOf w 0)) s)

/-- A word of MBX (R431, R432). -/
def State.writeMbx (s : State) (off w : Nat) : State :=
  if off = 0x60000 then s.setLayout (bitOf w 0)
  else if off = 0x60020 then
    match bitsOf w 30 2 with
    | 0 => s.requestAbort (.command (w % 65536))
    | 1 => s.requestAbort (.drain 0)
    | 2 => s.requestAbort (.drain 1)
    | _ => s
  else if 0x68000 ≤ off ∧ off < 0x68400 then s.writeMsix ((off - 0x68000) / 16) (off % 16 / 4) w
  else s

/-- A word of FAB (R111, R113). Reserved bits read 0 (R488). -/
def State.writeFab (s : State) (off w : Nat) : State :=
  if off = 0x70000 then (if bitOf w 0 then resState s (execFabLock s) else s)
  else if off = 0x70004 then resState s (execFabUnfreeze (w % 256) s)
  else if 0x78000 ≤ off ∧ off < 0x78000 + 0x80 * 0xC6 then
    let m := (off - 0x78000) / 0x80
    let f := off % 16 / 4
    if s.fab.lock || !masterIssued m || decide (3 ≤ f) then s
    else
      let v := if f = 2 then w % 16 else w % 2 ^ 24
      { s with fab := { s.fab with win := s.fab.win.set 0 (winKey m (off % 0x80 / 16) f) v } }
  else s

/-- A word of ROTA (R147, R148, R151). -/
def State.writeRota (s : State) (off w : Nat) : State :=
  if off = 0x100000 then
    (if s.rota.started then s else { s with rota := { s.rota with startNoLock := bitOf w 0 } })
  else if off = 0x100010 then
    { s with ptp := { s.ptp with holdoverS := bitsOf w 24 8, ppsInEn := bitOf w 16, stepUs := bitsOf w 0 16 } }
  else if off = 0x100014 then (if bitOf w 16 then { s with ptp := { s.ptp with stepped := false } } else s)
  else match entryOf off 0x102000 4 192 with
    | some ch =>
      if bitOf w 31 then
        { s with rota := { s.rota with skipSat := s.rota.skipSat.set false ch false, skipped := s.rota.skipped.set 0 ch 0 } }
      else s
    | none => s

/-- A word of an RC instance, part `p` (R245). -/
def State.writeRc (s : State) (ch p o w : Nat) : State :=
  if o = 0x10 ∧ bitOf w 31 then
    let v := s.rcOf ch
    s.setRc ch { v with debtSat := v.debtSat.set false p false }
  else s

/-- A word of a decode context's instance (R281). -/
def State.writeDcx (s : State) (x o w : Nat) : State :=
  if o = 0x18 then resState s (execDecFeed x (bitOf w 31) (w % 2 ^ 26) s)
  else if o = 0x28 then resState s (execDecRelease x (w % 32) s)
  else s

/-- A word of HBM instance `k` (R375, R377). -/
def State.writeHbm (s : State) (k o w : Nat) : State :=
  if o = 0xC then (if bitOf w 31 then s.setStack k { s.stack k with maxHit := false } else s)
  else match entryOf o 0x100 4 32 with
    | some n =>
      let g := 32 * k + n
      let p := s.pc g
      let p := if bitOf w 22 then { p with ceSat := false, ce := 0 } else p
      s.setPc g (if bitOf w 21 then { p with ueSat := false, ue := 0 } else p)
    | none => s

/-- A word of a DMA channel (R395, R403 to R405): host writes are ignored, and the settings while a transfer is under way. A write of
CTL with ABORT writes nothing more of the transfer out. -/
def State.writeDmaCh (s : State) (who : Requester) (n r w : Nat) : State :=
  let c := s.dma n
  let set (v : DmaCh) : State := if c.st.active then s else s.setDma n v
  match who with
  | .host => s
  | .steward =>
    match r with
    | 0 => set { c with src := c.src / 2 ^ 32 * 2 ^ 32 + w }
    | 1 => set { c with src := w % 64 * 2 ^ 32 + c.src % 2 ^ 32 }
    | 2 => set { c with dst := c.dst / 2 ^ 32 * 2 ^ 32 + w }
    | 3 => set { c with dst := w % 64 * 2 ^ 32 + c.dst % 2 ^ 32 }
    | 4 => set { c with len := w }
    | 5 => set { c with
        fifo := bitsOf w 22 10, event := bitsOf w 12 8, trig := bitsOf w 10 2, dstW := bitsOf w 4 3, srcW := bitsOf w 0 3 }
    | 6 =>
      let s := if bitOf w 1 then resState s (execDmaAbort n c.done s) else s
      if bitOf w 0 then resState s (execDmaStart n s) else s
    | 9 => s.setDma n { c with limit := w % 16 }
    | _ => s

/-- A word of DMA (R403 to R407). -/
def State.writeDma (s : State) (who : Requester) (off w : Nat) : State :=
  let o := off - 0x2C00000
  if o < 0x40 * 68 then s.writeDmaCh who (o / 0x40) (o % 0x40 / 4) w
  else if 0x10000 ≤ o ∧ o < 0x14000 then
    let f := (o - 0x10000) / 0x10
    if (fifoKind f).isNone then s
    else if o % 0x10 = 0 then (if bitOf w 0 then resState s (execDmaFifoFlush f s) else s)
    else if o % 0x10 = 4 then
      let v := s.fifo f
      s.setFifo f { v with
        under := v.under && !bitOf w 31, ovf := v.ovf && !bitOf w 30, itemsSat := v.itemsSat && !bitOf w 29 }
    else s
  else s

/-- A 4-byte write that reached its block: by the access types of the register's fields; a register that is read only, and a reserved
offset, ignores it (R477, R482, R484). Assumption log 37, DEDUCED. -/
def State.write4 (s : State) (who : Requester) (off w : Nat) : State :=
  if !s.regRuns off then s
  else if off < 0x10000 then s
  else if off < 0x20000 then
    match entryOf off 0x10000 4 59, entryOf off 0x10200 4 59 with
    | some n, _ => resState s (execPwrIslReq n (w % 8) s)
    | _, some n => resState s (execPwrIslFreq n (w % 65536) s)
    | _, _ => s
  else if off < 0x30000 then s
  else if off < 0x40000 then s.writeSec off w
  else if off < 0x50000 then s.writeIrq off w
  else if off < 0x60000 then s.writeFlt off w
  else if off < 0x70000 then s.writeMbx off w
  else if off < 0x80000 then s.writeFab off w
  else if off < 0x100000 then s
  else if off < 0x200000 then s.writeRota off w
  else if off = 0x200010 then resState s (execIngDb (BitVec.ofNat 32 w) s)
  else if 0x1800000 ≤ off ∧ off < 0x1830000 then s.writeRc ((off - 0x1800000) / 0x400) (off % 0x400 / 0x200) (off % 0x200) w
  else if 0x1E40000 ≤ off ∧ off < 0x1E44000 then s.writeDcx ((off - 0x1E40000) / 0x100) (off % 0x100) w
  else if 0x2800000 ≤ off ∧ off < 0x2C00000 then s.writeHbm ((off - 0x2800000) / 0x200000) (off % 0x200000) w
  else if 0x2C00000 ≤ off ∧ off < 0x3000000 then s.writeDma who off w
  else s

/-- REGISTER_WRITE: an aligned write of 4 bytes, or of 8 bytes, the lower word first; any other size or alignment, or a partial byte
enable, has no effect (R483, R484, R489). -/
def execRegisterWrite (who : Requester) (off size : Nat) (val : BitVec 64) (s : State) (partialBe : Bool := false) : Res :=
  .next (
    if !s.reaches who ∨ bar0Len ≤ off then s.offBar0 who
    else if partialBe then s.refusedAccess who
    else if size = 4 ∧ off % 4 = 0 then (s.write4 who off (val.toNat % 2 ^ 32)).answered who
    else if size = 8 ∧ off % 8 = 0 then
      ((s.write4 who off (val.toNat % 2 ^ 32)).write4 who (off + 4) (val.toNat / 2 ^ 32)).answered who
    else s.refusedAccess who)

end Sys2Proof.Machine
end

