-- ==== Sys2Proof/Machine/Dispatch.lean ====
section
/-!
DEFINITION. The command to meaning dispatch: one arm per row of spec/opcode_table.json.
-/

namespace Sys2Proof.Machine

/-- The effect of a command on everything but the queue. -/
def exec (i : Instr) (s : State) : Host.Outcome State Fault Refusal :=
  match i with
  | .porRelease p ecc => Sys2Proof.Machine.execPorRelease p ecc s
  | .railBelowThreshold r => Sys2Proof.Machine.execRailBelowThreshold r s
  | .resetNAssert lowNs => Sys2Proof.Machine.execResetNAssert lowNs s
  | .resetNRelease compat => Sys2Proof.Machine.execResetNRelease compat s
  | .perstNAssert lowNs => Sys2Proof.Machine.execPerstNAssert lowNs s
  | .perstNRelease compat => Sys2Proof.Machine.execPerstNRelease compat s
  | .restartEnterReset => Sys2Proof.Machine.execRestartEnterReset s
  | .restartLeaveReset compat => Sys2Proof.Machine.execRestartLeaveReset compat s
  | .clkSysLoss absentNs => Sys2Proof.Machine.execClkSysLoss absentNs s
  | .ethRefclkLoss absentNs => Sys2Proof.Machine.execEthRefclkLoss absentNs s
  | .pcieRefclkLoss => Sys2Proof.Machine.execPcieRefclkLoss s
  | .pcieLinkDown c => Sys2Proof.Machine.execPcieLinkDown c s
  | .pcieL1Exit => Sys2Proof.Machine.execPcieL1Exit s
  | .thermtrip ts tj => Sys2Proof.Machine.execThermtrip ts tj s
  | .thermalWarn ts tj => Sys2Proof.Machine.execThermalWarn ts tj s
  | .thermalCrit ts tj => Sys2Proof.Machine.execThermalCrit ts tj s
  | .ppsInEdge highNs => Sys2Proof.Machine.execPpsInEdge highNs s
  | .powerOnHour tj writeOk => Sys2Proof.Machine.execPowerOnHour tj writeOk s
  | .slotCheck slot rd => Sys2Proof.Machine.execSlotCheck slot rd s
  | .hbmTrainingComplete working => Sys2Proof.Machine.execHbmTrainingComplete working s
  | .imageSectionsCopied => Sys2Proof.Machine.execImageSectionsCopied s
  | .tablesLoaded => Sys2Proof.Machine.execTablesLoaded s
  | .rotaStart => Sys2Proof.Machine.execRotaStart s
  | .sheafRunStart lane idx hp => Sys2Proof.Machine.execSheafRunStart lane idx hp s
  | .catchupRunStart lane idx => Sys2Proof.Machine.execCatchupRunStart lane idx s
  | .gleanRunStart lane idx => Sys2Proof.Machine.execGleanRunStart lane idx s
  | .runOverrun lane => Sys2Proof.Machine.execRunOverrun lane s
  | .rotaBacklog ch part frame sheaf => Sys2Proof.Machine.execRotaBacklog ch part frame sheaf s
  | .sheafPass lane parsed => Sys2Proof.Machine.execSheafPass lane parsed s
  | .threshFail lane parsed => Sys2Proof.Machine.execThreshFail lane s parsed
  | .residueMismatch lane value residue => Sys2Proof.Machine.execResidueMismatch lane s value residue
  | .gleanResult lane err failed => Sys2Proof.Machine.execGleanResult lane err failed s
  | .decodeRunStart dlane idx work writes => Sys2Proof.Machine.execDecodeRunStart dlane idx work s writes
  | .decodeRunStop dlane => Sys2Proof.Machine.execDecodeRunStop dlane s
  | .decodeGleanRun dlane idx err failed => Sys2Proof.Machine.execDecodeGleanRun dlane idx err failed s
  | .decWatchdog dlane => Sys2Proof.Machine.execDecWatchdog dlane s
  | .reorderTimeout dcx seq => Sys2Proof.Machine.execReorderTimeout dcx seq s
  | .clockStep => Sys2Proof.Machine.execClockStep s
  | .syncTimeout => Sys2Proof.Machine.execSyncTimeout s
  | .announceTimeout => Sys2Proof.Machine.execAnnounceTimeout s
  | .holdoverExpiry => Sys2Proof.Machine.execHoldoverExpiry s
  | .portLinkDown port => Sys2Proof.Machine.execPortLinkDown port s
  | .portRetrainDone port trained => Sys2Proof.Machine.execPortRetrainDone port trained s
  | .serdesBerWindow ber => Sys2Proof.Machine.execSerdesBerWindow ber s
  | .laneSubstitution port => Sys2Proof.Machine.execLaneSubstitution port s
  | .frameReceive port bytes fcsOk => Sys2Proof.Machine.execFrameReceive port bytes fcsOk s
  | .parseStart port => Sys2Proof.Machine.execParseStart port s
  | .ext pe => Sys2Proof.Machine.execExt pe s
  | .key pe => Sys2Proof.Machine.execKey pe s
  | .keyi pe => Sys2Proof.Machine.execKeyi pe s
  | .alu pe => Sys2Proof.Machine.execAlu pe s
  | .br pe => Sys2Proof.Machine.execBr pe s
  | .hdr pe => Sys2Proof.Machine.execHdr pe s
  | .len pe => Sys2Proof.Machine.execLen pe s
  | .lkp pe => Sys2Proof.Machine.execLkp pe s
  | .lookupResult pe => Sys2Proof.Machine.execLookupResult pe s
  | .exc pe => Sys2Proof.Machine.execExc pe s
  | .done pe m pop => Sys2Proof.Machine.execDone pe m s pop
  | .vftRows port => Sys2Proof.Machine.execVftRows port s
  | .apertureWrite => Sys2Proof.Machine.execApertureWrite s
  | .ingDb w => Sys2Proof.Machine.execIngDb w s
  | .doorbell => Sys2Proof.Machine.execDoorbell s
  | .sheafDue ch hp frame sheaf => Sys2Proof.Machine.execSheafDue ch hp frame sheaf s
  | .sheafReady ch frame sheaf => Sys2Proof.Machine.execSheafReady ch frame sheaf s
  | .pfcRepeat port => Sys2Proof.Machine.execPfcRepeat port s
  | .rtcpPacket authOk msgs => Sys2Proof.Machine.execRtcpPacket authOk msgs s
  | .pass1 ch => Sys2Proof.Machine.execPass1 ch s
  | .pass1Resume => Sys2Proof.Machine.execPass1Resume s
  | .buildStage agree => Sys2Proof.Machine.execBuildStage agree s
  | .calendarBucket port => Sys2Proof.Machine.execCalendarBucket port s
  | .gateEntry port entry => Sys2Proof.Machine.execGateEntry port entry s
  | .schedulerSelect port same => Sys2Proof.Machine.execSchedulerSelect port s same
  | .sealStage port o => Sys2Proof.Machine.execSealStage port o s
  | .bodyFree ptr => Sys2Proof.Machine.execBodyFree ptr s
  | .stashMove slot => Sys2Proof.Machine.execStashMove slot s
  | .rulesetFlip => Sys2Proof.Machine.execRulesetFlip s
  | .rulesetRetire => Sys2Proof.Machine.execRulesetRetire s
  | .refreshDue g readsQueued => Sys2Proof.Machine.execRefreshDue g readsQueued s
  | .scrubRead addr e passEnd => Sys2Proof.Machine.execScrubRead addr e passEnd s
  | .granaryAccess accs e cyc => Sys2Proof.Machine.execGranaryAccess accs e s cyc
  | .drainStart stack => Sys2Proof.Machine.execDrainStart stack s
  | .drainSwap stack => Sys2Proof.Machine.execDrainSwap stack s
  | .trainingGatherEnd stack => Sys2Proof.Machine.execTrainingGatherEnd stack s
  | .trainingDone stack ok => Sys2Proof.Machine.execTrainingDone stack ok s
  | .hbmResume stack working => Sys2Proof.Machine.execHbmResume stack working s
  | .fabricTransaction reqs => Sys2Proof.Machine.execFabricTransaction reqs s
  | .scratchpadAccess accs e => Sys2Proof.Machine.execScratchpadAccess accs e s
  | .dmaFifoLevelStart ch cycles => Sys2Proof.Machine.execDmaFifoLevelStart ch s cycles
  | .dmaComplete ch => Sys2Proof.Machine.execDmaComplete ch s
  | .dmaBeatError ch written ue => Sys2Proof.Machine.execDmaBeatError ch written s ue
  | .faultEvent evs => Sys2Proof.Machine.execFaultEvent evs s
  | .spareAdmissionDone decode lane err failed => Sys2Proof.Machine.execSpareAdmissionDone decode lane err failed s
  | .laneRebind decode lane => Sys2Proof.Machine.execLaneRebind decode lane s
  | .stewardTakeover core => Sys2Proof.Machine.execStewardTakeover core s
  | .srtpRemap sp => Sys2Proof.Machine.execSrtpRemap sp s
  | .quarantineTestEnd unit passed err => Sys2Proof.Machine.execQuarantineTestEnd unit passed s err
  | .stwWatchdog core => Sys2Proof.Machine.execStwWatchdog core s
  | .stewardLoad => Sys2Proof.Machine.execStewardLoad s
  | .irqEvent src level held => Sys2Proof.Machine.execIrqEvent src level s held
  | .irqDelivery tgt => Sys2Proof.Machine.execIrqDelivery tgt s
  | .irqModerationEnd tgt => Sys2Proof.Machine.execIrqModerationEnd tgt s
  | .irqRedirect tgt => Sys2Proof.Machine.execIrqRedirect tgt s
  | .unitBoundary isl => Sys2Proof.Machine.execUnitBoundary isl s
  | .islandTransitionDone isl => Sys2Proof.Machine.execIslandTransitionDone isl s
  | .flashOpDone ok => Sys2Proof.Machine.execFlashOpDone ok s
  | .fuseBurnDone readback debugOnes => Sys2Proof.Machine.execFuseBurnDone readback debugOnes s
  | .mbxSqDb tail => Sys2Proof.Machine.execMbxSqDb tail s
  | .mbxCqDb head => Sys2Proof.Machine.execMbxCqDb head s
  | .mbxCtrl w => Sys2Proof.Machine.execMbxCtrl w s
  | .mbxAbort tag => Sys2Proof.Machine.execMbxAbort tag s
  | .abortDrain stack => Sys2Proof.Machine.execAbortDrain stack s
  | .sessionOpen h a => Sys2Proof.Machine.execSessionOpen h a s
  | .sessionOpenContext h a => Sys2Proof.Machine.execSessionOpenContext h a s
  | .sessionClose h ch rsvOk => Sys2Proof.Machine.execSessionClose h ch rsvOk s
  | .sessionCloseContext h dcx rsvOk => Sys2Proof.Machine.execSessionCloseContext h dcx rsvOk s
  | .deliveryAdd h a => Sys2Proof.Machine.execDeliveryAdd h a s
  | .deliveryDel h handle => Sys2Proof.Machine.execDeliveryDel h handle s
  | .keyImport h src len blob => Sys2Proof.Machine.execKeyImport h src len blob s
  | .keyErase h slot => Sys2Proof.Machine.execKeyErase h slot s
  | .targetSet h ch value => Sys2Proof.Machine.execTargetSet h ch value s
  | .targetSetDelivery h handle value => Sys2Proof.Machine.execTargetSetDelivery h handle value s
  | .rulesetSwap h idx => Sys2Proof.Machine.execRulesetSwap h idx s
  | .islandState h isl st => Sys2Proof.Machine.execIslandState h isl st s
  | .islandFreq h isl mhz => Sys2Proof.Machine.execIslandFreq h isl mhz s
  | .attest h nonceSrc dst => Sys2Proof.Machine.execAttest h nonceSrc dst s
  | .imageWriteProgram h slot off len src => Sys2Proof.Machine.execImageWriteProgram h slot off len src s
  | .imageWriteErase h slot off len => Sys2Proof.Machine.execImageWriteErase h slot off len s
  | .imageWriteVerify h slot rd => Sys2Proof.Machine.execImageWriteVerify h slot rd s
  | .restart h => Sys2Proof.Machine.execRestart h s
  | .faultAck h src => Sys2Proof.Machine.execFaultAck h src s
  | .statsRead h off dst len => Sys2Proof.Machine.execStatsRead h off dst len s
  | .reservedOpcode h opcode => Sys2Proof.Machine.execReservedOpcode h opcode s
  | .openStream h ch width height target => Sys2Proof.Machine.execOpenStream h ch width height target s
  | .closeStream h ch => Sys2Proof.Machine.execCloseStream h ch s
  | .addDest h a => Sys2Proof.Machine.execAddDest h a s
  | .delDest h handle => Sys2Proof.Machine.execDelDest h handle s
  | .loadKey h src len slot blob => Sys2Proof.Machine.execLoadKey h src len slot blob s
  | .setBitrate h ch value => Sys2Proof.Machine.execSetBitrate h ch value s
  | .getStats h ch dst len => Sys2Proof.Machine.execGetStats h ch dst len s
  | .clearAlarm h src => Sys2Proof.Machine.execClearAlarm h src s
  | .flashWrite h addr len src => Sys2Proof.Machine.execFlashWrite h addr len src s
  | .reboot h => Sys2Proof.Machine.execReboot h s
  | .badOpcode h opcode => Sys2Proof.Machine.execBadOpcode h opcode s
  | .fuseBurnOwner confirm => Sys2Proof.Machine.execFuseBurnOwner confirm s
  | .fuseBurnDebugClose confirm => Sys2Proof.Machine.execFuseBurnDebugClose confirm s
  | .fabUnfreeze m => Sys2Proof.Machine.execFabUnfreeze m s
  | .fabLock => Sys2Proof.Machine.execFabLock s
  | .fabViolLastRead => Sys2Proof.Machine.execFabViolLastRead s
  | .secKeyStatRead => Sys2Proof.Machine.execSecKeyStatRead s
  | .rotaTimeNsRead => Sys2Proof.Machine.execRotaTimeNsRead s
  | .counterLowRead who off size => Sys2Proof.Machine.execCounterLowRead who off s size
  | .decFeed dcx loss len => Sys2Proof.Machine.execDecFeed dcx loss len s
  | .decRelease dcx buf => Sys2Proof.Machine.execDecRelease dcx buf s
  | .dmaStart ch => Sys2Proof.Machine.execDmaStart ch s
  | .dmaAbort ch written => Sys2Proof.Machine.execDmaAbort ch written s
  | .dmaFifoFlush f ops => Sys2Proof.Machine.execDmaFifoFlush f s ops
  | .irqHostAck v => Sys2Proof.Machine.execIrqHostAck v s
  | .irqSwSet n => Sys2Proof.Machine.execIrqSwSet n s
  | .irqSrcCfg n w => Sys2Proof.Machine.execIrqSrcCfg n w s
  | .msixMask w => Sys2Proof.Machine.execMsixMask w s
  | .fltForce n w => Sys2Proof.Machine.execFltForce n w s
  | .fltAck src => Sys2Proof.Machine.execFltAck src s
  | .fltAckAll => Sys2Proof.Machine.execFltAckAll s
  | .pwrIslReq n st => Sys2Proof.Machine.execPwrIslReq n st s
  | .pwrIslFreq n mhz => Sys2Proof.Machine.execPwrIslFreq n mhz s
  | .registerWrite who off size val be => Sys2Proof.Machine.execRegisterWrite who off size val s be
  | .smbReadHottestTj => Sys2Proof.Machine.execSmbReadHottestTj s
  | .smbReadHottestIndex => Sys2Proof.Machine.execSmbReadHottestIndex s
  | .smbReadPower => Sys2Proof.Machine.execSmbReadPower s
  | .smbReadState => Sys2Proof.Machine.execSmbReadState s
  | .smbReadThermalStatus => Sys2Proof.Machine.execSmbReadThermalStatus s
  | .smbReadSensorTj code => Sys2Proof.Machine.execSmbReadSensorTj code s
  | .smbReadRailCurrent code => Sys2Proof.Machine.execSmbReadRailCurrent code s
  | .smbUnknownCommand code n => Sys2Proof.Machine.execSmbUnknownCommand code n s
  | .smbAlertResponse => Sys2Proof.Machine.execSmbAlertResponse s
  | .tapReset => Sys2Proof.Machine.execTapReset s
  | .extest load => Sys2Proof.Machine.execExtest s load
  | .samplePreload load => Sys2Proof.Machine.execSamplePreload s load
  | .idcode => Sys2Proof.Machine.execIdcode s
  | .highz => Sys2Proof.Machine.execHighz s
  | .clamp => Sys2Proof.Machine.execClamp s
  | .extestPulse load => Sys2Proof.Machine.execExtestPulse s load
  | .extestTrain load => Sys2Proof.Machine.execExtestTrain s load
  | .dbgSteward => Sys2Proof.Machine.execDbgSteward s
  | .dbgFabric => Sys2Proof.Machine.execDbgFabric s
  | .bypass => Sys2Proof.Machine.execBypass s
  | .apertureTlpArrival off rd bytes pop => Sys2Proof.Machine.execApertureTlpArrival off rd s bytes pop
  | .pcieLinkUp => Sys2Proof.Machine.execPcieLinkUp s
  | .configurationRequest r => Sys2Proof.Machine.execConfigurationRequest r s
  | .delayReqTransmit => Sys2Proof.Machine.execDelayReqTransmit s
  | .thermalAlertClears ts tj => Sys2Proof.Machine.execThermalAlertClears ts tj s
  | .stackTemperatureReport stack temp => Sys2Proof.Machine.execStackTemperatureReport stack temp s
  | .dmaFifoLevelPause ch words => Sys2Proof.Machine.execDmaFifoLevelPause ch words s
  | .stewardCoreWfi core => Sys2Proof.Machine.execStewardCoreWfi core s

end Sys2Proof.Machine
end

