-- ==== Sys2Proof/Machine/Tick.lean ====
section
/-!
DEFINITION. The tick: what one cycle of the AON clock does when no command waits.
-/

namespace Sys2Proof.Machine

/-- Slew of one AON cycle in half-picoseconds: a free value among -1, 0 and 1, since PTP time slews at most 200 ppm of the
2.5 ns cycle (R143). Assumption log 2, DESIGN CHOICE. -/
def State.slew (s : State) : Nat × State :=
  let (v, s) := s.drawBelow 3
  (4999 + v, s)

/-- A cycle of holdover: time runs at the averaged frequency, and slews towards 1PPS_IN where it steers, by `n` half-picoseconds in that
direction; answers the cycle's advance (R142, R143). -/
def Ptp.coast (v : Ptp) (n : Nat) : Nat × Ptp :=
  let sum := v.acc + 4999000000 + v.freq
  let d := max 4999 (min 5001 (sum / 1000000))
  let t := if 0 < v.phase then max 4999 (d - n) else if v.phase < 0 then min 5001 (d + n) else d
  (t, { v with acc := sum % 1000000, phase := v.phase + ((t : Int) - d) })

/-- A cycle of holdover, its slew a free value between 0 and 200 ppm (R142, R143). Assumption log 2, DESIGN CHOICE. -/
def State.coast (s : State) : Nat × State :=
  let (n, s) := s.drawBelow 2
  let (t, v) := s.ptp.coast n
  (t, { s with ptp := v })

/-- One AON cycle (R33, R142, R143, R147, R455): the cycle count advances, a ledger write in progress ends and, while the PTP time unit
runs, PTP time advances. Assumption log 2, DESIGN CHOICE. -/
def State.tick (s : State) : State :=
  let s := { s with time := { s.time with aon := s.time.aon + 1 }, led := s.led.settle }
  if s.time.running then
    let (d, s) := if s.ptp.lock = 2 then s.coast else s.slew
    s.timeTo (s.time.ptp + d)
  else s

end Sys2Proof.Machine
end

