-- ==== Sys2Proof/Safety.lean ====
section
/-!
DEFINITION. The terms in which claims are stated: a command completes, what is sensed is burned, and the memories are in their
canonical form.
-/

namespace Sys2Proof.Machine

/-- The command answers a next state. -/
def completes (c : Instr) (s t : State) : Prop := exec c s = .next t

/-- What AON holds as set or closed is burned in the fuse array, and each control fuse is stored three times (R81, R87, R100). -/
def State.FusesHold (s : State) : Prop :=
  s.sec.fuses.debugOnes ≤ 3 ∧ s.sec.fuses.ownerOnes ≤ 3 ∧ (s.sec.sensed.debugClosed = true → 2 ≤ s.sec.fuses.debugOnes)
    ∧ (s.sec.sensed.ownerSet = true → 2 ≤ s.sec.fuses.ownerOnes)

/-- The addressed memories are in their canonical form: the flash, the granary, the scratchpads, the BAR2 SRAM, and the bytes written
to host memory. -/
def State.memWf (s : State) : Bool :=
  Tbl.wf 0xFF s.flash && Tbl.wf 0 s.hbm.mem && Tbl.wf 0 s.chip.mem && Tbl.wf 0 s.bar2 && Tbl.wf 0 s.host

/-- The flash is in its canonical form, and a flash operation's range lies in a slot, with as many bytes of data as it is long (R55, R67). -/
def State.flashHeld (s : State) : Prop :=
  Tbl.wf 0xFF s.flash = true
    ∧ ∀ o, s.flashOp = some o →
      (∃ k, k < 2 ∧ slotBase k ≤ o.base ∧ o.base + o.len ≤ slotBase k + slotLen) ∧ ∀ bs, o.data = some bs → bs.length = o.len

/-- A mailbox command as its entry spells it, without what it reads elsewhere (R411, R415). -/
def bareCommand (i : Instr) : Instr :=
  match i with
  | .keyImport h src len _ => .keyImport h src len []
  | .loadKey h src len slot _ => .loadKey h src len slot []
  | .imageWriteVerify h slot _ => .imageWriteVerify h slot noReads
  | i => i

/-- It is the command's turn: no earlier one that names its object waits, and it is a job that has not begun, whose entry spells it
without a reserved bit, or no job has its TAG and the work queue has room for it (R78, R413, R421). -/
def State.turn (s : State) (i : Instr) (h : CmdHdr) : Bool :=
  !s.behind h (bareCommand i) && (match s.jobOf h with
    | some j => !j.begun && !(j.cmd.any fun k => k != bareCommand i) && !j.badRsv
    | none => !s.fetched h && decide (s.mbx.jobs.length < 256))

/-- A mailbox command in a layout is served in RUN: no RESTART is pending, the steward's island runs, the command is a job or the
completion ring has room for its fetch, and it is its turn (R18, R70, R412, R413, R421, R476). -/
def State.serving (s : State) (i : Instr) (fenic : Bool) (h : CmdHdr) : Bool :=
  s.mbx.fenic == fenic && !s.glb.restartPend && s.glb.st == .run && !s.stopped 1 && (s.fetched h || !s.mbx.cqFull) && s.turn i h

end Sys2Proof.Machine
end

