-- ==== Sys2Proof/Certificates/Slice0/Obligations.lean ====
section
/-!
DEFINITION. The statements for the provers, family by family. Where a clause rests on a value or a behaviour that the model chose, its
docstring names the assumption log's entry.
-/

open Sys2Proof Sys2Proof.Machine

/-! ### Reset and power (02, 03) -/

/-- R41: a low level of 340 ns or longer on RESET_N or PERST_N resets, one of 300 ns or less never does, and one between either resets in
full or has no effect (the choice is a draw of the model's own counter, assumption log 4). -/
def Obligations.ResetPinFilter : Prop :=
  ∀ (s : State) (n : Nat),
    (340 ≤ n → ∃ t u, exec (.resetNAssert n) s = .next t ∧ t.glb.st = .reset ∧ t.pins.resetN = false
      ∧ exec (.perstNAssert n) s = .next u ∧ u.glb.st = .reset ∧ u.pins.perstN = false)
    ∧ (n ≤ 300 → exec (.resetNAssert n) s = .next s ∧ exec (.perstNAssert n) s = .next s)
    ∧ (300 < n → n < 340 →
      (exec (.resetNAssert n) s = exec (.resetNAssert 340) { s with free := s.free + 1 }
        ∨ exec (.resetNAssert n) s = .next { s with free := s.free + 1 })
      ∧ (exec (.perstNAssert n) s = exec (.perstNAssert 340) { s with free := s.free + 1 }
        ∨ exec (.perstNAssert n) s = .next { s with free := s.free + 1 }))

/-- R21, R36, R42, R69, R70, R87: what a DEV reset leaves when it interrupts no burn, no flash operation and, with the supplies, no ledger
write, for each of its causes: everything at its reset value, but for what the equation names. In RESET the cause that moved the device
there stands, and of causes of one AON cycle the first of power-on, RESET_N, PERST_N and RESTART. -/
def Obligations.DevResetLeaves : Prop :=
  ∀ (s : State) (n : Nat) (r : Rail), s.sec.burn = none → s.flashOp = none →
    let left (cause : Nat) (resetN perstN : Bool) : State :=
      { State.reset with
        glb := { s.glb with
          st := .reset, imgSlot := 0, restartPend := false
          cause := if s.glb.st ≠ .reset then cause else if s.glb.causeAt = s.time.aon then min s.glb.cause cause else s.glb.cause
          causeAt := if s.glb.st = .reset then s.glb.causeAt else s.time.aon }
        pins := { s.pins with xspiRst := false, resetN := resetN, perstN := perstN }
        therm := { s.therm with warn := [] }
        time := { aon := s.time.aon }
        flash := s.flash
        sec := { fuses := s.sec.fuses, sensed := s.sec.sensed, result := s.sec.result, tap := s.sec.tap, scan := s.sec.scan
                 dmReset := s.sec.dmReset }
        fab := { frozen := [(0xC5, true)] }
        led := s.led
        host := s.host
        outs := { s.outs with lastHost := none, lastStw := none, latch := [] }
        free := s.free
        pending := s.pending }
    (340 ≤ n → exec (.resetNAssert n) s = .next (left 1 false s.pins.perstN))
    ∧ (340 ≤ n → exec (.perstNAssert n) s = .next (left 2 s.pins.resetN false))
    ∧ (s.glb.restartPend = true →
        let t := left 3 s.pins.resetN s.pins.perstN
        exec .restartEnterReset s = .next { t with glb := { t.glb with restartHold := true } })
    ∧ (s.led.writing = none →
       let t := left 0 s.pins.resetN s.pins.perstN
       exec (.railBelowThreshold r) s = .next { t with
        glb := { t.glb with por := false, restartHold := false }
        pins := { t.pins with clkSys := true, thermtrip := if r = .vddAon then false else s.pins.thermtrip }
        sec := { fuses := s.sec.fuses } })

/-- R23, R37, R70, R81: RESET is left at the latest of the release of the power-on reset, RESET_N high and PERST_N high; COMPAT is sampled
then, and SMB_ADDR at the power-on release only, which also senses the fuses, the control fuses by majority. 1 ms after a RESTART has
moved the device into RESET it is free to leave, and LAST_RESET reads the cause that moved it there; the fuses are not sensed anew
(R81). -/
def Obligations.LeavingReset : Prop :=
  (∀ (s : State), s.glb.st = .reset → s.glb.restartHold = false →
       (∀ p e, s.glb.por = false → ∃ t, exec (.porRelease p e) s = .next t ∧ t.glb.smbAddr = p.smbAddr % 4
         ∧ t.glb.st = (if p.resetN && p.perstN then .load else .reset)
         ∧ (p.resetN = true → p.perstN = true → t.glb.compat = p.compat)
         ∧ t.sec.sensed.ownerSet = decide (2 ≤ s.sec.fuses.ownerOnes) ∧ t.sec.sensed.debugClosed = decide (2 ≤ s.sec.fuses.debugOnes)
         ∧ (e.serial = false → t.sec.sensed.serial = s.sec.fuses.serial) ∧ (e.owner = false → t.sec.sensed.owner = s.sec.fuses.owner))
       ∧ (∀ c, ∃ t, exec (.resetNRelease c) s = .next t ∧ t.glb.smbAddr = s.glb.smbAddr ∧ t.pins.resetN = true
         ∧ t.glb.st = (if s.glb.por && s.pins.perstN then .load else .reset)
         ∧ (s.glb.por = true → s.pins.perstN = true → t.glb.compat = c))
       ∧ (∀ c, ∃ t, exec (.perstNRelease c) s = .next t ∧ t.glb.smbAddr = s.glb.smbAddr ∧ t.pins.perstN = true
         ∧ t.glb.st = (if s.glb.por && s.pins.resetN then .load else .reset)
         ∧ (s.glb.por = true → s.pins.resetN = true → t.glb.compat = c))
       ∧ (∀ n t, exec (.resetNAssert n) s = .next t → t.glb.smbAddr = s.glb.smbAddr)
       ∧ (∀ n t, exec (.perstNAssert n) s = .next t → t.glb.smbAddr = s.glb.smbAddr))
  ∧ (∀ (s : State) (c : Bool), s.glb.st = .reset → s.glb.restartHold = true → s.glb.por = true → s.pins.resetN = true →
       s.pins.perstN = true →
       ∃ t, exec (.restartLeaveReset c) s = .next t ∧ t.glb.st = .load ∧ t.glb.lastReset = s.glb.cause ∧ t.glb.compat = c
         ∧ t.glb.restartHold = false ∧ t.cfg.phase = 1 ∧ t.mbx.fenic = c ∧ t.sec.sensed = s.sec.sensed ∧ t.pins.xspiRst = true)

/-- R29, R30, R34, R43, R44, R46, R408, R489: Losses of the reference clocks and of the link, the link's return, and configuration requests.
What a die sensor's report does beyond the temperature that it leaves: at 120 °C THERMTRIP_N is latched low and THERMAL_TRIP is raised,
with no other thermal action; at the thresholds the condition and its source's line are set, and the condition clears below them. A
warning's threshold has no place that the spec gives in the image: from 85 °C to 105 °C the report itself says (assumption log 30). -/
def Obligations.ClocksAndSensors : Prop :=
  (∀ (s : State) (n : Nat) (r : CfgReq),
       (s.glb.st = .run → 1000 < n →
         exec (.clkSysLoss n) s = .next ({ s with pins := { s.pins with clkSys := false } }.raise srcClkSys))
       ∧ (s.glb.st ≠ .reset → 1000 < n → exec (.ethRefclkLoss n) s = .next (((s.linkLost 0).linkLost 1).raise srcEthClk))
       ∧ (n ≤ 1000 → exec (.clkSysLoss n) s = .next s ∧ exec (.ethRefclkLoss n) s = .next s)
       ∧ (s.pcie.link = true → ∃ t, exec .pcieRefclkLoss s = .next t ∧ exec (.pcieLinkDown .linkDown) s = .next t
           ∧ exec (.pcieLinkDown .hotReset) s = .next t ∧ t.pcie = {} ∧ t.host = s.host)
       ∧ (s.pcie.link = true → ∃ t, exec (.pcieLinkDown .flr) s = .next t ∧ t.pcie = { link := true } ∧ t.flt = s.flt
           ∧ t.mbx.sqHead = 0 ∧ t.mbx.sqTail = 0 ∧ t.mbx.cqHead = 0 ∧ t.mbx.cqTail = 0 ∧ t.mbx.phase = true
           ∧ t.mbx.jobs.length = s.mbx.jobs.length ∧ (∀ a, 0x40000 ≤ a → a < 0x50000 → t.bar2.get 0 a = 0))
       ∧ (s.glb.st ≠ .reset → s.pins.perstN = true → s.stopped 8 = false →
           exec .pcieLinkUp s = .next { s with pcie := { s.pcie with link := true } })
       ∧ (s.pcie.link = true → s.stopped 8 = false → s.pcie.cfgReady = true →
           exec (.configurationRequest r) s = .next ({ s with pcie := { s.pcie with lastCpl := 1 } }.configure r))
       ∧ (s.pcie.link = true → s.stopped 8 = false → s.pcie.cfgReady = false →
           (exec (.configurationRequest r) s
               = .next ({ s with pcie := { s.pcie with cfgReady := true, lastCpl := 1 }, free := s.free + 1 }.configure r)
             ∨ exec (.configurationRequest r) s
               = .next { s with pcie := { s.pcie with lastCpl := 2 }, free := s.free + 1 })))
  ∧ (∀ (s : State) (ts : Nat) (tj : Int),
       let v := { s with therm := { s.therm with tj := s.therm.tj.set 0 ts tj } }
       (480 ≤ tj → s.pins.thermtrip = false → exec (.thermtrip ts tj) s
         = .next ({ v with pins := { v.pins with thermtrip := true } }.raise srcTrip))
       ∧ (480 ≤ tj → s.pins.thermtrip = true → exec (.thermtrip ts tj) s = .next v)
       ∧ (340 ≤ tj → s.cfg.loaded = true → s.glb.st ≠ .reset → exec (.thermalWarn ts tj) s
         = .next ({ v with therm := { v.therm with warn := s.therm.warn.set false ts true } }.setLine (srcWarn ts) true))
       ∧ (440 ≤ tj → s.glb.st ≠ .reset → exec (.thermalCrit ts tj) s
         = .next ({ v with therm := { v.therm with crit := s.therm.crit.set false ts true } }.setLine (srcCrit ts) true))
       ∧ (440 ≤ tj → s.glb.st = .reset → exec (.thermalCrit ts tj) s
         = .next { v with therm := { v.therm with crit := s.therm.crit.set false ts true } })
       ∧ (tj < 440 → ∃ t, exec (.thermalAlertClears ts tj) s = .next t ∧ t.therm.crit = s.therm.crit.set false ts false ∧ t.glb = s.glb)
       ∧ (tj < 340 → ∃ t, exec (.thermalAlertClears ts tj) s = .next t ∧ t.therm.tj = s.therm.tj.set 0 ts tj
           ∧ t.therm.warn = s.therm.warn.set false ts false ∧ t.therm.crit = s.therm.crit.set false ts false ∧ t.glb = s.glb))

/-! ### Temperature and the SMBus (02) -/

/-- R31, R47: The SMBus target's read commands. Each returns bytes, the low byte first, with the packet error check over them and the bytes
before them, and changes nothing else; a forced thermal source shows as a condition does. The estimates are the device's, free values
(assumption log 4), and of several hottest sensors the lowest-numbered is read (assumption log 90). The alert response. While
SMB_ALERT_N is low the part answers with its address, 0x4C plus the strap; the form of the byte is SMBus's own, and so is the missing
acknowledge when there is no alert (assumption log 31). -/
def Obligations.SmbusReads : Prop :=
  (∀ (s : State) (code n : Nat),
       let own := 2 * (0x4C + s.glb.smbAddr)
       let read (u : State) (c : Nat) (bs : List Byte) (nack : Bool) : State := { u with outs := { u.outs with
         smb := bs, smbNack := nack, smbPec := pecOf ([BitVec.ofNat 8 own, BitVec.ofNat 8 c, BitVec.ofNat 8 (own + 1)] ++ bs) } }
       let drawn : State := { s with free := s.free + 1 }
       let word (t : Int) : List Byte := leBytes 2 (t % 65536).toNat
       (∃ k, k < 16 ∧ (∀ j, j < 16 → s.therm.tj.get 0 j ≤ s.therm.tj.get 0 k) ∧ (∀ j, j < k → s.therm.tj.get 0 j < s.therm.tj.get 0 k)
         ∧ exec .smbReadHottestTj s = .next (read s 0x00 (word (s.therm.tj.get 0 k)) false)
         ∧ exec .smbReadHottestIndex s = .next (read s 0x01 [BitVec.ofNat 8 k] false))
       ∧ exec .smbReadPower s = .next (read drawn 0x02 (leBytes 2 (Config.powerEstimate s.free).toNat) false)
       ∧ exec .smbReadState s = .next (read s 0x03 [BitVec.ofNat 8 s.glb.st.code] false)
       ∧ (∃ w c : Bool, (w = true ↔ ∃ j, j < 16 ∧ (s.therm.warn.get false j = true ∨ s.flt.force.get false (0x130 + j) = true))
           ∧ (c = true ↔ ∃ j, j < 16 ∧ (s.therm.crit.get false j = true ∨ s.flt.force.get false (0x140 + j) = true))
           ∧ exec .smbReadThermalStatus s = .next (read s 0x04 [BitVec.ofNat 8 (bit w + 2 * bit c + 4 * bit s.pins.thermtrip)] false))
       ∧ (0x10 ≤ code → code ≤ 0x1F → exec (.smbReadSensorTj code) s = .next (read s code (word (s.therm.tj.get 0 (code - 0x10))) false))
       ∧ (0x20 ≤ code → code ≤ 0x28 →
           exec (.smbReadRailCurrent code) s = .next (read drawn code (leBytes 2 (Config.railCurrent (code - 0x20) s.free).toNat) false))
       ∧ (5 ≤ code → code < 0x10 ∨ 0x28 < code →
           exec (.smbUnknownCommand code n) s = .next (read s code (List.replicate n 0xFF) true)))
  ∧ (∀ (s : State) (j : Nat), j < 16 →
       let read (bs : List Byte) (nack : Bool) : State := { s with outs := { s.outs with
         smb := bs, smbNack := nack, smbPec := pecOf ([0x19] ++ bs) } }
       (s.therm.warn.get false j = true ∨ s.therm.crit.get false j = true ∨ s.flt.force.get false (0x130 + j) = true
           ∨ s.flt.force.get false (0x140 + j) = true →
         exec .smbAlertResponse s = .next (read [BitVec.ofNat 8 (2 * (0x4C + s.glb.smbAddr))] false))
       ∧ ((∀ i, i < 16 → s.therm.warn.get false i = false ∧ s.therm.crit.get false i = false ∧ s.flt.force.get false (0x130 + i) = false
           ∧ s.flt.force.get false (0x140 + i) = false) → exec .smbAlertResponse s = .next (read [] true)))

/-! ### JTAG and fuses (04) -/

/-- R50, R98, R99, R104, R106: Instructions of the test access port. They move nothing else of the device; Test-Logic-Reset loads IDCODE
(assumption log 32), and IDCODE shifts out the identity code; a scan of the boundary register captures the pins' levels and loads the
update latches (the cells' order and a level that the state does not hold: assumption log 80). The debug instructions. In TRAIN, RUN and
SAFE every key slot is emptied, a new internal key is drawn and DEBUG_OPEN is raised before the instruction becomes active; in RESET,
LOAD and LOADFAIL nothing of that happens; after closure by fuse they are BYPASS. DBG_FABRIC makes master 0xC5 active and not frozen. -/
def Obligations.JtagInstructions : Prop :=
  (∀ (s : State) (load : List Bool),
       let tap (code : Nat) : State := { s with sec := { s.sec with tap := code } }
       let scanned (code : Nat) : State := if load = [] then tap code else { s with
         free := s.free + 1
         outs := { s.outs with scan := scanCells.mapIdx (tap code).pinLevel }
         sec := { s.sec with tap := code, scan := (List.range scanCells.length).map fun i => (load[i]?).getD false } }
       exec .tapReset s = .next (tap 0x02)
       ∧ exec (.extest load) s = .next (scanned 0x00)
       ∧ exec (.samplePreload load) s = .next (scanned 0x01)
       ∧ exec .idcode s = .next { tap 0x02 with outs := { s.outs with idcode := 0x10192B5D } }
       ∧ exec .highz s = .next (tap 0x03)
       ∧ exec .clamp s = .next (tap 0x04)
       ∧ exec (.extestPulse load) s = .next (scanned 0x05)
       ∧ exec (.extestTrain load) s = .next (scanned 0x06)
       ∧ exec .bypass s = .next (tap 0xFF))
  ∧ (∀ (s : State),
       (s.sec.sensed.debugClosed = true →
         exec .dbgSteward s = .next { s with sec := { s.sec with tap := 0xFF } }
         ∧ exec .dbgFabric s = .next { s with sec := { s.sec with tap := 0xFF } })
       ∧ (s.sec.sensed.debugClosed = false → s.glb.st = .reset ∨ s.glb.st = .load ∨ s.glb.st = .loadfail →
         exec .dbgSteward s = .next { s with sec := { s.sec with tap := 0x10 } }
         ∧ ((∀ q ∈ s.fab.held, q.master ≠ 0xC5) → exec .dbgFabric s = .next { s with
             sec := { s.sec with tap := 0x11 }, fab := { s.fab with frozen := s.fab.frozen.set false 0xC5 false } }))
       ∧ (s.sec.sensed.debugClosed = false → s.glb.st = .train ∨ s.glb.st = .run ∨ s.glb.st = .safe →
         ∃ t u, exec .dbgSteward s = .next t ∧ t.sec.keys = [] ∧ t.sec.entries = [] ∧ t.sec.keyGen = s.free ∧ t.sec.tap = 0x10
           ∧ exec .dbgFabric s = .next u ∧ u.sec.keys = [] ∧ u.sec.entries = [] ∧ u.sec.keyGen = s.free ∧ u.sec.tap = 0x11
           ∧ u.fab.frozen = s.fab.frozen.set false 0xC5 false
           ∧ (s.canRise 0x16A = true → t.flt.sticky.get false 0x16A = true ∧ u.flt.sticky.get false 0x16A = true)))

/-- R86, R87, R100, R107, R108: the fuse burns. A write while a burn runs is ignored; a burn that is refused, or whose digest needs a 0
where OWNER_HASH already reads 1, burns nothing; an owner burn that ends short of its digest is a BURN_ERROR and raises FUSE_ERR, and
one that ends with a bit too many a MISMATCH (assumption log 25). Closure of debug needs 2 of its 3 fuses. -/
def Obligations.FuseBurns : Prop :=
  ∀ (s : State) (c ones : Nat) (rb : BitVec 512), s.glb.st ≠ .reset →
    (s.sec.burn.isSome = true → exec (.fuseBurnOwner c) s = .next s ∧ exec (.fuseBurnDebugClose c) s = .next s)
    ∧ (s.sec.burn = none → c ≠ 0xA55A →
      exec (.fuseBurnOwner c) s = .next { s with sec := { s.sec with result := 2 } }
      ∧ exec (.fuseBurnDebugClose c) s = .next { s with sec := { s.sec with result := 2 } })
    ∧ (s.sec.burn = none → s.sec.sensed.ownerSet = true ∨ s.glb.st ≠ .loadfail →
      exec (.fuseBurnOwner c) s = .next { s with sec := { s.sec with result := 2 } })
    ∧ (s.sec.burn = none → s.sec.sensed.ownerSet = false → s.glb.st = .loadfail →
      ((s.sec.sensed.owner ||| s.sec.fuses.owner) &&& ~~~s.sec.digest ≠ 0 →
        exec (.fuseBurnOwner 0xA55A) s = .next { s with sec := { s.sec with result := 3 } })
      ∧ ((s.sec.sensed.owner ||| s.sec.fuses.owner) &&& ~~~s.sec.digest = 0 →
        exec (.fuseBurnOwner 0xA55A) s = .next { s with sec := { s.sec with burn := some 1 } }))
    ∧ (s.sec.burn = none → exec (.fuseBurnDebugClose 0xA55A) s = .next { s with sec := { s.sec with burn := some 2 } })
    ∧ (s.sec.burn = some 1 → s.sec.fuses.owner ||| (rb &&& s.sec.digest) = s.sec.digest →
      ∃ t, exec (.fuseBurnDone rb ones) s = .next t ∧ t.sec.result = 1 ∧ t.sec.burn = none ∧ t.sec.fuses.owner = s.sec.digest
        ∧ t.sec.fuses.ownerOnes = 3 ∧ t.sec.sensed.ownerSet = true ∧ t.flt = s.flt)
    ∧ (s.sec.burn = some 1 → s.sec.fuses.owner ||| (rb &&& s.sec.digest) ≠ s.sec.digest →
      (s.sec.fuses.owner ||| (rb &&& s.sec.digest)) &&& s.sec.digest = s.sec.digest →
      ∃ t, exec (.fuseBurnDone rb ones) s = .next t ∧ t.sec.result = 3 ∧ t.sec.fuses.ownerOnes = s.sec.fuses.ownerOnes ∧ t.flt = s.flt)
    ∧ (s.sec.burn = some 1 → (s.sec.fuses.owner ||| (rb &&& s.sec.digest)) &&& s.sec.digest ≠ s.sec.digest →
      ∃ t, exec (.fuseBurnDone rb ones) s = .next t ∧ t.sec.result = 4 ∧ t.sec.fuses.ownerOnes = s.sec.fuses.ownerOnes
        ∧ (s.canRise 0x168 = true → t.flt.sticky.get false 0x168 = true))
    ∧ (s.sec.burn = some 2 → 2 ≤ max s.sec.fuses.debugOnes (min 3 ones) →
      ∃ t, exec (.fuseBurnDone rb ones) s = .next t ∧ t.sec.result = 1 ∧ t.sec.burn = none ∧ t.sec.sensed.debugClosed = true
        ∧ t.sec.fuses.debugOnes = max s.sec.fuses.debugOnes (min 3 ones) ∧ t.sec.tap ≠ 0x10 ∧ t.sec.tap ≠ 0x11
        ∧ t.sec.dmReset = true ∧ t.flt = s.flt)
    ∧ (s.sec.burn = some 2 → max s.sec.fuses.debugOnes (min 3 ones) < 2 →
      ∃ t, exec (.fuseBurnDone rb ones) s = .next t ∧ t.sec.result = 4 ∧ t.sec.sensed.debugClosed = s.sec.sensed.debugClosed
        ∧ t.flt = s.flt)

/-! ### Start-up (03) -/

/-- R18, R51, R54, R56, R61, R62, R64, R71, R72, R143: slot A is read first, and slot B only if slot A fails; the first slot whose checks
find nothing takes the device into TRAIN with its image, and two failed slots into LOADFAIL; what a failed slot had staged is gone
(where images are staged: assumption log 86). -/
def Obligations.SlotChecks : Prop :=
  ∀ (s : State) (slot : Nat) (rd : FlashReads), s.glb.st = .load → slot < 2 → s.cfg.phase = slot + 1 →
    (∀ k, k ≠ slot → exec (.slotCheck k rd) s = .next s)
    ∧ match s.slotCheck slot rd with
    | (r, some i) =>
      ∃ t, exec (.slotCheck slot rd) s = .next t ∧ (t.glb.st = .train ∨ s.sec.sensed.eccErr = true) ∧ t.glb.imgSlot = slot
        ∧ t.img = i ∧ t.cfg.loaded = true ∧ t.cfg.phase = 3 ∧ t.flt.installed = true ∧ t.time.ptp = 0 ∧ t.time.running = true
        ∧ t.sec.keys = [] ∧ (if slot = 0 then t.cfg.slotA else t.cfg.slotB) = r ∧ t.flash = s.flash
    | (r, none) =>
      (slot = 0 → r ≠ resNoFlash → exec (.slotCheck slot rd) s
        = .next { s.discardStage with cfg := { s.cfg with slotA := r, phase := 2 } })
      ∧ (slot = 1 → ∃ t, exec (.slotCheck slot rd) s = .next t ∧ t.glb.st = .loadfail
        ∧ t.cfg = { s.cfg with slotB := r, phase := 3 } ∧ t.img = s.img)
      ∧ (slot = 0 → r = resNoFlash → ∃ t, exec (.slotCheck slot rd) s = .next t ∧ t.glb.st = .loadfail
        ∧ t.cfg = { s.cfg with slotA := resNoFlash, slotB := resNoFlash, phase := 3 })

/-- R51, R354, R374, R19, R113, R321: steps 14 to 16. Both stacks are trained and serve; the staged sections are copied; and with the tables
loaded the windows are locked and the device is in RUN, unless a fault has taken it to SAFE. -/
def Obligations.TrainToRun : Prop :=
  ∀ (s : State) (working : List Nat), s.glb.st = .train →
    ((s.stack 0).st = .training → (s.stack 1).st = .training →
      ∃ t, exec (.hbmTrainingComplete working) s = .next t ∧ ((t.stack 0).st = .service ∨ t.glb.st = .safe)
        ∧ ((t.stack 1).st = .service ∨ t.glb.st = .safe))
    ∧ ((s.stack 0).st = .service → (s.stack 1).st = .service → s.cfg.copied = false →
      exec .imageSectionsCopied s = .next { s.copySections with cfg := { s.cfg with copied := true } }
        ∧ s.copySections.glb = s.glb ∧ s.copySections.img = s.img ∧ s.copySections.flt = s.flt)
    ∧ (s.cfg.copied = true →
      ∃ t, exec .tablesLoaded s = .next t ∧ (t.glb.st = .run ∨ t.glb.st = .safe) ∧ t.fab.lock = true
        ∧ (t.glb.st = .run → t.time.runAt = s.time.aon) ∧ t.img = s.img)

/-! ### Network time (05) -/

/-- R35, R140, R141, R142, R148, R492: The lock state and what PTP time sends. A locked clock that loses its Sync or its master enters
holdover and raises PTP_HOLDOVER (its averaged frequency is a free value within 200 ppm, assumption log 2); holdover ends after
HOLDOVER_S seconds, unless that is 0, and raises PTP_UNLOCK; a Delay_Req goes out on the slave port over the transport of the selected
master's Sync, of which none has been received once the master is lost. An edge of 1PPS_IN that stays high for 100 ns is measured
against the nearest whole second of device time (that it is the nearest is the model's reading, assumption log 28), and in holdover with
PPS_IN_EN the phase is to be slewed by it; the host's read of ROTA_TIME_NS latches the seconds. -/
def Obligations.NetworkTime : Prop :=
  (∀ (s : State) (tr : Nat),
       let others := s.ptp.foreign.filter fun f => s.ptp.master != some f.ann.src
       (s.ptp.lock = 1 → ∃ t f, exec .syncTimeout s = .next t ∧ f ≤ 2000000
         ∧ t.ptp = { s.ptp with lock := 2, streak := 0, freq := f, acc := 0, phase := 0 } ∧ (s.canRise 0x163 = true → t.flt.sticky.get false 0x163 = true))
       ∧ (s.ptp.lock = 1 → ∃ t f, exec .announceTimeout s = .next t ∧ f ≤ 2000000
         ∧ t.ptp = { s.ptp with
             lock := 2, streak := 0, freq := f, acc := 0, phase := 0, master := none, syncTrans := none, foreign := others }
         ∧ (s.canRise 0x163 = true → t.flt.sticky.get false 0x163 = true))
       ∧ (s.ptp.lock ≠ 1 → exec .syncTimeout s = .next s
         ∧ exec .announceTimeout s
           = .next { s with ptp := { s.ptp with master := none, syncTrans := none, foreign := others } })
       ∧ (s.ptp.lock = 2 → s.ptp.holdoverS ≠ 0 → ∃ t, exec .holdoverExpiry s = .next t ∧ t.ptp = { s.ptp with lock := 0 }
         ∧ (s.canRise 0x164 = true → t.flt.sticky.get false 0x164 = true))
       ∧ (s.ptp.holdoverS = 0 → exec .holdoverExpiry s = .next s)
       ∧ (s.ptp.syncTrans = some tr → s.ptp.master.isSome = true → s.canSend s.img.net.ptpPort = true → s.glb.st = .run ∨ s.glb.st = .safe →
         bitOf s.img.net.ptpTrans tr = true → ∃ f, exec .delayReqTransmit s = .next { s with
           ptp := { s.ptp with delayReqs := s.ptp.delayReqs + 1 }
           egr := { s.egr with sent := s.egr.sent.set none s.img.net.ptpPort (some f) } }
           ∧ f.port = s.img.net.ptpPort ∧ f.kind = 2))
  ∧ (∀ (s : State) (n : Nat),
       let seen (off : Int) : State := { s with ptp := { s.ptp with
         ppsAt := some s.time.aon, ppsOffset := off
         phase := if s.ptp.lock = 2 ∧ s.ptp.ppsInEn = true then off * 2000 else s.ptp.phase } }
       (100 ≤ n → s.time.running = true → s.ptpNsec < 500000000 → exec (.ppsInEdge n) s = .next (seen s.ptpNsec))
       ∧ (100 ≤ n → s.time.running = true → 500000000 ≤ s.ptpNsec →
         exec (.ppsInEdge n) s = .next (seen ((s.ptpNsec : Int) - 1000000000)))
       ∧ (n < 100 → exec (.ppsInEdge n) s = .next s)
       ∧ (s.hostBar 0 = true → exec .rotaTimeNsRead s = .next { s with
           time := { s.time with latched := s.ptpSec }
           outs := { s.outs with bar0 := s.ptpNsec, lastHost := some 0x100030, cpl := 0 } }))

/-- R143, R145, R146: a pending step of Δ ns is taken at the next slot boundary b of device time: time then reads b + Δ, STEPPED is set,
ROTA_STEP_LAST records Δ, and PTP_STEP is raised; before the rota has started, while no lane holds a run, no session, no ingress state
and no pending list moves. -/
def Obligations.ClockSteps : Prop :=
  ∀ (s : State) (d : Int), s.ptp.stepPend = some d →
    ∃ t, exec .clockStep s = .next t
      ∧ t.time.ptp = ((ceilDiv s.time.ptp slotTime * slotTime : Nat) + d * 2000).toNat
      ∧ t.ptp.stepped = true ∧ t.ptp.stepPend = none ∧ t.ptp.stepLast = max (-2147483648) (min 2147483647 d)
      ∧ t.time.aon = s.time.aon
      ∧ (s.canRise 0x165 = true → t.flt.sticky.get false 0x165 = true)
      ∧ (s.rota.started = false → (∀ l, (s.lane l).run = none) → t.sess = s.sess ∧ t.ing = s.ing ∧ t.rota.parts = s.rota.parts)

/-- R124, R127, R128, R144, R147, R171, R210, R211: In RUN, once LOCK has read locked or with START_NOLOCK, the rota starts at the next
hyperperiod boundary of device time; otherwise nothing happens. Runs that start. A SHEAF run executes its own sheaf when every condition
of R125 holds and none is pending; a CATCHUP run executes what the pending lists hold for its lane; a GLEAN run its core's next encode
case. Each takes the core that the lane is bound to. A run starts to code once its sheaf's notice has been sent, and leaves the channel
state as it is unless the firewall refuses the fetch of its reference (R401; where the references lie: assumption log 58). -/
def Obligations.RunsStart : Prop :=
  (∀ (s : State), s.rota.started = false →
       (s.glb.st = .run → s.ptp.wasLocked = true ∨ s.rota.startNoLock = true →
         ∃ t, exec .rotaStart s = .next t ∧ t.rota.started = true ∧ t.rota.hpCnt = 0
           ∧ t.time.ptp = ceilDiv s.time.ptp hpTime * hpTime ∧ t.time.aon = s.time.aon ∧ t.rota.lanes = s.rota.lanes)
       ∧ (s.glb.st ≠ .run → exec .rotaStart s = .next s)
       ∧ (s.ptp.wasLocked = false → s.rota.startNoLock = false → exec .rotaStart s = .next s))
  ∧ (∀ (s : State) (l idx hp k : Nat) (e : RunEnt) (c : Machine.Class), s.laneEnt l idx = some e → 1 ≤ e.len → e.part ≠ 3 →
       s.rota.started = true → s.glb.st = .run → (s.lane l).run = none → s.laneCore l = some k →
       (e.kind = 0 → s.cls e.ch = some c →
         let x : ShId := { fr := hp * framesPerHp c.base.rate + e.frame, sh := e.sheaf }
         let p := partOfCode e.part
         (12500 * hp + e.start) * slotTime ≤ s.time.ptp → s.rota.notBefore ≤ (12500 * hp + e.start) * slotTime →
         (∀ y, (s.part e.ch p).issued = some y → y.lt x = true) →
         s.ownSheaf c e.ch x = true → (s.part e.ch p).pend = [] → s.earlierPassed c e.ch x = true →
         let u := s.markIssued c e.ch p x
         exec (.sheafRunStart l idx hp) s = .next (u.startRun c l k e.ch p 0 x)
         ∧ ((∀ n, s.fetchVerdict c (u.planRun c k e.ch p 0 x) ≠ .violation n) → ∃ t r, exec (.sheafRunStart l idx hp) s = .next t
           ∧ (t.lane l).run = some r ∧ r.kind = 0 ∧ r.core = k ∧ r.ch = e.ch ∧ r.part = p
           ∧ r.fr = x.fr ∧ r.sh = x.sh ∧ r.own = s.sessOf e.ch ∧ (r.coded.isSome = true ↔ s.noticed c r = true) ∧ t.rc = s.rc ∧ t.sess = s.sess))
       ∧ (e.kind = 1 → s.rota.notBefore ≤ s.nowSlot * slotTime → ∀ cc ch p x, s.catchupPick l e.len = some (cc, ch, p, x) →
         exec (.catchupRunStart l idx) s = .next (s.startRun cc l k ch p 1 x))
       ∧ (e.kind = 1 → s.rota.notBefore ≤ s.nowSlot * slotTime → s.catchupPick l e.len = none →
         exec (.catchupRunStart l idx) s
           = .next { s with rota := { s.rota with lanes := s.rota.lanes.set {} l { s.lane l with nFallow := (s.lane l).nFallow + 1 } } })
       ∧ (e.kind = 2 → s.rota.notBefore ≤ s.nowSlot * slotTime →
         ∃ t r, exec (.gleanRunStart l idx) s = .next t
           ∧ t.rota = { s.rota with lanes := s.rota.lanes.set {} l { s.lane l with run := some r, nRun := (s.lane l).nRun + 1 } }
           ∧ r.kind = 2 ∧ r.core = k ∧ r.gcase = gleanCaseAt s.img.glean 0 (s.encOf k).gleans ∧ t.rc = s.rc ∧ t.sess = s.sess))

/-! ### The runs of the encode lanes (05, 07) -/

/-- R126, R129, R130, R201, R202, R203, R211, R213, R214, R215: Runs that end without commit. An overrun, a thresher failure and a residue
mismatch each end the lane's run, leave their verdict, are counted, put the sheaf back into its pending list in order while its session
is open and its frame not skipped, and raise their own source; a parse that shows no failure and a value whose residue agrees change
nothing. A sheaf that is still pending one frame period late is reported once. The end of a gleaning run: the blocks that its case
quantised again are counted; a signature equal to the case's SIG, without a failure, is a match; anything else is a mismatch, counted,
and ENC_GLEAN_MISS is raised. The signature is that of the case as sound hardware codes it, but for the bits in which the core's
differs. -/
def Obligations.RunsFail : Prop :=
  (∀ (s : State) (l : Nat) (r : Run), (s.lane l).run = some r →
       let x : ShId := { fr := r.fr, sh := r.sh }
       let i := 2 * r.ch + r.part
       let ps := s.rota.parts.set {} i { s.part r.ch r.part with errRun := none }
       let ended (verdict : Nat) : State :=
         { s with
           rota := { s.rota with
             lanes := s.rota.lanes.set {} l { s.lane l with run := none }
             parts := if s.runSess r = true ∧ s.givenUp r.ch r.fr = false then
                 ps.set {} i { ps.get {} i with pend := insPend x (ps.get {} i).pend }
               else ps }
           enc := s.enc.set {} r.core { s.encOf r.core with act := 0, verdict := verdict } }
       (r.kind ≠ 2 →
         (∀ p, r.fails p = true → exec (.threshFail l p) s = .next (((ended 2).encCnt r.core 2 1).raise (srcThresh r.core)))
         ∧ (∀ (v : Int) (d : Nat), v % 7 ≠ d → exec (.residueMismatch l v d) s = .next (((ended 3).encCnt r.core 3 1).raise (srcResidue r.core)))
         ∧ (∀ u, u = ended 3 → exec (.runOverrun l) s
             = .next ((u.setLane l { u.lane l with nOver := (u.lane l).nOver + 1 }).raise (srcOverrun r.core))))
       ∧ (r.kind = 2 → ∃ t, exec (.runOverrun l) s = .next t ∧ t.rc = s.rc ∧ t.sess = s.sess
           ∧ (s.canRise (srcOverrun r.core) = true → t.flt.sticky.get false (srcOverrun r.core) = true))
       ∧ (∀ p, r.fails p = false → exec (.threshFail l p) s = .next s)
       ∧ (∀ (v : Int) (d : Nat), v % 7 = d → exec (.residueMismatch l v d) s = .next s)
       ∧ (∀ ch p y, (s.part ch p).pend.contains y = true →
         ((s.part ch p).late.contains y = false → exec (.rotaBacklog ch p y.fr y.sh) s = .next
           ({ s with rota := { s.rota with
             parts := s.rota.parts.set {} (2 * ch + p) { s.part ch p with late := y :: (s.part ch p).late } } }.raise srcBacklog))
         ∧ ((s.part ch p).late.contains y = true → exec (.rotaBacklog ch p y.fr y.sh) s = .next s)))
  ∧ (∀ (s : State) (l : Nat) (err : BitVec 64) (failed : Bool) (r : Run) (g : GleanCase),
       (s.lane l).run = some r → r.kind = 2 → s.img.glean[r.gcase]? = some g →
       let sig := caseSig g ^^^ err
       let u := s.encCnt r.core 4 (caseCap g)
       let v := u.encOf r.core
       (g.sig = sig → failed = false → exec (.gleanResult l err failed) s = .next { u with
         rota := { s.rota with lanes := s.rota.lanes.set {} l { s.lane l with run := none } }
         enc := u.enc.set {} r.core { v with act := 0, gMatch := true, gCase := r.gcase, gSig := sig } })
       ∧ (g.sig ≠ sig ∨ failed = true → Tbl.wf {} s.enc = true → ∃ t, exec (.gleanResult l err failed) s = .next t
         ∧ (t.encOf r.core).cnt = ((u.enc.set {} r.core { v with act := 0, gMatch := false, gCase := r.gcase, gSig := sig }).get {} r.core).cnt.upd
             0 7 (cntAdd 1)
         ∧ (s.canRise (srcGlean r.core) = true → t.flt.sticky.get false (srcGlean r.core) = true)))

/-- R126, R133, R200, R203, R207, R208, R210, R213: a sheaf of a one-lane channel passes, its session still the channel's, where what the
thresher parsed of every unit equals the decision record. Its lane's run ends, it leaves its pending list, the channel state is
committed, its samples go to the picture's buffer, its record into the channel's region (the places of the region: assumption log 81),
the verdict is PASS, and every packet that the packetiser signals is the sheaf's; a re-parse that differs ends the run as a failure. -/
def Obligations.SheafPasses : Prop :=
  ∀ (s : State) (l : Nat) (ps : List Config.Parsed) (r : Run) (c : Machine.Class) (o : Coded), (s.lane l).run = some r → r.kind ≠ 2 →
    s.cls r.ch = some c → r.coded = some o →
    (c.base.lanes ≠ 2 → s.ownRun r = true → s.frameGone c r.ch r.fr = false → o.passes ps = true → r.sh + 1 ≠ sheavesOf r.own.h →
      let v := { (s.rcOf r.ch).commit c (s.sessOf r.ch) r o with old := (s.rcOf r.ch).runCopy (s.sessOf r.ch).seq }
      ∃ t, exec (.sheafPass l ps) s = .next t
      ∧ t.rota = { s.rota with
          lanes := s.rota.lanes.set {} l { s.lane l with run := none }
          parts := s.rota.parts.set {} (2 * r.ch + r.part)
            { (s.part r.ch r.part).keepOnly (fun x => !(x.fr == r.fr && x.sh == r.sh)) with errRun := none } }
      ∧ t.rc = s.rc.set {} r.ch v
      ∧ t.hbm = ((({ s with rc := s.rc.set {} r.ch v } : State).writeRecon c r o).storeRec c r.ch r.part).hbm
      ∧ (t.encOf r.core).act = 0 ∧ (t.encOf r.core).verdict = 1
      ∧ (∃ ps : List MPkt, t.rep.sigQ = s.rep.sigQ ++ ps ∧ ∀ p ∈ ps, p.ch = r.ch ∧ p.fr = r.fr ∧ p.sh = r.sh)
      ∧ t.flt = s.flt ∧ t.sec = s.sec ∧ t.led = s.led ∧ t.chip = s.chip)
    ∧ (o.passes ps = false → exec (.sheafPass l ps) s = exec (.threshFail l ps) s)

/-- R221: debt is an unsigned 32-bit quantity, which saturates and then sets DEBT_SAT; SESSION_OPEN sets it to 0. -/
def Obligations.DebtSaturates : Prop :=
  (∀ (s : State) (l : Nat) (ps : List Config.Parsed) (r : Run) (c : Machine.Class) (o : Coded), (s.lane l).run = some r → r.kind ≠ 2 →
    s.cls r.ch = some c → r.coded = some o → s.ownRun r = true → s.frameGone c r.ch r.fr = false → o.passes ps = true →
    let left := r.led.left - o.bits
    let last := r.sh + 1 = sheavesOf (s.sessOf r.ch).h
    let debt := if last ∧ left < 0 then r.led.debt + left.natAbs else r.led.debt
    ∃ t, exec (.sheafPass l ps) s = .next t ∧ ((t.rcOf r.ch).part r.part).led.debt = min debt (2 ^ 32 - 1)
      ∧ (t.rcOf r.ch).debtSat = (s.rcOf r.ch).debtSat.set false r.part
          ((s.rcOf r.ch).debtSat.get false r.part || decide (2 ^ 32 - 1 < debt)))
  ∧ (∀ (s : State) (h : CmdHdr) (a : OpenArgs) (c : Machine.Class), s.serving (.sessionOpen h a) false h = true →
    s.openRefused false a = none → s.cls a.channel = some c → c.base.pathVft = false →
    ∃ t v, exec (.sessionOpen h a) s = .next t ∧ t.rc = s.rc.set {} a.channel v ∧ ∀ p, (v.part p).led.debt = 0)

/-! ### Decoding (09) -/

/-- R10, R138, R258, R259, R277, R278: Decode runs. What the lane's entry before left has ended. A RUN with input and a free buffer decodes
on the lane's core, which saves what it would have to redo, and so does one that has begun a picture; one without input, or whose next
picture finds no free buffer, is fallow, and so is one of a context whose host holds every buffer that it may hold; POOL_WAIT counts all
but the first; the run ends with the core idle; a GLEAN run counts and takes the core's next case. A run that stops has decoded what its
core had time for and saved its context's state: its lane runs nothing, and nothing of it would be redone; a sheaf whose rows its
pictures completed is coded. -/
def Obligations.DecodeRuns : Prop :=
  (∀ (s : State) (l idx k work : Nat) (e : DecEnt) (ws : List DecWrite), s.dlaneEnt l idx = some e → e.len ≠ 0 → s.rota.started = true →
       s.glb.st = .run → s.rota.notBefore ≤ s.nowSlot * slotTime → (s.dlane l).run = none → s.dlaneCore l = some k →
       let b : State := { s with
         rota := { s.rota with dlanes := s.rota.dlanes.set {} l { s.dlane l with glean := none } }
         dec := s.dec.set {} k { s.decOf k with act := 0 } }
       let fallow : State := { b with
         rota := { b.rota with dlanes := b.rota.dlanes.set {} l { b.dlane l with nFallow := (b.dlane l).nFallow + 1 } } }
       let room := b.starves e.dcx (s.ringBytes e.dcx + 2) = false ∧ b.hostFull e.dcx = false
       (e.kind = 0 → (s.dcxOf e.dcx).isOpen = true → (s.dcxOf e.dcx).units ≠ [] →
         (room → exec (.decodeRunStart l idx work ws) s = .next (b.decodeRun l k e.dcx work ws).wakeRuns)
         ∧ ((s.dcxOf e.dcx).cur.isSome = true → b.hostFull e.dcx = false →
           exec (.decodeRunStart l idx work ws) s = .next (b.decodeRun l k e.dcx work ws).wakeRuns)
         ∧ (room → (∀ j r, (s.lane j).run = some r → r.coded.isSome = true) → ∃ t, exec (.decodeRunStart l idx 0 []) s = .next t
           ∧ t.decRedo = s.decRedo.set none l (some (s.dcxOf e.dcx)) ∧ (t.dlane l).run = some e.dcx ∧ (t.decOf k).act = 1
           ∧ (t.decOf k).ctx = e.dcx)
         ∧ (b.starves e.dcx (s.ringBytes e.dcx + 2) = true ∨ b.hostFull e.dcx = true → exec (.decodeRunStart l idx work ws) s
             = .next { fallow with dcxCnt := s.dcxCnt.upd 0 (16 * e.dcx + 6) (cntAdd 1) }))
       ∧ (e.kind = 0 → (s.dcxOf e.dcx).units = [] ∨ (s.dcxOf e.dcx).isOpen = false →
           exec (.decodeRunStart l idx work ws) s = .next fallow)
       ∧ (∀ err, let n := gleanCaseAt s.img.glean 1 (s.decOf k).gleans
           let sig := s.decCaseSig n ^^^ err
           e.kind = 2 → Tbl.wf {} s.dec = true → s.caseMatches n sig = true →
           ∃ t, exec (.decodeGleanRun l idx err false) s = .next t
             ∧ t.rota = { s.rota with dlanes := b.rota.dlanes.set {} l { b.dlane l with nRun := (b.dlane l).nRun + 1, glean := some n } }
             ∧ (t.decOf k).act = 2
             ∧ (t.decOf k).gMatch = true ∧ (t.decOf k).gCase = n ∧ (t.decOf k).gSig = sig
             ∧ t.flt = s.flt ∧ t.dcx = s.dcx)
       ∧ (∀ err fails, let n := gleanCaseAt s.img.glean 1 (s.decOf k).gleans
           e.kind = 2 → Tbl.wf {} s.dec = true → s.caseMatches n (s.decCaseSig n ^^^ err) = false ∨ fails = true →
           ∃ t, exec (.decodeGleanRun l idx err fails) s = .next t ∧ (s.canRise (srcDecGlean k) = true → t.flt.sticky.get false (srcDecGlean k) = true)))
  ∧ (∀ (s : State) (l k x : Nat), (s.dlane l).run = some x → (s.dlane l).bound = some k →
       let stopped (u : State) : State := { u with
         rota := { u.rota with dlanes := u.rota.dlanes.set {} l { u.dlane l with run := none } }
         decRedo := u.decRedo.set none l none
         dec := u.dec.set {} k { u.decOf k with act := 0 } }
       ((s.dlane l).left = 0 → exec (.decodeRunStop l) s = .next (stopped s).wakeRuns)
       ∧ ((s.dcxOf x).units = [] → exec (.decodeRunStop l) s = .next (stopped s).wakeRuns))

/-- R261: a buffer is on the free list only when every mark on it is clear, and the lowest index is taken first. -/
def Obligations.LowestFreeBuffer : Prop :=
  ∀ (pool : Tbl Marks) (n b : Nat),
    (freeBuf pool n = some b → b < n ∧ pool.get {} b = { pic1 := (pool.get {} b).pic1 } ∧
      ∀ j, j < b → pool.get {} j ≠ { pic1 := (pool.get {} j).pic1 })
    ∧ (freeBuf pool n = none → ∀ j, j < n → pool.get {} j ≠ { pic1 := (pool.get {} j).pic1 })

/-- R255, R256, R257, R264, R273: what reaches a context between its runs. A feed that fits is queued with its length, and one that does not
is counted and lost; a feed for a context that is closed or takes RTP is counted; a release clears the HOST mark; the watchdog ends the
picture in decoding with WATCHDOG, counts and raises DEC_WATCHDOG; the reorder window's end declares the missing number lost. -/
def Obligations.DecodeInput : Prop :=
  ∀ (s : State) (x len buf l nx : Nat) (loss : Bool), s.glb.st ≠ .reset →
    let v := s.dcxOf x
    (v.isOpen = true → v.rtp = none → len ≤ s.ringFree x →
      exec (.decFeed x loss len) s = .next { s with dcx := s.dcx.set {} x { v with
        inWp := (v.inWp + len) % s.ringBytes x, feeds := v.feeds + 1, lossPend := false
        units := v.units ++ [{ len := len, loss := loss || v.lossPend, ts := v.feeds }] } })
    ∧ (v.isOpen = true → v.rtp = none → s.ringFree x < len →
      exec (.decFeed x loss len) s = .next { s with
        dcx := s.dcx.set {} x { v with lossPend := true }, dcxCnt := s.dcxCnt.upd 0 (16 * x + 5) (cntAdd 1) })
    ∧ (v.isOpen = false ∨ v.rtp.isSome = true →
      exec (.decFeed x loss len) s = .next { s with dcxCnt := s.dcxCnt.upd 0 (16 * x + 3) (cntAdd 1) })
    ∧ exec (.decRelease x buf) s = .next (s.markBuf x buf fun m => { m with host := false })
    ∧ ((s.dlane l).run = some x → v.cur.isSome = true →
      let u := ((s.flagPic x 8).finishPic x).nextSub x v.carry
      exec (.decWatchdog l) s = .next ({ u with dcxCnt := u.dcxCnt.upd 0 (16 * x + 7) (cntAdd 1) }.wakeRuns.raise srcDecWd))
    ∧ ((s.dlane l).run = some x → v.cur = none → exec (.decWatchdog l) s = .next s)
    ∧ (∀ r, v.rtp = some r → r.next = some nx → r.buf ≠ [] → exec (.reorderTimeout x nx) s = .next (s.loseRtp x))

/-! ### Ingress (06) -/

/-- R103, R105, R157, R160, R163, R164, R171, R172, R175, R177, R407: the ingress FIFOs. The packet at a FIFO's head leaves it and is
counted under the first check that it fails, or is accepted; a write of one 8-byte group of the aperture is written, or counted under
the case that discards it; a write TLP enters its FIFO where it fits, and stays with its sender where it does not; a read of the
aperture completes with zeros; before the lock, and while master 0xC4 is frozen, a write is discarded and a read aborted; a doorbell
queues behind the writes before it, and is counted under its reason or takes effect. What completes a sheaf wakes the run that waits for
it. -/
def Obligations.IngressFifos : Prop :=
  ∀ (s : State) (p : VftPkt) (ps : List VftPkt) (off : Nat) (bs : List Byte) (w : Word) (rest : List AptItem) (r : Nat),
    s.ingRuns = true →
    (s.ing.q0 = p :: ps →
      let u := ({ s with ing := { s.ing with q0 := ps } }.lastPop 0 (padWords p.bytes)).fifoEval 0
      (u.vftReason p = some r → exec (.vftRows 0) s = .next (u.ingDrop r))
      ∧ (u.vftReason p = none → exec (.vftRows 0) s = .next (u.vftAccept p).wakeRuns))
    ∧ (s.ing.q1 = p :: ps →
      let u := ({ s with ing := { s.ing with q1 := ps } }.lastPop 1 (padWords p.bytes)).fifoEval 1
      (u.vftReason p = some r → exec (.vftRows 1) s = .next (u.ingDrop r))
      ∧ (u.vftReason p = none → exec (.vftRows 1) s = .next (u.vftAccept p).wakeRuns))
    ∧ (s.ing.q2 = .tlp off bs :: rest → off % 8 = 0 → bs.length = 8 →
      let u := ({ s with ing := { s.ing with q2 := rest } }.lastPop 2 (padWords bs)).fifoEval 2
      (u.aptReason off off (off + 8) = none → exec .apertureWrite s = .next (u.aptWrite off bs))
      ∧ (u.aptReason off off (off + 8) = some r → exec .apertureWrite s = .next (u.ingDrop (aptDrop r))))
    ∧ exec (.ingDb w) s = .next { s with ing := { s.ing with q2 := s.ing.q2 ++ [.db w] } }
    ∧ (s.ing.q2 = .db w :: rest →
      let u := { s with ing := { s.ing with q2 := rest } }
      (u.dbReason w.toNat = some r → exec .doorbell s = .next (u.ingDrop r))
      ∧ (u.dbReason w.toNat = none → exec .doorbell s = .next (u.dbAccept w.toNat).wakeRuns))
    ∧ (s.hostBar 4 = true → off + bs.length ≤ 0x400000000 →
      (s.isFrozen 0xC4 = false → s.fab.lock = true → s.fifoFill 2 + fifoWords bs.length ≤ 16384 →
        let u := { s with
          ing := { s.ing with q2 := s.ing.q2 ++ [AptItem.tlp off bs] }
          chip := { s.chip with notices := if bs.isEmpty then [] else [2] } }
        (u.fifoItems 2 ≤ 255 → exec (.apertureTlpArrival off 0 bs) s = .next (u.fifoEval 2))
        ∧ (255 < u.fifoItems 2 → exec (.apertureTlpArrival off 0 bs) s
            = .next ((u.setFifo 2 { u.fifo 2 with itemsSat := true }).fifoEval 2)))
      ∧ (s.isFrozen 0xC4 = false → s.fab.lock = true → 16384 < s.fifoFill 2 + fifoWords bs.length →
        exec (.apertureTlpArrival off 0 bs) s = .next (s.fifoEval 2))
      ∧ (∀ n, 1 ≤ n → off + n ≤ 0x400000000 → exec (.apertureTlpArrival off n bs) s = .next { s with outs := { s.outs with
          bar4 := if s.isFrozen 0xC4 = true ∨ s.fab.lock = false then none else some (List.replicate n 0) } })
      ∧ (s.isFrozen 0xC4 = true ∨ s.fab.lock = false → exec (.apertureTlpArrival off 0 bs) s = .next s))

/-- R160, R161, R167, R169, R171, R173, R444: due times, notices and pause frames. A sheaf of the open frame that has not closed closes at
its due time with its missing rows filled; the notice of a closed sheaf is sent once its fill is complete, and wakes the run that waits
for it; a repeated pause frame goes out for an asserted ingress FIFO, and in SAFE for all eight priorities. -/
def Obligations.DueTimes : Prop :=
  ∀ (s : State) (ch hp f sh port : Nat) (d : Int) (c : Machine.Class), s.cls ch = some c →
    let v := s.ingOf ch
    let q := s.sessOf ch
    let fr := hp * framesPerHp c.base.rate + f
    (s.rota.started = true → s.glb.st = .run → s.stopped 6 = false → s.dueSlot ch fr sh = some d → q.isOpen = true → q.n0set = true → q.n0 ≤ fr →
      v.isOpen = true → v.fr = fr → v.next = fr + 1 → v.closed.get false sh = false → sh + 1 < sheavesOf q.h →
      exec (.sheafDue ch hp f sh) s = .next ((s.reach d).closeSheaf c ch sh true).wakeRuns)
    ∧ ((v.slots.get {} (slotOf c fr)).fr1 = fr + 1 → sh < sheavesOf q.h → v.fr ≠ fr ∨ v.closed.get false sh = true →
      let slot := v.slots.get {} (slotOf c fr)
      let u := s.setIng ch { v with slots := v.slots.set {} (slotOf c fr) { slot with ready := slot.ready.set false sh true } }
      exec (.sheafReady ch fr sh) s = .next u.wakeRuns
      ∧ ((∀ l r, (s.lane l).run = some r → r.kind ≠ 2 → r.coded.isSome = true) → exec (.sheafReady ch fr sh) s = .next u))
    ∧ (s.canSend port = true → s.glb.st = .run → s.ing.asserted.get false port = true →
      ∃ x, exec (.pfcRepeat port) s = .next { s with
          egr := { s.egr with sent := s.egr.sent.set none port (some x) }
          ing := { s.ing with pfc := s.ing.pfc.upd 0 port (cntAdd 1) } }
        ∧ x.port = port ∧ x.kind = 1 ∧ x.hdr = leBytes 1 (2 ^ s.img.net.vftPrio) ++ [0xFF, 0xFF])
    ∧ (s.canSend port = true → s.glb.st = .safe →
      ∃ x, exec (.pfcRepeat port) s = .next { s with
          egr := { s.egr with sent := s.egr.sent.set none port (some x) }
          ing := { s.ing with pfc := s.ing.pfc.upd 0 port (cntAdd 1) } }
        ∧ x.port = port ∧ x.kind = 1 ∧ x.hdr = [0xFF, 0xFF, 0xFF])

/-! ### Receiving and parsing (10) -/

/-- R283, R284, R285, R288: The MAC counts a frame that is too long or fails its FCS and drops it; any other waits for a parse engine, with
the time that its last bit arrived; the oldest waiting frame of a port is taken by a free engine (the lowest-numbered one, assumption
log 20), which starts the port's program on cleared registers. The instructions that move data. EXT takes one or two bytes of the frame,
shifted and masked, into a register; KEY copies bytes of the frame and KEYI two bytes of its immediate into the key buffer; ALU computes
modulo 2^16. A read outside the window or the frame ends the program with WINDOW, an encoding without an effect with UNSUPPORTED. -/
def Obligations.FramesAndFields : Prop :=
  (∀ (s : State) (p : Nat) (bs : List Byte), s.canSend p = true → s.pktRuns = true →
       (9212 < bs.length → ∀ ok, exec (.frameReceive p bs ok) s = .next (s.pktCount p 1))
       ∧ (bs.length ≤ 9212 → exec (.frameReceive p bs false) s = .next (s.pktCount (2 + p) 1))
       ∧ (bs.length ≤ 9212 → exec (.frameReceive p bs true) s
           = .next { s with pkt := { s.pkt with rx := s.pkt.rx.set [] p (s.pkt.rx.get [] p ++ [(s.ptpNs, bs)]) } })
       ∧ (∀ k ts f fs w, s.pkt.rx.get [] p = (ts, f) :: fs → s.freePe = some k →
           s.img.parser.code[if p = 0 then s.img.parser.entry0 else s.img.parser.entry1]? = some w →
           1 ≤ (PeIns.ofWord w).op → (PeIns.ofWord w).op ≤ 0x0A →
           exec (.parseStart p) s = .next { s with pkt := { s.pkt with
             rx := s.pkt.rx.set [] p fs
             pes := s.pkt.pes.set {} k { busy := true, port := p, frame := f, fin := f.length, ts := ts
                                         pc := if p = 0 then s.img.parser.entry0 else s.img.parser.entry1 }
             order := s.pkt.order.set [] p (s.pkt.order.get [] p ++ [{ pe := k, res := none }]) } }))
  ∧ (∀ (s : State) (k : Nat) (w : BitVec 64), s.pktRuns = true → (s.pe k).busy = true → (s.pe k).lookup = none → (s.pe k).steps < 96 →
       s.img.parser.code[(s.pe k).pc]? = some w →
       let i := PeIns.ofWord w
       let c : PeCtx := { s.pe k with steps := (s.pe k).steps + 1, pc := (s.pe k).pc + 1 }
       let at_ := c.cur + i.off
       let inside := at_ + i.n ≤ 256 ∧ at_ + i.n ≤ c.fin
       let go (c : PeCtx) : State := (s.setPe k c).peSettle k
       let put (v : Nat) : State := go { c with g := c.g.set 0 i.a (v % 65536) }
       let a := c.g.get 0 i.a
       let b := c.g.get 0 i.b
       (i.op = 1 →
         (i.n = 1 ∨ i.n = 2 → inside → exec (.ext k) s = .next (put (beAt c.frame at_ i.n / 2 ^ i.f &&& i.imm)))
         ∧ (i.n = 1 ∨ i.n = 2 → ¬ inside → exec (.ext k) s = .next (s.peFinish k (.exc 2)))
         ∧ (i.n ≠ 1 → i.n ≠ 2 → exec (.ext k) s = .next (s.peFinish k (.exc 8))))
       ∧ (i.op = 2 →
         (1 ≤ i.n → i.n ≤ 48 → i.imm % 64 + i.n ≤ 48 →
           (inside → exec (.key k) s = .next (go { c with kb := c.kb.setList 0 (i.imm % 64) (slice c.frame at_ i.n) }))
           ∧ (¬ inside → exec (.key k) s = .next (s.peFinish k (.exc 2))))
         ∧ (i.n = 0 ∨ 48 < i.n ∨ 48 < i.imm % 64 + i.n → exec (.key k) s = .next (s.peFinish k (.exc 8))))
       ∧ (i.op = 3 →
         (i.off ≤ 46 → exec (.keyi k) s
           = .next (go { c with kb := c.kb.setList 0 i.off [BitVec.ofNat 8 (i.imm / 256), BitVec.ofNat 8 i.imm] }))
         ∧ (46 < i.off → exec (.keyi k) s = .next (s.peFinish k (.exc 8))))
       ∧ (i.op = 4 →
         (i.f = 0 → exec (.alu k) s = .next (put i.imm)) ∧ (i.f = 1 → exec (.alu k) s = .next (put (a + i.imm)))
         ∧ (i.f = 2 → exec (.alu k) s = .next (put (a &&& i.imm)))
         ∧ (i.f = 3 → exec (.alu k) s = .next (put (a / 2 ^ (i.imm % 16))))
         ∧ (i.f = 4 → exec (.alu k) s = .next (put b)) ∧ (i.f = 5 → exec (.alu k) s = .next (put (a + b)))
         ∧ (i.f = 6 → exec (.alu k) s = .next (put (a + 65536 - b)))
         ∧ (6 < i.f → exec (.alu k) s = .next (s.peFinish k (.exc 8)))))

/-- R285, R288, R289, R290, R291, R294: The instructions that decide. BR branches on its condition; HDR records a layer; LEN checks a
declared length; LKP waits for its lookup, whose result attaches the body or branches; EXC and DONE end the program, and so does an
encoding without an effect, with UNSUPPORTED. The 97th step does not execute. That a target outside the store ends the program at once
is the model's reading (assumption log 21). The result of a lookup: on a hit the body is attached and the program goes on behind LKP, on
a miss at its target. -/
def Obligations.ParseDecides : Prop :=
  (∀ (s : State) (k : Nat) (w : BitVec 64) (m : PtpMsg), s.pktRuns = true → (s.pe k).busy = true → (s.pe k).lookup = none →
       s.img.parser.code[(s.pe k).pc]? = some w →
       let i := PeIns.ofWord w
       let c : PeCtx := { s.pe k with steps := (s.pe k).steps + 1, pc := (s.pe k).pc + 1 }
       let go (c : PeCtx) : State := (s.setPe k c).peSettle k
       let a := c.g.get 0 i.a
       let b := c.g.get 0 i.b
       let size := s.img.parser.code.length
       let hl := i.imm + (if bitOf i.f 3 then b * 2 ^ (i.f % 4) else 0)
       let o := c.cur + i.off + a * 2 ^ (i.f % 4)
       ((s.pe k).steps < 96 →
         (i.op = 5 → i.tgt < size →
           (i.f = 0 → exec (.br k) s = .next (go (if a = i.imm then { c with pc := i.tgt } else c)))
           ∧ (i.f = 1 → exec (.br k) s = .next (go (if a = i.imm then c else { c with pc := i.tgt })))
           ∧ (i.f = 2 → exec (.br k) s = .next (go (if a < i.imm then { c with pc := i.tgt } else c)))
           ∧ (i.f = 3 → exec (.br k) s = .next (go (if a < i.imm then c else { c with pc := i.tgt })))
           ∧ (i.f = 4 → exec (.br k) s = .next (go (if a &&& i.imm = 0 then c else { c with pc := i.tgt })))
           ∧ (i.f = 5 → exec (.br k) s = .next (go (if a &&& i.imm = 0 then { c with pc := i.tgt } else c)))
           ∧ (i.f = 6 → exec (.br k) s = .next (go { c with pc := i.tgt }))
           ∧ (i.f = 7 → exec (.br k) s = .next (go (if a = b then { c with pc := i.tgt } else c)))
           ∧ (7 < i.f → exec (.br k) s = .next (s.peFinish k (.exc 8))))
         ∧ (i.op = 5 → size ≤ i.tgt → exec (.br k) s = .next (s.peFinish k (.exc 8)))
         ∧ (i.op = 6 → i.n = 0 ∨ 0x0A < i.n ∨ bitOf i.f 2 = true → exec (.hdr k) s = .next (s.peFinish k (.exc 8)))
         ∧ (i.op = 6 → 1 ≤ i.n → i.n ≤ 0x0A → bitOf i.f 2 = false →
           (256 < c.cur + hl → exec (.hdr k) s = .next (s.peFinish k (.exc 2)))
           ∧ (c.cur + hl ≤ 256 → 12 ≤ c.layers.length → exec (.hdr k) s = .next (s.peFinish k (.exc 1)))
           ∧ (c.cur + hl ≤ 256 → c.layers.length < 12 → exec (.hdr k) s
               = .next (go { c with layers := c.layers ++ [{ type := i.n, off := c.cur, len := hl }], cur := c.cur + hl })))
         ∧ (i.op = 7 →
           (o = c.fin → exec (.len k) s = .next (go c))
           ∧ (o < c.fin → c.frame.length = 60 → exec (.len k) s = .next (go { c with fin := o }))
           ∧ (o < c.fin → c.frame.length ≠ 60 → exec (.len k) s = .next (s.peFinish k (.exc 4)))
           ∧ (c.fin < o → exec (.len k) s = .next (s.peFinish k (.exc 4))))
         ∧ (i.op = 8 → 1 ≤ i.n → i.n ≤ 48 → i.tgt < size →
           exec (.lkp k) s = .next (s.setPe k { c with lookup := some (i.imm % 8, i.n, i.tgt) }))
         ∧ (i.op = 8 → i.n = 0 ∨ 48 < i.n ∨ size ≤ i.tgt → exec (.lkp k) s = .next (s.peFinish k (.exc 8)))
         ∧ (i.op = 9 → 5 ≤ i.f → exec (.exc k) s = .next (s.peFinish k (.exc i.f)))
         ∧ (i.op = 9 → i.f < 5 → exec (.exc k) s = .next (s.peFinish k (.exc 8)))
         ∧ (i.op = 10 → i.f ≤ 5 → exec (.done k m) s = .next (s.peFinish k (.done i.f m)))
         ∧ (i.op = 10 → 5 < i.f → exec (.done k m) s = .next (s.peFinish k (.exc 8))))
       ∧ (96 ≤ (s.pe k).steps → i.op = 10 → exec (.done k m) s = .next (s.peFinish k (.exc 3))))
  ∧ (∀ (s : State) (k t n tgt : Nat), s.pktRuns = true → (s.pe k).lookup = some (t, n, tgt) →
       let key := (s.pe k).kb.getList 0 0 n
       (∀ b, s.emLookup t key = some b →
         exec (.lookupResult k) s = .next ((s.setPe k { s.pe k with lookup := none, hit := some b }).peSettle k))
       ∧ (s.emLookup t key = none →
         exec (.lookupResult k) s = .next ((s.setPe k { s.pe k with lookup := none, pc := tgt }).peSettle k)))

/-! ### Replication (11) -/

/-- R303, R304, R306, R310: pass 1. A packet whose chain is empty leaves no copy; a base-layer packet reaches the one active delivery of a
chain with the delivery's DSEQ and ROC, which advance; while a pass is paused no other begins, and it resumes behind the last body
passed. -/
def Obligations.PassOne : Prop :=
  ∀ (s : State) (ch h : Nat) (mp : MPkt), s.repRuns = true → s.rep.sigQ.find? (fun p => p.ch == ch) = some mp →
    mp.sess = (s.sessOf ch).id →
    let b := s.body h
    (s.rep.paused = none → s.chain ch = [] → ∃ t, exec (.pass1 ch) s = .next t ∧ t.rep.sigQ = s.rep.sigQ.erase mp
      ∧ t.rep.recirc = s.rep.recirc ∧ t.rep.bodies = s.rep.bodies ∧ t.rep.nextFlight = s.rep.nextFlight + 1)
    ∧ (s.rep.paused = none → s.chain ch = [h] → s.bodyBad h = false → s.rep.recirc.length < 16384 → b.st = .active → b.dropPic = false →
      mp.join = false → mp.first = false → mp.tid = 0 → mp.var = 0 → (b.sh.update s.egrTime).wait ≤ 8191 →
      (b.sh.update s.egrTime).tooDeep ((s.ruleSet s.rep.epoch).copyLen b.d mp.len) = false →
      ∃ t c v, exec (.pass1 ch) s = .next t ∧ t.rep.sigQ = s.rep.sigQ.erase mp ∧ t.rep.recirc = s.rep.recirc ++ [c]
        ∧ c.mp = mp ∧ c.handle = h ∧ c.d = b.d ∧ c.dseq = b.dseq ∧ c.roc = b.roc ∧ c.retx = false
        ∧ t.rep.bodies = s.rep.bodies.set {} h v ∧ v.d = b.d ∧ v.dseq = (b.dseq + 1) % 65536
        ∧ v.roc = (if (b.dseq + 1) % 65536 = 0 then (b.roc + 1) % 2 ^ 32 else b.roc)
        ∧ t.flt = s.flt ∧ t.rc = s.rc ∧ t.sess = s.sess)
    ∧ (s.rep.paused.isSome = true → exec (.pass1 ch) s = .next s)
    ∧ (∀ w, s.rep.paused = some w → s.rep.recirc.length < 16384 → w.mp.sess = (s.sessOf w.mp.ch).id →
      exec .pass1Resume s = .next ({ s with rep := { s.rep with paused := none } }.passChain w.mp w.flight w.seen
        (afterSeen w.seen (s.chain w.mp.ch))))
    ∧ (∀ w, s.rep.paused = some w → 16384 ≤ s.rep.recirc.length → exec .pass1Resume s = .next s)

/-- R306, R308, R322: the build stage. A built copy that fails a rewrite check is discarded, counted, and raises PKT_REWRITE_FAIL; one that
passes enters its port's copy store, unless the store or its queue is full; a port's unit raises no event while its island is stopped
(R477). A copy whose delivery's body answers with an error is not built (R447). -/
def Obligations.CopiesBuilt : Prop :=
  ∀ (s : State) (agree : Bool) (c : Copy) (cs : List Copy), s.rep.recirc = c :: cs → s.pktRuns = true →
    let c : Copy := { c with hdr := s.copyHdr c }
    let u : State := { s with rep := { s.rep with recirc := cs } }.retxJoin
    (s.bodyBad c.handle = true → exec (.buildStage agree) s = .next (u.pass2Err c))
    ∧ (s.bodyBad c.handle = false → rewriteOk c agree = false → exec (.buildStage agree) s = .next (((u.pktCount 6 1).raise 0x171).copyDone c))
    ∧ (s.bodyBad c.handle = false → rewriteOk c agree = true → (s.islOf (4 + c.port)).st ≠ .off →
      (65536 ≤ s.storeUsed c.port → exec (.buildStage agree) s
        = .next ((if s.stopped (4 + c.port) = true then u.egrCount c.port 2 1 else (u.egrCount c.port 2 1).raise 0x17E).copyDone c))
      ∧ (s.storeUsed c.port < 65536 → (s.queueCfg c.port c.queue).depth ≤ s.queueDepth c.port c.queue →
        exec (.buildStage agree) s = .next ((u.egrCount c.port 3 1).copyDone c))
      ∧ (s.storeUsed c.port < 65536 → s.queueDepth c.port c.queue < (s.queueCfg c.port c.queue).depth → c.retx = false →
        exec (.buildStage agree) s
          = .next { u with egr := { s.egr with cal := s.egr.cal.set [] c.port (s.egr.cal.get [] c.port ++ [c]) } }))

/-- R233, R295, R297, R301, R305: The steward's work on the index and the bodies. A body is free once no packet is under way whose lookup or
pass 1 began before its unlinking, and not sooner; a stash slot moves into a bucket that has room. Both wait until the steward is free
(R421, R476; assumption log 103). An RTCP packet that authenticates has its messages dispatched; one that does not is counted and has no
effect. A PLI from the player is a refresh request that REFRESH_HOLD may hold, from anyone else it is counted as ignored; a NACK whose
number does not resolve is counted. -/
def Obligations.IndexAndRtcp : Prop :=
  (∀ (s : State) (ptr slot i : Nat) (fs : List Nat) (e : EmEnt),
       ((s.body ptr).waits = some fs → (∀ f ∈ fs, (s.flight f).live = false) → s.foundBody ptr = false → s.stewardFree = true →
         exec (.bodyFree ptr) s = .next { s with rep := { s.rep with bodies := s.rep.bodies.set {} ptr {} } })
       ∧ ((s.body ptr).waits = some fs → (∃ f ∈ fs, (s.flight f).live = true) ∨ s.foundBody ptr = true ∨ s.stewardFree = false →
            exec (.bodyFree ptr) s = .next s)
       ∧ (s.pkt.em.get none (655360 + slot) = some e → s.stewardFree = true → s.stopped 6 = false →
         let room := EmIdx.firstFree s.pkt.em (bucketSlots (s.emBucket1 e.tbl e.key) ++ bucketSlots (s.emBucket2 e.tbl e.key))
         (room = some i → exec (.stashMove slot) s = .next { s with
           pkt := { s.pkt with em := (s.pkt.em.set none i (some e)).set none (655360 + slot) none } })
         ∧ (room = none → exec (.stashMove slot) s = .next s)))
  ∧ (∀ (s : State) (h d : Nat) (hs : List Nat) (msgs : List RtcpMsg), s.repRuns = true → s.pkt.rtcpQ = h :: hs →
       s.stopped 7 = false → s.keyWaits (s.body h).d.keySlot = false → s.named h = true → s.bodyBad h = false →
       let u : State := { s with pkt := { s.pkt with rtcpQ := hs } }
       let b := s.body h
       let keyed := s.keyAt b.d.keySlot ≠ []
       exec (.rtcpPacket false msgs) s = .next (u.pktCount 5 1)
       ∧ (¬ keyed → exec (.rtcpPacket true msgs) s = .next (u.pktCount 5 1))
       ∧ (keyed → exec (.rtcpPacket true []) s = .next u)
       ∧ (keyed → b.d.player = true → exec (.rtcpPacket true [.pli]) s = .next ((u.rcCount b.d.ch 0 8 1).refreshReq b.d.ch false))
       ∧ (keyed → b.d.player = false → exec (.rtcpPacket true [.pli]) s = .next (u.rcCount b.d.ch 0 9 1))
       ∧ (keyed → b.resolve (d % 65536) = none → exec (.rtcpPacket true [.nack [d]]) s = .next (u.pktCount 8 1)))

/-! ### Egress (12) -/

/-- R323, R328, R329, R333: A copy whose bucket has started joins its queue with the finish tag that the queue's weight gives it, after the
tag of the queue's last copy, or, in an empty queue, after the class's virtual time. Gates and selection. An entry's interval begins at
its offset in the port's cycle; the port takes the head of the chosen queue, and its class's virtual time becomes that head's finish
tag. -/
def Obligations.QueuesAndGates : Prop :=
  (∀ (s : State) (p : Nat) (c : Copy), s.stopped (4 + p) = false → s.glb.st = .run ∨ s.glb.st = .safe →
       let l := s.egr.cal.get [] p
       let key := 1024 * c.port + c.queue
       let cfg := s.queueCfg c.port c.queue
       let q := s.egr.queues.get [] key
       let start := if q = [] then s.egr.vtime.get 0 (8 * c.port + cfg.cls) else s.egr.ftag.get 0 key
       let tag := (start + ceilDiv (c.len * 16) cfg.weight) % 2 ^ 32
       let old := s.egr.joined.drop fun k => k / 1024 == p
       ((∀ x ∈ l, aheadOf s.egrTime x.elig ≠ 0) → exec (.calendarBucket p) s = .next { s with egr := { s.egr with
           cal := s.egr.cal.set [] p l, joined := old } })
       ∧ (l = [c] → aheadOf s.egrTime c.elig = 0 → exec (.calendarBucket p) s = .next { s with egr := { s.egr with
           cal := s.egr.cal.set [] p []
           joined := old.upd 0 key fun n => n + 1
           ftag := s.egr.ftag.set 0 key tag
           queues := s.egr.queues.set [] key (q ++ [{ c with ftag := tag }]) } }))
  ∧ (∀ (s : State) (p e : Nat),
       (s.glb.st = .run ∨ s.glb.st = .safe → e < (s.gateImg p).ents.length → (s.gateImg p).cycleNs ≠ 0 → gateAt (s.gateImg p) s.ptpNs ≠ e →
         ∃ t, exec (.gateEntry p e) s = .next t ∧ s.time.ptp ≤ t.time.ptp ∧ t.time.ptp % 2000 = 0
           ∧ t.time.ptp / 2000 % (s.gateImg p).cycleNs = ((s.gateImg p).phaseNs + (s.gateImg p).startOf e) % (s.gateImg p).cycleNs
           ∧ t.egr.queues = s.egr.queues ∧ t.flt = s.flt)
       ∧ (s.canStart p = true → ∀ same qs u, s.gatesNow.judgeAll same p = (qs, u) →
         (u.chooseQueue p qs = none → exec (.schedulerSelect p same) s = .next u)
         ∧ (∀ q c cs, u.chooseQueue p qs = some q → u.queue p q = c :: cs →
           exec (.schedulerSelect p same) s = .next { u with egr := { u.egr with
             queues := u.egr.queues.set [] (1024 * p + q) cs
             vtime := u.egr.vtime.set 0 (8 * p + (u.queueCfg p q).cls) c.ftag
             waited := u.egr.waited.set false (1024 * p + q) false
             sealing := u.egr.sealing.set [] p (u.egr.sealing.get [] p ++ [c]) } }))
       ∧ (∀ same, s.canStart p = false → exec (.schedulerSelect p same) s = .next s))

/-- R337, R338, R341, R342: the seal stage and the MAC boundary. A frame without a key is discarded and counted, one whose two engines
disagree raises its pair's source, one that is not sealed or whose tag differs EGR_TAG_FAIL; a frame that passes is sent with the copy's
DSEQ, ROC and key slot. -/
def Obligations.SealAndSend : Prop :=
  ∀ (s : State) (p : Nat) (o : SealObs) (c : Copy) (cs : List Copy), s.canStart p = true → s.egr.sealing.get [] p = c :: cs → s.keyWaits c.d.keySlot = false →
    let keyed := s.keyAt c.d.keySlot ≠ []
    let same := itag s.egr.itSeed (tagSeen c p o) = c.tag
    (¬ keyed → ∃ t, exec (.sealStage p o) s = .next t ∧ t.egr.sent = s.egr.sent ∧ t.egr.sealing = s.egr.sealing.set [] p cs ∧ t.flt = s.flt
      ∧ t.egr.cnt = s.egr.cnt.upd 0 (16 * p + 5) (cntAdd 1))
    ∧ (keyed → o.agree = false → ∃ t, exec (.sealStage p o) s = .next t
      ∧ (s.canRise (0x114 + s.physPair (s.takeTurn p).1) = true →
        t.flt.sticky.get false (0x114 + s.physPair (s.takeTurn p).1) = true))
    ∧ (keyed → o.agree = true → o.sealed = false ∨ ¬ same → ∃ t, exec (.sealStage p o) s = .next t
      ∧ (s.canRise 0x172 = true → t.flt.sticky.get false 0x172 = true))
    ∧ (keyed → o.agree = true → o.sealed = true → same → ∃ t f, exec (.sealStage p o) s = .next t
      ∧ t.egr.sent = s.egr.sent.set none p (some f) ∧ f.port = p ∧ f.len = c.len ∧ f.dseq = c.dseq ∧ f.roc = c.roc ∧ f.key = c.d.keySlot ∧ f.rec_ = s.keyAt c.d.keySlot
      ∧ t.egr.sealing = s.egr.sealing.set [] p cs ∧ t.flt = s.flt ∧ t.sec = s.sec)

/-! ### Rule sets (11) -/

/-- R312, R413: a rule-set swap. It is accepted for a set of the image that is not active, while no other is under way; the flip makes the
set active under the next EPOCH modulo 16; the retirement completes the command once no packet of the old epoch is in flight. -/
def Obligations.RulesetSwaps : Prop :=
  ∀ (s : State) (h : CmdHdr) (idx : Nat) (w : Swap),
    let on (i : Instr) (t : State) : Prop := s.serving i false h = true → exec i s = .next t
    ((s.img.rules.length ≤ idx → on (.rulesetSwap h idx) (s.complete h .badArg))
      ∧ (idx < s.img.rules.length → idx = s.rep.active → on (.rulesetSwap h idx) (s.complete h .alreadyDone))
      ∧ (idx < s.img.rules.length → idx ≠ s.rep.active → s.rep.swap.isSome = true →
        on (.rulesetSwap h idx) (s.complete h .busy))
      ∧ (idx < s.img.rules.length → idx ≠ s.rep.active → s.rep.swap = none → on (.rulesetSwap h idx) ({ s with rep := { s.rep with
          swap := some { tag := h.tag, irq := h.irq, idx := idx, flipped := none, answered := false } } }.addJob h 0x07)))
    ∧ (s.rep.swap = some w → s.stopped 6 = false →
      (w.flipped = none → exec .rulesetFlip s = .next { s with rep := { s.rep with
        epoch := (s.rep.epoch + 1) % 16
        active := w.idx
        setOf := s.rep.setOf.set 0 ((s.rep.epoch + 1) % 16) w.idx
        swap := some { w with flipped := some s.rep.epoch } } })
      ∧ (∀ e, w.flipped = some e → s.inFlight e ≠ 0 → exec .rulesetRetire s = .next s)
      ∧ (∀ e, w.flipped = some e → s.inFlight e = 0 → w.answered = false → exec .rulesetRetire s
          = .next ({ s with rep := { s.rep with swap := none } }.completeJob { tag := w.tag, irq := w.irq } .ok))
      ∧ (∀ e, w.flipped = some e → s.inFlight e = 0 → w.answered = true → exec .rulesetRetire s
          = .next { s with rep := { s.rep with swap := none } }))

/-! ### The granary (13) -/

/-- R105, R355, R356, R358, R447: one access at a granary with nothing queued. Its position accepts it and makes its DRAM access in the same
cycle. A write stores its bytes and is answered without error; a read of a unit that is not poisoned returns its bytes, and a poisoned
unit an error response; a corrected error raises HBM_CE and an uncorrectable one HBM_UE; a read whose bank is not ready stays queued; an
access of a stack that is stopped stalls; one of a master whose port is closed is held there. When data is captured is the model's
reading (assumption log 69). -/
def Obligations.GranaryAccesses : Prop :=
  ∀ (s : State) (a : GranAcc) (g : Nat), s.hbm.stalled = [] → s.hbm.rq = [] → s.hbm.wq = [] → s.hbm.retq = [] → s.hbm.batch = [] →
    a.addr % 64 + a.len ≤ 64 →
    let ret (err : Bool) (data : List Byte) : List GranRet := [{ port := a.port, err := err, data := data }]
    let rets (l : List GranRet) : State := { s with hbm := { s.hbm with rets := l } }
    let data := s.accRead a.addr a.len
    (s.portClosed a.master = false →
      (s.meets a.addr = .served g →
        (a.write = true → ∃ t, exec (.granaryAccess [a] .clean) s = .next t ∧ t.hbm.rets = ret false []
          ∧ t.hbm.mem = (s.accWrite 0 a.addr a.data).hbm.mem ∧ t.rep.bodies = (s.accWrite 0 a.addr a.data).rep.bodies
          ∧ t.hbm.stalled = [] ∧ t.hbm.wq = [] ∧ t.flt = s.flt ∧ t.chip = (s.accWrite 0 a.addr a.data).chip ∧ t.sec = s.sec)
        ∧ (a.write = false → s.unitPoisoned (a.addr / 64) = false →
          exec (.granaryAccess [a] .clean) s = .next (rets (ret false data))
          ∧ (∃ t, exec (.granaryAccess [a] .corrected) s = .next t
            ∧ (s.canRise (srcHbmCe (g / 32)) = true → t.flt.sticky.get false (srcHbmCe (g / 32)) = true))
          ∧ (∃ t, exec (.granaryAccess [a] .uncorrectable) s = .next t
            ∧ (s.canRise (srcHbmUe (g / 32)) = true → t.flt.sticky.get false (srcHbmUe (g / 32)) = true))
          ∧ (∀ c : GranCyc, Config.bankOf a.addr ∈ c.slow → ∃ t, exec (.granaryAccess [a] .clean c) s = .next t ∧ t.hbm.rets = []
            ∧ t.hbm.rq = s.hbm.rq.set [] (s.posOf a.addr) [{ id := 0, acc := a, data := data, bad := false }] ∧ t.hbm.mem = s.hbm.mem))
        ∧ (a.write = false → s.unitPoisoned (a.addr / 64) = true →
          exec (.granaryAccess [a] .clean) s = .next ((rets (ret true [])).masterError a.master a.addr)))
      ∧ (s.meets a.addr = .wait → exec (.granaryAccess [a] .clean) s = .next { s with hbm := { s.hbm with stalled := [a], rets := [] } })
      ∧ (s.meets a.addr = .error → exec (.granaryAccess [a] .clean) s = .next ((rets (ret true [])).masterError a.master a.addr)))
    ∧ (s.portClosed a.master = true → a.master ≠ 0xC4 → exec (.granaryAccess [a] .clean) s = .next { rets [] with fab := { s.fab with
        held := s.fab.held ++ [{ master := a.master, addr := a.addr, len := a.len, write := a.write, data := a.data }] } })

/-- R353: an address decodes to a position and an offset within it, and no two addresses decode to the same pair. -/
def Obligations.PositionsApart : Prop :=
  ∀ (s : State) (a b : Nat), s.posOf a = s.posOf b → s.offOf a = s.offOf b → a = b

/-- R357, R358, R359, R375: refresh, scrub and temperature. A due refresh with reads queued is postponed, up to 8; one without makes all up;
a scrub read of an idle position that finds nothing counts a full pass at its end; a corrected error of it raises HBM_CE; a stack's
report marks it hot from 85 °C on. -/
def Obligations.RefreshAndScrub : Prop :=
  ∀ (s : State) (g k n addr : Nat),
    ((s.stack (g / 32)).st = .service → (s.pc g).role ≠ .retired →
      exec (.refreshDue g false) s = .next (s.setPc g { s.pc g with outst := 0 })
      ∧ ((s.pc g).outst < 7 → ∃ t, exec (.refreshDue g true) s = .next t
        ∧ t.hbm.pcs = s.hbm.pcs.set {} g { s.pc g with outst := (s.pc g).outst + 1 })
      ∧ ((s.pc g).outst = 7 → ∃ t, exec (.refreshDue g true) s = .next t ∧ t.hbm.pcs = s.hbm.pcs.set {} g { s.pc g with outst := 8 }
        ∧ (t.stack (g / 32)).maxHit = true)
      ∧ (8 ≤ (s.pc g).outst → ∃ t, exec (.refreshDue g true) s = .next t ∧ t.hbm.pcs = s.hbm.pcs.set {} g { s.pc g with outst := 7 }
        ∧ (t.stack (g / 32)).maxHit = true))
    ∧ (s.meets addr = .served g → (s.stack (s.posOf addr % 2)).st = .service → s.posIdle (s.posOf addr) = true →
      exec (.scrubRead addr .clean false) s = .next s
      ∧ exec (.scrubRead addr .clean true) s = .next (s.hbmCount (s.posOf addr % 2) 2 1)
      ∧ (s.unitPoisoned (addr / 64) = false → ∃ t, exec (.scrubRead addr .corrected false) s = .next t
        ∧ (s.canRise (srcHbmCe (g / 32)) = true → t.flt.sticky.get false (srcHbmCe (g / 32)) = true)))
    ∧ (s.glb.st ≠ .reset → s.stopped (2 + k) = false → exec (.stackTemperatureReport k n) s
        = .next (s.setStack k { s.stack k with temp := n % 256, hot := decide (85 ≤ n) }))

/-- R354, R361, R362, R364, R365, R367, R368, R419: Drains. A periodic drain begins with the check of the lowest spare of a stack that is
not exhausted; the gather ends; a check that succeeds lets the copy begin; at the swap the spare serves the target's position; an abort
before the swap abandons the drain and leaves the target in service. A full retraining ends. A stack that kept its contents, of which
every pseudo-channel works and a spare is left, resumes in service, and its change of clock is no longer in progress; while a gather
runs or the clock is stopped it does not resume. -/
def Obligations.DrainsAndResumption : Prop :=
  (∀ (s : State) (k x t : Nat) (xs : List Nat), k < 2 →
       let v := s.stack k
       (s.drainsRun k = true → v.drain.phase = .idle → v.drain.want = [] → s.stackSpares k = x :: xs → v.exhausted = false →
         s.drainTarget k = some t → exec (.drainStart k) s = .next (s.setStack k { v with
           gather := true, drain := { v.drain with phase := .check, tgt := t, spare := x } }))
       ∧ (s.drainsRun k = true → v.drain.phase = .idle → v.drain.want = [] → v.exhausted = true → exec (.drainStart k) s = .next s)
       ∧ (v.gather = true → (s.islOf (2 + k)).held = [] → exec (.trainingGatherEnd k) s = .next (s.setStack k { v with gather := false }))
       ∧ (v.gather = false → v.retrain = false → v.st = .service → v.drain.phase = .check →
         ∃ u, exec (.trainingDone k true) s = .next u ∧ (u.stack k).drain = { v.drain with phase := .copy } ∧ u.hbm.map = s.hbm.map
           ∧ u.flt = s.flt)
       ∧ (v.drain.phase = .copy → v.st = .service → ∃ u, exec (.drainSwap k) s = .next u
         ∧ u.hbm.map = s.hbm.map.set none (s.pc v.drain.tgt).pos (some v.drain.spare)
         ∧ (u.stack k).drain.phase = .offline ∧ (u.stack k).gather = true ∧ (u.unit (unitPc v.drain.tgt)).st = .quarantined
         ∧ u.hbm.mem = s.hbm.mem ∧ u.flt = s.flt)
       ∧ (s.mbxReached = true → s.mbx.abortPend = none → s.stopped 1 = false →
         (v.drain.phase = .idle → exec (.abortDrain k) s = .next (s.abortDone 3))
         ∧ (v.drain.phase = .check ∨ v.drain.phase = .copy → v.st ≠ .training → ∃ u, exec (.abortDrain k) s = .next u ∧ (u.stack k).drain.phase = .idle
           ∧ u.hbm.map = s.hbm.map ∧ u.hbm.mem = s.hbm.mem ∧ u.led = s.led ∧ u.mbx.abortRes = 1)
         ∧ (v.drain.phase = .offline → exec (.abortDrain k) s = .next (s.abortDone 2)))
       ∧ (s.mbxReached = false → exec (.abortDrain k) s = .next (s.unreached 0))
       ∧ (s.mbxReached = true → s.mbx.abortPend.isSome = true → exec (.abortDrain k) s = .next s))
  ∧ (∀ (s : State) (k : Nat) (ws : List Nat), k < 2 → (s.stack k).retrain = true → Tbl.wf {} s.isl = true →
       ((s.stack k).gather = false → (s.stack k).lost = false → s.stopped (2 + k) = false → s.glb.st = .run → (s.islOf (2 + k)).held = [] →
         (∀ g, 32 * k ≤ g → g < 32 * k + 32 → g ∈ ws ∧ (s.pc g).role ≠ .retired) → s.stackSpares k ≠ [] →
         ∃ t, exec (.hbmResume k ws) s = .next t ∧ (t.stack k).st = .service ∧ (t.stack k).retrain = false ∧ (t.islOf (2 + k)).trans = none
           ∧ t.hbm.mem = s.hbm.mem ∧ t.hbm.map = s.hbm.map)
       ∧ ((s.stack k).gather = true ∨ s.stopped (2 + k) = true → exec (.hbmResume k ws) s = .next s))

/-! ### The fabric (04) -/

/-- R101, R102, R103, R105, R106, R110, R111, R148, R386, R410, R489: One transaction on a fabric where none waits. A closed port keeps it;
an allowed one reads or writes where its target answers, and a read that finds a single-bit error in a scratchpad raises SPAD_CE; one
that the firewall refuses freezes the master and is answered with an error response; before the lock the PCIe function is aborted. The
host's requests to BAR2 read and write its memory, and one to a BAR that is not decoded is an Unsupported Request. The fabric's and
SEC's registers. FAB_LOCK fixes the windows, but in LOADFAIL; FAB_UNFREEZE reopens a frozen port but the debug master's, and discards
what it held with error responses; FAB_VIOL_LAST clears its count on the host's read, and SEC_KEY_STAT its failure count. -/
def Obligations.FabricTransactions : Prop :=
  (∀ (s : State) (r : FabReq), s.glb.st ≠ .reset → s.fab.waiting = [] → masterIssued r.master = true →
       let u : State := { s with fab := { s.fab with resps := [] } }
       let a := plainOf r.addr
       (s.portClosed r.master = true → r.master ≠ 0xC4 →
         exec (.fabricTransaction [r]) s = .next { s with fab := { s.fab with resps := [], held := s.fab.held ++ [r] } })
       ∧ (s.portClosed r.master = false → r.bar2 = false → (r.master = 0xC4 → s.hostBar 4 = true) →
         (s.fab.lock = false → r.master = 0xC4 → aliasOf r.addr ≠ 3 →
           exec (.fabricTransaction [r]) s = .next (u.fabRespond 0xC4 true []))
         ∧ (s.fabVerdict r = .allow → ∀ g, s.rangeMeets a r.len r.write = .served g →
           (r.write = false → r.ecc = .clean → exec (.fabricTransaction [r]) s
             = .next { s with fab := { s.fab with resps := [{ master := r.master, err := false, data := s.accRead a r.len }] } })
           ∧ (∀ p, r.write = false → r.ecc = .single → spadOf a = some p → exec (.fabricTransaction [r]) s = .next ({ s with fab := { s.fab with
               resps := [{ master := r.master, err := false, data := s.accRead a r.len }] } }.raise (spadCe p)))
           ∧ (r.write = true → exec (.fabricTransaction [r]) s
             = .next ((u.accWrite (aliasOf r.addr) a r.data).fabRespond r.master false [])))
         ∧ (s.fabVerdict r = .allow → s.rangeMeets a r.len r.write = .wait → exec (.fabricTransaction [r]) s
             = .next { s with fab := { s.fab with resps := [], waiting := [r] } })
         ∧ (∀ k, s.fabVerdict r = .violation k → exec (.fabricTransaction [r]) s = .next ((({ s with fab := { s.fab with
             frozen := s.fab.frozen.set false r.master true
             resps := [{ master := r.master, err := true, data := [] }] } }).fabCancel r.master).fabViolations [(r.master, k)])))
       ∧ (r.master = 0xC4 → r.bar2 = false → s.hostBar 4 = false → exec (.fabricTransaction [r]) s = .next (u.unreached 4))
       ∧ (r.master = 0xC4 → r.bar2 = true →
         (s.hostBar 2 = false → exec (.fabricTransaction [r]) s = .next (u.unreached 2))
         ∧ (s.hostBar 2 = true → r.addr + r.len ≤ 0x10000000 → s.stopped 8 = false → s.isFrozen 0xC4 = false →
           (r.write = true → exec (.fabricTransaction [r]) s = .next ((u.bar2Write r.addr r.data).hostCpl 0))
           ∧ (r.write = false → exec (.fabricTransaction [r]) s = .next ((u.fabRespond 0xC4 false (s.bar2Read r.addr r.len)).hostCpl 0)))))
  ∧ (∀ (s : State) (m : Nat), s.glb.st ≠ .reset →
       (s.glb.st ≠ .loadfail → exec .fabLock s = .next { s with fab := { s.fab with lock := true } })
       ∧ (s.glb.st = .loadfail → exec .fabLock s = .next s)
       ∧ (masterIssued m = true → m ≠ 0xC5 → s.fab.frozen.get false m = true → ∃ t, exec (.fabUnfreeze m) s = .next t
         ∧ t.fab.frozen = s.fab.frozen.set false m false ∧ t.fab.held = (s.fab.held.filter fun r => r.master != m)
         ∧ t.fab.resps = ((s.fab.held.filter fun r => r.master == m).map fun _ => { master := m, err := true, data := [] })
         ∧ t.fab.lock = s.fab.lock ∧ t.fab.win = s.fab.win ∧ t.hbm = s.hbm ∧ t.chip = s.chip)
       ∧ exec (.fabUnfreeze 0xC5) s = .next s
       ∧ (s.hostBar 0 = true → ∃ t, exec .fabViolLastRead s = .next t ∧ t.fab = { s.fab with violCnt := 0 } ∧ t.outs.bar0 = s.fabViolLast ∧ t.outs.cpl = 0)
       ∧ (s.hostBar 0 = true → s.stopped 7 = false → ∃ t, exec .secKeyStatRead s = .next t ∧ t.sec = { s.sec with failCnt := 0 }
         ∧ t.outs.lastHost = some 0x300C0)
       ∧ (s.hostBar 0 = false → exec .fabViolLastRead s = .next (s.unreached 0) ∧ exec .secKeyStatRead s = .next (s.unreached 0)))

/-- R102, R103, R111: the firewall's verdict. Alias code 3 is a violation of KIND 3. Once the windows are locked a transaction is allowed
only by an enabled window of its master that covers it and grants its access and its alias, and KIND tells what was missing: 0 no
window, 1 no grant, 2 the alias. -/
def Obligations.FirewallVerdict : Prop :=
  ∀ (s : State) (r : FabReq),
    (aliasOf r.addr = 3 → s.fabVerdict r = .violation 3)
    ∧ (aliasOf r.addr ≠ 3 → s.fab.lock = true →
      ((∀ w, w < 8 → s.inWindow r w = false) → s.fabVerdict r = .violation 0)
      ∧ ((∃ w, w < 8 ∧ s.inWindow r w = true) → (∀ w, w < 8 → s.inWindow r w = true → s.winGrants r w = false) →
        s.fabVerdict r = .violation 1)
      ∧ ((∃ w, w < 8 ∧ s.inWindow r w = true ∧ s.winGrants r w = true) →
        (∀ w, w < 8 → s.inWindow r w = true → s.winGrants r w = true → s.winAlias r w = false) → s.fabVerdict r = .violation 2)
      ∧ (s.fabVerdict r = .allow ↔ ∃ w, w < 8 ∧ s.inWindow r w = true ∧ s.winGrants r w = true ∧ s.winAlias r w = true))

/-! ### Scratchpads and DMA (14) -/

/-- R381, R382, R385, R386: one access of a scratchpad's port. A read returns the word; a write leaves the enabled bytes of its data, the
set and clear aliases set or clear the enabled bits that its data names; a single-bit error of a read raises SPAD_CE; an access of a
port that loses its bank to one of higher priority stalls, and is presented again. -/
def Obligations.ScratchpadAccesses : Prop :=
  ∀ (s : State) (a b : SpadAcc) (p : Nat), s.glb.st ≠ .reset → s.chip.stalled = [] → spadOf a.addr = some p →
    s.stopped (spadIsland p) = false →
    let word := s.ramRead a.addr 8
    (a.op = 0 → exec (.scratchpadAccess [a] .clean) s
      = .next { s with chip := { s.chip with reads := [(a, BitVec.ofNat 64 (leNat word))], stalled := [], errs := [] } })
    ∧ (a.op = 0 → ∃ t, exec (.scratchpadAccess [a] .single) s = .next t
      ∧ (s.canRise (spadCe p) = true → t.flt.sticky.get false (spadCe p) = true))
    ∧ (1 ≤ a.op → ∃ t, exec (.scratchpadAccess [a] .clean) s = .next t
      ∧ t.chip.mem = s.chip.mem.setList 0 a.addr ((leBytes 8 a.data.toNat).mapIdx fun i x =>
          let old := s.ramByte (a.addr + i)
          if bitOf a.be i then (if a.op = 2 then old ||| x else if a.op = 3 then old &&& ~~~x else x) else old)
      ∧ t.chip.reads = [] ∧ t.flt = s.flt ∧ t.hbm = s.hbm)
    ∧ (bankOf a.addr = bankOf b.addr → a.addr ≠ b.addr → a.rank < b.rank → a.op = 0 → b.op = 0 →
      exec (.scratchpadAccess [b, a] .clean) s
        = .next { s with chip := { s.chip with reads := [(a, BitVec.ofNat 64 (leNat word))], stalled := [b], errs := [] } })

/-- R395, R396, R398, R400, R402, R405: a DMA channel's transfer. START begins a transfer with settings that R396 allows, waits for an
asserted FIFO where the trigger asks for one, and reports CFG_ERR otherwise; it does nothing to an active channel. A transfer that waits
goes when its FIFO is asserted. A beat is retried as often as the limit allows; an error response beyond it halts the channel and raises
DMA_HALT; an abort before the pulse stops it. -/
def Obligations.DmaTransfers : Prop :=
  ∀ (s : State) (n : Nat), s.glb.st ≠ .reset →
    let c := s.dma n
    let ready : DmaCh := { c with abortRes := 0, done := 0, used := 0, usedAt := 0, hold := [] }
    let used := if c.done = c.usedAt then c.used else 0
    (c.st.active = false → c.trig = 0 → c.cfgOk = true → exec (.dmaStart n) s = .next (s.setDma n { ready with st := .run }))
    ∧ (c.st.active = false → c.trig = 1 → c.cfgOk = true → exec (.dmaStart n) s
      = .next (s.setDma n { ready with st := if s.fifoAsserted c.fifo then .run else .waitHigh }))
    ∧ (c.st.active = false → c.cfgOk = false → exec (.dmaStart n) s = .next (s.setDma n { ready with st := .cfgErr }))
    ∧ (c.st.active = true → exec (.dmaStart n) s = .next s)
    ∧ (c.trig = 1 → c.st = .waitHigh ∨ c.st = .paused → s.fifoAsserted c.fifo = true →
      exec (.dmaFifoLevelStart n) s = .next (s.setDma n { c with st := .run }))
    ∧ (s.dmaRuns n = true → s.dmaReach n = none →
      (used < c.limit → exec (.dmaBeatError n c.done) s = .next (s.setDma n { c with used := used + 1, usedAt := c.done }))
      ∧ (c.limit ≤ used → exec (.dmaBeatError n c.done) s
        = .next ((s.setDma n { c with st := .haltedBus, used := used, usedAt := c.done }).raiseFrom 0x17B (45 + n))))
    ∧ (s.dmaRuns n = true → s.dmaReach n = none → c.done < c.len →
      exec (.dmaAbort n 0) s = .next (s.setDma n { c with st := .aborted, abortRes := 1, hold := [] }))
    ∧ (c.st.active = false → exec (.dmaAbort n c.done) s = .next (s.setDma n { c with abortRes := 2 }))
    ∧ (∀ w, s.dmaRuns n = true → c.trig = 1 → w ≤ s.fifoFill c.fifo - s.fifoLow c.fifo → s.dmaReach n = none →
      let u := (s.dmaMove n (c.done + w * c.sw)).dmaFinish n
      exec (.dmaFifoLevelPause n w) s = .next (if (u.dma n).st = .run ∧ u.fifoAsserted (u.dma n).fifo = false then
        u.setDma n { u.dma n with st := .paused } else u))
    ∧ (∀ f ops, s.stopped (fifoIsland f) = false → exec (.dmaFifoFlush f ops) s = .next (s.fifoFlush f ops))

/-- R395, R397, R399, R466: A transfer that meets no violation and can run to its end sends one completion pulse to the unit that EVENT
names and is DONE; to an island in HOLD the pulse waits, and to one that is OFF it is discarded; no interrupt is raised, no record
written, and no other notice given. An IMMEDIATE transfer that meets no violation completes: the bytes of its destination are those that
its source held, where neither lies in the granary, and the pulse goes to the unit that EVENT names. -/
def Obligations.DmaCompletes : Prop :=
  (∀ (s : State) (n : Nat), s.dmaRuns n = true → s.dmaReach n = none → s.dmaCanEnd n = true → (s.dma n).done ≤ (s.dma n).len →
       (s.dma n).len % (s.dma n).dw = 0 →
       let e := (s.dma n).event
       ∃ t, exec (.dmaComplete n) s = .next t ∧ (t.dma n).st = .done
         ∧ t.chip.pulse = (if e = 0 ∨ s.stopped (eventIsland e) = true then s.chip.pulse else some e)
         ∧ t.chip.heldPulses = (if e ≠ 0 ∧ (s.islOf (eventIsland e)).st = .hold then s.chip.heldPulses ++ [e] else s.chip.heldPulses)
         ∧ t.irq = s.irq ∧ t.flt = s.flt ∧ t.led = s.led ∧ t.mbx = s.mbx ∧ t.bar2 = s.bar2 ∧ t.host = s.host)
  ∧ (∀ (s : State) (n : Nat), s.dmaRuns n = true → s.dmaReach n = none → (s.dma n).trig = 0 → (s.dma n).done = 0 →
       let c := s.dma n
       spadBase ≤ plainOf c.src → spadBase ≤ plainOf c.dst → plainOf c.dst + c.len ≤ spadTop → aliasOf c.dst = 0 → c.len ≠ 0 →
       c.len % c.dw = 0 → s.stopped (eventIsland c.event) = false →
       ∃ t, exec (.dmaComplete n) s = .next t
         ∧ t.chip.mem = s.chip.mem.setList 0 (plainOf c.dst) (s.ramRead (plainOf c.src) c.len)
         ∧ (t.dma n).st = .done ∧ (t.dma n).done = c.len
         ∧ t.chip.pulse = (if c.event = 0 then s.chip.pulse else some c.event)
         ∧ t.hbm = s.hbm ∧ t.flt = s.flt ∧ t.fab = s.fab)

/-! ### Faults and spares (15) -/

/-- R18, R438, R439, R440, R441, R442, R444: An event on one source while no source of its class is marked. A reserved source and a live one
have none; an event sets sticky, and beyond RECORD it marks its source and raises the interrupt of its number; before the table is
installed every source records, and one whose reaction byte is lost in both copies reacts at SAFE; an event that finds both copies of a
byte at fault leaves it lost. Escalation: with a mark held in its class a source reacts one level above its table level, and the
escalation is counted. A source at level SAFE takes the device out of RUN to SAFE, unless a RESTART executed in the same AON cycle. -/
def Obligations.FaultReactions : Prop :=
  (∀ (s : State) (n u : Nat),
       (s.fltLevel n = if s.flt.installed then (if s.flt.lost.get false n then 3 else s.flt.level.get 0 n) else 0) ∧
       (∀ k, s.flt.installed = true → s.canRise 0x173 = false →
         exec (.faultEvent [{ src := 0x173, unit := 0, hit := .bothCopies k }]) s
           = .next { s with flt := { s.flt with lost := s.flt.lost.set false k true } }) ∧
       (s.canRise n = false → exec (.faultEvent [{ src := n, unit := u }]) s = .next s)
       ∧ (s.canRise n = true →
         let rec_ : State := { s with flt := { s.flt with sticky := s.flt.sticky.set false n true } }
         (s.flt.installed = false → exec (.faultEvent [{ src := n, unit := u }]) s = .next rec_)
         ∧ (s.flt.installed = true → s.muted (fltUnit n (some u)) = true → exec (.faultEvent [{ src := n, unit := u }]) s = .next rec_)
         ∧ (s.flt.installed = true → s.muted (fltUnit n (some u)) = false → s.classHeld (fltClass n) = false →
           (s.fltLevel n = 0 → exec (.faultEvent [{ src := n, unit := u }]) s = .next rec_)
           ∧ (s.fltLevel n = 1 → exec (.faultEvent [{ src := n, unit := u }]) s
               = .next (({ s with flt := { s.flt with
                   sticky := s.flt.sticky.set false n true, mark := s.flt.mark.set false n true } }).irqEvent (0x200 + n))))
         ∧ (∃ t, exec (.faultEvent [{ src := n, unit := u }]) s = .next t ∧ t.flt.sticky.get false n = true)))
  ∧ (∀ (s : State) (n u : Nat), s.canRise n = true → s.flt.installed = true → s.muted (fltUnit n (some u)) = false →
       s.classHeld (fltClass n) = true → s.fltLevel n = 0 →
       exec (.faultEvent [{ src := n, unit := u }]) s = .next (({ s with flt := { s.flt with
         sticky := s.flt.sticky.set false n true
         mark := s.flt.mark.set false n true
         esc := min 255 (s.flt.esc + 1)
         escSat := s.flt.escSat || decide (254 ≤ s.flt.esc) } }).irqEvent (0x200 + n)))
  ∧ (∀ (s : State) (n u : Nat), s.canRise n = true → s.flt.installed = true → s.muted (fltUnit n (some u)) = false →
       s.classHeld (fltClass n) = false → s.fltLevel n = 3 → s.glb.st = .run →
       (s.glb.restartPend = false ∨ s.glb.restartAt ≠ s.time.aon →
         ∃ t, exec (.faultEvent [{ src := n, unit := u }]) s = .next t ∧ t.glb = { s.glb with st := .safe }
           ∧ t.flt.mark = s.flt.mark.set false n true)
       ∧ (s.glb.restartPend = true → s.glb.restartAt = s.time.aon →
         ∃ t, exec (.faultEvent [{ src := n, unit := u }]) s = .next t ∧ t.glb = s.glb ∧ t.flt.mark = s.flt.mark.set false n true))

/-- R439, R441, R461, R462, R79: acknowledgements and forcing. FAULT_ACK clears a mark and completes with OK, or with ALREADY_DONE where
there is none and with BAD_ARG for a reserved source; FLT_ACK clears one mark, or all; the marks are all that they change but the
completion. A write of FLT_FORCE that raises one force bit of a source is an event, whatever the state of its island. -/
def Obligations.Acknowledge : Prop :=
  ∀ (s : State) (h : CmdHdr) (n k : Nat),
    let on (i : Instr) (t : State) : Prop := s.serving i false h = true → exec i s = .next t
    let onF (i : Instr) (t : State) : Prop := s.serving i true h = true → exec i s = .next t
    let clear : State := { s with flt := { s.flt with mark := s.flt.mark.set false n false } }
    ((fltReserved n = true → on (.faultAck h n) (s.complete h .badArg))
      ∧ (fltReserved n = false → s.flt.mark.get false n = true → on (.faultAck h n) (clear.complete h .ok))
      ∧ (fltReserved n = false → s.flt.mark.get false n = false → on (.faultAck h n) (s.complete h .alreadyDone)))
    ∧ (fltReserved n = false → s.flt.mark.get false n = true →
      onF (.clearAlarm h n) (clear.complete h .ok))
    ∧ (s.glb.st ≠ .reset → exec (.fltAck n) s = .next clear
      ∧ exec .fltAckAll s = .next { s with flt := { s.flt with mark := [] } })
    ∧ (s.glb.st ≠ .reset → n < 16 → k < 32 → fltReserved (32 * n + k) = false → s.flt.force.get false (32 * n + k) = false →
      ∃ t, exec (.fltForce n (BitVec.ofNat 32 (2 ^ k))) s = .next t ∧ t.flt.force.get false (32 * n + k) = true
        ∧ (s.canRise (32 * n + k) true = true → t.flt.sticky.get false (32 * n + k) = true))

/-- R136: the core that takes a lane is the lowest-numbered one that is bound to no lane, is in no move, and is usable. -/
def Obligations.SpareSelection : Prop :=
  ∀ (s : State) (k : Nat),
    (s.encSpare = some k ↔ k < 32 ∧ s.encTaken k = false ∧ s.encUsable k = true
      ∧ ∀ j, j < k → s.encTaken j = true ∨ s.encUsable j = false)
    ∧ (s.decSpare = some k ↔ k < 9 ∧ s.decTaken k = false ∧ s.decUsable k = true
      ∧ ∀ j, j < k → s.decTaken j = true ∨ s.decUsable j = false)

/-- R134, R135, R338, R422, R423, R427, R449, R450, R451: A spare's admission case. With the case's signature the core is ready to be bound,
and at the next slot boundary the lane's entry names it. Units outside the lanes. A spare steward core takes over while fewer than 3
serve; an active core that stalls raises its watchdog, and none in WFI does; a loaded work queue raises STEWARD_LOAD; a logical pair
takes the spare; a pair or a core that passes its quarantine test is spare, and one that fails it is retired. -/
def Obligations.SparesMove : Prop :=
  (∀ (s : State) (l k : Nat) (err : BitVec 64),
       let n := gleanCaseAt s.img.glean 0 (s.encOf k).gleans
       let m := gleanCaseAt s.img.glean 1 (s.decOf k).gleans
       ((s.lane l).adm = some k → s.caseMatches n (s.encCaseSig n err) = true →
         ∃ t, exec (.spareAdmissionDone false l err false) s = .next t
           ∧ t.rota.lanes = s.rota.lanes.set {} l { s.lane l with adm := none, ready := some k } ∧ t.flt = s.flt ∧ t.led = s.led)
       ∧ ((s.dlane l).adm = some k → s.caseMatches m (s.decCaseSig m ^^^ err) = true →
         ∃ t, exec (.spareAdmissionDone true l err false) s = .next t
           ∧ t.rota.dlanes = s.rota.dlanes.set {} l { s.dlane l with adm := none, ready := some k } ∧ t.flt = s.flt ∧ t.led = s.led)
       ∧ ((s.lane l).ready = some k → s.encUsable k = true → exec (.laneRebind false l) s = .next
         ((s.setLane l { s.lane l with bound := some k, adm := none, ready := none, failed := false }).setUnitSt k .inService))
       ∧ ((s.dlane l).ready = some k → s.decUsable k = true → exec (.laneRebind true l) s = .next
         ((s.setDLane l { s.dlane l with bound := some k, adm := none, ready := none, failed := false }).setUnitSt (32 + k) .inService)))
  ∧ (∀ (s : State) (c n m : Nat) (err : BitVec 64), c < 4 →
       ((s.unit (41 + c)).st = .spare → s.stewards < 3 → s.glb.st ≠ .reset → exec (.stewardTakeover c) s = .next (s.setUnitSt (41 + c) .inService))
       ∧ (3 ≤ s.stewards → exec (.stewardTakeover c) s = .next s)
       ∧ ((s.unit (41 + c)).st = .inService → (s.irqTgt c).idle = false → s.stopped 1 = false →
         exec (.stwWatchdog c) s = .next (s.raise (0x110 + c)))
       ∧ ((s.irqTgt c).idle = true → exec (.stwWatchdog c) s = .next s)
       ∧ exec (.stewardCoreWfi c) s = .next (s.setIrqTgt c { s.irqTgt c with idle := true, serving := none })
       ∧ (230 < s.mbx.jobs.length → s.stopped 1 = false → exec .stewardLoad s = .next ({ s with mbx := { s.mbx with loadHi := true } }.setLine 0x17D true))
       ∧ (s.mbx.jobs.length ≤ 230 → exec .stewardLoad s = .next s)
       ∧ (s.egr.remap.get none n = some m → exec (.srtpRemap n) s = .next { s with egr := { s.egr with
           srtp := s.egr.srtp.set none n (some m), remap := s.egr.remap.set none n none } })
       ∧ (s.testable n = true → 251 ≤ n → exec (.quarantineTestEnd n true err) s = .next
           { s.setUnitSt n .spare with led := { (s.setUnitSt n .spare).led with cause := s.led.cause.set 0 n 0 } })
       ∧ (s.testable n = true → n < 32 → s.caseMatches (lastCase s.img.glean 0) (s.encCaseSig (lastCase s.img.glean 0) err) = true →
           ∃ t, exec (.quarantineTestEnd n true err) s = .next t ∧ (t.unit n).st = .spare)
       ∧ (s.testable n = true → 32 ≤ n → n < 41 →
           s.caseMatches (lastCase s.img.glean 1) (s.decCaseSig (lastCase s.img.glean 1) ^^^ err) = true →
           ∃ t, exec (.quarantineTestEnd n true err) s = .next t ∧ (t.unit n).st = .spare)
       ∧ (s.testable n = true → ∃ t, exec (.quarantineTestEnd n false err) s = .next t ∧ (t.unit n).st = .retired
           ∧ t.led.records.length = s.led.records.length + 1 ∧ t.flt = s.flt))

/-- R40, R438, R446, R449, R451, R452, R453, R456: links and the ledger. A port whose link is lost is down (the PTP slave port aside); a
port whose lanes all trained is up, and its retraining tests its quarantined lanes; a ratio of more than 1 in 10,000 is an event of the
lane; an exchange in lock puts the spare lane in the failed one's place; the wear counters rise once an hour, and after a power-on event
no write of the ledger starts. -/
def Obligations.LinksAndWear : Prop :=
  ∀ (s : State) (p k e n tj : Nat) (ts : List Nat),
    let q := s.portSt p
    (q.up = true → p ≠ s.img.net.ptpPort → exec (.portLinkDown p) s = .next (s.setPortSt p { q with up := false, subFor := none }))
    ∧ (q.up = false → exec (.portLinkDown p) s = .next s)
    ∧ (q.up = false → s.stopped (4 + p) = false → s.glb.st = .run → (∀ i, i < 5 → (s.unit (241 + 5 * p + i)).st ≠ .quarantined) →
      (∀ i ∈ q.lanes, i ∈ ts) → exec (.portRetrainDone p ts) s = .next (s.setPortSt p { q with up := true }))
    ∧ (q.up = false → s.stopped (4 + p) = false → s.glb.st = .train ∨ s.glb.st = .run ∨ s.glb.st = .safe → (∀ i ∈ q.lanes, i ∈ ts) →
      ∃ t, exec (.portRetrainDone p ts) s = .next t ∧ (t.portSt p).up = true
        ∧ ∀ i, i < 5 → (s.unit (241 + 5 * p + i)).st = .quarantined → (t.unit (241 + 5 * p + i)).st = (if i ∈ ts then .spare else .retired))
    ∧ (10000 * e ≤ n → exec (.serdesBerWindow [(p, k, e, n)]) s = .next s)
    ∧ (n < 10000 * e → exec (.serdesBerWindow [(p, k, e, n)]) s
      = .next (s.raiseIn (0x119 + 5 * p + k) (some (241 + 5 * p + k)) false))
    ∧ (∀ v, q.subFor = some k → s.firstSpare (241 + 5 * p) (246 + 5 * p) = some v → ∃ t, exec (.laneSubstitution p) s = .next t
      ∧ t.egr.ports = s.egr.ports.set {} p
          { q with subFor := none, lanes := q.lanes.map fun j => if j = k then v - (241 + 5 * p) else j }
      ∧ t.flt = s.flt)
    ∧ (s.glb.por = true →
      (let l := s.led.put { item := .hours, hours := s.led.hours, tj := s.led.tjHours }
      exec (.powerOnHour tj true) s = .next { s with led := { l with hours := l.hours + 1, tjHours := l.tjHours + tj } })
      ∧ exec (.powerOnHour tj false) s = .next (s.raise 0x17A))
    ∧ (s.glb.por = false → exec (.powerOnHour tj true) s = .next s ∧ exec (.powerOnHour tj false) s = .next s)

/-! ### Interrupts (14) -/

/-- R424, R425, R427, R428, R429, R434, R435, R436: Events. A rise of a source's line that lasts FILTER cycles sets PEND and counts, up to
255; a shorter one is not accepted; its fall does nothing but follow, and the line of a stopped island keeps its level; a software
source has one event per write, a reserved source none; an acknowledged vector is idle, and the end of its interval ends its moderation.
Masks. A write of a source's configuration takes its fields; where that withdraws a delivery being presented, the source stays pending
and LAST_OUTCOME reads 2; setting a vector's mask withdraws what is presented to it. -/
def Obligations.InterruptEvents : Prop :=
  (∀ (s : State) (n t d : Nat), s.glb.st ≠ .reset →
       let v := s.irqSrc n
       let hit (v : IrqSrc) : IrqSrc := { v with pend := true, count := min 255 (v.count + 1), sat := v.sat || decide (254 ≤ v.count) }
       let still := (irqIsland n).any s.stopped
       (irqReserved n = true ∨ still = true ∨ d < v.filter → ∀ l, exec (.irqEvent n l d) s = .next s)
       ∧ (irqReserved n = false → still = false → v.filter ≤ d →
         (v.line = false → exec (.irqEvent n true d) s = .next (s.setIrqSrc n { hit v with line := true }))
         ∧ (v.line = true → exec (.irqEvent n true d) s = .next (s.setIrqSrc n v))
         ∧ exec (.irqEvent n false d) s = .next (s.setIrqSrc n { v with line := false }))
       ∧ (n < 64 → exec (.irqSwSet n) s = .next (s.setIrqSrc (0x80 + n) (hit (s.irqSrc (0x80 + n)))))
       ∧ exec (.irqHostAck n) s = .next (s.setIrqTgt (4 + n) { s.irqTgt (4 + n) with idle := true })
       ∧ exec (.irqModerationEnd t) s = .next (s.setIrqTgt t { s.irqTgt t with moder := false }))
  ∧ (∀ (s : State) (n v : Nat) (w : Word), s.glb.st ≠ .reset →
       let x := w.toNat
       let new (o : Nat) (a : Option Nat) : IrqSrc := { s.irqSrc n with
         en := bitOf x 31, target := bitsOf x 24 7, filter := bitsOf x 16 6, prio := bitsOf x 0 8, outcome := o, alt := a }
       (irqReserved n = false → (s.irqPresents (s.irqSrc n).goesTo).contains n = false →
         exec (.irqSrcCfg n w) s = .next (s.setIrqSrc n (new (s.irqSrc n).outcome
           (if bitOf x 31 = true ∧ bitsOf x 24 7 = (s.irqSrc n).target then (s.irqSrc n).alt else none))))
       ∧ (irqReserved n = false → (s.irqPresents (s.irqSrc n).goesTo).contains n = true → bitOf x 31 = false →
         ∃ t, exec (.irqSrcCfg n w) s = .next t ∧ t.irqSrc n = new 2 none ∧ t.irq.tgts = s.irq.tgts ∧ t.host = s.host)
       ∧ exec (.msixMask (.vector v false)) s = .next { s with pcie := { s.pcie with
           msix := s.pcie.msix.set {} v { s.pcie.msix.get {} v with mask := false } } }
       ∧ (s.irqPresents (4 + v) = [] → exec (.msixMask (.vector v true)) s = .next { s with pcie := { s.pcie with
           msix := s.pcie.msix.set {} v { s.pcie.msix.get {} v with mask := true } } })
       ∧ (s.irqPresents (4 + v) = [n] → exec (.msixMask (.vector v true)) s = .next { s with
           irq := { s.irq with srcs := s.irq.srcs.set {} n { s.irqSrc n with outcome := 2 } }
           pcie := { s.pcie with msix := s.pcie.msix.set {} v { s.pcie.msix.get {} v with mask := true } } })
       ∧ exec (.msixMask (.function false)) s = .next { s with pcie := { s.pcie with fnMask := false } })

/-- R426, R427, R428, R430: deliveries. A target that is held, or busy within its interval, accepts none; a steward core accepts the best
pending source of a group above the one it serves; a vector that is open accepts its pending source and writes its message; a held
target's deliveries are redirected once: they go to its alternative, or wait for that where it is not ready. -/
def Obligations.InterruptDeliveries : Prop :=
  ∀ (s : State) (t n m : Nat),
    let took (n : Nat) : IrqSrc :=
      { s.irqSrc n with pend := false, outcome := if (s.irqSrc n).alt.isSome then 3 else 1, alt := none }
    let due := (s.irqFor t).filter fun n => (s.irqSrc n).alt.isNone
    (s.irqReady t = false → exec (.irqDelivery t) s = .next s)
    ∧ (t < 4 → s.irqReady t = true → s.irqBest (s.irqFor t) = some n → (s.irqTgt t).serving = none →
      exec (.irqDelivery t) s = .next ((s.setIrqSrc n (took n)).setIrqTgt t
        { s.irqTgt t with idle := false, moder := decide ((s.irqTgt t).interval ≠ 0), serving := some n }))
    ∧ (t < 4 → s.irqReady t = true → s.irqBest (s.irqFor t) = some n → (s.irqTgt t).serving = some m → s.irqGroup m < s.irqGroup n →
      exec (.irqDelivery t) s = .next ((s.setIrqSrc n (took n)).setIrqTgt t
        { s.irqTgt t with idle := false, moder := decide ((s.irqTgt t).interval ≠ 0), serving := some n }))
    ∧ (t < 4 → s.irqReady t = true → s.irqBest (s.irqFor t) = some n → (s.irqTgt t).serving = some m → s.irqGroup n ≤ s.irqGroup m →
      exec (.irqDelivery t) s = .next s)
    ∧ (4 ≤ t → s.irqReady t = true → s.vecOpen (t - 4) = true → s.irqFor t = [n] →
      ∃ u, exec (.irqDelivery t) s = .next u
        ∧ u.host = s.host.setList 0 (s.pcie.msix.get {} (t - 4)).addr (leBytes 4 (s.pcie.msix.get {} (t - 4)).data)
        ∧ u.irq.srcs = s.irq.srcs.set {} n (took n) ∧ u.mbx = s.mbx)
    ∧ (4 ≤ t → s.vecOpen (t - 4) = false → exec (.irqDelivery t) s = .next s)
    ∧ (s.irqHeld t = true → (s.irqTgt t).altEn = true → (s.irqTgt t).altTgt < 68 → s.irqReady (s.irqTgt t).altTgt = false → n ∈ due →
      Tbl.wf {} s.irq.srcs = true →
      ∃ u, exec (.irqRedirect t) s = .next u ∧ u.irqSrc n = { s.irqSrc n with alt := some (s.irqTgt t).altTgt }
        ∧ u.irq.tgts = s.irq.tgts ∧ u.host = s.host)
    ∧ (4 ≤ (s.irqTgt t).altTgt → s.irqHeld t = true → (s.irqTgt t).altEn = true → (s.irqTgt t).altTgt < 68 →
      s.irqReady (s.irqTgt t).altTgt = true → s.vecOpen ((s.irqTgt t).altTgt - 4) = true → n ∈ due →
      Tbl.wf {} s.irq.srcs = true →
      ∃ u, exec (.irqRedirect t) s = .next u ∧ u.irqSrc n = { s.irqSrc n with pend := false, outcome := 3, alt := none })
    ∧ (due = [] → exec (.irqRedirect t) s = .next s)
    ∧ (s.irqHeld t = false → exec (.irqRedirect t) s = .next s)

/-! ### Power and clock islands (16) -/

/-- R468, R469, R471, R472, R473, R475, R476: Requests. One that arrives while a change is in progress is refused as BUSY; a frequency
outside the grid or the rating is BAD_ARG, a state that the island does not permit DENIED, what is in place already ALREADY_DONE; any
other request begins a change of an island in RUN, the HBM islands aside, by command and by register alike. A change of an island whose
unit is not at work waits for nothing; at the unit's boundary it waits no more; at its end the new state or frequency is in force, and
the register's request is DONE. An exit from L1 asks for RUN. -/
def Obligations.Islands : Prop :=
  (∀ (s : State) (h : CmdHdr) (n mhz : Nat) (x : IslSt), n < 59 → n ≠ 2 → n ≠ 3 →
       let on (i : Instr) (t : State) : Prop := s.serving i false h = true → exec i s = .next t
       let i := s.islOf n
       (i.trans.isSome = true → on (.islandState h n x.code) (s.islAnswer n (some h) .busy)
         ∧ on (.islandFreq h n mhz) (s.islAnswer n (some h) .busy)
         ∧ (s.islRegOk = true → exec (.pwrIslReq n x.code) s = .next (s.setIsl n { i with result := 2 })
           ∧ exec (.pwrIslFreq n mhz) s = .next (s.setIsl n { i with result := 2 })))
       ∧ (i.trans = none →
         (s.islPermits n x = false → on (.islandState h n x.code) (s.islAnswer n (some h) .denied))
         ∧ (s.islPermits n x = true → i.st = x → on (.islandState h n x.code) (s.islAnswer n (some h) .alreadyDone))
         ∧ (s.islPermits n x = true → i.st ≠ x → i.st = .run →
           on (.islandState h n x.code) ((s.islBegin n (.state x) [h]).addJob h 0x08)
           ∧ (s.islRegOk = true → exec (.pwrIslReq n x.code) s = .next ((s.setIsl n { i with req := x.code }).islBegin n (.state x) [])))
         ∧ (islFreqOk n mhz = false → on (.islandFreq h n mhz) (s.islAnswer n (some h) .badArg))
         ∧ (islFreqOk n mhz = true → i.freq = mhz → on (.islandFreq h n mhz) (s.islAnswer n (some h) .alreadyDone))
         ∧ (islFreqOk n mhz = true → i.freq ≠ mhz → i.st = .run →
           on (.islandFreq h n mhz) ((s.islBegin n (.freq mhz) [h]).addJob h 0x09)
           ∧ (s.islRegOk = true → exec (.pwrIslFreq n mhz) s = .next (s.islBegin n (.freq mhz) []))))
       ∧ on (.islandFreq h 59 mhz) (s.complete h .badArg))
  ∧ (∀ (s : State) (n mhz : Nat) (t : IslTrans) (x : IslSt), 9 ≤ n → n < 59 → (s.islOf n).trans = some t →
       let i := s.islOf n
       (t.waits = true → n < 49 → s.unitBusy n = false →
         exec (.unitBoundary n) s = .next (s.setIsl n { i with trans := some { t with waits := false } }))
       ∧ (t.waits = true → n < 49 → s.unitBusy n = true → exec (.unitBoundary n) s = .next s)
       ∧ (t.waits = false → t.req = .freq mhz → t.hdrs = [] → Tbl.wf {} s.isl = true →
         exec (.islandTransitionDone n) s = .next (s.setIsl n { i with freq := mhz, trans := none, result := 1 }))
       ∧ (t.waits = false → t.req = .state x → t.hdrs = [] → x.halts = false → i.st.halts = false → i.held = [] → Tbl.wf {} s.isl = true →
         exec (.islandTransitionDone n) s = .next (s.setIsl n { i with st := x, trans := none, result := 1 }))
       ∧ ((s.islOf 8).st = .hold → s.islRegOk = true → exec .pcieL1Exit s = .next (s.islRequest 8 (.state .run) none))
       ∧ ((s.islOf 8).st ≠ .hold → exec .pcieL1Exit s = .next s))

/-! ### The mailbox (14) -/

/-- R76, R412, R419, R420, R431, R432, R433: the mailbox's registers. A write of MBX_SQ_DB that reaches BAR2 locks the layout, moves the
tail and starts fetching; one of MBX_CQ_DB frees slots, so that completions that waited are written and fetching goes on; MBX_CTRL sets
the layout, but only before the first doorbell; MBX_ABORT is resolved as ABORTED, ALREADY_DONE or NOT_FOUND, waits while the steward
is stopped, and is ignored while another is being resolved. (When the steward takes up what was fetched: assumption log 11.) -/
def Obligations.MailboxRegisters : Prop :=
  ∀ (s : State) (n tag : Nat) (w : Word), s.stopped 8 = false →
    (s.hostBar 2 = true → s.isFrozen 0xC4 = false →
      exec (.mbxSqDb n) s = .next { s with mbx := { s.mbx with locked := true, sqTail := n % 4096 } }.fetch
      ∧ exec (.mbxCqDb n) s
        = .next (State.putWaiting s.mbx.waiting { s with mbx := { s.mbx with locked := true, cqHead := n % 4096 } }).fetch
      ∧ (s.mbx.sqHead = n % 4096 →
        exec (.mbxSqDb n) s = .next { s with mbx := { s.mbx with locked := true, sqTail := n % 4096 } })
      ∧ (s.mbx.sqHead = s.mbx.sqTail → s.mbx.waiting = [] →
        exec (.mbxCqDb n) s = .next { s with mbx := { s.mbx with locked := true, cqHead := n % 4096 } }))
    ∧ (s.hostBar 2 = false ∨ s.isFrozen 0xC4 = true → exec (.mbxSqDb n) s = .next (s.unreached 2) ∧ exec (.mbxCqDb n) s = .next (s.unreached 2))
    ∧ (s.hostBar 0 = true →
      (s.mbx.locked = false → exec (.mbxCtrl w) s = .next { s with mbx := { s.mbx with fenic := w.getLsbD 0 } })
      ∧ (s.mbx.locked = true → exec (.mbxCtrl w) s = .next s)
      ∧ (s.mbx.abortPend.isSome = true → exec (.mbxAbort tag) s = .next s)
      ∧ (s.mbx.abortPend = none → s.stopped 1 = true →
        exec (.mbxAbort tag) s = .next { s with mbx := { s.mbx with abortPend := some (.command tag) } })
      ∧ (s.mbx.abortPend = none → s.stopped 1 = false →
        ((∀ j ∈ s.mbx.jobs, j.tag ≠ tag) → (∀ c ∈ s.mbx.waiting, c.tag ≠ tag) → exec (.mbxAbort tag) s = .next (s.abortDone 3))
        ∧ ((∀ j ∈ s.mbx.jobs, j.tag ≠ tag) → (∃ c ∈ s.mbx.waiting, c.tag = tag) → exec (.mbxAbort tag) s = .next (s.abortDone 2))
        ∧ (∀ j, s.mbx.jobs.find? (fun j => j.tag == tag) = some j →
          (s.abortable j.opcode = true → s.swapCommitted j = false →
            exec (.mbxAbort tag) s = .next (((s.dropWork j).denyJob j true).abortDone 1))
          ∧ (s.abortable j.opcode = false ∨ s.swapCommitted j = true → exec (.mbxAbort tag) s = .next (s.abortDone 2)))))
    ∧ (s.hostBar 0 = false → exec (.mbxCtrl w) s = .next (s.unreached 0) ∧ exec (.mbxAbort tag) s = .next (s.unreached 0))

/-- R79, R80, R414, R416: reserved opcodes. An entry of the native layout with a reserved opcode completes with BAD_ARG; one of the Fenic
layout completes with status 6, BAD_OPCODE, and nothing else is done. -/
def Obligations.ReservedOpcodes : Prop :=
  ∀ (s : State) (h : CmdHdr) (o : Nat),
    (s.serving (.reservedOpcode h o) false h = true → exec (.reservedOpcode h o) s = .next (s.complete h .badArg))
    ∧ (s.serving (.badOpcode h o) true h = true →
      exec (.badOpcode h o) s = .next (s.finish { tag := h.tag, status := 6, res0 := 0, res1 := 0, irq := h.irq }))

/-- R18, R78, R412, R413, R421: what a mailbox command meets. In RESET, LOAD and TRAIN it has no effect yet; in SAFE a command that SAFE
does not list completes with DENIED, and so does one that LOADFAIL does not list; a command of the other layout has none. One that names
the object of an earlier one waits for it, one that finds the work queue full completes with BUSY, and a Fenic entry with a reserved bit
set with INVALID (in what order the steward takes commands: assumption log 11). -/
def Obligations.MailboxStates : Prop :=
  ∀ (s : State) (h : CmdHdr) (a : OpenArgs) (n v : Nat),
    (s.glb.st = .reset ∨ s.glb.st = .load ∨ s.glb.st = .train → exec (.keyErase h n) s = .next s ∧ exec (.sessionOpen h a) s = .next s
      ∧ exec (.targetSet h n v) s = .next s ∧ exec (.deliveryDel h n) s = .next s ∧ exec (.restart h) s = .next s)
    ∧ (s.glb.st = .safe ∨ s.glb.st = .loadfail → s.mbx.fenic = false → s.glb.restartPend = false → s.stopped 1 = false →
      s.mbx.cqFull = false →
      (s.turn (.keyErase h n) h = true → exec (.keyErase h n) s = .next (s.complete h .denied))
      ∧ (s.turn (.sessionOpen h a) h = true → exec (.sessionOpen h a) s = .next (s.complete h .denied))
      ∧ (s.turn (.targetSet h n v) h = true → exec (.targetSet h n v) s = .next (s.complete h .denied))
      ∧ (s.turn (.deliveryDel h n) h = true → exec (.deliveryDel h n) s = .next (s.complete h .denied)))
    ∧ (s.glb.st = .run → s.mbx.fenic = false → s.glb.restartPend = false → s.stopped 1 = false → s.mbx.cqFull = false →
      (s.mbx.jobs.length = 256 → s.behind h (.keyErase h n) = false → s.fetched h = false →
        exec (.keyErase h n) s = .next (s.complete h .busy))
      ∧ (s.behind h (.keyErase h n) = true → exec (.keyErase h n) s = .next s)
      ∧ (∀ j, s.behind h (.keyErase h n) = false → s.jobOf h = some j → j.begun = false → j.cmd = some (.keyErase h n) →
        j.badRsv = true → exec (.keyErase h n) s = .next (s.complete h .badArg)))
    ∧ (s.mbx.fenic = true → exec (.keyErase h n) s = .next s ∧ exec (.sessionOpen h a) s = .next s ∧ exec (.restart h) s = .next s)
    ∧ (s.mbx.fenic = false → exec (.closeStream h n) s = .next s ∧ exec (.setBitrate h n v) s = .next s ∧ exec (.reboot h) s = .next s)

/-! ### Sessions and deliveries (06, 11) -/

/-- R77, R79, R125, R207, R223, R253, R276, R314, R418: sessions. An opened session has its arguments, a new number and its target as HOST,
and one that takes VFT has its source in the index; closing completes with OK, and closing what is not open with ALREADY_DONE. A context
without RTP input or binding opens with its output and codec, and closes likewise. -/
def Obligations.Sessions : Prop :=
  ∀ (s : State) (h : CmdHdr) (a : OpenArgs) (x : CtxArgs) (c : Machine.Class) (ch tgt w ht d : Nat),
    let on (i : Instr) (t : State) : Prop := s.serving i false h = true → exec i s = .next t
    let onF (i : Instr) (t : State) : Prop := s.serving i true h = true → exec i s = .next t
    ((∀ st, s.openRefused false a = some st → on (.sessionOpen h a) (s.complete h st))
      ∧ (s.openRefused false a = none → s.cls a.channel = some c → c.base.pathVft = false →
        s.serving (.sessionOpen h a) false h = true →
        ∃ t v, exec (.sessionOpen h a) s = .next t ∧ t.rc = s.rc.set {} a.channel { host := c.cod.target }
          ∧ (s.rota.started = false → t.sess = s.sess.set {} a.channel v ∧ v.isOpen = true ∧ v.w = a.width ∧ v.h = a.height
            ∧ v.pt = a.pt ∧ v.ssrc = a.ssrc ∧ v.seed = a.seed ∧ v.fenic = false ∧ v.id = (s.sessOf a.channel).id + 1 ∧ v.bind = none))
      ∧ (s.openRefused false a = none → s.cls a.channel = some c → c.base.pathVft = true → s.stopped 6 = false → s.emTable 1 = some tgt →
        s.emHas tgt (vftKey a.srcAddr a.srcPort a.ipv6) = false →
        ∀ u, s.emInsert tgt (vftKey a.srcAddr a.srcPort a.ipv6) (.vft a.channel) = some u →
        on (.sessionOpen h a) ((u.startSession false a c.cod.target).complete h .ok))
      ∧ ((s.cls ch).isSome = true → (s.sessOf ch).isOpen = true → s.stopped 6 = false →
        on (.sessionClose h ch true) ((s.closeSession ch).complete h .ok))
      ∧ ((s.cls ch).isSome = true → (s.sessOf ch).isOpen = false → on (.sessionClose h ch true) (s.complete h .alreadyDone))
      ∧ (s.cls ch = none → on (.sessionClose h ch true) (s.complete h .noChannel))
      ∧ (∀ st, s.ctxRefused x = some st → on (.sessionOpenContext h x) (s.complete h st))
      ∧ (s.ctxRefused x = none → x.rtp = false → x.bindEn = false → on (.sessionOpenContext h x)
        ((s.setDcx x.dcx { isOpen := true, bindCh := none, outHost := x.outHost, rtp := none, codec := x.codec }).complete h .ok))
      ∧ (s.dcxDeclared d = true → (s.dcxOf d).isOpen = true → (s.dcxOf d).rtp = none →
        on (.sessionCloseContext h d true) ((s.closeCtx d).complete h .ok))
      ∧ (s.dcxDeclared d = true → (s.dcxOf d).isOpen = false →
        on (.sessionCloseContext h d true) (s.complete h .alreadyDone)))
    ∧ (s.cls ch = some c → ch ≤ 63 → (s.sessOf ch).isOpen = false → c.base.pathVft = false →
      c.base.format < 2 → layerPeriod c = 1 → badSize (some c) w ht = false →
      s.serving (.openStream h ch w ht tgt) true h = true →
      ∃ t, exec (.openStream h ch w ht tgt) s = .next t ∧ t.rc = s.rc.set {} ch { host := tgt })
    ∧ (let b := (s.img.net.cCh[ch]?).getD {}
      let a : OpenArgs :=
        { channel := ch, width := w, height := ht, pt := b.pt, ipv6 := b.ipv6, srcAddr := b.srcAddr, srcPort := b.srcPort
          ssrc := b.ssrc, seed := 0, rsvOk := true }
      (∀ st, s.openRefused true a = some st → onF (.openStream h ch w ht tgt) (s.complete h st))
      ∧ (s.openRefused true a = none → s.cls ch = some c → c.base.pathVft = true → s.stopped 6 = false → s.emTable 1 = some d →
        s.emHas d (vftKey b.srcAddr b.srcPort b.ipv6) = false → ∀ u, s.emInsert d (vftKey b.srcAddr b.srcPort b.ipv6) (.vft ch) = some u →
        onF (.openStream h ch w ht tgt) ((u.startSession true a tgt).complete h .ok)))
    ∧ ((s.cls ch).isSome = true → ch ≤ 63 → (s.sessOf ch).isOpen = true → s.stopped 6 = false →
      onF (.closeStream h ch) ((s.closeSession ch).complete h .ok))

/-- R79, R223, R239, R298, R299, R300, R326: Deliveries. A delivery of a session that is not open is refused with NO_CHANNEL, a second
player and a viewer of a channel that serves its player only with DENIED, fields out of range with BAD_ARG, all before anything is
drawn; an accepted one is linked, held, with its receiver's fields, and its handle is RESULT0; a handle that names none is refused, and
any other delivery is unlinked. What linking and unlinking leave: a player stands at the head of its channel's chain and anyone else at
its end; an unlinked delivery is in no chain of its channel, and its body waits for the packets in flight. Targets. A channel's target
lies between its class's MIN and PEAK and becomes HOST; a delivery's rate is replaced, its credit kept. -/
def Obligations.Deliveries : Prop :=
  (∀ (s : State) (h : CmdHdr) (a : AddArgs) (b : DestArgs) (n t : Nat),
       let on (i : Instr) (t : State) : Prop := s.serving i false h = true → exec i s = .next t
       let onF (i : Instr) (t : State) : Prop := s.serving i true h = true → exec i s = .next t
       (((s.sessOf a.channel).isOpen = false → on (.deliveryAdd h a) (s.complete h .noChannel))
         ∧ ((s.sessOf a.channel).isOpen = true → a.player = true → s.hasPlayer a.channel = true →
           on (.deliveryAdd h a) (s.complete h .denied))
         ∧ ((s.sessOf a.channel).isOpen = true → a.player = false → s.playerOnly a.channel = true →
           on (.deliveryAdd h a) (s.complete h .denied))
         ∧ ((s.sessOf a.channel).isOpen = true → (a.player && s.hasPlayer a.channel || !a.player && s.playerOnly a.channel) = false →
           addOk a = false → on (.deliveryAdd h a) (s.complete h .badArg))
         ∧ ((s.sessOf a.channel).isOpen = true → (a.player && s.hasPlayer a.channel || !a.player && s.playerOnly a.channel) = false →
           addOk a = true → s.stopped 6 = false →
           s.emTable 2 = some t → s.emHas t (audKey (destOf a)) = false → ∀ k u v, s.allocBody = (some k, u) →
           u.emInsert t (audKey (destOf a)) (.aud k) = some v →
           on (.deliveryAdd h a) ((v.linkBody k a).complete h .ok k))
         ∧ (s.named n = false → on (.deliveryDel h n) (s.complete h .badArg))
         ∧ (s.named n = true → s.stopped 6 = false → on (.deliveryDel h n) ((s.unlinkBody n).complete h .ok)))
       ∧ (((s.sessOf b.channel).isOpen = false → onF (.addDest h b) (s.complete h .noChannel))
         ∧ (let d : AddArgs :=
             { channel := b.channel, player := !(s.sessOf b.channel).added, ipv6 := false, maxTid := s.img.net.cDel.maxTid
               prof := s.img.net.cDel.prof, outer := s.img.net.cDel.outer, dstAddr := b.dstAddr, dstPort := b.dstPort
               srcPort := s.img.net.cDel.srcPort, ssrc := b.ssrc, dstMac := s.img.net.cDel.dstMac, dscp := s.img.net.cDel.dscp
               ecn := s.img.net.cDel.ecn, hop := s.img.net.cDel.hop
               vlan0 := if b.vlan = 0 then 0 else s.img.net.cDel.tpid * 65536 + b.vlan, vlan1 := 0, markId := 0, keySlot := b.keySlot
               rate := b.rate, burst := s.img.net.cDel.burst, dropAt := s.img.net.cDel.dropAt, rsvOk := true }
           (s.sessOf b.channel).isOpen = true → (s.sessOf b.channel).added = true → s.playerOnly b.channel = false → addOk d = true →
           s.stopped 6 = false → s.emTable 2 = some t → s.emHas t (audKey (destOf d)) = false → ∀ k u v, s.allocBody = (some k, u) →
           u.emInsert t (audKey (destOf d)) (.aud k) = some v → onF (.addDest h b) ((v.linkBody k d).complete h .ok k))
         ∧ (s.named n = true → s.stopped 6 = false → onF (.delDest h n) ((s.unlinkBody n).complete h .ok))))
  ∧ (∀ (s : State) (k : Nat) (a : AddArgs),
       (a.player = true → (s.linkBody k a).rep.chain = s.rep.chain.set [] a.channel (k :: s.rep.chain.get [] a.channel))
       ∧ (a.player = false → (s.linkBody k a).rep.chain = s.rep.chain.set [] a.channel (s.rep.chain.get [] a.channel ++ [k]))
       ∧ (∃ v, (s.linkBody k a).rep.bodies = s.rep.bodies.set {} k v ∧ v.st = .held ∧ v.d = destOf a ∧ v.sh.rate = a.rate
           ∧ v.sh.burst = a.burst ∧ v.sh.dropAt = a.dropAt)
       ∧ (s.unlinkBody k).rep.chain
           = s.rep.chain.set [] (s.body k).d.ch ((s.rep.chain.get [] (s.body k).d.ch).filter fun j => j != k)
       ∧ (∃ v, (s.unlinkBody k).rep.bodies = s.rep.bodies.set {} k v ∧ v.st = .empty ∧ v.waits = some s.liveFlights ∧ v.d = (s.body k).d))
  ∧ (∀ (s : State) (h : CmdHdr) (ch v n : Nat) (c : Machine.Class),
       let on (i : Instr) (t : State) : Prop := s.serving i false h = true → exec i s = .next t
       let onF (i : Instr) (t : State) : Prop := s.serving i true h = true → exec i s = .next t
       ((s.cls ch = none ∨ (s.sessOf ch).isOpen = false → on (.targetSet h ch v) (s.complete h .noChannel))
         ∧ (s.cls ch = some c → (s.sessOf ch).isOpen = true → v < c.cod.minK ∨ c.cod.peak < v →
           on (.targetSet h ch v) (s.complete h .badArg))
         ∧ (s.cls ch = some c → (s.sessOf ch).isOpen = true → c.cod.minK ≤ v → v ≤ c.cod.peak →
           on (.targetSet h ch v) (({ s with rc := s.rc.set {} ch { s.rcOf ch with host := v } }).complete h .ok))
         ∧ (s.named n = true → s.stopped 6 = false → 64 ≤ v → v ≤ 400000000 →
           on (.targetSetDelivery h n v)
             ((s.setBody n { s.body n with sh := { (s.body n).sh with rate := v } }).complete h .ok))
         ∧ (v < 64 ∨ 400000000 < v → on (.targetSetDelivery h n v) (s.complete h .badArg)))
       ∧ ((63 < ch → onF (.setBitrate h ch v) (s.complete h .noChannel))
         ∧ (ch ≤ 63 → s.cls ch = some c → (s.sessOf ch).isOpen = true → c.cod.minK ≤ v → v ≤ c.cod.peak →
           onF (.setBitrate h ch v) (({ s with rc := s.rc.set {} ch { s.rcOf ch with host := v } }).complete h .ok))))

/-! ### Keys and attestation (04) -/

/-- R79, R89, R94, R95, R96, R97, R411: keys and reports. A key command is refused with DENIED where the function may not master the bus, a
blob of another length with BAD_ARG; a blob that unwraps fills its slot, through the private path of the key store, whose stack must be
at work, OFF or absent being refused; one that does not leaves the slot as it is, counts and raises KEY_UNWRAP_FAIL; an erased slot is
empty; a report is counted and written where the command says, with its length as RESULT0. -/
def Obligations.KeysAndReports : Prop :=
  ∀ (s : State) (h : CmdHdr) (src len slot nonce dst : Nat) (b : List Byte), s.stopped 7 = false →
    let on (i : Instr) (t : State) : Prop := s.serving i false h = true → exec i s = .next t
    let onF (i : Instr) (t : State) : Prop := s.serving i true h = true → exec i s = .next t
    ((s.masters = true → len ≠ 240 → on (.keyImport h src len b) (s.complete h .badArg))
      ∧ (s.masters = false → on (.keyImport h src len b) (s.complete h .denied) ∧ on (.keyErase h slot) (s.complete h .denied))
      ∧ (s.masters = true → blobOk b = false → on (.keyImport h src 240 b) (s.complete h .badArg))
      ∧ (∀ k x, s.masters = true → blobOk b = true → s.unwrap b = some k → s.keyPath (blobSlot b) = .served x →
        on (.keyImport h src 240 b) ((s.storeKey (blobSlot b) k).complete h .ok))
      ∧ (∀ k, s.masters = true → blobOk b = true → s.unwrap b = some k →
        (s.keyPath (blobSlot b) = .error → on (.keyImport h src 240 b) (s.complete h .denied))
        ∧ (s.keyPath (blobSlot b) = .wait → on (.keyImport h src 240 b) s))
      ∧ (s.masters = true → blobOk b = true → s.unwrap b = none → on (.keyImport h src 240 b)
        (
          (({ s with sec := { s.sec with failCnt := min 255 (s.sec.failCnt + 1) } }).raise 0x169).complete h .denied))
      ∧ (∀ x, s.masters = true → slot < 524288 → s.keyPath slot = .served x → on (.keyErase h slot) ((s.storeKey slot []).complete h .ok))
      ∧ (s.masters = true → 524288 ≤ slot → on (.keyErase h slot) (s.complete h .badArg))
      ∧ (s.earlier h = false → nonce % 64 = 0 → nonce + 64 ≤ 0x400000 → dst % 4096 = 0 → dst + 548 ≤ 0x400000 →
        (s.sec.sensed.idkeyOk = false → on (.attest h nonce dst) (s.complete h .denied))
        ∧ (s.sec.sensed.idkeyOk = true →
          let u : State := { s with sec := { s.sec with reports := s.sec.reports + 1 }, free := s.free + 1 }
          on (.attest h nonce dst) (({ u with
            bar2 := s.bar2.setList 0 (0x1000000 + dst) (u.report (Tbl.getList 0 s.bar2 (0x1000000 + nonce) 64)) }).complete h .ok 548))))
    ∧ (s.masters = true → len ≠ 240 → onF (.loadKey h src len slot b) (s.complete h .badArg))
    ∧ (s.masters = true → blobOk b = true →
      (slot ≠ blobSlot b → onF (.loadKey h src 240 slot b) (s.complete h .badArg))
      ∧ (∀ k x, slot = blobSlot b → s.unwrap b = some k → s.keyPath slot = .served x →
        onF (.loadKey h src 240 slot b) ((s.storeKey slot k).complete h .ok))
      ∧ (slot = blobSlot b → s.unwrap b = none → onF (.loadKey h src 240 slot b)
        (
          (({ s with sec := { s.sec with failCnt := min 255 (s.sec.failCnt + 1) } }).raise 0x169).complete h .denied)))

/-! ### Flash updates, restart and statistics (03, 14) -/

/-- R67, R68, R70, R79: updates of the flash. PROGRAM and ERASE of a range that R67 allows begin an operation, whose end writes the data of
the aperture, or erases, and completes the command; VERIFY returns the result of the checks; RESTART completes, empties the work queue
and leaves the device about to enter RESET. -/
def Obligations.FlashUpdates : Prop :=
  ∀ (s : State) (h : CmdHdr) (slot off len src : Nat) (rd : FlashReads),
    let on (i : Instr) (t : State) : Prop := s.serving i false h = true → exec i s = .next t
    let onF (i : Instr) (t : State) : Prop := s.serving i true h = true → exec i s = .next t
    let base := slotBase slot + off
    let data := Tbl.getList 0 s.bar2 (0x1000000 + src) len
    let begun (d : Option (List Byte)) : State := { s with
      flashOp := some { tag := h.tag, irq := h.irq, base := base, len := len, data := d } }
    (s.earlier h = false →
      (rangeOk slot off len = true → srcOk src len = true →
        on (.imageWriteProgram h slot off len src) ((begun (some data)).addJob h 0x0B))
      ∧ (rangeOk slot off len = false → on (.imageWriteProgram h slot off len src) (s.complete h .badArg)
        ∧ on (.imageWriteErase h slot off len) (s.complete h .badArg))
      ∧ (rangeOk slot off len = true → on (.imageWriteErase h slot off len) ((begun none).addJob h 0x0B))
      ∧ (slot < 2 → on (.imageWriteVerify h slot rd) (s.complete h .ok (s.slotVerify slot rd)))
      ∧ (let u := (s.complete h .ok).setJobs []
        on (.restart h) { u with glb := { u.glb with restartPend := true, restartAt := s.time.aon } }))
    ∧ (s.earlier h = false →
      (slot < 2 → rangeOk slot off len = true → srcOk src len = true →
        onF (.flashWrite h base len src) ((begun (some data)).addJob h 0x09))
      ∧ (let u := (s.complete h .ok).setJobs []
        onF (.reboot h) { u with glb := { u.glb with restartPend := true, restartAt := s.time.aon } }))
    ∧ (∀ o, s.flashOp = some o →
      (∀ bs, o.data = some bs → exec (.flashOpDone true) s = .next
        (({ s with flashOp := none, flash := s.flash.setList 0xFF o.base bs }).completeJob { tag := o.tag, irq := o.irq } .ok))
      ∧ (o.data = none →
        let erased := s.flash.drop fun a => decide (o.base ≤ a ∧ a < o.base + o.len)
        exec (.flashOpDone true) s = .next (({ s with flashOp := none, flash := erased }).completeJob { tag := o.tag, irq := o.irq } .ok))
      ∧ (Tbl.wf 0xFF s.flash = true → ∃ t, exec (.flashOpDone false) s = .next t ∧ (∀ a, a < o.base ∨ o.base + o.len ≤ a → t.flash.get 0xFF a = s.flash.get 0xFF a)
        ∧ (s.canRise 0x166 = true → t.flt.sticky.get false 0x166 = true)))

/-- R110, R148, R417, R483, R484, R486, R489: reads and writes of BAR0. STATS_READ copies the words of its range to host memory, and
GET_STATS those of a channel's instance, at most 0x400 bytes; a counter's lower word latches its upper one, and a read of 8 bytes takes
both words as they stand; a write of the wrong size or alignment, or with a partial byte enable, has no effect, one of a plain field
takes it, and one of 8 bytes writes its lower word first. -/
def Obligations.Registers : Prop :=
  ∀ (s : State) (h : CmdHdr) (off dst len n : Nat) (c : Cnt) (v : BitVec 64) (who : Requester),
    let on (i : Instr) (t : State) : Prop := s.serving i false h = true → exec i s = .next t
    (s.masters = true → off % 8 = 0 → len % 8 = 0 → 8 ≤ len → len ≤ 65536 → off + len ≤ 0x4000000 →
      s.serving (.statsRead h off dst len) false h = true →
      ∃ t, exec (.statsRead h off dst len) s = .next t ∧ t.host = s.host.setList 0 dst (State.copyRegs (len / 4) off s).1)
    ∧ (s.masters = true → len < 8 → on (.statsRead h off dst len) (s.complete h .badArg))
    ∧ (s.masters = false → on (.statsRead h off dst len) (s.complete h .denied))
    ∧ (s.masters = true → n < 192 → len % 8 = 0 → 8 ≤ len →
      s.serving (.getStats h n dst len) true h = true →
      ∃ t, exec (.getStats h n dst len) s = .next t
        ∧ t.host = s.host.setList 0 dst (State.copyRegs (min len 0x400 / 4) (0x1800000 + 0x400 * n) s).1)
    ∧ (s.reaches who = true → off % 4 = 0 → off < 0x4000000 → s.regRuns off = true → s.counterAt off = some (n, c) →
      ∃ t, exec (.counterLowRead who off) s = .next t ∧ t.outs.latch = s.outs.latch.set 0 n (c.toNat / 2 ^ 32))
    ∧ (s.reaches who = true → off % 8 = 0 → off < 0x4000000 → s.regRuns off = true → s.regRuns (off + 4) = true →
      s.counterAt off = some (n, c) → s.counterAt (off + 4) = none →
      ∃ t, exec (.counterLowRead who off 8) s = .next t ∧ t.outs.bar0 = c.toNat ∧ t.outs.latch = s.outs.latch)
    ∧ (s.reaches who = false ∨ 0x4000000 ≤ off → exec (.counterLowRead who off) s = .next (s.offBar0 who)
      ∧ exec (.registerWrite who off len v) s = .next (s.offBar0 who))
    ∧ (s.reaches who = true → off < 0x4000000 →
      (len ≠ 4 ∧ len ≠ 8 ∨ off % 4 ≠ 0 ∨ len = 8 ∧ off % 8 ≠ 0 → exec (.registerWrite who off len v) s = .next (s.refusedAccess who)
        ∧ exec (.counterLowRead who off len) s = .next (s.refusedAccess who))
      ∧ exec (.registerWrite who off len v true) s = .next (s.refusedAccess who))
    ∧ (s.reaches who = true → off % 4 = 0 → off < 0x4000000 →
      exec (.registerWrite who off 4 v) s = .next ((s.write4 who off (v.toNat % 2 ^ 32)).answered who))
    ∧ (s.reaches who = true → off % 8 = 0 → off < 0x4000000 → exec (.registerWrite who off 8 v) s
      = .next (((s.write4 who off (v.toNat % 2 ^ 32)).write4 who (off + 4) (v.toNat / 2 ^ 32)).answered who))
    ∧ (s.reaches who = true → exec (.registerWrite who 0x100010 4 v) s = .next (State.answered { s with ptp := { s.ptp with
        holdoverS := bitsOf (v.toNat % 2 ^ 32) 24 8
        ppsInEn := bitOf (v.toNat % 2 ^ 32) 16
        stepUs := bitsOf (v.toNat % 2 ^ 32) 0 16 } } who))

/-! ### The whole block -/

/-- A step takes the command at the front of the queue, and runs it on the state with the queue's rest; and every command answers a next
state, in every state and with every operand: none is refused, and none ends in a fault. -/
def Obligations.StepRunsFront : Prop :=
  (∀ (s : State) (c : Instr) (q : List Instr), step { s with pending := c :: q } = exec c { s with pending := q })
  ∧ ∀ (s : State) (c : Instr), ∃ t, exec c s = .next t

/-- R33, R143, R147, R455: what a step does on an empty queue, which is the model's choice (assumption log 2): one AON cycle of 2.5 ns
passes. A write of the ledger that was in progress is whole. Running PTP time advances by it, slewed by at most one half-picosecond, and
nothing else moves but the count of hyperperiods, the draws and, in holdover, what the PTP unit keeps of it. -/
def Obligations.IdleTick : Prop :=
  ∀ (s : State), s.pending = [] →
    (s.time.running = false → step s = .next { s with time := { s.time with aon := s.time.aon + 1 }, led := s.led.settle })
    ∧ (s.time.running = true → ∃ (d hp fr : Nat) (v : Ptp), 4999 ≤ d ∧ d ≤ 5001 ∧ (s.ptp.lock ≠ 2 → v = s.ptp)
      ∧ step s = .next { s with
        time := { s.time with aon := s.time.aon + 1, ptp := s.time.ptp + d }
        rota := { s.rota with hpCnt := hp }
        ptp := v
        led := s.led.settle
        free := fr })

/-- R18, R81, R101: the state before the first power-on meets the invariants below: it is in RESET, sensed nothing that is not burned, its
memories are in their canonical form, no flash operation runs, and no command waits. That fuses and memories read empty there is the
model's choice (assumption log 7, 8). -/
def Obligations.ResetMeetsInvariants : Prop :=
  State.reset.glb.st = .reset ∧ State.reset.FusesHold ∧ State.reset.memWf = true ∧ State.reset.flashHeld ∧ State.reset.pending = []
    ∧ State.reset.fab.lock = false ∧ State.reset.sec.keys = []

/-- R81, R87, R100: every step keeps what is sensed within what is burned, and no step takes a burned fuse back: the factory's fields never
change, owner bits and the control fuses only rise. -/
def Obligations.FusesOnlyRise : Prop :=
  ∀ (s t : State), s.FusesHold → step s = .next t →
    t.FusesHold ∧ t.sec.fuses.serial = s.sec.fuses.serial ∧ t.sec.fuses.rootSecret = s.sec.fuses.rootSecret
      ∧ t.sec.fuses.idkey = s.sec.fuses.idkey ∧ s.sec.fuses.owner &&& t.sec.fuses.owner = s.sec.fuses.owner
      ∧ s.sec.fuses.ownerOnes ≤ t.sec.fuses.ownerOnes ∧ s.sec.fuses.debugOnes ≤ t.sec.fuses.debugOnes

/-- R55, R67, R69: every step keeps a flash operation's range within a slot, and leaves every byte of the flash outside the two slots as it
is. -/
def Obligations.ReservedFlashKept : Prop :=
  ∀ (s t : State), s.flashHeld → step s = .next t →
    t.flashHeld ∧ ∀ a, (0x07800000 ≤ a ∧ a < 0x08000000) ∨ 0x0F800000 ≤ a → t.flash.get 0xFF a = s.flash.get 0xFF a

/-- R29, R31, R411: what only few commands touch. The queue is the sender's; SMB_ADDR changes only at the release of the power-on reset; a
latched THERMTRIP_N is released only by the loss of VDD_AON; host memory is written only for STATS_READ, GET_STATS and a vector's
message; the flash changes only where an operation of it ends, and a reset can cut one short; the fuses change only where a burn ends,
and a reset can cut one short, and they are sensed at the release of the power-on reset. -/
def Obligations.WhoTouchesWhat : Prop :=
  ∀ (c : Instr) (s t : State), exec c s = .next t →
    t.pending = s.pending
    ∧ ((∀ p e, c ≠ .porRelease p e) → t.glb.smbAddr = s.glb.smbAddr)
    ∧ (c ≠ .railBelowThreshold .vddAon → s.pins.thermtrip = true → t.pins.thermtrip = true)
    ∧ ((∀ h o d l, c ≠ .statsRead h o d l) → (∀ h n d l, c ≠ .getStats h n d l) → (∀ n, c ≠ .irqDelivery n) → (∀ n, c ≠ .irqRedirect n) →
      t.host = s.host)
    ∧ ((∀ r, c ≠ .railBelowThreshold r) → (∀ n, c ≠ .resetNAssert n) → (∀ n, c ≠ .perstNAssert n) → c ≠ .restartEnterReset →
      ((∀ ok, c ≠ .flashOpDone ok) → t.flash = s.flash)
      ∧ ((∀ rb n, c ≠ .fuseBurnDone rb n) → t.sec.fuses = s.sec.fuses
        ∧ ((∀ p e, c ≠ .porRelease p e) → t.sec.sensed = s.sec.sensed)))

/-- R65, R66: the image in force changes only where a slot is taken or a DEV reset clears it: no mailbox command, no register write and no
fault alters a section of it (the rule sets and the parser's program, which PKT loses with its island's supply under R469, are set
aside). -/
def Obligations.ImageKept : Prop :=
  ∀ (c : Instr) (s t : State), exec c s = .next t →
    (∀ n r, c ≠ .slotCheck n r) → (∀ r, c ≠ .railBelowThreshold r) → (∀ n, c ≠ .resetNAssert n) → (∀ n, c ≠ .perstNAssert n) →
    c ≠ .restartEnterReset →
    { t.img with rules := [], parser := {} } = { s.img with rules := [], parser := {} }
end

