-- ==== Sys2Proof/Laws/Commands.lean ====
section
/-!
SUPPORT. When a mailbox command runs, and what else can become of it.
-/

namespace Sys2Proof.Machine

/-- A command whose turn it is does its own work, where the device's state lists it. -/
theorem work_run (s : State) (i : Instr) (h : CmdHdr) (g : State → State) (ht : s.turn i h = true) :
    s.work (bareCommand i) h true g = g s := by
  rw [State.turn, Bool.and_eq_true, Bool.not_eq_true'] at ht
  obtain ⟨h1, h2⟩ := ht
  rw [State.work, h1]
  cases e : s.jobOf h with
  | none =>
    simp only [e, Bool.and_eq_true, Bool.not_eq_true', decide_eq_true_eq] at h2
    have : ¬ queueCap ≤ s.mbx.jobs.length := by simpa [queueCap] using h2.2
    simp [this, h2.1]
  | some j =>
    simp only [e, Bool.and_eq_true, Bool.not_eq_true'] at h2
    simp [h2.1.2, h2.2]

/-- A command that is served runs its own effect. -/
theorem serve_run (s : State) (i : Instr) (f a b : Bool) (h : CmdHdr) (g : State → State) (hs : s.serving i f h = true) :
    s.serve (bareCommand i) f a b h g = g s := by
  simp only [State.serving, Bool.and_eq_true, beq_iff_eq, Bool.not_eq_true', Bool.or_eq_true] at hs
  obtain ⟨⟨⟨⟨⟨h1, h2⟩, h3⟩, h4⟩, h5⟩, h6⟩ := hs
  have h7 : (!s.fetched h && s.mbx.cqFull) = false := by rcases h5 with h5 | h5 <;> simp [h5]
  unfold State.serve
  rw [h7, h1, h2]
  simp [h3, h4, work_run s i h g h6]

/-- What becomes of a command's work: its own effect, no effect while it waits, or a completion with BUSY, BAD_ARG or DENIED. -/
theorem work_cases (s : State) (i : Instr) (h : CmdHdr) (l : Bool) (g : State → State) :
    s.work i h l g = g s ∨ s.work i h l g = s ∨ s.work i h l g = s.complete h .busy ∨ s.work i h l g = s.complete h .badArg
      ∨ s.work i h l g = s.complete h .denied := by
  unfold State.work
  repeat' split
  all_goals simp

/-- What can become of a mailbox command: its own effect, no effect while it waits or is discarded, or a completion with BUSY,
BAD_ARG or DENIED. -/
theorem serve_cases (s : State) (i : Instr) (f a b : Bool) (h : CmdHdr) (g : State → State) :
    s.serve i f a b h g = g s ∨ s.serve i f a b h g = s ∨ s.serve i f a b h g = s.complete h .busy
      ∨ s.serve i f a b h g = s.complete h .badArg ∨ s.serve i f a b h g = s.complete h .denied := by
  have w := fun l => work_cases s i h l g
  unfold State.serve
  repeat' split
  all_goals first | simp | exact w _

/-- A mailbox command does nothing while no handler fetches commands: in RESET, LOAD and TRAIN (R18). -/
theorem serve_waits (s : State) (i : Instr) (f a b : Bool) (h : CmdHdr) (g : State → State)
    (hs : s.glb.st = .reset ∨ s.glb.st = .load ∨ s.glb.st = .train) : s.serve i f a b h g = s := by
  unfold State.serve
  rcases hs with e | e | e <;> simp [e]

end Sys2Proof.Machine
end

