-- ==== Sys2Proof/Laws/Table.lean ====
section
/-!
SUPPORT. The laws of tables: a read after a write, writes of other keys, and that every operation keeps the canonical form.
-/

namespace Sys2Proof.Machine

variable {α : Type}

/-! ### Reading after writing -/

/-- A value other than the unlisted one reads back in every table. -/
theorem Tbl.get_set_ne [DecidableEq α] (d : α) (t : Tbl α) (k : Nat) (v : α) (h : v ≠ d) : (t.set d k v).get d k = v := by
  induction t with
  | nil => simp [Tbl.set, Tbl.cons, h, Tbl.get]
  | cons e t ih =>
    obtain ⟨k', v'⟩ := e
    simp only [Tbl.set]
    split
    · simp [Tbl.cons, h, Tbl.get]
    · split
      · simp [Tbl.cons, h, Tbl.get]
      · next a b => simp only [Tbl.get, a, b, if_false]; exact ih

theorem Tbl.wfFrom_mono [DecidableEq α] (d : α) {lo lo' : Nat} {t : Tbl α} (h : lo' ≤ lo) (w : Tbl.wfFrom d lo t = true) :
    Tbl.wfFrom d lo' t = true := by
  cases t with
  | nil => rfl
  | cons e t =>
    simp only [Tbl.wfFrom, Bool.and_eq_true, decide_eq_true_eq] at w ⊢
    exact ⟨⟨by omega, w.1.2⟩, w.2⟩

/-- Keys below every listed one read as unlisted. -/
theorem Tbl.get_below [DecidableEq α] (d : α) {lo k : Nat} {t : Tbl α} (w : Tbl.wfFrom d lo t = true) (h : k < lo) :
    t.get d k = d := by
  cases t with
  | nil => rfl
  | cons e t =>
    simp only [Tbl.wfFrom, Bool.and_eq_true, decide_eq_true_eq] at w
    have a : ¬ k = e.1 := by omega
    have b : k < e.1 := by omega
    simp [Tbl.get, a, b]

theorem Tbl.get_cons [DecidableEq α] (d : α) {k : Nat} {t : Tbl α} (w : Tbl.wfFrom d (k + 1) t = true) (v : α) (j : Nat) :
    (Tbl.cons d k v t).get d j = if j = k then v else t.get d j := by
  unfold Tbl.cons
  split
  · next h =>
    split
    · next e => subst h e; exact Tbl.get_below _ w (by omega)
    · rfl
  · simp only [Tbl.get]
    split
    · rfl
    · split
      · next a b => exact (Tbl.get_below _ w (by omega)).symm
      · rfl

/-- A read after a write, on a table in canonical form. -/
theorem Tbl.get_setFrom [DecidableEq α] (d : α) {lo : Nat} {t : Tbl α} (w : Tbl.wfFrom d lo t = true) (k : Nat) (v : α) (j : Nat) :
    (t.set d k v).get d j = if j = k then v else t.get d j := by
  induction t generalizing lo with
  | nil => exact Tbl.get_cons d rfl v j
  | cons e t ih =>
    obtain ⟨k', v'⟩ := e
    simp only [Tbl.wfFrom, Bool.and_eq_true, decide_eq_true_eq] at w
    simp only [Tbl.set]
    split
    · next h =>
      subst h
      rw [Tbl.get_cons d w.2]
      split
      · rfl
      · next a =>
        simp only [Tbl.get, a, if_false]
        split
        · exact Tbl.get_below _ w.2 (by omega)
        · rfl
    · next h =>
      split
      · next h2 =>
        refine Tbl.get_cons d ?_ v j
        simp only [Tbl.wfFrom, Bool.and_eq_true, decide_eq_true_eq]
        exact ⟨⟨by omega, w.1.2⟩, w.2⟩
      · simp only [Tbl.get]
        split
        · next a => subst a; rw [if_neg (by omega)]
        · split
          · rw [if_neg (by omega)]
          · exact ih w.2

theorem Tbl.get_set [DecidableEq α] {d : α} {t : Tbl α} (w : t.wf d = true) (k : Nat) (v : α) (j : Nat) :
    (t.set d k v).get d j = if j = k then v else t.get d j := Tbl.get_setFrom d w k v j

/-- A write leaves every other key alone, in every table whose written value is not the unlisted one. -/
theorem Tbl.get_set_other [DecidableEq α] (d : α) (t : Tbl α) {k j : Nat} (v : α) (h : v ≠ d) (hj : j ≠ k) :
    (t.set d k v).get d j = t.get d j := by
  induction t with
  | nil => simp [Tbl.set, Tbl.cons, h, Tbl.get, hj]
  | cons e t ih =>
    obtain ⟨k', v'⟩ := e
    simp only [Tbl.set]
    split
    · next a => subst a; simp [Tbl.cons, h, Tbl.get, hj]
    · split
      · simp only [Tbl.cons, h, if_false, Tbl.get, hj]
        split
        · rw [if_neg (by omega), if_pos (by omega)]
        · rfl
      · simp only [Tbl.get, ih]

/-! ### The canonical form -/

theorem Tbl.cons_wf [DecidableEq α] (d : α) {lo k : Nat} {t : Tbl α} (h : lo ≤ k) (w : Tbl.wfFrom d (k + 1) t = true) (v : α) :
    Tbl.wfFrom d lo (Tbl.cons d k v t) = true := by
  unfold Tbl.cons
  split
  · exact Tbl.wfFrom_mono d (by omega) w
  · next hv => simp [Tbl.wfFrom, h, hv, w]

theorem Tbl.set_wfFrom [DecidableEq α] (d : α) {lo : Nat} {t : Tbl α} (w : Tbl.wfFrom d lo t = true) {k : Nat} (h : lo ≤ k)
    (v : α) : Tbl.wfFrom d lo (t.set d k v) = true := by
  induction t generalizing lo with
  | nil => exact Tbl.cons_wf d h rfl v
  | cons e t ih =>
    obtain ⟨k', v'⟩ := e
    simp only [Tbl.wfFrom, Bool.and_eq_true, decide_eq_true_eq] at w
    simp only [Tbl.set]
    split
    · next e => subst e; exact Tbl.cons_wf d h w.2 v
    · split
      · refine Tbl.cons_wf d h ?_ v
        simp only [Tbl.wfFrom, Bool.and_eq_true, decide_eq_true_eq]
        exact ⟨⟨by omega, w.1.2⟩, w.2⟩
      · simp only [Tbl.wfFrom, Bool.and_eq_true, decide_eq_true_eq]
        exact ⟨w.1, ih w.2 (by omega)⟩

@[simp] theorem Tbl.nil_wf [DecidableEq α] (d : α) : Tbl.wf d ([] : Tbl α) = true := rfl

theorem Tbl.set_wf [DecidableEq α] {d : α} {t : Tbl α} (w : t.wf d = true) (k : Nat) (v : α) : (t.set d k v).wf d = true :=
  Tbl.set_wfFrom d w (Nat.zero_le k) v

theorem Tbl.upd_wf [DecidableEq α] {d : α} {t : Tbl α} (w : t.wf d = true) (k : Nat) (f : α → α) : (t.upd d k f).wf d = true :=
  Tbl.set_wf w k _

theorem Tbl.setList_wf [DecidableEq α] {d : α} (vs : List α) {t : Tbl α} (w : t.wf d = true) (k : Nat) :
    (t.setList d k vs).wf d = true := by
  induction vs generalizing t k with
  | nil => exact w
  | cons v vs ih => exact ih (Tbl.set_wf w k v) (k + 1)

theorem Tbl.drop_wfFrom [DecidableEq α] (d : α) {lo : Nat} {t : Tbl α} (w : Tbl.wfFrom d lo t = true) (p : Nat → Bool) :
    Tbl.wfFrom d lo (t.drop p) = true := by
  induction t generalizing lo with
  | nil => rfl
  | cons e t ih =>
    obtain ⟨k, v⟩ := e
    simp only [Tbl.wfFrom, Bool.and_eq_true, decide_eq_true_eq] at w
    have i := ih w.2
    simp only [Tbl.drop] at i ⊢
    rw [List.filter_cons]
    split
    · simp only [Tbl.wfFrom, Bool.and_eq_true, decide_eq_true_eq]; exact ⟨w.1, i⟩
    · exact Tbl.wfFrom_mono d (by omega) i

theorem Tbl.drop_wf [DecidableEq α] {d : α} {t : Tbl α} (w : t.wf d = true) (p : Nat → Bool) : (t.drop p).wf d = true :=
  Tbl.drop_wfFrom d w p

theorem Tbl.remap_wfFrom [DecidableEq α] (d : α) (f : Nat → α → α) {lo : Nat} {t : Tbl α} (w : Tbl.wfFrom d lo t = true) :
    Tbl.wfFrom d lo (t.remap d f) = true := by
  induction t generalizing lo with
  | nil => rfl
  | cons e t ih =>
    obtain ⟨k, v⟩ := e
    simp only [Tbl.wfFrom, Bool.and_eq_true, decide_eq_true_eq] at w
    exact Tbl.cons_wf d w.1.1 (ih w.2) _

theorem Tbl.remap_wf [DecidableEq α] {d : α} (f : Nat → α → α) {t : Tbl α} (w : t.wf d = true) : (t.remap d f).wf d = true :=
  Tbl.remap_wfFrom d f w

/-! ### Runs of consecutive keys, and dropped keys -/

/-- A run of writes leaves every key outside it alone. -/
theorem Tbl.get_setList_outside [DecidableEq α] {d : α} (vs : List α) {t : Tbl α} (w : t.wf d = true) (k : Nat) {j : Nat}
    (h : j < k ∨ k + vs.length ≤ j) : (t.setList d k vs).get d j = t.get d j := by
  induction vs generalizing t k with
  | nil => rfl
  | cons v vs ih =>
    simp only [List.length_cons] at h
    rw [Tbl.setList, ih (Tbl.set_wf w k v) (k + 1) (by omega), Tbl.get_set w, if_neg (by omega)]

/-- A run of writes reads back. -/
theorem Tbl.get_setList_inside [DecidableEq α] {d : α} (vs : List α) {t : Tbl α} (w : t.wf d = true) (k : Nat) {i : Nat}
    (h : i < vs.length) : (t.setList d k vs).get d (k + i) = vs[i] := by
  induction vs generalizing t k i with
  | nil => simp at h
  | cons v vs ih =>
    rw [Tbl.setList]
    cases i with
    | zero =>
      rw [Tbl.get_setList_outside vs (Tbl.set_wf w k v) (k + 1) (by omega), Tbl.get_set w]
      simp
    | succ i =>
      have := ih (Tbl.set_wf w k v) (k + 1) (i := i) (by simpa using h)
      rw [show k + (i + 1) = k + 1 + i by omega, this]
      rfl

theorem Tbl.get_dropFrom [DecidableEq α] (d : α) {lo : Nat} {t : Tbl α} (w : Tbl.wfFrom d lo t = true) (p : Nat → Bool) (j : Nat) :
    (t.drop p).get d j = if p j then d else t.get d j := by
  induction t generalizing lo with
  | nil => simp [Tbl.drop, Tbl.get]
  | cons e t ih =>
    obtain ⟨k, v⟩ := e
    simp only [Tbl.wfFrom, Bool.and_eq_true, decide_eq_true_eq] at w
    have i := ih w.2
    have low : ∀ {t : Tbl α}, Tbl.wfFrom d (k + 1) t = true → j < k → t.get d j = d := fun u h => Tbl.get_below d u (by omega)
    simp only [Tbl.drop] at i ⊢
    rw [List.filter_cons]
    split
    · next hp =>
      simp only [Tbl.get]
      split
      · next e => subst e; simp at hp; simp [hp]
      · split
        · simp
        · exact i
    · next hp =>
      rw [i]
      simp only [Tbl.get]
      split
      · rfl
      · split
        · next hk => subst hk; simp_all
        · split
          · next h => exact low w.2 h
          · rfl

theorem Tbl.get_drop [DecidableEq α] {d : α} {t : Tbl α} (w : t.wf d = true) (p : Nat → Bool) (j : Nat) :
    (t.drop p).get d j = if p j then d else t.get d j := Tbl.get_dropFrom d w p j

/-- A run of reads has the length asked for. -/
@[simp] theorem Tbl.getList_length (d : α) (t : Tbl α) (k n : Nat) : (t.getList d k n).length = n := by simp [Tbl.getList]

@[simp] theorem leBytes_length (n v : Nat) : (leBytes n v).length = n := by
  induction n generalizing v with
  | zero => rfl
  | succ n ih => simp [leBytes, ih]

@[simp] theorem beBytes_length (n v : Nat) : (beBytes n v).length = n := by simp [beBytes]

/-- Little-endian bytes read back (R4). -/
theorem leNat_leBytes (n v : Nat) (h : v < 256 ^ n) : leNat (leBytes n v) = v := by
  induction n generalizing v with
  | zero => simp only [Nat.pow_zero] at h; simp [leBytes, leNat]; omega
  | succ n ih =>
    have := ih (v / 256) (by rw [Nat.pow_succ] at h; omega)
    simp only [leNat] at this
    simp only [leBytes, leNat, List.foldr_cons, this, BitVec.toNat_ofNat]
    omega

end Sys2Proof.Machine
end

