-- ==== Sys2Proof/Laws/State.lean ====
section
/-!
SUPPORT. What the updates of the state do, field by field: one lemma per update and field, so that no later proof unfolds an
update; and the frames of the operations that many commands share.
-/

namespace Sys2Proof.Machine

/-! ### The ledger's writes -/

/-- A write of an item changes no value of the ledger but its copies. -/
theorem Ledg.put_units (l : Ledg) (w : LedWrite) : (l.put w).units = l.units := by
  unfold Ledg.put Ledg.settle; dsimp only; split <;> rfl

theorem Ledg.put_records (l : Ledg) (w : LedWrite) : (l.put w).records = l.records := by
  unfold Ledg.put Ledg.settle; dsimp only; split <;> rfl

theorem Ledg.put_cause (l : Ledg) (w : LedWrite) : (l.put w).cause = l.cause := by
  unfold Ledg.put Ledg.settle; dsimp only; split <;> rfl

theorem Ledg.setUnit_units (l : Ledg) (u : Nat) (v : UnitEnt) : (l.setUnit u v).units = l.units.set {} u v := by
  unfold Ledg.setUnit; dsimp only
  repeat' split
  all_goals simp only [Ledg.put_units]

theorem Ledg.setUnit_records (l : Ledg) (u : Nat) (v : UnitEnt) : (l.setUnit u v).records = l.records := by
  unfold Ledg.setUnit; dsimp only
  repeat' split
  all_goals simp only [Ledg.put_records]

/-! ### State.setLane -/

section
variable (s : State) (l : Nat) (v : Lane)

@[simp] theorem State.setLane_glb : (s.setLane l v).glb = s.glb := rfl
@[simp] theorem State.setLane_pins : (s.setLane l v).pins = s.pins := rfl
@[simp] theorem State.setLane_therm : (s.setLane l v).therm = s.therm := rfl
@[simp] theorem State.setLane_time : (s.setLane l v).time = s.time := rfl
@[simp] theorem State.setLane_flash : (s.setLane l v).flash = s.flash := rfl
@[simp] theorem State.setLane_flashOp : (s.setLane l v).flashOp = s.flashOp := rfl
@[simp] theorem State.setLane_cfg : (s.setLane l v).cfg = s.cfg := rfl
@[simp] theorem State.setLane_img : (s.setLane l v).img = s.img := rfl
@[simp] theorem State.setLane_sec : (s.setLane l v).sec = s.sec := rfl
@[simp] theorem State.setLane_fab : (s.setLane l v).fab = s.fab := rfl
@[simp] theorem State.setLane_ptp : (s.setLane l v).ptp = s.ptp := rfl
@[simp] theorem State.setLane_ing : (s.setLane l v).ing = s.ing := rfl
@[simp] theorem State.setLane_sess : (s.setLane l v).sess = s.sess := rfl
@[simp] theorem State.setLane_enc : (s.setLane l v).enc = s.enc := rfl
@[simp] theorem State.setLane_rc : (s.setLane l v).rc = s.rc := rfl
@[simp] theorem State.setLane_rcCnt : (s.setLane l v).rcCnt = s.rcCnt := rfl
@[simp] theorem State.setLane_dec : (s.setLane l v).dec = s.dec := rfl
@[simp] theorem State.setLane_dcx : (s.setLane l v).dcx = s.dcx := rfl
@[simp] theorem State.setLane_dcxCnt : (s.setLane l v).dcxCnt = s.dcxCnt := rfl
@[simp] theorem State.setLane_decRedo : (s.setLane l v).decRedo = s.decRedo := rfl
@[simp] theorem State.setLane_pkt : (s.setLane l v).pkt = s.pkt := rfl
@[simp] theorem State.setLane_rep : (s.setLane l v).rep = s.rep := rfl
@[simp] theorem State.setLane_egr : (s.setLane l v).egr = s.egr := rfl
@[simp] theorem State.setLane_hbm : (s.setLane l v).hbm = s.hbm := rfl
@[simp] theorem State.setLane_chip : (s.setLane l v).chip = s.chip := rfl
@[simp] theorem State.setLane_flt : (s.setLane l v).flt = s.flt := rfl
@[simp] theorem State.setLane_led : (s.setLane l v).led = s.led := rfl
@[simp] theorem State.setLane_isl : (s.setLane l v).isl = s.isl := rfl
@[simp] theorem State.setLane_irq : (s.setLane l v).irq = s.irq := rfl
@[simp] theorem State.setLane_mbx : (s.setLane l v).mbx = s.mbx := rfl
@[simp] theorem State.setLane_pcie : (s.setLane l v).pcie = s.pcie := rfl
@[simp] theorem State.setLane_bar2 : (s.setLane l v).bar2 = s.bar2 := rfl
@[simp] theorem State.setLane_host : (s.setLane l v).host = s.host := rfl
@[simp] theorem State.setLane_outs : (s.setLane l v).outs = s.outs := rfl
@[simp] theorem State.setLane_free : (s.setLane l v).free = s.free := rfl
@[simp] theorem State.setLane_pending : (s.setLane l v).pending = s.pending := rfl
@[simp] theorem State.setLane_rota : (s.setLane l v).rota = { s.rota with lanes := s.rota.lanes.set {} l v } := rfl

/-- A read after the write, of the same and of another number. -/
theorem State.setLane_lane (w : s.rota.lanes.wf {} = true) (j : Nat) :
    (s.setLane l v).lane j = if j = l then v else s.lane j := Tbl.get_set w l v j

end

/-! ### State.setDLane -/

section
variable (s : State) (l : Nat) (v : DLane)

@[simp] theorem State.setDLane_glb : (s.setDLane l v).glb = s.glb := rfl
@[simp] theorem State.setDLane_pins : (s.setDLane l v).pins = s.pins := rfl
@[simp] theorem State.setDLane_therm : (s.setDLane l v).therm = s.therm := rfl
@[simp] theorem State.setDLane_time : (s.setDLane l v).time = s.time := rfl
@[simp] theorem State.setDLane_flash : (s.setDLane l v).flash = s.flash := rfl
@[simp] theorem State.setDLane_flashOp : (s.setDLane l v).flashOp = s.flashOp := rfl
@[simp] theorem State.setDLane_cfg : (s.setDLane l v).cfg = s.cfg := rfl
@[simp] theorem State.setDLane_img : (s.setDLane l v).img = s.img := rfl
@[simp] theorem State.setDLane_sec : (s.setDLane l v).sec = s.sec := rfl
@[simp] theorem State.setDLane_fab : (s.setDLane l v).fab = s.fab := rfl
@[simp] theorem State.setDLane_ptp : (s.setDLane l v).ptp = s.ptp := rfl
@[simp] theorem State.setDLane_ing : (s.setDLane l v).ing = s.ing := rfl
@[simp] theorem State.setDLane_sess : (s.setDLane l v).sess = s.sess := rfl
@[simp] theorem State.setDLane_enc : (s.setDLane l v).enc = s.enc := rfl
@[simp] theorem State.setDLane_rc : (s.setDLane l v).rc = s.rc := rfl
@[simp] theorem State.setDLane_rcCnt : (s.setDLane l v).rcCnt = s.rcCnt := rfl
@[simp] theorem State.setDLane_dec : (s.setDLane l v).dec = s.dec := rfl
@[simp] theorem State.setDLane_dcx : (s.setDLane l v).dcx = s.dcx := rfl
@[simp] theorem State.setDLane_dcxCnt : (s.setDLane l v).dcxCnt = s.dcxCnt := rfl
@[simp] theorem State.setDLane_decRedo : (s.setDLane l v).decRedo = s.decRedo := rfl
@[simp] theorem State.setDLane_pkt : (s.setDLane l v).pkt = s.pkt := rfl
@[simp] theorem State.setDLane_rep : (s.setDLane l v).rep = s.rep := rfl
@[simp] theorem State.setDLane_egr : (s.setDLane l v).egr = s.egr := rfl
@[simp] theorem State.setDLane_hbm : (s.setDLane l v).hbm = s.hbm := rfl
@[simp] theorem State.setDLane_chip : (s.setDLane l v).chip = s.chip := rfl
@[simp] theorem State.setDLane_flt : (s.setDLane l v).flt = s.flt := rfl
@[simp] theorem State.setDLane_led : (s.setDLane l v).led = s.led := rfl
@[simp] theorem State.setDLane_isl : (s.setDLane l v).isl = s.isl := rfl
@[simp] theorem State.setDLane_irq : (s.setDLane l v).irq = s.irq := rfl
@[simp] theorem State.setDLane_mbx : (s.setDLane l v).mbx = s.mbx := rfl
@[simp] theorem State.setDLane_pcie : (s.setDLane l v).pcie = s.pcie := rfl
@[simp] theorem State.setDLane_bar2 : (s.setDLane l v).bar2 = s.bar2 := rfl
@[simp] theorem State.setDLane_host : (s.setDLane l v).host = s.host := rfl
@[simp] theorem State.setDLane_outs : (s.setDLane l v).outs = s.outs := rfl
@[simp] theorem State.setDLane_free : (s.setDLane l v).free = s.free := rfl
@[simp] theorem State.setDLane_pending : (s.setDLane l v).pending = s.pending := rfl
@[simp] theorem State.setDLane_rota : (s.setDLane l v).rota = { s.rota with dlanes := s.rota.dlanes.set {} l v } := rfl

/-- A read after the write, of the same and of another number. -/
theorem State.setDLane_dlane (w : s.rota.dlanes.wf {} = true) (j : Nat) :
    (s.setDLane l v).dlane j = if j = l then v else s.dlane j := Tbl.get_set w l v j

end

/-! ### State.setPart -/

section
variable (s : State) (ch p : Nat) (v : PartSt)

@[simp] theorem State.setPart_glb : (s.setPart ch p v).glb = s.glb := rfl
@[simp] theorem State.setPart_pins : (s.setPart ch p v).pins = s.pins := rfl
@[simp] theorem State.setPart_therm : (s.setPart ch p v).therm = s.therm := rfl
@[simp] theorem State.setPart_time : (s.setPart ch p v).time = s.time := rfl
@[simp] theorem State.setPart_flash : (s.setPart ch p v).flash = s.flash := rfl
@[simp] theorem State.setPart_flashOp : (s.setPart ch p v).flashOp = s.flashOp := rfl
@[simp] theorem State.setPart_cfg : (s.setPart ch p v).cfg = s.cfg := rfl
@[simp] theorem State.setPart_img : (s.setPart ch p v).img = s.img := rfl
@[simp] theorem State.setPart_sec : (s.setPart ch p v).sec = s.sec := rfl
@[simp] theorem State.setPart_fab : (s.setPart ch p v).fab = s.fab := rfl
@[simp] theorem State.setPart_ptp : (s.setPart ch p v).ptp = s.ptp := rfl
@[simp] theorem State.setPart_ing : (s.setPart ch p v).ing = s.ing := rfl
@[simp] theorem State.setPart_sess : (s.setPart ch p v).sess = s.sess := rfl
@[simp] theorem State.setPart_enc : (s.setPart ch p v).enc = s.enc := rfl
@[simp] theorem State.setPart_rc : (s.setPart ch p v).rc = s.rc := rfl
@[simp] theorem State.setPart_rcCnt : (s.setPart ch p v).rcCnt = s.rcCnt := rfl
@[simp] theorem State.setPart_dec : (s.setPart ch p v).dec = s.dec := rfl
@[simp] theorem State.setPart_dcx : (s.setPart ch p v).dcx = s.dcx := rfl
@[simp] theorem State.setPart_dcxCnt : (s.setPart ch p v).dcxCnt = s.dcxCnt := rfl
@[simp] theorem State.setPart_decRedo : (s.setPart ch p v).decRedo = s.decRedo := rfl
@[simp] theorem State.setPart_pkt : (s.setPart ch p v).pkt = s.pkt := rfl
@[simp] theorem State.setPart_rep : (s.setPart ch p v).rep = s.rep := rfl
@[simp] theorem State.setPart_egr : (s.setPart ch p v).egr = s.egr := rfl
@[simp] theorem State.setPart_hbm : (s.setPart ch p v).hbm = s.hbm := rfl
@[simp] theorem State.setPart_chip : (s.setPart ch p v).chip = s.chip := rfl
@[simp] theorem State.setPart_flt : (s.setPart ch p v).flt = s.flt := rfl
@[simp] theorem State.setPart_led : (s.setPart ch p v).led = s.led := rfl
@[simp] theorem State.setPart_isl : (s.setPart ch p v).isl = s.isl := rfl
@[simp] theorem State.setPart_irq : (s.setPart ch p v).irq = s.irq := rfl
@[simp] theorem State.setPart_mbx : (s.setPart ch p v).mbx = s.mbx := rfl
@[simp] theorem State.setPart_pcie : (s.setPart ch p v).pcie = s.pcie := rfl
@[simp] theorem State.setPart_bar2 : (s.setPart ch p v).bar2 = s.bar2 := rfl
@[simp] theorem State.setPart_host : (s.setPart ch p v).host = s.host := rfl
@[simp] theorem State.setPart_outs : (s.setPart ch p v).outs = s.outs := rfl
@[simp] theorem State.setPart_free : (s.setPart ch p v).free = s.free := rfl
@[simp] theorem State.setPart_pending : (s.setPart ch p v).pending = s.pending := rfl
@[simp] theorem State.setPart_rota : (s.setPart ch p v).rota = { s.rota with parts := s.rota.parts.set {} (2 * ch + p) v } := rfl

/-- A read after the write, of the same and of another part. -/
theorem State.setPart_part (w : s.rota.parts.wf {} = true) (c q : Nat) :
    (s.setPart ch p v).part c q = if 2 * c + q = 2 * ch + p then v else s.part c q := Tbl.get_set w (2 * ch + p) v (2 * c + q)

end

/-! ### State.setSess -/

section
variable (s : State) (ch : Nat) (v : Sess)

@[simp] theorem State.setSess_glb : (s.setSess ch v).glb = s.glb := rfl
@[simp] theorem State.setSess_pins : (s.setSess ch v).pins = s.pins := rfl
@[simp] theorem State.setSess_therm : (s.setSess ch v).therm = s.therm := rfl
@[simp] theorem State.setSess_time : (s.setSess ch v).time = s.time := rfl
@[simp] theorem State.setSess_flash : (s.setSess ch v).flash = s.flash := rfl
@[simp] theorem State.setSess_flashOp : (s.setSess ch v).flashOp = s.flashOp := rfl
@[simp] theorem State.setSess_cfg : (s.setSess ch v).cfg = s.cfg := rfl
@[simp] theorem State.setSess_img : (s.setSess ch v).img = s.img := rfl
@[simp] theorem State.setSess_sec : (s.setSess ch v).sec = s.sec := rfl
@[simp] theorem State.setSess_fab : (s.setSess ch v).fab = s.fab := rfl
@[simp] theorem State.setSess_rota : (s.setSess ch v).rota = s.rota := rfl
@[simp] theorem State.setSess_ptp : (s.setSess ch v).ptp = s.ptp := rfl
@[simp] theorem State.setSess_ing : (s.setSess ch v).ing = s.ing := rfl
@[simp] theorem State.setSess_enc : (s.setSess ch v).enc = s.enc := rfl
@[simp] theorem State.setSess_rc : (s.setSess ch v).rc = s.rc := rfl
@[simp] theorem State.setSess_rcCnt : (s.setSess ch v).rcCnt = s.rcCnt := rfl
@[simp] theorem State.setSess_dec : (s.setSess ch v).dec = s.dec := rfl
@[simp] theorem State.setSess_dcx : (s.setSess ch v).dcx = s.dcx := rfl
@[simp] theorem State.setSess_dcxCnt : (s.setSess ch v).dcxCnt = s.dcxCnt := rfl
@[simp] theorem State.setSess_decRedo : (s.setSess ch v).decRedo = s.decRedo := rfl
@[simp] theorem State.setSess_pkt : (s.setSess ch v).pkt = s.pkt := rfl
@[simp] theorem State.setSess_rep : (s.setSess ch v).rep = s.rep := rfl
@[simp] theorem State.setSess_egr : (s.setSess ch v).egr = s.egr := rfl
@[simp] theorem State.setSess_hbm : (s.setSess ch v).hbm = s.hbm := rfl
@[simp] theorem State.setSess_chip : (s.setSess ch v).chip = s.chip := rfl
@[simp] theorem State.setSess_flt : (s.setSess ch v).flt = s.flt := rfl
@[simp] theorem State.setSess_led : (s.setSess ch v).led = s.led := rfl
@[simp] theorem State.setSess_isl : (s.setSess ch v).isl = s.isl := rfl
@[simp] theorem State.setSess_irq : (s.setSess ch v).irq = s.irq := rfl
@[simp] theorem State.setSess_mbx : (s.setSess ch v).mbx = s.mbx := rfl
@[simp] theorem State.setSess_pcie : (s.setSess ch v).pcie = s.pcie := rfl
@[simp] theorem State.setSess_bar2 : (s.setSess ch v).bar2 = s.bar2 := rfl
@[simp] theorem State.setSess_host : (s.setSess ch v).host = s.host := rfl
@[simp] theorem State.setSess_outs : (s.setSess ch v).outs = s.outs := rfl
@[simp] theorem State.setSess_free : (s.setSess ch v).free = s.free := rfl
@[simp] theorem State.setSess_pending : (s.setSess ch v).pending = s.pending := rfl
@[simp] theorem State.setSess_sess : (s.setSess ch v).sess = s.sess.set {} ch v := rfl

/-- A read after the write, of the same and of another number. -/
theorem State.setSess_sessOf (w : s.sess.wf {} = true) (j : Nat) :
    (s.setSess ch v).sessOf j = if j = ch then v else s.sessOf j := Tbl.get_set w ch v j

end

/-! ### State.setRc -/

section
variable (s : State) (ch : Nat) (v : Rc)

@[simp] theorem State.setRc_glb : (s.setRc ch v).glb = s.glb := rfl
@[simp] theorem State.setRc_pins : (s.setRc ch v).pins = s.pins := rfl
@[simp] theorem State.setRc_therm : (s.setRc ch v).therm = s.therm := rfl
@[simp] theorem State.setRc_time : (s.setRc ch v).time = s.time := rfl
@[simp] theorem State.setRc_flash : (s.setRc ch v).flash = s.flash := rfl
@[simp] theorem State.setRc_flashOp : (s.setRc ch v).flashOp = s.flashOp := rfl
@[simp] theorem State.setRc_cfg : (s.setRc ch v).cfg = s.cfg := rfl
@[simp] theorem State.setRc_img : (s.setRc ch v).img = s.img := rfl
@[simp] theorem State.setRc_sec : (s.setRc ch v).sec = s.sec := rfl
@[simp] theorem State.setRc_fab : (s.setRc ch v).fab = s.fab := rfl
@[simp] theorem State.setRc_rota : (s.setRc ch v).rota = s.rota := rfl
@[simp] theorem State.setRc_ptp : (s.setRc ch v).ptp = s.ptp := rfl
@[simp] theorem State.setRc_ing : (s.setRc ch v).ing = s.ing := rfl
@[simp] theorem State.setRc_sess : (s.setRc ch v).sess = s.sess := rfl
@[simp] theorem State.setRc_enc : (s.setRc ch v).enc = s.enc := rfl
@[simp] theorem State.setRc_rcCnt : (s.setRc ch v).rcCnt = s.rcCnt := rfl
@[simp] theorem State.setRc_dec : (s.setRc ch v).dec = s.dec := rfl
@[simp] theorem State.setRc_dcx : (s.setRc ch v).dcx = s.dcx := rfl
@[simp] theorem State.setRc_dcxCnt : (s.setRc ch v).dcxCnt = s.dcxCnt := rfl
@[simp] theorem State.setRc_decRedo : (s.setRc ch v).decRedo = s.decRedo := rfl
@[simp] theorem State.setRc_pkt : (s.setRc ch v).pkt = s.pkt := rfl
@[simp] theorem State.setRc_rep : (s.setRc ch v).rep = s.rep := rfl
@[simp] theorem State.setRc_egr : (s.setRc ch v).egr = s.egr := rfl
@[simp] theorem State.setRc_hbm : (s.setRc ch v).hbm = s.hbm := rfl
@[simp] theorem State.setRc_chip : (s.setRc ch v).chip = s.chip := rfl
@[simp] theorem State.setRc_flt : (s.setRc ch v).flt = s.flt := rfl
@[simp] theorem State.setRc_led : (s.setRc ch v).led = s.led := rfl
@[simp] theorem State.setRc_isl : (s.setRc ch v).isl = s.isl := rfl
@[simp] theorem State.setRc_irq : (s.setRc ch v).irq = s.irq := rfl
@[simp] theorem State.setRc_mbx : (s.setRc ch v).mbx = s.mbx := rfl
@[simp] theorem State.setRc_pcie : (s.setRc ch v).pcie = s.pcie := rfl
@[simp] theorem State.setRc_bar2 : (s.setRc ch v).bar2 = s.bar2 := rfl
@[simp] theorem State.setRc_host : (s.setRc ch v).host = s.host := rfl
@[simp] theorem State.setRc_outs : (s.setRc ch v).outs = s.outs := rfl
@[simp] theorem State.setRc_free : (s.setRc ch v).free = s.free := rfl
@[simp] theorem State.setRc_pending : (s.setRc ch v).pending = s.pending := rfl
@[simp] theorem State.setRc_rc : (s.setRc ch v).rc = s.rc.set {} ch v := rfl

/-- A read after the write, of the same and of another number. -/
theorem State.setRc_rcOf (w : s.rc.wf {} = true) (j : Nat) :
    (s.setRc ch v).rcOf j = if j = ch then v else s.rcOf j := Tbl.get_set w ch v j

end

/-! ### State.setIng -/

section
variable (s : State) (ch : Nat) (v : IngCh)

@[simp] theorem State.setIng_glb : (s.setIng ch v).glb = s.glb := rfl
@[simp] theorem State.setIng_pins : (s.setIng ch v).pins = s.pins := rfl
@[simp] theorem State.setIng_therm : (s.setIng ch v).therm = s.therm := rfl
@[simp] theorem State.setIng_time : (s.setIng ch v).time = s.time := rfl
@[simp] theorem State.setIng_flash : (s.setIng ch v).flash = s.flash := rfl
@[simp] theorem State.setIng_flashOp : (s.setIng ch v).flashOp = s.flashOp := rfl
@[simp] theorem State.setIng_cfg : (s.setIng ch v).cfg = s.cfg := rfl
@[simp] theorem State.setIng_img : (s.setIng ch v).img = s.img := rfl
@[simp] theorem State.setIng_sec : (s.setIng ch v).sec = s.sec := rfl
@[simp] theorem State.setIng_fab : (s.setIng ch v).fab = s.fab := rfl
@[simp] theorem State.setIng_rota : (s.setIng ch v).rota = s.rota := rfl
@[simp] theorem State.setIng_ptp : (s.setIng ch v).ptp = s.ptp := rfl
@[simp] theorem State.setIng_sess : (s.setIng ch v).sess = s.sess := rfl
@[simp] theorem State.setIng_enc : (s.setIng ch v).enc = s.enc := rfl
@[simp] theorem State.setIng_rc : (s.setIng ch v).rc = s.rc := rfl
@[simp] theorem State.setIng_rcCnt : (s.setIng ch v).rcCnt = s.rcCnt := rfl
@[simp] theorem State.setIng_dec : (s.setIng ch v).dec = s.dec := rfl
@[simp] theorem State.setIng_dcx : (s.setIng ch v).dcx = s.dcx := rfl
@[simp] theorem State.setIng_dcxCnt : (s.setIng ch v).dcxCnt = s.dcxCnt := rfl
@[simp] theorem State.setIng_decRedo : (s.setIng ch v).decRedo = s.decRedo := rfl
@[simp] theorem State.setIng_pkt : (s.setIng ch v).pkt = s.pkt := rfl
@[simp] theorem State.setIng_rep : (s.setIng ch v).rep = s.rep := rfl
@[simp] theorem State.setIng_egr : (s.setIng ch v).egr = s.egr := rfl
@[simp] theorem State.setIng_hbm : (s.setIng ch v).hbm = s.hbm := rfl
@[simp] theorem State.setIng_chip : (s.setIng ch v).chip = s.chip := rfl
@[simp] theorem State.setIng_flt : (s.setIng ch v).flt = s.flt := rfl
@[simp] theorem State.setIng_led : (s.setIng ch v).led = s.led := rfl
@[simp] theorem State.setIng_isl : (s.setIng ch v).isl = s.isl := rfl
@[simp] theorem State.setIng_irq : (s.setIng ch v).irq = s.irq := rfl
@[simp] theorem State.setIng_mbx : (s.setIng ch v).mbx = s.mbx := rfl
@[simp] theorem State.setIng_pcie : (s.setIng ch v).pcie = s.pcie := rfl
@[simp] theorem State.setIng_bar2 : (s.setIng ch v).bar2 = s.bar2 := rfl
@[simp] theorem State.setIng_host : (s.setIng ch v).host = s.host := rfl
@[simp] theorem State.setIng_outs : (s.setIng ch v).outs = s.outs := rfl
@[simp] theorem State.setIng_free : (s.setIng ch v).free = s.free := rfl
@[simp] theorem State.setIng_pending : (s.setIng ch v).pending = s.pending := rfl
@[simp] theorem State.setIng_ing : (s.setIng ch v).ing = { s.ing with ch := s.ing.ch.set {} ch v } := rfl

/-- A read after the write, of the same and of another number. -/
theorem State.setIng_ingOf (w : s.ing.ch.wf {} = true) (j : Nat) :
    (s.setIng ch v).ingOf j = if j = ch then v else s.ingOf j := Tbl.get_set w ch v j

end

/-! ### State.setEnc -/

section
variable (s : State) (k : Nat) (v : EncCore)

@[simp] theorem State.setEnc_glb : (s.setEnc k v).glb = s.glb := rfl
@[simp] theorem State.setEnc_pins : (s.setEnc k v).pins = s.pins := rfl
@[simp] theorem State.setEnc_therm : (s.setEnc k v).therm = s.therm := rfl
@[simp] theorem State.setEnc_time : (s.setEnc k v).time = s.time := rfl
@[simp] theorem State.setEnc_flash : (s.setEnc k v).flash = s.flash := rfl
@[simp] theorem State.setEnc_flashOp : (s.setEnc k v).flashOp = s.flashOp := rfl
@[simp] theorem State.setEnc_cfg : (s.setEnc k v).cfg = s.cfg := rfl
@[simp] theorem State.setEnc_img : (s.setEnc k v).img = s.img := rfl
@[simp] theorem State.setEnc_sec : (s.setEnc k v).sec = s.sec := rfl
@[simp] theorem State.setEnc_fab : (s.setEnc k v).fab = s.fab := rfl
@[simp] theorem State.setEnc_rota : (s.setEnc k v).rota = s.rota := rfl
@[simp] theorem State.setEnc_ptp : (s.setEnc k v).ptp = s.ptp := rfl
@[simp] theorem State.setEnc_ing : (s.setEnc k v).ing = s.ing := rfl
@[simp] theorem State.setEnc_sess : (s.setEnc k v).sess = s.sess := rfl
@[simp] theorem State.setEnc_rc : (s.setEnc k v).rc = s.rc := rfl
@[simp] theorem State.setEnc_rcCnt : (s.setEnc k v).rcCnt = s.rcCnt := rfl
@[simp] theorem State.setEnc_dec : (s.setEnc k v).dec = s.dec := rfl
@[simp] theorem State.setEnc_dcx : (s.setEnc k v).dcx = s.dcx := rfl
@[simp] theorem State.setEnc_dcxCnt : (s.setEnc k v).dcxCnt = s.dcxCnt := rfl
@[simp] theorem State.setEnc_decRedo : (s.setEnc k v).decRedo = s.decRedo := rfl
@[simp] theorem State.setEnc_pkt : (s.setEnc k v).pkt = s.pkt := rfl
@[simp] theorem State.setEnc_rep : (s.setEnc k v).rep = s.rep := rfl
@[simp] theorem State.setEnc_egr : (s.setEnc k v).egr = s.egr := rfl
@[simp] theorem State.setEnc_hbm : (s.setEnc k v).hbm = s.hbm := rfl
@[simp] theorem State.setEnc_chip : (s.setEnc k v).chip = s.chip := rfl
@[simp] theorem State.setEnc_flt : (s.setEnc k v).flt = s.flt := rfl
@[simp] theorem State.setEnc_led : (s.setEnc k v).led = s.led := rfl
@[simp] theorem State.setEnc_isl : (s.setEnc k v).isl = s.isl := rfl
@[simp] theorem State.setEnc_irq : (s.setEnc k v).irq = s.irq := rfl
@[simp] theorem State.setEnc_mbx : (s.setEnc k v).mbx = s.mbx := rfl
@[simp] theorem State.setEnc_pcie : (s.setEnc k v).pcie = s.pcie := rfl
@[simp] theorem State.setEnc_bar2 : (s.setEnc k v).bar2 = s.bar2 := rfl
@[simp] theorem State.setEnc_host : (s.setEnc k v).host = s.host := rfl
@[simp] theorem State.setEnc_outs : (s.setEnc k v).outs = s.outs := rfl
@[simp] theorem State.setEnc_free : (s.setEnc k v).free = s.free := rfl
@[simp] theorem State.setEnc_pending : (s.setEnc k v).pending = s.pending := rfl
@[simp] theorem State.setEnc_enc : (s.setEnc k v).enc = s.enc.set {} k v := rfl

/-- A read after the write, of the same and of another number. -/
theorem State.setEnc_encOf (w : s.enc.wf {} = true) (j : Nat) :
    (s.setEnc k v).encOf j = if j = k then v else s.encOf j := Tbl.get_set w k v j

end

/-! ### State.setDec -/

section
variable (s : State) (k : Nat) (v : DecCore)

@[simp] theorem State.setDec_glb : (s.setDec k v).glb = s.glb := rfl
@[simp] theorem State.setDec_pins : (s.setDec k v).pins = s.pins := rfl
@[simp] theorem State.setDec_therm : (s.setDec k v).therm = s.therm := rfl
@[simp] theorem State.setDec_time : (s.setDec k v).time = s.time := rfl
@[simp] theorem State.setDec_flash : (s.setDec k v).flash = s.flash := rfl
@[simp] theorem State.setDec_flashOp : (s.setDec k v).flashOp = s.flashOp := rfl
@[simp] theorem State.setDec_cfg : (s.setDec k v).cfg = s.cfg := rfl
@[simp] theorem State.setDec_img : (s.setDec k v).img = s.img := rfl
@[simp] theorem State.setDec_sec : (s.setDec k v).sec = s.sec := rfl
@[simp] theorem State.setDec_fab : (s.setDec k v).fab = s.fab := rfl
@[simp] theorem State.setDec_rota : (s.setDec k v).rota = s.rota := rfl
@[simp] theorem State.setDec_ptp : (s.setDec k v).ptp = s.ptp := rfl
@[simp] theorem State.setDec_ing : (s.setDec k v).ing = s.ing := rfl
@[simp] theorem State.setDec_sess : (s.setDec k v).sess = s.sess := rfl
@[simp] theorem State.setDec_enc : (s.setDec k v).enc = s.enc := rfl
@[simp] theorem State.setDec_rc : (s.setDec k v).rc = s.rc := rfl
@[simp] theorem State.setDec_rcCnt : (s.setDec k v).rcCnt = s.rcCnt := rfl
@[simp] theorem State.setDec_dcx : (s.setDec k v).dcx = s.dcx := rfl
@[simp] theorem State.setDec_dcxCnt : (s.setDec k v).dcxCnt = s.dcxCnt := rfl
@[simp] theorem State.setDec_decRedo : (s.setDec k v).decRedo = s.decRedo := rfl
@[simp] theorem State.setDec_pkt : (s.setDec k v).pkt = s.pkt := rfl
@[simp] theorem State.setDec_rep : (s.setDec k v).rep = s.rep := rfl
@[simp] theorem State.setDec_egr : (s.setDec k v).egr = s.egr := rfl
@[simp] theorem State.setDec_hbm : (s.setDec k v).hbm = s.hbm := rfl
@[simp] theorem State.setDec_chip : (s.setDec k v).chip = s.chip := rfl
@[simp] theorem State.setDec_flt : (s.setDec k v).flt = s.flt := rfl
@[simp] theorem State.setDec_led : (s.setDec k v).led = s.led := rfl
@[simp] theorem State.setDec_isl : (s.setDec k v).isl = s.isl := rfl
@[simp] theorem State.setDec_irq : (s.setDec k v).irq = s.irq := rfl
@[simp] theorem State.setDec_mbx : (s.setDec k v).mbx = s.mbx := rfl
@[simp] theorem State.setDec_pcie : (s.setDec k v).pcie = s.pcie := rfl
@[simp] theorem State.setDec_bar2 : (s.setDec k v).bar2 = s.bar2 := rfl
@[simp] theorem State.setDec_host : (s.setDec k v).host = s.host := rfl
@[simp] theorem State.setDec_outs : (s.setDec k v).outs = s.outs := rfl
@[simp] theorem State.setDec_free : (s.setDec k v).free = s.free := rfl
@[simp] theorem State.setDec_pending : (s.setDec k v).pending = s.pending := rfl
@[simp] theorem State.setDec_dec : (s.setDec k v).dec = s.dec.set {} k v := rfl

/-- A read after the write, of the same and of another number. -/
theorem State.setDec_decOf (w : s.dec.wf {} = true) (j : Nat) :
    (s.setDec k v).decOf j = if j = k then v else s.decOf j := Tbl.get_set w k v j

end

/-! ### State.setDcx -/

section
variable (s : State) (n : Nat) (v : Dcx)

@[simp] theorem State.setDcx_glb : (s.setDcx n v).glb = s.glb := rfl
@[simp] theorem State.setDcx_pins : (s.setDcx n v).pins = s.pins := rfl
@[simp] theorem State.setDcx_therm : (s.setDcx n v).therm = s.therm := rfl
@[simp] theorem State.setDcx_time : (s.setDcx n v).time = s.time := rfl
@[simp] theorem State.setDcx_flash : (s.setDcx n v).flash = s.flash := rfl
@[simp] theorem State.setDcx_flashOp : (s.setDcx n v).flashOp = s.flashOp := rfl
@[simp] theorem State.setDcx_cfg : (s.setDcx n v).cfg = s.cfg := rfl
@[simp] theorem State.setDcx_img : (s.setDcx n v).img = s.img := rfl
@[simp] theorem State.setDcx_sec : (s.setDcx n v).sec = s.sec := rfl
@[simp] theorem State.setDcx_fab : (s.setDcx n v).fab = s.fab := rfl
@[simp] theorem State.setDcx_rota : (s.setDcx n v).rota = s.rota := rfl
@[simp] theorem State.setDcx_ptp : (s.setDcx n v).ptp = s.ptp := rfl
@[simp] theorem State.setDcx_ing : (s.setDcx n v).ing = s.ing := rfl
@[simp] theorem State.setDcx_sess : (s.setDcx n v).sess = s.sess := rfl
@[simp] theorem State.setDcx_enc : (s.setDcx n v).enc = s.enc := rfl
@[simp] theorem State.setDcx_rc : (s.setDcx n v).rc = s.rc := rfl
@[simp] theorem State.setDcx_rcCnt : (s.setDcx n v).rcCnt = s.rcCnt := rfl
@[simp] theorem State.setDcx_dec : (s.setDcx n v).dec = s.dec := rfl
@[simp] theorem State.setDcx_dcxCnt : (s.setDcx n v).dcxCnt = s.dcxCnt := rfl
@[simp] theorem State.setDcx_decRedo : (s.setDcx n v).decRedo = s.decRedo := rfl
@[simp] theorem State.setDcx_pkt : (s.setDcx n v).pkt = s.pkt := rfl
@[simp] theorem State.setDcx_rep : (s.setDcx n v).rep = s.rep := rfl
@[simp] theorem State.setDcx_egr : (s.setDcx n v).egr = s.egr := rfl
@[simp] theorem State.setDcx_hbm : (s.setDcx n v).hbm = s.hbm := rfl
@[simp] theorem State.setDcx_chip : (s.setDcx n v).chip = s.chip := rfl
@[simp] theorem State.setDcx_flt : (s.setDcx n v).flt = s.flt := rfl
@[simp] theorem State.setDcx_led : (s.setDcx n v).led = s.led := rfl
@[simp] theorem State.setDcx_isl : (s.setDcx n v).isl = s.isl := rfl
@[simp] theorem State.setDcx_irq : (s.setDcx n v).irq = s.irq := rfl
@[simp] theorem State.setDcx_mbx : (s.setDcx n v).mbx = s.mbx := rfl
@[simp] theorem State.setDcx_pcie : (s.setDcx n v).pcie = s.pcie := rfl
@[simp] theorem State.setDcx_bar2 : (s.setDcx n v).bar2 = s.bar2 := rfl
@[simp] theorem State.setDcx_host : (s.setDcx n v).host = s.host := rfl
@[simp] theorem State.setDcx_outs : (s.setDcx n v).outs = s.outs := rfl
@[simp] theorem State.setDcx_free : (s.setDcx n v).free = s.free := rfl
@[simp] theorem State.setDcx_pending : (s.setDcx n v).pending = s.pending := rfl
@[simp] theorem State.setDcx_dcx : (s.setDcx n v).dcx = s.dcx.set {} n v := rfl

/-- A read after the write, of the same and of another number. -/
theorem State.setDcx_dcxOf (w : s.dcx.wf {} = true) (j : Nat) :
    (s.setDcx n v).dcxOf j = if j = n then v else s.dcxOf j := Tbl.get_set w n v j

end

/-! ### State.setIsl -/

section
variable (s : State) (n : Nat) (v : Isl)

@[simp] theorem State.setIsl_glb : (s.setIsl n v).glb = s.glb := rfl
@[simp] theorem State.setIsl_pins : (s.setIsl n v).pins = s.pins := rfl
@[simp] theorem State.setIsl_therm : (s.setIsl n v).therm = s.therm := rfl
@[simp] theorem State.setIsl_time : (s.setIsl n v).time = s.time := rfl
@[simp] theorem State.setIsl_flash : (s.setIsl n v).flash = s.flash := rfl
@[simp] theorem State.setIsl_flashOp : (s.setIsl n v).flashOp = s.flashOp := rfl
@[simp] theorem State.setIsl_cfg : (s.setIsl n v).cfg = s.cfg := rfl
@[simp] theorem State.setIsl_img : (s.setIsl n v).img = s.img := rfl
@[simp] theorem State.setIsl_sec : (s.setIsl n v).sec = s.sec := rfl
@[simp] theorem State.setIsl_fab : (s.setIsl n v).fab = s.fab := rfl
@[simp] theorem State.setIsl_rota : (s.setIsl n v).rota = s.rota := rfl
@[simp] theorem State.setIsl_ptp : (s.setIsl n v).ptp = s.ptp := rfl
@[simp] theorem State.setIsl_ing : (s.setIsl n v).ing = s.ing := rfl
@[simp] theorem State.setIsl_sess : (s.setIsl n v).sess = s.sess := rfl
@[simp] theorem State.setIsl_enc : (s.setIsl n v).enc = s.enc := rfl
@[simp] theorem State.setIsl_rc : (s.setIsl n v).rc = s.rc := rfl
@[simp] theorem State.setIsl_rcCnt : (s.setIsl n v).rcCnt = s.rcCnt := rfl
@[simp] theorem State.setIsl_dec : (s.setIsl n v).dec = s.dec := rfl
@[simp] theorem State.setIsl_dcx : (s.setIsl n v).dcx = s.dcx := rfl
@[simp] theorem State.setIsl_dcxCnt : (s.setIsl n v).dcxCnt = s.dcxCnt := rfl
@[simp] theorem State.setIsl_decRedo : (s.setIsl n v).decRedo = s.decRedo := rfl
@[simp] theorem State.setIsl_pkt : (s.setIsl n v).pkt = s.pkt := rfl
@[simp] theorem State.setIsl_rep : (s.setIsl n v).rep = s.rep := rfl
@[simp] theorem State.setIsl_egr : (s.setIsl n v).egr = s.egr := rfl
@[simp] theorem State.setIsl_hbm : (s.setIsl n v).hbm = s.hbm := rfl
@[simp] theorem State.setIsl_chip : (s.setIsl n v).chip = s.chip := rfl
@[simp] theorem State.setIsl_flt : (s.setIsl n v).flt = s.flt := rfl
@[simp] theorem State.setIsl_led : (s.setIsl n v).led = s.led := rfl
@[simp] theorem State.setIsl_irq : (s.setIsl n v).irq = s.irq := rfl
@[simp] theorem State.setIsl_mbx : (s.setIsl n v).mbx = s.mbx := rfl
@[simp] theorem State.setIsl_pcie : (s.setIsl n v).pcie = s.pcie := rfl
@[simp] theorem State.setIsl_bar2 : (s.setIsl n v).bar2 = s.bar2 := rfl
@[simp] theorem State.setIsl_host : (s.setIsl n v).host = s.host := rfl
@[simp] theorem State.setIsl_outs : (s.setIsl n v).outs = s.outs := rfl
@[simp] theorem State.setIsl_free : (s.setIsl n v).free = s.free := rfl
@[simp] theorem State.setIsl_pending : (s.setIsl n v).pending = s.pending := rfl
@[simp] theorem State.setIsl_isl : (s.setIsl n v).isl = s.isl.set {} n v := rfl

/-- A read after the write, of the same and of another number. -/
theorem State.setIsl_islOf (w : s.isl.wf {} = true) (j : Nat) :
    (s.setIsl n v).islOf j = if j = n then v else s.islOf j := Tbl.get_set w n v j

end

/-! ### State.setUnit -/

section
variable (s : State) (u : Nat) (v : UnitEnt)

@[simp] theorem State.setUnit_glb : (s.setUnit u v).glb = s.glb := rfl
@[simp] theorem State.setUnit_pins : (s.setUnit u v).pins = s.pins := rfl
@[simp] theorem State.setUnit_therm : (s.setUnit u v).therm = s.therm := rfl
@[simp] theorem State.setUnit_time : (s.setUnit u v).time = s.time := rfl
@[simp] theorem State.setUnit_flash : (s.setUnit u v).flash = s.flash := rfl
@[simp] theorem State.setUnit_flashOp : (s.setUnit u v).flashOp = s.flashOp := rfl
@[simp] theorem State.setUnit_cfg : (s.setUnit u v).cfg = s.cfg := rfl
@[simp] theorem State.setUnit_img : (s.setUnit u v).img = s.img := rfl
@[simp] theorem State.setUnit_sec : (s.setUnit u v).sec = s.sec := rfl
@[simp] theorem State.setUnit_fab : (s.setUnit u v).fab = s.fab := rfl
@[simp] theorem State.setUnit_rota : (s.setUnit u v).rota = s.rota := rfl
@[simp] theorem State.setUnit_ptp : (s.setUnit u v).ptp = s.ptp := rfl
@[simp] theorem State.setUnit_ing : (s.setUnit u v).ing = s.ing := rfl
@[simp] theorem State.setUnit_sess : (s.setUnit u v).sess = s.sess := rfl
@[simp] theorem State.setUnit_enc : (s.setUnit u v).enc = s.enc := rfl
@[simp] theorem State.setUnit_rc : (s.setUnit u v).rc = s.rc := rfl
@[simp] theorem State.setUnit_rcCnt : (s.setUnit u v).rcCnt = s.rcCnt := rfl
@[simp] theorem State.setUnit_dec : (s.setUnit u v).dec = s.dec := rfl
@[simp] theorem State.setUnit_dcx : (s.setUnit u v).dcx = s.dcx := rfl
@[simp] theorem State.setUnit_dcxCnt : (s.setUnit u v).dcxCnt = s.dcxCnt := rfl
@[simp] theorem State.setUnit_decRedo : (s.setUnit u v).decRedo = s.decRedo := rfl
@[simp] theorem State.setUnit_pkt : (s.setUnit u v).pkt = s.pkt := rfl
@[simp] theorem State.setUnit_rep : (s.setUnit u v).rep = s.rep := rfl
@[simp] theorem State.setUnit_egr : (s.setUnit u v).egr = s.egr := rfl
@[simp] theorem State.setUnit_hbm : (s.setUnit u v).hbm = s.hbm := rfl
@[simp] theorem State.setUnit_chip : (s.setUnit u v).chip = s.chip := rfl
@[simp] theorem State.setUnit_flt : (s.setUnit u v).flt = s.flt := rfl
@[simp] theorem State.setUnit_isl : (s.setUnit u v).isl = s.isl := rfl
@[simp] theorem State.setUnit_irq : (s.setUnit u v).irq = s.irq := rfl
@[simp] theorem State.setUnit_mbx : (s.setUnit u v).mbx = s.mbx := rfl
@[simp] theorem State.setUnit_pcie : (s.setUnit u v).pcie = s.pcie := rfl
@[simp] theorem State.setUnit_bar2 : (s.setUnit u v).bar2 = s.bar2 := rfl
@[simp] theorem State.setUnit_host : (s.setUnit u v).host = s.host := rfl
@[simp] theorem State.setUnit_outs : (s.setUnit u v).outs = s.outs := rfl
@[simp] theorem State.setUnit_free : (s.setUnit u v).free = s.free := rfl
@[simp] theorem State.setUnit_pending : (s.setUnit u v).pending = s.pending := rfl
@[simp] theorem State.setUnit_led : (s.setUnit u v).led = s.led.setUnit u v := rfl

/-- A read after the write, of the same and of another number. -/
theorem State.setUnit_unit (w : s.led.units.wf {} = true) (j : Nat) :
    (s.setUnit u v).unit j = if j = u then v else s.unit j := by
  rw [State.unit, State.setUnit_led, Ledg.setUnit_units]; exact Tbl.get_set w u v j

end

/-! ### State.setStack -/

section
variable (s : State) (k : Nat) (v : Stack)

@[simp] theorem State.setStack_glb : (s.setStack k v).glb = s.glb := rfl
@[simp] theorem State.setStack_pins : (s.setStack k v).pins = s.pins := rfl
@[simp] theorem State.setStack_therm : (s.setStack k v).therm = s.therm := rfl
@[simp] theorem State.setStack_time : (s.setStack k v).time = s.time := rfl
@[simp] theorem State.setStack_flash : (s.setStack k v).flash = s.flash := rfl
@[simp] theorem State.setStack_flashOp : (s.setStack k v).flashOp = s.flashOp := rfl
@[simp] theorem State.setStack_cfg : (s.setStack k v).cfg = s.cfg := rfl
@[simp] theorem State.setStack_img : (s.setStack k v).img = s.img := rfl
@[simp] theorem State.setStack_sec : (s.setStack k v).sec = s.sec := rfl
@[simp] theorem State.setStack_fab : (s.setStack k v).fab = s.fab := rfl
@[simp] theorem State.setStack_rota : (s.setStack k v).rota = s.rota := rfl
@[simp] theorem State.setStack_ptp : (s.setStack k v).ptp = s.ptp := rfl
@[simp] theorem State.setStack_ing : (s.setStack k v).ing = s.ing := rfl
@[simp] theorem State.setStack_sess : (s.setStack k v).sess = s.sess := rfl
@[simp] theorem State.setStack_enc : (s.setStack k v).enc = s.enc := rfl
@[simp] theorem State.setStack_rc : (s.setStack k v).rc = s.rc := rfl
@[simp] theorem State.setStack_rcCnt : (s.setStack k v).rcCnt = s.rcCnt := rfl
@[simp] theorem State.setStack_dec : (s.setStack k v).dec = s.dec := rfl
@[simp] theorem State.setStack_dcx : (s.setStack k v).dcx = s.dcx := rfl
@[simp] theorem State.setStack_dcxCnt : (s.setStack k v).dcxCnt = s.dcxCnt := rfl
@[simp] theorem State.setStack_decRedo : (s.setStack k v).decRedo = s.decRedo := rfl
@[simp] theorem State.setStack_pkt : (s.setStack k v).pkt = s.pkt := rfl
@[simp] theorem State.setStack_rep : (s.setStack k v).rep = s.rep := rfl
@[simp] theorem State.setStack_egr : (s.setStack k v).egr = s.egr := rfl
@[simp] theorem State.setStack_chip : (s.setStack k v).chip = s.chip := rfl
@[simp] theorem State.setStack_flt : (s.setStack k v).flt = s.flt := rfl
@[simp] theorem State.setStack_led : (s.setStack k v).led = s.led := rfl
@[simp] theorem State.setStack_isl : (s.setStack k v).isl = s.isl := rfl
@[simp] theorem State.setStack_irq : (s.setStack k v).irq = s.irq := rfl
@[simp] theorem State.setStack_mbx : (s.setStack k v).mbx = s.mbx := rfl
@[simp] theorem State.setStack_pcie : (s.setStack k v).pcie = s.pcie := rfl
@[simp] theorem State.setStack_bar2 : (s.setStack k v).bar2 = s.bar2 := rfl
@[simp] theorem State.setStack_host : (s.setStack k v).host = s.host := rfl
@[simp] theorem State.setStack_outs : (s.setStack k v).outs = s.outs := rfl
@[simp] theorem State.setStack_free : (s.setStack k v).free = s.free := rfl
@[simp] theorem State.setStack_pending : (s.setStack k v).pending = s.pending := rfl
@[simp] theorem State.setStack_hbm : (s.setStack k v).hbm = { s.hbm with stk := s.hbm.stk.set {} k v } := rfl

/-- A read after the write, of the same and of another number. -/
theorem State.setStack_stack (w : s.hbm.stk.wf {} = true) (j : Nat) :
    (s.setStack k v).stack j = if j = k then v else s.stack j := Tbl.get_set w k v j

end

/-! ### State.setPc -/

section
variable (s : State) (g : Nat) (v : Pc)

@[simp] theorem State.setPc_glb : (s.setPc g v).glb = s.glb := rfl
@[simp] theorem State.setPc_pins : (s.setPc g v).pins = s.pins := rfl
@[simp] theorem State.setPc_therm : (s.setPc g v).therm = s.therm := rfl
@[simp] theorem State.setPc_time : (s.setPc g v).time = s.time := rfl
@[simp] theorem State.setPc_flash : (s.setPc g v).flash = s.flash := rfl
@[simp] theorem State.setPc_flashOp : (s.setPc g v).flashOp = s.flashOp := rfl
@[simp] theorem State.setPc_cfg : (s.setPc g v).cfg = s.cfg := rfl
@[simp] theorem State.setPc_img : (s.setPc g v).img = s.img := rfl
@[simp] theorem State.setPc_sec : (s.setPc g v).sec = s.sec := rfl
@[simp] theorem State.setPc_fab : (s.setPc g v).fab = s.fab := rfl
@[simp] theorem State.setPc_rota : (s.setPc g v).rota = s.rota := rfl
@[simp] theorem State.setPc_ptp : (s.setPc g v).ptp = s.ptp := rfl
@[simp] theorem State.setPc_ing : (s.setPc g v).ing = s.ing := rfl
@[simp] theorem State.setPc_sess : (s.setPc g v).sess = s.sess := rfl
@[simp] theorem State.setPc_enc : (s.setPc g v).enc = s.enc := rfl
@[simp] theorem State.setPc_rc : (s.setPc g v).rc = s.rc := rfl
@[simp] theorem State.setPc_rcCnt : (s.setPc g v).rcCnt = s.rcCnt := rfl
@[simp] theorem State.setPc_dec : (s.setPc g v).dec = s.dec := rfl
@[simp] theorem State.setPc_dcx : (s.setPc g v).dcx = s.dcx := rfl
@[simp] theorem State.setPc_dcxCnt : (s.setPc g v).dcxCnt = s.dcxCnt := rfl
@[simp] theorem State.setPc_decRedo : (s.setPc g v).decRedo = s.decRedo := rfl
@[simp] theorem State.setPc_pkt : (s.setPc g v).pkt = s.pkt := rfl
@[simp] theorem State.setPc_rep : (s.setPc g v).rep = s.rep := rfl
@[simp] theorem State.setPc_egr : (s.setPc g v).egr = s.egr := rfl
@[simp] theorem State.setPc_chip : (s.setPc g v).chip = s.chip := rfl
@[simp] theorem State.setPc_flt : (s.setPc g v).flt = s.flt := rfl
@[simp] theorem State.setPc_led : (s.setPc g v).led = s.led := rfl
@[simp] theorem State.setPc_isl : (s.setPc g v).isl = s.isl := rfl
@[simp] theorem State.setPc_irq : (s.setPc g v).irq = s.irq := rfl
@[simp] theorem State.setPc_mbx : (s.setPc g v).mbx = s.mbx := rfl
@[simp] theorem State.setPc_pcie : (s.setPc g v).pcie = s.pcie := rfl
@[simp] theorem State.setPc_bar2 : (s.setPc g v).bar2 = s.bar2 := rfl
@[simp] theorem State.setPc_host : (s.setPc g v).host = s.host := rfl
@[simp] theorem State.setPc_outs : (s.setPc g v).outs = s.outs := rfl
@[simp] theorem State.setPc_free : (s.setPc g v).free = s.free := rfl
@[simp] theorem State.setPc_pending : (s.setPc g v).pending = s.pending := rfl
@[simp] theorem State.setPc_hbm : (s.setPc g v).hbm = { s.hbm with pcs := s.hbm.pcs.set {} g v } := rfl

/-- A read after the write, of the same and of another number. -/
theorem State.setPc_pc (w : s.hbm.pcs.wf {} = true) (j : Nat) :
    (s.setPc g v).pc j = if j = g then v else s.pc j := Tbl.get_set w g v j

end

/-! ### State.setDma -/

section
variable (s : State) (n : Nat) (v : DmaCh)

@[simp] theorem State.setDma_glb : (s.setDma n v).glb = s.glb := rfl
@[simp] theorem State.setDma_pins : (s.setDma n v).pins = s.pins := rfl
@[simp] theorem State.setDma_therm : (s.setDma n v).therm = s.therm := rfl
@[simp] theorem State.setDma_time : (s.setDma n v).time = s.time := rfl
@[simp] theorem State.setDma_flash : (s.setDma n v).flash = s.flash := rfl
@[simp] theorem State.setDma_flashOp : (s.setDma n v).flashOp = s.flashOp := rfl
@[simp] theorem State.setDma_cfg : (s.setDma n v).cfg = s.cfg := rfl
@[simp] theorem State.setDma_img : (s.setDma n v).img = s.img := rfl
@[simp] theorem State.setDma_sec : (s.setDma n v).sec = s.sec := rfl
@[simp] theorem State.setDma_fab : (s.setDma n v).fab = s.fab := rfl
@[simp] theorem State.setDma_rota : (s.setDma n v).rota = s.rota := rfl
@[simp] theorem State.setDma_ptp : (s.setDma n v).ptp = s.ptp := rfl
@[simp] theorem State.setDma_ing : (s.setDma n v).ing = s.ing := rfl
@[simp] theorem State.setDma_sess : (s.setDma n v).sess = s.sess := rfl
@[simp] theorem State.setDma_enc : (s.setDma n v).enc = s.enc := rfl
@[simp] theorem State.setDma_rc : (s.setDma n v).rc = s.rc := rfl
@[simp] theorem State.setDma_rcCnt : (s.setDma n v).rcCnt = s.rcCnt := rfl
@[simp] theorem State.setDma_dec : (s.setDma n v).dec = s.dec := rfl
@[simp] theorem State.setDma_dcx : (s.setDma n v).dcx = s.dcx := rfl
@[simp] theorem State.setDma_dcxCnt : (s.setDma n v).dcxCnt = s.dcxCnt := rfl
@[simp] theorem State.setDma_decRedo : (s.setDma n v).decRedo = s.decRedo := rfl
@[simp] theorem State.setDma_pkt : (s.setDma n v).pkt = s.pkt := rfl
@[simp] theorem State.setDma_rep : (s.setDma n v).rep = s.rep := rfl
@[simp] theorem State.setDma_egr : (s.setDma n v).egr = s.egr := rfl
@[simp] theorem State.setDma_hbm : (s.setDma n v).hbm = s.hbm := rfl
@[simp] theorem State.setDma_flt : (s.setDma n v).flt = s.flt := rfl
@[simp] theorem State.setDma_led : (s.setDma n v).led = s.led := rfl
@[simp] theorem State.setDma_isl : (s.setDma n v).isl = s.isl := rfl
@[simp] theorem State.setDma_irq : (s.setDma n v).irq = s.irq := rfl
@[simp] theorem State.setDma_mbx : (s.setDma n v).mbx = s.mbx := rfl
@[simp] theorem State.setDma_pcie : (s.setDma n v).pcie = s.pcie := rfl
@[simp] theorem State.setDma_bar2 : (s.setDma n v).bar2 = s.bar2 := rfl
@[simp] theorem State.setDma_host : (s.setDma n v).host = s.host := rfl
@[simp] theorem State.setDma_outs : (s.setDma n v).outs = s.outs := rfl
@[simp] theorem State.setDma_free : (s.setDma n v).free = s.free := rfl
@[simp] theorem State.setDma_pending : (s.setDma n v).pending = s.pending := rfl
@[simp] theorem State.setDma_chip : (s.setDma n v).chip = { s.chip with dma := s.chip.dma.set {} n v } := rfl

/-- A read after the write, of the same and of another number. -/
theorem State.setDma_dma (w : s.chip.dma.wf {} = true) (j : Nat) :
    (s.setDma n v).dma j = if j = n then v else s.dma j := Tbl.get_set w n v j

end

/-! ### State.setFifo -/

section
variable (s : State) (f : Nat) (v : Fifo)

@[simp] theorem State.setFifo_glb : (s.setFifo f v).glb = s.glb := rfl
@[simp] theorem State.setFifo_pins : (s.setFifo f v).pins = s.pins := rfl
@[simp] theorem State.setFifo_therm : (s.setFifo f v).therm = s.therm := rfl
@[simp] theorem State.setFifo_time : (s.setFifo f v).time = s.time := rfl
@[simp] theorem State.setFifo_flash : (s.setFifo f v).flash = s.flash := rfl
@[simp] theorem State.setFifo_flashOp : (s.setFifo f v).flashOp = s.flashOp := rfl
@[simp] theorem State.setFifo_cfg : (s.setFifo f v).cfg = s.cfg := rfl
@[simp] theorem State.setFifo_img : (s.setFifo f v).img = s.img := rfl
@[simp] theorem State.setFifo_sec : (s.setFifo f v).sec = s.sec := rfl
@[simp] theorem State.setFifo_fab : (s.setFifo f v).fab = s.fab := rfl
@[simp] theorem State.setFifo_rota : (s.setFifo f v).rota = s.rota := rfl
@[simp] theorem State.setFifo_ptp : (s.setFifo f v).ptp = s.ptp := rfl
@[simp] theorem State.setFifo_ing : (s.setFifo f v).ing = s.ing := rfl
@[simp] theorem State.setFifo_sess : (s.setFifo f v).sess = s.sess := rfl
@[simp] theorem State.setFifo_enc : (s.setFifo f v).enc = s.enc := rfl
@[simp] theorem State.setFifo_rc : (s.setFifo f v).rc = s.rc := rfl
@[simp] theorem State.setFifo_rcCnt : (s.setFifo f v).rcCnt = s.rcCnt := rfl
@[simp] theorem State.setFifo_dec : (s.setFifo f v).dec = s.dec := rfl
@[simp] theorem State.setFifo_dcx : (s.setFifo f v).dcx = s.dcx := rfl
@[simp] theorem State.setFifo_dcxCnt : (s.setFifo f v).dcxCnt = s.dcxCnt := rfl
@[simp] theorem State.setFifo_decRedo : (s.setFifo f v).decRedo = s.decRedo := rfl
@[simp] theorem State.setFifo_pkt : (s.setFifo f v).pkt = s.pkt := rfl
@[simp] theorem State.setFifo_rep : (s.setFifo f v).rep = s.rep := rfl
@[simp] theorem State.setFifo_egr : (s.setFifo f v).egr = s.egr := rfl
@[simp] theorem State.setFifo_hbm : (s.setFifo f v).hbm = s.hbm := rfl
@[simp] theorem State.setFifo_flt : (s.setFifo f v).flt = s.flt := rfl
@[simp] theorem State.setFifo_led : (s.setFifo f v).led = s.led := rfl
@[simp] theorem State.setFifo_isl : (s.setFifo f v).isl = s.isl := rfl
@[simp] theorem State.setFifo_irq : (s.setFifo f v).irq = s.irq := rfl
@[simp] theorem State.setFifo_mbx : (s.setFifo f v).mbx = s.mbx := rfl
@[simp] theorem State.setFifo_pcie : (s.setFifo f v).pcie = s.pcie := rfl
@[simp] theorem State.setFifo_bar2 : (s.setFifo f v).bar2 = s.bar2 := rfl
@[simp] theorem State.setFifo_host : (s.setFifo f v).host = s.host := rfl
@[simp] theorem State.setFifo_outs : (s.setFifo f v).outs = s.outs := rfl
@[simp] theorem State.setFifo_free : (s.setFifo f v).free = s.free := rfl
@[simp] theorem State.setFifo_pending : (s.setFifo f v).pending = s.pending := rfl
@[simp] theorem State.setFifo_chip : (s.setFifo f v).chip = { s.chip with fifos := s.chip.fifos.set {} f v } := rfl

/-- A read after the write, of the same and of another number. -/
theorem State.setFifo_fifo (w : s.chip.fifos.wf {} = true) (j : Nat) :
    (s.setFifo f v).fifo j = if j = f then v else s.fifo j := Tbl.get_set w f v j

end

/-! ### State.setPe -/

section
variable (s : State) (k : Nat) (v : PeCtx)

@[simp] theorem State.setPe_glb : (s.setPe k v).glb = s.glb := rfl
@[simp] theorem State.setPe_pins : (s.setPe k v).pins = s.pins := rfl
@[simp] theorem State.setPe_therm : (s.setPe k v).therm = s.therm := rfl
@[simp] theorem State.setPe_time : (s.setPe k v).time = s.time := rfl
@[simp] theorem State.setPe_flash : (s.setPe k v).flash = s.flash := rfl
@[simp] theorem State.setPe_flashOp : (s.setPe k v).flashOp = s.flashOp := rfl
@[simp] theorem State.setPe_cfg : (s.setPe k v).cfg = s.cfg := rfl
@[simp] theorem State.setPe_img : (s.setPe k v).img = s.img := rfl
@[simp] theorem State.setPe_sec : (s.setPe k v).sec = s.sec := rfl
@[simp] theorem State.setPe_fab : (s.setPe k v).fab = s.fab := rfl
@[simp] theorem State.setPe_rota : (s.setPe k v).rota = s.rota := rfl
@[simp] theorem State.setPe_ptp : (s.setPe k v).ptp = s.ptp := rfl
@[simp] theorem State.setPe_ing : (s.setPe k v).ing = s.ing := rfl
@[simp] theorem State.setPe_sess : (s.setPe k v).sess = s.sess := rfl
@[simp] theorem State.setPe_enc : (s.setPe k v).enc = s.enc := rfl
@[simp] theorem State.setPe_rc : (s.setPe k v).rc = s.rc := rfl
@[simp] theorem State.setPe_rcCnt : (s.setPe k v).rcCnt = s.rcCnt := rfl
@[simp] theorem State.setPe_dec : (s.setPe k v).dec = s.dec := rfl
@[simp] theorem State.setPe_dcx : (s.setPe k v).dcx = s.dcx := rfl
@[simp] theorem State.setPe_dcxCnt : (s.setPe k v).dcxCnt = s.dcxCnt := rfl
@[simp] theorem State.setPe_decRedo : (s.setPe k v).decRedo = s.decRedo := rfl
@[simp] theorem State.setPe_rep : (s.setPe k v).rep = s.rep := rfl
@[simp] theorem State.setPe_egr : (s.setPe k v).egr = s.egr := rfl
@[simp] theorem State.setPe_hbm : (s.setPe k v).hbm = s.hbm := rfl
@[simp] theorem State.setPe_chip : (s.setPe k v).chip = s.chip := rfl
@[simp] theorem State.setPe_flt : (s.setPe k v).flt = s.flt := rfl
@[simp] theorem State.setPe_led : (s.setPe k v).led = s.led := rfl
@[simp] theorem State.setPe_isl : (s.setPe k v).isl = s.isl := rfl
@[simp] theorem State.setPe_irq : (s.setPe k v).irq = s.irq := rfl
@[simp] theorem State.setPe_mbx : (s.setPe k v).mbx = s.mbx := rfl
@[simp] theorem State.setPe_pcie : (s.setPe k v).pcie = s.pcie := rfl
@[simp] theorem State.setPe_bar2 : (s.setPe k v).bar2 = s.bar2 := rfl
@[simp] theorem State.setPe_host : (s.setPe k v).host = s.host := rfl
@[simp] theorem State.setPe_outs : (s.setPe k v).outs = s.outs := rfl
@[simp] theorem State.setPe_free : (s.setPe k v).free = s.free := rfl
@[simp] theorem State.setPe_pending : (s.setPe k v).pending = s.pending := rfl
@[simp] theorem State.setPe_pkt : (s.setPe k v).pkt = { s.pkt with pes := s.pkt.pes.set {} k v } := rfl

/-- A read after the write, of the same and of another number. -/
theorem State.setPe_pe (w : s.pkt.pes.wf {} = true) (j : Nat) :
    (s.setPe k v).pe j = if j = k then v else s.pe j := Tbl.get_set w k v j

end

/-! ### State.setBody -/

section
variable (s : State) (h : Nat) (v : Body)

@[simp] theorem State.setBody_glb : (s.setBody h v).glb = s.glb := rfl
@[simp] theorem State.setBody_pins : (s.setBody h v).pins = s.pins := rfl
@[simp] theorem State.setBody_therm : (s.setBody h v).therm = s.therm := rfl
@[simp] theorem State.setBody_time : (s.setBody h v).time = s.time := rfl
@[simp] theorem State.setBody_flash : (s.setBody h v).flash = s.flash := rfl
@[simp] theorem State.setBody_flashOp : (s.setBody h v).flashOp = s.flashOp := rfl
@[simp] theorem State.setBody_cfg : (s.setBody h v).cfg = s.cfg := rfl
@[simp] theorem State.setBody_img : (s.setBody h v).img = s.img := rfl
@[simp] theorem State.setBody_sec : (s.setBody h v).sec = s.sec := rfl
@[simp] theorem State.setBody_fab : (s.setBody h v).fab = s.fab := rfl
@[simp] theorem State.setBody_rota : (s.setBody h v).rota = s.rota := rfl
@[simp] theorem State.setBody_ptp : (s.setBody h v).ptp = s.ptp := rfl
@[simp] theorem State.setBody_ing : (s.setBody h v).ing = s.ing := rfl
@[simp] theorem State.setBody_sess : (s.setBody h v).sess = s.sess := rfl
@[simp] theorem State.setBody_enc : (s.setBody h v).enc = s.enc := rfl
@[simp] theorem State.setBody_rc : (s.setBody h v).rc = s.rc := rfl
@[simp] theorem State.setBody_rcCnt : (s.setBody h v).rcCnt = s.rcCnt := rfl
@[simp] theorem State.setBody_dec : (s.setBody h v).dec = s.dec := rfl
@[simp] theorem State.setBody_dcx : (s.setBody h v).dcx = s.dcx := rfl
@[simp] theorem State.setBody_dcxCnt : (s.setBody h v).dcxCnt = s.dcxCnt := rfl
@[simp] theorem State.setBody_decRedo : (s.setBody h v).decRedo = s.decRedo := rfl
@[simp] theorem State.setBody_pkt : (s.setBody h v).pkt = s.pkt := rfl
@[simp] theorem State.setBody_egr : (s.setBody h v).egr = s.egr := rfl
@[simp] theorem State.setBody_hbm : (s.setBody h v).hbm = s.hbm := rfl
@[simp] theorem State.setBody_chip : (s.setBody h v).chip = s.chip := rfl
@[simp] theorem State.setBody_flt : (s.setBody h v).flt = s.flt := rfl
@[simp] theorem State.setBody_led : (s.setBody h v).led = s.led := rfl
@[simp] theorem State.setBody_isl : (s.setBody h v).isl = s.isl := rfl
@[simp] theorem State.setBody_irq : (s.setBody h v).irq = s.irq := rfl
@[simp] theorem State.setBody_mbx : (s.setBody h v).mbx = s.mbx := rfl
@[simp] theorem State.setBody_pcie : (s.setBody h v).pcie = s.pcie := rfl
@[simp] theorem State.setBody_bar2 : (s.setBody h v).bar2 = s.bar2 := rfl
@[simp] theorem State.setBody_host : (s.setBody h v).host = s.host := rfl
@[simp] theorem State.setBody_outs : (s.setBody h v).outs = s.outs := rfl
@[simp] theorem State.setBody_free : (s.setBody h v).free = s.free := rfl
@[simp] theorem State.setBody_pending : (s.setBody h v).pending = s.pending := rfl
@[simp] theorem State.setBody_rep : (s.setBody h v).rep = { s.rep with bodies := s.rep.bodies.set {} h v } := rfl

/-- A read after the write, of the same and of another number. -/
theorem State.setBody_body (w : s.rep.bodies.wf {} = true) (j : Nat) :
    (s.setBody h v).body j = if j = h then v else s.body j := Tbl.get_set w h v j

end

/-! ### State.setChain -/

section
variable (s : State) (ch : Nat) (v : List Nat)

@[simp] theorem State.setChain_glb : (s.setChain ch v).glb = s.glb := rfl
@[simp] theorem State.setChain_pins : (s.setChain ch v).pins = s.pins := rfl
@[simp] theorem State.setChain_therm : (s.setChain ch v).therm = s.therm := rfl
@[simp] theorem State.setChain_time : (s.setChain ch v).time = s.time := rfl
@[simp] theorem State.setChain_flash : (s.setChain ch v).flash = s.flash := rfl
@[simp] theorem State.setChain_flashOp : (s.setChain ch v).flashOp = s.flashOp := rfl
@[simp] theorem State.setChain_cfg : (s.setChain ch v).cfg = s.cfg := rfl
@[simp] theorem State.setChain_img : (s.setChain ch v).img = s.img := rfl
@[simp] theorem State.setChain_sec : (s.setChain ch v).sec = s.sec := rfl
@[simp] theorem State.setChain_fab : (s.setChain ch v).fab = s.fab := rfl
@[simp] theorem State.setChain_rota : (s.setChain ch v).rota = s.rota := rfl
@[simp] theorem State.setChain_ptp : (s.setChain ch v).ptp = s.ptp := rfl
@[simp] theorem State.setChain_ing : (s.setChain ch v).ing = s.ing := rfl
@[simp] theorem State.setChain_sess : (s.setChain ch v).sess = s.sess := rfl
@[simp] theorem State.setChain_enc : (s.setChain ch v).enc = s.enc := rfl
@[simp] theorem State.setChain_rc : (s.setChain ch v).rc = s.rc := rfl
@[simp] theorem State.setChain_rcCnt : (s.setChain ch v).rcCnt = s.rcCnt := rfl
@[simp] theorem State.setChain_dec : (s.setChain ch v).dec = s.dec := rfl
@[simp] theorem State.setChain_dcx : (s.setChain ch v).dcx = s.dcx := rfl
@[simp] theorem State.setChain_dcxCnt : (s.setChain ch v).dcxCnt = s.dcxCnt := rfl
@[simp] theorem State.setChain_decRedo : (s.setChain ch v).decRedo = s.decRedo := rfl
@[simp] theorem State.setChain_pkt : (s.setChain ch v).pkt = s.pkt := rfl
@[simp] theorem State.setChain_egr : (s.setChain ch v).egr = s.egr := rfl
@[simp] theorem State.setChain_hbm : (s.setChain ch v).hbm = s.hbm := rfl
@[simp] theorem State.setChain_chip : (s.setChain ch v).chip = s.chip := rfl
@[simp] theorem State.setChain_flt : (s.setChain ch v).flt = s.flt := rfl
@[simp] theorem State.setChain_led : (s.setChain ch v).led = s.led := rfl
@[simp] theorem State.setChain_isl : (s.setChain ch v).isl = s.isl := rfl
@[simp] theorem State.setChain_irq : (s.setChain ch v).irq = s.irq := rfl
@[simp] theorem State.setChain_mbx : (s.setChain ch v).mbx = s.mbx := rfl
@[simp] theorem State.setChain_pcie : (s.setChain ch v).pcie = s.pcie := rfl
@[simp] theorem State.setChain_bar2 : (s.setChain ch v).bar2 = s.bar2 := rfl
@[simp] theorem State.setChain_host : (s.setChain ch v).host = s.host := rfl
@[simp] theorem State.setChain_outs : (s.setChain ch v).outs = s.outs := rfl
@[simp] theorem State.setChain_free : (s.setChain ch v).free = s.free := rfl
@[simp] theorem State.setChain_pending : (s.setChain ch v).pending = s.pending := rfl
@[simp] theorem State.setChain_rep : (s.setChain ch v).rep = { s.rep with chain := s.rep.chain.set [] ch v } := rfl

/-- A read after the write, of the same and of another number. -/
theorem State.setChain_chain (w : s.rep.chain.wf [] = true) (j : Nat) :
    (s.setChain ch v).chain j = if j = ch then v else s.chain j := Tbl.get_set w ch v j

end

/-! ### State.setPortSt -/

section
variable (s : State) (p : Nat) (v : PortSt)

@[simp] theorem State.setPortSt_glb : (s.setPortSt p v).glb = s.glb := rfl
@[simp] theorem State.setPortSt_pins : (s.setPortSt p v).pins = s.pins := rfl
@[simp] theorem State.setPortSt_therm : (s.setPortSt p v).therm = s.therm := rfl
@[simp] theorem State.setPortSt_time : (s.setPortSt p v).time = s.time := rfl
@[simp] theorem State.setPortSt_flash : (s.setPortSt p v).flash = s.flash := rfl
@[simp] theorem State.setPortSt_flashOp : (s.setPortSt p v).flashOp = s.flashOp := rfl
@[simp] theorem State.setPortSt_cfg : (s.setPortSt p v).cfg = s.cfg := rfl
@[simp] theorem State.setPortSt_img : (s.setPortSt p v).img = s.img := rfl
@[simp] theorem State.setPortSt_sec : (s.setPortSt p v).sec = s.sec := rfl
@[simp] theorem State.setPortSt_fab : (s.setPortSt p v).fab = s.fab := rfl
@[simp] theorem State.setPortSt_rota : (s.setPortSt p v).rota = s.rota := rfl
@[simp] theorem State.setPortSt_ptp : (s.setPortSt p v).ptp = s.ptp := rfl
@[simp] theorem State.setPortSt_ing : (s.setPortSt p v).ing = s.ing := rfl
@[simp] theorem State.setPortSt_sess : (s.setPortSt p v).sess = s.sess := rfl
@[simp] theorem State.setPortSt_enc : (s.setPortSt p v).enc = s.enc := rfl
@[simp] theorem State.setPortSt_rc : (s.setPortSt p v).rc = s.rc := rfl
@[simp] theorem State.setPortSt_rcCnt : (s.setPortSt p v).rcCnt = s.rcCnt := rfl
@[simp] theorem State.setPortSt_dec : (s.setPortSt p v).dec = s.dec := rfl
@[simp] theorem State.setPortSt_dcx : (s.setPortSt p v).dcx = s.dcx := rfl
@[simp] theorem State.setPortSt_dcxCnt : (s.setPortSt p v).dcxCnt = s.dcxCnt := rfl
@[simp] theorem State.setPortSt_decRedo : (s.setPortSt p v).decRedo = s.decRedo := rfl
@[simp] theorem State.setPortSt_pkt : (s.setPortSt p v).pkt = s.pkt := rfl
@[simp] theorem State.setPortSt_rep : (s.setPortSt p v).rep = s.rep := rfl
@[simp] theorem State.setPortSt_hbm : (s.setPortSt p v).hbm = s.hbm := rfl
@[simp] theorem State.setPortSt_chip : (s.setPortSt p v).chip = s.chip := rfl
@[simp] theorem State.setPortSt_flt : (s.setPortSt p v).flt = s.flt := rfl
@[simp] theorem State.setPortSt_led : (s.setPortSt p v).led = s.led := rfl
@[simp] theorem State.setPortSt_isl : (s.setPortSt p v).isl = s.isl := rfl
@[simp] theorem State.setPortSt_irq : (s.setPortSt p v).irq = s.irq := rfl
@[simp] theorem State.setPortSt_mbx : (s.setPortSt p v).mbx = s.mbx := rfl
@[simp] theorem State.setPortSt_pcie : (s.setPortSt p v).pcie = s.pcie := rfl
@[simp] theorem State.setPortSt_bar2 : (s.setPortSt p v).bar2 = s.bar2 := rfl
@[simp] theorem State.setPortSt_host : (s.setPortSt p v).host = s.host := rfl
@[simp] theorem State.setPortSt_outs : (s.setPortSt p v).outs = s.outs := rfl
@[simp] theorem State.setPortSt_free : (s.setPortSt p v).free = s.free := rfl
@[simp] theorem State.setPortSt_pending : (s.setPortSt p v).pending = s.pending := rfl
@[simp] theorem State.setPortSt_egr : (s.setPortSt p v).egr = { s.egr with ports := s.egr.ports.set {} p v } := rfl

/-- A read after the write, of the same and of another number. -/
theorem State.setPortSt_portSt (w : s.egr.ports.wf {} = true) (j : Nat) :
    (s.setPortSt p v).portSt j = if j = p then v else s.portSt j := Tbl.get_set w p v j

end

/-! ### State.setIrqSrc -/

section
variable (s : State) (n : Nat) (v : IrqSrc)

@[simp] theorem State.setIrqSrc_glb : (s.setIrqSrc n v).glb = s.glb := rfl
@[simp] theorem State.setIrqSrc_pins : (s.setIrqSrc n v).pins = s.pins := rfl
@[simp] theorem State.setIrqSrc_therm : (s.setIrqSrc n v).therm = s.therm := rfl
@[simp] theorem State.setIrqSrc_time : (s.setIrqSrc n v).time = s.time := rfl
@[simp] theorem State.setIrqSrc_flash : (s.setIrqSrc n v).flash = s.flash := rfl
@[simp] theorem State.setIrqSrc_flashOp : (s.setIrqSrc n v).flashOp = s.flashOp := rfl
@[simp] theorem State.setIrqSrc_cfg : (s.setIrqSrc n v).cfg = s.cfg := rfl
@[simp] theorem State.setIrqSrc_img : (s.setIrqSrc n v).img = s.img := rfl
@[simp] theorem State.setIrqSrc_sec : (s.setIrqSrc n v).sec = s.sec := rfl
@[simp] theorem State.setIrqSrc_fab : (s.setIrqSrc n v).fab = s.fab := rfl
@[simp] theorem State.setIrqSrc_rota : (s.setIrqSrc n v).rota = s.rota := rfl
@[simp] theorem State.setIrqSrc_ptp : (s.setIrqSrc n v).ptp = s.ptp := rfl
@[simp] theorem State.setIrqSrc_ing : (s.setIrqSrc n v).ing = s.ing := rfl
@[simp] theorem State.setIrqSrc_sess : (s.setIrqSrc n v).sess = s.sess := rfl
@[simp] theorem State.setIrqSrc_enc : (s.setIrqSrc n v).enc = s.enc := rfl
@[simp] theorem State.setIrqSrc_rc : (s.setIrqSrc n v).rc = s.rc := rfl
@[simp] theorem State.setIrqSrc_rcCnt : (s.setIrqSrc n v).rcCnt = s.rcCnt := rfl
@[simp] theorem State.setIrqSrc_dec : (s.setIrqSrc n v).dec = s.dec := rfl
@[simp] theorem State.setIrqSrc_dcx : (s.setIrqSrc n v).dcx = s.dcx := rfl
@[simp] theorem State.setIrqSrc_dcxCnt : (s.setIrqSrc n v).dcxCnt = s.dcxCnt := rfl
@[simp] theorem State.setIrqSrc_decRedo : (s.setIrqSrc n v).decRedo = s.decRedo := rfl
@[simp] theorem State.setIrqSrc_pkt : (s.setIrqSrc n v).pkt = s.pkt := rfl
@[simp] theorem State.setIrqSrc_rep : (s.setIrqSrc n v).rep = s.rep := rfl
@[simp] theorem State.setIrqSrc_egr : (s.setIrqSrc n v).egr = s.egr := rfl
@[simp] theorem State.setIrqSrc_hbm : (s.setIrqSrc n v).hbm = s.hbm := rfl
@[simp] theorem State.setIrqSrc_chip : (s.setIrqSrc n v).chip = s.chip := rfl
@[simp] theorem State.setIrqSrc_flt : (s.setIrqSrc n v).flt = s.flt := rfl
@[simp] theorem State.setIrqSrc_led : (s.setIrqSrc n v).led = s.led := rfl
@[simp] theorem State.setIrqSrc_isl : (s.setIrqSrc n v).isl = s.isl := rfl
@[simp] theorem State.setIrqSrc_mbx : (s.setIrqSrc n v).mbx = s.mbx := rfl
@[simp] theorem State.setIrqSrc_pcie : (s.setIrqSrc n v).pcie = s.pcie := rfl
@[simp] theorem State.setIrqSrc_bar2 : (s.setIrqSrc n v).bar2 = s.bar2 := rfl
@[simp] theorem State.setIrqSrc_host : (s.setIrqSrc n v).host = s.host := rfl
@[simp] theorem State.setIrqSrc_outs : (s.setIrqSrc n v).outs = s.outs := rfl
@[simp] theorem State.setIrqSrc_free : (s.setIrqSrc n v).free = s.free := rfl
@[simp] theorem State.setIrqSrc_pending : (s.setIrqSrc n v).pending = s.pending := rfl
@[simp] theorem State.setIrqSrc_irq : (s.setIrqSrc n v).irq = { s.irq with srcs := s.irq.srcs.set {} n v } := rfl

/-- A read after the write, of the same and of another number. -/
theorem State.setIrqSrc_irqSrc (w : s.irq.srcs.wf {} = true) (j : Nat) :
    (s.setIrqSrc n v).irqSrc j = if j = n then v else s.irqSrc j := Tbl.get_set w n v j

end

/-! ### State.setIrqTgt -/

section
variable (s : State) (t : Nat) (v : IrqTgt)

@[simp] theorem State.setIrqTgt_glb : (s.setIrqTgt t v).glb = s.glb := rfl
@[simp] theorem State.setIrqTgt_pins : (s.setIrqTgt t v).pins = s.pins := rfl
@[simp] theorem State.setIrqTgt_therm : (s.setIrqTgt t v).therm = s.therm := rfl
@[simp] theorem State.setIrqTgt_time : (s.setIrqTgt t v).time = s.time := rfl
@[simp] theorem State.setIrqTgt_flash : (s.setIrqTgt t v).flash = s.flash := rfl
@[simp] theorem State.setIrqTgt_flashOp : (s.setIrqTgt t v).flashOp = s.flashOp := rfl
@[simp] theorem State.setIrqTgt_cfg : (s.setIrqTgt t v).cfg = s.cfg := rfl
@[simp] theorem State.setIrqTgt_img : (s.setIrqTgt t v).img = s.img := rfl
@[simp] theorem State.setIrqTgt_sec : (s.setIrqTgt t v).sec = s.sec := rfl
@[simp] theorem State.setIrqTgt_fab : (s.setIrqTgt t v).fab = s.fab := rfl
@[simp] theorem State.setIrqTgt_rota : (s.setIrqTgt t v).rota = s.rota := rfl
@[simp] theorem State.setIrqTgt_ptp : (s.setIrqTgt t v).ptp = s.ptp := rfl
@[simp] theorem State.setIrqTgt_ing : (s.setIrqTgt t v).ing = s.ing := rfl
@[simp] theorem State.setIrqTgt_sess : (s.setIrqTgt t v).sess = s.sess := rfl
@[simp] theorem State.setIrqTgt_enc : (s.setIrqTgt t v).enc = s.enc := rfl
@[simp] theorem State.setIrqTgt_rc : (s.setIrqTgt t v).rc = s.rc := rfl
@[simp] theorem State.setIrqTgt_rcCnt : (s.setIrqTgt t v).rcCnt = s.rcCnt := rfl
@[simp] theorem State.setIrqTgt_dec : (s.setIrqTgt t v).dec = s.dec := rfl
@[simp] theorem State.setIrqTgt_dcx : (s.setIrqTgt t v).dcx = s.dcx := rfl
@[simp] theorem State.setIrqTgt_dcxCnt : (s.setIrqTgt t v).dcxCnt = s.dcxCnt := rfl
@[simp] theorem State.setIrqTgt_decRedo : (s.setIrqTgt t v).decRedo = s.decRedo := rfl
@[simp] theorem State.setIrqTgt_pkt : (s.setIrqTgt t v).pkt = s.pkt := rfl
@[simp] theorem State.setIrqTgt_rep : (s.setIrqTgt t v).rep = s.rep := rfl
@[simp] theorem State.setIrqTgt_egr : (s.setIrqTgt t v).egr = s.egr := rfl
@[simp] theorem State.setIrqTgt_hbm : (s.setIrqTgt t v).hbm = s.hbm := rfl
@[simp] theorem State.setIrqTgt_chip : (s.setIrqTgt t v).chip = s.chip := rfl
@[simp] theorem State.setIrqTgt_flt : (s.setIrqTgt t v).flt = s.flt := rfl
@[simp] theorem State.setIrqTgt_led : (s.setIrqTgt t v).led = s.led := rfl
@[simp] theorem State.setIrqTgt_isl : (s.setIrqTgt t v).isl = s.isl := rfl
@[simp] theorem State.setIrqTgt_mbx : (s.setIrqTgt t v).mbx = s.mbx := rfl
@[simp] theorem State.setIrqTgt_pcie : (s.setIrqTgt t v).pcie = s.pcie := rfl
@[simp] theorem State.setIrqTgt_bar2 : (s.setIrqTgt t v).bar2 = s.bar2 := rfl
@[simp] theorem State.setIrqTgt_host : (s.setIrqTgt t v).host = s.host := rfl
@[simp] theorem State.setIrqTgt_outs : (s.setIrqTgt t v).outs = s.outs := rfl
@[simp] theorem State.setIrqTgt_free : (s.setIrqTgt t v).free = s.free := rfl
@[simp] theorem State.setIrqTgt_pending : (s.setIrqTgt t v).pending = s.pending := rfl
@[simp] theorem State.setIrqTgt_irq : (s.setIrqTgt t v).irq = { s.irq with tgts := s.irq.tgts.set {} t v } := rfl

/-- A read after the write, of the same and of another number. -/
theorem State.setIrqTgt_irqTgt (w : s.irq.tgts.wf {} = true) (j : Nat) :
    (s.setIrqTgt t v).irqTgt j = if j = t then v else s.irqTgt j := Tbl.get_set w t v j

end

/-! ### State.encCnt -/

section
variable (s : State) (k i n : Nat)

@[simp] theorem State.encCnt_glb : (s.encCnt k i n).glb = s.glb := rfl
@[simp] theorem State.encCnt_pins : (s.encCnt k i n).pins = s.pins := rfl
@[simp] theorem State.encCnt_therm : (s.encCnt k i n).therm = s.therm := rfl
@[simp] theorem State.encCnt_time : (s.encCnt k i n).time = s.time := rfl
@[simp] theorem State.encCnt_flash : (s.encCnt k i n).flash = s.flash := rfl
@[simp] theorem State.encCnt_flashOp : (s.encCnt k i n).flashOp = s.flashOp := rfl
@[simp] theorem State.encCnt_cfg : (s.encCnt k i n).cfg = s.cfg := rfl
@[simp] theorem State.encCnt_img : (s.encCnt k i n).img = s.img := rfl
@[simp] theorem State.encCnt_sec : (s.encCnt k i n).sec = s.sec := rfl
@[simp] theorem State.encCnt_fab : (s.encCnt k i n).fab = s.fab := rfl
@[simp] theorem State.encCnt_rota : (s.encCnt k i n).rota = s.rota := rfl
@[simp] theorem State.encCnt_ptp : (s.encCnt k i n).ptp = s.ptp := rfl
@[simp] theorem State.encCnt_ing : (s.encCnt k i n).ing = s.ing := rfl
@[simp] theorem State.encCnt_sess : (s.encCnt k i n).sess = s.sess := rfl
@[simp] theorem State.encCnt_rc : (s.encCnt k i n).rc = s.rc := rfl
@[simp] theorem State.encCnt_rcCnt : (s.encCnt k i n).rcCnt = s.rcCnt := rfl
@[simp] theorem State.encCnt_dec : (s.encCnt k i n).dec = s.dec := rfl
@[simp] theorem State.encCnt_dcx : (s.encCnt k i n).dcx = s.dcx := rfl
@[simp] theorem State.encCnt_dcxCnt : (s.encCnt k i n).dcxCnt = s.dcxCnt := rfl
@[simp] theorem State.encCnt_decRedo : (s.encCnt k i n).decRedo = s.decRedo := rfl
@[simp] theorem State.encCnt_pkt : (s.encCnt k i n).pkt = s.pkt := rfl
@[simp] theorem State.encCnt_rep : (s.encCnt k i n).rep = s.rep := rfl
@[simp] theorem State.encCnt_egr : (s.encCnt k i n).egr = s.egr := rfl
@[simp] theorem State.encCnt_hbm : (s.encCnt k i n).hbm = s.hbm := rfl
@[simp] theorem State.encCnt_chip : (s.encCnt k i n).chip = s.chip := rfl
@[simp] theorem State.encCnt_flt : (s.encCnt k i n).flt = s.flt := rfl
@[simp] theorem State.encCnt_led : (s.encCnt k i n).led = s.led := rfl
@[simp] theorem State.encCnt_isl : (s.encCnt k i n).isl = s.isl := rfl
@[simp] theorem State.encCnt_irq : (s.encCnt k i n).irq = s.irq := rfl
@[simp] theorem State.encCnt_mbx : (s.encCnt k i n).mbx = s.mbx := rfl
@[simp] theorem State.encCnt_pcie : (s.encCnt k i n).pcie = s.pcie := rfl
@[simp] theorem State.encCnt_bar2 : (s.encCnt k i n).bar2 = s.bar2 := rfl
@[simp] theorem State.encCnt_host : (s.encCnt k i n).host = s.host := rfl
@[simp] theorem State.encCnt_outs : (s.encCnt k i n).outs = s.outs := rfl
@[simp] theorem State.encCnt_free : (s.encCnt k i n).free = s.free := rfl
@[simp] theorem State.encCnt_pending : (s.encCnt k i n).pending = s.pending := rfl

end

/-! ### State.decCnt -/

section
variable (s : State) (k i n : Nat)

@[simp] theorem State.decCnt_glb : (s.decCnt k i n).glb = s.glb := rfl
@[simp] theorem State.decCnt_pins : (s.decCnt k i n).pins = s.pins := rfl
@[simp] theorem State.decCnt_therm : (s.decCnt k i n).therm = s.therm := rfl
@[simp] theorem State.decCnt_time : (s.decCnt k i n).time = s.time := rfl
@[simp] theorem State.decCnt_flash : (s.decCnt k i n).flash = s.flash := rfl
@[simp] theorem State.decCnt_flashOp : (s.decCnt k i n).flashOp = s.flashOp := rfl
@[simp] theorem State.decCnt_cfg : (s.decCnt k i n).cfg = s.cfg := rfl
@[simp] theorem State.decCnt_img : (s.decCnt k i n).img = s.img := rfl
@[simp] theorem State.decCnt_sec : (s.decCnt k i n).sec = s.sec := rfl
@[simp] theorem State.decCnt_fab : (s.decCnt k i n).fab = s.fab := rfl
@[simp] theorem State.decCnt_rota : (s.decCnt k i n).rota = s.rota := rfl
@[simp] theorem State.decCnt_ptp : (s.decCnt k i n).ptp = s.ptp := rfl
@[simp] theorem State.decCnt_ing : (s.decCnt k i n).ing = s.ing := rfl
@[simp] theorem State.decCnt_sess : (s.decCnt k i n).sess = s.sess := rfl
@[simp] theorem State.decCnt_enc : (s.decCnt k i n).enc = s.enc := rfl
@[simp] theorem State.decCnt_rc : (s.decCnt k i n).rc = s.rc := rfl
@[simp] theorem State.decCnt_rcCnt : (s.decCnt k i n).rcCnt = s.rcCnt := rfl
@[simp] theorem State.decCnt_dcx : (s.decCnt k i n).dcx = s.dcx := rfl
@[simp] theorem State.decCnt_dcxCnt : (s.decCnt k i n).dcxCnt = s.dcxCnt := rfl
@[simp] theorem State.decCnt_decRedo : (s.decCnt k i n).decRedo = s.decRedo := rfl
@[simp] theorem State.decCnt_pkt : (s.decCnt k i n).pkt = s.pkt := rfl
@[simp] theorem State.decCnt_rep : (s.decCnt k i n).rep = s.rep := rfl
@[simp] theorem State.decCnt_egr : (s.decCnt k i n).egr = s.egr := rfl
@[simp] theorem State.decCnt_hbm : (s.decCnt k i n).hbm = s.hbm := rfl
@[simp] theorem State.decCnt_chip : (s.decCnt k i n).chip = s.chip := rfl
@[simp] theorem State.decCnt_flt : (s.decCnt k i n).flt = s.flt := rfl
@[simp] theorem State.decCnt_led : (s.decCnt k i n).led = s.led := rfl
@[simp] theorem State.decCnt_isl : (s.decCnt k i n).isl = s.isl := rfl
@[simp] theorem State.decCnt_irq : (s.decCnt k i n).irq = s.irq := rfl
@[simp] theorem State.decCnt_mbx : (s.decCnt k i n).mbx = s.mbx := rfl
@[simp] theorem State.decCnt_pcie : (s.decCnt k i n).pcie = s.pcie := rfl
@[simp] theorem State.decCnt_bar2 : (s.decCnt k i n).bar2 = s.bar2 := rfl
@[simp] theorem State.decCnt_host : (s.decCnt k i n).host = s.host := rfl
@[simp] theorem State.decCnt_outs : (s.decCnt k i n).outs = s.outs := rfl
@[simp] theorem State.decCnt_free : (s.decCnt k i n).free = s.free := rfl
@[simp] theorem State.decCnt_pending : (s.decCnt k i n).pending = s.pending := rfl

end

/-! ### State.rcCount -/

section
variable (s : State) (ch p i n : Nat)

@[simp] theorem State.rcCount_glb : (s.rcCount ch p i n).glb = s.glb := rfl
@[simp] theorem State.rcCount_pins : (s.rcCount ch p i n).pins = s.pins := rfl
@[simp] theorem State.rcCount_therm : (s.rcCount ch p i n).therm = s.therm := rfl
@[simp] theorem State.rcCount_time : (s.rcCount ch p i n).time = s.time := rfl
@[simp] theorem State.rcCount_flash : (s.rcCount ch p i n).flash = s.flash := rfl
@[simp] theorem State.rcCount_flashOp : (s.rcCount ch p i n).flashOp = s.flashOp := rfl
@[simp] theorem State.rcCount_cfg : (s.rcCount ch p i n).cfg = s.cfg := rfl
@[simp] theorem State.rcCount_img : (s.rcCount ch p i n).img = s.img := rfl
@[simp] theorem State.rcCount_sec : (s.rcCount ch p i n).sec = s.sec := rfl
@[simp] theorem State.rcCount_fab : (s.rcCount ch p i n).fab = s.fab := rfl
@[simp] theorem State.rcCount_rota : (s.rcCount ch p i n).rota = s.rota := rfl
@[simp] theorem State.rcCount_ptp : (s.rcCount ch p i n).ptp = s.ptp := rfl
@[simp] theorem State.rcCount_ing : (s.rcCount ch p i n).ing = s.ing := rfl
@[simp] theorem State.rcCount_sess : (s.rcCount ch p i n).sess = s.sess := rfl
@[simp] theorem State.rcCount_enc : (s.rcCount ch p i n).enc = s.enc := rfl
@[simp] theorem State.rcCount_rc : (s.rcCount ch p i n).rc = s.rc := rfl
@[simp] theorem State.rcCount_dec : (s.rcCount ch p i n).dec = s.dec := rfl
@[simp] theorem State.rcCount_dcx : (s.rcCount ch p i n).dcx = s.dcx := rfl
@[simp] theorem State.rcCount_dcxCnt : (s.rcCount ch p i n).dcxCnt = s.dcxCnt := rfl
@[simp] theorem State.rcCount_decRedo : (s.rcCount ch p i n).decRedo = s.decRedo := rfl
@[simp] theorem State.rcCount_pkt : (s.rcCount ch p i n).pkt = s.pkt := rfl
@[simp] theorem State.rcCount_rep : (s.rcCount ch p i n).rep = s.rep := rfl
@[simp] theorem State.rcCount_egr : (s.rcCount ch p i n).egr = s.egr := rfl
@[simp] theorem State.rcCount_hbm : (s.rcCount ch p i n).hbm = s.hbm := rfl
@[simp] theorem State.rcCount_chip : (s.rcCount ch p i n).chip = s.chip := rfl
@[simp] theorem State.rcCount_flt : (s.rcCount ch p i n).flt = s.flt := rfl
@[simp] theorem State.rcCount_led : (s.rcCount ch p i n).led = s.led := rfl
@[simp] theorem State.rcCount_isl : (s.rcCount ch p i n).isl = s.isl := rfl
@[simp] theorem State.rcCount_irq : (s.rcCount ch p i n).irq = s.irq := rfl
@[simp] theorem State.rcCount_mbx : (s.rcCount ch p i n).mbx = s.mbx := rfl
@[simp] theorem State.rcCount_pcie : (s.rcCount ch p i n).pcie = s.pcie := rfl
@[simp] theorem State.rcCount_bar2 : (s.rcCount ch p i n).bar2 = s.bar2 := rfl
@[simp] theorem State.rcCount_host : (s.rcCount ch p i n).host = s.host := rfl
@[simp] theorem State.rcCount_outs : (s.rcCount ch p i n).outs = s.outs := rfl
@[simp] theorem State.rcCount_free : (s.rcCount ch p i n).free = s.free := rfl
@[simp] theorem State.rcCount_pending : (s.rcCount ch p i n).pending = s.pending := rfl

end

/-! ### State.dcxCount -/

section
variable (s : State) (x i n : Nat)

@[simp] theorem State.dcxCount_glb : (s.dcxCount x i n).glb = s.glb := rfl
@[simp] theorem State.dcxCount_pins : (s.dcxCount x i n).pins = s.pins := rfl
@[simp] theorem State.dcxCount_therm : (s.dcxCount x i n).therm = s.therm := rfl
@[simp] theorem State.dcxCount_time : (s.dcxCount x i n).time = s.time := rfl
@[simp] theorem State.dcxCount_flash : (s.dcxCount x i n).flash = s.flash := rfl
@[simp] theorem State.dcxCount_flashOp : (s.dcxCount x i n).flashOp = s.flashOp := rfl
@[simp] theorem State.dcxCount_cfg : (s.dcxCount x i n).cfg = s.cfg := rfl
@[simp] theorem State.dcxCount_img : (s.dcxCount x i n).img = s.img := rfl
@[simp] theorem State.dcxCount_sec : (s.dcxCount x i n).sec = s.sec := rfl
@[simp] theorem State.dcxCount_fab : (s.dcxCount x i n).fab = s.fab := rfl
@[simp] theorem State.dcxCount_rota : (s.dcxCount x i n).rota = s.rota := rfl
@[simp] theorem State.dcxCount_ptp : (s.dcxCount x i n).ptp = s.ptp := rfl
@[simp] theorem State.dcxCount_ing : (s.dcxCount x i n).ing = s.ing := rfl
@[simp] theorem State.dcxCount_sess : (s.dcxCount x i n).sess = s.sess := rfl
@[simp] theorem State.dcxCount_enc : (s.dcxCount x i n).enc = s.enc := rfl
@[simp] theorem State.dcxCount_rc : (s.dcxCount x i n).rc = s.rc := rfl
@[simp] theorem State.dcxCount_rcCnt : (s.dcxCount x i n).rcCnt = s.rcCnt := rfl
@[simp] theorem State.dcxCount_dec : (s.dcxCount x i n).dec = s.dec := rfl
@[simp] theorem State.dcxCount_dcx : (s.dcxCount x i n).dcx = s.dcx := rfl
@[simp] theorem State.dcxCount_decRedo : (s.dcxCount x i n).decRedo = s.decRedo := rfl
@[simp] theorem State.dcxCount_pkt : (s.dcxCount x i n).pkt = s.pkt := rfl
@[simp] theorem State.dcxCount_rep : (s.dcxCount x i n).rep = s.rep := rfl
@[simp] theorem State.dcxCount_egr : (s.dcxCount x i n).egr = s.egr := rfl
@[simp] theorem State.dcxCount_hbm : (s.dcxCount x i n).hbm = s.hbm := rfl
@[simp] theorem State.dcxCount_chip : (s.dcxCount x i n).chip = s.chip := rfl
@[simp] theorem State.dcxCount_flt : (s.dcxCount x i n).flt = s.flt := rfl
@[simp] theorem State.dcxCount_led : (s.dcxCount x i n).led = s.led := rfl
@[simp] theorem State.dcxCount_isl : (s.dcxCount x i n).isl = s.isl := rfl
@[simp] theorem State.dcxCount_irq : (s.dcxCount x i n).irq = s.irq := rfl
@[simp] theorem State.dcxCount_mbx : (s.dcxCount x i n).mbx = s.mbx := rfl
@[simp] theorem State.dcxCount_pcie : (s.dcxCount x i n).pcie = s.pcie := rfl
@[simp] theorem State.dcxCount_bar2 : (s.dcxCount x i n).bar2 = s.bar2 := rfl
@[simp] theorem State.dcxCount_host : (s.dcxCount x i n).host = s.host := rfl
@[simp] theorem State.dcxCount_outs : (s.dcxCount x i n).outs = s.outs := rfl
@[simp] theorem State.dcxCount_free : (s.dcxCount x i n).free = s.free := rfl
@[simp] theorem State.dcxCount_pending : (s.dcxCount x i n).pending = s.pending := rfl

end

/-! ### State.pktCount -/

section
variable (s : State) (i n : Nat)

@[simp] theorem State.pktCount_glb : (s.pktCount i n).glb = s.glb := rfl
@[simp] theorem State.pktCount_pins : (s.pktCount i n).pins = s.pins := rfl
@[simp] theorem State.pktCount_therm : (s.pktCount i n).therm = s.therm := rfl
@[simp] theorem State.pktCount_time : (s.pktCount i n).time = s.time := rfl
@[simp] theorem State.pktCount_flash : (s.pktCount i n).flash = s.flash := rfl
@[simp] theorem State.pktCount_flashOp : (s.pktCount i n).flashOp = s.flashOp := rfl
@[simp] theorem State.pktCount_cfg : (s.pktCount i n).cfg = s.cfg := rfl
@[simp] theorem State.pktCount_img : (s.pktCount i n).img = s.img := rfl
@[simp] theorem State.pktCount_sec : (s.pktCount i n).sec = s.sec := rfl
@[simp] theorem State.pktCount_fab : (s.pktCount i n).fab = s.fab := rfl
@[simp] theorem State.pktCount_rota : (s.pktCount i n).rota = s.rota := rfl
@[simp] theorem State.pktCount_ptp : (s.pktCount i n).ptp = s.ptp := rfl
@[simp] theorem State.pktCount_ing : (s.pktCount i n).ing = s.ing := rfl
@[simp] theorem State.pktCount_sess : (s.pktCount i n).sess = s.sess := rfl
@[simp] theorem State.pktCount_enc : (s.pktCount i n).enc = s.enc := rfl
@[simp] theorem State.pktCount_rc : (s.pktCount i n).rc = s.rc := rfl
@[simp] theorem State.pktCount_rcCnt : (s.pktCount i n).rcCnt = s.rcCnt := rfl
@[simp] theorem State.pktCount_dec : (s.pktCount i n).dec = s.dec := rfl
@[simp] theorem State.pktCount_dcx : (s.pktCount i n).dcx = s.dcx := rfl
@[simp] theorem State.pktCount_dcxCnt : (s.pktCount i n).dcxCnt = s.dcxCnt := rfl
@[simp] theorem State.pktCount_decRedo : (s.pktCount i n).decRedo = s.decRedo := rfl
@[simp] theorem State.pktCount_rep : (s.pktCount i n).rep = s.rep := rfl
@[simp] theorem State.pktCount_egr : (s.pktCount i n).egr = s.egr := rfl
@[simp] theorem State.pktCount_hbm : (s.pktCount i n).hbm = s.hbm := rfl
@[simp] theorem State.pktCount_chip : (s.pktCount i n).chip = s.chip := rfl
@[simp] theorem State.pktCount_flt : (s.pktCount i n).flt = s.flt := rfl
@[simp] theorem State.pktCount_led : (s.pktCount i n).led = s.led := rfl
@[simp] theorem State.pktCount_isl : (s.pktCount i n).isl = s.isl := rfl
@[simp] theorem State.pktCount_irq : (s.pktCount i n).irq = s.irq := rfl
@[simp] theorem State.pktCount_mbx : (s.pktCount i n).mbx = s.mbx := rfl
@[simp] theorem State.pktCount_pcie : (s.pktCount i n).pcie = s.pcie := rfl
@[simp] theorem State.pktCount_bar2 : (s.pktCount i n).bar2 = s.bar2 := rfl
@[simp] theorem State.pktCount_host : (s.pktCount i n).host = s.host := rfl
@[simp] theorem State.pktCount_outs : (s.pktCount i n).outs = s.outs := rfl
@[simp] theorem State.pktCount_free : (s.pktCount i n).free = s.free := rfl
@[simp] theorem State.pktCount_pending : (s.pktCount i n).pending = s.pending := rfl

end

/-! ### State.egrCount -/

section
variable (s : State) (p i n : Nat)

@[simp] theorem State.egrCount_glb : (s.egrCount p i n).glb = s.glb := rfl
@[simp] theorem State.egrCount_pins : (s.egrCount p i n).pins = s.pins := rfl
@[simp] theorem State.egrCount_therm : (s.egrCount p i n).therm = s.therm := rfl
@[simp] theorem State.egrCount_time : (s.egrCount p i n).time = s.time := rfl
@[simp] theorem State.egrCount_flash : (s.egrCount p i n).flash = s.flash := rfl
@[simp] theorem State.egrCount_flashOp : (s.egrCount p i n).flashOp = s.flashOp := rfl
@[simp] theorem State.egrCount_cfg : (s.egrCount p i n).cfg = s.cfg := rfl
@[simp] theorem State.egrCount_img : (s.egrCount p i n).img = s.img := rfl
@[simp] theorem State.egrCount_sec : (s.egrCount p i n).sec = s.sec := rfl
@[simp] theorem State.egrCount_fab : (s.egrCount p i n).fab = s.fab := rfl
@[simp] theorem State.egrCount_rota : (s.egrCount p i n).rota = s.rota := rfl
@[simp] theorem State.egrCount_ptp : (s.egrCount p i n).ptp = s.ptp := rfl
@[simp] theorem State.egrCount_ing : (s.egrCount p i n).ing = s.ing := rfl
@[simp] theorem State.egrCount_sess : (s.egrCount p i n).sess = s.sess := rfl
@[simp] theorem State.egrCount_enc : (s.egrCount p i n).enc = s.enc := rfl
@[simp] theorem State.egrCount_rc : (s.egrCount p i n).rc = s.rc := rfl
@[simp] theorem State.egrCount_rcCnt : (s.egrCount p i n).rcCnt = s.rcCnt := rfl
@[simp] theorem State.egrCount_dec : (s.egrCount p i n).dec = s.dec := rfl
@[simp] theorem State.egrCount_dcx : (s.egrCount p i n).dcx = s.dcx := rfl
@[simp] theorem State.egrCount_dcxCnt : (s.egrCount p i n).dcxCnt = s.dcxCnt := rfl
@[simp] theorem State.egrCount_decRedo : (s.egrCount p i n).decRedo = s.decRedo := rfl
@[simp] theorem State.egrCount_pkt : (s.egrCount p i n).pkt = s.pkt := rfl
@[simp] theorem State.egrCount_rep : (s.egrCount p i n).rep = s.rep := rfl
@[simp] theorem State.egrCount_hbm : (s.egrCount p i n).hbm = s.hbm := rfl
@[simp] theorem State.egrCount_chip : (s.egrCount p i n).chip = s.chip := rfl
@[simp] theorem State.egrCount_flt : (s.egrCount p i n).flt = s.flt := rfl
@[simp] theorem State.egrCount_led : (s.egrCount p i n).led = s.led := rfl
@[simp] theorem State.egrCount_isl : (s.egrCount p i n).isl = s.isl := rfl
@[simp] theorem State.egrCount_irq : (s.egrCount p i n).irq = s.irq := rfl
@[simp] theorem State.egrCount_mbx : (s.egrCount p i n).mbx = s.mbx := rfl
@[simp] theorem State.egrCount_pcie : (s.egrCount p i n).pcie = s.pcie := rfl
@[simp] theorem State.egrCount_bar2 : (s.egrCount p i n).bar2 = s.bar2 := rfl
@[simp] theorem State.egrCount_host : (s.egrCount p i n).host = s.host := rfl
@[simp] theorem State.egrCount_outs : (s.egrCount p i n).outs = s.outs := rfl
@[simp] theorem State.egrCount_free : (s.egrCount p i n).free = s.free := rfl
@[simp] theorem State.egrCount_pending : (s.egrCount p i n).pending = s.pending := rfl

end

/-! ### State.devCount -/

section
variable (s : State) (i n : Nat)

@[simp] theorem State.devCount_glb : (s.devCount i n).glb = s.glb := rfl
@[simp] theorem State.devCount_pins : (s.devCount i n).pins = s.pins := rfl
@[simp] theorem State.devCount_therm : (s.devCount i n).therm = s.therm := rfl
@[simp] theorem State.devCount_time : (s.devCount i n).time = s.time := rfl
@[simp] theorem State.devCount_flash : (s.devCount i n).flash = s.flash := rfl
@[simp] theorem State.devCount_flashOp : (s.devCount i n).flashOp = s.flashOp := rfl
@[simp] theorem State.devCount_cfg : (s.devCount i n).cfg = s.cfg := rfl
@[simp] theorem State.devCount_img : (s.devCount i n).img = s.img := rfl
@[simp] theorem State.devCount_sec : (s.devCount i n).sec = s.sec := rfl
@[simp] theorem State.devCount_fab : (s.devCount i n).fab = s.fab := rfl
@[simp] theorem State.devCount_rota : (s.devCount i n).rota = s.rota := rfl
@[simp] theorem State.devCount_ptp : (s.devCount i n).ptp = s.ptp := rfl
@[simp] theorem State.devCount_ing : (s.devCount i n).ing = s.ing := rfl
@[simp] theorem State.devCount_sess : (s.devCount i n).sess = s.sess := rfl
@[simp] theorem State.devCount_enc : (s.devCount i n).enc = s.enc := rfl
@[simp] theorem State.devCount_rc : (s.devCount i n).rc = s.rc := rfl
@[simp] theorem State.devCount_rcCnt : (s.devCount i n).rcCnt = s.rcCnt := rfl
@[simp] theorem State.devCount_dec : (s.devCount i n).dec = s.dec := rfl
@[simp] theorem State.devCount_dcx : (s.devCount i n).dcx = s.dcx := rfl
@[simp] theorem State.devCount_dcxCnt : (s.devCount i n).dcxCnt = s.dcxCnt := rfl
@[simp] theorem State.devCount_decRedo : (s.devCount i n).decRedo = s.decRedo := rfl
@[simp] theorem State.devCount_pkt : (s.devCount i n).pkt = s.pkt := rfl
@[simp] theorem State.devCount_rep : (s.devCount i n).rep = s.rep := rfl
@[simp] theorem State.devCount_hbm : (s.devCount i n).hbm = s.hbm := rfl
@[simp] theorem State.devCount_chip : (s.devCount i n).chip = s.chip := rfl
@[simp] theorem State.devCount_flt : (s.devCount i n).flt = s.flt := rfl
@[simp] theorem State.devCount_led : (s.devCount i n).led = s.led := rfl
@[simp] theorem State.devCount_isl : (s.devCount i n).isl = s.isl := rfl
@[simp] theorem State.devCount_irq : (s.devCount i n).irq = s.irq := rfl
@[simp] theorem State.devCount_mbx : (s.devCount i n).mbx = s.mbx := rfl
@[simp] theorem State.devCount_pcie : (s.devCount i n).pcie = s.pcie := rfl
@[simp] theorem State.devCount_bar2 : (s.devCount i n).bar2 = s.bar2 := rfl
@[simp] theorem State.devCount_host : (s.devCount i n).host = s.host := rfl
@[simp] theorem State.devCount_outs : (s.devCount i n).outs = s.outs := rfl
@[simp] theorem State.devCount_free : (s.devCount i n).free = s.free := rfl
@[simp] theorem State.devCount_pending : (s.devCount i n).pending = s.pending := rfl

end

/-! ### State.hbmCount -/

section
variable (s : State) (k i n : Nat)

@[simp] theorem State.hbmCount_glb : (s.hbmCount k i n).glb = s.glb := rfl
@[simp] theorem State.hbmCount_pins : (s.hbmCount k i n).pins = s.pins := rfl
@[simp] theorem State.hbmCount_therm : (s.hbmCount k i n).therm = s.therm := rfl
@[simp] theorem State.hbmCount_time : (s.hbmCount k i n).time = s.time := rfl
@[simp] theorem State.hbmCount_flash : (s.hbmCount k i n).flash = s.flash := rfl
@[simp] theorem State.hbmCount_flashOp : (s.hbmCount k i n).flashOp = s.flashOp := rfl
@[simp] theorem State.hbmCount_cfg : (s.hbmCount k i n).cfg = s.cfg := rfl
@[simp] theorem State.hbmCount_img : (s.hbmCount k i n).img = s.img := rfl
@[simp] theorem State.hbmCount_sec : (s.hbmCount k i n).sec = s.sec := rfl
@[simp] theorem State.hbmCount_fab : (s.hbmCount k i n).fab = s.fab := rfl
@[simp] theorem State.hbmCount_rota : (s.hbmCount k i n).rota = s.rota := rfl
@[simp] theorem State.hbmCount_ptp : (s.hbmCount k i n).ptp = s.ptp := rfl
@[simp] theorem State.hbmCount_ing : (s.hbmCount k i n).ing = s.ing := rfl
@[simp] theorem State.hbmCount_sess : (s.hbmCount k i n).sess = s.sess := rfl
@[simp] theorem State.hbmCount_enc : (s.hbmCount k i n).enc = s.enc := rfl
@[simp] theorem State.hbmCount_rc : (s.hbmCount k i n).rc = s.rc := rfl
@[simp] theorem State.hbmCount_rcCnt : (s.hbmCount k i n).rcCnt = s.rcCnt := rfl
@[simp] theorem State.hbmCount_dec : (s.hbmCount k i n).dec = s.dec := rfl
@[simp] theorem State.hbmCount_dcx : (s.hbmCount k i n).dcx = s.dcx := rfl
@[simp] theorem State.hbmCount_dcxCnt : (s.hbmCount k i n).dcxCnt = s.dcxCnt := rfl
@[simp] theorem State.hbmCount_decRedo : (s.hbmCount k i n).decRedo = s.decRedo := rfl
@[simp] theorem State.hbmCount_pkt : (s.hbmCount k i n).pkt = s.pkt := rfl
@[simp] theorem State.hbmCount_rep : (s.hbmCount k i n).rep = s.rep := rfl
@[simp] theorem State.hbmCount_egr : (s.hbmCount k i n).egr = s.egr := rfl
@[simp] theorem State.hbmCount_chip : (s.hbmCount k i n).chip = s.chip := rfl
@[simp] theorem State.hbmCount_flt : (s.hbmCount k i n).flt = s.flt := rfl
@[simp] theorem State.hbmCount_led : (s.hbmCount k i n).led = s.led := rfl
@[simp] theorem State.hbmCount_isl : (s.hbmCount k i n).isl = s.isl := rfl
@[simp] theorem State.hbmCount_irq : (s.hbmCount k i n).irq = s.irq := rfl
@[simp] theorem State.hbmCount_mbx : (s.hbmCount k i n).mbx = s.mbx := rfl
@[simp] theorem State.hbmCount_pcie : (s.hbmCount k i n).pcie = s.pcie := rfl
@[simp] theorem State.hbmCount_bar2 : (s.hbmCount k i n).bar2 = s.bar2 := rfl
@[simp] theorem State.hbmCount_host : (s.hbmCount k i n).host = s.host := rfl
@[simp] theorem State.hbmCount_outs : (s.hbmCount k i n).outs = s.outs := rfl
@[simp] theorem State.hbmCount_free : (s.hbmCount k i n).free = s.free := rfl
@[simp] theorem State.hbmCount_pending : (s.hbmCount k i n).pending = s.pending := rfl

end

/-! ### State.ingDrop -/

section
variable (s : State) (i : Nat)

@[simp] theorem State.ingDrop_glb : (s.ingDrop i).glb = s.glb := rfl
@[simp] theorem State.ingDrop_pins : (s.ingDrop i).pins = s.pins := rfl
@[simp] theorem State.ingDrop_therm : (s.ingDrop i).therm = s.therm := rfl
@[simp] theorem State.ingDrop_time : (s.ingDrop i).time = s.time := rfl
@[simp] theorem State.ingDrop_flash : (s.ingDrop i).flash = s.flash := rfl
@[simp] theorem State.ingDrop_flashOp : (s.ingDrop i).flashOp = s.flashOp := rfl
@[simp] theorem State.ingDrop_cfg : (s.ingDrop i).cfg = s.cfg := rfl
@[simp] theorem State.ingDrop_img : (s.ingDrop i).img = s.img := rfl
@[simp] theorem State.ingDrop_sec : (s.ingDrop i).sec = s.sec := rfl
@[simp] theorem State.ingDrop_fab : (s.ingDrop i).fab = s.fab := rfl
@[simp] theorem State.ingDrop_rota : (s.ingDrop i).rota = s.rota := rfl
@[simp] theorem State.ingDrop_ptp : (s.ingDrop i).ptp = s.ptp := rfl
@[simp] theorem State.ingDrop_sess : (s.ingDrop i).sess = s.sess := rfl
@[simp] theorem State.ingDrop_enc : (s.ingDrop i).enc = s.enc := rfl
@[simp] theorem State.ingDrop_rc : (s.ingDrop i).rc = s.rc := rfl
@[simp] theorem State.ingDrop_rcCnt : (s.ingDrop i).rcCnt = s.rcCnt := rfl
@[simp] theorem State.ingDrop_dec : (s.ingDrop i).dec = s.dec := rfl
@[simp] theorem State.ingDrop_dcx : (s.ingDrop i).dcx = s.dcx := rfl
@[simp] theorem State.ingDrop_dcxCnt : (s.ingDrop i).dcxCnt = s.dcxCnt := rfl
@[simp] theorem State.ingDrop_decRedo : (s.ingDrop i).decRedo = s.decRedo := rfl
@[simp] theorem State.ingDrop_pkt : (s.ingDrop i).pkt = s.pkt := rfl
@[simp] theorem State.ingDrop_rep : (s.ingDrop i).rep = s.rep := rfl
@[simp] theorem State.ingDrop_egr : (s.ingDrop i).egr = s.egr := rfl
@[simp] theorem State.ingDrop_hbm : (s.ingDrop i).hbm = s.hbm := rfl
@[simp] theorem State.ingDrop_chip : (s.ingDrop i).chip = s.chip := rfl
@[simp] theorem State.ingDrop_flt : (s.ingDrop i).flt = s.flt := rfl
@[simp] theorem State.ingDrop_led : (s.ingDrop i).led = s.led := rfl
@[simp] theorem State.ingDrop_isl : (s.ingDrop i).isl = s.isl := rfl
@[simp] theorem State.ingDrop_irq : (s.ingDrop i).irq = s.irq := rfl
@[simp] theorem State.ingDrop_mbx : (s.ingDrop i).mbx = s.mbx := rfl
@[simp] theorem State.ingDrop_pcie : (s.ingDrop i).pcie = s.pcie := rfl
@[simp] theorem State.ingDrop_bar2 : (s.ingDrop i).bar2 = s.bar2 := rfl
@[simp] theorem State.ingDrop_host : (s.ingDrop i).host = s.host := rfl
@[simp] theorem State.ingDrop_outs : (s.ingDrop i).outs = s.outs := rfl
@[simp] theorem State.ingDrop_free : (s.ingDrop i).free = s.free := rfl
@[simp] theorem State.ingDrop_pending : (s.ingDrop i).pending = s.pending := rfl

end

/-! ### State.addSkipped -/

section
variable (s : State) (ch n : Nat)

@[simp] theorem State.addSkipped_glb : (s.addSkipped ch n).glb = s.glb := rfl
@[simp] theorem State.addSkipped_pins : (s.addSkipped ch n).pins = s.pins := rfl
@[simp] theorem State.addSkipped_therm : (s.addSkipped ch n).therm = s.therm := rfl
@[simp] theorem State.addSkipped_time : (s.addSkipped ch n).time = s.time := rfl
@[simp] theorem State.addSkipped_flash : (s.addSkipped ch n).flash = s.flash := rfl
@[simp] theorem State.addSkipped_flashOp : (s.addSkipped ch n).flashOp = s.flashOp := rfl
@[simp] theorem State.addSkipped_cfg : (s.addSkipped ch n).cfg = s.cfg := rfl
@[simp] theorem State.addSkipped_img : (s.addSkipped ch n).img = s.img := rfl
@[simp] theorem State.addSkipped_sec : (s.addSkipped ch n).sec = s.sec := rfl
@[simp] theorem State.addSkipped_fab : (s.addSkipped ch n).fab = s.fab := rfl
@[simp] theorem State.addSkipped_ptp : (s.addSkipped ch n).ptp = s.ptp := rfl
@[simp] theorem State.addSkipped_ing : (s.addSkipped ch n).ing = s.ing := rfl
@[simp] theorem State.addSkipped_sess : (s.addSkipped ch n).sess = s.sess := rfl
@[simp] theorem State.addSkipped_enc : (s.addSkipped ch n).enc = s.enc := rfl
@[simp] theorem State.addSkipped_rc : (s.addSkipped ch n).rc = s.rc := rfl
@[simp] theorem State.addSkipped_rcCnt : (s.addSkipped ch n).rcCnt = s.rcCnt := rfl
@[simp] theorem State.addSkipped_dec : (s.addSkipped ch n).dec = s.dec := rfl
@[simp] theorem State.addSkipped_dcx : (s.addSkipped ch n).dcx = s.dcx := rfl
@[simp] theorem State.addSkipped_dcxCnt : (s.addSkipped ch n).dcxCnt = s.dcxCnt := rfl
@[simp] theorem State.addSkipped_decRedo : (s.addSkipped ch n).decRedo = s.decRedo := rfl
@[simp] theorem State.addSkipped_pkt : (s.addSkipped ch n).pkt = s.pkt := rfl
@[simp] theorem State.addSkipped_rep : (s.addSkipped ch n).rep = s.rep := rfl
@[simp] theorem State.addSkipped_egr : (s.addSkipped ch n).egr = s.egr := rfl
@[simp] theorem State.addSkipped_hbm : (s.addSkipped ch n).hbm = s.hbm := rfl
@[simp] theorem State.addSkipped_chip : (s.addSkipped ch n).chip = s.chip := rfl
@[simp] theorem State.addSkipped_flt : (s.addSkipped ch n).flt = s.flt := rfl
@[simp] theorem State.addSkipped_led : (s.addSkipped ch n).led = s.led := rfl
@[simp] theorem State.addSkipped_isl : (s.addSkipped ch n).isl = s.isl := rfl
@[simp] theorem State.addSkipped_irq : (s.addSkipped ch n).irq = s.irq := rfl
@[simp] theorem State.addSkipped_mbx : (s.addSkipped ch n).mbx = s.mbx := rfl
@[simp] theorem State.addSkipped_pcie : (s.addSkipped ch n).pcie = s.pcie := rfl
@[simp] theorem State.addSkipped_bar2 : (s.addSkipped ch n).bar2 = s.bar2 := rfl
@[simp] theorem State.addSkipped_host : (s.addSkipped ch n).host = s.host := rfl
@[simp] theorem State.addSkipped_outs : (s.addSkipped ch n).outs = s.outs := rfl
@[simp] theorem State.addSkipped_free : (s.addSkipped ch n).free = s.free := rfl
@[simp] theorem State.addSkipped_pending : (s.addSkipped ch n).pending = s.pending := rfl

end

/-! ### State.fltSticky -/

section
variable (s : State) (n : Nat)

@[simp] theorem State.fltSticky_glb : (s.fltSticky n).glb = s.glb := rfl
@[simp] theorem State.fltSticky_pins : (s.fltSticky n).pins = s.pins := rfl
@[simp] theorem State.fltSticky_therm : (s.fltSticky n).therm = s.therm := rfl
@[simp] theorem State.fltSticky_time : (s.fltSticky n).time = s.time := rfl
@[simp] theorem State.fltSticky_flash : (s.fltSticky n).flash = s.flash := rfl
@[simp] theorem State.fltSticky_flashOp : (s.fltSticky n).flashOp = s.flashOp := rfl
@[simp] theorem State.fltSticky_cfg : (s.fltSticky n).cfg = s.cfg := rfl
@[simp] theorem State.fltSticky_img : (s.fltSticky n).img = s.img := rfl
@[simp] theorem State.fltSticky_sec : (s.fltSticky n).sec = s.sec := rfl
@[simp] theorem State.fltSticky_fab : (s.fltSticky n).fab = s.fab := rfl
@[simp] theorem State.fltSticky_rota : (s.fltSticky n).rota = s.rota := rfl
@[simp] theorem State.fltSticky_ptp : (s.fltSticky n).ptp = s.ptp := rfl
@[simp] theorem State.fltSticky_ing : (s.fltSticky n).ing = s.ing := rfl
@[simp] theorem State.fltSticky_sess : (s.fltSticky n).sess = s.sess := rfl
@[simp] theorem State.fltSticky_enc : (s.fltSticky n).enc = s.enc := rfl
@[simp] theorem State.fltSticky_rc : (s.fltSticky n).rc = s.rc := rfl
@[simp] theorem State.fltSticky_rcCnt : (s.fltSticky n).rcCnt = s.rcCnt := rfl
@[simp] theorem State.fltSticky_dec : (s.fltSticky n).dec = s.dec := rfl
@[simp] theorem State.fltSticky_dcx : (s.fltSticky n).dcx = s.dcx := rfl
@[simp] theorem State.fltSticky_dcxCnt : (s.fltSticky n).dcxCnt = s.dcxCnt := rfl
@[simp] theorem State.fltSticky_decRedo : (s.fltSticky n).decRedo = s.decRedo := rfl
@[simp] theorem State.fltSticky_pkt : (s.fltSticky n).pkt = s.pkt := rfl
@[simp] theorem State.fltSticky_rep : (s.fltSticky n).rep = s.rep := rfl
@[simp] theorem State.fltSticky_egr : (s.fltSticky n).egr = s.egr := rfl
@[simp] theorem State.fltSticky_hbm : (s.fltSticky n).hbm = s.hbm := rfl
@[simp] theorem State.fltSticky_chip : (s.fltSticky n).chip = s.chip := rfl
@[simp] theorem State.fltSticky_led : (s.fltSticky n).led = s.led := rfl
@[simp] theorem State.fltSticky_isl : (s.fltSticky n).isl = s.isl := rfl
@[simp] theorem State.fltSticky_irq : (s.fltSticky n).irq = s.irq := rfl
@[simp] theorem State.fltSticky_mbx : (s.fltSticky n).mbx = s.mbx := rfl
@[simp] theorem State.fltSticky_pcie : (s.fltSticky n).pcie = s.pcie := rfl
@[simp] theorem State.fltSticky_bar2 : (s.fltSticky n).bar2 = s.bar2 := rfl
@[simp] theorem State.fltSticky_host : (s.fltSticky n).host = s.host := rfl
@[simp] theorem State.fltSticky_outs : (s.fltSticky n).outs = s.outs := rfl
@[simp] theorem State.fltSticky_free : (s.fltSticky n).free = s.free := rfl
@[simp] theorem State.fltSticky_pending : (s.fltSticky n).pending = s.pending := rfl

end

/-! ### State.fltEscalated -/

section
variable (s : State)

@[simp] theorem State.fltEscalated_glb : (s.fltEscalated).glb = s.glb := rfl
@[simp] theorem State.fltEscalated_pins : (s.fltEscalated).pins = s.pins := rfl
@[simp] theorem State.fltEscalated_therm : (s.fltEscalated).therm = s.therm := rfl
@[simp] theorem State.fltEscalated_time : (s.fltEscalated).time = s.time := rfl
@[simp] theorem State.fltEscalated_flash : (s.fltEscalated).flash = s.flash := rfl
@[simp] theorem State.fltEscalated_flashOp : (s.fltEscalated).flashOp = s.flashOp := rfl
@[simp] theorem State.fltEscalated_cfg : (s.fltEscalated).cfg = s.cfg := rfl
@[simp] theorem State.fltEscalated_img : (s.fltEscalated).img = s.img := rfl
@[simp] theorem State.fltEscalated_sec : (s.fltEscalated).sec = s.sec := rfl
@[simp] theorem State.fltEscalated_fab : (s.fltEscalated).fab = s.fab := rfl
@[simp] theorem State.fltEscalated_rota : (s.fltEscalated).rota = s.rota := rfl
@[simp] theorem State.fltEscalated_ptp : (s.fltEscalated).ptp = s.ptp := rfl
@[simp] theorem State.fltEscalated_ing : (s.fltEscalated).ing = s.ing := rfl
@[simp] theorem State.fltEscalated_sess : (s.fltEscalated).sess = s.sess := rfl
@[simp] theorem State.fltEscalated_enc : (s.fltEscalated).enc = s.enc := rfl
@[simp] theorem State.fltEscalated_rc : (s.fltEscalated).rc = s.rc := rfl
@[simp] theorem State.fltEscalated_rcCnt : (s.fltEscalated).rcCnt = s.rcCnt := rfl
@[simp] theorem State.fltEscalated_dec : (s.fltEscalated).dec = s.dec := rfl
@[simp] theorem State.fltEscalated_dcx : (s.fltEscalated).dcx = s.dcx := rfl
@[simp] theorem State.fltEscalated_dcxCnt : (s.fltEscalated).dcxCnt = s.dcxCnt := rfl
@[simp] theorem State.fltEscalated_decRedo : (s.fltEscalated).decRedo = s.decRedo := rfl
@[simp] theorem State.fltEscalated_pkt : (s.fltEscalated).pkt = s.pkt := rfl
@[simp] theorem State.fltEscalated_rep : (s.fltEscalated).rep = s.rep := rfl
@[simp] theorem State.fltEscalated_egr : (s.fltEscalated).egr = s.egr := rfl
@[simp] theorem State.fltEscalated_hbm : (s.fltEscalated).hbm = s.hbm := rfl
@[simp] theorem State.fltEscalated_chip : (s.fltEscalated).chip = s.chip := rfl
@[simp] theorem State.fltEscalated_led : (s.fltEscalated).led = s.led := rfl
@[simp] theorem State.fltEscalated_isl : (s.fltEscalated).isl = s.isl := rfl
@[simp] theorem State.fltEscalated_irq : (s.fltEscalated).irq = s.irq := rfl
@[simp] theorem State.fltEscalated_mbx : (s.fltEscalated).mbx = s.mbx := rfl
@[simp] theorem State.fltEscalated_pcie : (s.fltEscalated).pcie = s.pcie := rfl
@[simp] theorem State.fltEscalated_bar2 : (s.fltEscalated).bar2 = s.bar2 := rfl
@[simp] theorem State.fltEscalated_host : (s.fltEscalated).host = s.host := rfl
@[simp] theorem State.fltEscalated_outs : (s.fltEscalated).outs = s.outs := rfl
@[simp] theorem State.fltEscalated_free : (s.fltEscalated).free = s.free := rfl
@[simp] theorem State.fltEscalated_pending : (s.fltEscalated).pending = s.pending := rfl

end

/-! ### State.granWrite -/

section
variable (s : State) (a : Nat) (bs : List Byte)

@[simp] theorem State.granWrite_glb : (s.granWrite a bs).glb = s.glb := rfl
@[simp] theorem State.granWrite_pins : (s.granWrite a bs).pins = s.pins := rfl
@[simp] theorem State.granWrite_therm : (s.granWrite a bs).therm = s.therm := rfl
@[simp] theorem State.granWrite_time : (s.granWrite a bs).time = s.time := rfl
@[simp] theorem State.granWrite_flash : (s.granWrite a bs).flash = s.flash := rfl
@[simp] theorem State.granWrite_flashOp : (s.granWrite a bs).flashOp = s.flashOp := rfl
@[simp] theorem State.granWrite_cfg : (s.granWrite a bs).cfg = s.cfg := rfl
@[simp] theorem State.granWrite_img : (s.granWrite a bs).img = s.img := rfl
@[simp] theorem State.granWrite_sec : (s.granWrite a bs).sec = s.sec := rfl
@[simp] theorem State.granWrite_fab : (s.granWrite a bs).fab = s.fab := rfl
@[simp] theorem State.granWrite_rota : (s.granWrite a bs).rota = s.rota := rfl
@[simp] theorem State.granWrite_ptp : (s.granWrite a bs).ptp = s.ptp := rfl
@[simp] theorem State.granWrite_ing : (s.granWrite a bs).ing = s.ing := rfl
@[simp] theorem State.granWrite_sess : (s.granWrite a bs).sess = s.sess := rfl
@[simp] theorem State.granWrite_enc : (s.granWrite a bs).enc = s.enc := rfl
@[simp] theorem State.granWrite_rc : (s.granWrite a bs).rc = s.rc := rfl
@[simp] theorem State.granWrite_rcCnt : (s.granWrite a bs).rcCnt = s.rcCnt := rfl
@[simp] theorem State.granWrite_dec : (s.granWrite a bs).dec = s.dec := rfl
@[simp] theorem State.granWrite_dcx : (s.granWrite a bs).dcx = s.dcx := rfl
@[simp] theorem State.granWrite_dcxCnt : (s.granWrite a bs).dcxCnt = s.dcxCnt := rfl
@[simp] theorem State.granWrite_decRedo : (s.granWrite a bs).decRedo = s.decRedo := rfl
@[simp] theorem State.granWrite_pkt : (s.granWrite a bs).pkt = s.pkt := rfl
@[simp] theorem State.granWrite_rep : (s.granWrite a bs).rep = s.rep := rfl
@[simp] theorem State.granWrite_egr : (s.granWrite a bs).egr = s.egr := rfl
@[simp] theorem State.granWrite_chip : (s.granWrite a bs).chip = s.chip := rfl
@[simp] theorem State.granWrite_flt : (s.granWrite a bs).flt = s.flt := rfl
@[simp] theorem State.granWrite_led : (s.granWrite a bs).led = s.led := rfl
@[simp] theorem State.granWrite_isl : (s.granWrite a bs).isl = s.isl := rfl
@[simp] theorem State.granWrite_irq : (s.granWrite a bs).irq = s.irq := rfl
@[simp] theorem State.granWrite_mbx : (s.granWrite a bs).mbx = s.mbx := rfl
@[simp] theorem State.granWrite_pcie : (s.granWrite a bs).pcie = s.pcie := rfl
@[simp] theorem State.granWrite_bar2 : (s.granWrite a bs).bar2 = s.bar2 := rfl
@[simp] theorem State.granWrite_host : (s.granWrite a bs).host = s.host := rfl
@[simp] theorem State.granWrite_outs : (s.granWrite a bs).outs = s.outs := rfl
@[simp] theorem State.granWrite_free : (s.granWrite a bs).free = s.free := rfl
@[simp] theorem State.granWrite_pending : (s.granWrite a bs).pending = s.pending := rfl

end

/-! ### State.chipWrite -/

section
variable (s : State) (a : Nat) (bs : List Byte)

@[simp] theorem State.chipWrite_glb : (s.chipWrite a bs).glb = s.glb := rfl
@[simp] theorem State.chipWrite_pins : (s.chipWrite a bs).pins = s.pins := rfl
@[simp] theorem State.chipWrite_therm : (s.chipWrite a bs).therm = s.therm := rfl
@[simp] theorem State.chipWrite_time : (s.chipWrite a bs).time = s.time := rfl
@[simp] theorem State.chipWrite_flash : (s.chipWrite a bs).flash = s.flash := rfl
@[simp] theorem State.chipWrite_flashOp : (s.chipWrite a bs).flashOp = s.flashOp := rfl
@[simp] theorem State.chipWrite_cfg : (s.chipWrite a bs).cfg = s.cfg := rfl
@[simp] theorem State.chipWrite_img : (s.chipWrite a bs).img = s.img := rfl
@[simp] theorem State.chipWrite_sec : (s.chipWrite a bs).sec = s.sec := rfl
@[simp] theorem State.chipWrite_fab : (s.chipWrite a bs).fab = s.fab := rfl
@[simp] theorem State.chipWrite_rota : (s.chipWrite a bs).rota = s.rota := rfl
@[simp] theorem State.chipWrite_ptp : (s.chipWrite a bs).ptp = s.ptp := rfl
@[simp] theorem State.chipWrite_ing : (s.chipWrite a bs).ing = s.ing := rfl
@[simp] theorem State.chipWrite_sess : (s.chipWrite a bs).sess = s.sess := rfl
@[simp] theorem State.chipWrite_enc : (s.chipWrite a bs).enc = s.enc := rfl
@[simp] theorem State.chipWrite_rc : (s.chipWrite a bs).rc = s.rc := rfl
@[simp] theorem State.chipWrite_rcCnt : (s.chipWrite a bs).rcCnt = s.rcCnt := rfl
@[simp] theorem State.chipWrite_dec : (s.chipWrite a bs).dec = s.dec := rfl
@[simp] theorem State.chipWrite_dcx : (s.chipWrite a bs).dcx = s.dcx := rfl
@[simp] theorem State.chipWrite_dcxCnt : (s.chipWrite a bs).dcxCnt = s.dcxCnt := rfl
@[simp] theorem State.chipWrite_decRedo : (s.chipWrite a bs).decRedo = s.decRedo := rfl
@[simp] theorem State.chipWrite_pkt : (s.chipWrite a bs).pkt = s.pkt := rfl
@[simp] theorem State.chipWrite_rep : (s.chipWrite a bs).rep = s.rep := rfl
@[simp] theorem State.chipWrite_egr : (s.chipWrite a bs).egr = s.egr := rfl
@[simp] theorem State.chipWrite_hbm : (s.chipWrite a bs).hbm = s.hbm := rfl
@[simp] theorem State.chipWrite_flt : (s.chipWrite a bs).flt = s.flt := rfl
@[simp] theorem State.chipWrite_led : (s.chipWrite a bs).led = s.led := rfl
@[simp] theorem State.chipWrite_isl : (s.chipWrite a bs).isl = s.isl := rfl
@[simp] theorem State.chipWrite_irq : (s.chipWrite a bs).irq = s.irq := rfl
@[simp] theorem State.chipWrite_mbx : (s.chipWrite a bs).mbx = s.mbx := rfl
@[simp] theorem State.chipWrite_pcie : (s.chipWrite a bs).pcie = s.pcie := rfl
@[simp] theorem State.chipWrite_bar2 : (s.chipWrite a bs).bar2 = s.bar2 := rfl
@[simp] theorem State.chipWrite_host : (s.chipWrite a bs).host = s.host := rfl
@[simp] theorem State.chipWrite_outs : (s.chipWrite a bs).outs = s.outs := rfl
@[simp] theorem State.chipWrite_free : (s.chipWrite a bs).free = s.free := rfl
@[simp] theorem State.chipWrite_pending : (s.chipWrite a bs).pending = s.pending := rfl

end

/-! ### State.clearSpad -/

section
variable (s : State) (a n : Nat)

@[simp] theorem State.clearSpad_glb : (s.clearSpad a n).glb = s.glb := rfl
@[simp] theorem State.clearSpad_pins : (s.clearSpad a n).pins = s.pins := rfl
@[simp] theorem State.clearSpad_therm : (s.clearSpad a n).therm = s.therm := rfl
@[simp] theorem State.clearSpad_time : (s.clearSpad a n).time = s.time := rfl
@[simp] theorem State.clearSpad_flash : (s.clearSpad a n).flash = s.flash := rfl
@[simp] theorem State.clearSpad_flashOp : (s.clearSpad a n).flashOp = s.flashOp := rfl
@[simp] theorem State.clearSpad_cfg : (s.clearSpad a n).cfg = s.cfg := rfl
@[simp] theorem State.clearSpad_img : (s.clearSpad a n).img = s.img := rfl
@[simp] theorem State.clearSpad_sec : (s.clearSpad a n).sec = s.sec := rfl
@[simp] theorem State.clearSpad_fab : (s.clearSpad a n).fab = s.fab := rfl
@[simp] theorem State.clearSpad_rota : (s.clearSpad a n).rota = s.rota := rfl
@[simp] theorem State.clearSpad_ptp : (s.clearSpad a n).ptp = s.ptp := rfl
@[simp] theorem State.clearSpad_ing : (s.clearSpad a n).ing = s.ing := rfl
@[simp] theorem State.clearSpad_sess : (s.clearSpad a n).sess = s.sess := rfl
@[simp] theorem State.clearSpad_enc : (s.clearSpad a n).enc = s.enc := rfl
@[simp] theorem State.clearSpad_rc : (s.clearSpad a n).rc = s.rc := rfl
@[simp] theorem State.clearSpad_rcCnt : (s.clearSpad a n).rcCnt = s.rcCnt := rfl
@[simp] theorem State.clearSpad_dec : (s.clearSpad a n).dec = s.dec := rfl
@[simp] theorem State.clearSpad_dcx : (s.clearSpad a n).dcx = s.dcx := rfl
@[simp] theorem State.clearSpad_dcxCnt : (s.clearSpad a n).dcxCnt = s.dcxCnt := rfl
@[simp] theorem State.clearSpad_decRedo : (s.clearSpad a n).decRedo = s.decRedo := rfl
@[simp] theorem State.clearSpad_pkt : (s.clearSpad a n).pkt = s.pkt := rfl
@[simp] theorem State.clearSpad_rep : (s.clearSpad a n).rep = s.rep := rfl
@[simp] theorem State.clearSpad_egr : (s.clearSpad a n).egr = s.egr := rfl
@[simp] theorem State.clearSpad_hbm : (s.clearSpad a n).hbm = s.hbm := rfl
@[simp] theorem State.clearSpad_flt : (s.clearSpad a n).flt = s.flt := rfl
@[simp] theorem State.clearSpad_led : (s.clearSpad a n).led = s.led := rfl
@[simp] theorem State.clearSpad_isl : (s.clearSpad a n).isl = s.isl := rfl
@[simp] theorem State.clearSpad_irq : (s.clearSpad a n).irq = s.irq := rfl
@[simp] theorem State.clearSpad_mbx : (s.clearSpad a n).mbx = s.mbx := rfl
@[simp] theorem State.clearSpad_pcie : (s.clearSpad a n).pcie = s.pcie := rfl
@[simp] theorem State.clearSpad_bar2 : (s.clearSpad a n).bar2 = s.bar2 := rfl
@[simp] theorem State.clearSpad_host : (s.clearSpad a n).host = s.host := rfl
@[simp] theorem State.clearSpad_outs : (s.clearSpad a n).outs = s.outs := rfl
@[simp] theorem State.clearSpad_free : (s.clearSpad a n).free = s.free := rfl
@[simp] theorem State.clearSpad_pending : (s.clearSpad a n).pending = s.pending := rfl

end

/-! ### State.draw -/

section
variable (s : State) (n : Nat)

@[simp] theorem State.draw_glb : (s.draw n).2.glb = s.glb := rfl
@[simp] theorem State.draw_pins : (s.draw n).2.pins = s.pins := rfl
@[simp] theorem State.draw_therm : (s.draw n).2.therm = s.therm := rfl
@[simp] theorem State.draw_time : (s.draw n).2.time = s.time := rfl
@[simp] theorem State.draw_flash : (s.draw n).2.flash = s.flash := rfl
@[simp] theorem State.draw_flashOp : (s.draw n).2.flashOp = s.flashOp := rfl
@[simp] theorem State.draw_cfg : (s.draw n).2.cfg = s.cfg := rfl
@[simp] theorem State.draw_img : (s.draw n).2.img = s.img := rfl
@[simp] theorem State.draw_sec : (s.draw n).2.sec = s.sec := rfl
@[simp] theorem State.draw_fab : (s.draw n).2.fab = s.fab := rfl
@[simp] theorem State.draw_rota : (s.draw n).2.rota = s.rota := rfl
@[simp] theorem State.draw_ptp : (s.draw n).2.ptp = s.ptp := rfl
@[simp] theorem State.draw_ing : (s.draw n).2.ing = s.ing := rfl
@[simp] theorem State.draw_sess : (s.draw n).2.sess = s.sess := rfl
@[simp] theorem State.draw_enc : (s.draw n).2.enc = s.enc := rfl
@[simp] theorem State.draw_rc : (s.draw n).2.rc = s.rc := rfl
@[simp] theorem State.draw_rcCnt : (s.draw n).2.rcCnt = s.rcCnt := rfl
@[simp] theorem State.draw_dec : (s.draw n).2.dec = s.dec := rfl
@[simp] theorem State.draw_dcx : (s.draw n).2.dcx = s.dcx := rfl
@[simp] theorem State.draw_dcxCnt : (s.draw n).2.dcxCnt = s.dcxCnt := rfl
@[simp] theorem State.draw_decRedo : (s.draw n).2.decRedo = s.decRedo := rfl
@[simp] theorem State.draw_pkt : (s.draw n).2.pkt = s.pkt := rfl
@[simp] theorem State.draw_rep : (s.draw n).2.rep = s.rep := rfl
@[simp] theorem State.draw_egr : (s.draw n).2.egr = s.egr := rfl
@[simp] theorem State.draw_hbm : (s.draw n).2.hbm = s.hbm := rfl
@[simp] theorem State.draw_chip : (s.draw n).2.chip = s.chip := rfl
@[simp] theorem State.draw_flt : (s.draw n).2.flt = s.flt := rfl
@[simp] theorem State.draw_led : (s.draw n).2.led = s.led := rfl
@[simp] theorem State.draw_isl : (s.draw n).2.isl = s.isl := rfl
@[simp] theorem State.draw_irq : (s.draw n).2.irq = s.irq := rfl
@[simp] theorem State.draw_mbx : (s.draw n).2.mbx = s.mbx := rfl
@[simp] theorem State.draw_pcie : (s.draw n).2.pcie = s.pcie := rfl
@[simp] theorem State.draw_bar2 : (s.draw n).2.bar2 = s.bar2 := rfl
@[simp] theorem State.draw_host : (s.draw n).2.host = s.host := rfl
@[simp] theorem State.draw_outs : (s.draw n).2.outs = s.outs := rfl
@[simp] theorem State.draw_free : (s.draw n).2.free = s.free + 1 := rfl
@[simp] theorem State.draw_pending : (s.draw n).2.pending = s.pending := rfl

end

/-! ### State.drawBelow -/

section
variable (s : State) (n : Nat)

@[simp] theorem State.drawBelow_glb : (s.drawBelow n).2.glb = s.glb := rfl
@[simp] theorem State.drawBelow_pins : (s.drawBelow n).2.pins = s.pins := rfl
@[simp] theorem State.drawBelow_therm : (s.drawBelow n).2.therm = s.therm := rfl
@[simp] theorem State.drawBelow_time : (s.drawBelow n).2.time = s.time := rfl
@[simp] theorem State.drawBelow_flash : (s.drawBelow n).2.flash = s.flash := rfl
@[simp] theorem State.drawBelow_flashOp : (s.drawBelow n).2.flashOp = s.flashOp := rfl
@[simp] theorem State.drawBelow_cfg : (s.drawBelow n).2.cfg = s.cfg := rfl
@[simp] theorem State.drawBelow_img : (s.drawBelow n).2.img = s.img := rfl
@[simp] theorem State.drawBelow_sec : (s.drawBelow n).2.sec = s.sec := rfl
@[simp] theorem State.drawBelow_fab : (s.drawBelow n).2.fab = s.fab := rfl
@[simp] theorem State.drawBelow_rota : (s.drawBelow n).2.rota = s.rota := rfl
@[simp] theorem State.drawBelow_ptp : (s.drawBelow n).2.ptp = s.ptp := rfl
@[simp] theorem State.drawBelow_ing : (s.drawBelow n).2.ing = s.ing := rfl
@[simp] theorem State.drawBelow_sess : (s.drawBelow n).2.sess = s.sess := rfl
@[simp] theorem State.drawBelow_enc : (s.drawBelow n).2.enc = s.enc := rfl
@[simp] theorem State.drawBelow_rc : (s.drawBelow n).2.rc = s.rc := rfl
@[simp] theorem State.drawBelow_rcCnt : (s.drawBelow n).2.rcCnt = s.rcCnt := rfl
@[simp] theorem State.drawBelow_dec : (s.drawBelow n).2.dec = s.dec := rfl
@[simp] theorem State.drawBelow_dcx : (s.drawBelow n).2.dcx = s.dcx := rfl
@[simp] theorem State.drawBelow_dcxCnt : (s.drawBelow n).2.dcxCnt = s.dcxCnt := rfl
@[simp] theorem State.drawBelow_decRedo : (s.drawBelow n).2.decRedo = s.decRedo := rfl
@[simp] theorem State.drawBelow_pkt : (s.drawBelow n).2.pkt = s.pkt := rfl
@[simp] theorem State.drawBelow_rep : (s.drawBelow n).2.rep = s.rep := rfl
@[simp] theorem State.drawBelow_egr : (s.drawBelow n).2.egr = s.egr := rfl
@[simp] theorem State.drawBelow_hbm : (s.drawBelow n).2.hbm = s.hbm := rfl
@[simp] theorem State.drawBelow_chip : (s.drawBelow n).2.chip = s.chip := rfl
@[simp] theorem State.drawBelow_flt : (s.drawBelow n).2.flt = s.flt := rfl
@[simp] theorem State.drawBelow_led : (s.drawBelow n).2.led = s.led := rfl
@[simp] theorem State.drawBelow_isl : (s.drawBelow n).2.isl = s.isl := rfl
@[simp] theorem State.drawBelow_irq : (s.drawBelow n).2.irq = s.irq := rfl
@[simp] theorem State.drawBelow_mbx : (s.drawBelow n).2.mbx = s.mbx := rfl
@[simp] theorem State.drawBelow_pcie : (s.drawBelow n).2.pcie = s.pcie := rfl
@[simp] theorem State.drawBelow_bar2 : (s.drawBelow n).2.bar2 = s.bar2 := rfl
@[simp] theorem State.drawBelow_host : (s.drawBelow n).2.host = s.host := rfl
@[simp] theorem State.drawBelow_outs : (s.drawBelow n).2.outs = s.outs := rfl
@[simp] theorem State.drawBelow_free : (s.drawBelow n).2.free = s.free + 1 := rfl
@[simp] theorem State.drawBelow_pending : (s.drawBelow n).2.pending = s.pending := rfl

end

/-! ### Frames of the shared operations

Each says which fields the operation can change: the state after is the state before with those fields replaced. -/

theorem State.irqEvent_frame (s : State) (n : Nat) : s.irqEvent n = { s with irq := (s.irqEvent n).irq } := by
  unfold State.irqEvent; split <;> rfl

/-- An event sets PEND and counts, up to 255 (R425); a reserved source has none (R424), nor the line of a stopped
island (R477). -/
theorem State.irqEvent_src (s : State) (n : Nat) (h : irqReserved n = false) (r : (irqIsland n).any s.stopped = false)
    (w : s.irq.srcs.wf {} = true) (j : Nat) :
    (s.irqEvent n).irqSrc j = if j = n then (s.irqSrc n).event else s.irqSrc j := by
  rw [State.irqEvent, h, r]
  exact State.setIrqSrc_irqSrc s n _ w j

theorem State.putCpl_frame (s : State) (c : Cpl) :
    s.putCpl c = { s with bar2 := (s.putCpl c).bar2, mbx := (s.putCpl c).mbx, irq := (s.putCpl c).irq } := by
  unfold State.putCpl; dsimp only; split
  · rw [State.irqEvent_frame]
  · rfl

theorem State.post_frame (s : State) (c : Cpl) :
    s.post c = { s with bar2 := (s.post c).bar2, mbx := (s.post c).mbx, irq := (s.post c).irq } := by
  unfold State.post; split
  · rfl
  · exact State.putCpl_frame s c

theorem State.setJobs_frame (s : State) (jobs : List Job) :
    s.setJobs jobs = { s with mbx := (s.setJobs jobs).mbx, flt := { s.flt with line := (s.setJobs jobs).flt.line } } := rfl

/-- A completion writes the completion ring and the mailbox's own state, raises MBX_CQ, and lets STEWARD_LOAD's line fall. -/
theorem State.finish_frame (s : State) (c : Cpl) (begun : Bool := false) :
    s.finish c begun = { s with
      bar2 := (s.finish c begun).bar2, mbx := (s.finish c begun).mbx, irq := (s.finish c begun).irq
      flt := { s.flt with line := (s.finish c begun).flt.line } } := by
  unfold State.finish; dsimp only
  split
  · rw [State.setJobs_frame]
  · rw [State.post_frame, State.setJobs_frame]

theorem State.complete_frame (s : State) (h : CmdHdr) (st : Status) (r : Nat) :
    s.complete h st r = { s with
      bar2 := (s.complete h st r).bar2, mbx := (s.complete h st r).mbx, irq := (s.complete h st r).irq
      flt := { s.flt with line := (s.complete h st r).flt.line } } := State.finish_frame s _

theorem State.completeJob_frame (s : State) (h : CmdHdr) (st : Status) :
    s.completeJob h st = { s with
      bar2 := (s.completeJob h st).bar2, mbx := (s.completeJob h st).mbx, irq := (s.completeJob h st).irq
      flt := { s.flt with line := (s.completeJob h st).flt.line } } := State.finish_frame s _ true

theorem State.sendPfc_frame (s : State) (p m q : Nat) :
    s.sendPfc p m q = { s with egr := (s.sendPfc p m q).egr, ing := (s.sendPfc p m q).ing } := by
  unfold State.sendPfc; split <;> rfl

theorem State.fifoEval_frame (s : State) (f : Nat) :
    s.fifoEval f = { s with ing := (s.fifoEval f).ing, egr := (s.fifoEval f).egr, chip := (s.fifoEval f).chip } := by
  unfold State.fifoEval; dsimp only; split
  · split
    · rw [State.sendPfc_frame]
    · rfl
  · rfl

theorem State.ramWrite_frame (s : State) (al a : Nat) (bs : List Byte) :
    s.ramWrite al a bs = { s with hbm := (s.ramWrite al a bs).hbm, chip := (s.ramWrite al a bs).chip } := by
  unfold State.ramWrite; split
  · rfl
  · split <;> rfl

theorem State.queueExc_frame (s : State) (p : ExcPkt) :
    s.queueExc p = { s with pkt := (s.queueExc p).pkt, hbm := (s.queueExc p).hbm, irq := (s.queueExc p).irq } := by
  unfold State.queueExc; dsimp only
  split
  · split
    · rw [State.irqEvent_frame]; rfl
    · rfl
  · rfl

theorem State.packetExc_frame (s : State) (k r : Nat) (c : PeCtx) :
    s.packetExc k r c = { s with
      pkt := (s.packetExc k r c).pkt, hbm := (s.packetExc k r c).hbm, irq := (s.packetExc k r c).irq } := by
  unfold State.packetExc; dsimp only
  split
  · rfl
  · rw [State.queueExc_frame]

/-- Retiring and quarantining touch the ledger alone (R451). -/
theorem State.retire_frame (s : State) (u src : Nat) : s.retire u src = { s with led := (s.retire u src).led } := by
  unfold State.retire; dsimp only; split <;> rfl

theorem State.quarantine_frame (s : State) (u src : Nat) : s.quarantine u src = { s with led := (s.quarantine u src).led } := by
  unfold State.quarantine; dsimp only; split
  · rfl
  · split
    · exact State.retire_frame s u src
    · rfl

end Sys2Proof.Machine
end

