-- ==== Sys2Proof/Laws/Faults.lean ====
section
/-!
SUPPORT. What the raising of a fault source leaves: the sticky bit, and the whole reaction of a source whose FAILOVER moves nothing.
-/

namespace Sys2Proof.Machine

variable (s : State)

/-! ### Sticky bits through the reaction -/

theorem State.complete_sticky (h : CmdHdr) (st : Status) (r : Nat) : (s.complete h st r).flt.sticky = s.flt.sticky := by
  rw [State.complete_frame]

theorem State.completeJob_sticky (h : CmdHdr) (st : Status) : (s.completeJob h st).flt.sticky = s.flt.sticky := by
  rw [State.completeJob_frame]

theorem State.post_flt (c : Cpl) : (s.post c).flt = s.flt := by rw [State.post_frame]

theorem State.fetchOne_flt : s.fetchOne.flt = s.flt := by
  unfold State.fetchOne; dsimp only; split
  · rfl
  · rw [State.post_flt]

theorem State.fetchUpTo_flt (n : Nat) (s : State) : (State.fetchUpTo n s).flt = s.flt := by
  induction n generalizing s with
  | zero => rfl
  | succ n ih =>
    unfold State.fetchUpTo
    split
    · rw [ih, State.fetchOne_flt]
    · rfl

theorem State.stacksRest_flt : s.stacksRest.flt = s.flt := by
  unfold State.stacksRest
  simp only [List.foldl_cons, List.foldl_nil]
  repeat' split
  all_goals simp

theorem State.swapDenied_sticky : s.swapDenied.flt.sticky = s.flt.sticky := by
  unfold State.swapDenied
  split
  · rfl
  · split
    · rfl
    · exact State.completeJob_sticky _ _ _

/-- The entry into SAFE sets and clears no sticky bit. -/
theorem State.enterSafe_sticky : s.enterSafe.flt.sticky = s.flt.sticky := by
  unfold State.enterSafe
  split
  · rfl
  split
  · rw [State.fetch, State.fetchUpTo_flt, State.swapDenied_sticky, State.stacksRest_flt, State.sendPfc_frame, State.sendPfc_frame]
    dsimp only
    rw [State.irqEvent_frame]
    rfl
  · rfl

theorem State.fltNotify_sticky (n level : Nat) : (s.fltNotify n level).flt.sticky = s.flt.sticky := by
  have h : ({ s.irqEvent (irqFlt n) with flt := { (s.irqEvent (irqFlt n)).flt with
      mark := (s.irqEvent (irqFlt n)).flt.mark.set false n true } } : State).flt.sticky = s.flt.sticky := by
    show (s.irqEvent (irqFlt n)).flt.sticky = _
    rw [State.irqEvent_frame]
  unfold State.fltNotify
  dsimp only
  split
  · rw [State.enterSafe_sticky]; exact h
  · exact h

/-- An event sets its sticky bit and no other (R439), whatever its reaction. -/
theorem State.react_sticky (n : Nat) (u : Option Nat) (held mute : Bool) :
    (s.react n u held mute).2.flt.sticky = s.flt.sticky.set false n true := by
  unfold State.react
  dsimp only
  split
  · rfl
  · split
    all_goals
      split
      · rfl
      · rw [State.fltNotify_sticky]; rfl

/-! ### Whole events -/

/-- A source that cannot rise has no event. -/
theorem State.raise_held {n : Nat} (h : s.canRise n = false) : s.raise n = s := by
  simp [State.raise, State.raiseIn, h]

/-- The whole reaction of a source whose FAILOVER moves nothing and that is no gleaning source. -/
theorem State.raise_plain {n : Nat} (h : s.canRise n = true) (hk : fltKind n = none) (hg : n < 0x040 ∨ 0x060 ≤ n) :
    s.raise n = (s.react n none false).2 := by
  have g : ∀ l, ¬ (2 ≤ l ∧ 0x040 ≤ n ∧ n < 0x060) := fun l => by omega
  simp [State.raise, State.raiseIn, h, hk, g]

theorem State.raise_plain_sticky {n : Nat} (h : s.canRise n = true) (hk : fltKind n = none) (hg : n < 0x040 ∨ 0x060 ≤ n) :
    (s.raise n).flt.sticky = s.flt.sticky.set false n true := by
  rw [State.raise_plain s h hk hg, State.react_sticky]

end Sys2Proof.Machine
end

