-- ==== Sys2Proof/Laws/Memory.lean ====
section
/-!
SUPPORT. Every operation on the addressed memories keeps their canonical form, and what a read finds after a write.
-/

namespace Sys2Proof.Machine

/-- The canonical form is a matter of the five memories alone. -/
theorem State.memWf_iff (s : State) : s.memWf = true ↔
    Tbl.wf 0xFF s.flash = true ∧ Tbl.wf 0 s.hbm.mem = true ∧ Tbl.wf 0 s.chip.mem = true ∧ Tbl.wf 0 s.bar2 = true
      ∧ Tbl.wf 0 s.host = true := by
  simp only [State.memWf, Bool.and_eq_true, and_assoc]

variable {s : State}

/-! ### The granary and the scratchpads -/

theorem State.granWrite_memWf (w : s.memWf = true) (a : Nat) (bs : List Byte) : (s.granWrite a bs).memWf = true := by
  rw [State.memWf_iff] at *
  exact ⟨w.1, Tbl.setList_wf _ w.2.1 a, w.2.2⟩

theorem State.chipWrite_memWf (w : s.memWf = true) (a : Nat) (bs : List Byte) : (s.chipWrite a bs).memWf = true := by
  rw [State.memWf_iff] at *
  exact ⟨w.1, w.2.1, Tbl.setList_wf bs w.2.2.1 a, w.2.2.2⟩

theorem State.ramWrite_memWf (w : s.memWf = true) (al a : Nat) (bs : List Byte) : (s.ramWrite al a bs).memWf = true := by
  unfold State.ramWrite
  split
  · exact State.granWrite_memWf w a bs
  · split
    · exact State.chipWrite_memWf w a _
    · exact w

theorem State.clearSpad_memWf (w : s.memWf = true) (a n : Nat) : (s.clearSpad a n).memWf = true := by
  rw [State.memWf_iff] at *
  exact ⟨w.1, w.2.1, Tbl.drop_wf w.2.2.1 fun k => decide (a ≤ k ∧ k < a + n), w.2.2.2⟩

theorem State.loseStack_memWf (w : s.memWf = true) (k : Nat) : (s.loseStack k).memWf = true := by
  rw [State.memWf_iff] at *
  exact ⟨w.1, Tbl.drop_wf w.2.1 fun a => stackOf (s.posOf a) == k, w.2.2⟩

/-- A write changes nothing of what unwritten bytes read as. -/
@[simp] theorem State.granWrite_granBase (s : State) (a j : Nat) (bs : List Byte) : (s.granWrite a bs).granBase j = s.granBase j := rfl

/-- A write of granary bytes leaves every byte outside its range as it was. -/
theorem State.granWrite_ramByte_outside (w : s.memWf = true) (a : Nat) (bs : List Byte) {j : Nat} (h : j < a ∨ a + bs.length ≤ j) :
    (s.granWrite a bs).ramByte j = s.ramByte j := by
  rw [State.memWf_iff] at w
  simp only [State.ramByte, State.granWrite_chip, State.granWrite_granBase]
  split
  · congr 1
    exact Tbl.get_setList_outside _ w.2.1 a (by simpa using h)
  · rfl

/-- A write of granary bytes reads back. -/
theorem State.granWrite_ramByte_inside (w : s.memWf = true) (a : Nat) (bs : List Byte) {i : Nat} (h : i < bs.length)
    (ha : a + i < granTop) : (s.granWrite a bs).ramByte (a + i) = bs[i] := by
  rw [State.memWf_iff] at w
  simp only [State.ramByte, ha, if_true, State.granWrite_granBase]
  have e := Tbl.get_setList_inside (bs.mapIdx fun i b => b ^^^ s.granBase (a + i)) w.2.1 a (i := i) (by simpa using h)
  have g : (s.granWrite a bs).hbm.mem.get 0 (a + i) = bs[i] ^^^ s.granBase (a + i) := e.trans (by simp)
  rw [g, BitVec.xor_assoc, BitVec.xor_self, BitVec.xor_zero]

/-- A write of scratchpad bytes leaves every byte outside its range as it was. -/
theorem State.chipWrite_ramByte_outside (w : s.memWf = true) (a : Nat) (bs : List Byte) {j : Nat} (h : j < a ∨ a + bs.length ≤ j) :
    (s.chipWrite a bs).ramByte j = s.ramByte j := by
  rw [State.memWf_iff] at w
  simp only [State.ramByte, State.chipWrite_hbm]
  split
  · rfl
  · exact Tbl.get_setList_outside bs w.2.2.1 a h

theorem State.chipWrite_ramByte_inside (w : s.memWf = true) (a : Nat) (bs : List Byte) {i : Nat} (h : i < bs.length)
    (ha : granTop ≤ a + i) : (s.chipWrite a bs).ramByte (a + i) = bs[i] := by
  rw [State.memWf_iff] at w
  simp only [State.ramByte, if_neg (Nat.not_lt.mpr ha)]
  exact Tbl.get_setList_inside bs w.2.2.1 a h

/-! ### The flash -/

theorem State.flashWrite_memWf (w : s.memWf = true) (a : Nat) (bs : List Byte) : (s.flashWrite a bs).memWf = true := by
  rw [State.memWf_iff] at *
  exact ⟨Tbl.setList_wf bs w.1 a, w.2⟩

theorem State.flashErase_memWf (w : s.memWf = true) (a n : Nat) : (s.flashErase a n).memWf = true := by
  rw [State.memWf_iff] at *
  exact ⟨Tbl.drop_wf w.1 fun k => decide (a ≤ k ∧ k < a + n), w.2⟩

theorem State.flashSpoil_memWf (w : s.memWf = true) (a n : Nat) : (s.flashSpoil a n).memWf = true := by
  rw [State.memWf_iff] at *
  exact ⟨Tbl.setList_wf _ w.1 a, w.2⟩

theorem State.cutFlash_memWf (w : s.memWf = true) : s.cutFlash.memWf = true := by
  unfold State.cutFlash
  split
  · exact w
  · rename_i o _
    have h : ({ s with flashOp := none } : State).memWf = true := w
    exact State.flashSpoil_memWf h o.base o.len

theorem State.flashErase_get (w : s.memWf = true) (a n j : Nat) :
    (s.flashErase a n).flash.get 0xFF j = if a ≤ j ∧ j < a + n then 0xFF else s.flash.get 0xFF j := by
  rw [State.memWf_iff] at w
  have := Tbl.get_drop w.1 (fun k => decide (a ≤ k ∧ k < a + n)) j
  simpa [State.flashErase] using this

theorem State.flashWrite_get_outside (w : s.memWf = true) (a : Nat) (bs : List Byte) {j : Nat} (h : j < a ∨ a + bs.length ≤ j) :
    (s.flashWrite a bs).flash.get 0xFF j = s.flash.get 0xFF j := by
  rw [State.memWf_iff] at w
  exact Tbl.get_setList_outside bs w.1 a h

theorem State.flashSpoil_get_outside (w : s.memWf = true) (a n : Nat) {j : Nat} (h : j < a ∨ a + n ≤ j) :
    (s.flashSpoil a n).flash.get 0xFF j = s.flash.get 0xFF j := by
  rw [State.memWf_iff] at w
  exact Tbl.get_setList_outside _ w.1 a (by simpa using h)

/-! ### The BAR2 SRAM and host memory -/

theorem State.irqEvent_memWf (w : s.memWf = true) (n : Nat) : (s.irqEvent n).memWf = true := by
  rw [State.irqEvent_frame]; exact w

theorem State.putCpl_memWf (w : s.memWf = true) (c : Cpl) : (s.putCpl c).memWf = true := by
  have h : ∀ m : Mbx, ({ s with bar2 := s.bar2.setList 0 (cqBase + 16 * s.mbx.cqTail) (cplBytes c s.mbx.phase), mbx := m } : State).memWf
      = true := fun m => by
    rw [State.memWf_iff] at *
    exact ⟨w.1, w.2.1, w.2.2.1, Tbl.setList_wf _ w.2.2.2.1 _, w.2.2.2.2⟩
  unfold State.putCpl
  dsimp only
  split
  · exact State.irqEvent_memWf (h _) _
  · exact h _

theorem State.post_memWf (w : s.memWf = true) (c : Cpl) : (s.post c).memWf = true := by
  unfold State.post
  split
  · exact w
  · exact State.putCpl_memWf w c

theorem State.finish_memWf (w : s.memWf = true) (c : Cpl) (b : Bool) : (s.finish c b).memWf = true := by
  have h : ∀ jobs, (s.setJobs jobs).memWf = true := fun _ => w
  unfold State.finish
  dsimp only
  split
  · exact h _
  · exact State.post_memWf (h _) c

theorem State.complete_memWf (w : s.memWf = true) (h : CmdHdr) (st : Status) (r : Nat) : (s.complete h st r).memWf = true :=
  State.finish_memWf w _ _

theorem State.completeJob_memWf (w : s.memWf = true) (h : CmdHdr) (st : Status) : (s.completeJob h st).memWf = true :=
  State.finish_memWf w _ _

/-- A completion entry lies in the completion ring: every byte below it is as it was. -/
theorem State.putCpl_bar2_below (w : s.memWf = true) (c : Cpl) {a : Nat} (h : a < cqBase) :
    (s.putCpl c).bar2.get 0 a = s.bar2.get 0 a := by
  rw [State.memWf_iff] at w
  have e : (s.putCpl c).bar2 = s.bar2.setList 0 (cqBase + 16 * s.mbx.cqTail) (cplBytes c s.mbx.phase) := by
    unfold State.putCpl
    dsimp only
    split
    · rw [State.irqEvent_frame]
    · rfl
  rw [e]
  exact Tbl.get_setList_outside _ w.2.2.2.1 _ (by omega)

theorem State.sendMsi_memWf (w : s.memWf = true) (v : Nat) : (s.sendMsi v).memWf = true := by
  rw [State.memWf_iff] at *
  exact ⟨w.1, w.2.1, w.2.2.1, w.2.2.2.1, Tbl.setList_wf _ w.2.2.2.2 _⟩

/-- A reset of the device empties the memories it loses, and keeps the flash and host memory as they are. -/
theorem State.clearDev_memWf (w : s.memWf = true) : s.clearDev.memWf = true := by
  rw [State.memWf_iff] at *
  exact ⟨w.1, rfl, rfl, rfl, w.2.2.2.2⟩

end Sys2Proof.Machine
end

