-- ==== Sys2Proof/WellFormed.lean ====
section
/-!
DEFINITION. Which commands are well formed: every operand lies in the range that the spec gives the unit, address or field
it names. A command outside these ranges is no command of the block; `exec` does not consult this predicate.
-/

namespace Sys2Proof

/-- A number of `n` bits. -/
def fits (n v : Nat) : Bool := decide (v < 2 ^ n)

/-- A mailbox header: TAG has 16 bits (R415). -/
def CmdHdr.wf (h : CmdHdr) : Bool := fits 16 h.tag

/-- SMB_ADDR is two straps (R27). -/
def PinLevels.wf (p : PinLevels) : Bool := decide (p.smbAddr < 4)

/-- The body fits the entry of SESSION_OPEN (R416). -/
def OpenArgs.wf (a : OpenArgs) : Bool :=
  fits 8 a.channel && fits 16 a.width && fits 16 a.height && fits 7 a.pt && fits 128 a.srcAddr && fits 16 a.srcPort
    && fits 32 a.ssrc && fits 64 a.seed

/-- The body fits the entry of SESSION_OPEN with KIND 1 (R416). -/
def CtxArgs.wf (a : CtxArgs) : Bool :=
  fits 8 a.dcx && fits 4 a.codec && fits 8 a.bindCh && fits 7 a.pt && fits 16 a.reorder && fits 128 a.srcAddr
    && fits 16 a.srcPort && fits 16 a.dstPort && fits 32 a.ssrc

/-- The body fits the entry of DELIVERY_ADD (R416). -/
def AddArgs.wf (a : AddArgs) : Bool :=
  fits 8 a.channel && fits 2 a.maxTid && fits 4 a.prof && fits 12 a.outer && fits 128 a.dstAddr && fits 16 a.dstPort
    && fits 16 a.srcPort && fits 32 a.ssrc && fits 48 a.dstMac && fits 6 a.dscp && fits 2 a.ecn && fits 8 a.hop
    && fits 32 a.vlan0 && fits 32 a.vlan1 && fits 20 a.keySlot && fits 32 a.rate && fits 16 a.burst && fits 16 a.dropAt

/-- The body fits the entry of ADD_DEST, with the channel of its header (R78, R79). -/
def DestArgs.wf (a : DestArgs) : Bool :=
  fits 6 a.channel && fits 32 a.dstAddr && fits 16 a.dstPort && fits 12 a.vlan && fits 32 a.ssrc && fits 16 a.keySlot
    && fits 32 a.rate

/-- A granary access names a port, a 64-byte unit and, for a write, 64 bytes (R355). -/
def GranAcc.wf (a : GranAcc) : Bool :=
  decide (a.port < 13) && fits 8 a.master && decide (1 ≤ a.len) && (!a.write || decide (a.data.length = a.len))

/-- A fabric request has a 38-bit address and, for a write, as many bytes as its length (R101). -/
def FabReq.wf (r : FabReq) : Bool :=
  fits 8 r.master && fits 38 r.addr && decide (1 ≤ r.len) && (!r.write || decide (r.data.length = r.len))

/-- A scratchpad access is one of a read, a write, a bit set and a bit clear, at an aligned word; only the fabric port carries
the aliases (R385). -/
def SpadAcc.wf (a : SpadAcc) : Bool :=
  decide (a.op < 4) && fits 8 a.be && decide (a.addr % 8 = 0) && decide (a.rank ≤ 64)
    && (decide (a.op < 2) || decide (a.rank = 64))

/-- A write of a decode core names one of its three buffer descriptors, and writes something (R263). -/
def DecWrite.wf (w : DecWrite) : Bool := decide (w.desc < 3) && !w.data.isEmpty

/-- A fault source of R438 and a unit index of R465. -/
def FaultOf.wf : FaultOf → Bool
  | .other => true
  | .oneCopy n | .bothCopies n => decide (n < 512)
  | .entry u => fits 8 u
  | .write _ _ => true

def FaultEv.wf (e : FaultEv) : Bool := decide (e.src < 512) && fits 8 e.unit && e.hit.wf

/-- An encode lane (R8), a decode lane (R8), a channel (R116), a decode context (R252), a port, a stack. -/
def okLane (l : Nat) : Bool := decide (l < 28)
def okDLane (l : Nat) : Bool := decide (l < 8)
def okCh (c : Nat) : Bool := decide (c < 192)
def okDcx (x : Nat) : Bool := decide (x < 64)
def okPort (p : Nat) : Bool := decide (p < 2)
def okStack (k : Nat) : Bool := decide (k < 2)
def okPe (k : Nat) : Bool := decide (k < 64)

/-- Well-formedness of a command. -/
def Instr.wf : Instr → Bool
  | .porRelease p _ => p.wf
  | .railBelowThreshold _ | .resetNAssert _ | .resetNRelease _ | .perstNAssert _ | .perstNRelease _ => true
  | .restartEnterReset | .restartLeaveReset _ | .clkSysLoss _ | .ethRefclkLoss _ | .pcieRefclkLoss => true
  | .pcieLinkDown _ | .pcieL1Exit => true
  | .thermtrip ts _ | .thermalWarn ts _ | .thermalCrit ts _ | .thermalAlertClears ts _ => decide (ts < 16)
  | .ppsInEdge _ | .powerOnHour _ _ => true
  | .slotCheck slot _ => decide (slot < 2)
  | .hbmTrainingComplete ws => ws.all fun g => decide (g < 64)
  | .imageSectionsCopied | .tablesLoaded | .rotaStart => true
  | .sheafRunStart l i _ => okLane l && fits 16 i
  | .catchupRunStart l i | .gleanRunStart l i => okLane l && fits 16 i
  | .runOverrun l | .sheafPass l _ | .threshFail l _ | .gleanResult l _ _ => okLane l
  | .residueMismatch l _ r => okLane l && decide (r < 7)
  | .rotaBacklog ch p _ sh => okCh ch && decide (p < 2) && decide (sh < 68)
  | .decodeRunStart l i _ ws => okDLane l && fits 16 i && ws.all DecWrite.wf
  | .decodeGleanRun l i _ _ => okDLane l && fits 16 i
  | .decodeRunStop l | .decWatchdog l => okDLane l
  | .reorderTimeout x q => okDcx x && fits 16 q
  | .clockStep | .syncTimeout | .announceTimeout | .holdoverExpiry => true
  | .portLinkDown p | .portRetrainDone p _ | .laneSubstitution p => okPort p
  | .serdesBerWindow b => b.all fun (p, k, e, n) => okPort p && decide (k < 5) && decide (e ≤ n)
  | .frameReceive p _ _ | .parseStart p | .vftRows p => okPort p
  | .ext k | .key k | .keyi k | .alu k | .br k | .hdr k | .len k | .lkp k | .lookupResult k | .exc k | .done k _ _ => okPe k
  | .apertureWrite | .ingDb _ | .doorbell => true
  | .sheafDue ch _ _ sh | .sheafReady ch _ sh => okCh ch && decide (sh < 68)
  | .pfcRepeat p => okPort p
  | .rtcpPacket _ _ => true
  | .pass1 ch => okCh ch
  | .pass1Resume | .buildStage _ => true
  | .calendarBucket p | .gateEntry p _ | .schedulerSelect p _ | .sealStage p _ => okPort p
  | .bodyFree h => fits 19 h
  | .stashMove k => decide (k < 64)
  | .rulesetFlip | .rulesetRetire => true
  | .refreshDue g _ => decide (g < 64)
  | .scrubRead a _ _ => decide (a % 64 = 0)
  | .granaryAccess as _ _ => as.all GranAcc.wf
  | .drainStart k | .drainSwap k | .trainingGatherEnd k | .trainingDone k _ | .hbmResume k _ | .abortDrain k => okStack k
  | .stackTemperatureReport k _ => okStack k
  | .fabricTransaction rs => rs.all FabReq.wf
  | .scratchpadAccess as _ => as.all SpadAcc.wf
  | .dmaFifoLevelStart n _ | .dmaComplete n | .dmaBeatError n _ _ | .dmaStart n | .dmaAbort n _ | .dmaFifoLevelPause n _ =>
    decide (n < 68)
  | .faultEvent es => es.all FaultEv.wf
  | .spareAdmissionDone d l _ _ | .laneRebind d l => if d then okDLane l else okLane l
  | .stewardTakeover c | .stwWatchdog c | .stewardCoreWfi c => decide (c < 4)
  | .srtpRemap n => decide (n < 4)
  | .quarantineTestEnd u _ _ => fits 8 u
  | .stewardLoad => true
  | .irqEvent n _ _ => decide (n < 0x400)
  | .irqDelivery t | .irqModerationEnd t | .irqRedirect t => decide (t < 68)
  | .unitBoundary n | .islandTransitionDone n => decide (n < 59)
  | .flashOpDone _ | .fuseBurnDone _ _ => true
  | .mbxSqDb n | .mbxCqDb n => fits 32 n
  | .mbxCtrl _ => true
  | .mbxAbort t => fits 16 t
  | .sessionOpen h a => h.wf && a.wf
  | .sessionOpenContext h a => h.wf && a.wf
  | .sessionClose h n _ | .sessionCloseContext h n _ => h.wf && fits 8 n
  | .deliveryDel h n | .keyErase h n => h.wf && fits 20 n
  | .deliveryAdd h a => h.wf && a.wf
  | .keyImport h src n blob => h.wf && fits 64 src && fits 32 n && decide (blob.length = n)
  | .loadKey h src n slot blob => h.wf && fits 64 src && fits 32 n && fits 16 slot && decide (blob.length = n)
  | .targetSet h ch v => h.wf && fits 8 ch && fits 32 v
  | .targetSetDelivery h n v => h.wf && fits 20 n && fits 32 v
  | .rulesetSwap h i => h.wf && fits 4 i
  | .islandState h n st => h.wf && fits 8 n && fits 8 st
  | .islandFreq h n f => h.wf && fits 8 n && fits 32 f
  | .attest h a d => h.wf && fits 32 a && fits 32 d
  | .imageWriteProgram h slot off n src => h.wf && fits 8 slot && fits 32 off && fits 32 n && fits 32 src
  | .imageWriteErase h slot off n => h.wf && fits 8 slot && fits 32 off && fits 32 n
  | .imageWriteVerify h slot _ => h.wf && fits 8 slot
  | .restart h | .reboot h => h.wf
  | .faultAck h src => h.wf && fits 9 src
  | .getStats h ch dst n => h.wf && fits 6 ch && fits 64 dst && fits 32 n
  | .statsRead h off dst n => h.wf && fits 32 off && fits 64 dst && fits 32 n
  | .reservedOpcode h op => h.wf && fits 8 op
  | .openStream h ch w ht v => h.wf && fits 6 ch && fits 16 w && fits 16 ht && fits 32 v
  | .closeStream h ch => h.wf && fits 6 ch
  | .delDest h n => h.wf && fits 32 n
  | .setBitrate h ch v => h.wf && fits 6 ch && fits 32 v
  | .clearAlarm h src => h.wf && fits 16 src
  | .addDest h a => h.wf && a.wf
  | .flashWrite h a n src => h.wf && fits 32 a && fits 32 n && fits 32 src
  | .badOpcode h op => h.wf && fits 8 op
  | .fuseBurnOwner c | .fuseBurnDebugClose c => fits 32 c
  | .fabUnfreeze m => fits 8 m
  | .fabLock | .fabViolLastRead | .secKeyStatRead | .rotaTimeNsRead => true
  | .counterLowRead _ off _ => decide (off < 0x4000000)
  | .decFeed x _ n => okDcx x && fits 32 n
  | .decRelease x b => okDcx x && decide (b < 32)
  | .dmaFifoFlush f _ => decide (f < 1024)
  | .irqHostAck v => decide (v < 64)
  | .irqSwSet n => decide (n < 64)
  | .irqSrcCfg n _ => decide (n < 0x400)
  | .msixMask w => match w with
    | .function _ => true
    | .vector n _ => decide (n < 64)
  | .fltForce n _ => decide (n < 16)
  | .fltAck n => decide (n < 512)
  | .fltAckAll => true
  | .pwrIslReq n v | .pwrIslFreq n v => decide (n < 59) && fits 32 v
  | .registerWrite _ off _ _ _ => decide (off < 0x4000000)
  | .smbReadHottestTj | .smbReadHottestIndex | .smbReadPower | .smbReadState | .smbReadThermalStatus => true
  | .smbReadSensorTj c | .smbReadRailCurrent c => fits 8 c
  | .smbUnknownCommand c _ => fits 8 c
  | .extest _ | .samplePreload _ | .extestPulse _ | .extestTrain _ => true
  | .smbAlertResponse | .tapReset | .idcode | .highz | .clamp | .dbgSteward | .dbgFabric | .bypass => true
  | .apertureTlpArrival off rd bs _ => fits 34 off && decide (off + max rd bs.length ≤ 2 ^ 34) && (if rd = 0 then decide (1 ≤ bs.length) else bs.isEmpty)
  | .pcieLinkUp => true
  | .configurationRequest r => match r with
    | .setBar n _ => decide (n < 6)
    | _ => true
  | .delayReqTransmit => true

end Sys2Proof
end

