-- ==== Sys2Proof/Laws/PerInstr.lean ====
section
/-!
SUPPORT. Laws of the commands as syntax, one lemma per command.
-/

namespace Sys2Proof

/-- The header of a mailbox command (R415, R78). -/
def Instr.header : Instr → Option CmdHdr
  | .sessionOpen h _ => some h
  | .sessionOpenContext h _ => some h
  | .sessionClose h _ _ => some h
  | .sessionCloseContext h _ _ => some h
  | .deliveryAdd h _ => some h
  | .deliveryDel h _ => some h
  | .keyImport h _ _ _ => some h
  | .keyErase h _ => some h
  | .targetSet h _ _ => some h
  | .targetSetDelivery h _ _ => some h
  | .rulesetSwap h _ => some h
  | .islandState h _ _ => some h
  | .islandFreq h _ _ => some h
  | .attest h _ _ => some h
  | .imageWriteProgram h _ _ _ _ => some h
  | .imageWriteErase h _ _ _ => some h
  | .imageWriteVerify h _ _ => some h
  | .restart h => some h
  | .faultAck h _ => some h
  | .statsRead h _ _ _ => some h
  | .reservedOpcode h _ => some h
  | .openStream h _ _ _ _ => some h
  | .closeStream h _ => some h
  | .addDest h _ => some h
  | .delDest h _ => some h
  | .loadKey h _ _ _ _ => some h
  | .setBitrate h _ _ => some h
  | .getStats h _ _ _ => some h
  | .clearAlarm h _ => some h
  | .flashWrite h _ _ _ => some h
  | .reboot h => some h
  | .badOpcode h _ => some h
  | .porRelease _ _ | .railBelowThreshold _ | .resetNAssert _ | .resetNRelease _ | .perstNAssert _ | .perstNRelease _ => none
  | .restartEnterReset | .restartLeaveReset _ | .clkSysLoss _ | .ethRefclkLoss _ | .pcieRefclkLoss | .pcieLinkDown _ => none
  | .pcieL1Exit | .thermtrip _ _ | .thermalWarn _ _ | .thermalCrit _ _ | .ppsInEdge _ | .powerOnHour _ _ | .slotCheck _ _ => none
  | .hbmTrainingComplete _ | .imageSectionsCopied | .tablesLoaded | .rotaStart | .sheafRunStart _ _ _ | .catchupRunStart _ _ => none
  | .gleanRunStart _ _ | .runOverrun _ | .rotaBacklog _ _ _ _ | .sheafPass _ _ | .threshFail _ _ | .residueMismatch _ _ _ => none
  | .gleanResult _ _ _ | .decodeRunStart _ _ _ _ | .decodeRunStop _ | .decodeGleanRun _ _ _ _ | .decWatchdog _ => none
  | .reorderTimeout _ _ | .clockStep | .syncTimeout | .announceTimeout | .holdoverExpiry | .portLinkDown _ => none
  | .portRetrainDone _ _ | .serdesBerWindow _ | .laneSubstitution _ | .frameReceive _ _ _ | .parseStart _ | .ext _ | .key _ => none
  | .keyi _ | .alu _ | .br _ | .hdr _ | .len _ | .lkp _ | .lookupResult _ | .exc _ | .done _ _ _ | .vftRows _ | .apertureWrite => none
  | .ingDb _ | .doorbell | .sheafDue _ _ _ _ | .sheafReady _ _ _ | .pfcRepeat _ | .rtcpPacket _ _ | .pass1 _ | .pass1Resume => none
  | .buildStage _ | .calendarBucket _ | .gateEntry _ _ | .schedulerSelect _ _ | .sealStage _ _ | .bodyFree _ | .stashMove _ => none
  | .rulesetFlip | .rulesetRetire | .refreshDue _ _ | .scrubRead _ _ _ | .granaryAccess _ _ _ | .drainStart _ | .drainSwap _ => none
  | .trainingGatherEnd _ | .trainingDone _ _ | .hbmResume _ _ | .fabricTransaction _ | .scratchpadAccess _ _ => none
  | .dmaFifoLevelStart _ _ | .dmaComplete _ | .dmaBeatError _ _ _ | .faultEvent _ | .spareAdmissionDone _ _ _ _ => none
  | .laneRebind _ _ | .stewardTakeover _ | .srtpRemap _ | .quarantineTestEnd _ _ _ | .stwWatchdog _ | .stewardLoad => none
  | .irqEvent _ _ _ | .irqDelivery _ | .irqModerationEnd _ | .irqRedirect _ | .unitBoundary _ | .islandTransitionDone _ => none
  | .flashOpDone _ | .fuseBurnDone _ _ | .mbxSqDb _ | .mbxCqDb _ | .mbxCtrl _ | .mbxAbort _ | .abortDrain _ => none
  | .fuseBurnOwner _ | .fuseBurnDebugClose _ | .fabUnfreeze _ | .fabLock | .fabViolLastRead | .secKeyStatRead => none
  | .rotaTimeNsRead | .counterLowRead _ _ _ | .decFeed _ _ _ | .decRelease _ _ | .dmaStart _ | .dmaAbort _ _ | .dmaFifoFlush _ _ => none
  | .irqHostAck _ | .irqSwSet _ | .irqSrcCfg _ _ | .msixMask _ | .fltForce _ _ | .fltAck _ | .fltAckAll | .pwrIslReq _ _ => none
  | .pwrIslFreq _ _ | .registerWrite _ _ _ _ _ | .smbReadHottestTj | .smbReadHottestIndex | .smbReadPower | .smbReadState => none
  | .smbReadThermalStatus | .smbReadSensorTj _ | .smbReadRailCurrent _ | .smbUnknownCommand _ _ | .smbAlertResponse => none
  | .tapReset | .extest _ | .samplePreload _ | .idcode | .highz | .clamp | .extestPulse _ | .extestTrain _ | .dbgSteward => none
  | .dbgFabric | .bypass | .apertureTlpArrival _ _ _ _ | .pcieLinkUp | .configurationRequest _ | .delayReqTransmit => none
  | .thermalAlertClears _ _ | .stackTemperatureReport _ _ | .dmaFifoLevelPause _ _ | .stewardCoreWfi _ => none

end Sys2Proof

/-- A well-formed mailbox command carries a TAG of 16 bits (R415). -/
def Sys2Proof.Laws.Tagged.Statement (i : Sys2Proof.Instr) : Prop :=
  ∀ h, i.header = some h → i.wf = true → h.tag < 2 ^ 16

namespace Sys2Proof.Laws.Tagged

open Sys2Proof

/-- A well-formed header has a TAG of 16 bits. -/
theorem of_wf {h : CmdHdr} (w : h.wf = true) : h.tag < 2 ^ 16 := by simpa [CmdHdr.wf, fits] using w

theorem porRelease (x0 : PinLevels) (x1 : FuseEcc) : Statement (.porRelease x0 x1) := nofun
theorem railBelowThreshold (x0 : Rail) : Statement (.railBelowThreshold x0) := nofun
theorem resetNAssert (x0 : Nat) : Statement (.resetNAssert x0) := nofun
theorem resetNRelease (x0 : Bool) : Statement (.resetNRelease x0) := nofun
theorem perstNAssert (x0 : Nat) : Statement (.perstNAssert x0) := nofun
theorem perstNRelease (x0 : Bool) : Statement (.perstNRelease x0) := nofun
theorem restartEnterReset : Statement .restartEnterReset := nofun
theorem restartLeaveReset (x0 : Bool) : Statement (.restartLeaveReset x0) := nofun
theorem clkSysLoss (x0 : Nat) : Statement (.clkSysLoss x0) := nofun
theorem ethRefclkLoss (x0 : Nat) : Statement (.ethRefclkLoss x0) := nofun
theorem pcieRefclkLoss : Statement .pcieRefclkLoss := nofun
theorem pcieLinkDown (x0 : LinkDownCause) : Statement (.pcieLinkDown x0) := nofun
theorem pcieL1Exit : Statement .pcieL1Exit := nofun
theorem thermtrip (x0 : Nat) (x1 : Int) : Statement (.thermtrip x0 x1) := nofun
theorem thermalWarn (x0 : Nat) (x1 : Int) : Statement (.thermalWarn x0 x1) := nofun
theorem thermalCrit (x0 : Nat) (x1 : Int) : Statement (.thermalCrit x0 x1) := nofun
theorem ppsInEdge (x0 : Nat) : Statement (.ppsInEdge x0) := nofun
theorem powerOnHour (x0 : Nat) (x1 : Bool) : Statement (.powerOnHour x0 x1) := nofun
theorem slotCheck (x0 : Nat) (x1 : FlashReads) : Statement (.slotCheck x0 x1) := nofun
theorem hbmTrainingComplete (x0 : List Nat) : Statement (.hbmTrainingComplete x0) := nofun
theorem imageSectionsCopied : Statement .imageSectionsCopied := nofun
theorem tablesLoaded : Statement .tablesLoaded := nofun
theorem rotaStart : Statement .rotaStart := nofun
theorem sheafRunStart (x0 : Nat) (x1 : Nat) (x2 : Nat) : Statement (.sheafRunStart x0 x1 x2) := nofun
theorem catchupRunStart (x0 : Nat) (x1 : Nat) : Statement (.catchupRunStart x0 x1) := nofun
theorem gleanRunStart (x0 : Nat) (x1 : Nat) : Statement (.gleanRunStart x0 x1) := nofun
theorem runOverrun (x0 : Nat) : Statement (.runOverrun x0) := nofun
theorem rotaBacklog (x0 : Nat) (x1 : Nat) (x2 : Nat) (x3 : Nat) : Statement (.rotaBacklog x0 x1 x2 x3) := nofun
theorem sheafPass (x0 : Nat) (x1 : List Config.Parsed) : Statement (.sheafPass x0 x1) := nofun
theorem threshFail (x0 : Nat) (x1 : List Config.Parsed) : Statement (.threshFail x0 x1) := nofun
theorem residueMismatch (x0 : Nat) (x1 : Int) (x2 : Nat) : Statement (.residueMismatch x0 x1 x2) := nofun
theorem gleanResult (x0 : Nat) (x1 : BitVec 64) (x2 : Bool) : Statement (.gleanResult x0 x1 x2) := nofun
theorem decodeRunStart (x0 : Nat) (x1 : Nat) (x2 : Nat) (x3 : List DecWrite) : Statement (.decodeRunStart x0 x1 x2 x3) := nofun
theorem decodeRunStop (x0 : Nat) : Statement (.decodeRunStop x0) := nofun
theorem decodeGleanRun (x0 : Nat) (x1 : Nat) (x2 : BitVec 64) (x3 : Bool) : Statement (.decodeGleanRun x0 x1 x2 x3) := nofun
theorem decWatchdog (x0 : Nat) : Statement (.decWatchdog x0) := nofun
theorem reorderTimeout (x0 : Nat) (x1 : Nat) : Statement (.reorderTimeout x0 x1) := nofun
theorem clockStep : Statement .clockStep := nofun
theorem syncTimeout : Statement .syncTimeout := nofun
theorem announceTimeout : Statement .announceTimeout := nofun
theorem holdoverExpiry : Statement .holdoverExpiry := nofun
theorem portLinkDown (x0 : Nat) : Statement (.portLinkDown x0) := nofun
theorem portRetrainDone (x0 : Nat) (x1 : List Nat) : Statement (.portRetrainDone x0 x1) := nofun
theorem serdesBerWindow (x0 : List (Nat × Nat × Nat × Nat)) : Statement (.serdesBerWindow x0) := nofun
theorem laneSubstitution (x0 : Nat) : Statement (.laneSubstitution x0) := nofun
theorem frameReceive (x0 : Nat) (x1 : List Byte) (x2 : Bool) : Statement (.frameReceive x0 x1 x2) := nofun
theorem parseStart (x0 : Nat) : Statement (.parseStart x0) := nofun
theorem ext (x0 : Nat) : Statement (.ext x0) := nofun
theorem key (x0 : Nat) : Statement (.key x0) := nofun
theorem keyi (x0 : Nat) : Statement (.keyi x0) := nofun
theorem alu (x0 : Nat) : Statement (.alu x0) := nofun
theorem br (x0 : Nat) : Statement (.br x0) := nofun
theorem hdr (x0 : Nat) : Statement (.hdr x0) := nofun
theorem len (x0 : Nat) : Statement (.len x0) := nofun
theorem lkp (x0 : Nat) : Statement (.lkp x0) := nofun
theorem lookupResult (x0 : Nat) : Statement (.lookupResult x0) := nofun
theorem exc (x0 : Nat) : Statement (.exc x0) := nofun
theorem done (x0 : Nat) (x1 : PtpMsg) (x2 : Bool) : Statement (.done x0 x1 x2) := nofun
theorem vftRows (x0 : Nat) : Statement (.vftRows x0) := nofun
theorem apertureWrite : Statement .apertureWrite := nofun
theorem ingDb (x0 : Word) : Statement (.ingDb x0) := nofun
theorem doorbell : Statement .doorbell := nofun
theorem sheafDue (x0 : Nat) (x1 : Nat) (x2 : Nat) (x3 : Nat) : Statement (.sheafDue x0 x1 x2 x3) := nofun
theorem sheafReady (x0 : Nat) (x1 : Nat) (x2 : Nat) : Statement (.sheafReady x0 x1 x2) := nofun
theorem pfcRepeat (x0 : Nat) : Statement (.pfcRepeat x0) := nofun
theorem rtcpPacket (x0 : Bool) (x1 : List RtcpMsg) : Statement (.rtcpPacket x0 x1) := nofun
theorem pass1 (x0 : Nat) : Statement (.pass1 x0) := nofun
theorem pass1Resume : Statement .pass1Resume := nofun
theorem buildStage (x0 : Bool) : Statement (.buildStage x0) := nofun
theorem calendarBucket (x0 : Nat) : Statement (.calendarBucket x0) := nofun
theorem gateEntry (x0 : Nat) (x1 : Nat) : Statement (.gateEntry x0 x1) := nofun
theorem schedulerSelect (x0 : Nat) (x1 : Bool) : Statement (.schedulerSelect x0 x1) := nofun
theorem sealStage (x0 : Nat) (x1 : SealObs) : Statement (.sealStage x0 x1) := nofun
theorem bodyFree (x0 : Nat) : Statement (.bodyFree x0) := nofun
theorem stashMove (x0 : Nat) : Statement (.stashMove x0) := nofun
theorem rulesetFlip : Statement .rulesetFlip := nofun
theorem rulesetRetire : Statement .rulesetRetire := nofun
theorem refreshDue (x0 : Nat) (x1 : Bool) : Statement (.refreshDue x0 x1) := nofun
theorem scrubRead (x0 : Nat) (x1 : EccOut) (x2 : Bool) : Statement (.scrubRead x0 x1 x2) := nofun
theorem granaryAccess (x0 : List GranAcc) (x1 : EccOut) (x2 : GranCyc) : Statement (.granaryAccess x0 x1 x2) := nofun
theorem drainStart (x0 : Nat) : Statement (.drainStart x0) := nofun
theorem drainSwap (x0 : Nat) : Statement (.drainSwap x0) := nofun
theorem trainingGatherEnd (x0 : Nat) : Statement (.trainingGatherEnd x0) := nofun
theorem trainingDone (x0 : Nat) (x1 : Bool) : Statement (.trainingDone x0 x1) := nofun
theorem hbmResume (x0 : Nat) (x1 : List Nat) : Statement (.hbmResume x0 x1) := nofun
theorem fabricTransaction (x0 : List FabReq) : Statement (.fabricTransaction x0) := nofun
theorem scratchpadAccess (x0 : List SpadAcc) (x1 : SpadEcc) : Statement (.scratchpadAccess x0 x1) := nofun
theorem dmaFifoLevelStart (x0 : Nat) (x1 : List (Nat × FifoOps)) : Statement (.dmaFifoLevelStart x0 x1) := nofun
theorem dmaComplete (x0 : Nat) : Statement (.dmaComplete x0) := nofun
theorem dmaBeatError (x0 : Nat) (x1 : Nat) (x2 : Bool) : Statement (.dmaBeatError x0 x1 x2) := nofun
theorem faultEvent (x0 : List FaultEv) : Statement (.faultEvent x0) := nofun
theorem spareAdmissionDone (x0 : Bool) (x1 : Nat) (x2 : BitVec 64) (x3 : Bool) : Statement (.spareAdmissionDone x0 x1 x2 x3) := nofun
theorem laneRebind (x0 : Bool) (x1 : Nat) : Statement (.laneRebind x0 x1) := nofun
theorem stewardTakeover (x0 : Nat) : Statement (.stewardTakeover x0) := nofun
theorem srtpRemap (x0 : Nat) : Statement (.srtpRemap x0) := nofun
theorem quarantineTestEnd (x0 : Nat) (x1 : Bool) (x2 : BitVec 64) : Statement (.quarantineTestEnd x0 x1 x2) := nofun
theorem stwWatchdog (x0 : Nat) : Statement (.stwWatchdog x0) := nofun
theorem stewardLoad : Statement .stewardLoad := nofun
theorem irqEvent (x0 : Nat) (x1 : Bool) (x2 : Nat) : Statement (.irqEvent x0 x1 x2) := nofun
theorem irqDelivery (x0 : Nat) : Statement (.irqDelivery x0) := nofun
theorem irqModerationEnd (x0 : Nat) : Statement (.irqModerationEnd x0) := nofun
theorem irqRedirect (x0 : Nat) : Statement (.irqRedirect x0) := nofun
theorem unitBoundary (x0 : Nat) : Statement (.unitBoundary x0) := nofun
theorem islandTransitionDone (x0 : Nat) : Statement (.islandTransitionDone x0) := nofun
theorem flashOpDone (x0 : Bool) : Statement (.flashOpDone x0) := nofun
theorem fuseBurnDone (x0 : BitVec 512) (x1 : Nat) : Statement (.fuseBurnDone x0 x1) := nofun
theorem mbxSqDb (x0 : Nat) : Statement (.mbxSqDb x0) := nofun
theorem mbxCqDb (x0 : Nat) : Statement (.mbxCqDb x0) := nofun
theorem mbxCtrl (x0 : Word) : Statement (.mbxCtrl x0) := nofun
theorem mbxAbort (x0 : Nat) : Statement (.mbxAbort x0) := nofun
theorem abortDrain (x0 : Nat) : Statement (.abortDrain x0) := nofun
theorem sessionOpen (x0 : CmdHdr) (x1 : OpenArgs) :
    Statement (.sessionOpen x0 x1) := by
  intro h e w
  cases e
  exact of_wf (by simp_all [Instr.wf])
theorem sessionOpenContext (x0 : CmdHdr) (x1 : CtxArgs) :
    Statement (.sessionOpenContext x0 x1) := by
  intro h e w
  cases e
  exact of_wf (by simp_all [Instr.wf])
theorem sessionClose (x0 : CmdHdr) (x1 : Nat) (x2 : Bool) :
    Statement (.sessionClose x0 x1 x2) := by
  intro h e w
  cases e
  exact of_wf (by simp_all [Instr.wf])
theorem sessionCloseContext (x0 : CmdHdr) (x1 : Nat) (x2 : Bool) :
    Statement (.sessionCloseContext x0 x1 x2) := by
  intro h e w
  cases e
  exact of_wf (by simp_all [Instr.wf])
theorem deliveryAdd (x0 : CmdHdr) (x1 : AddArgs) : Statement (.deliveryAdd x0 x1) := by
  intro h e w
  cases e
  exact of_wf (by simp_all [Instr.wf])
theorem deliveryDel (x0 : CmdHdr) (x1 : Nat) : Statement (.deliveryDel x0 x1) := by
  intro h e w
  cases e
  exact of_wf (by simp_all [Instr.wf])
theorem keyImport (x0 : CmdHdr) (x1 : Nat) (x2 : Nat) (x3 : List Byte) :
    Statement (.keyImport x0 x1 x2 x3) := by
  intro h e w
  cases e
  exact of_wf (by simp_all [Instr.wf])
theorem keyErase (x0 : CmdHdr) (x1 : Nat) : Statement (.keyErase x0 x1) := by
  intro h e w
  cases e
  exact of_wf (by simp_all [Instr.wf])
theorem targetSet (x0 : CmdHdr) (x1 : Nat) (x2 : Nat) :
    Statement (.targetSet x0 x1 x2) := by
  intro h e w
  cases e
  exact of_wf (by simp_all [Instr.wf])
theorem targetSetDelivery (x0 : CmdHdr) (x1 : Nat) (x2 : Nat) :
    Statement (.targetSetDelivery x0 x1 x2) := by
  intro h e w
  cases e
  exact of_wf (by simp_all [Instr.wf])
theorem rulesetSwap (x0 : CmdHdr) (x1 : Nat) : Statement (.rulesetSwap x0 x1) := by
  intro h e w
  cases e
  exact of_wf (by simp_all [Instr.wf])
theorem islandState (x0 : CmdHdr) (x1 : Nat) (x2 : Nat) :
    Statement (.islandState x0 x1 x2) := by
  intro h e w
  cases e
  exact of_wf (by simp_all [Instr.wf])
theorem islandFreq (x0 : CmdHdr) (x1 : Nat) (x2 : Nat) :
    Statement (.islandFreq x0 x1 x2) := by
  intro h e w
  cases e
  exact of_wf (by simp_all [Instr.wf])
theorem attest (x0 : CmdHdr) (x1 : Nat) (x2 : Nat) : Statement (.attest x0 x1 x2) := by
  intro h e w
  cases e
  exact of_wf (by simp_all [Instr.wf])
theorem imageWriteProgram (x0 : CmdHdr) (x1 : Nat) (x2 : Nat) (x3 : Nat) (x4 : Nat) :
    Statement (.imageWriteProgram x0 x1 x2 x3 x4) := by
  intro h e w
  cases e
  exact of_wf (by simp_all [Instr.wf])
theorem imageWriteErase (x0 : CmdHdr) (x1 : Nat) (x2 : Nat) (x3 : Nat) :
    Statement (.imageWriteErase x0 x1 x2 x3) := by
  intro h e w
  cases e
  exact of_wf (by simp_all [Instr.wf])
theorem imageWriteVerify (x0 : CmdHdr) (x1 : Nat) (x2 : FlashReads) :
    Statement (.imageWriteVerify x0 x1 x2) := by
  intro h e w
  cases e
  exact of_wf (by simp_all [Instr.wf])
theorem restart (x0 : CmdHdr) : Statement (.restart x0) := by
  intro h e w
  cases e
  exact of_wf (by simp_all [Instr.wf])
theorem faultAck (x0 : CmdHdr) (x1 : Nat) : Statement (.faultAck x0 x1) := by
  intro h e w
  cases e
  exact of_wf (by simp_all [Instr.wf])
theorem statsRead (x0 : CmdHdr) (x1 : Nat) (x2 : Nat) (x3 : Nat) :
    Statement (.statsRead x0 x1 x2 x3) := by
  intro h e w
  cases e
  exact of_wf (by simp_all [Instr.wf])
theorem reservedOpcode (x0 : CmdHdr) (x1 : Nat) :
    Statement (.reservedOpcode x0 x1) := by
  intro h e w
  cases e
  exact of_wf (by simp_all [Instr.wf])
theorem openStream (x0 : CmdHdr) (x1 : Nat) (x2 : Nat) (x3 : Nat) (x4 : Nat) :
    Statement (.openStream x0 x1 x2 x3 x4) := by
  intro h e w
  cases e
  exact of_wf (by simp_all [Instr.wf])
theorem closeStream (x0 : CmdHdr) (x1 : Nat) : Statement (.closeStream x0 x1) := by
  intro h e w
  cases e
  exact of_wf (by simp_all [Instr.wf])
theorem addDest (x0 : CmdHdr) (x1 : DestArgs) : Statement (.addDest x0 x1) := by
  intro h e w
  cases e
  exact of_wf (by simp_all [Instr.wf])
theorem delDest (x0 : CmdHdr) (x1 : Nat) : Statement (.delDest x0 x1) := by
  intro h e w
  cases e
  exact of_wf (by simp_all [Instr.wf])
theorem loadKey (x0 : CmdHdr) (x1 : Nat) (x2 : Nat) (x3 : Nat) (x4 : List Byte) :
    Statement (.loadKey x0 x1 x2 x3 x4) := by
  intro h e w
  cases e
  exact of_wf (by simp_all [Instr.wf])
theorem setBitrate (x0 : CmdHdr) (x1 : Nat) (x2 : Nat) :
    Statement (.setBitrate x0 x1 x2) := by
  intro h e w
  cases e
  exact of_wf (by simp_all [Instr.wf])
theorem getStats (x0 : CmdHdr) (x1 : Nat) (x2 : Nat) (x3 : Nat) :
    Statement (.getStats x0 x1 x2 x3) := by
  intro h e w
  cases e
  exact of_wf (by simp_all [Instr.wf])
theorem clearAlarm (x0 : CmdHdr) (x1 : Nat) : Statement (.clearAlarm x0 x1) := by
  intro h e w
  cases e
  exact of_wf (by simp_all [Instr.wf])
theorem flashWrite (x0 : CmdHdr) (x1 : Nat) (x2 : Nat) (x3 : Nat) :
    Statement (.flashWrite x0 x1 x2 x3) := by
  intro h e w
  cases e
  exact of_wf (by simp_all [Instr.wf])
theorem reboot (x0 : CmdHdr) : Statement (.reboot x0) := by
  intro h e w
  cases e
  exact of_wf (by simp_all [Instr.wf])
theorem badOpcode (x0 : CmdHdr) (x1 : Nat) : Statement (.badOpcode x0 x1) := by
  intro h e w
  cases e
  exact of_wf (by simp_all [Instr.wf])
theorem fuseBurnOwner (x0 : Nat) : Statement (.fuseBurnOwner x0) := nofun
theorem fuseBurnDebugClose (x0 : Nat) : Statement (.fuseBurnDebugClose x0) := nofun
theorem fabUnfreeze (x0 : Nat) : Statement (.fabUnfreeze x0) := nofun
theorem fabLock : Statement .fabLock := nofun
theorem fabViolLastRead : Statement .fabViolLastRead := nofun
theorem secKeyStatRead : Statement .secKeyStatRead := nofun
theorem rotaTimeNsRead : Statement .rotaTimeNsRead := nofun
theorem counterLowRead (x0 : Requester) (x1 : Nat) (x2 : Nat) : Statement (.counterLowRead x0 x1 x2) := nofun
theorem decFeed (x0 : Nat) (x1 : Bool) (x2 : Nat) : Statement (.decFeed x0 x1 x2) := nofun
theorem decRelease (x0 : Nat) (x1 : Nat) : Statement (.decRelease x0 x1) := nofun
theorem dmaStart (x0 : Nat) : Statement (.dmaStart x0) := nofun
theorem dmaAbort (x0 : Nat) (x1 : Nat) : Statement (.dmaAbort x0 x1) := nofun
theorem dmaFifoFlush (x0 : Nat) (x1 : FifoOps) : Statement (.dmaFifoFlush x0 x1) := nofun
theorem irqHostAck (x0 : Nat) : Statement (.irqHostAck x0) := nofun
theorem irqSwSet (x0 : Nat) : Statement (.irqSwSet x0) := nofun
theorem irqSrcCfg (x0 : Nat) (x1 : Word) : Statement (.irqSrcCfg x0 x1) := nofun
theorem msixMask (x0 : MsixWr) : Statement (.msixMask x0) := nofun
theorem fltForce (x0 : Nat) (x1 : Word) : Statement (.fltForce x0 x1) := nofun
theorem fltAck (x0 : Nat) : Statement (.fltAck x0) := nofun
theorem fltAckAll : Statement .fltAckAll := nofun
theorem pwrIslReq (x0 : Nat) (x1 : Nat) : Statement (.pwrIslReq x0 x1) := nofun
theorem pwrIslFreq (x0 : Nat) (x1 : Nat) : Statement (.pwrIslFreq x0 x1) := nofun
theorem registerWrite (x0 : Requester) (x1 : Nat) (x2 : Nat) (x3 : BitVec 64) (x4 : Bool) : Statement (.registerWrite x0 x1 x2 x3 x4) := nofun
theorem smbReadHottestTj : Statement .smbReadHottestTj := nofun
theorem smbReadHottestIndex : Statement .smbReadHottestIndex := nofun
theorem smbReadPower : Statement .smbReadPower := nofun
theorem smbReadState : Statement .smbReadState := nofun
theorem smbReadThermalStatus : Statement .smbReadThermalStatus := nofun
theorem smbReadSensorTj (x0 : Nat) : Statement (.smbReadSensorTj x0) := nofun
theorem smbReadRailCurrent (x0 : Nat) : Statement (.smbReadRailCurrent x0) := nofun
theorem smbUnknownCommand (x0 : Nat) (x1 : Nat) : Statement (.smbUnknownCommand x0 x1) := nofun
theorem smbAlertResponse : Statement .smbAlertResponse := nofun
theorem tapReset : Statement .tapReset := nofun
theorem extest (x0 : List Bool) : Statement (.extest x0) := nofun
theorem samplePreload (x0 : List Bool) : Statement (.samplePreload x0) := nofun
theorem idcode : Statement .idcode := nofun
theorem highz : Statement .highz := nofun
theorem clamp : Statement .clamp := nofun
theorem extestPulse (x0 : List Bool) : Statement (.extestPulse x0) := nofun
theorem extestTrain (x0 : List Bool) : Statement (.extestTrain x0) := nofun
theorem dbgSteward : Statement .dbgSteward := nofun
theorem dbgFabric : Statement .dbgFabric := nofun
theorem bypass : Statement .bypass := nofun
theorem apertureTlpArrival (x0 : Nat) (x1 : Nat) (x2 : List Byte) (x3 : Bool) : Statement (.apertureTlpArrival x0 x1 x2 x3) := nofun
theorem pcieLinkUp : Statement .pcieLinkUp := nofun
theorem configurationRequest (x0 : CfgReq) : Statement (.configurationRequest x0) := nofun
theorem delayReqTransmit : Statement .delayReqTransmit := nofun
theorem thermalAlertClears (x0 : Nat) (x1 : Int) : Statement (.thermalAlertClears x0 x1) := nofun
theorem stackTemperatureReport (x0 : Nat) (x1 : Nat) : Statement (.stackTemperatureReport x0 x1) := nofun
theorem dmaFifoLevelPause (x0 : Nat) (x1 : Nat) : Statement (.dmaFifoLevelPause x0 x1) := nofun
theorem stewardCoreWfi (x0 : Nat) : Statement (.stewardCoreWfi x0) := nofun

end Sys2Proof.Laws.Tagged
end

