-- ==== Sys2Proof/Laws/Quiet.lean ====
section
/-!
SUPPORT. What almost no operation touches: the queue, the flash, the fuses and their sensed values, the SMBus address, the
THERMTRIP_N latch, host memory and the loaded image. Beside it, how it goes through record updates and folds.
-/

namespace Sys2Proof.Machine

/-- The quiet part of the state. -/
structure Quiet where
  pending : List Instr
  flash : Tbl Byte
  fuses : Fuses
  sensed : Sensed
  smbAddr : Nat
  tripped : Bool
  host : Tbl Byte
  img : Img

/-- What the entry of PKT into OFF leaves of the image (R467). -/
def Img.kept (i : Img) : Img := { i with rules := [], parser := {} }

/-- The quiet part of a state. -/
def State.quiet (s : State) : Quiet :=
  { pending := s.pending, flash := s.flash, fuses := s.sec.fuses, sensed := s.sec.sensed, smbAddr := s.glb.smbAddr
    tripped := s.pins.thermtrip, host := s.host, img := s.img.kept }

@[simp] theorem quiet_eta (s : State) :
    Quiet.mk s.pending s.flash s.sec.fuses s.sec.sensed s.glb.smbAddr s.pins.thermtrip s.host s.img.kept = s.quiet := rfl

@[simp] theorem quiet_mk (xglb xpins xtherm xtime xflash xflashOp xcfg ximg xsec xfab xrota xptp xing
    xsess xenc xrc xrcCnt xdec xdcx xdcxCnt xdecRedo xpkt xrep xegr xhbm xchip
    xflt xled xisl xirq xmbx xpcie xbar2 xhost xouts xfree xpending) :
    State.quiet (State.mk xglb xpins xtherm xtime xflash xflashOp xcfg ximg xsec xfab xrota xptp xing
      xsess xenc xrc xrcCnt xdec xdcx xdcxCnt xdecRedo xpkt xrep xegr xhbm xchip
      xflt xled xisl xirq xmbx xpcie xbar2 xhost xouts xfree xpending)
      = Quiet.mk xpending xflash xsec.fuses xsec.sensed xglb.smbAddr xpins.thermtrip xhost ximg.kept := rfl

theorem ite_quiet {c : Prop} [Decidable c] {a b : State} {q : Quiet} (ha : a.quiet = q) (hb : b.quiet = q) :
    (if c then a else b).quiet = q := by
  split <;> assumption

theorem quiet_foldl {α : Type} {f : State → α → State} {l : List α} {s : State} {q : Quiet}
    (h : ∀ s a, (f s a).quiet = s.quiet) (h0 : s.quiet = q) : (l.foldl f s).quiet = q := by
  induction l generalizing s with
  | nil => exact h0
  | cons a l ih => exact ih ((h s a).trans h0)

theorem quiet_foldl_fst {α β : Type} {f : State × β → α → State × β} {l : List α} {p : State × β} {q : Quiet}
    (h : ∀ p a, (f p a).1.quiet = p.1.quiet) (h0 : p.1.quiet = q) : (l.foldl f p).1.quiet = q := by
  induction l generalizing p with
  | nil => exact h0
  | cons a l ih => exact ih ((h p a).trans h0)

theorem quiet_foldl_snd {α β : Type} {f : β × State → α → β × State} {l : List α} {p : β × State} {q : Quiet}
    (h : ∀ p a, (f p a).2.quiet = p.2.quiet) (h0 : p.2.quiet = q) : (l.foldl f p).2.quiet = q := by
  induction l generalizing p with
  | nil => exact h0
  | cons a l ih => exact ih ((h p a).trans h0)

end Sys2Proof.Machine
end

