-- ==== Sys2Proof/Laws/QuietOps.lean ====
section
/-!
SUPPORT. One lemma per operation: the quiet part of the state is as before. This file: the shared operations, the packets and the encode side.
-/

namespace Sys2Proof.Machine

set_option linter.unusedTactic false
set_option linter.unreachableTactic false
set_option linter.unusedSimpArgs false

@[simp] theorem State.draw_quiet (s : State) (n : Nat) : (s.draw n).2.quiet = s.quiet := by
  unfold State.draw
  try simp only []
  repeat' (first | with_reducible rfl | (with_reducible apply ite_quiet) | (with_reducible apply quiet_foldl_fst <;> intros)
                 | (with_reducible apply quiet_foldl_snd <;> intros) | (with_reducible apply quiet_foldl <;> intros) | split)
  all_goals (try simp only [apply_ite State.quiet, ite_self])
  all_goals (try simp)
  all_goals (repeat' (first | with_reducible rfl | (with_reducible apply ite_quiet) | (with_reducible apply quiet_foldl_fst <;> intros)
                            | (with_reducible apply quiet_foldl_snd <;> intros) | (with_reducible apply quiet_foldl <;> intros) | split))
  all_goals (try simp)
  all_goals (repeat' (first | with_reducible rfl | (with_reducible apply ite_quiet) | (with_reducible apply quiet_foldl_fst <;> intros)
                            | (with_reducible apply quiet_foldl_snd <;> intros) | (with_reducible apply quiet_foldl <;> intros) | split))
  all_goals (try simp)

@[simp] theorem State.drawBelow_quiet (s : State) (n : Nat) : (s.drawBelow n).2.quiet = s.quiet := by
  unfold State.drawBelow
  try simp only []
  repeat' (first | with_reducible rfl | (with_reducible apply ite_quiet) | (with_reducible apply quiet_foldl_fst <;> intros)
                 | (with_reducible apply quiet_foldl_snd <;> intros) | (with_reducible apply quiet_foldl <;> intros) | split)
  all_goals (try simp only [apply_ite State.quiet, ite_self])
  all_goals (try simp)
  all_goals (repeat' (first | with_reducible rfl | (with_reducible apply ite_quiet) | (with_reducible apply quiet_foldl_fst <;> intros)
                            | (with_reducible apply quiet_foldl_snd <;> intros) | (with_reducible apply quiet_foldl <;> intros) | split))
  all_goals (try simp)
  all_goals (repeat' (first | with_reducible rfl | (with_reducible apply ite_quiet) | (with_reducible apply quiet_foldl_fst <;> intros)
                            | (with_reducible apply quiet_foldl_snd <;> intros) | (with_reducible apply quiet_foldl <;> intros) | split))
  all_goals (try simp)

@[simp] theorem State.setLane_quiet (s : State) (l : Nat) (v : Lane) : (s.setLane l v).quiet = s.quiet := by
  unfold State.setLane
  try simp only []
  repeat' (first | with_reducible rfl | (with_reducible apply ite_quiet) | (with_reducible apply quiet_foldl_fst <;> intros)
                 | (with_reducible apply quiet_foldl_snd <;> intros) | (with_reducible apply quiet_foldl <;> intros) | split)
  all_goals (try simp only [apply_ite State.quiet, ite_self])
  all_goals (try simp)
  all_goals (repeat' (first | with_reducible rfl | (with_reducible apply ite_quiet) | (with_reducible apply quiet_foldl_fst <;> intros)
                            | (with_reducible apply quiet_foldl_snd <;> intros) | (with_reducible apply quiet_foldl <;> intros) | split))
  all_goals (try simp)
  all_goals (repeat' (first | with_reducible rfl | (with_reducible apply ite_quiet) | (with_reducible apply quiet_foldl_fst <;> intros)
                            | (with_reducible apply quiet_foldl_snd <;> intros) | (with_reducible apply quiet_foldl <;> intros) | split))
  all_goals (try simp)

@[simp] theorem State.setDLane_quiet (s : State) (l : Nat) (v : DLane) : (s.setDLane l v).quiet = s.quiet := by
  unfold State.setDLane
  try simp only []
  repeat' (first | with_reducible rfl | (with_reducible apply ite_quiet) | (with_reducible apply quiet_foldl_fst <;> intros)
                 | (with_reducible apply quiet_foldl_snd <;> intros) | (with_reducible apply quiet_foldl <;> intros) | split)
  all_goals (try simp only [apply_ite State.quiet, ite_self])
  all_goals (try simp)
  all_goals (repeat' (first | with_reducible rfl | (with_reducible apply ite_quiet) | (with_reducible apply quiet_foldl_fst <;> intros)
                            | (with_reducible apply quiet_foldl_snd <;> intros) | (with_reducible apply quiet_foldl <;> intros) | split))
  all_goals (try simp)
  all_goals (repeat' (first | with_reducible rfl | (with_reducible apply ite_quiet) | (with_reducible apply quiet_foldl_fst <;> intros)
                            | (with_reducible apply quiet_foldl_snd <;> intros) | (with_reducible apply quiet_foldl <;> intros) | split))
  all_goals (try simp)

@[simp] theorem State.setPart_quiet (s : State) (ch p : Nat) (v : PartSt) : (s.setPart ch p v).quiet = s.quiet := by
  unfold State.setPart
  try simp only []
  repeat' (first | with_reducible rfl | (with_reducible apply ite_quiet) | (with_reducible apply quiet_foldl_fst <;> intros)
                 | (with_reducible apply quiet_foldl_snd <;> intros) | (with_reducible apply quiet_foldl <;> intros) | split)
  all_goals (try simp only [apply_ite State.quiet, ite_self])
  all_goals (try simp)
  all_goals (repeat' (first | with_reducible rfl | (with_reducible apply ite_quiet) | (with_reducible apply quiet_foldl_fst <;> intros)
                            | (with_reducible apply quiet_foldl_snd <;> intros) | (with_reducible apply quiet_foldl <;> intros) | split))
  all_goals (try simp)
  all_goals (repeat' (first | with_reducible rfl | (with_reducible apply ite_quiet) | (with_reducible apply quiet_foldl_fst <;> intros)
                            | (with_reducible apply quiet_foldl_snd <;> intros) | (with_reducible apply quiet_foldl <;> intros) | split))
  all_goals (try simp)

@[simp] theorem State.setSess_quiet (s : State) (ch : Nat) (v : Sess) : (s.setSess ch v).quiet = s.quiet := by
  unfold State.setSess
  try simp only []
  repeat' (first | with_reducible rfl | (with_reducible apply ite_quiet) | (with_reducible apply quiet_foldl_fst <;> intros)
                 | (with_reducible apply quiet_foldl_snd <;> intros) | (with_reducible apply quiet_foldl <;> intros) | split)
  all_goals (try simp only [apply_ite State.quiet, ite_self])
  all_goals (try simp)
  all_goals (repeat' (first | with_reducible rfl | (with_reducible apply ite_quiet) | (with_reducible apply quiet_foldl_fst <;> intros)
                            | (with_reducible apply quiet_foldl_snd <;> intros) | (with_reducible apply quiet_foldl <;> intros) | split))
  all_goals (try simp)
  all_goals (repeat' (first | with_reducible rfl | (with_reducible apply ite_quiet) | (with_reducible apply quiet_foldl_fst <;> intros)
                            | (with_reducible apply quiet_foldl_snd <;> intros) | (with_reducible apply quiet_foldl <;> intros) | split))
  all_goals (try simp)

@[simp] theorem State.setRc_quiet (s : State) (ch : Nat) (v : Rc) : (s.setRc ch v).quiet = s.quiet := by
  unfold State.setRc
  try simp only []
  repeat' (first | with_reducible rfl | (with_reducible apply ite_quiet) | (with_reducible apply quiet_foldl_fst <;> intros)
                 | (with_reducible apply quiet_foldl_snd <;> intros) | (with_reducible apply quiet_foldl <;> intros) | split)
  all_goals (try simp only [apply_ite State.quiet, ite_self])
  all_goals (try simp)
  all_goals (repeat' (first | with_reducible rfl | (with_reducible apply ite_quiet) | (with_reducible apply quiet_foldl_fst <;> intros)
                            | (with_reducible apply quiet_foldl_snd <;> intros) | (with_reducible apply quiet_foldl <;> intros) | split))
  all_goals (try simp)
  all_goals (repeat' (first | with_reducible rfl | (with_reducible apply ite_quiet) | (with_reducible apply quiet_foldl_fst <;> intros)
                            | (with_reducible apply quiet_foldl_snd <;> intros) | (with_reducible apply quiet_foldl <;> intros) | split))
  all_goals (try simp)

@[simp] theorem State.setIng_quiet (s : State) (ch : Nat) (v : IngCh) : (s.setIng ch v).quiet = s.quiet := by
  unfold State.setIng
  try simp only []
  repeat' (first | with_reducible rfl | (with_reducible apply ite_quiet) | (with_reducible apply quiet_foldl_fst <;> intros)
                 | (with_reducible apply quiet_foldl_snd <;> intros) | (with_reducible apply quiet_foldl <;> intros) | split)
  all_goals (try simp only [apply_ite State.quiet, ite_self])
  all_goals (try simp)
  all_goals (repeat' (first | with_reducible rfl | (with_reducible apply ite_quiet) | (with_reducible apply quiet_foldl_fst <;> intros)
                            | (with_reducible apply quiet_foldl_snd <;> intros) | (with_reducible apply quiet_foldl <;> intros) | split))
  all_goals (try simp)
  all_goals (repeat' (first | with_reducible rfl | (with_reducible apply ite_quiet) | (with_reducible apply quiet_foldl_fst <;> intros)
                            | (with_reducible apply quiet_foldl_snd <;> intros) | (with_reducible apply quiet_foldl <;> intros) | split))
  all_goals (try simp)

@[simp] theorem State.setEnc_quiet (s : State) (k : Nat) (v : EncCore) : (s.setEnc k v).quiet = s.quiet := by
  unfold State.setEnc
  try simp only []
  repeat' (first | with_reducible rfl | (with_reducible apply ite_quiet) | (with_reducible apply quiet_foldl_fst <;> intros)
                 | (with_reducible apply quiet_foldl_snd <;> intros) | (with_reducible apply quiet_foldl <;> intros) | split)
  all_goals (try simp only [apply_ite State.quiet, ite_self])
  all_goals (try simp)
  all_goals (repeat' (first | with_reducible rfl | (with_reducible apply ite_quiet) | (with_reducible apply quiet_foldl_fst <;> intros)
                            | (with_reducible apply quiet_foldl_snd <;> intros) | (with_reducible apply quiet_foldl <;> intros) | split))
  all_goals (try simp)
  all_goals (repeat' (first | with_reducible rfl | (with_reducible apply ite_quiet) | (with_reducible apply quiet_foldl_fst <;> intros)
                            | (with_reducible apply quiet_foldl_snd <;> intros) | (with_reducible apply quiet_foldl <;> intros) | split))
  all_goals (try simp)

@[simp] theorem State.setDec_quiet (s : State) (k : Nat) (v : DecCore) : (s.setDec k v).quiet = s.quiet := by
  unfold State.setDec
  try simp only []
  repeat' (first | with_reducible rfl | (with_reducible apply ite_quiet) | (with_reducible apply quiet_foldl_fst <;> intros)
                 | (with_reducible apply quiet_foldl_snd <;> intros) | (with_reducible apply quiet_foldl <;> intros) | split)
  all_goals (try simp only [apply_ite State.quiet, ite_self])
  all_goals (try simp)
  all_goals (repeat' (first | with_reducible rfl | (with_reducible apply ite_quiet) | (with_reducible apply quiet_foldl_fst <;> intros)
                            | (with_reducible apply quiet_foldl_snd <;> intros) | (with_reducible apply quiet_foldl <;> intros) | split))
  all_goals (try simp)
  all_goals (repeat' (first | with_reducible rfl | (with_reducible apply ite_quiet) | (with_reducible apply quiet_foldl_fst <;> intros)
                            | (with_reducible apply quiet_foldl_snd <;> intros) | (with_reducible apply quiet_foldl <;> intros) | split))
  all_goals (try simp)

@[simp] theorem State.setDcx_quiet (s : State) (n : Nat) (v : Dcx) : (s.setDcx n v).quiet = s.quiet := by
  unfold State.setDcx
  try simp only []
  repeat' (first | with_reducible rfl | (with_reducible apply ite_quiet) | (with_reducible apply quiet_foldl_fst <;> intros)
                 | (with_reducible apply quiet_foldl_snd <;> intros) | (with_reducible apply quiet_foldl <;> intros) | split)
  all_goals (try simp only [apply_ite State.quiet, ite_self])
  all_goals (try simp)
  all_goals (repeat' (first | with_reducible rfl | (with_reducible apply ite_quiet) | (with_reducible apply quiet_foldl_fst <;> intros)
                            | (with_reducible apply quiet_foldl_snd <;> intros) | (with_reducible apply quiet_foldl <;> intros) | split))
  all_goals (try simp)
  all_goals (repeat' (first | with_reducible rfl | (with_reducible apply ite_quiet) | (with_reducible apply quiet_foldl_fst <;> intros)
                            | (with_reducible apply quiet_foldl_snd <;> intros) | (with_reducible apply quiet_foldl <;> intros) | split))
  all_goals (try simp)

@[simp] theorem State.setIsl_quiet (s : State) (n : Nat) (v : Isl) : (s.setIsl n v).quiet = s.quiet := by
  unfold State.setIsl
  try simp only []
  repeat' (first | with_reducible rfl | (with_reducible apply ite_quiet) | (with_reducible apply quiet_foldl_fst <;> intros)
                 | (with_reducible apply quiet_foldl_snd <;> intros) | (with_reducible apply quiet_foldl <;> intros) | split)
  all_goals (try simp only [apply_ite State.quiet, ite_self])
  all_goals (try simp)
  all_goals (repeat' (first | with_reducible rfl | (with_reducible apply ite_quiet) | (with_reducible apply quiet_foldl_fst <;> intros)
                            | (with_reducible apply quiet_foldl_snd <;> intros) | (with_reducible apply quiet_foldl <;> intros) | split))
  all_goals (try simp)
  all_goals (repeat' (first | with_reducible rfl | (with_reducible apply ite_quiet) | (with_reducible apply quiet_foldl_fst <;> intros)
                            | (with_reducible apply quiet_foldl_snd <;> intros) | (with_reducible apply quiet_foldl <;> intros) | split))
  all_goals (try simp)

@[simp] theorem State.setUnit_quiet (s : State) (u : Nat) (v : UnitEnt) : (s.setUnit u v).quiet = s.quiet := by
  unfold State.setUnit
  try simp only []
  repeat' (first | with_reducible rfl | (with_reducible apply ite_quiet) | (with_reducible apply quiet_foldl_fst <;> intros)
                 | (with_reducible apply quiet_foldl_snd <;> intros) | (with_reducible apply quiet_foldl <;> intros) | split)
  all_goals (try simp only [apply_ite State.quiet, ite_self])
  all_goals (try simp)
  all_goals (repeat' (first | with_reducible rfl | (with_reducible apply ite_quiet) | (with_reducible apply quiet_foldl_fst <;> intros)
                            | (with_reducible apply quiet_foldl_snd <;> intros) | (with_reducible apply quiet_foldl <;> intros) | split))
  all_goals (try simp)
  all_goals (repeat' (first | with_reducible rfl | (with_reducible apply ite_quiet) | (with_reducible apply quiet_foldl_fst <;> intros)
                            | (with_reducible apply quiet_foldl_snd <;> intros) | (with_reducible apply quiet_foldl <;> intros) | split))
  all_goals (try simp)

@[simp] theorem State.setStack_quiet (s : State) (k : Nat) (v : Stack) : (s.setStack k v).quiet = s.quiet := by
  unfold State.setStack
  try simp only []
  repeat' (first | with_reducible rfl | (with_reducible apply ite_quiet) | (with_reducible apply quiet_foldl_fst <;> intros)
                 | (with_reducible apply quiet_foldl_snd <;> intros) | (with_reducible apply quiet_foldl <;> intros) | split)
  all_goals (try simp only [apply_ite State.quiet, ite_self])
  all_goals (try simp)
  all_goals (repeat' (first | with_reducible rfl | (with_reducible apply ite_quiet) | (with_reducible apply quiet_foldl_fst <;> intros)
                            | (with_reducible apply quiet_foldl_snd <;> intros) | (with_reducible apply quiet_foldl <;> intros) | split))
  all_goals (try simp)
  all_goals (repeat' (first | with_reducible rfl | (with_reducible apply ite_quiet) | (with_reducible apply quiet_foldl_fst <;> intros)
                            | (with_reducible apply quiet_foldl_snd <;> intros) | (with_reducible apply quiet_foldl <;> intros) | split))
  all_goals (try simp)

@[simp] theorem State.setPc_quiet (s : State) (g : Nat) (v : Pc) : (s.setPc g v).quiet = s.quiet := by
  unfold State.setPc
  try simp only []
  repeat' (first | with_reducible rfl | (with_reducible apply ite_quiet) | (with_reducible apply quiet_foldl_fst <;> intros)
                 | (with_reducible apply quiet_foldl_snd <;> intros) | (with_reducible apply quiet_foldl <;> intros) | split)
  all_goals (try simp only [apply_ite State.quiet, ite_self])
  all_goals (try simp)
  all_goals (repeat' (first | with_reducible rfl | (with_reducible apply ite_quiet) | (with_reducible apply quiet_foldl_fst <;> intros)
                            | (with_reducible apply quiet_foldl_snd <;> intros) | (with_reducible apply quiet_foldl <;> intros) | split))
  all_goals (try simp)
  all_goals (repeat' (first | with_reducible rfl | (with_reducible apply ite_quiet) | (with_reducible apply quiet_foldl_fst <;> intros)
                            | (with_reducible apply quiet_foldl_snd <;> intros) | (with_reducible apply quiet_foldl <;> intros) | split))
  all_goals (try simp)

@[simp] theorem State.setDma_quiet (s : State) (n : Nat) (v : DmaCh) : (s.setDma n v).quiet = s.quiet := by
  unfold State.setDma
  try simp only []
  repeat' (first | with_reducible rfl | (with_reducible apply ite_quiet) | (with_reducible apply quiet_foldl_fst <;> intros)
                 | (with_reducible apply quiet_foldl_snd <;> intros) | (with_reducible apply quiet_foldl <;> intros) | split)
  all_goals (try simp only [apply_ite State.quiet, ite_self])
  all_goals (try simp)
  all_goals (repeat' (first | with_reducible rfl | (with_reducible apply ite_quiet) | (with_reducible apply quiet_foldl_fst <;> intros)
                            | (with_reducible apply quiet_foldl_snd <;> intros) | (with_reducible apply quiet_foldl <;> intros) | split))
  all_goals (try simp)
  all_goals (repeat' (first | with_reducible rfl | (with_reducible apply ite_quiet) | (with_reducible apply quiet_foldl_fst <;> intros)
                            | (with_reducible apply quiet_foldl_snd <;> intros) | (with_reducible apply quiet_foldl <;> intros) | split))
  all_goals (try simp)

@[simp] theorem State.setFifo_quiet (s : State) (f : Nat) (v : Fifo) : (s.setFifo f v).quiet = s.quiet := by
  unfold State.setFifo
  try simp only []
  repeat' (first | with_reducible rfl | (with_reducible apply ite_quiet) | (with_reducible apply quiet_foldl_fst <;> intros)
                 | (with_reducible apply quiet_foldl_snd <;> intros) | (with_reducible apply quiet_foldl <;> intros) | split)
  all_goals (try simp only [apply_ite State.quiet, ite_self])
  all_goals (try simp)
  all_goals (repeat' (first | with_reducible rfl | (with_reducible apply ite_quiet) | (with_reducible apply quiet_foldl_fst <;> intros)
                            | (with_reducible apply quiet_foldl_snd <;> intros) | (with_reducible apply quiet_foldl <;> intros) | split))
  all_goals (try simp)
  all_goals (repeat' (first | with_reducible rfl | (with_reducible apply ite_quiet) | (with_reducible apply quiet_foldl_fst <;> intros)
                            | (with_reducible apply quiet_foldl_snd <;> intros) | (with_reducible apply quiet_foldl <;> intros) | split))
  all_goals (try simp)

@[simp] theorem State.setPe_quiet (s : State) (k : Nat) (v : PeCtx) : (s.setPe k v).quiet = s.quiet := by
  unfold State.setPe
  try simp only []
  repeat' (first | with_reducible rfl | (with_reducible apply ite_quiet) | (with_reducible apply quiet_foldl_fst <;> intros)
                 | (with_reducible apply quiet_foldl_snd <;> intros) | (with_reducible apply quiet_foldl <;> intros) | split)
  all_goals (try simp only [apply_ite State.quiet, ite_self])
  all_goals (try simp)
  all_goals (repeat' (first | with_reducible rfl | (with_reducible apply ite_quiet) | (with_reducible apply quiet_foldl_fst <;> intros)
                            | (with_reducible apply quiet_foldl_snd <;> intros) | (with_reducible apply quiet_foldl <;> intros) | split))
  all_goals (try simp)
  all_goals (repeat' (first | with_reducible rfl | (with_reducible apply ite_quiet) | (with_reducible apply quiet_foldl_fst <;> intros)
                            | (with_reducible apply quiet_foldl_snd <;> intros) | (with_reducible apply quiet_foldl <;> intros) | split))
  all_goals (try simp)

@[simp] theorem State.setBody_quiet (s : State) (h : Nat) (v : Body) : (s.setBody h v).quiet = s.quiet := by
  unfold State.setBody
  try simp only []
  repeat' (first | with_reducible rfl | (with_reducible apply ite_quiet) | (with_reducible apply quiet_foldl_fst <;> intros)
                 | (with_reducible apply quiet_foldl_snd <;> intros) | (with_reducible apply quiet_foldl <;> intros) | split)
  all_goals (try simp only [apply_ite State.quiet, ite_self])
  all_goals (try simp)
  all_goals (repeat' (first | with_reducible rfl | (with_reducible apply ite_quiet) | (with_reducible apply quiet_foldl_fst <;> intros)
                            | (with_reducible apply quiet_foldl_snd <;> intros) | (with_reducible apply quiet_foldl <;> intros) | split))
  all_goals (try simp)
  all_goals (repeat' (first | with_reducible rfl | (with_reducible apply ite_quiet) | (with_reducible apply quiet_foldl_fst <;> intros)
                            | (with_reducible apply quiet_foldl_snd <;> intros) | (with_reducible apply quiet_foldl <;> intros) | split))
  all_goals (try simp)

@[simp] theorem State.setChain_quiet (s : State) (ch : Nat) (v : List Nat) : (s.setChain ch v).quiet = s.quiet := by
  unfold State.setChain
  try simp only []
  repeat' (first | with_reducible rfl | (with_reducible apply ite_quiet) | (with_reducible apply quiet_foldl_fst <;> intros)
                 | (with_reducible apply quiet_foldl_snd <;> intros) | (with_reducible apply quiet_foldl <;> intros) | split)
  all_goals (try simp only [apply_ite State.quiet, ite_self])
  all_goals (try simp)
  all_goals (repeat' (first | with_reducible rfl | (with_reducible apply ite_quiet) | (with_reducible apply quiet_foldl_fst <;> intros)
                            | (with_reducible apply quiet_foldl_snd <;> intros) | (with_reducible apply quiet_foldl <;> intros) | split))
  all_goals (try simp)
  all_goals (repeat' (first | with_reducible rfl | (with_reducible apply ite_quiet) | (with_reducible apply quiet_foldl_fst <;> intros)
                            | (with_reducible apply quiet_foldl_snd <;> intros) | (with_reducible apply quiet_foldl <;> intros) | split))
  all_goals (try simp)

@[simp] theorem State.setPortSt_quiet (s : State) (p : Nat) (v : PortSt) : (s.setPortSt p v).quiet = s.quiet := by
  unfold State.setPortSt
  try simp only []
  repeat' (first | with_reducible rfl | (with_reducible apply ite_quiet) | (with_reducible apply quiet_foldl_fst <;> intros)
                 | (with_reducible apply quiet_foldl_snd <;> intros) | (with_reducible apply quiet_foldl <;> intros) | split)
  all_goals (try simp only [apply_ite State.quiet, ite_self])
  all_goals (try simp)
  all_goals (repeat' (first | with_reducible rfl | (with_reducible apply ite_quiet) | (with_reducible apply quiet_foldl_fst <;> intros)
                            | (with_reducible apply quiet_foldl_snd <;> intros) | (with_reducible apply quiet_foldl <;> intros) | split))
  all_goals (try simp)
  all_goals (repeat' (first | with_reducible rfl | (with_reducible apply ite_quiet) | (with_reducible apply quiet_foldl_fst <;> intros)
                            | (with_reducible apply quiet_foldl_snd <;> intros) | (with_reducible apply quiet_foldl <;> intros) | split))
  all_goals (try simp)

@[simp] theorem State.encCnt_quiet (s : State) (k i n : Nat) : (s.encCnt k i n).quiet = s.quiet := by
  unfold State.encCnt
  try simp only []
  repeat' (first | with_reducible rfl | (with_reducible apply ite_quiet) | (with_reducible apply quiet_foldl_fst <;> intros)
                 | (with_reducible apply quiet_foldl_snd <;> intros) | (with_reducible apply quiet_foldl <;> intros) | split)
  all_goals (try simp only [apply_ite State.quiet, ite_self])
  all_goals (try simp)
  all_goals (repeat' (first | with_reducible rfl | (with_reducible apply ite_quiet) | (with_reducible apply quiet_foldl_fst <;> intros)
                            | (with_reducible apply quiet_foldl_snd <;> intros) | (with_reducible apply quiet_foldl <;> intros) | split))
  all_goals (try simp)
  all_goals (repeat' (first | with_reducible rfl | (with_reducible apply ite_quiet) | (with_reducible apply quiet_foldl_fst <;> intros)
                            | (with_reducible apply quiet_foldl_snd <;> intros) | (with_reducible apply quiet_foldl <;> intros) | split))
  all_goals (try simp)

@[simp] theorem State.decCnt_quiet (s : State) (k i n : Nat) : (s.decCnt k i n).quiet = s.quiet := by
  unfold State.decCnt
  try simp only []
  repeat' (first | with_reducible rfl | (with_reducible apply ite_quiet) | (with_reducible apply quiet_foldl_fst <;> intros)
                 | (with_reducible apply quiet_foldl_snd <;> intros) | (with_reducible apply quiet_foldl <;> intros) | split)
  all_goals (try simp only [apply_ite State.quiet, ite_self])
  all_goals (try simp)
  all_goals (repeat' (first | with_reducible rfl | (with_reducible apply ite_quiet) | (with_reducible apply quiet_foldl_fst <;> intros)
                            | (with_reducible apply quiet_foldl_snd <;> intros) | (with_reducible apply quiet_foldl <;> intros) | split))
  all_goals (try simp)
  all_goals (repeat' (first | with_reducible rfl | (with_reducible apply ite_quiet) | (with_reducible apply quiet_foldl_fst <;> intros)
                            | (with_reducible apply quiet_foldl_snd <;> intros) | (with_reducible apply quiet_foldl <;> intros) | split))
  all_goals (try simp)

@[simp] theorem State.rcCount_quiet (s : State) (ch p i n : Nat) : (s.rcCount ch p i n).quiet = s.quiet := by
  unfold State.rcCount
  try simp only []
  repeat' (first | with_reducible rfl | (with_reducible apply ite_quiet) | (with_reducible apply quiet_foldl_fst <;> intros)
                 | (with_reducible apply quiet_foldl_snd <;> intros) | (with_reducible apply quiet_foldl <;> intros) | split)
  all_goals (try simp only [apply_ite State.quiet, ite_self])
  all_goals (try simp)
  all_goals (repeat' (first | with_reducible rfl | (with_reducible apply ite_quiet) | (with_reducible apply quiet_foldl_fst <;> intros)
                            | (with_reducible apply quiet_foldl_snd <;> intros) | (with_reducible apply quiet_foldl <;> intros) | split))
  all_goals (try simp)
  all_goals (repeat' (first | with_reducible rfl | (with_reducible apply ite_quiet) | (with_reducible apply quiet_foldl_fst <;> intros)
                            | (with_reducible apply quiet_foldl_snd <;> intros) | (with_reducible apply quiet_foldl <;> intros) | split))
  all_goals (try simp)

@[simp] theorem State.dcxCount_quiet (s : State) (x i n : Nat) : (s.dcxCount x i n).quiet = s.quiet := by
  unfold State.dcxCount
  try simp only []
  repeat' (first | with_reducible rfl | (with_reducible apply ite_quiet) | (with_reducible apply quiet_foldl_fst <;> intros)
                 | (with_reducible apply quiet_foldl_snd <;> intros) | (with_reducible apply quiet_foldl <;> intros) | split)
  all_goals (try simp only [apply_ite State.quiet, ite_self])
  all_goals (try simp)
  all_goals (repeat' (first | with_reducible rfl | (with_reducible apply ite_quiet) | (with_reducible apply quiet_foldl_fst <;> intros)
                            | (with_reducible apply quiet_foldl_snd <;> intros) | (with_reducible apply quiet_foldl <;> intros) | split))
  all_goals (try simp)
  all_goals (repeat' (first | with_reducible rfl | (with_reducible apply ite_quiet) | (with_reducible apply quiet_foldl_fst <;> intros)
                            | (with_reducible apply quiet_foldl_snd <;> intros) | (with_reducible apply quiet_foldl <;> intros) | split))
  all_goals (try simp)

@[simp] theorem State.pktCount_quiet (s : State) (i n : Nat) : (s.pktCount i n).quiet = s.quiet := by
  unfold State.pktCount
  try simp only []
  repeat' (first | with_reducible rfl | (with_reducible apply ite_quiet) | (with_reducible apply quiet_foldl_fst <;> intros)
                 | (with_reducible apply quiet_foldl_snd <;> intros) | (with_reducible apply quiet_foldl <;> intros) | split)
  all_goals (try simp only [apply_ite State.quiet, ite_self])
  all_goals (try simp)
  all_goals (repeat' (first | with_reducible rfl | (with_reducible apply ite_quiet) | (with_reducible apply quiet_foldl_fst <;> intros)
                            | (with_reducible apply quiet_foldl_snd <;> intros) | (with_reducible apply quiet_foldl <;> intros) | split))
  all_goals (try simp)
  all_goals (repeat' (first | with_reducible rfl | (with_reducible apply ite_quiet) | (with_reducible apply quiet_foldl_fst <;> intros)
                            | (with_reducible apply quiet_foldl_snd <;> intros) | (with_reducible apply quiet_foldl <;> intros) | split))
  all_goals (try simp)

@[simp] theorem State.egrCount_quiet (s : State) (p i n : Nat) : (s.egrCount p i n).quiet = s.quiet := by
  unfold State.egrCount
  try simp only []
  repeat' (first | with_reducible rfl | (with_reducible apply ite_quiet) | (with_reducible apply quiet_foldl_fst <;> intros)
                 | (with_reducible apply quiet_foldl_snd <;> intros) | (with_reducible apply quiet_foldl <;> intros) | split)
  all_goals (try simp only [apply_ite State.quiet, ite_self])
  all_goals (try simp)
  all_goals (repeat' (first | with_reducible rfl | (with_reducible apply ite_quiet) | (with_reducible apply quiet_foldl_fst <;> intros)
                            | (with_reducible apply quiet_foldl_snd <;> intros) | (with_reducible apply quiet_foldl <;> intros) | split))
  all_goals (try simp)
  all_goals (repeat' (first | with_reducible rfl | (with_reducible apply ite_quiet) | (with_reducible apply quiet_foldl_fst <;> intros)
                            | (with_reducible apply quiet_foldl_snd <;> intros) | (with_reducible apply quiet_foldl <;> intros) | split))
  all_goals (try simp)

@[simp] theorem State.devCount_quiet (s : State) (i n : Nat) : (s.devCount i n).quiet = s.quiet := by
  unfold State.devCount
  try simp only []
  repeat' (first | with_reducible rfl | (with_reducible apply ite_quiet) | (with_reducible apply quiet_foldl_fst <;> intros)
                 | (with_reducible apply quiet_foldl_snd <;> intros) | (with_reducible apply quiet_foldl <;> intros) | split)
  all_goals (try simp only [apply_ite State.quiet, ite_self])
  all_goals (try simp)
  all_goals (repeat' (first | with_reducible rfl | (with_reducible apply ite_quiet) | (with_reducible apply quiet_foldl_fst <;> intros)
                            | (with_reducible apply quiet_foldl_snd <;> intros) | (with_reducible apply quiet_foldl <;> intros) | split))
  all_goals (try simp)
  all_goals (repeat' (first | with_reducible rfl | (with_reducible apply ite_quiet) | (with_reducible apply quiet_foldl_fst <;> intros)
                            | (with_reducible apply quiet_foldl_snd <;> intros) | (with_reducible apply quiet_foldl <;> intros) | split))
  all_goals (try simp)

@[simp] theorem State.hbmCount_quiet (s : State) (k i n : Nat) : (s.hbmCount k i n).quiet = s.quiet := by
  unfold State.hbmCount
  try simp only []
  repeat' (first | with_reducible rfl | (with_reducible apply ite_quiet) | (with_reducible apply quiet_foldl_fst <;> intros)
                 | (with_reducible apply quiet_foldl_snd <;> intros) | (with_reducible apply quiet_foldl <;> intros) | split)
  all_goals (try simp only [apply_ite State.quiet, ite_self])
  all_goals (try simp)
  all_goals (repeat' (first | with_reducible rfl | (with_reducible apply ite_quiet) | (with_reducible apply quiet_foldl_fst <;> intros)
                            | (with_reducible apply quiet_foldl_snd <;> intros) | (with_reducible apply quiet_foldl <;> intros) | split))
  all_goals (try simp)
  all_goals (repeat' (first | with_reducible rfl | (with_reducible apply ite_quiet) | (with_reducible apply quiet_foldl_fst <;> intros)
                            | (with_reducible apply quiet_foldl_snd <;> intros) | (with_reducible apply quiet_foldl <;> intros) | split))
  all_goals (try simp)

@[simp] theorem State.ingDrop_quiet (s : State) (i : Nat) : (s.ingDrop i).quiet = s.quiet := by
  unfold State.ingDrop
  try simp only []
  repeat' (first | with_reducible rfl | (with_reducible apply ite_quiet) | (with_reducible apply quiet_foldl_fst <;> intros)
                 | (with_reducible apply quiet_foldl_snd <;> intros) | (with_reducible apply quiet_foldl <;> intros) | split)
  all_goals (try simp only [apply_ite State.quiet, ite_self])
  all_goals (try simp)
  all_goals (repeat' (first | with_reducible rfl | (with_reducible apply ite_quiet) | (with_reducible apply quiet_foldl_fst <;> intros)
                            | (with_reducible apply quiet_foldl_snd <;> intros) | (with_reducible apply quiet_foldl <;> intros) | split))
  all_goals (try simp)
  all_goals (repeat' (first | with_reducible rfl | (with_reducible apply ite_quiet) | (with_reducible apply quiet_foldl_fst <;> intros)
                            | (with_reducible apply quiet_foldl_snd <;> intros) | (with_reducible apply quiet_foldl <;> intros) | split))
  all_goals (try simp)

@[simp] theorem State.addSkipped_quiet (s : State) (ch n : Nat) : (s.addSkipped ch n).quiet = s.quiet := by
  unfold State.addSkipped
  try simp only []
  repeat' (first | with_reducible rfl | (with_reducible apply ite_quiet) | (with_reducible apply quiet_foldl_fst <;> intros)
                 | (with_reducible apply quiet_foldl_snd <;> intros) | (with_reducible apply quiet_foldl <;> intros) | split)
  all_goals (try simp only [apply_ite State.quiet, ite_self])
  all_goals (try simp)
  all_goals (repeat' (first | with_reducible rfl | (with_reducible apply ite_quiet) | (with_reducible apply quiet_foldl_fst <;> intros)
                            | (with_reducible apply quiet_foldl_snd <;> intros) | (with_reducible apply quiet_foldl <;> intros) | split))
  all_goals (try simp)
  all_goals (repeat' (first | with_reducible rfl | (with_reducible apply ite_quiet) | (with_reducible apply quiet_foldl_fst <;> intros)
                            | (with_reducible apply quiet_foldl_snd <;> intros) | (with_reducible apply quiet_foldl <;> intros) | split))
  all_goals (try simp)

@[simp] theorem State.timeTo_quiet (s : State) (t : Nat) : (s.timeTo t).quiet = s.quiet := by
  unfold State.timeTo
  try simp only []
  repeat' (first | with_reducible rfl | (with_reducible apply ite_quiet) | (with_reducible apply quiet_foldl_fst <;> intros)
                 | (with_reducible apply quiet_foldl_snd <;> intros) | (with_reducible apply quiet_foldl <;> intros) | split)
  all_goals (try simp only [apply_ite State.quiet, ite_self])
  all_goals (try simp)
  all_goals (repeat' (first | with_reducible rfl | (with_reducible apply ite_quiet) | (with_reducible apply quiet_foldl_fst <;> intros)
                            | (with_reducible apply quiet_foldl_snd <;> intros) | (with_reducible apply quiet_foldl <;> intros) | split))
  all_goals (try simp)
  all_goals (repeat' (first | with_reducible rfl | (with_reducible apply ite_quiet) | (with_reducible apply quiet_foldl_fst <;> intros)
                            | (with_reducible apply quiet_foldl_snd <;> intros) | (with_reducible apply quiet_foldl <;> intros) | split))
  all_goals (try simp)

@[simp] theorem State.reach_quiet (s : State) (slotAbs : Int) : (s.reach slotAbs).quiet = s.quiet := by
  unfold State.reach
  try simp only []
  repeat' (first | with_reducible rfl | (with_reducible apply ite_quiet) | (with_reducible apply quiet_foldl_fst <;> intros)
                 | (with_reducible apply quiet_foldl_snd <;> intros) | (with_reducible apply quiet_foldl <;> intros) | split)
  all_goals (try simp only [apply_ite State.quiet, ite_self])
  all_goals (try simp)
  all_goals (repeat' (first | with_reducible rfl | (with_reducible apply ite_quiet) | (with_reducible apply quiet_foldl_fst <;> intros)
                            | (with_reducible apply quiet_foldl_snd <;> intros) | (with_reducible apply quiet_foldl <;> intros) | split))
  all_goals (try simp)
  all_goals (repeat' (first | with_reducible rfl | (with_reducible apply ite_quiet) | (with_reducible apply quiet_foldl_fst <;> intros)
                            | (with_reducible apply quiet_foldl_snd <;> intros) | (with_reducible apply quiet_foldl <;> intros) | split))
  all_goals (try simp)

@[simp] theorem State.setIrqSrc_quiet (s : State) (n : Nat) (v : IrqSrc) : (s.setIrqSrc n v).quiet = s.quiet := by
  unfold State.setIrqSrc
  try simp only []
  repeat' (first | with_reducible rfl | (with_reducible apply ite_quiet) | (with_reducible apply quiet_foldl_fst <;> intros)
                 | (with_reducible apply quiet_foldl_snd <;> intros) | (with_reducible apply quiet_foldl <;> intros) | split)
  all_goals (try simp only [apply_ite State.quiet, ite_self])
  all_goals (try simp)
  all_goals (repeat' (first | with_reducible rfl | (with_reducible apply ite_quiet) | (with_reducible apply quiet_foldl_fst <;> intros)
                            | (with_reducible apply quiet_foldl_snd <;> intros) | (with_reducible apply quiet_foldl <;> intros) | split))
  all_goals (try simp)
  all_goals (repeat' (first | with_reducible rfl | (with_reducible apply ite_quiet) | (with_reducible apply quiet_foldl_fst <;> intros)
                            | (with_reducible apply quiet_foldl_snd <;> intros) | (with_reducible apply quiet_foldl <;> intros) | split))
  all_goals (try simp)

@[simp] theorem State.setIrqTgt_quiet (s : State) (t : Nat) (v : IrqTgt) : (s.setIrqTgt t v).quiet = s.quiet := by
  unfold State.setIrqTgt
  try simp only []
  repeat' (first | with_reducible rfl | (with_reducible apply ite_quiet) | (with_reducible apply quiet_foldl_fst <;> intros)
                 | (with_reducible apply quiet_foldl_snd <;> intros) | (with_reducible apply quiet_foldl <;> intros) | split)
  all_goals (try simp only [apply_ite State.quiet, ite_self])
  all_goals (try simp)
  all_goals (repeat' (first | with_reducible rfl | (with_reducible apply ite_quiet) | (with_reducible apply quiet_foldl_fst <;> intros)
                            | (with_reducible apply quiet_foldl_snd <;> intros) | (with_reducible apply quiet_foldl <;> intros) | split))
  all_goals (try simp)
  all_goals (repeat' (first | with_reducible rfl | (with_reducible apply ite_quiet) | (with_reducible apply quiet_foldl_fst <;> intros)
                            | (with_reducible apply quiet_foldl_snd <;> intros) | (with_reducible apply quiet_foldl <;> intros) | split))
  all_goals (try simp)

@[simp] theorem State.hostCpl_quiet (s : State) (n : Nat) : (s.hostCpl n).quiet = s.quiet := by
  unfold State.hostCpl
  try simp only []
  repeat' (first | with_reducible rfl | (with_reducible apply ite_quiet) | (with_reducible apply quiet_foldl_fst <;> intros)
                 | (with_reducible apply quiet_foldl_snd <;> intros) | (with_reducible apply quiet_foldl <;> intros) | split)
  all_goals (try simp only [apply_ite State.quiet, ite_self])
  all_goals (try simp)
  all_goals (repeat' (first | with_reducible rfl | (with_reducible apply ite_quiet) | (with_reducible apply quiet_foldl_fst <;> intros)
                            | (with_reducible apply quiet_foldl_snd <;> intros) | (with_reducible apply quiet_foldl <;> intros) | split))
  all_goals (try simp)
  all_goals (repeat' (first | with_reducible rfl | (with_reducible apply ite_quiet) | (with_reducible apply quiet_foldl_fst <;> intros)
                            | (with_reducible apply quiet_foldl_snd <;> intros) | (with_reducible apply quiet_foldl <;> intros) | split))
  all_goals (try simp)

@[simp] theorem State.unreached_quiet (s : State) (n : Nat) : (s.unreached n).quiet = s.quiet := by
  unfold State.unreached
  try simp only []
  repeat' (first | with_reducible rfl | (with_reducible apply ite_quiet) | (with_reducible apply quiet_foldl_fst <;> intros)
                 | (with_reducible apply quiet_foldl_snd <;> intros) | (with_reducible apply quiet_foldl <;> intros) | split)
  all_goals (try simp only [apply_ite State.quiet, ite_self])
  all_goals (try simp)
  all_goals (repeat' (first | with_reducible rfl | (with_reducible apply ite_quiet) | (with_reducible apply quiet_foldl_fst <;> intros)
                            | (with_reducible apply quiet_foldl_snd <;> intros) | (with_reducible apply quiet_foldl <;> intros) | split))
  all_goals (try simp)
  all_goals (repeat' (first | with_reducible rfl | (with_reducible apply ite_quiet) | (with_reducible apply quiet_foldl_fst <;> intros)
                            | (with_reducible apply quiet_foldl_snd <;> intros) | (with_reducible apply quiet_foldl <;> intros) | split))
  all_goals (try simp)

@[simp] theorem State.irqEvent_quiet (s : State) (n : Nat) : (s.irqEvent n).quiet = s.quiet := by
  unfold State.irqEvent
  try simp only []
  repeat' (first | with_reducible rfl | (with_reducible apply ite_quiet) | (with_reducible apply quiet_foldl_fst <;> intros)
                 | (with_reducible apply quiet_foldl_snd <;> intros) | (with_reducible apply quiet_foldl <;> intros) | split)
  all_goals (try simp only [apply_ite State.quiet, ite_self])
  all_goals (try simp)
  all_goals (repeat' (first | with_reducible rfl | (with_reducible apply ite_quiet) | (with_reducible apply quiet_foldl_fst <;> intros)
                            | (with_reducible apply quiet_foldl_snd <;> intros) | (with_reducible apply quiet_foldl <;> intros) | split))
  all_goals (try simp)
  all_goals (repeat' (first | with_reducible rfl | (with_reducible apply ite_quiet) | (with_reducible apply quiet_foldl_fst <;> intros)
                            | (with_reducible apply quiet_foldl_snd <;> intros) | (with_reducible apply quiet_foldl <;> intros) | split))
  all_goals (try simp)

@[simp] theorem State.putCpl_quiet (s : State) (c : Cpl) : (s.putCpl c).quiet = s.quiet := by
  unfold State.putCpl
  try simp only []
  repeat' (first | with_reducible rfl | (with_reducible apply ite_quiet) | (with_reducible apply quiet_foldl_fst <;> intros)
                 | (with_reducible apply quiet_foldl_snd <;> intros) | (with_reducible apply quiet_foldl <;> intros) | split)
  all_goals (try simp only [apply_ite State.quiet, ite_self])
  all_goals (try simp)
  all_goals (repeat' (first | with_reducible rfl | (with_reducible apply ite_quiet) | (with_reducible apply quiet_foldl_fst <;> intros)
                            | (with_reducible apply quiet_foldl_snd <;> intros) | (with_reducible apply quiet_foldl <;> intros) | split))
  all_goals (try simp)
  all_goals (repeat' (first | with_reducible rfl | (with_reducible apply ite_quiet) | (with_reducible apply quiet_foldl_fst <;> intros)
                            | (with_reducible apply quiet_foldl_snd <;> intros) | (with_reducible apply quiet_foldl <;> intros) | split))
  all_goals (try simp)

@[simp] theorem State.post_quiet (s : State) (c : Cpl) : (s.post c).quiet = s.quiet := by
  unfold State.post
  try simp only []
  repeat' (first | with_reducible rfl | (with_reducible apply ite_quiet) | (with_reducible apply quiet_foldl_fst <;> intros)
                 | (with_reducible apply quiet_foldl_snd <;> intros) | (with_reducible apply quiet_foldl <;> intros) | split)
  all_goals (try simp only [apply_ite State.quiet, ite_self])
  all_goals (try simp)
  all_goals (repeat' (first | with_reducible rfl | (with_reducible apply ite_quiet) | (with_reducible apply quiet_foldl_fst <;> intros)
                            | (with_reducible apply quiet_foldl_snd <;> intros) | (with_reducible apply quiet_foldl <;> intros) | split))
  all_goals (try simp)
  all_goals (repeat' (first | with_reducible rfl | (with_reducible apply ite_quiet) | (with_reducible apply quiet_foldl_fst <;> intros)
                            | (with_reducible apply quiet_foldl_snd <;> intros) | (with_reducible apply quiet_foldl <;> intros) | split))
  all_goals (try simp)

@[simp] theorem State.setJobs_quiet (s : State) (jobs : List Job) : (s.setJobs jobs).quiet = s.quiet := by
  unfold State.setJobs
  try simp only []
  repeat' (first | with_reducible rfl | (with_reducible apply ite_quiet) | (with_reducible apply quiet_foldl_fst <;> intros)
                 | (with_reducible apply quiet_foldl_snd <;> intros) | (with_reducible apply quiet_foldl <;> intros) | split)
  all_goals (try simp only [apply_ite State.quiet, ite_self])
  all_goals (try simp)
  all_goals (repeat' (first | with_reducible rfl | (with_reducible apply ite_quiet) | (with_reducible apply quiet_foldl_fst <;> intros)
                            | (with_reducible apply quiet_foldl_snd <;> intros) | (with_reducible apply quiet_foldl <;> intros) | split))
  all_goals (try simp)
  all_goals (repeat' (first | with_reducible rfl | (with_reducible apply ite_quiet) | (with_reducible apply quiet_foldl_fst <;> intros)
                            | (with_reducible apply quiet_foldl_snd <;> intros) | (with_reducible apply quiet_foldl <;> intros) | split))
  all_goals (try simp)

@[simp] theorem State.finish_quiet (s : State) (c : Cpl) (begun : Bool) : (s.finish c begun).quiet = s.quiet := by
  unfold State.finish
  try simp only []
  repeat' (first | with_reducible rfl | (with_reducible apply ite_quiet) | (with_reducible apply quiet_foldl_fst <;> intros)
                 | (with_reducible apply quiet_foldl_snd <;> intros) | (with_reducible apply quiet_foldl <;> intros) | split)
  all_goals (try simp only [apply_ite State.quiet, ite_self])
  all_goals (try simp)
  all_goals (repeat' (first | with_reducible rfl | (with_reducible apply ite_quiet) | (with_reducible apply quiet_foldl_fst <;> intros)
                            | (with_reducible apply quiet_foldl_snd <;> intros) | (with_reducible apply quiet_foldl <;> intros) | split))
  all_goals (try simp)
  all_goals (repeat' (first | with_reducible rfl | (with_reducible apply ite_quiet) | (with_reducible apply quiet_foldl_fst <;> intros)
                            | (with_reducible apply quiet_foldl_snd <;> intros) | (with_reducible apply quiet_foldl <;> intros) | split))
  all_goals (try simp)

@[simp] theorem State.complete_quiet (s : State) (h : CmdHdr) (st : Status) (res0 : Nat) : (s.complete h st res0).quiet = s.quiet := by
  unfold State.complete
  try simp only []
  repeat' (first | with_reducible rfl | (with_reducible apply ite_quiet) | (with_reducible apply quiet_foldl_fst <;> intros)
                 | (with_reducible apply quiet_foldl_snd <;> intros) | (with_reducible apply quiet_foldl <;> intros) | split)
  all_goals (try simp only [apply_ite State.quiet, ite_self])
  all_goals (try simp)
  all_goals (repeat' (first | with_reducible rfl | (with_reducible apply ite_quiet) | (with_reducible apply quiet_foldl_fst <;> intros)
                            | (with_reducible apply quiet_foldl_snd <;> intros) | (with_reducible apply quiet_foldl <;> intros) | split))
  all_goals (try simp)
  all_goals (repeat' (first | with_reducible rfl | (with_reducible apply ite_quiet) | (with_reducible apply quiet_foldl_fst <;> intros)
                            | (with_reducible apply quiet_foldl_snd <;> intros) | (with_reducible apply quiet_foldl <;> intros) | split))
  all_goals (try simp)

@[simp] theorem State.completeJob_quiet (s : State) (h : CmdHdr) (st : Status) : (s.completeJob h st).quiet = s.quiet := by
  unfold State.completeJob
  try simp only []
  repeat' (first | with_reducible rfl | (with_reducible apply ite_quiet) | (with_reducible apply quiet_foldl_fst <;> intros)
                 | (with_reducible apply quiet_foldl_snd <;> intros) | (with_reducible apply quiet_foldl <;> intros) | split)
  all_goals (try simp only [apply_ite State.quiet, ite_self])
  all_goals (try simp)
  all_goals (repeat' (first | with_reducible rfl | (with_reducible apply ite_quiet) | (with_reducible apply quiet_foldl_fst <;> intros)
                            | (with_reducible apply quiet_foldl_snd <;> intros) | (with_reducible apply quiet_foldl <;> intros) | split))
  all_goals (try simp)
  all_goals (repeat' (first | with_reducible rfl | (with_reducible apply ite_quiet) | (with_reducible apply quiet_foldl_fst <;> intros)
                            | (with_reducible apply quiet_foldl_snd <;> intros) | (with_reducible apply quiet_foldl <;> intros) | split))
  all_goals (try simp)

@[simp] theorem State.fetchOne_quiet (s : State) : (s.fetchOne).quiet = s.quiet := by
  unfold State.fetchOne
  try simp only []
  repeat' (first | with_reducible rfl | (with_reducible apply ite_quiet) | (with_reducible apply quiet_foldl_fst <;> intros)
                 | (with_reducible apply quiet_foldl_snd <;> intros) | (with_reducible apply quiet_foldl <;> intros) | split)
  all_goals (try simp only [apply_ite State.quiet, ite_self])
  all_goals (try simp)
  all_goals (repeat' (first | with_reducible rfl | (with_reducible apply ite_quiet) | (with_reducible apply quiet_foldl_fst <;> intros)
                            | (with_reducible apply quiet_foldl_snd <;> intros) | (with_reducible apply quiet_foldl <;> intros) | split))
  all_goals (try simp)
  all_goals (repeat' (first | with_reducible rfl | (with_reducible apply ite_quiet) | (with_reducible apply quiet_foldl_fst <;> intros)
                            | (with_reducible apply quiet_foldl_snd <;> intros) | (with_reducible apply quiet_foldl <;> intros) | split))
  all_goals (try simp)

@[simp] theorem State.fetchUpTo_quiet (n : Nat) (s : State) : (State.fetchUpTo n s).quiet = s.quiet := by
  induction n generalizing s with
  | zero => rfl
  | succ n ih => unfold State.fetchUpTo; split <;> simp [ih]

@[simp] theorem State.fetch_quiet (s : State) : (s.fetch).quiet = s.quiet := by
  unfold State.fetch
  try simp only []
  repeat' (first | with_reducible rfl | (with_reducible apply ite_quiet) | (with_reducible apply quiet_foldl_fst <;> intros)
                 | (with_reducible apply quiet_foldl_snd <;> intros) | (with_reducible apply quiet_foldl <;> intros) | split)
  all_goals (try simp only [apply_ite State.quiet, ite_self])
  all_goals (try simp)
  all_goals (repeat' (first | with_reducible rfl | (with_reducible apply ite_quiet) | (with_reducible apply quiet_foldl_fst <;> intros)
                            | (with_reducible apply quiet_foldl_snd <;> intros) | (with_reducible apply quiet_foldl <;> intros) | split))
  all_goals (try simp)
  all_goals (repeat' (first | with_reducible rfl | (with_reducible apply ite_quiet) | (with_reducible apply quiet_foldl_fst <;> intros)
                            | (with_reducible apply quiet_foldl_snd <;> intros) | (with_reducible apply quiet_foldl <;> intros) | split))
  all_goals (try simp)

@[simp] theorem State.granWrite_quiet (s : State) (a : Nat) (bs : List Byte) : (s.granWrite a bs).quiet = s.quiet := by
  unfold State.granWrite
  try simp only []
  repeat' (first | with_reducible rfl | (with_reducible apply ite_quiet) | (with_reducible apply quiet_foldl_fst <;> intros)
                 | (with_reducible apply quiet_foldl_snd <;> intros) | (with_reducible apply quiet_foldl <;> intros) | split)
  all_goals (try simp only [apply_ite State.quiet, ite_self])
  all_goals (try simp)
  all_goals (repeat' (first | with_reducible rfl | (with_reducible apply ite_quiet) | (with_reducible apply quiet_foldl_fst <;> intros)
                            | (with_reducible apply quiet_foldl_snd <;> intros) | (with_reducible apply quiet_foldl <;> intros) | split))
  all_goals (try simp)
  all_goals (repeat' (first | with_reducible rfl | (with_reducible apply ite_quiet) | (with_reducible apply quiet_foldl_fst <;> intros)
                            | (with_reducible apply quiet_foldl_snd <;> intros) | (with_reducible apply quiet_foldl <;> intros) | split))
  all_goals (try simp)

@[simp] theorem State.chipWrite_quiet (s : State) (a : Nat) (bs : List Byte) : (s.chipWrite a bs).quiet = s.quiet := by
  unfold State.chipWrite
  try simp only []
  repeat' (first | with_reducible rfl | (with_reducible apply ite_quiet) | (with_reducible apply quiet_foldl_fst <;> intros)
                 | (with_reducible apply quiet_foldl_snd <;> intros) | (with_reducible apply quiet_foldl <;> intros) | split)
  all_goals (try simp only [apply_ite State.quiet, ite_self])
  all_goals (try simp)
  all_goals (repeat' (first | with_reducible rfl | (with_reducible apply ite_quiet) | (with_reducible apply quiet_foldl_fst <;> intros)
                            | (with_reducible apply quiet_foldl_snd <;> intros) | (with_reducible apply quiet_foldl <;> intros) | split))
  all_goals (try simp)
  all_goals (repeat' (first | with_reducible rfl | (with_reducible apply ite_quiet) | (with_reducible apply quiet_foldl_fst <;> intros)
                            | (with_reducible apply quiet_foldl_snd <;> intros) | (with_reducible apply quiet_foldl <;> intros) | split))
  all_goals (try simp)

@[simp] theorem State.ramWrite_quiet (s : State) (al a : Nat) (bs : List Byte) : (s.ramWrite al a bs).quiet = s.quiet := by
  unfold State.ramWrite
  try simp only []
  repeat' (first | with_reducible rfl | (with_reducible apply ite_quiet) | (with_reducible apply quiet_foldl_fst <;> intros)
                 | (with_reducible apply quiet_foldl_snd <;> intros) | (with_reducible apply quiet_foldl <;> intros) | split)
  all_goals (try simp only [apply_ite State.quiet, ite_self])
  all_goals (try simp)
  all_goals (repeat' (first | with_reducible rfl | (with_reducible apply ite_quiet) | (with_reducible apply quiet_foldl_fst <;> intros)
                            | (with_reducible apply quiet_foldl_snd <;> intros) | (with_reducible apply quiet_foldl <;> intros) | split))
  all_goals (try simp)
  all_goals (repeat' (first | with_reducible rfl | (with_reducible apply ite_quiet) | (with_reducible apply quiet_foldl_fst <;> intros)
                            | (with_reducible apply quiet_foldl_snd <;> intros) | (with_reducible apply quiet_foldl <;> intros) | split))
  all_goals (try simp)

@[simp] theorem State.clearSpad_quiet (s : State) (a n : Nat) : (s.clearSpad a n).quiet = s.quiet := by
  unfold State.clearSpad
  try simp only []
  repeat' (first | with_reducible rfl | (with_reducible apply ite_quiet) | (with_reducible apply quiet_foldl_fst <;> intros)
                 | (with_reducible apply quiet_foldl_snd <;> intros) | (with_reducible apply quiet_foldl <;> intros) | split)
  all_goals (try simp only [apply_ite State.quiet, ite_self])
  all_goals (try simp)
  all_goals (repeat' (first | with_reducible rfl | (with_reducible apply ite_quiet) | (with_reducible apply quiet_foldl_fst <;> intros)
                            | (with_reducible apply quiet_foldl_snd <;> intros) | (with_reducible apply quiet_foldl <;> intros) | split))
  all_goals (try simp)
  all_goals (repeat' (first | with_reducible rfl | (with_reducible apply ite_quiet) | (with_reducible apply quiet_foldl_fst <;> intros)
                            | (with_reducible apply quiet_foldl_snd <;> intros) | (with_reducible apply quiet_foldl <;> intros) | split))
  all_goals (try simp)

@[simp] theorem State.storeExc_quiet (s : State) (slot : Nat) (p : ExcPkt) : (s.storeExc slot p).quiet = s.quiet := by
  unfold State.storeExc
  try simp only []
  repeat' (first | with_reducible rfl | (with_reducible apply ite_quiet) | (with_reducible apply quiet_foldl_fst <;> intros)
                 | (with_reducible apply quiet_foldl_snd <;> intros) | (with_reducible apply quiet_foldl <;> intros) | split)
  all_goals (try simp only [apply_ite State.quiet, ite_self])
  all_goals (try simp)
  all_goals (repeat' (first | with_reducible rfl | (with_reducible apply ite_quiet) | (with_reducible apply quiet_foldl_fst <;> intros)
                            | (with_reducible apply quiet_foldl_snd <;> intros) | (with_reducible apply quiet_foldl <;> intros) | split))
  all_goals (try simp)
  all_goals (repeat' (first | with_reducible rfl | (with_reducible apply ite_quiet) | (with_reducible apply quiet_foldl_fst <;> intros)
                            | (with_reducible apply quiet_foldl_snd <;> intros) | (with_reducible apply quiet_foldl <;> intros) | split))
  all_goals (try simp)

@[simp] theorem State.queueExc_quiet (s : State) (p : ExcPkt) : (s.queueExc p).quiet = s.quiet := by
  unfold State.queueExc
  try simp only []
  repeat' (first | with_reducible rfl | (with_reducible apply ite_quiet) | (with_reducible apply quiet_foldl_fst <;> intros)
                 | (with_reducible apply quiet_foldl_snd <;> intros) | (with_reducible apply quiet_foldl <;> intros) | split)
  all_goals (try simp only [apply_ite State.quiet, ite_self])
  all_goals (try simp)
  all_goals (repeat' (first | with_reducible rfl | (with_reducible apply ite_quiet) | (with_reducible apply quiet_foldl_fst <;> intros)
                            | (with_reducible apply quiet_foldl_snd <;> intros) | (with_reducible apply quiet_foldl <;> intros) | split))
  all_goals (try simp)
  all_goals (repeat' (first | with_reducible rfl | (with_reducible apply ite_quiet) | (with_reducible apply quiet_foldl_fst <;> intros)
                            | (with_reducible apply quiet_foldl_snd <;> intros) | (with_reducible apply quiet_foldl <;> intros) | split))
  all_goals (try simp)

@[simp] theorem State.packetExc_quiet (s : State) (k r : Nat) (c : PeCtx) : (s.packetExc k r c).quiet = s.quiet := by
  unfold State.packetExc
  try simp only []
  repeat' (first | with_reducible rfl | (with_reducible apply ite_quiet) | (with_reducible apply quiet_foldl_fst <;> intros)
                 | (with_reducible apply quiet_foldl_snd <;> intros) | (with_reducible apply quiet_foldl <;> intros) | split)
  all_goals (try simp only [apply_ite State.quiet, ite_self])
  all_goals (try simp)
  all_goals (repeat' (first | with_reducible rfl | (with_reducible apply ite_quiet) | (with_reducible apply quiet_foldl_fst <;> intros)
                            | (with_reducible apply quiet_foldl_snd <;> intros) | (with_reducible apply quiet_foldl <;> intros) | split))
  all_goals (try simp)
  all_goals (repeat' (first | with_reducible rfl | (with_reducible apply ite_quiet) | (with_reducible apply quiet_foldl_fst <;> intros)
                            | (with_reducible apply quiet_foldl_snd <;> intros) | (with_reducible apply quiet_foldl <;> intros) | split))
  all_goals (try simp)

@[simp] theorem State.sendPfc_quiet (s : State) (p prios quanta : Nat) : (s.sendPfc p prios quanta).quiet = s.quiet := by
  unfold State.sendPfc
  try simp only []
  repeat' (first | with_reducible rfl | (with_reducible apply ite_quiet) | (with_reducible apply quiet_foldl_fst <;> intros)
                 | (with_reducible apply quiet_foldl_snd <;> intros) | (with_reducible apply quiet_foldl <;> intros) | split)
  all_goals (try simp only [apply_ite State.quiet, ite_self])
  all_goals (try simp)
  all_goals (repeat' (first | with_reducible rfl | (with_reducible apply ite_quiet) | (with_reducible apply quiet_foldl_fst <;> intros)
                            | (with_reducible apply quiet_foldl_snd <;> intros) | (with_reducible apply quiet_foldl <;> intros) | split))
  all_goals (try simp)
  all_goals (repeat' (first | with_reducible rfl | (with_reducible apply ite_quiet) | (with_reducible apply quiet_foldl_fst <;> intros)
                            | (with_reducible apply quiet_foldl_snd <;> intros) | (with_reducible apply quiet_foldl <;> intros) | split))
  all_goals (try simp)

@[simp] theorem State.fifoEval_quiet (s : State) (f : Nat) : (s.fifoEval f).quiet = s.quiet := by
  unfold State.fifoEval
  try simp only []
  repeat' (first | with_reducible rfl | (with_reducible apply ite_quiet) | (with_reducible apply quiet_foldl_fst <;> intros)
                 | (with_reducible apply quiet_foldl_snd <;> intros) | (with_reducible apply quiet_foldl <;> intros) | split)
  all_goals (try simp only [apply_ite State.quiet, ite_self])
  all_goals (try simp)
  all_goals (repeat' (first | with_reducible rfl | (with_reducible apply ite_quiet) | (with_reducible apply quiet_foldl_fst <;> intros)
                            | (with_reducible apply quiet_foldl_snd <;> intros) | (with_reducible apply quiet_foldl <;> intros) | split))
  all_goals (try simp)
  all_goals (repeat' (first | with_reducible rfl | (with_reducible apply ite_quiet) | (with_reducible apply quiet_foldl_fst <;> intros)
                            | (with_reducible apply quiet_foldl_snd <;> intros) | (with_reducible apply quiet_foldl <;> intros) | split))
  all_goals (try simp)

@[simp] theorem State.lastPop_quiet (s : State) (f : Nat) (bs : List Byte) : (s.lastPop f bs).quiet = s.quiet := by
  unfold State.lastPop
  try simp only []
  repeat' (first | with_reducible rfl | (with_reducible apply ite_quiet) | (with_reducible apply quiet_foldl_fst <;> intros)
                 | (with_reducible apply quiet_foldl_snd <;> intros) | (with_reducible apply quiet_foldl <;> intros) | split)
  all_goals (try simp only [apply_ite State.quiet, ite_self])
  all_goals (try simp)
  all_goals (repeat' (first | with_reducible rfl | (with_reducible apply ite_quiet) | (with_reducible apply quiet_foldl_fst <;> intros)
                            | (with_reducible apply quiet_foldl_snd <;> intros) | (with_reducible apply quiet_foldl <;> intros) | split))
  all_goals (try simp)
  all_goals (repeat' (first | with_reducible rfl | (with_reducible apply ite_quiet) | (with_reducible apply quiet_foldl_fst <;> intros)
                            | (with_reducible apply quiet_foldl_snd <;> intros) | (with_reducible apply quiet_foldl <;> intros) | split))
  all_goals (try simp)

@[simp] theorem State.popIng_quiet (s : State) (f n : Nat) (bs : List Byte) : (s.popIng f n bs).2.quiet = s.quiet := by
  unfold State.popIng
  try simp only []
  repeat' (first | with_reducible rfl | (with_reducible apply ite_quiet) | (with_reducible apply quiet_foldl_fst <;> intros)
                 | (with_reducible apply quiet_foldl_snd <;> intros) | (with_reducible apply quiet_foldl <;> intros) | split)
  all_goals (try simp only [apply_ite State.quiet, ite_self])
  all_goals (try simp)
  all_goals (repeat' (first | with_reducible rfl | (with_reducible apply ite_quiet) | (with_reducible apply quiet_foldl_fst <;> intros)
                            | (with_reducible apply quiet_foldl_snd <;> intros) | (with_reducible apply quiet_foldl <;> intros) | split))
  all_goals (try simp)
  all_goals (repeat' (first | with_reducible rfl | (with_reducible apply ite_quiet) | (with_reducible apply quiet_foldl_fst <;> intros)
                            | (with_reducible apply quiet_foldl_snd <;> intros) | (with_reducible apply quiet_foldl <;> intros) | split))
  all_goals (try simp)

@[simp] theorem State.popWords_quiet (s : State) (f n : Nat) : (s.popWords f n).2.quiet = s.quiet := by
  unfold State.popWords
  try simp only []
  repeat' (first | with_reducible rfl | (with_reducible apply ite_quiet) | (with_reducible apply quiet_foldl_fst <;> intros)
                 | (with_reducible apply quiet_foldl_snd <;> intros) | (with_reducible apply quiet_foldl <;> intros) | split)
  all_goals (try simp only [apply_ite State.quiet, ite_self])
  all_goals (try simp)
  all_goals (repeat' (first | with_reducible rfl | (with_reducible apply ite_quiet) | (with_reducible apply quiet_foldl_fst <;> intros)
                            | (with_reducible apply quiet_foldl_snd <;> intros) | (with_reducible apply quiet_foldl <;> intros) | split))
  all_goals (try simp)
  all_goals (repeat' (first | with_reducible rfl | (with_reducible apply ite_quiet) | (with_reducible apply quiet_foldl_fst <;> intros)
                            | (with_reducible apply quiet_foldl_snd <;> intros) | (with_reducible apply quiet_foldl <;> intros) | split))
  all_goals (try simp)

@[simp] theorem State.fifoCycle_quiet (s : State) (f : Nat) (c : FifoOps) : (s.fifoCycle f c).quiet = s.quiet := by
  unfold State.fifoCycle
  try simp only []
  repeat' (first | with_reducible rfl | (with_reducible apply ite_quiet) | (with_reducible apply quiet_foldl_fst <;> intros)
                 | (with_reducible apply quiet_foldl_snd <;> intros) | (with_reducible apply quiet_foldl <;> intros) | split)
  all_goals (try simp only [apply_ite State.quiet, ite_self])
  all_goals (try simp)
  all_goals (repeat' (first | with_reducible rfl | (with_reducible apply ite_quiet) | (with_reducible apply quiet_foldl_fst <;> intros)
                            | (with_reducible apply quiet_foldl_snd <;> intros) | (with_reducible apply quiet_foldl <;> intros) | split))
  all_goals (try simp)
  all_goals (repeat' (first | with_reducible rfl | (with_reducible apply ite_quiet) | (with_reducible apply quiet_foldl_fst <;> intros)
                            | (with_reducible apply quiet_foldl_snd <;> intros) | (with_reducible apply quiet_foldl <;> intros) | split))
  all_goals (try simp)

@[simp] theorem State.fifoFlush_quiet (s : State) (f : Nat) (c : FifoOps) : (s.fifoFlush f c).quiet = s.quiet := by
  unfold State.fifoFlush
  try simp only []
  repeat' (first | with_reducible rfl | (with_reducible apply ite_quiet) | (with_reducible apply quiet_foldl_fst <;> intros)
                 | (with_reducible apply quiet_foldl_snd <;> intros) | (with_reducible apply quiet_foldl <;> intros) | split)
  all_goals (try simp only [apply_ite State.quiet, ite_self])
  all_goals (try simp)
  all_goals (repeat' (first | with_reducible rfl | (with_reducible apply ite_quiet) | (with_reducible apply quiet_foldl_fst <;> intros)
                            | (with_reducible apply quiet_foldl_snd <;> intros) | (with_reducible apply quiet_foldl <;> intros) | split))
  all_goals (try simp)
  all_goals (repeat' (first | with_reducible rfl | (with_reducible apply ite_quiet) | (with_reducible apply quiet_foldl_fst <;> intros)
                            | (with_reducible apply quiet_foldl_snd <;> intros) | (with_reducible apply quiet_foldl <;> intros) | split))
  all_goals (try simp)

@[simp] theorem State.dmaBegin_quiet (s : State) (n : Nat) : (s.dmaBegin n).quiet = s.quiet := by
  unfold State.dmaBegin
  try simp only []
  repeat' (first | with_reducible rfl | (with_reducible apply ite_quiet) | (with_reducible apply quiet_foldl_fst <;> intros)
                 | (with_reducible apply quiet_foldl_snd <;> intros) | (with_reducible apply quiet_foldl <;> intros) | split)
  all_goals (try simp only [apply_ite State.quiet, ite_self])
  all_goals (try simp)
  all_goals (repeat' (first | with_reducible rfl | (with_reducible apply ite_quiet) | (with_reducible apply quiet_foldl_fst <;> intros)
                            | (with_reducible apply quiet_foldl_snd <;> intros) | (with_reducible apply quiet_foldl <;> intros) | split))
  all_goals (try simp)
  all_goals (repeat' (first | with_reducible rfl | (with_reducible apply ite_quiet) | (with_reducible apply quiet_foldl_fst <;> intros)
                            | (with_reducible apply quiet_foldl_snd <;> intros) | (with_reducible apply quiet_foldl <;> intros) | split))
  all_goals (try simp)

@[simp] theorem State.dmaMove_quiet (s : State) (n k : Nat) : (s.dmaMove n k).quiet = s.quiet := by
  unfold State.dmaMove
  try simp only []
  repeat' (first | with_reducible rfl | (with_reducible apply ite_quiet) | (with_reducible apply quiet_foldl_fst <;> intros)
                 | (with_reducible apply quiet_foldl_snd <;> intros) | (with_reducible apply quiet_foldl <;> intros) | split)
  all_goals (try simp only [apply_ite State.quiet, ite_self])
  all_goals (try simp)
  all_goals (repeat' (first | with_reducible rfl | (with_reducible apply ite_quiet) | (with_reducible apply quiet_foldl_fst <;> intros)
                            | (with_reducible apply quiet_foldl_snd <;> intros) | (with_reducible apply quiet_foldl <;> intros) | split))
  all_goals (try simp)
  all_goals (repeat' (first | with_reducible rfl | (with_reducible apply ite_quiet) | (with_reducible apply quiet_foldl_fst <;> intros)
                            | (with_reducible apply quiet_foldl_snd <;> intros) | (with_reducible apply quiet_foldl <;> intros) | split))
  all_goals (try simp)

@[simp] theorem State.stacksRest_quiet (s : State) : (s.stacksRest).quiet = s.quiet := by
  unfold State.stacksRest
  try simp only []
  repeat' (first | with_reducible rfl | (with_reducible apply ite_quiet) | (with_reducible apply quiet_foldl_fst <;> intros)
                 | (with_reducible apply quiet_foldl_snd <;> intros) | (with_reducible apply quiet_foldl <;> intros) | split)
  all_goals (try simp only [apply_ite State.quiet, ite_self])
  all_goals (try simp)
  all_goals (repeat' (first | with_reducible rfl | (with_reducible apply ite_quiet) | (with_reducible apply quiet_foldl_fst <;> intros)
                            | (with_reducible apply quiet_foldl_snd <;> intros) | (with_reducible apply quiet_foldl <;> intros) | split))
  all_goals (try simp)
  all_goals (repeat' (first | with_reducible rfl | (with_reducible apply ite_quiet) | (with_reducible apply quiet_foldl_fst <;> intros)
                            | (with_reducible apply quiet_foldl_snd <;> intros) | (with_reducible apply quiet_foldl <;> intros) | split))
  all_goals (try simp)

@[simp] theorem State.swapDenied_quiet (s : State) : (s.swapDenied).quiet = s.quiet := by
  unfold State.swapDenied
  try simp only []
  repeat' (first | with_reducible rfl | (with_reducible apply ite_quiet) | (with_reducible apply quiet_foldl_fst <;> intros)
                 | (with_reducible apply quiet_foldl_snd <;> intros) | (with_reducible apply quiet_foldl <;> intros) | split)
  all_goals (try simp only [apply_ite State.quiet, ite_self])
  all_goals (try simp)
  all_goals (repeat' (first | with_reducible rfl | (with_reducible apply ite_quiet) | (with_reducible apply quiet_foldl_fst <;> intros)
                            | (with_reducible apply quiet_foldl_snd <;> intros) | (with_reducible apply quiet_foldl <;> intros) | split))
  all_goals (try simp)
  all_goals (repeat' (first | with_reducible rfl | (with_reducible apply ite_quiet) | (with_reducible apply quiet_foldl_fst <;> intros)
                            | (with_reducible apply quiet_foldl_snd <;> intros) | (with_reducible apply quiet_foldl <;> intros) | split))
  all_goals (try simp)

@[simp] theorem State.safeState_quiet (s : State) : (s.safeState).quiet = s.quiet := by
  unfold State.safeState
  try simp only []
  repeat' (first | with_reducible rfl | (with_reducible apply ite_quiet) | (with_reducible apply quiet_foldl_fst <;> intros)
                 | (with_reducible apply quiet_foldl_snd <;> intros) | (with_reducible apply quiet_foldl <;> intros) | split)
  all_goals (try simp only [apply_ite State.quiet, ite_self])
  all_goals (try simp)
  all_goals (repeat' (first | with_reducible rfl | (with_reducible apply ite_quiet) | (with_reducible apply quiet_foldl_fst <;> intros)
                            | (with_reducible apply quiet_foldl_snd <;> intros) | (with_reducible apply quiet_foldl <;> intros) | split))
  all_goals (try simp)
  all_goals (repeat' (first | with_reducible rfl | (with_reducible apply ite_quiet) | (with_reducible apply quiet_foldl_fst <;> intros)
                            | (with_reducible apply quiet_foldl_snd <;> intros) | (with_reducible apply quiet_foldl <;> intros) | split))
  all_goals (try simp)

@[simp] theorem State.enterSafe_quiet (s : State) : (s.enterSafe).quiet = s.quiet := by
  unfold State.enterSafe
  try simp only []
  repeat' (first | with_reducible rfl | (with_reducible apply ite_quiet) | (with_reducible apply quiet_foldl_fst <;> intros)
                 | (with_reducible apply quiet_foldl_snd <;> intros) | (with_reducible apply quiet_foldl <;> intros) | split)
  all_goals (try simp only [apply_ite State.quiet, ite_self])
  all_goals (try simp)
  all_goals (repeat' (first | with_reducible rfl | (with_reducible apply ite_quiet) | (with_reducible apply quiet_foldl_fst <;> intros)
                            | (with_reducible apply quiet_foldl_snd <;> intros) | (with_reducible apply quiet_foldl <;> intros) | split))
  all_goals (try simp)
  all_goals (repeat' (first | with_reducible rfl | (with_reducible apply ite_quiet) | (with_reducible apply quiet_foldl_fst <;> intros)
                            | (with_reducible apply quiet_foldl_snd <;> intros) | (with_reducible apply quiet_foldl <;> intros) | split))
  all_goals (try simp)

@[simp] theorem State.fltSticky_quiet (s : State) (n : Nat) : (s.fltSticky n).quiet = s.quiet := by
  unfold State.fltSticky
  try simp only []
  repeat' (first | with_reducible rfl | (with_reducible apply ite_quiet) | (with_reducible apply quiet_foldl_fst <;> intros)
                 | (with_reducible apply quiet_foldl_snd <;> intros) | (with_reducible apply quiet_foldl <;> intros) | split)
  all_goals (try simp only [apply_ite State.quiet, ite_self])
  all_goals (try simp)
  all_goals (repeat' (first | with_reducible rfl | (with_reducible apply ite_quiet) | (with_reducible apply quiet_foldl_fst <;> intros)
                            | (with_reducible apply quiet_foldl_snd <;> intros) | (with_reducible apply quiet_foldl <;> intros) | split))
  all_goals (try simp)
  all_goals (repeat' (first | with_reducible rfl | (with_reducible apply ite_quiet) | (with_reducible apply quiet_foldl_fst <;> intros)
                            | (with_reducible apply quiet_foldl_snd <;> intros) | (with_reducible apply quiet_foldl <;> intros) | split))
  all_goals (try simp)

@[simp] theorem State.fltEscalated_quiet (s : State) : (s.fltEscalated).quiet = s.quiet := by
  unfold State.fltEscalated
  try simp only []
  repeat' (first | with_reducible rfl | (with_reducible apply ite_quiet) | (with_reducible apply quiet_foldl_fst <;> intros)
                 | (with_reducible apply quiet_foldl_snd <;> intros) | (with_reducible apply quiet_foldl <;> intros) | split)
  all_goals (try simp only [apply_ite State.quiet, ite_self])
  all_goals (try simp)
  all_goals (repeat' (first | with_reducible rfl | (with_reducible apply ite_quiet) | (with_reducible apply quiet_foldl_fst <;> intros)
                            | (with_reducible apply quiet_foldl_snd <;> intros) | (with_reducible apply quiet_foldl <;> intros) | split))
  all_goals (try simp)
  all_goals (repeat' (first | with_reducible rfl | (with_reducible apply ite_quiet) | (with_reducible apply quiet_foldl_fst <;> intros)
                            | (with_reducible apply quiet_foldl_snd <;> intros) | (with_reducible apply quiet_foldl <;> intros) | split))
  all_goals (try simp)

@[simp] theorem State.fltNotify_quiet (s : State) (n level : Nat) : (s.fltNotify n level).quiet = s.quiet := by
  unfold State.fltNotify
  try simp only []
  repeat' (first | with_reducible rfl | (with_reducible apply ite_quiet) | (with_reducible apply quiet_foldl_fst <;> intros)
                 | (with_reducible apply quiet_foldl_snd <;> intros) | (with_reducible apply quiet_foldl <;> intros) | split)
  all_goals (try simp only [apply_ite State.quiet, ite_self])
  all_goals (try simp)
  all_goals (repeat' (first | with_reducible rfl | (with_reducible apply ite_quiet) | (with_reducible apply quiet_foldl_fst <;> intros)
                            | (with_reducible apply quiet_foldl_snd <;> intros) | (with_reducible apply quiet_foldl <;> intros) | split))
  all_goals (try simp)
  all_goals (repeat' (first | with_reducible rfl | (with_reducible apply ite_quiet) | (with_reducible apply quiet_foldl_fst <;> intros)
                            | (with_reducible apply quiet_foldl_snd <;> intros) | (with_reducible apply quiet_foldl <;> intros) | split))
  all_goals (try simp)

@[simp] theorem State.react_quiet (s : State) (n : Nat) (u : Option Nat) (held : Bool) (mute : Bool) :
    (s.react n u held mute).2.quiet = s.quiet := by
  unfold State.react
  try simp only []
  repeat' (first | with_reducible rfl | (with_reducible apply ite_quiet) | (with_reducible apply quiet_foldl_fst <;> intros)
                 | (with_reducible apply quiet_foldl_snd <;> intros) | (with_reducible apply quiet_foldl <;> intros) | split)
  all_goals (try simp only [apply_ite State.quiet, ite_self])
  all_goals (try simp)
  all_goals (repeat' (first | with_reducible rfl | (with_reducible apply ite_quiet) | (with_reducible apply quiet_foldl_fst <;> intros)
                            | (with_reducible apply quiet_foldl_snd <;> intros) | (with_reducible apply quiet_foldl <;> intros) | split))
  all_goals (try simp)
  all_goals (repeat' (first | with_reducible rfl | (with_reducible apply ite_quiet) | (with_reducible apply quiet_foldl_fst <;> intros)
                            | (with_reducible apply quiet_foldl_snd <;> intros) | (with_reducible apply quiet_foldl <;> intros) | split))
  all_goals (try simp)

@[simp] theorem State.raiseBasic_quiet (s : State) (n : Nat) : (s.raiseBasic n).quiet = s.quiet := by
  unfold State.raiseBasic
  try simp only []
  repeat' (first | with_reducible rfl | (with_reducible apply ite_quiet) | (with_reducible apply quiet_foldl_fst <;> intros)
                 | (with_reducible apply quiet_foldl_snd <;> intros) | (with_reducible apply quiet_foldl <;> intros) | split)
  all_goals (try simp only [apply_ite State.quiet, ite_self])
  all_goals (try simp)
  all_goals (repeat' (first | with_reducible rfl | (with_reducible apply ite_quiet) | (with_reducible apply quiet_foldl_fst <;> intros)
                            | (with_reducible apply quiet_foldl_snd <;> intros) | (with_reducible apply quiet_foldl <;> intros) | split))
  all_goals (try simp)
  all_goals (repeat' (first | with_reducible rfl | (with_reducible apply ite_quiet) | (with_reducible apply quiet_foldl_fst <;> intros)
                            | (with_reducible apply quiet_foldl_snd <;> intros) | (with_reducible apply quiet_foldl <;> intros) | split))
  all_goals (try simp)

@[simp] theorem State.retire_quiet (s : State) (u src : Nat) : (s.retire u src).quiet = s.quiet := by
  unfold State.retire
  try simp only []
  repeat' (first | with_reducible rfl | (with_reducible apply ite_quiet) | (with_reducible apply quiet_foldl_fst <;> intros)
                 | (with_reducible apply quiet_foldl_snd <;> intros) | (with_reducible apply quiet_foldl <;> intros) | split)
  all_goals (try simp only [apply_ite State.quiet, ite_self])
  all_goals (try simp)
  all_goals (repeat' (first | with_reducible rfl | (with_reducible apply ite_quiet) | (with_reducible apply quiet_foldl_fst <;> intros)
                            | (with_reducible apply quiet_foldl_snd <;> intros) | (with_reducible apply quiet_foldl <;> intros) | split))
  all_goals (try simp)
  all_goals (repeat' (first | with_reducible rfl | (with_reducible apply ite_quiet) | (with_reducible apply quiet_foldl_fst <;> intros)
                            | (with_reducible apply quiet_foldl_snd <;> intros) | (with_reducible apply quiet_foldl <;> intros) | split))
  all_goals (try simp)

@[simp] theorem State.quarantine_quiet (s : State) (u src : Nat) : (s.quarantine u src).quiet = s.quiet := by
  unfold State.quarantine
  try simp only []
  repeat' (first | with_reducible rfl | (with_reducible apply ite_quiet) | (with_reducible apply quiet_foldl_fst <;> intros)
                 | (with_reducible apply quiet_foldl_snd <;> intros) | (with_reducible apply quiet_foldl <;> intros) | split)
  all_goals (try simp only [apply_ite State.quiet, ite_self])
  all_goals (try simp)
  all_goals (repeat' (first | with_reducible rfl | (with_reducible apply ite_quiet) | (with_reducible apply quiet_foldl_fst <;> intros)
                            | (with_reducible apply quiet_foldl_snd <;> intros) | (with_reducible apply quiet_foldl <;> intros) | split))
  all_goals (try simp)
  all_goals (repeat' (first | with_reducible rfl | (with_reducible apply ite_quiet) | (with_reducible apply quiet_foldl_fst <;> intros)
                            | (with_reducible apply quiet_foldl_snd <;> intros) | (with_reducible apply quiet_foldl <;> intros) | split))
  all_goals (try simp)

@[simp] theorem State.countMove_quiet (s : State) (u : Nat) : (s.countMove u).quiet = s.quiet := by
  unfold State.countMove
  try simp only []
  repeat' (first | with_reducible rfl | (with_reducible apply ite_quiet) | (with_reducible apply quiet_foldl_fst <;> intros)
                 | (with_reducible apply quiet_foldl_snd <;> intros) | (with_reducible apply quiet_foldl <;> intros) | split)
  all_goals (try simp only [apply_ite State.quiet, ite_self])
  all_goals (try simp)
  all_goals (repeat' (first | with_reducible rfl | (with_reducible apply ite_quiet) | (with_reducible apply quiet_foldl_fst <;> intros)
                            | (with_reducible apply quiet_foldl_snd <;> intros) | (with_reducible apply quiet_foldl <;> intros) | split))
  all_goals (try simp)
  all_goals (repeat' (first | with_reducible rfl | (with_reducible apply ite_quiet) | (with_reducible apply quiet_foldl_fst <;> intros)
                            | (with_reducible apply quiet_foldl_snd <;> intros) | (with_reducible apply quiet_foldl <;> intros) | split))
  all_goals (try simp)

@[simp] theorem State.setUnitSt_quiet (s : State) (u : Nat) (st : UnitSt) : (s.setUnitSt u st).quiet = s.quiet := by
  unfold State.setUnitSt
  try simp only []
  repeat' (first | with_reducible rfl | (with_reducible apply ite_quiet) | (with_reducible apply quiet_foldl_fst <;> intros)
                 | (with_reducible apply quiet_foldl_snd <;> intros) | (with_reducible apply quiet_foldl <;> intros) | split)
  all_goals (try simp only [apply_ite State.quiet, ite_self])
  all_goals (try simp)
  all_goals (repeat' (first | with_reducible rfl | (with_reducible apply ite_quiet) | (with_reducible apply quiet_foldl_fst <;> intros)
                            | (with_reducible apply quiet_foldl_snd <;> intros) | (with_reducible apply quiet_foldl <;> intros) | split))
  all_goals (try simp)
  all_goals (repeat' (first | with_reducible rfl | (with_reducible apply ite_quiet) | (with_reducible apply quiet_foldl_fst <;> intros)
                            | (with_reducible apply quiet_foldl_snd <;> intros) | (with_reducible apply quiet_foldl <;> intros) | split))
  all_goals (try simp)

@[simp] theorem State.ledgerUnits_quiet (s : State) : (s.ledgerUnits).quiet = s.quiet := by
  unfold State.ledgerUnits
  try simp only []
  repeat' (first | with_reducible rfl | (with_reducible apply ite_quiet) | (with_reducible apply quiet_foldl_fst <;> intros)
                 | (with_reducible apply quiet_foldl_snd <;> intros) | (with_reducible apply quiet_foldl <;> intros) | split)
  all_goals (try simp only [apply_ite State.quiet, ite_self])
  all_goals (try simp)
  all_goals (repeat' (first | with_reducible rfl | (with_reducible apply ite_quiet) | (with_reducible apply quiet_foldl_fst <;> intros)
                            | (with_reducible apply quiet_foldl_snd <;> intros) | (with_reducible apply quiet_foldl <;> intros) | split))
  all_goals (try simp)
  all_goals (repeat' (first | with_reducible rfl | (with_reducible apply ite_quiet) | (with_reducible apply quiet_foldl_fst <;> intros)
                            | (with_reducible apply quiet_foldl_snd <;> intros) | (with_reducible apply quiet_foldl <;> intros) | split))
  all_goals (try simp)

@[simp] theorem State.fabRespond_quiet (s : State) (m : Nat) (err : Bool) (data : List Byte) :
    (s.fabRespond m err data).quiet = s.quiet := by
  unfold State.fabRespond
  try simp only []
  repeat' (first | with_reducible rfl | (with_reducible apply ite_quiet) | (with_reducible apply quiet_foldl_fst <;> intros)
                 | (with_reducible apply quiet_foldl_snd <;> intros) | (with_reducible apply quiet_foldl <;> intros) | split)
  all_goals (try simp only [apply_ite State.quiet, ite_self])
  all_goals (try simp)
  all_goals (repeat' (first | with_reducible rfl | (with_reducible apply ite_quiet) | (with_reducible apply quiet_foldl_fst <;> intros)
                            | (with_reducible apply quiet_foldl_snd <;> intros) | (with_reducible apply quiet_foldl <;> intros) | split))
  all_goals (try simp)
  all_goals (repeat' (first | with_reducible rfl | (with_reducible apply ite_quiet) | (with_reducible apply quiet_foldl_fst <;> intros)
                            | (with_reducible apply quiet_foldl_snd <;> intros) | (with_reducible apply quiet_foldl <;> intros) | split))
  all_goals (try simp)

@[simp] theorem State.fabCancel_quiet (s : State) (m : Nat) : (s.fabCancel m).quiet = s.quiet := by
  unfold State.fabCancel
  try simp only []
  repeat' (first | with_reducible rfl | (with_reducible apply ite_quiet) | (with_reducible apply quiet_foldl_fst <;> intros)
                 | (with_reducible apply quiet_foldl_snd <;> intros) | (with_reducible apply quiet_foldl <;> intros) | split)
  all_goals (try simp only [apply_ite State.quiet, ite_self])
  all_goals (try simp)
  all_goals (repeat' (first | with_reducible rfl | (with_reducible apply ite_quiet) | (with_reducible apply quiet_foldl_fst <;> intros)
                            | (with_reducible apply quiet_foldl_snd <;> intros) | (with_reducible apply quiet_foldl <;> intros) | split))
  all_goals (try simp)
  all_goals (repeat' (first | with_reducible rfl | (with_reducible apply ite_quiet) | (with_reducible apply quiet_foldl_fst <;> intros)
                            | (with_reducible apply quiet_foldl_snd <;> intros) | (with_reducible apply quiet_foldl <;> intros) | split))
  all_goals (try simp)

@[simp] theorem State.putPend_quiet (s : State) (ch p : Nat) (x : ShId) : (s.putPend ch p x).quiet = s.quiet := by
  unfold State.putPend
  try simp only []
  repeat' (first | with_reducible rfl | (with_reducible apply ite_quiet) | (with_reducible apply quiet_foldl_fst <;> intros)
                 | (with_reducible apply quiet_foldl_snd <;> intros) | (with_reducible apply quiet_foldl <;> intros) | split)
  all_goals (try simp only [apply_ite State.quiet, ite_self])
  all_goals (try simp)
  all_goals (repeat' (first | with_reducible rfl | (with_reducible apply ite_quiet) | (with_reducible apply quiet_foldl_fst <;> intros)
                            | (with_reducible apply quiet_foldl_snd <;> intros) | (with_reducible apply quiet_foldl <;> intros) | split))
  all_goals (try simp)
  all_goals (repeat' (first | with_reducible rfl | (with_reducible apply ite_quiet) | (with_reducible apply quiet_foldl_fst <;> intros)
                            | (with_reducible apply quiet_foldl_snd <;> intros) | (with_reducible apply quiet_foldl <;> intros) | split))
  all_goals (try simp)

@[simp] theorem State.coreIdle_quiet (s : State) (k : Nat) (verdict : Option Nat) : (s.coreIdle k verdict).quiet = s.quiet := by
  unfold State.coreIdle
  try simp only []
  repeat' (first | with_reducible rfl | (with_reducible apply ite_quiet) | (with_reducible apply quiet_foldl_fst <;> intros)
                 | (with_reducible apply quiet_foldl_snd <;> intros) | (with_reducible apply quiet_foldl <;> intros) | split)
  all_goals (try simp only [apply_ite State.quiet, ite_self])
  all_goals (try simp)
  all_goals (repeat' (first | with_reducible rfl | (with_reducible apply ite_quiet) | (with_reducible apply quiet_foldl_fst <;> intros)
                            | (with_reducible apply quiet_foldl_snd <;> intros) | (with_reducible apply quiet_foldl <;> intros) | split))
  all_goals (try simp)
  all_goals (repeat' (first | with_reducible rfl | (with_reducible apply ite_quiet) | (with_reducible apply quiet_foldl_fst <;> intros)
                            | (with_reducible apply quiet_foldl_snd <;> intros) | (with_reducible apply quiet_foldl <;> intros) | split))
  all_goals (try simp)

@[simp] theorem State.dropRun_quiet (s : State) (l verdict : Nat) : (s.dropRun l verdict).quiet = s.quiet := by
  unfold State.dropRun
  try simp only []
  repeat' (first | with_reducible rfl | (with_reducible apply ite_quiet) | (with_reducible apply quiet_foldl_fst <;> intros)
                 | (with_reducible apply quiet_foldl_snd <;> intros) | (with_reducible apply quiet_foldl <;> intros) | split)
  all_goals (try simp only [apply_ite State.quiet, ite_self])
  all_goals (try simp)
  all_goals (repeat' (first | with_reducible rfl | (with_reducible apply ite_quiet) | (with_reducible apply quiet_foldl_fst <;> intros)
                            | (with_reducible apply quiet_foldl_snd <;> intros) | (with_reducible apply quiet_foldl <;> intros) | split))
  all_goals (try simp)
  all_goals (repeat' (first | with_reducible rfl | (with_reducible apply ite_quiet) | (with_reducible apply quiet_foldl_fst <;> intros)
                            | (with_reducible apply quiet_foldl_snd <;> intros) | (with_reducible apply quiet_foldl <;> intros) | split))
  all_goals (try simp)

@[simp] theorem State.dropDecRun_quiet (s : State) (l : Nat) : (s.dropDecRun l).quiet = s.quiet := by
  unfold State.dropDecRun
  try simp only []
  repeat' (first | with_reducible rfl | (with_reducible apply ite_quiet) | (with_reducible apply quiet_foldl_fst <;> intros)
                 | (with_reducible apply quiet_foldl_snd <;> intros) | (with_reducible apply quiet_foldl <;> intros) | split)
  all_goals (try simp only [apply_ite State.quiet, ite_self])
  all_goals (try simp)
  all_goals (repeat' (first | with_reducible rfl | (with_reducible apply ite_quiet) | (with_reducible apply quiet_foldl_fst <;> intros)
                            | (with_reducible apply quiet_foldl_snd <;> intros) | (with_reducible apply quiet_foldl <;> intros) | split))
  all_goals (try simp)
  all_goals (repeat' (first | with_reducible rfl | (with_reducible apply ite_quiet) | (with_reducible apply quiet_foldl_fst <;> intros)
                            | (with_reducible apply quiet_foldl_snd <;> intros) | (with_reducible apply quiet_foldl <;> intros) | split))
  all_goals (try simp)

@[simp] theorem State.queueUnit_quiet (s : State) (x len ts : Nat) (loss : Bool) : (s.queueUnit x len ts loss).quiet = s.quiet := by
  unfold State.queueUnit
  try simp only []
  repeat' (first | with_reducible rfl | (with_reducible apply ite_quiet) | (with_reducible apply quiet_foldl_fst <;> intros)
                 | (with_reducible apply quiet_foldl_snd <;> intros) | (with_reducible apply quiet_foldl <;> intros) | split)
  all_goals (try simp only [apply_ite State.quiet, ite_self])
  all_goals (try simp)
  all_goals (repeat' (first | with_reducible rfl | (with_reducible apply ite_quiet) | (with_reducible apply quiet_foldl_fst <;> intros)
                            | (with_reducible apply quiet_foldl_snd <;> intros) | (with_reducible apply quiet_foldl <;> intros) | split))
  all_goals (try simp)
  all_goals (repeat' (first | with_reducible rfl | (with_reducible apply ite_quiet) | (with_reducible apply quiet_foldl_fst <;> intros)
                            | (with_reducible apply quiet_foldl_snd <;> intros) | (with_reducible apply quiet_foldl <;> intros) | split))
  all_goals (try simp)

@[simp] theorem State.ringPut_quiet (s : State) (x : Nat) (bs : List Byte) : (s.ringPut x bs).quiet = s.quiet := by
  unfold State.ringPut
  try simp only []
  repeat' (first | with_reducible rfl | (with_reducible apply ite_quiet) | (with_reducible apply quiet_foldl_fst <;> intros)
                 | (with_reducible apply quiet_foldl_snd <;> intros) | (with_reducible apply quiet_foldl <;> intros) | split)
  all_goals (try simp only [apply_ite State.quiet, ite_self])
  all_goals (try simp)
  all_goals (repeat' (first | with_reducible rfl | (with_reducible apply ite_quiet) | (with_reducible apply quiet_foldl_fst <;> intros)
                            | (with_reducible apply quiet_foldl_snd <;> intros) | (with_reducible apply quiet_foldl <;> intros) | split))
  all_goals (try simp)
  all_goals (repeat' (first | with_reducible rfl | (with_reducible apply ite_quiet) | (with_reducible apply quiet_foldl_fst <;> intros)
                            | (with_reducible apply quiet_foldl_snd <;> intros) | (with_reducible apply quiet_foldl <;> intros) | split))
  all_goals (try simp)

@[simp] theorem State.endAu_quiet (s : State) (x : Nat) : (s.endAu x).quiet = s.quiet := by
  unfold State.endAu
  try simp only []
  repeat' (first | with_reducible rfl | (with_reducible apply ite_quiet) | (with_reducible apply quiet_foldl_fst <;> intros)
                 | (with_reducible apply quiet_foldl_snd <;> intros) | (with_reducible apply quiet_foldl <;> intros) | split)
  all_goals (try simp only [apply_ite State.quiet, ite_self])
  all_goals (try simp)
  all_goals (repeat' (first | with_reducible rfl | (with_reducible apply ite_quiet) | (with_reducible apply quiet_foldl_fst <;> intros)
                            | (with_reducible apply quiet_foldl_snd <;> intros) | (with_reducible apply quiet_foldl <;> intros) | split))
  all_goals (try simp)
  all_goals (repeat' (first | with_reducible rfl | (with_reducible apply ite_quiet) | (with_reducible apply quiet_foldl_fst <;> intros)
                            | (with_reducible apply quiet_foldl_snd <;> intros) | (with_reducible apply quiet_foldl <;> intros) | split))
  all_goals (try simp)

@[simp] theorem State.passRtp_quiet (s : State) (x : Nat) (q : RtpHeld) : (s.passRtp x q).quiet = s.quiet := by
  unfold State.passRtp
  try simp only []
  repeat' (first | with_reducible rfl | (with_reducible apply ite_quiet) | (with_reducible apply quiet_foldl_fst <;> intros)
                 | (with_reducible apply quiet_foldl_snd <;> intros) | (with_reducible apply quiet_foldl <;> intros) | split)
  all_goals (try simp only [apply_ite State.quiet, ite_self])
  all_goals (try simp)
  all_goals (repeat' (first | with_reducible rfl | (with_reducible apply ite_quiet) | (with_reducible apply quiet_foldl_fst <;> intros)
                            | (with_reducible apply quiet_foldl_snd <;> intros) | (with_reducible apply quiet_foldl <;> intros) | split))
  all_goals (try simp)
  all_goals (repeat' (first | with_reducible rfl | (with_reducible apply ite_quiet) | (with_reducible apply quiet_foldl_fst <;> intros)
                            | (with_reducible apply quiet_foldl_snd <;> intros) | (with_reducible apply quiet_foldl <;> intros) | split))
  all_goals (try simp)

@[simp] theorem State.drainRtp_quiet (n x : Nat) (s : State) : (State.drainRtp n x s).quiet = s.quiet := by
  induction n generalizing s with
  | zero => rfl
  | succ n ih =>
    unfold State.drainRtp
    repeat' (first | with_reducible rfl | split)
    all_goals simp [ih]

@[simp] theorem State.loseRtp_quiet (s : State) (x : Nat) : (s.loseRtp x).quiet = s.quiet := by
  unfold State.loseRtp
  try simp only []
  repeat' (first | with_reducible rfl | (with_reducible apply ite_quiet) | (with_reducible apply quiet_foldl_fst <;> intros)
                 | (with_reducible apply quiet_foldl_snd <;> intros) | (with_reducible apply quiet_foldl <;> intros) | split)
  all_goals (try simp only [apply_ite State.quiet, ite_self])
  all_goals (try simp)
  all_goals (repeat' (first | with_reducible rfl | (with_reducible apply ite_quiet) | (with_reducible apply quiet_foldl_fst <;> intros)
                            | (with_reducible apply quiet_foldl_snd <;> intros) | (with_reducible apply quiet_foldl <;> intros) | split))
  all_goals (try simp)
  all_goals (repeat' (first | with_reducible rfl | (with_reducible apply ite_quiet) | (with_reducible apply quiet_foldl_fst <;> intros)
                            | (with_reducible apply quiet_foldl_snd <;> intros) | (with_reducible apply quiet_foldl <;> intros) | split))
  all_goals (try simp)

@[simp] theorem State.rtpArrive_quiet (s : State) (x : Nat) (bs : List Byte) : (s.rtpArrive x bs).quiet = s.quiet := by
  unfold State.rtpArrive
  try simp only []
  repeat' (first | with_reducible rfl | (with_reducible apply ite_quiet) | (with_reducible apply quiet_foldl_fst <;> intros)
                 | (with_reducible apply quiet_foldl_snd <;> intros) | (with_reducible apply quiet_foldl <;> intros) | split)
  all_goals (try simp only [apply_ite State.quiet, ite_self])
  all_goals (try simp)
  all_goals (repeat' (first | with_reducible rfl | (with_reducible apply ite_quiet) | (with_reducible apply quiet_foldl_fst <;> intros)
                            | (with_reducible apply quiet_foldl_snd <;> intros) | (with_reducible apply quiet_foldl <;> intros) | split))
  all_goals (try simp)
  all_goals (repeat' (first | with_reducible rfl | (with_reducible apply ite_quiet) | (with_reducible apply quiet_foldl_fst <;> intros)
                            | (with_reducible apply quiet_foldl_snd <;> intros) | (with_reducible apply quiet_foldl <;> intros) | split))
  all_goals (try simp)

theorem execReorderTimeout_quiet (dcx seq : Nat) (s : State) (t : State)
    (h : execReorderTimeout dcx seq s = .next t) : t.quiet = s.quiet := by
  unfold execReorderTimeout at h
  injection h with h
  subst h
  try simp only []
  repeat' (first | with_reducible rfl | (with_reducible apply ite_quiet) | (with_reducible apply quiet_foldl_fst <;> intros)
                 | (with_reducible apply quiet_foldl_snd <;> intros) | (with_reducible apply quiet_foldl <;> intros) | split)
  all_goals (try simp only [apply_ite State.quiet, ite_self])
  all_goals (try simp)
  all_goals (repeat' (first | with_reducible rfl | (with_reducible apply ite_quiet) | (with_reducible apply quiet_foldl_fst <;> intros)
                            | (with_reducible apply quiet_foldl_snd <;> intros) | (with_reducible apply quiet_foldl <;> intros) | split))
  all_goals (try simp)
  all_goals (repeat' (first | with_reducible rfl | (with_reducible apply ite_quiet) | (with_reducible apply quiet_foldl_fst <;> intros)
                            | (with_reducible apply quiet_foldl_snd <;> intros) | (with_reducible apply quiet_foldl <;> intros) | split))
  all_goals (try simp)

theorem execDecFeed_quiet (dcx : Nat) (loss : Bool) (len : Nat) (s : State) (t : State)
    (h : execDecFeed dcx loss len s = .next t) : t.quiet = s.quiet := by
  unfold execDecFeed at h
  injection h with h
  subst h
  try simp only []
  repeat' (first | with_reducible rfl | (with_reducible apply ite_quiet) | (with_reducible apply quiet_foldl_fst <;> intros)
                 | (with_reducible apply quiet_foldl_snd <;> intros) | (with_reducible apply quiet_foldl <;> intros) | split)
  all_goals (try simp only [apply_ite State.quiet, ite_self])
  all_goals (try simp)
  all_goals (repeat' (first | with_reducible rfl | (with_reducible apply ite_quiet) | (with_reducible apply quiet_foldl_fst <;> intros)
                            | (with_reducible apply quiet_foldl_snd <;> intros) | (with_reducible apply quiet_foldl <;> intros) | split))
  all_goals (try simp)
  all_goals (repeat' (first | with_reducible rfl | (with_reducible apply ite_quiet) | (with_reducible apply quiet_foldl_fst <;> intros)
                            | (with_reducible apply quiet_foldl_snd <;> intros) | (with_reducible apply quiet_foldl <;> intros) | split))
  all_goals (try simp)

@[simp] theorem State.setLock_quiet (s : State) (v : Nat) : (s.setLock v).quiet = s.quiet := by
  unfold State.setLock
  try simp only []
  repeat' (first | with_reducible rfl | (with_reducible apply ite_quiet) | (with_reducible apply quiet_foldl_fst <;> intros)
                 | (with_reducible apply quiet_foldl_snd <;> intros) | (with_reducible apply quiet_foldl <;> intros) | split)
  all_goals (try simp only [apply_ite State.quiet, ite_self])
  all_goals (try simp)
  all_goals (repeat' (first | with_reducible rfl | (with_reducible apply ite_quiet) | (with_reducible apply quiet_foldl_fst <;> intros)
                            | (with_reducible apply quiet_foldl_snd <;> intros) | (with_reducible apply quiet_foldl <;> intros) | split))
  all_goals (try simp)
  all_goals (repeat' (first | with_reducible rfl | (with_reducible apply ite_quiet) | (with_reducible apply quiet_foldl_fst <;> intros)
                            | (with_reducible apply quiet_foldl_snd <;> intros) | (with_reducible apply quiet_foldl <;> intros) | split))
  all_goals (try simp)

@[simp] theorem State.enterHoldover_quiet (s : State) : (s.enterHoldover).quiet = s.quiet := by
  unfold State.enterHoldover
  try simp only []
  repeat' (first | with_reducible rfl | (with_reducible apply ite_quiet) | (with_reducible apply quiet_foldl_fst <;> intros)
                 | (with_reducible apply quiet_foldl_snd <;> intros) | (with_reducible apply quiet_foldl <;> intros) | split)
  all_goals (try simp only [apply_ite State.quiet, ite_self])
  all_goals (try simp)
  all_goals (repeat' (first | with_reducible rfl | (with_reducible apply ite_quiet) | (with_reducible apply quiet_foldl_fst <;> intros)
                            | (with_reducible apply quiet_foldl_snd <;> intros) | (with_reducible apply quiet_foldl <;> intros) | split))
  all_goals (try simp)
  all_goals (repeat' (first | with_reducible rfl | (with_reducible apply ite_quiet) | (with_reducible apply quiet_foldl_fst <;> intros)
                            | (with_reducible apply quiet_foldl_snd <;> intros) | (with_reducible apply quiet_foldl <;> intros) | split))
  all_goals (try simp)

@[simp] theorem State.ptpOffset_quiet (s : State) (off : Int) : (s.ptpOffset off).quiet = s.quiet := by
  unfold State.ptpOffset
  try simp only []
  repeat' (first | with_reducible rfl | (with_reducible apply ite_quiet) | (with_reducible apply quiet_foldl_fst <;> intros)
                 | (with_reducible apply quiet_foldl_snd <;> intros) | (with_reducible apply quiet_foldl <;> intros) | split)
  all_goals (try simp only [apply_ite State.quiet, ite_self])
  all_goals (try simp)
  all_goals (repeat' (first | with_reducible rfl | (with_reducible apply ite_quiet) | (with_reducible apply quiet_foldl_fst <;> intros)
                            | (with_reducible apply quiet_foldl_snd <;> intros) | (with_reducible apply quiet_foldl <;> intros) | split))
  all_goals (try simp)
  all_goals (repeat' (first | with_reducible rfl | (with_reducible apply ite_quiet) | (with_reducible apply quiet_foldl_fst <;> intros)
                            | (with_reducible apply quiet_foldl_snd <;> intros) | (with_reducible apply quiet_foldl <;> intros) | split))
  all_goals (try simp)

@[simp] theorem State.announce_quiet (s : State) (a : Announce) : (s.announce a).quiet = s.quiet := by
  unfold State.announce
  try simp only []
  repeat' (first | with_reducible rfl | (with_reducible apply ite_quiet) | (with_reducible apply quiet_foldl_fst <;> intros)
                 | (with_reducible apply quiet_foldl_snd <;> intros) | (with_reducible apply quiet_foldl <;> intros) | split)
  all_goals (try simp only [apply_ite State.quiet, ite_self])
  all_goals (try simp)
  all_goals (repeat' (first | with_reducible rfl | (with_reducible apply ite_quiet) | (with_reducible apply quiet_foldl_fst <;> intros)
                            | (with_reducible apply quiet_foldl_snd <;> intros) | (with_reducible apply quiet_foldl <;> intros) | split))
  all_goals (try simp)
  all_goals (repeat' (first | with_reducible rfl | (with_reducible apply ite_quiet) | (with_reducible apply quiet_foldl_fst <;> intros)
                            | (with_reducible apply quiet_foldl_snd <;> intros) | (with_reducible apply quiet_foldl <;> intros) | split))
  all_goals (try simp)

@[simp] theorem State.ptpMessage_quiet (s : State) (p ts : Nat) (m : PtpMsg) : (s.ptpMessage p ts m).quiet = s.quiet := by
  unfold State.ptpMessage
  try simp only []
  repeat' (first | with_reducible rfl | (with_reducible apply ite_quiet) | (with_reducible apply quiet_foldl_fst <;> intros)
                 | (with_reducible apply quiet_foldl_snd <;> intros) | (with_reducible apply quiet_foldl <;> intros) | split)
  all_goals (try simp only [apply_ite State.quiet, ite_self])
  all_goals (try simp)
  all_goals (repeat' (first | with_reducible rfl | (with_reducible apply ite_quiet) | (with_reducible apply quiet_foldl_fst <;> intros)
                            | (with_reducible apply quiet_foldl_snd <;> intros) | (with_reducible apply quiet_foldl <;> intros) | split))
  all_goals (try simp)
  all_goals (repeat' (first | with_reducible rfl | (with_reducible apply ite_quiet) | (with_reducible apply quiet_foldl_fst <;> intros)
                            | (with_reducible apply quiet_foldl_snd <;> intros) | (with_reducible apply quiet_foldl <;> intros) | split))
  all_goals (try simp)

theorem execSyncTimeout_quiet (s : State) (t : State) (h : execSyncTimeout s = .next t) : t.quiet = s.quiet := by
  unfold execSyncTimeout at h
  injection h with h
  subst h
  try simp only []
  repeat' (first | with_reducible rfl | (with_reducible apply ite_quiet) | (with_reducible apply quiet_foldl_fst <;> intros)
                 | (with_reducible apply quiet_foldl_snd <;> intros) | (with_reducible apply quiet_foldl <;> intros) | split)
  all_goals (try simp only [apply_ite State.quiet, ite_self])
  all_goals (try simp)
  all_goals (repeat' (first | with_reducible rfl | (with_reducible apply ite_quiet) | (with_reducible apply quiet_foldl_fst <;> intros)
                            | (with_reducible apply quiet_foldl_snd <;> intros) | (with_reducible apply quiet_foldl <;> intros) | split))
  all_goals (try simp)
  all_goals (repeat' (first | with_reducible rfl | (with_reducible apply ite_quiet) | (with_reducible apply quiet_foldl_fst <;> intros)
                            | (with_reducible apply quiet_foldl_snd <;> intros) | (with_reducible apply quiet_foldl <;> intros) | split))
  all_goals (try simp)

theorem execAnnounceTimeout_quiet (s : State) (t : State) (h : execAnnounceTimeout s = .next t) : t.quiet = s.quiet := by
  unfold execAnnounceTimeout at h
  injection h with h
  subst h
  try simp only []
  repeat' (first | with_reducible rfl | (with_reducible apply ite_quiet) | (with_reducible apply quiet_foldl_fst <;> intros)
                 | (with_reducible apply quiet_foldl_snd <;> intros) | (with_reducible apply quiet_foldl <;> intros) | split)
  all_goals (try simp only [apply_ite State.quiet, ite_self])
  all_goals (try simp)
  all_goals (repeat' (first | with_reducible rfl | (with_reducible apply ite_quiet) | (with_reducible apply quiet_foldl_fst <;> intros)
                            | (with_reducible apply quiet_foldl_snd <;> intros) | (with_reducible apply quiet_foldl <;> intros) | split))
  all_goals (try simp)
  all_goals (repeat' (first | with_reducible rfl | (with_reducible apply ite_quiet) | (with_reducible apply quiet_foldl_fst <;> intros)
                            | (with_reducible apply quiet_foldl_snd <;> intros) | (with_reducible apply quiet_foldl <;> intros) | split))
  all_goals (try simp)

theorem execHoldoverExpiry_quiet (s : State) (t : State) (h : execHoldoverExpiry s = .next t) : t.quiet = s.quiet := by
  unfold execHoldoverExpiry at h
  injection h with h
  subst h
  try simp only []
  repeat' (first | with_reducible rfl | (with_reducible apply ite_quiet) | (with_reducible apply quiet_foldl_fst <;> intros)
                 | (with_reducible apply quiet_foldl_snd <;> intros) | (with_reducible apply quiet_foldl <;> intros) | split)
  all_goals (try simp only [apply_ite State.quiet, ite_self])
  all_goals (try simp)
  all_goals (repeat' (first | with_reducible rfl | (with_reducible apply ite_quiet) | (with_reducible apply quiet_foldl_fst <;> intros)
                            | (with_reducible apply quiet_foldl_snd <;> intros) | (with_reducible apply quiet_foldl <;> intros) | split))
  all_goals (try simp)
  all_goals (repeat' (first | with_reducible rfl | (with_reducible apply ite_quiet) | (with_reducible apply quiet_foldl_fst <;> intros)
                            | (with_reducible apply quiet_foldl_snd <;> intros) | (with_reducible apply quiet_foldl <;> intros) | split))
  all_goals (try simp)

theorem execDelayReqTransmit_quiet (s : State) (t : State) (h : execDelayReqTransmit s = .next t) : t.quiet = s.quiet := by
  unfold execDelayReqTransmit at h
  injection h with h
  subst h
  try simp only []
  repeat' (first | with_reducible rfl | (with_reducible apply ite_quiet) | (with_reducible apply quiet_foldl_fst <;> intros)
                 | (with_reducible apply quiet_foldl_snd <;> intros) | (with_reducible apply quiet_foldl <;> intros) | split)
  all_goals (try simp only [apply_ite State.quiet, ite_self])
  all_goals (try simp)
  all_goals (repeat' (first | with_reducible rfl | (with_reducible apply ite_quiet) | (with_reducible apply quiet_foldl_fst <;> intros)
                            | (with_reducible apply quiet_foldl_snd <;> intros) | (with_reducible apply quiet_foldl <;> intros) | split))
  all_goals (try simp)
  all_goals (repeat' (first | with_reducible rfl | (with_reducible apply ite_quiet) | (with_reducible apply quiet_foldl_fst <;> intros)
                            | (with_reducible apply quiet_foldl_snd <;> intros) | (with_reducible apply quiet_foldl <;> intros) | split))
  all_goals (try simp)

theorem execPpsInEdge_quiet (highNs : Nat) (s : State) (t : State) (h : execPpsInEdge highNs s = .next t) : t.quiet = s.quiet := by
  unfold execPpsInEdge at h
  injection h with h
  subst h
  try simp only []
  repeat' (first | with_reducible rfl | (with_reducible apply ite_quiet) | (with_reducible apply quiet_foldl_fst <;> intros)
                 | (with_reducible apply quiet_foldl_snd <;> intros) | (with_reducible apply quiet_foldl <;> intros) | split)
  all_goals (try simp only [apply_ite State.quiet, ite_self])
  all_goals (try simp)
  all_goals (repeat' (first | with_reducible rfl | (with_reducible apply ite_quiet) | (with_reducible apply quiet_foldl_fst <;> intros)
                            | (with_reducible apply quiet_foldl_snd <;> intros) | (with_reducible apply quiet_foldl <;> intros) | split))
  all_goals (try simp)
  all_goals (repeat' (first | with_reducible rfl | (with_reducible apply ite_quiet) | (with_reducible apply quiet_foldl_fst <;> intros)
                            | (with_reducible apply quiet_foldl_snd <;> intros) | (with_reducible apply quiet_foldl <;> intros) | split))
  all_goals (try simp)

@[simp] theorem State.fifoOverflow_quiet (s : State) (f : Nat) : (s.fifoOverflow f).quiet = s.quiet := by
  unfold State.fifoOverflow
  try simp only []
  repeat' (first | with_reducible rfl | (with_reducible apply ite_quiet) | (with_reducible apply quiet_foldl_fst <;> intros)
                 | (with_reducible apply quiet_foldl_snd <;> intros) | (with_reducible apply quiet_foldl <;> intros) | split)
  all_goals (try simp only [apply_ite State.quiet, ite_self])
  all_goals (try simp)
  all_goals (repeat' (first | with_reducible rfl | (with_reducible apply ite_quiet) | (with_reducible apply quiet_foldl_fst <;> intros)
                            | (with_reducible apply quiet_foldl_snd <;> intros) | (with_reducible apply quiet_foldl <;> intros) | split))
  all_goals (try simp)
  all_goals (repeat' (first | with_reducible rfl | (with_reducible apply ite_quiet) | (with_reducible apply quiet_foldl_fst <;> intros)
                            | (with_reducible apply quiet_foldl_snd <;> intros) | (with_reducible apply quiet_foldl <;> intros) | split))
  all_goals (try simp)

@[simp] theorem State.vftPush_quiet (s : State) (p : Nat) (q : VftPkt) : (s.vftPush p q).quiet = s.quiet := by
  unfold State.vftPush
  try simp only []
  repeat' (first | with_reducible rfl | (with_reducible apply ite_quiet) | (with_reducible apply quiet_foldl_fst <;> intros)
                 | (with_reducible apply quiet_foldl_snd <;> intros) | (with_reducible apply quiet_foldl <;> intros) | split)
  all_goals (try simp only [apply_ite State.quiet, ite_self])
  all_goals (try simp)
  all_goals (repeat' (first | with_reducible rfl | (with_reducible apply ite_quiet) | (with_reducible apply quiet_foldl_fst <;> intros)
                            | (with_reducible apply quiet_foldl_snd <;> intros) | (with_reducible apply quiet_foldl <;> intros) | split))
  all_goals (try simp)
  all_goals (repeat' (first | with_reducible rfl | (with_reducible apply ite_quiet) | (with_reducible apply quiet_foldl_fst <;> intros)
                            | (with_reducible apply quiet_foldl_snd <;> intros) | (with_reducible apply quiet_foldl <;> intros) | split))
  all_goals (try simp)

@[simp] theorem State.countClass_quiet (s : State) (c : Nat) : (s.countClass c).quiet = s.quiet := by
  unfold State.countClass
  try simp only []
  repeat' (first | with_reducible rfl | (with_reducible apply ite_quiet) | (with_reducible apply quiet_foldl_fst <;> intros)
                 | (with_reducible apply quiet_foldl_snd <;> intros) | (with_reducible apply quiet_foldl <;> intros) | split)
  all_goals (try simp only [apply_ite State.quiet, ite_self])
  all_goals (try simp)
  all_goals (repeat' (first | with_reducible rfl | (with_reducible apply ite_quiet) | (with_reducible apply quiet_foldl_fst <;> intros)
                            | (with_reducible apply quiet_foldl_snd <;> intros) | (with_reducible apply quiet_foldl <;> intros) | split))
  all_goals (try simp)
  all_goals (repeat' (first | with_reducible rfl | (with_reducible apply ite_quiet) | (with_reducible apply quiet_foldl_fst <;> intros)
                            | (with_reducible apply quiet_foldl_snd <;> intros) | (with_reducible apply quiet_foldl <;> intros) | split))
  all_goals (try simp)

@[simp] theorem State.consume_quiet (s : State) (k : Nat) (e : PeEnd) (c : PeCtx) : (s.consume k e c).quiet = s.quiet := by
  unfold State.consume
  try simp only []
  repeat' (first | with_reducible rfl | (with_reducible apply ite_quiet) | (with_reducible apply quiet_foldl_fst <;> intros)
                 | (with_reducible apply quiet_foldl_snd <;> intros) | (with_reducible apply quiet_foldl <;> intros) | split)
  all_goals (try simp only [apply_ite State.quiet, ite_self])
  all_goals (try simp)
  all_goals (repeat' (first | with_reducible rfl | (with_reducible apply ite_quiet) | (with_reducible apply quiet_foldl_fst <;> intros)
                            | (with_reducible apply quiet_foldl_snd <;> intros) | (with_reducible apply quiet_foldl <;> intros) | split))
  all_goals (try simp)
  all_goals (repeat' (first | with_reducible rfl | (with_reducible apply ite_quiet) | (with_reducible apply quiet_foldl_fst <;> intros)
                            | (with_reducible apply quiet_foldl_snd <;> intros) | (with_reducible apply quiet_foldl <;> intros) | split))
  all_goals (try simp)

@[simp] theorem State.setOrder_quiet (s : State) (p : Nat) (l : List Retire) : (s.setOrder p l).quiet = s.quiet := by
  unfold State.setOrder
  try simp only []
  repeat' (first | with_reducible rfl | (with_reducible apply ite_quiet) | (with_reducible apply quiet_foldl_fst <;> intros)
                 | (with_reducible apply quiet_foldl_snd <;> intros) | (with_reducible apply quiet_foldl <;> intros) | split)
  all_goals (try simp only [apply_ite State.quiet, ite_self])
  all_goals (try simp)
  all_goals (repeat' (first | with_reducible rfl | (with_reducible apply ite_quiet) | (with_reducible apply quiet_foldl_fst <;> intros)
                            | (with_reducible apply quiet_foldl_snd <;> intros) | (with_reducible apply quiet_foldl <;> intros) | split))
  all_goals (try simp)
  all_goals (repeat' (first | with_reducible rfl | (with_reducible apply ite_quiet) | (with_reducible apply quiet_foldl_fst <;> intros)
                            | (with_reducible apply quiet_foldl_snd <;> intros) | (with_reducible apply quiet_foldl <;> intros) | split))
  all_goals (try simp)

@[simp] theorem State.retirePort_quiet (s : State) (p : Nat) : (s.retirePort p).quiet = s.quiet := by
  unfold State.retirePort
  try simp only []
  repeat' (first | with_reducible rfl | (with_reducible apply ite_quiet) | (with_reducible apply quiet_foldl_fst <;> intros)
                 | (with_reducible apply quiet_foldl_snd <;> intros) | (with_reducible apply quiet_foldl <;> intros) | split)
  all_goals (try simp only [apply_ite State.quiet, ite_self])
  all_goals (try simp)
  all_goals (repeat' (first | with_reducible rfl | (with_reducible apply ite_quiet) | (with_reducible apply quiet_foldl_fst <;> intros)
                            | (with_reducible apply quiet_foldl_snd <;> intros) | (with_reducible apply quiet_foldl <;> intros) | split))
  all_goals (try simp)
  all_goals (repeat' (first | with_reducible rfl | (with_reducible apply ite_quiet) | (with_reducible apply quiet_foldl_fst <;> intros)
                            | (with_reducible apply quiet_foldl_snd <;> intros) | (with_reducible apply quiet_foldl <;> intros) | split))
  all_goals (try simp)

@[simp] theorem State.peFinish_quiet (s : State) (k : Nat) (e : PeEnd) : (s.peFinish k e).quiet = s.quiet := by
  unfold State.peFinish
  try simp only []
  repeat' (first | with_reducible rfl | (with_reducible apply ite_quiet) | (with_reducible apply quiet_foldl_fst <;> intros)
                 | (with_reducible apply quiet_foldl_snd <;> intros) | (with_reducible apply quiet_foldl <;> intros) | split)
  all_goals (try simp only [apply_ite State.quiet, ite_self])
  all_goals (try simp)
  all_goals (repeat' (first | with_reducible rfl | (with_reducible apply ite_quiet) | (with_reducible apply quiet_foldl_fst <;> intros)
                            | (with_reducible apply quiet_foldl_snd <;> intros) | (with_reducible apply quiet_foldl <;> intros) | split))
  all_goals (try simp)
  all_goals (repeat' (first | with_reducible rfl | (with_reducible apply ite_quiet) | (with_reducible apply quiet_foldl_fst <;> intros)
                            | (with_reducible apply quiet_foldl_snd <;> intros) | (with_reducible apply quiet_foldl <;> intros) | split))
  all_goals (try simp)

@[simp] theorem State.peSettle_quiet (s : State) (k : Nat) : (s.peSettle k).quiet = s.quiet := by
  unfold State.peSettle
  try simp only []
  repeat' (first | with_reducible rfl | (with_reducible apply ite_quiet) | (with_reducible apply quiet_foldl_fst <;> intros)
                 | (with_reducible apply quiet_foldl_snd <;> intros) | (with_reducible apply quiet_foldl <;> intros) | split)
  all_goals (try simp only [apply_ite State.quiet, ite_self])
  all_goals (try simp)
  all_goals (repeat' (first | with_reducible rfl | (with_reducible apply ite_quiet) | (with_reducible apply quiet_foldl_fst <;> intros)
                            | (with_reducible apply quiet_foldl_snd <;> intros) | (with_reducible apply quiet_foldl <;> intros) | split))
  all_goals (try simp)
  all_goals (repeat' (first | with_reducible rfl | (with_reducible apply ite_quiet) | (with_reducible apply quiet_foldl_fst <;> intros)
                            | (with_reducible apply quiet_foldl_snd <;> intros) | (with_reducible apply quiet_foldl <;> intros) | split))
  all_goals (try simp)

@[simp] theorem State.peStep_quiet (s : State) (k op : Nat) (f : PeIns → PeCtx → PeOut) : (s.peStep k op f).quiet = s.quiet := by
  unfold State.peStep
  try simp only []
  repeat' (first | with_reducible rfl | (with_reducible apply ite_quiet) | (with_reducible apply quiet_foldl_fst <;> intros)
                 | (with_reducible apply quiet_foldl_snd <;> intros) | (with_reducible apply quiet_foldl <;> intros) | split)
  all_goals (try simp only [apply_ite State.quiet, ite_self])
  all_goals (try simp)
  all_goals (repeat' (first | with_reducible rfl | (with_reducible apply ite_quiet) | (with_reducible apply quiet_foldl_fst <;> intros)
                            | (with_reducible apply quiet_foldl_snd <;> intros) | (with_reducible apply quiet_foldl <;> intros) | split))
  all_goals (try simp)
  all_goals (repeat' (first | with_reducible rfl | (with_reducible apply ite_quiet) | (with_reducible apply quiet_foldl_fst <;> intros)
                            | (with_reducible apply quiet_foldl_snd <;> intros) | (with_reducible apply quiet_foldl <;> intros) | split))
  all_goals (try simp)

theorem execFrameReceive_quiet (port : Nat) (bytes : List Byte) (fcsOk : Bool) (s : State) (t : State)
    (h : execFrameReceive port bytes fcsOk s = .next t) : t.quiet = s.quiet := by
  unfold execFrameReceive at h
  injection h with h
  subst h
  try simp only []
  repeat' (first | with_reducible rfl | (with_reducible apply ite_quiet) | (with_reducible apply quiet_foldl_fst <;> intros)
                 | (with_reducible apply quiet_foldl_snd <;> intros) | (with_reducible apply quiet_foldl <;> intros) | split)
  all_goals (try simp only [apply_ite State.quiet, ite_self])
  all_goals (try simp)
  all_goals (repeat' (first | with_reducible rfl | (with_reducible apply ite_quiet) | (with_reducible apply quiet_foldl_fst <;> intros)
                            | (with_reducible apply quiet_foldl_snd <;> intros) | (with_reducible apply quiet_foldl <;> intros) | split))
  all_goals (try simp)
  all_goals (repeat' (first | with_reducible rfl | (with_reducible apply ite_quiet) | (with_reducible apply quiet_foldl_fst <;> intros)
                            | (with_reducible apply quiet_foldl_snd <;> intros) | (with_reducible apply quiet_foldl <;> intros) | split))
  all_goals (try simp)

theorem execParseStart_quiet (port : Nat) (s : State) (t : State) (h : execParseStart port s = .next t) : t.quiet = s.quiet := by
  unfold execParseStart at h
  injection h with h
  subst h
  try simp only []
  repeat' (first | with_reducible rfl | (with_reducible apply ite_quiet) | (with_reducible apply quiet_foldl_fst <;> intros)
                 | (with_reducible apply quiet_foldl_snd <;> intros) | (with_reducible apply quiet_foldl <;> intros) | split)
  all_goals (try simp only [apply_ite State.quiet, ite_self])
  all_goals (try simp)
  all_goals (repeat' (first | with_reducible rfl | (with_reducible apply ite_quiet) | (with_reducible apply quiet_foldl_fst <;> intros)
                            | (with_reducible apply quiet_foldl_snd <;> intros) | (with_reducible apply quiet_foldl <;> intros) | split))
  all_goals (try simp)
  all_goals (repeat' (first | with_reducible rfl | (with_reducible apply ite_quiet) | (with_reducible apply quiet_foldl_fst <;> intros)
                            | (with_reducible apply quiet_foldl_snd <;> intros) | (with_reducible apply quiet_foldl <;> intros) | split))
  all_goals (try simp)

theorem execExt_quiet (pe : Nat) (s : State) (t : State) (h : execExt pe s = .next t) : t.quiet = s.quiet := by
  unfold execExt at h
  injection h with h
  subst h
  try simp only []
  repeat' (first | with_reducible rfl | (with_reducible apply ite_quiet) | (with_reducible apply quiet_foldl_fst <;> intros)
                 | (with_reducible apply quiet_foldl_snd <;> intros) | (with_reducible apply quiet_foldl <;> intros) | split)
  all_goals (try simp only [apply_ite State.quiet, ite_self])
  all_goals (try simp)
  all_goals (repeat' (first | with_reducible rfl | (with_reducible apply ite_quiet) | (with_reducible apply quiet_foldl_fst <;> intros)
                            | (with_reducible apply quiet_foldl_snd <;> intros) | (with_reducible apply quiet_foldl <;> intros) | split))
  all_goals (try simp)
  all_goals (repeat' (first | with_reducible rfl | (with_reducible apply ite_quiet) | (with_reducible apply quiet_foldl_fst <;> intros)
                            | (with_reducible apply quiet_foldl_snd <;> intros) | (with_reducible apply quiet_foldl <;> intros) | split))
  all_goals (try simp)

theorem execKey_quiet (pe : Nat) (s : State) (t : State) (h : execKey pe s = .next t) : t.quiet = s.quiet := by
  unfold execKey at h
  injection h with h
  subst h
  try simp only []
  repeat' (first | with_reducible rfl | (with_reducible apply ite_quiet) | (with_reducible apply quiet_foldl_fst <;> intros)
                 | (with_reducible apply quiet_foldl_snd <;> intros) | (with_reducible apply quiet_foldl <;> intros) | split)
  all_goals (try simp only [apply_ite State.quiet, ite_self])
  all_goals (try simp)
  all_goals (repeat' (first | with_reducible rfl | (with_reducible apply ite_quiet) | (with_reducible apply quiet_foldl_fst <;> intros)
                            | (with_reducible apply quiet_foldl_snd <;> intros) | (with_reducible apply quiet_foldl <;> intros) | split))
  all_goals (try simp)
  all_goals (repeat' (first | with_reducible rfl | (with_reducible apply ite_quiet) | (with_reducible apply quiet_foldl_fst <;> intros)
                            | (with_reducible apply quiet_foldl_snd <;> intros) | (with_reducible apply quiet_foldl <;> intros) | split))
  all_goals (try simp)

theorem execKeyi_quiet (pe : Nat) (s : State) (t : State) (h : execKeyi pe s = .next t) : t.quiet = s.quiet := by
  unfold execKeyi at h
  injection h with h
  subst h
  try simp only []
  repeat' (first | with_reducible rfl | (with_reducible apply ite_quiet) | (with_reducible apply quiet_foldl_fst <;> intros)
                 | (with_reducible apply quiet_foldl_snd <;> intros) | (with_reducible apply quiet_foldl <;> intros) | split)
  all_goals (try simp only [apply_ite State.quiet, ite_self])
  all_goals (try simp)
  all_goals (repeat' (first | with_reducible rfl | (with_reducible apply ite_quiet) | (with_reducible apply quiet_foldl_fst <;> intros)
                            | (with_reducible apply quiet_foldl_snd <;> intros) | (with_reducible apply quiet_foldl <;> intros) | split))
  all_goals (try simp)
  all_goals (repeat' (first | with_reducible rfl | (with_reducible apply ite_quiet) | (with_reducible apply quiet_foldl_fst <;> intros)
                            | (with_reducible apply quiet_foldl_snd <;> intros) | (with_reducible apply quiet_foldl <;> intros) | split))
  all_goals (try simp)

theorem execAlu_quiet (pe : Nat) (s : State) (t : State) (h : execAlu pe s = .next t) : t.quiet = s.quiet := by
  unfold execAlu at h
  injection h with h
  subst h
  try simp only []
  repeat' (first | with_reducible rfl | (with_reducible apply ite_quiet) | (with_reducible apply quiet_foldl_fst <;> intros)
                 | (with_reducible apply quiet_foldl_snd <;> intros) | (with_reducible apply quiet_foldl <;> intros) | split)
  all_goals (try simp only [apply_ite State.quiet, ite_self])
  all_goals (try simp)
  all_goals (repeat' (first | with_reducible rfl | (with_reducible apply ite_quiet) | (with_reducible apply quiet_foldl_fst <;> intros)
                            | (with_reducible apply quiet_foldl_snd <;> intros) | (with_reducible apply quiet_foldl <;> intros) | split))
  all_goals (try simp)
  all_goals (repeat' (first | with_reducible rfl | (with_reducible apply ite_quiet) | (with_reducible apply quiet_foldl_fst <;> intros)
                            | (with_reducible apply quiet_foldl_snd <;> intros) | (with_reducible apply quiet_foldl <;> intros) | split))
  all_goals (try simp)

theorem execBr_quiet (pe : Nat) (s : State) (t : State) (h : execBr pe s = .next t) : t.quiet = s.quiet := by
  unfold execBr at h
  injection h with h
  subst h
  try simp only []
  repeat' (first | with_reducible rfl | (with_reducible apply ite_quiet) | (with_reducible apply quiet_foldl_fst <;> intros)
                 | (with_reducible apply quiet_foldl_snd <;> intros) | (with_reducible apply quiet_foldl <;> intros) | split)
  all_goals (try simp only [apply_ite State.quiet, ite_self])
  all_goals (try simp)
  all_goals (repeat' (first | with_reducible rfl | (with_reducible apply ite_quiet) | (with_reducible apply quiet_foldl_fst <;> intros)
                            | (with_reducible apply quiet_foldl_snd <;> intros) | (with_reducible apply quiet_foldl <;> intros) | split))
  all_goals (try simp)
  all_goals (repeat' (first | with_reducible rfl | (with_reducible apply ite_quiet) | (with_reducible apply quiet_foldl_fst <;> intros)
                            | (with_reducible apply quiet_foldl_snd <;> intros) | (with_reducible apply quiet_foldl <;> intros) | split))
  all_goals (try simp)

theorem execHdr_quiet (pe : Nat) (s : State) (t : State) (h : execHdr pe s = .next t) : t.quiet = s.quiet := by
  unfold execHdr at h
  injection h with h
  subst h
  try simp only []
  repeat' (first | with_reducible rfl | (with_reducible apply ite_quiet) | (with_reducible apply quiet_foldl_fst <;> intros)
                 | (with_reducible apply quiet_foldl_snd <;> intros) | (with_reducible apply quiet_foldl <;> intros) | split)
  all_goals (try simp only [apply_ite State.quiet, ite_self])
  all_goals (try simp)
  all_goals (repeat' (first | with_reducible rfl | (with_reducible apply ite_quiet) | (with_reducible apply quiet_foldl_fst <;> intros)
                            | (with_reducible apply quiet_foldl_snd <;> intros) | (with_reducible apply quiet_foldl <;> intros) | split))
  all_goals (try simp)
  all_goals (repeat' (first | with_reducible rfl | (with_reducible apply ite_quiet) | (with_reducible apply quiet_foldl_fst <;> intros)
                            | (with_reducible apply quiet_foldl_snd <;> intros) | (with_reducible apply quiet_foldl <;> intros) | split))
  all_goals (try simp)

theorem execLen_quiet (pe : Nat) (s : State) (t : State) (h : execLen pe s = .next t) : t.quiet = s.quiet := by
  unfold execLen at h
  injection h with h
  subst h
  try simp only []
  repeat' (first | with_reducible rfl | (with_reducible apply ite_quiet) | (with_reducible apply quiet_foldl_fst <;> intros)
                 | (with_reducible apply quiet_foldl_snd <;> intros) | (with_reducible apply quiet_foldl <;> intros) | split)
  all_goals (try simp only [apply_ite State.quiet, ite_self])
  all_goals (try simp)
  all_goals (repeat' (first | with_reducible rfl | (with_reducible apply ite_quiet) | (with_reducible apply quiet_foldl_fst <;> intros)
                            | (with_reducible apply quiet_foldl_snd <;> intros) | (with_reducible apply quiet_foldl <;> intros) | split))
  all_goals (try simp)
  all_goals (repeat' (first | with_reducible rfl | (with_reducible apply ite_quiet) | (with_reducible apply quiet_foldl_fst <;> intros)
                            | (with_reducible apply quiet_foldl_snd <;> intros) | (with_reducible apply quiet_foldl <;> intros) | split))
  all_goals (try simp)

theorem execLkp_quiet (pe : Nat) (s : State) (t : State) (h : execLkp pe s = .next t) : t.quiet = s.quiet := by
  unfold execLkp at h
  injection h with h
  subst h
  try simp only []
  repeat' (first | with_reducible rfl | (with_reducible apply ite_quiet) | (with_reducible apply quiet_foldl_fst <;> intros)
                 | (with_reducible apply quiet_foldl_snd <;> intros) | (with_reducible apply quiet_foldl <;> intros) | split)
  all_goals (try simp only [apply_ite State.quiet, ite_self])
  all_goals (try simp)
  all_goals (repeat' (first | with_reducible rfl | (with_reducible apply ite_quiet) | (with_reducible apply quiet_foldl_fst <;> intros)
                            | (with_reducible apply quiet_foldl_snd <;> intros) | (with_reducible apply quiet_foldl <;> intros) | split))
  all_goals (try simp)
  all_goals (repeat' (first | with_reducible rfl | (with_reducible apply ite_quiet) | (with_reducible apply quiet_foldl_fst <;> intros)
                            | (with_reducible apply quiet_foldl_snd <;> intros) | (with_reducible apply quiet_foldl <;> intros) | split))
  all_goals (try simp)

theorem execExc_quiet (pe : Nat) (s : State) (t : State) (h : execExc pe s = .next t) : t.quiet = s.quiet := by
  unfold execExc at h
  injection h with h
  subst h
  try simp only []
  repeat' (first | with_reducible rfl | (with_reducible apply ite_quiet) | (with_reducible apply quiet_foldl_fst <;> intros)
                 | (with_reducible apply quiet_foldl_snd <;> intros) | (with_reducible apply quiet_foldl <;> intros) | split)
  all_goals (try simp only [apply_ite State.quiet, ite_self])
  all_goals (try simp)
  all_goals (repeat' (first | with_reducible rfl | (with_reducible apply ite_quiet) | (with_reducible apply quiet_foldl_fst <;> intros)
                            | (with_reducible apply quiet_foldl_snd <;> intros) | (with_reducible apply quiet_foldl <;> intros) | split))
  all_goals (try simp)
  all_goals (repeat' (first | with_reducible rfl | (with_reducible apply ite_quiet) | (with_reducible apply quiet_foldl_fst <;> intros)
                            | (with_reducible apply quiet_foldl_snd <;> intros) | (with_reducible apply quiet_foldl <;> intros) | split))
  all_goals (try simp)

@[simp] theorem State.peEnds_quiet (s : State) (k : Nat) (m : PtpMsg) : (s.peEnds k m).quiet = s.quiet := by
  unfold State.peEnds
  try simp only []
  repeat' (first | with_reducible rfl | (with_reducible apply ite_quiet) | (with_reducible apply quiet_foldl_fst <;> intros)
                 | (with_reducible apply quiet_foldl_snd <;> intros) | (with_reducible apply quiet_foldl <;> intros) | split)
  all_goals (try simp only [apply_ite State.quiet, ite_self])
  all_goals (try simp)
  all_goals (repeat' (first | with_reducible rfl | (with_reducible apply ite_quiet) | (with_reducible apply quiet_foldl_fst <;> intros)
                            | (with_reducible apply quiet_foldl_snd <;> intros) | (with_reducible apply quiet_foldl <;> intros) | split))
  all_goals (try simp)
  all_goals (repeat' (first | with_reducible rfl | (with_reducible apply ite_quiet) | (with_reducible apply quiet_foldl_fst <;> intros)
                            | (with_reducible apply quiet_foldl_snd <;> intros) | (with_reducible apply quiet_foldl <;> intros) | split))
  all_goals (try simp)

theorem execLookupResult_quiet (pe : Nat) (s : State) (t : State) (h : execLookupResult pe s = .next t) : t.quiet = s.quiet := by
  unfold execLookupResult at h
  injection h with h
  subst h
  try simp only []
  repeat' (first | with_reducible rfl | (with_reducible apply ite_quiet) | (with_reducible apply quiet_foldl_fst <;> intros)
                 | (with_reducible apply quiet_foldl_snd <;> intros) | (with_reducible apply quiet_foldl <;> intros) | split)
  all_goals (try simp only [apply_ite State.quiet, ite_self])
  all_goals (try simp)
  all_goals (repeat' (first | with_reducible rfl | (with_reducible apply ite_quiet) | (with_reducible apply quiet_foldl_fst <;> intros)
                            | (with_reducible apply quiet_foldl_snd <;> intros) | (with_reducible apply quiet_foldl <;> intros) | split))
  all_goals (try simp)
  all_goals (repeat' (first | with_reducible rfl | (with_reducible apply ite_quiet) | (with_reducible apply quiet_foldl_fst <;> intros)
                            | (with_reducible apply quiet_foldl_snd <;> intros) | (with_reducible apply quiet_foldl <;> intros) | split))
  all_goals (try simp)

@[simp] theorem State.seekEnc_quiet (s : State) (l : Nat) : (s.seekEnc l).quiet = s.quiet := by
  unfold State.seekEnc
  try simp only []
  repeat' (first | with_reducible rfl | (with_reducible apply ite_quiet) | (with_reducible apply quiet_foldl_fst <;> intros)
                 | (with_reducible apply quiet_foldl_snd <;> intros) | (with_reducible apply quiet_foldl <;> intros) | split)
  all_goals (try simp only [apply_ite State.quiet, ite_self])
  all_goals (try simp)
  all_goals (repeat' (first | with_reducible rfl | (with_reducible apply ite_quiet) | (with_reducible apply quiet_foldl_fst <;> intros)
                            | (with_reducible apply quiet_foldl_snd <;> intros) | (with_reducible apply quiet_foldl <;> intros) | split))
  all_goals (try simp)
  all_goals (repeat' (first | with_reducible rfl | (with_reducible apply ite_quiet) | (with_reducible apply quiet_foldl_fst <;> intros)
                            | (with_reducible apply quiet_foldl_snd <;> intros) | (with_reducible apply quiet_foldl <;> intros) | split))
  all_goals (try simp)

@[simp] theorem State.seekDec_quiet (s : State) (l : Nat) : (s.seekDec l).quiet = s.quiet := by
  unfold State.seekDec
  try simp only []
  repeat' (first | with_reducible rfl | (with_reducible apply ite_quiet) | (with_reducible apply quiet_foldl_fst <;> intros)
                 | (with_reducible apply quiet_foldl_snd <;> intros) | (with_reducible apply quiet_foldl <;> intros) | split)
  all_goals (try simp only [apply_ite State.quiet, ite_self])
  all_goals (try simp)
  all_goals (repeat' (first | with_reducible rfl | (with_reducible apply ite_quiet) | (with_reducible apply quiet_foldl_fst <;> intros)
                            | (with_reducible apply quiet_foldl_snd <;> intros) | (with_reducible apply quiet_foldl <;> intros) | split))
  all_goals (try simp)
  all_goals (repeat' (first | with_reducible rfl | (with_reducible apply ite_quiet) | (with_reducible apply quiet_foldl_fst <;> intros)
                            | (with_reducible apply quiet_foldl_snd <;> intros) | (with_reducible apply quiet_foldl <;> intros) | split))
  all_goals (try simp)

@[simp] theorem State.failEnc_quiet (s : State) (k src : Nat) : (s.failEnc k src).quiet = s.quiet := by
  unfold State.failEnc
  try simp only []
  repeat' (first | with_reducible rfl | (with_reducible apply ite_quiet) | (with_reducible apply quiet_foldl_fst <;> intros)
                 | (with_reducible apply quiet_foldl_snd <;> intros) | (with_reducible apply quiet_foldl <;> intros) | split)
  all_goals (try simp only [apply_ite State.quiet, ite_self])
  all_goals (try simp)
  all_goals (repeat' (first | with_reducible rfl | (with_reducible apply ite_quiet) | (with_reducible apply quiet_foldl_fst <;> intros)
                            | (with_reducible apply quiet_foldl_snd <;> intros) | (with_reducible apply quiet_foldl <;> intros) | split))
  all_goals (try simp)
  all_goals (repeat' (first | with_reducible rfl | (with_reducible apply ite_quiet) | (with_reducible apply quiet_foldl_fst <;> intros)
                            | (with_reducible apply quiet_foldl_snd <;> intros) | (with_reducible apply quiet_foldl <;> intros) | split))
  all_goals (try simp)

@[simp] theorem State.failDec_quiet (s : State) (k src : Nat) : (s.failDec k src).quiet = s.quiet := by
  unfold State.failDec
  try simp only []
  repeat' (first | with_reducible rfl | (with_reducible apply ite_quiet) | (with_reducible apply quiet_foldl_fst <;> intros)
                 | (with_reducible apply quiet_foldl_snd <;> intros) | (with_reducible apply quiet_foldl <;> intros) | split)
  all_goals (try simp only [apply_ite State.quiet, ite_self])
  all_goals (try simp)
  all_goals (repeat' (first | with_reducible rfl | (with_reducible apply ite_quiet) | (with_reducible apply quiet_foldl_fst <;> intros)
                            | (with_reducible apply quiet_foldl_snd <;> intros) | (with_reducible apply quiet_foldl <;> intros) | split))
  all_goals (try simp)
  all_goals (repeat' (first | with_reducible rfl | (with_reducible apply ite_quiet) | (with_reducible apply quiet_foldl_fst <;> intros)
                            | (with_reducible apply quiet_foldl_snd <;> intros) | (with_reducible apply quiet_foldl <;> intros) | split))
  all_goals (try simp)

@[simp] theorem State.failStw_quiet (s : State) (u src : Nat) : (s.failStw u src).quiet = s.quiet := by
  unfold State.failStw
  try simp only []
  repeat' (first | with_reducible rfl | (with_reducible apply ite_quiet) | (with_reducible apply quiet_foldl_fst <;> intros)
                 | (with_reducible apply quiet_foldl_snd <;> intros) | (with_reducible apply quiet_foldl <;> intros) | split)
  all_goals (try simp only [apply_ite State.quiet, ite_self])
  all_goals (try simp)
  all_goals (repeat' (first | with_reducible rfl | (with_reducible apply ite_quiet) | (with_reducible apply quiet_foldl_fst <;> intros)
                            | (with_reducible apply quiet_foldl_snd <;> intros) | (with_reducible apply quiet_foldl <;> intros) | split))
  all_goals (try simp)
  all_goals (repeat' (first | with_reducible rfl | (with_reducible apply ite_quiet) | (with_reducible apply quiet_foldl_fst <;> intros)
                            | (with_reducible apply quiet_foldl_snd <;> intros) | (with_reducible apply quiet_foldl <;> intros) | split))
  all_goals (try simp)

@[simp] theorem State.failDma_quiet (s : State) (u src : Nat) : (s.failDma u src).quiet = s.quiet := by
  unfold State.failDma
  try simp only []
  repeat' (first | with_reducible rfl | (with_reducible apply ite_quiet) | (with_reducible apply quiet_foldl_fst <;> intros)
                 | (with_reducible apply quiet_foldl_snd <;> intros) | (with_reducible apply quiet_foldl <;> intros) | split)
  all_goals (try simp only [apply_ite State.quiet, ite_self])
  all_goals (try simp)
  all_goals (repeat' (first | with_reducible rfl | (with_reducible apply ite_quiet) | (with_reducible apply quiet_foldl_fst <;> intros)
                            | (with_reducible apply quiet_foldl_snd <;> intros) | (with_reducible apply quiet_foldl <;> intros) | split))
  all_goals (try simp)
  all_goals (repeat' (first | with_reducible rfl | (with_reducible apply ite_quiet) | (with_reducible apply quiet_foldl_fst <;> intros)
                            | (with_reducible apply quiet_foldl_snd <;> intros) | (with_reducible apply quiet_foldl <;> intros) | split))
  all_goals (try simp)

@[simp] theorem State.failPe_quiet (s : State) (u src : Nat) : (s.failPe u src).quiet = s.quiet := by
  unfold State.failPe
  try simp only []
  repeat' (first | with_reducible rfl | (with_reducible apply ite_quiet) | (with_reducible apply quiet_foldl_fst <;> intros)
                 | (with_reducible apply quiet_foldl_snd <;> intros) | (with_reducible apply quiet_foldl <;> intros) | split)
  all_goals (try simp only [apply_ite State.quiet, ite_self])
  all_goals (try simp)
  all_goals (repeat' (first | with_reducible rfl | (with_reducible apply ite_quiet) | (with_reducible apply quiet_foldl_fst <;> intros)
                            | (with_reducible apply quiet_foldl_snd <;> intros) | (with_reducible apply quiet_foldl <;> intros) | split))
  all_goals (try simp)
  all_goals (repeat' (first | with_reducible rfl | (with_reducible apply ite_quiet) | (with_reducible apply quiet_foldl_fst <;> intros)
                            | (with_reducible apply quiet_foldl_snd <;> intros) | (with_reducible apply quiet_foldl <;> intros) | split))
  all_goals (try simp)

@[simp] theorem State.failSrtp_quiet (s : State) (u src : Nat) : (s.failSrtp u src).quiet = s.quiet := by
  unfold State.failSrtp
  try simp only []
  repeat' (first | with_reducible rfl | (with_reducible apply ite_quiet) | (with_reducible apply quiet_foldl_fst <;> intros)
                 | (with_reducible apply quiet_foldl_snd <;> intros) | (with_reducible apply quiet_foldl <;> intros) | split)
  all_goals (try simp only [apply_ite State.quiet, ite_self])
  all_goals (try simp)
  all_goals (repeat' (first | with_reducible rfl | (with_reducible apply ite_quiet) | (with_reducible apply quiet_foldl_fst <;> intros)
                            | (with_reducible apply quiet_foldl_snd <;> intros) | (with_reducible apply quiet_foldl <;> intros) | split))
  all_goals (try simp)
  all_goals (repeat' (first | with_reducible rfl | (with_reducible apply ite_quiet) | (with_reducible apply quiet_foldl_fst <;> intros)
                            | (with_reducible apply quiet_foldl_snd <;> intros) | (with_reducible apply quiet_foldl <;> intros) | split))
  all_goals (try simp)

@[simp] theorem State.failLane_quiet (s : State) (u src : Nat) : (s.failLane u src).quiet = s.quiet := by
  unfold State.failLane
  try simp only []
  repeat' (first | with_reducible rfl | (with_reducible apply ite_quiet) | (with_reducible apply quiet_foldl_fst <;> intros)
                 | (with_reducible apply quiet_foldl_snd <;> intros) | (with_reducible apply quiet_foldl <;> intros) | split)
  all_goals (try simp only [apply_ite State.quiet, ite_self])
  all_goals (try simp)
  all_goals (repeat' (first | with_reducible rfl | (with_reducible apply ite_quiet) | (with_reducible apply quiet_foldl_fst <;> intros)
                            | (with_reducible apply quiet_foldl_snd <;> intros) | (with_reducible apply quiet_foldl <;> intros) | split))
  all_goals (try simp)
  all_goals (repeat' (first | with_reducible rfl | (with_reducible apply ite_quiet) | (with_reducible apply quiet_foldl_fst <;> intros)
                            | (with_reducible apply quiet_foldl_snd <;> intros) | (with_reducible apply quiet_foldl <;> intros) | split))
  all_goals (try simp)

@[simp] theorem State.gatherCut_quiet (s : State) (k : Nat) : (s.gatherCut k).quiet = s.quiet := by
  unfold State.gatherCut
  try simp only []
  repeat' (first | with_reducible rfl | (with_reducible apply ite_quiet) | (with_reducible apply quiet_foldl_fst <;> intros)
                 | (with_reducible apply quiet_foldl_snd <;> intros) | (with_reducible apply quiet_foldl <;> intros) | split)
  all_goals (try simp only [apply_ite State.quiet, ite_self])
  all_goals (try simp)
  all_goals (repeat' (first | with_reducible rfl | (with_reducible apply ite_quiet) | (with_reducible apply quiet_foldl_fst <;> intros)
                            | (with_reducible apply quiet_foldl_snd <;> intros) | (with_reducible apply quiet_foldl <;> intros) | split))
  all_goals (try simp)
  all_goals (repeat' (first | with_reducible rfl | (with_reducible apply ite_quiet) | (with_reducible apply quiet_foldl_fst <;> intros)
                            | (with_reducible apply quiet_foldl_snd <;> intros) | (with_reducible apply quiet_foldl <;> intros) | split))
  all_goals (try simp)

@[simp] theorem State.failPc_quiet (s : State) (u src : Nat) : (s.failPc u src).quiet = s.quiet := by
  unfold State.failPc
  try simp only []
  repeat' (first | with_reducible rfl | (with_reducible apply ite_quiet) | (with_reducible apply quiet_foldl_fst <;> intros)
                 | (with_reducible apply quiet_foldl_snd <;> intros) | (with_reducible apply quiet_foldl <;> intros) | split)
  all_goals (try simp only [apply_ite State.quiet, ite_self])
  all_goals (try simp)
  all_goals (repeat' (first | with_reducible rfl | (with_reducible apply ite_quiet) | (with_reducible apply quiet_foldl_fst <;> intros)
                            | (with_reducible apply quiet_foldl_snd <;> intros) | (with_reducible apply quiet_foldl <;> intros) | split))
  all_goals (try simp)
  all_goals (repeat' (first | with_reducible rfl | (with_reducible apply ite_quiet) | (with_reducible apply quiet_foldl_fst <;> intros)
                            | (with_reducible apply quiet_foldl_snd <;> intros) | (with_reducible apply quiet_foldl <;> intros) | split))
  all_goals (try simp)

@[simp] theorem State.failover_quiet (s : State) (kind : FoKind) (u src : Nat) : (s.failover kind u src).quiet = s.quiet := by
  unfold State.failover
  try simp only []
  repeat' (first | with_reducible rfl | (with_reducible apply ite_quiet) | (with_reducible apply quiet_foldl_fst <;> intros)
                 | (with_reducible apply quiet_foldl_snd <;> intros) | (with_reducible apply quiet_foldl <;> intros) | split)
  all_goals (try simp only [apply_ite State.quiet, ite_self])
  all_goals (try simp)
  all_goals (repeat' (first | with_reducible rfl | (with_reducible apply ite_quiet) | (with_reducible apply quiet_foldl_fst <;> intros)
                            | (with_reducible apply quiet_foldl_snd <;> intros) | (with_reducible apply quiet_foldl <;> intros) | split))
  all_goals (try simp)
  all_goals (repeat' (first | with_reducible rfl | (with_reducible apply ite_quiet) | (with_reducible apply quiet_foldl_fst <;> intros)
                            | (with_reducible apply quiet_foldl_snd <;> intros) | (with_reducible apply quiet_foldl <;> intros) | split))
  all_goals (try simp)

@[simp] theorem State.refreshReq_quiet (s : State) (ch : Nat) (now : Bool) : (s.refreshReq ch now).quiet = s.quiet := by
  unfold State.refreshReq
  try simp only []
  repeat' (first | with_reducible rfl | (with_reducible apply ite_quiet) | (with_reducible apply quiet_foldl_fst <;> intros)
                 | (with_reducible apply quiet_foldl_snd <;> intros) | (with_reducible apply quiet_foldl <;> intros) | split)
  all_goals (try simp only [apply_ite State.quiet, ite_self])
  all_goals (try simp)
  all_goals (repeat' (first | with_reducible rfl | (with_reducible apply ite_quiet) | (with_reducible apply quiet_foldl_fst <;> intros)
                            | (with_reducible apply quiet_foldl_snd <;> intros) | (with_reducible apply quiet_foldl <;> intros) | split))
  all_goals (try simp)
  all_goals (repeat' (first | with_reducible rfl | (with_reducible apply ite_quiet) | (with_reducible apply quiet_foldl_fst <;> intros)
                            | (with_reducible apply quiet_foldl_snd <;> intros) | (with_reducible apply quiet_foldl <;> intros) | split))
  all_goals (try simp)

@[simp] theorem State.gleanRefresh_quiet (s : State) (k : Nat) : (s.gleanRefresh k).quiet = s.quiet := by
  unfold State.gleanRefresh
  try simp only []
  repeat' (first | with_reducible rfl | (with_reducible apply ite_quiet) | (with_reducible apply quiet_foldl_fst <;> intros)
                 | (with_reducible apply quiet_foldl_snd <;> intros) | (with_reducible apply quiet_foldl <;> intros) | split)
  all_goals (try simp only [apply_ite State.quiet, ite_self])
  all_goals (try simp)
  all_goals (repeat' (first | with_reducible rfl | (with_reducible apply ite_quiet) | (with_reducible apply quiet_foldl_fst <;> intros)
                            | (with_reducible apply quiet_foldl_snd <;> intros) | (with_reducible apply quiet_foldl <;> intros) | split))
  all_goals (try simp)
  all_goals (repeat' (first | with_reducible rfl | (with_reducible apply ite_quiet) | (with_reducible apply quiet_foldl_fst <;> intros)
                            | (with_reducible apply quiet_foldl_snd <;> intros) | (with_reducible apply quiet_foldl <;> intros) | split))
  all_goals (try simp)

@[simp] theorem State.raiseIn_quiet (s : State) (n : Nat) (u : Option Nat) (held : Bool) (forced : Bool) (mute : Bool) :
    (s.raiseIn n u held forced mute).quiet = s.quiet := by
  unfold State.raiseIn
  try simp only []
  repeat' (first | with_reducible rfl | (with_reducible apply ite_quiet) | (with_reducible apply quiet_foldl_fst <;> intros)
                 | (with_reducible apply quiet_foldl_snd <;> intros) | (with_reducible apply quiet_foldl <;> intros) | split)
  all_goals (try simp only [apply_ite State.quiet, ite_self])
  all_goals (try simp)
  all_goals (repeat' (first | with_reducible rfl | (with_reducible apply ite_quiet) | (with_reducible apply quiet_foldl_fst <;> intros)
                            | (with_reducible apply quiet_foldl_snd <;> intros) | (with_reducible apply quiet_foldl <;> intros) | split))
  all_goals (try simp)
  all_goals (repeat' (first | with_reducible rfl | (with_reducible apply ite_quiet) | (with_reducible apply quiet_foldl_fst <;> intros)
                            | (with_reducible apply quiet_foldl_snd <;> intros) | (with_reducible apply quiet_foldl <;> intros) | split))
  all_goals (try simp)

@[simp] theorem State.raise_quiet (s : State) (n : Nat) : (s.raise n).quiet = s.quiet := by
  unfold State.raise
  try simp only []
  repeat' (first | with_reducible rfl | (with_reducible apply ite_quiet) | (with_reducible apply quiet_foldl_fst <;> intros)
                 | (with_reducible apply quiet_foldl_snd <;> intros) | (with_reducible apply quiet_foldl <;> intros) | split)
  all_goals (try simp only [apply_ite State.quiet, ite_self])
  all_goals (try simp)
  all_goals (repeat' (first | with_reducible rfl | (with_reducible apply ite_quiet) | (with_reducible apply quiet_foldl_fst <;> intros)
                            | (with_reducible apply quiet_foldl_snd <;> intros) | (with_reducible apply quiet_foldl <;> intros) | split))
  all_goals (try simp)
  all_goals (repeat' (first | with_reducible rfl | (with_reducible apply ite_quiet) | (with_reducible apply quiet_foldl_fst <;> intros)
                            | (with_reducible apply quiet_foldl_snd <;> intros) | (with_reducible apply quiet_foldl <;> intros) | split))
  all_goals (try simp)

@[simp] theorem State.raiseFrom_quiet (s : State) (n u : Nat) : (s.raiseFrom n u).quiet = s.quiet := by
  unfold State.raiseFrom
  try simp only []
  repeat' (first | with_reducible rfl | (with_reducible apply ite_quiet) | (with_reducible apply quiet_foldl_fst <;> intros)
                 | (with_reducible apply quiet_foldl_snd <;> intros) | (with_reducible apply quiet_foldl <;> intros) | split)
  all_goals (try simp only [apply_ite State.quiet, ite_self])
  all_goals (try simp)
  all_goals (repeat' (first | with_reducible rfl | (with_reducible apply ite_quiet) | (with_reducible apply quiet_foldl_fst <;> intros)
                            | (with_reducible apply quiet_foldl_snd <;> intros) | (with_reducible apply quiet_foldl <;> intros) | split))
  all_goals (try simp)
  all_goals (repeat' (first | with_reducible rfl | (with_reducible apply ite_quiet) | (with_reducible apply quiet_foldl_fst <;> intros)
                            | (with_reducible apply quiet_foldl_snd <;> intros) | (with_reducible apply quiet_foldl <;> intros) | split))
  all_goals (try simp)

@[simp] theorem State.setLine_quiet (s : State) (n : Nat) (level : Bool) : (s.setLine n level).quiet = s.quiet := by
  unfold State.setLine
  try simp only []
  repeat' (first | with_reducible rfl | (with_reducible apply ite_quiet) | (with_reducible apply quiet_foldl_fst <;> intros)
                 | (with_reducible apply quiet_foldl_snd <;> intros) | (with_reducible apply quiet_foldl <;> intros) | split)
  all_goals (try simp only [apply_ite State.quiet, ite_self])
  all_goals (try simp)
  all_goals (repeat' (first | with_reducible rfl | (with_reducible apply ite_quiet) | (with_reducible apply quiet_foldl_fst <;> intros)
                            | (with_reducible apply quiet_foldl_snd <;> intros) | (with_reducible apply quiet_foldl <;> intros) | split))
  all_goals (try simp)
  all_goals (repeat' (first | with_reducible rfl | (with_reducible apply ite_quiet) | (with_reducible apply quiet_foldl_fst <;> intros)
                            | (with_reducible apply quiet_foldl_snd <;> intros) | (with_reducible apply quiet_foldl <;> intros) | split))
  all_goals (try simp)

@[simp] theorem State.sortEnc_quiet (s s₀ : State) : (s.sortEnc s₀).quiet = s.quiet := by
  unfold State.sortEnc
  exact quiet_foldl (fun s e => State.setLane_quiet ..) rfl

@[simp] theorem State.sortDec_quiet (s s₀ : State) : (s.sortDec s₀).quiet = s.quiet := by
  unfold State.sortDec
  exact quiet_foldl (fun s e => State.setDLane_quiet ..) rfl

@[simp] theorem State.raiseAll_quiet (s : State) (evs : List FaultEv) (forced : Bool) : (s.raiseAll evs forced).quiet = s.quiet := by
  have h : (evs.foldl (fun (a : State × List Nat) e =>
      let mute := s.muted (fltUnit e.src (some e.unit))
      (a.1.raiseIn e.src (some e.unit) (a.2.contains (fltClass e.src)) forced mute,
        if a.1.canRise e.src forced && a.1.flt.installed && !mute then fltClass e.src :: a.2 else a.2)) (s, [])).1.quiet = s.quiet :=
    quiet_foldl_fst (fun p e => State.raiseIn_quiet ..) rfl
  unfold State.raiseAll
  dsimp only
  split
  · rw [State.sortDec_quiet, State.sortEnc_quiet]; exact h
  · exact h

@[simp] theorem State.faultHit_quiet (s : State) (e : FaultEv) : (s.faultHit e).quiet = s.quiet := by
  unfold State.faultHit
  try simp only []
  repeat' (first | with_reducible rfl | (with_reducible apply ite_quiet) | (with_reducible apply quiet_foldl_fst <;> intros)
                 | (with_reducible apply quiet_foldl_snd <;> intros) | (with_reducible apply quiet_foldl <;> intros) | split)
  all_goals (try simp only [apply_ite State.quiet, ite_self])
  all_goals (try simp)
  all_goals (repeat' (first | with_reducible rfl | (with_reducible apply ite_quiet) | (with_reducible apply quiet_foldl_fst <;> intros)
                            | (with_reducible apply quiet_foldl_snd <;> intros) | (with_reducible apply quiet_foldl <;> intros) | split))
  all_goals (try simp)
  all_goals (repeat' (first | with_reducible rfl | (with_reducible apply ite_quiet) | (with_reducible apply quiet_foldl_fst <;> intros)
                            | (with_reducible apply quiet_foldl_snd <;> intros) | (with_reducible apply quiet_foldl <;> intros) | split))
  all_goals (try simp)

theorem execFaultEvent_quiet (evs : List FaultEv) (s : State) (t : State) (h : execFaultEvent evs s = .next t) : t.quiet = s.quiet := by
  unfold execFaultEvent at h
  injection h with h
  subst h
  try simp only []
  repeat' (first | with_reducible rfl | (with_reducible apply ite_quiet) | (with_reducible apply quiet_foldl_fst <;> intros)
                 | (with_reducible apply quiet_foldl_snd <;> intros) | (with_reducible apply quiet_foldl <;> intros) | split)
  all_goals (try simp only [apply_ite State.quiet, ite_self])
  all_goals (try simp)
  all_goals (repeat' (first | with_reducible rfl | (with_reducible apply ite_quiet) | (with_reducible apply quiet_foldl_fst <;> intros)
                            | (with_reducible apply quiet_foldl_snd <;> intros) | (with_reducible apply quiet_foldl <;> intros) | split))
  all_goals (try simp)
  all_goals (repeat' (first | with_reducible rfl | (with_reducible apply ite_quiet) | (with_reducible apply quiet_foldl_fst <;> intros)
                            | (with_reducible apply quiet_foldl_snd <;> intros) | (with_reducible apply quiet_foldl <;> intros) | split))
  all_goals (try simp)

@[simp] theorem State.packedWrite_quiet (s : State) (d a n col : Nat) (vs : List Nat) : (s.packedWrite d a n col vs).quiet = s.quiet := by
  unfold State.packedWrite
  try simp only []
  repeat' (first | with_reducible rfl | (with_reducible apply ite_quiet) | (with_reducible apply quiet_foldl_fst <;> intros)
                 | (with_reducible apply quiet_foldl_snd <;> intros) | (with_reducible apply quiet_foldl <;> intros) | split)
  all_goals (try simp only [apply_ite State.quiet, ite_self])
  all_goals (try simp)
  all_goals (repeat' (first | with_reducible rfl | (with_reducible apply ite_quiet) | (with_reducible apply quiet_foldl_fst <;> intros)
                            | (with_reducible apply quiet_foldl_snd <;> intros) | (with_reducible apply quiet_foldl <;> intros) | split))
  all_goals (try simp)
  all_goals (repeat' (first | with_reducible rfl | (with_reducible apply ite_quiet) | (with_reducible apply quiet_foldl_fst <;> intros)
                            | (with_reducible apply quiet_foldl_snd <;> intros) | (with_reducible apply quiet_foldl <;> intros) | split))
  all_goals (try simp)

@[simp] theorem State.ringWrite_quiet (s : State) (c : Class) (ch slot plane row col : Nat) (vs : List Nat) :
    (s.ringWrite c ch slot plane row col vs).quiet = s.quiet := by
  unfold State.ringWrite
  try simp only []
  repeat' (first | with_reducible rfl | (with_reducible apply ite_quiet) | (with_reducible apply quiet_foldl_fst <;> intros)
                 | (with_reducible apply quiet_foldl_snd <;> intros) | (with_reducible apply quiet_foldl <;> intros) | split)
  all_goals (try simp only [apply_ite State.quiet, ite_self])
  all_goals (try simp)
  all_goals (repeat' (first | with_reducible rfl | (with_reducible apply ite_quiet) | (with_reducible apply quiet_foldl_fst <;> intros)
                            | (with_reducible apply quiet_foldl_snd <;> intros) | (with_reducible apply quiet_foldl <;> intros) | split))
  all_goals (try simp)
  all_goals (repeat' (first | with_reducible rfl | (with_reducible apply ite_quiet) | (with_reducible apply quiet_foldl_fst <;> intros)
                            | (with_reducible apply quiet_foldl_snd <;> intros) | (with_reducible apply quiet_foldl <;> intros) | split))
  all_goals (try simp)

@[simp] theorem State.reconWrite_quiet (s : State) (c : Class) (ch b plane row col : Nat) (vs : List Nat) :
    (s.reconWrite c ch b plane row col vs).quiet = s.quiet := by
  unfold State.reconWrite
  try simp only []
  repeat' (first | with_reducible rfl | (with_reducible apply ite_quiet) | (with_reducible apply quiet_foldl_fst <;> intros)
                 | (with_reducible apply quiet_foldl_snd <;> intros) | (with_reducible apply quiet_foldl <;> intros) | split)
  all_goals (try simp only [apply_ite State.quiet, ite_self])
  all_goals (try simp)
  all_goals (repeat' (first | with_reducible rfl | (with_reducible apply ite_quiet) | (with_reducible apply quiet_foldl_fst <;> intros)
                            | (with_reducible apply quiet_foldl_snd <;> intros) | (with_reducible apply quiet_foldl <;> intros) | split))
  all_goals (try simp)
  all_goals (repeat' (first | with_reducible rfl | (with_reducible apply ite_quiet) | (with_reducible apply quiet_foldl_fst <;> intros)
                            | (with_reducible apply quiet_foldl_snd <;> intros) | (with_reducible apply quiet_foldl <;> intros) | split))
  all_goals (try simp)

@[simp] theorem State.decPut_quiet (s : State) (x b plane row col : Nat) (vs : List Nat) :
    (s.decPut x b plane row col vs).quiet = s.quiet := by
  unfold State.decPut
  try simp only []
  repeat' (first | with_reducible rfl | (with_reducible apply ite_quiet) | (with_reducible apply quiet_foldl_fst <;> intros)
                 | (with_reducible apply quiet_foldl_snd <;> intros) | (with_reducible apply quiet_foldl <;> intros) | split)
  all_goals (try simp only [apply_ite State.quiet, ite_self])
  all_goals (try simp)
  all_goals (repeat' (first | with_reducible rfl | (with_reducible apply ite_quiet) | (with_reducible apply quiet_foldl_fst <;> intros)
                            | (with_reducible apply quiet_foldl_snd <;> intros) | (with_reducible apply quiet_foldl <;> intros) | split))
  all_goals (try simp)
  all_goals (repeat' (first | with_reducible rfl | (with_reducible apply ite_quiet) | (with_reducible apply quiet_foldl_fst <;> intros)
                            | (with_reducible apply quiet_foldl_snd <;> intros) | (with_reducible apply quiet_foldl <;> intros) | split))
  all_goals (try simp)

@[simp] theorem State.fillRow_quiet (s : State) (c : Class) (ch plane row w : Nat) : (s.fillRow c ch plane row w).quiet = s.quiet := by
  unfold State.fillRow
  try simp only []
  repeat' (first | with_reducible rfl | (with_reducible apply ite_quiet) | (with_reducible apply quiet_foldl_fst <;> intros)
                 | (with_reducible apply quiet_foldl_snd <;> intros) | (with_reducible apply quiet_foldl <;> intros) | split)
  all_goals (try simp only [apply_ite State.quiet, ite_self])
  all_goals (try simp)
  all_goals (repeat' (first | with_reducible rfl | (with_reducible apply ite_quiet) | (with_reducible apply quiet_foldl_fst <;> intros)
                            | (with_reducible apply quiet_foldl_snd <;> intros) | (with_reducible apply quiet_foldl <;> intros) | split))
  all_goals (try simp)
  all_goals (repeat' (first | with_reducible rfl | (with_reducible apply ite_quiet) | (with_reducible apply quiet_foldl_fst <;> intros)
                            | (with_reducible apply quiet_foldl_snd <;> intros) | (with_reducible apply quiet_foldl <;> intros) | split))
  all_goals (try simp)

@[simp] theorem State.fillSheaf_quiet (s : State) (c : Class) (ch sh : Nat) : (s.fillSheaf c ch sh).2.2.quiet = s.quiet := by
  unfold State.fillSheaf
  try simp only []
  repeat' (first | with_reducible rfl | (with_reducible apply ite_quiet) | (with_reducible apply quiet_foldl_fst <;> intros)
                 | (with_reducible apply quiet_foldl_snd <;> intros) | (with_reducible apply quiet_foldl <;> intros) | split)
  all_goals (try simp only [apply_ite State.quiet, ite_self])
  all_goals (try simp)
  all_goals (repeat' (first | with_reducible rfl | (with_reducible apply ite_quiet) | (with_reducible apply quiet_foldl_fst <;> intros)
                            | (with_reducible apply quiet_foldl_snd <;> intros) | (with_reducible apply quiet_foldl <;> intros) | split))
  all_goals (try simp)
  all_goals (repeat' (first | with_reducible rfl | (with_reducible apply ite_quiet) | (with_reducible apply quiet_foldl_fst <;> intros)
                            | (with_reducible apply quiet_foldl_snd <;> intros) | (with_reducible apply quiet_foldl <;> intros) | split))
  all_goals (try simp)

@[simp] theorem State.markBuf_quiet (s : State) (x b : Nat) (f : Marks → Marks) : (s.markBuf x b f).quiet = s.quiet := by
  unfold State.markBuf
  try simp only []
  repeat' (first | with_reducible rfl | (with_reducible apply ite_quiet) | (with_reducible apply quiet_foldl_fst <;> intros)
                 | (with_reducible apply quiet_foldl_snd <;> intros) | (with_reducible apply quiet_foldl <;> intros) | split)
  all_goals (try simp only [apply_ite State.quiet, ite_self])
  all_goals (try simp)
  all_goals (repeat' (first | with_reducible rfl | (with_reducible apply ite_quiet) | (with_reducible apply quiet_foldl_fst <;> intros)
                            | (with_reducible apply quiet_foldl_snd <;> intros) | (with_reducible apply quiet_foldl <;> intros) | split))
  all_goals (try simp)
  all_goals (repeat' (first | with_reducible rfl | (with_reducible apply ite_quiet) | (with_reducible apply quiet_foldl_fst <;> intros)
                            | (with_reducible apply quiet_foldl_snd <;> intros) | (with_reducible apply quiet_foldl <;> intros) | split))
  all_goals (try simp)

@[simp] theorem State.bindClosed_quiet (s : State) (c : Class) (ch : Nat) : (s.bindClosed c ch).quiet = s.quiet := by
  unfold State.bindClosed
  try simp only []
  repeat' (first | with_reducible rfl | (with_reducible apply ite_quiet) | (with_reducible apply quiet_foldl_fst <;> intros)
                 | (with_reducible apply quiet_foldl_snd <;> intros) | (with_reducible apply quiet_foldl <;> intros) | split)
  all_goals (try simp only [apply_ite State.quiet, ite_self])
  all_goals (try simp)
  all_goals (repeat' (first | with_reducible rfl | (with_reducible apply ite_quiet) | (with_reducible apply quiet_foldl_fst <;> intros)
                            | (with_reducible apply quiet_foldl_snd <;> intros) | (with_reducible apply quiet_foldl <;> intros) | split))
  all_goals (try simp)
  all_goals (repeat' (first | with_reducible rfl | (with_reducible apply ite_quiet) | (with_reducible apply quiet_foldl_fst <;> intros)
                            | (with_reducible apply quiet_foldl_snd <;> intros) | (with_reducible apply quiet_foldl <;> intros) | split))
  all_goals (try simp)

@[simp] theorem State.closeSheaf_quiet (s : State) (c : Class) (ch sh : Nat) (byDue : Bool) :
    (s.closeSheaf c ch sh byDue).quiet = s.quiet := by
  unfold State.closeSheaf
  try simp only []
  repeat' (first | with_reducible rfl | (with_reducible apply ite_quiet) | (with_reducible apply quiet_foldl_fst <;> intros)
                 | (with_reducible apply quiet_foldl_snd <;> intros) | (with_reducible apply quiet_foldl <;> intros) | split)
  all_goals (try simp only [apply_ite State.quiet, ite_self])
  all_goals (try simp)
  all_goals (repeat' (first | with_reducible rfl | (with_reducible apply ite_quiet) | (with_reducible apply quiet_foldl_fst <;> intros)
                            | (with_reducible apply quiet_foldl_snd <;> intros) | (with_reducible apply quiet_foldl <;> intros) | split))
  all_goals (try simp)
  all_goals (repeat' (first | with_reducible rfl | (with_reducible apply ite_quiet) | (with_reducible apply quiet_foldl_fst <;> intros)
                            | (with_reducible apply quiet_foldl_snd <;> intros) | (with_reducible apply quiet_foldl <;> intros) | split))
  all_goals (try simp)

@[simp] theorem State.settleSheaf_quiet (s : State) (c : Class) (ch sh : Nat) : (s.settleSheaf c ch sh).quiet = s.quiet := by
  unfold State.settleSheaf
  try simp only []
  repeat' (first | with_reducible rfl | (with_reducible apply ite_quiet) | (with_reducible apply quiet_foldl_fst <;> intros)
                 | (with_reducible apply quiet_foldl_snd <;> intros) | (with_reducible apply quiet_foldl <;> intros) | split)
  all_goals (try simp only [apply_ite State.quiet, ite_self])
  all_goals (try simp)
  all_goals (repeat' (first | with_reducible rfl | (with_reducible apply ite_quiet) | (with_reducible apply quiet_foldl_fst <;> intros)
                            | (with_reducible apply quiet_foldl_snd <;> intros) | (with_reducible apply quiet_foldl <;> intros) | split))
  all_goals (try simp)
  all_goals (repeat' (first | with_reducible rfl | (with_reducible apply ite_quiet) | (with_reducible apply quiet_foldl_fst <;> intros)
                            | (with_reducible apply quiet_foldl_snd <;> intros) | (with_reducible apply quiet_foldl <;> intros) | split))
  all_goals (try simp)

@[simp] theorem State.bindSkip_quiet (s : State) (x : Nat) (bufs : List Nat) : (s.bindSkip x bufs).quiet = s.quiet := by
  unfold State.bindSkip
  try simp only []
  repeat' (first | with_reducible rfl | (with_reducible apply ite_quiet) | (with_reducible apply quiet_foldl_fst <;> intros)
                 | (with_reducible apply quiet_foldl_snd <;> intros) | (with_reducible apply quiet_foldl <;> intros) | split)
  all_goals (try simp only [apply_ite State.quiet, ite_self])
  all_goals (try simp)
  all_goals (repeat' (first | with_reducible rfl | (with_reducible apply ite_quiet) | (with_reducible apply quiet_foldl_fst <;> intros)
                            | (with_reducible apply quiet_foldl_snd <;> intros) | (with_reducible apply quiet_foldl <;> intros) | split))
  all_goals (try simp)
  all_goals (repeat' (first | with_reducible rfl | (with_reducible apply ite_quiet) | (with_reducible apply quiet_foldl_fst <;> intros)
                            | (with_reducible apply quiet_foldl_snd <;> intros) | (with_reducible apply quiet_foldl <;> intros) | split))
  all_goals (try simp)

@[simp] theorem State.bindRows_quiet (s : State) (x b : Nat) : (s.bindRows x b).quiet = s.quiet := by
  unfold State.bindRows
  try simp only []
  repeat' (first | with_reducible rfl | (with_reducible apply ite_quiet) | (with_reducible apply quiet_foldl_fst <;> intros)
                 | (with_reducible apply quiet_foldl_snd <;> intros) | (with_reducible apply quiet_foldl <;> intros) | split)
  all_goals (try simp only [apply_ite State.quiet, ite_self])
  all_goals (try simp)
  all_goals (repeat' (first | with_reducible rfl | (with_reducible apply ite_quiet) | (with_reducible apply quiet_foldl_fst <;> intros)
                            | (with_reducible apply quiet_foldl_snd <;> intros) | (with_reducible apply quiet_foldl <;> intros) | split))
  all_goals (try simp)
  all_goals (repeat' (first | with_reducible rfl | (with_reducible apply ite_quiet) | (with_reducible apply quiet_foldl_fst <;> intros)
                            | (with_reducible apply quiet_foldl_snd <;> intros) | (with_reducible apply quiet_foldl <;> intros) | split))
  all_goals (try simp)

@[simp] theorem State.noteConc_quiet (s : State) (ch x b flags : Nat) : (s.noteConc ch x b flags).quiet = s.quiet := by
  unfold State.noteConc
  try simp only []
  repeat' (first | with_reducible rfl | (with_reducible apply ite_quiet) | (with_reducible apply quiet_foldl_fst <;> intros)
                 | (with_reducible apply quiet_foldl_snd <;> intros) | (with_reducible apply quiet_foldl <;> intros) | split)
  all_goals (try simp only [apply_ite State.quiet, ite_self])
  all_goals (try simp)
  all_goals (repeat' (first | with_reducible rfl | (with_reducible apply ite_quiet) | (with_reducible apply quiet_foldl_fst <;> intros)
                            | (with_reducible apply quiet_foldl_snd <;> intros) | (with_reducible apply quiet_foldl <;> intros) | split))
  all_goals (try simp)
  all_goals (repeat' (first | with_reducible rfl | (with_reducible apply ite_quiet) | (with_reducible apply quiet_foldl_fst <;> intros)
                            | (with_reducible apply quiet_foldl_snd <;> intros) | (with_reducible apply quiet_foldl <;> intros) | split))
  all_goals (try simp)

@[simp] theorem State.takePic_quiet (s : State) (c : Class) (ch x b : Nat) : (s.takePic c ch x b).quiet = s.quiet := by
  unfold State.takePic
  try simp only []
  repeat' (first | with_reducible rfl | (with_reducible apply ite_quiet) | (with_reducible apply quiet_foldl_fst <;> intros)
                 | (with_reducible apply quiet_foldl_snd <;> intros) | (with_reducible apply quiet_foldl <;> intros) | split)
  all_goals (try simp only [apply_ite State.quiet, ite_self])
  all_goals (try simp)
  all_goals (repeat' (first | with_reducible rfl | (with_reducible apply ite_quiet) | (with_reducible apply quiet_foldl_fst <;> intros)
                            | (with_reducible apply quiet_foldl_snd <;> intros) | (with_reducible apply quiet_foldl <;> intros) | split))
  all_goals (try simp)
  all_goals (repeat' (first | with_reducible rfl | (with_reducible apply ite_quiet) | (with_reducible apply quiet_foldl_fst <;> intros)
                            | (with_reducible apply quiet_foldl_snd <;> intros) | (with_reducible apply quiet_foldl <;> intros) | split))
  all_goals (try simp)

@[simp] theorem State.bindFrame_quiet (s : State) (c : Class) (ch x : Nat) : (s.bindFrame c ch x).quiet = s.quiet := by
  unfold State.bindFrame
  try simp only []
  repeat' (first | with_reducible rfl | (with_reducible apply ite_quiet) | (with_reducible apply quiet_foldl_fst <;> intros)
                 | (with_reducible apply quiet_foldl_snd <;> intros) | (with_reducible apply quiet_foldl <;> intros) | split)
  all_goals (try simp only [apply_ite State.quiet, ite_self])
  all_goals (try simp)
  all_goals (repeat' (first | with_reducible rfl | (with_reducible apply ite_quiet) | (with_reducible apply quiet_foldl_fst <;> intros)
                            | (with_reducible apply quiet_foldl_snd <;> intros) | (with_reducible apply quiet_foldl <;> intros) | split))
  all_goals (try simp)
  all_goals (repeat' (first | with_reducible rfl | (with_reducible apply ite_quiet) | (with_reducible apply quiet_foldl_fst <;> intros)
                            | (with_reducible apply quiet_foldl_snd <;> intros) | (with_reducible apply quiet_foldl <;> intros) | split))
  all_goals (try simp)

@[simp] theorem State.bindDone_quiet (s : State) (ch fr : Nat) : (s.bindDone ch fr).quiet = s.quiet := by
  unfold State.bindDone
  try simp only []
  repeat' (first | with_reducible rfl | (with_reducible apply ite_quiet) | (with_reducible apply quiet_foldl_fst <;> intros)
                 | (with_reducible apply quiet_foldl_snd <;> intros) | (with_reducible apply quiet_foldl <;> intros) | split)
  all_goals (try simp only [apply_ite State.quiet, ite_self])
  all_goals (try simp)
  all_goals (repeat' (first | with_reducible rfl | (with_reducible apply ite_quiet) | (with_reducible apply quiet_foldl_fst <;> intros)
                            | (with_reducible apply quiet_foldl_snd <;> intros) | (with_reducible apply quiet_foldl <;> intros) | split))
  all_goals (try simp)
  all_goals (repeat' (first | with_reducible rfl | (with_reducible apply ite_quiet) | (with_reducible apply quiet_foldl_fst <;> intros)
                            | (with_reducible apply quiet_foldl_snd <;> intros) | (with_reducible apply quiet_foldl <;> intros) | split))
  all_goals (try simp)

@[simp] theorem State.openFrame_quiet (s : State) (c : Class) (ch fr : Nat) : (s.openFrame c ch fr).quiet = s.quiet := by
  unfold State.openFrame
  try simp only []
  repeat' (first | with_reducible rfl | (with_reducible apply ite_quiet) | (with_reducible apply quiet_foldl_fst <;> intros)
                 | (with_reducible apply quiet_foldl_snd <;> intros) | (with_reducible apply quiet_foldl <;> intros) | split)
  all_goals (try simp only [apply_ite State.quiet, ite_self])
  all_goals (try simp)
  all_goals (repeat' (first | with_reducible rfl | (with_reducible apply ite_quiet) | (with_reducible apply quiet_foldl_fst <;> intros)
                            | (with_reducible apply quiet_foldl_snd <;> intros) | (with_reducible apply quiet_foldl <;> intros) | split))
  all_goals (try simp)
  all_goals (repeat' (first | with_reducible rfl | (with_reducible apply ite_quiet) | (with_reducible apply quiet_foldl_fst <;> intros)
                            | (with_reducible apply quiet_foldl_snd <;> intros) | (with_reducible apply quiet_foldl <;> intros) | split))
  all_goals (try simp)

@[simp] theorem State.closeRest_quiet (s : State) (c : Class) (ch : Nat) : (s.closeRest c ch).quiet = s.quiet := by
  unfold State.closeRest
  try simp only []
  repeat' (first | with_reducible rfl | (with_reducible apply ite_quiet) | (with_reducible apply quiet_foldl_fst <;> intros)
                 | (with_reducible apply quiet_foldl_snd <;> intros) | (with_reducible apply quiet_foldl <;> intros) | split)
  all_goals (try simp only [apply_ite State.quiet, ite_self])
  all_goals (try simp)
  all_goals (repeat' (first | with_reducible rfl | (with_reducible apply ite_quiet) | (with_reducible apply quiet_foldl_fst <;> intros)
                            | (with_reducible apply quiet_foldl_snd <;> intros) | (with_reducible apply quiet_foldl <;> intros) | split))
  all_goals (try simp)
  all_goals (repeat' (first | with_reducible rfl | (with_reducible apply ite_quiet) | (with_reducible apply quiet_foldl_fst <;> intros)
                            | (with_reducible apply quiet_foldl_snd <;> intros) | (with_reducible apply quiet_foldl <;> intros) | split))
  all_goals (try simp)

@[simp] theorem State.dueArrive_quiet (s : State) (ch fr sh : Nat) : (s.dueArrive ch fr sh).quiet = s.quiet := by
  unfold State.dueArrive
  try simp only []
  repeat' (first | with_reducible rfl | (with_reducible apply ite_quiet) | (with_reducible apply quiet_foldl_fst <;> intros)
                 | (with_reducible apply quiet_foldl_snd <;> intros) | (with_reducible apply quiet_foldl <;> intros) | split)
  all_goals (try simp only [apply_ite State.quiet, ite_self])
  all_goals (try simp)
  all_goals (repeat' (first | with_reducible rfl | (with_reducible apply ite_quiet) | (with_reducible apply quiet_foldl_fst <;> intros)
                            | (with_reducible apply quiet_foldl_snd <;> intros) | (with_reducible apply quiet_foldl <;> intros) | split))
  all_goals (try simp)
  all_goals (repeat' (first | with_reducible rfl | (with_reducible apply ite_quiet) | (with_reducible apply quiet_foldl_fst <;> intros)
                            | (with_reducible apply quiet_foldl_snd <;> intros) | (with_reducible apply quiet_foldl <;> intros) | split))
  all_goals (try simp)

@[simp] theorem State.beginSession_quiet (s : State) (ch : Nat) (at_ : Bool) : (s.beginSession ch at_).quiet = s.quiet := by
  unfold State.beginSession
  try simp only []
  repeat' (first | with_reducible rfl | (with_reducible apply ite_quiet) | (with_reducible apply quiet_foldl_fst <;> intros)
                 | (with_reducible apply quiet_foldl_snd <;> intros) | (with_reducible apply quiet_foldl <;> intros) | split)
  all_goals (try simp only [apply_ite State.quiet, ite_self])
  all_goals (try simp)
  all_goals (repeat' (first | with_reducible rfl | (with_reducible apply ite_quiet) | (with_reducible apply quiet_foldl_fst <;> intros)
                            | (with_reducible apply quiet_foldl_snd <;> intros) | (with_reducible apply quiet_foldl <;> intros) | split))
  all_goals (try simp)
  all_goals (repeat' (first | with_reducible rfl | (with_reducible apply ite_quiet) | (with_reducible apply quiet_foldl_fst <;> intros)
                            | (with_reducible apply quiet_foldl_snd <;> intros) | (with_reducible apply quiet_foldl <;> intros) | split))
  all_goals (try simp)

@[simp] theorem State.rgbKeep_quiet (s : State) (ch row col w : Nat) (bs : List Byte) : (s.rgbKeep ch row col w bs).quiet = s.quiet := by
  unfold State.rgbKeep
  try simp only []
  repeat' (first | with_reducible rfl | (with_reducible apply ite_quiet) | (with_reducible apply quiet_foldl_fst <;> intros)
                 | (with_reducible apply quiet_foldl_snd <;> intros) | (with_reducible apply quiet_foldl <;> intros) | split)
  all_goals (try simp only [apply_ite State.quiet, ite_self])
  all_goals (try simp)
  all_goals (repeat' (first | with_reducible rfl | (with_reducible apply ite_quiet) | (with_reducible apply quiet_foldl_fst <;> intros)
                            | (with_reducible apply quiet_foldl_snd <;> intros) | (with_reducible apply quiet_foldl <;> intros) | split))
  all_goals (try simp)
  all_goals (repeat' (first | with_reducible rfl | (with_reducible apply ite_quiet) | (with_reducible apply quiet_foldl_fst <;> intros)
                            | (with_reducible apply quiet_foldl_snd <;> intros) | (with_reducible apply quiet_foldl <;> intros) | split))
  all_goals (try simp)

@[simp] theorem State.writeSeg_quiet (s : State) (c : Class) (ch plane row seg : Nat) (bs next : List Byte) :
    (s.writeSeg c ch plane row seg bs next).quiet = s.quiet := by
  unfold State.writeSeg
  repeat' (first | with_reducible rfl | (with_reducible apply ite_quiet)
                 | (with_reducible refine resState_quiet ?_ (fun t h => ?_); rotate_left; first | apply execFuseBurnOwner_quiet; exact h
                                                                                                | apply execFuseBurnDebugClose_quiet; exact h
                                                                                                | apply execIrqHostAck_quiet; exact h
                                                                                                | apply execIrqSwSet_quiet; exact h
                                                                                                | apply execIrqSrcCfg_quiet; exact h
                                                                                                | apply execFltAckAll_quiet; exact h
                                                                                                | apply execFltAck_quiet; exact h
                                                                                                | apply execMsixMask_quiet; exact h
                                                                                                | apply execMbxCtrl_quiet; exact h
                                                                                                | apply execMbxAbort_quiet; exact h
                                                                                                | apply execAbortDrain_quiet; exact h
                                                                                                | apply execFabLock_quiet; exact h
                                                                                                | apply execFabUnfreeze_quiet; exact h
                                                                                                | apply execDecFeed_quiet; exact h
                                                                                                | apply execDecRelease_quiet; exact h
                                                                                                | apply execDmaAbort_quiet; exact h
                                                                                                | apply execDmaStart_quiet; exact h
                                                                                                | apply execDmaFifoFlush_quiet; exact h
                                                                                                | apply execPwrIslReq_quiet; exact h
                                                                                                | apply execPwrIslFreq_quiet; exact h
                                                                                                | apply execIngDb_quiet; exact h)
                 | split)
  all_goals (try simp)
  all_goals (repeat' (first | with_reducible rfl | (with_reducible apply ite_quiet)
                            | (with_reducible refine resState_quiet ?_ (fun t h => ?_); rotate_left; first | apply execFuseBurnOwner_quiet; exact h
                                                                                                           | apply execFuseBurnDebugClose_quiet; exact h
                                                                                                           | apply execIrqHostAck_quiet; exact h
                                                                                                           | apply execIrqSwSet_quiet; exact h
                                                                                                           | apply execIrqSrcCfg_quiet; exact h
                                                                                                           | apply execFltAckAll_quiet; exact h
                                                                                                           | apply execFltAck_quiet; exact h
                                                                                                           | apply execMsixMask_quiet; exact h
                                                                                                           | apply execMbxCtrl_quiet; exact h
                                                                                                           | apply execMbxAbort_quiet; exact h
                                                                                                           | apply execAbortDrain_quiet; exact h
                                                                                                           | apply execFabLock_quiet; exact h
                                                                                                           | apply execFabUnfreeze_quiet; exact h
                                                                                                           | apply execDecFeed_quiet; exact h
                                                                                                           | apply execDecRelease_quiet; exact h
                                                                                                           | apply execDmaAbort_quiet; exact h
                                                                                                           | apply execDmaStart_quiet; exact h
                                                                                                           | apply execDmaFifoFlush_quiet; exact h
                                                                                                           | apply execPwrIslReq_quiet; exact h
                                                                                                           | apply execPwrIslFreq_quiet; exact h
                                                                                                           | apply execIngDb_quiet; exact h)
                            | split))
  all_goals (try simp)

@[simp] theorem State.vftAccept_quiet (s : State) (p : VftPkt) : (s.vftAccept p).quiet = s.quiet := by
  unfold State.vftAccept
  try simp only []
  repeat' (first | with_reducible rfl | (with_reducible apply ite_quiet) | (with_reducible apply quiet_foldl_fst <;> intros)
                 | (with_reducible apply quiet_foldl_snd <;> intros) | (with_reducible apply quiet_foldl <;> intros) | split)
  all_goals (try simp only [apply_ite State.quiet, ite_self])
  all_goals (try simp)
  all_goals (repeat' (first | with_reducible rfl | (with_reducible apply ite_quiet) | (with_reducible apply quiet_foldl_fst <;> intros)
                            | (with_reducible apply quiet_foldl_snd <;> intros) | (with_reducible apply quiet_foldl <;> intros) | split))
  all_goals (try simp)
  all_goals (repeat' (first | with_reducible rfl | (with_reducible apply ite_quiet) | (with_reducible apply quiet_foldl_fst <;> intros)
                            | (with_reducible apply quiet_foldl_snd <;> intros) | (with_reducible apply quiet_foldl <;> intros) | split))
  all_goals (try simp)

@[simp] theorem State.aptWrite_quiet (s : State) (off : Nat) (bs : List Byte) : (s.aptWrite off bs).quiet = s.quiet := by
  unfold State.aptWrite
  try simp only []
  repeat' (first | with_reducible rfl | (with_reducible apply ite_quiet) | (with_reducible apply quiet_foldl_fst <;> intros)
                 | (with_reducible apply quiet_foldl_snd <;> intros) | (with_reducible apply quiet_foldl <;> intros) | split)
  all_goals (try simp only [apply_ite State.quiet, ite_self])
  all_goals (try simp)
  all_goals (repeat' (first | with_reducible rfl | (with_reducible apply ite_quiet) | (with_reducible apply quiet_foldl_fst <;> intros)
                            | (with_reducible apply quiet_foldl_snd <;> intros) | (with_reducible apply quiet_foldl <;> intros) | split))
  all_goals (try simp)
  all_goals (repeat' (first | with_reducible rfl | (with_reducible apply ite_quiet) | (with_reducible apply quiet_foldl_fst <;> intros)
                            | (with_reducible apply quiet_foldl_snd <;> intros) | (with_reducible apply quiet_foldl <;> intros) | split))
  all_goals (try simp)

@[simp] theorem State.aptPop_quiet (s : State) (bs : List Byte) : (s.aptPop bs).quiet = s.quiet := by
  unfold State.aptPop
  try simp only []
  repeat' (first | with_reducible rfl | (with_reducible apply ite_quiet) | (with_reducible apply quiet_foldl_fst <;> intros)
                 | (with_reducible apply quiet_foldl_snd <;> intros) | (with_reducible apply quiet_foldl <;> intros) | split)
  all_goals (try simp only [apply_ite State.quiet, ite_self])
  all_goals (try simp)
  all_goals (repeat' (first | with_reducible rfl | (with_reducible apply ite_quiet) | (with_reducible apply quiet_foldl_fst <;> intros)
                            | (with_reducible apply quiet_foldl_snd <;> intros) | (with_reducible apply quiet_foldl <;> intros) | split))
  all_goals (try simp)
  all_goals (repeat' (first | with_reducible rfl | (with_reducible apply ite_quiet) | (with_reducible apply quiet_foldl_fst <;> intros)
                            | (with_reducible apply quiet_foldl_snd <;> intros) | (with_reducible apply quiet_foldl <;> intros) | split))
  all_goals (try simp)

@[simp] theorem State.aptTake_quiet (s : State) (off : Nat) (bs : List Byte) : (s.aptTake off bs).quiet = s.quiet := by
  unfold State.aptTake
  try simp only []
  repeat' (first | with_reducible rfl | (with_reducible apply ite_quiet) | (with_reducible apply quiet_foldl_fst <;> intros)
                 | (with_reducible apply quiet_foldl_snd <;> intros) | (with_reducible apply quiet_foldl <;> intros) | split)
  all_goals (try simp only [apply_ite State.quiet, ite_self])
  all_goals (try simp)
  all_goals (repeat' (first | with_reducible rfl | (with_reducible apply ite_quiet) | (with_reducible apply quiet_foldl_fst <;> intros)
                            | (with_reducible apply quiet_foldl_snd <;> intros) | (with_reducible apply quiet_foldl <;> intros) | split))
  all_goals (try simp)
  all_goals (repeat' (first | with_reducible rfl | (with_reducible apply ite_quiet) | (with_reducible apply quiet_foldl_fst <;> intros)
                            | (with_reducible apply quiet_foldl_snd <;> intros) | (with_reducible apply quiet_foldl <;> intros) | split))
  all_goals (try simp)

theorem execApertureWrite_quiet (s : State) (t : State) (h : execApertureWrite s = .next t) : t.quiet = s.quiet := by
  unfold execApertureWrite at h
  injection h with h
  subst h
  try simp only []
  repeat' (first | with_reducible rfl | (with_reducible apply ite_quiet) | (with_reducible apply quiet_foldl_fst <;> intros)
                 | (with_reducible apply quiet_foldl_snd <;> intros) | (with_reducible apply quiet_foldl <;> intros) | split)
  all_goals (try simp only [apply_ite State.quiet, ite_self])
  all_goals (try simp)
  all_goals (repeat' (first | with_reducible rfl | (with_reducible apply ite_quiet) | (with_reducible apply quiet_foldl_fst <;> intros)
                            | (with_reducible apply quiet_foldl_snd <;> intros) | (with_reducible apply quiet_foldl <;> intros) | split))
  all_goals (try simp)
  all_goals (repeat' (first | with_reducible rfl | (with_reducible apply ite_quiet) | (with_reducible apply quiet_foldl_fst <;> intros)
                            | (with_reducible apply quiet_foldl_snd <;> intros) | (with_reducible apply quiet_foldl <;> intros) | split))
  all_goals (try simp)

@[simp] theorem State.aptArrive_quiet (s : State) (off : Nat) (bytes : List Byte) : (s.aptArrive off bytes).quiet = s.quiet := by
  unfold State.aptArrive
  try simp only []
  repeat' (first | with_reducible rfl | (with_reducible apply ite_quiet) | (with_reducible apply quiet_foldl_fst <;> intros)
                 | (with_reducible apply quiet_foldl_snd <;> intros) | (with_reducible apply quiet_foldl <;> intros) | split)
  all_goals (try simp only [apply_ite State.quiet, ite_self])
  all_goals (try simp)
  all_goals (repeat' (first | with_reducible rfl | (with_reducible apply ite_quiet) | (with_reducible apply quiet_foldl_fst <;> intros)
                            | (with_reducible apply quiet_foldl_snd <;> intros) | (with_reducible apply quiet_foldl <;> intros) | split))
  all_goals (try simp)
  all_goals (repeat' (first | with_reducible rfl | (with_reducible apply ite_quiet) | (with_reducible apply quiet_foldl_fst <;> intros)
                            | (with_reducible apply quiet_foldl_snd <;> intros) | (with_reducible apply quiet_foldl <;> intros) | split))
  all_goals (try simp)

theorem execApertureTlpArrival_quiet (off rd : Nat) (s : State) (bytes : List Byte) (pop : Bool) (t : State)
    (h : execApertureTlpArrival off rd s bytes pop = .next t) : t.quiet = s.quiet := by
  unfold execApertureTlpArrival at h
  injection h with h
  subst h
  try simp only []
  repeat' (first | with_reducible rfl | (with_reducible apply ite_quiet) | (with_reducible apply quiet_foldl_fst <;> intros)
                 | (with_reducible apply quiet_foldl_snd <;> intros) | (with_reducible apply quiet_foldl <;> intros) | split)
  all_goals (try simp only [apply_ite State.quiet, ite_self])
  all_goals (try simp)
  all_goals (repeat' (first | with_reducible rfl | (with_reducible apply ite_quiet) | (with_reducible apply quiet_foldl_fst <;> intros)
                            | (with_reducible apply quiet_foldl_snd <;> intros) | (with_reducible apply quiet_foldl <;> intros) | split))
  all_goals (try simp)
  all_goals (repeat' (first | with_reducible rfl | (with_reducible apply ite_quiet) | (with_reducible apply quiet_foldl_fst <;> intros)
                            | (with_reducible apply quiet_foldl_snd <;> intros) | (with_reducible apply quiet_foldl <;> intros) | split))
  all_goals (try simp)

@[simp] theorem State.queueDb_quiet (s : State) (w : Word) : (s.queueDb w).quiet = s.quiet := by
  unfold State.queueDb
  try simp only []
  repeat' (first | with_reducible rfl | (with_reducible apply ite_quiet) | (with_reducible apply quiet_foldl_fst <;> intros)
                 | (with_reducible apply quiet_foldl_snd <;> intros) | (with_reducible apply quiet_foldl <;> intros) | split)
  all_goals (try simp only [apply_ite State.quiet, ite_self])
  all_goals (try simp)
  all_goals (repeat' (first | with_reducible rfl | (with_reducible apply ite_quiet) | (with_reducible apply quiet_foldl_fst <;> intros)
                            | (with_reducible apply quiet_foldl_snd <;> intros) | (with_reducible apply quiet_foldl <;> intros) | split))
  all_goals (try simp)
  all_goals (repeat' (first | with_reducible rfl | (with_reducible apply ite_quiet) | (with_reducible apply quiet_foldl_fst <;> intros)
                            | (with_reducible apply quiet_foldl_snd <;> intros) | (with_reducible apply quiet_foldl <;> intros) | split))
  all_goals (try simp)

theorem execIngDb_quiet (w : Word) (s : State) (t : State) (h : execIngDb w s = .next t) : t.quiet = s.quiet := by
  unfold execIngDb at h
  injection h with h
  subst h
  try simp only []
  repeat' (first | with_reducible rfl | (with_reducible apply ite_quiet) | (with_reducible apply quiet_foldl_fst <;> intros)
                 | (with_reducible apply quiet_foldl_snd <;> intros) | (with_reducible apply quiet_foldl <;> intros) | split)
  all_goals (try simp only [apply_ite State.quiet, ite_self])
  all_goals (try simp)
  all_goals (repeat' (first | with_reducible rfl | (with_reducible apply ite_quiet) | (with_reducible apply quiet_foldl_fst <;> intros)
                            | (with_reducible apply quiet_foldl_snd <;> intros) | (with_reducible apply quiet_foldl <;> intros) | split))
  all_goals (try simp)
  all_goals (repeat' (first | with_reducible rfl | (with_reducible apply ite_quiet) | (with_reducible apply quiet_foldl_fst <;> intros)
                            | (with_reducible apply quiet_foldl_snd <;> intros) | (with_reducible apply quiet_foldl <;> intros) | split))
  all_goals (try simp)

@[simp] theorem State.dbAccept_quiet (s : State) (w : Nat) : (s.dbAccept w).quiet = s.quiet := by
  unfold State.dbAccept
  try simp only []
  repeat' (first | with_reducible rfl | (with_reducible apply ite_quiet) | (with_reducible apply quiet_foldl_fst <;> intros)
                 | (with_reducible apply quiet_foldl_snd <;> intros) | (with_reducible apply quiet_foldl <;> intros) | split)
  all_goals (try simp only [apply_ite State.quiet, ite_self])
  all_goals (try simp)
  all_goals (repeat' (first | with_reducible rfl | (with_reducible apply ite_quiet) | (with_reducible apply quiet_foldl_fst <;> intros)
                            | (with_reducible apply quiet_foldl_snd <;> intros) | (with_reducible apply quiet_foldl <;> intros) | split))
  all_goals (try simp)
  all_goals (repeat' (first | with_reducible rfl | (with_reducible apply ite_quiet) | (with_reducible apply quiet_foldl_fst <;> intros)
                            | (with_reducible apply quiet_foldl_snd <;> intros) | (with_reducible apply quiet_foldl <;> intros) | split))
  all_goals (try simp)

@[simp] theorem State.noteReady_quiet (s : State) (c : Class) (ch frame sheaf : Nat) : (s.noteReady c ch frame sheaf).quiet = s.quiet := by
  unfold State.noteReady
  try simp only []
  repeat' (first | with_reducible rfl | (with_reducible apply ite_quiet) | (with_reducible apply quiet_foldl_fst <;> intros)
                 | (with_reducible apply quiet_foldl_snd <;> intros) | (with_reducible apply quiet_foldl <;> intros) | split)
  all_goals (try simp only [apply_ite State.quiet, ite_self])
  all_goals (try simp)
  all_goals (repeat' (first | with_reducible rfl | (with_reducible apply ite_quiet) | (with_reducible apply quiet_foldl_fst <;> intros)
                            | (with_reducible apply quiet_foldl_snd <;> intros) | (with_reducible apply quiet_foldl <;> intros) | split))
  all_goals (try simp)
  all_goals (repeat' (first | with_reducible rfl | (with_reducible apply ite_quiet) | (with_reducible apply quiet_foldl_fst <;> intros)
                            | (with_reducible apply quiet_foldl_snd <;> intros) | (with_reducible apply quiet_foldl <;> intros) | split))
  all_goals (try simp)

theorem execPfcRepeat_quiet (port : Nat) (s : State) (t : State) (h : execPfcRepeat port s = .next t) : t.quiet = s.quiet := by
  unfold execPfcRepeat at h
  injection h with h
  subst h
  try simp only []
  repeat' (first | with_reducible rfl | (with_reducible apply ite_quiet) | (with_reducible apply quiet_foldl_fst <;> intros)
                 | (with_reducible apply quiet_foldl_snd <;> intros) | (with_reducible apply quiet_foldl <;> intros) | split)
  all_goals (try simp only [apply_ite State.quiet, ite_self])
  all_goals (try simp)
  all_goals (repeat' (first | with_reducible rfl | (with_reducible apply ite_quiet) | (with_reducible apply quiet_foldl_fst <;> intros)
                            | (with_reducible apply quiet_foldl_snd <;> intros) | (with_reducible apply quiet_foldl <;> intros) | split))
  all_goals (try simp)
  all_goals (repeat' (first | with_reducible rfl | (with_reducible apply ite_quiet) | (with_reducible apply quiet_foldl_fst <;> intros)
                            | (with_reducible apply quiet_foldl_snd <;> intros) | (with_reducible apply quiet_foldl <;> intros) | split))
  all_goals (try simp)

@[simp] theorem State.storeRec_quiet (s : State) (c : Class) (ch p : Nat) : (s.storeRec c ch p).quiet = s.quiet := by
  unfold State.storeRec
  try simp only []
  repeat' (first | with_reducible rfl | (with_reducible apply ite_quiet) | (with_reducible apply quiet_foldl_fst <;> intros)
                 | (with_reducible apply quiet_foldl_snd <;> intros) | (with_reducible apply quiet_foldl <;> intros) | split)
  all_goals (try simp only [apply_ite State.quiet, ite_self])
  all_goals (try simp)
  all_goals (repeat' (first | with_reducible rfl | (with_reducible apply ite_quiet) | (with_reducible apply quiet_foldl_fst <;> intros)
                            | (with_reducible apply quiet_foldl_snd <;> intros) | (with_reducible apply quiet_foldl <;> intros) | split))
  all_goals (try simp)
  all_goals (repeat' (first | with_reducible rfl | (with_reducible apply ite_quiet) | (with_reducible apply quiet_foldl_fst <;> intros)
                            | (with_reducible apply quiet_foldl_snd <;> intros) | (with_reducible apply quiet_foldl <;> intros) | split))
  all_goals (try simp)

@[simp] theorem State.rcEvents_quiet (s : State) (r : Run) : (s.rcEvents r).quiet = s.quiet := by
  unfold State.rcEvents
  try simp only []
  repeat' (first | with_reducible rfl | (with_reducible apply ite_quiet) | (with_reducible apply quiet_foldl_fst <;> intros)
                 | (with_reducible apply quiet_foldl_snd <;> intros) | (with_reducible apply quiet_foldl <;> intros) | split)
  all_goals (try simp only [apply_ite State.quiet, ite_self])
  all_goals (try simp)
  all_goals (repeat' (first | with_reducible rfl | (with_reducible apply ite_quiet) | (with_reducible apply quiet_foldl_fst <;> intros)
                            | (with_reducible apply quiet_foldl_snd <;> intros) | (with_reducible apply quiet_foldl <;> intros) | split))
  all_goals (try simp)
  all_goals (repeat' (first | with_reducible rfl | (with_reducible apply ite_quiet) | (with_reducible apply quiet_foldl_fst <;> intros)
                            | (with_reducible apply quiet_foldl_snd <;> intros) | (with_reducible apply quiet_foldl <;> intros) | split))
  all_goals (try simp)

@[simp] theorem State.gleanArea_quiet (s : State) (k gcase : Nat) : (s.gleanArea k gcase).quiet = s.quiet := by
  unfold State.gleanArea
  try simp only []
  repeat' (first | with_reducible rfl | (with_reducible apply ite_quiet) | (with_reducible apply quiet_foldl_fst <;> intros)
                 | (with_reducible apply quiet_foldl_snd <;> intros) | (with_reducible apply quiet_foldl <;> intros) | split)
  all_goals (try simp only [apply_ite State.quiet, ite_self])
  all_goals (try simp)
  all_goals (repeat' (first | with_reducible rfl | (with_reducible apply ite_quiet) | (with_reducible apply quiet_foldl_fst <;> intros)
                            | (with_reducible apply quiet_foldl_snd <;> intros) | (with_reducible apply quiet_foldl <;> intros) | split))
  all_goals (try simp)
  all_goals (repeat' (first | with_reducible rfl | (with_reducible apply ite_quiet) | (with_reducible apply quiet_foldl_fst <;> intros)
                            | (with_reducible apply quiet_foldl_snd <;> intros) | (with_reducible apply quiet_foldl <;> intros) | split))
  all_goals (try simp)

@[simp] theorem State.caseCapped_quiet (s : State) (k gcase : Nat) : (s.caseCapped k gcase).quiet = s.quiet := by
  unfold State.caseCapped
  try simp only []
  repeat' (first | with_reducible rfl | (with_reducible apply ite_quiet) | (with_reducible apply quiet_foldl_fst <;> intros)
                 | (with_reducible apply quiet_foldl_snd <;> intros) | (with_reducible apply quiet_foldl <;> intros) | split)
  all_goals (try simp only [apply_ite State.quiet, ite_self])
  all_goals (try simp)
  all_goals (repeat' (first | with_reducible rfl | (with_reducible apply ite_quiet) | (with_reducible apply quiet_foldl_fst <;> intros)
                            | (with_reducible apply quiet_foldl_snd <;> intros) | (with_reducible apply quiet_foldl <;> intros) | split))
  all_goals (try simp)
  all_goals (repeat' (first | with_reducible rfl | (with_reducible apply ite_quiet) | (with_reducible apply quiet_foldl_fst <;> intros)
                            | (with_reducible apply quiet_foldl_snd <;> intros) | (with_reducible apply quiet_foldl <;> intros) | split))
  all_goals (try simp)

@[simp] theorem State.writePkt_quiet (s : State) (k : Nat) (p : MPkt) : (s.writePkt k p).quiet = s.quiet := by
  unfold State.writePkt
  repeat' (first | with_reducible rfl | (with_reducible apply ite_quiet)
                 | (with_reducible refine resState_quiet ?_ (fun t h => ?_); rotate_left; first | apply execFuseBurnOwner_quiet; exact h
                                                                                                | apply execFuseBurnDebugClose_quiet; exact h
                                                                                                | apply execIrqHostAck_quiet; exact h
                                                                                                | apply execIrqSwSet_quiet; exact h
                                                                                                | apply execIrqSrcCfg_quiet; exact h
                                                                                                | apply execFltAckAll_quiet; exact h
                                                                                                | apply execFltAck_quiet; exact h
                                                                                                | apply execMsixMask_quiet; exact h
                                                                                                | apply execMbxCtrl_quiet; exact h
                                                                                                | apply execMbxAbort_quiet; exact h
                                                                                                | apply execAbortDrain_quiet; exact h
                                                                                                | apply execFabLock_quiet; exact h
                                                                                                | apply execFabUnfreeze_quiet; exact h
                                                                                                | apply execDecFeed_quiet; exact h
                                                                                                | apply execDecRelease_quiet; exact h
                                                                                                | apply execDmaAbort_quiet; exact h
                                                                                                | apply execDmaStart_quiet; exact h
                                                                                                | apply execDmaFifoFlush_quiet; exact h
                                                                                                | apply execPwrIslReq_quiet; exact h
                                                                                                | apply execPwrIslFreq_quiet; exact h
                                                                                                | apply execIngDb_quiet; exact h)
                 | split)
  all_goals (try simp)
  all_goals (repeat' (first | with_reducible rfl | (with_reducible apply ite_quiet)
                            | (with_reducible refine resState_quiet ?_ (fun t h => ?_); rotate_left; first | apply execFuseBurnOwner_quiet; exact h
                                                                                                           | apply execFuseBurnDebugClose_quiet; exact h
                                                                                                           | apply execIrqHostAck_quiet; exact h
                                                                                                           | apply execIrqSwSet_quiet; exact h
                                                                                                           | apply execIrqSrcCfg_quiet; exact h
                                                                                                           | apply execFltAckAll_quiet; exact h
                                                                                                           | apply execFltAck_quiet; exact h
                                                                                                           | apply execMsixMask_quiet; exact h
                                                                                                           | apply execMbxCtrl_quiet; exact h
                                                                                                           | apply execMbxAbort_quiet; exact h
                                                                                                           | apply execAbortDrain_quiet; exact h
                                                                                                           | apply execFabLock_quiet; exact h
                                                                                                           | apply execFabUnfreeze_quiet; exact h
                                                                                                           | apply execDecFeed_quiet; exact h
                                                                                                           | apply execDecRelease_quiet; exact h
                                                                                                           | apply execDmaAbort_quiet; exact h
                                                                                                           | apply execDmaStart_quiet; exact h
                                                                                                           | apply execDmaFifoFlush_quiet; exact h
                                                                                                           | apply execPwrIslReq_quiet; exact h
                                                                                                           | apply execPwrIslFreq_quiet; exact h
                                                                                                           | apply execIngDb_quiet; exact h)
                            | split))
  all_goals (try simp)

@[simp] theorem State.packetise_quiet (s : State) (c : Class) (k ch : Nat) (outs : List (Run × Coded)) :
    (s.packetise c k ch outs).quiet = s.quiet := by
  unfold State.packetise
  try simp only []
  repeat' (first | with_reducible rfl | (with_reducible apply ite_quiet) | (with_reducible apply quiet_foldl_fst <;> intros)
                 | (with_reducible apply quiet_foldl_snd <;> intros) | (with_reducible apply quiet_foldl <;> intros) | split)
  all_goals (try simp only [apply_ite State.quiet, ite_self])
  all_goals (try simp)
  all_goals (repeat' (first | with_reducible rfl | (with_reducible apply ite_quiet) | (with_reducible apply quiet_foldl_fst <;> intros)
                            | (with_reducible apply quiet_foldl_snd <;> intros) | (with_reducible apply quiet_foldl <;> intros) | split))
  all_goals (try simp)
  all_goals (repeat' (first | with_reducible rfl | (with_reducible apply ite_quiet) | (with_reducible apply quiet_foldl_fst <;> intros)
                            | (with_reducible apply quiet_foldl_snd <;> intros) | (with_reducible apply quiet_foldl <;> intros) | split))
  all_goals (try simp)

@[simp] theorem State.giveUp_quiet (s : State) (ch a b : Nat) : (s.giveUp ch a b).quiet = s.quiet := by
  unfold State.giveUp
  try simp only []
  repeat' (first | with_reducible rfl | (with_reducible apply ite_quiet) | (with_reducible apply quiet_foldl_fst <;> intros)
                 | (with_reducible apply quiet_foldl_snd <;> intros) | (with_reducible apply quiet_foldl <;> intros) | split)
  all_goals (try simp only [apply_ite State.quiet, ite_self])
  all_goals (try simp)
  all_goals (repeat' (first | with_reducible rfl | (with_reducible apply ite_quiet) | (with_reducible apply quiet_foldl_fst <;> intros)
                            | (with_reducible apply quiet_foldl_snd <;> intros) | (with_reducible apply quiet_foldl <;> intros) | split))
  all_goals (try simp)
  all_goals (repeat' (first | with_reducible rfl | (with_reducible apply ite_quiet) | (with_reducible apply quiet_foldl_fst <;> intros)
                            | (with_reducible apply quiet_foldl_snd <;> intros) | (with_reducible apply quiet_foldl <;> intros) | split))
  all_goals (try simp)

@[simp] theorem State.holdChain_quiet (s : State) (ch : Nat) : (s.holdChain ch).quiet = s.quiet := by
  unfold State.holdChain
  try simp only []
  repeat' (first | with_reducible rfl | (with_reducible apply ite_quiet) | (with_reducible apply quiet_foldl_fst <;> intros)
                 | (with_reducible apply quiet_foldl_snd <;> intros) | (with_reducible apply quiet_foldl <;> intros) | split)
  all_goals (try simp only [apply_ite State.quiet, ite_self])
  all_goals (try simp)
  all_goals (repeat' (first | with_reducible rfl | (with_reducible apply ite_quiet) | (with_reducible apply quiet_foldl_fst <;> intros)
                            | (with_reducible apply quiet_foldl_snd <;> intros) | (with_reducible apply quiet_foldl <;> intros) | split))
  all_goals (try simp)
  all_goals (repeat' (first | with_reducible rfl | (with_reducible apply ite_quiet) | (with_reducible apply quiet_foldl_fst <;> intros)
                            | (with_reducible apply quiet_foldl_snd <;> intros) | (with_reducible apply quiet_foldl <;> intros) | split))
  all_goals (try simp)

@[simp] theorem State.partRestart_quiet (s : State) (ch fr : Nat) : (s.partRestart ch fr).quiet = s.quiet := by
  unfold State.partRestart
  try simp only []
  repeat' (first | with_reducible rfl | (with_reducible apply ite_quiet) | (with_reducible apply quiet_foldl_fst <;> intros)
                 | (with_reducible apply quiet_foldl_snd <;> intros) | (with_reducible apply quiet_foldl <;> intros) | split)
  all_goals (try simp only [apply_ite State.quiet, ite_self])
  all_goals (try simp)
  all_goals (repeat' (first | with_reducible rfl | (with_reducible apply ite_quiet) | (with_reducible apply quiet_foldl_fst <;> intros)
                            | (with_reducible apply quiet_foldl_snd <;> intros) | (with_reducible apply quiet_foldl <;> intros) | split))
  all_goals (try simp)
  all_goals (repeat' (first | with_reducible rfl | (with_reducible apply ite_quiet) | (with_reducible apply quiet_foldl_fst <;> intros)
                            | (with_reducible apply quiet_foldl_snd <;> intros) | (with_reducible apply quiet_foldl <;> intros) | split))
  all_goals (try simp)

@[simp] theorem State.encErrorEnd_quiet (s : State) (k : Nat) : (s.encErrorEnd k).quiet = s.quiet := by
  unfold State.encErrorEnd
  try simp only []
  repeat' (first | with_reducible rfl | (with_reducible apply ite_quiet) | (with_reducible apply quiet_foldl_fst <;> intros)
                 | (with_reducible apply quiet_foldl_snd <;> intros) | (with_reducible apply quiet_foldl <;> intros) | split)
  all_goals (try simp only [apply_ite State.quiet, ite_self])
  all_goals (try simp)
  all_goals (repeat' (first | with_reducible rfl | (with_reducible apply ite_quiet) | (with_reducible apply quiet_foldl_fst <;> intros)
                            | (with_reducible apply quiet_foldl_snd <;> intros) | (with_reducible apply quiet_foldl <;> intros) | split))
  all_goals (try simp)
  all_goals (repeat' (first | with_reducible rfl | (with_reducible apply ite_quiet) | (with_reducible apply quiet_foldl_fst <;> intros)
                            | (with_reducible apply quiet_foldl_snd <;> intros) | (with_reducible apply quiet_foldl <;> intros) | split))
  all_goals (try simp)

@[simp] theorem State.fetchViolates_quiet (s : State) (k kind : Nat) : (s.fetchViolates k kind).quiet = s.quiet := by
  unfold State.fetchViolates
  try simp only []
  repeat' (first | with_reducible rfl | (with_reducible apply ite_quiet) | (with_reducible apply quiet_foldl_fst <;> intros)
                 | (with_reducible apply quiet_foldl_snd <;> intros) | (with_reducible apply quiet_foldl <;> intros) | split)
  all_goals (try simp only [apply_ite State.quiet, ite_self])
  all_goals (try simp)
  all_goals (repeat' (first | with_reducible rfl | (with_reducible apply ite_quiet) | (with_reducible apply quiet_foldl_fst <;> intros)
                            | (with_reducible apply quiet_foldl_snd <;> intros) | (with_reducible apply quiet_foldl <;> intros) | split))
  all_goals (try simp)
  all_goals (repeat' (first | with_reducible rfl | (with_reducible apply ite_quiet) | (with_reducible apply quiet_foldl_fst <;> intros)
                            | (with_reducible apply quiet_foldl_snd <;> intros) | (with_reducible apply quiet_foldl <;> intros) | split))
  all_goals (try simp)

@[simp] theorem State.barnFill_quiet (s : State) (c : Class) (r : Run) : (s.barnFill c r).quiet = s.quiet := by
  unfold State.barnFill
  try simp only []
  repeat' (first | with_reducible rfl | (with_reducible apply ite_quiet) | (with_reducible apply quiet_foldl_fst <;> intros)
                 | (with_reducible apply quiet_foldl_snd <;> intros) | (with_reducible apply quiet_foldl <;> intros) | split)
  all_goals (try simp only [apply_ite State.quiet, ite_self])
  all_goals (try simp)
  all_goals (repeat' (first | with_reducible rfl | (with_reducible apply ite_quiet) | (with_reducible apply quiet_foldl_fst <;> intros)
                            | (with_reducible apply quiet_foldl_snd <;> intros) | (with_reducible apply quiet_foldl <;> intros) | split))
  all_goals (try simp)
  all_goals (repeat' (first | with_reducible rfl | (with_reducible apply ite_quiet) | (with_reducible apply quiet_foldl_fst <;> intros)
                            | (with_reducible apply quiet_foldl_snd <;> intros) | (with_reducible apply quiet_foldl <;> intros) | split))
  all_goals (try simp)

@[simp] theorem State.fallow_quiet (s : State) (l : Nat) : (s.fallow l).quiet = s.quiet := by
  unfold State.fallow
  try simp only []
  repeat' (first | with_reducible rfl | (with_reducible apply ite_quiet) | (with_reducible apply quiet_foldl_fst <;> intros)
                 | (with_reducible apply quiet_foldl_snd <;> intros) | (with_reducible apply quiet_foldl <;> intros) | split)
  all_goals (try simp only [apply_ite State.quiet, ite_self])
  all_goals (try simp)
  all_goals (repeat' (first | with_reducible rfl | (with_reducible apply ite_quiet) | (with_reducible apply quiet_foldl_fst <;> intros)
                            | (with_reducible apply quiet_foldl_snd <;> intros) | (with_reducible apply quiet_foldl <;> intros) | split))
  all_goals (try simp)
  all_goals (repeat' (first | with_reducible rfl | (with_reducible apply ite_quiet) | (with_reducible apply quiet_foldl_fst <;> intros)
                            | (with_reducible apply quiet_foldl_snd <;> intros) | (with_reducible apply quiet_foldl <;> intros) | split))
  all_goals (try simp)

@[simp] theorem State.holdRun_quiet (s : State) (c : Class) (l : Nat) (r : Run) : (s.holdRun c l r).quiet = s.quiet := by
  unfold State.holdRun
  try simp only []
  repeat' (first | with_reducible rfl | (with_reducible apply ite_quiet) | (with_reducible apply quiet_foldl_fst <;> intros)
                 | (with_reducible apply quiet_foldl_snd <;> intros) | (with_reducible apply quiet_foldl <;> intros) | split)
  all_goals (try simp only [apply_ite State.quiet, ite_self])
  all_goals (try simp)
  all_goals (repeat' (first | with_reducible rfl | (with_reducible apply ite_quiet) | (with_reducible apply quiet_foldl_fst <;> intros)
                            | (with_reducible apply quiet_foldl_snd <;> intros) | (with_reducible apply quiet_foldl <;> intros) | split))
  all_goals (try simp)
  all_goals (repeat' (first | with_reducible rfl | (with_reducible apply ite_quiet) | (with_reducible apply quiet_foldl_fst <;> intros)
                            | (with_reducible apply quiet_foldl_snd <;> intros) | (with_reducible apply quiet_foldl <;> intros) | split))
  all_goals (try simp)

@[simp] theorem State.startRun_quiet (s : State) (c : Class) (l k ch p kind : Nat) (x : ShId) :
    (s.startRun c l k ch p kind x).quiet = s.quiet := by
  unfold State.startRun
  try simp only []
  repeat' (first | with_reducible rfl | (with_reducible apply ite_quiet) | (with_reducible apply quiet_foldl_fst <;> intros)
                 | (with_reducible apply quiet_foldl_snd <;> intros) | (with_reducible apply quiet_foldl <;> intros) | split)
  all_goals (try simp only [apply_ite State.quiet, ite_self])
  all_goals (try simp)
  all_goals (repeat' (first | with_reducible rfl | (with_reducible apply ite_quiet) | (with_reducible apply quiet_foldl_fst <;> intros)
                            | (with_reducible apply quiet_foldl_snd <;> intros) | (with_reducible apply quiet_foldl <;> intros) | split))
  all_goals (try simp)
  all_goals (repeat' (first | with_reducible rfl | (with_reducible apply ite_quiet) | (with_reducible apply quiet_foldl_fst <;> intros)
                            | (with_reducible apply quiet_foldl_snd <;> intros) | (with_reducible apply quiet_foldl <;> intros) | split))
  all_goals (try simp)

@[simp] theorem State.wakeRuns_quiet (s : State) : (s.wakeRuns).quiet = s.quiet := by
  unfold State.wakeRuns
  try simp only []
  repeat' (first | with_reducible rfl | (with_reducible apply ite_quiet) | (with_reducible apply quiet_foldl_fst <;> intros)
                 | (with_reducible apply quiet_foldl_snd <;> intros) | (with_reducible apply quiet_foldl <;> intros) | split)
  all_goals (try simp only [apply_ite State.quiet, ite_self])
  all_goals (try simp)
  all_goals (repeat' (first | with_reducible rfl | (with_reducible apply ite_quiet) | (with_reducible apply quiet_foldl_fst <;> intros)
                            | (with_reducible apply quiet_foldl_snd <;> intros) | (with_reducible apply quiet_foldl <;> intros) | split))
  all_goals (try simp)
  all_goals (repeat' (first | with_reducible rfl | (with_reducible apply ite_quiet) | (with_reducible apply quiet_foldl_fst <;> intros)
                            | (with_reducible apply quiet_foldl_snd <;> intros) | (with_reducible apply quiet_foldl <;> intros) | split))
  all_goals (try simp)

theorem execSheafReady_quiet (ch frame sheaf : Nat) (s : State) (t : State)
    (h : execSheafReady ch frame sheaf s = .next t) : t.quiet = s.quiet := by
  unfold execSheafReady at h
  injection h with h
  subst h
  try simp only []
  repeat' (first | with_reducible rfl | (with_reducible apply ite_quiet) | (with_reducible apply quiet_foldl_fst <;> intros)
                 | (with_reducible apply quiet_foldl_snd <;> intros) | (with_reducible apply quiet_foldl <;> intros) | split)
  all_goals (try simp only [apply_ite State.quiet, ite_self])
  all_goals (try simp)
  all_goals (repeat' (first | with_reducible rfl | (with_reducible apply ite_quiet) | (with_reducible apply quiet_foldl_fst <;> intros)
                            | (with_reducible apply quiet_foldl_snd <;> intros) | (with_reducible apply quiet_foldl <;> intros) | split))
  all_goals (try simp)
  all_goals (repeat' (first | with_reducible rfl | (with_reducible apply ite_quiet) | (with_reducible apply quiet_foldl_fst <;> intros)
                            | (with_reducible apply quiet_foldl_snd <;> intros) | (with_reducible apply quiet_foldl <;> intros) | split))
  all_goals (try simp)

@[simp] theorem State.gleanEnd_quiet (s : State) (k gcase : Nat) (sig : Option (BitVec 64)) (ok : Bool) :
    (s.gleanEnd k gcase sig ok).quiet = s.quiet := by
  unfold State.gleanEnd
  try simp only []
  repeat' (first | with_reducible rfl | (with_reducible apply ite_quiet) | (with_reducible apply quiet_foldl_fst <;> intros)
                 | (with_reducible apply quiet_foldl_snd <;> intros) | (with_reducible apply quiet_foldl <;> intros) | split)
  all_goals (try simp only [apply_ite State.quiet, ite_self])
  all_goals (try simp)
  all_goals (repeat' (first | with_reducible rfl | (with_reducible apply ite_quiet) | (with_reducible apply quiet_foldl_fst <;> intros)
                            | (with_reducible apply quiet_foldl_snd <;> intros) | (with_reducible apply quiet_foldl <;> intros) | split))
  all_goals (try simp)
  all_goals (repeat' (first | with_reducible rfl | (with_reducible apply ite_quiet) | (with_reducible apply quiet_foldl_fst <;> intros)
                            | (with_reducible apply quiet_foldl_snd <;> intros) | (with_reducible apply quiet_foldl <;> intros) | split))
  all_goals (try simp)

@[simp] theorem State.overrun_quiet (s : State) (l : Nat) : (s.overrun l).quiet = s.quiet := by
  unfold State.overrun
  try simp only []
  repeat' (first | with_reducible rfl | (with_reducible apply ite_quiet) | (with_reducible apply quiet_foldl_fst <;> intros)
                 | (with_reducible apply quiet_foldl_snd <;> intros) | (with_reducible apply quiet_foldl <;> intros) | split)
  all_goals (try simp only [apply_ite State.quiet, ite_self])
  all_goals (try simp)
  all_goals (repeat' (first | with_reducible rfl | (with_reducible apply ite_quiet) | (with_reducible apply quiet_foldl_fst <;> intros)
                            | (with_reducible apply quiet_foldl_snd <;> intros) | (with_reducible apply quiet_foldl <;> intros) | split))
  all_goals (try simp)
  all_goals (repeat' (first | with_reducible rfl | (with_reducible apply ite_quiet) | (with_reducible apply quiet_foldl_fst <;> intros)
                            | (with_reducible apply quiet_foldl_snd <;> intros) | (with_reducible apply quiet_foldl <;> intros) | split))
  all_goals (try simp)

@[simp] theorem State.moveFirst_quiet (s : State) (ch a b : Nat) : (s.moveFirst ch a b).quiet = s.quiet := by
  unfold State.moveFirst
  try simp only []
  repeat' (first | with_reducible rfl | (with_reducible apply ite_quiet) | (with_reducible apply quiet_foldl_fst <;> intros)
                 | (with_reducible apply quiet_foldl_snd <;> intros) | (with_reducible apply quiet_foldl <;> intros) | split)
  all_goals (try simp only [apply_ite State.quiet, ite_self])
  all_goals (try simp)
  all_goals (repeat' (first | with_reducible rfl | (with_reducible apply ite_quiet) | (with_reducible apply quiet_foldl_fst <;> intros)
                            | (with_reducible apply quiet_foldl_snd <;> intros) | (with_reducible apply quiet_foldl <;> intros) | split))
  all_goals (try simp)
  all_goals (repeat' (first | with_reducible rfl | (with_reducible apply ite_quiet) | (with_reducible apply quiet_foldl_fst <;> intros)
                            | (with_reducible apply quiet_foldl_snd <;> intros) | (with_reducible apply quiet_foldl <;> intros) | split))
  all_goals (try simp)

@[simp] theorem State.skipFrames_quiet (s : State) (ch a b : Nat) : (s.skipFrames ch a b).quiet = s.quiet := by
  unfold State.skipFrames
  try simp only []
  repeat' (first | with_reducible rfl | (with_reducible apply ite_quiet) | (with_reducible apply quiet_foldl_fst <;> intros)
                 | (with_reducible apply quiet_foldl_snd <;> intros) | (with_reducible apply quiet_foldl <;> intros) | split)
  all_goals (try simp only [apply_ite State.quiet, ite_self])
  all_goals (try simp)
  all_goals (repeat' (first | with_reducible rfl | (with_reducible apply ite_quiet) | (with_reducible apply quiet_foldl_fst <;> intros)
                            | (with_reducible apply quiet_foldl_snd <;> intros) | (with_reducible apply quiet_foldl <;> intros) | split))
  all_goals (try simp)
  all_goals (repeat' (first | with_reducible rfl | (with_reducible apply ite_quiet) | (with_reducible apply quiet_foldl_fst <;> intros)
                            | (with_reducible apply quiet_foldl_snd <;> intros) | (with_reducible apply quiet_foldl <;> intros) | split))
  all_goals (try simp)

@[simp] theorem State.appendPend_quiet (s : State) (ch p : Nat) (x : ShId) : (s.appendPend ch p x).quiet = s.quiet := by
  unfold State.appendPend
  try simp only []
  repeat' (first | with_reducible rfl | (with_reducible apply ite_quiet) | (with_reducible apply quiet_foldl_fst <;> intros)
                 | (with_reducible apply quiet_foldl_snd <;> intros) | (with_reducible apply quiet_foldl <;> intros) | split)
  all_goals (try simp only [apply_ite State.quiet, ite_self])
  all_goals (try simp)
  all_goals (repeat' (first | with_reducible rfl | (with_reducible apply ite_quiet) | (with_reducible apply quiet_foldl_fst <;> intros)
                            | (with_reducible apply quiet_foldl_snd <;> intros) | (with_reducible apply quiet_foldl <;> intros) | split))
  all_goals (try simp)
  all_goals (repeat' (first | with_reducible rfl | (with_reducible apply ite_quiet) | (with_reducible apply quiet_foldl_fst <;> intros)
                            | (with_reducible apply quiet_foldl_snd <;> intros) | (with_reducible apply quiet_foldl <;> intros) | split))
  all_goals (try simp)

@[simp] theorem State.markIssued_quiet (s : State) (c : Class) (ch p : Nat) (x : ShId) : (s.markIssued c ch p x).quiet = s.quiet := by
  unfold State.markIssued
  try simp only []
  repeat' (first | with_reducible rfl | (with_reducible apply ite_quiet) | (with_reducible apply quiet_foldl_fst <;> intros)
                 | (with_reducible apply quiet_foldl_snd <;> intros) | (with_reducible apply quiet_foldl <;> intros) | split)
  all_goals (try simp only [apply_ite State.quiet, ite_self])
  all_goals (try simp)
  all_goals (repeat' (first | with_reducible rfl | (with_reducible apply ite_quiet) | (with_reducible apply quiet_foldl_fst <;> intros)
                            | (with_reducible apply quiet_foldl_snd <;> intros) | (with_reducible apply quiet_foldl <;> intros) | split))
  all_goals (try simp)
  all_goals (repeat' (first | with_reducible rfl | (with_reducible apply ite_quiet) | (with_reducible apply quiet_foldl_fst <;> intros)
                            | (with_reducible apply quiet_foldl_snd <;> intros) | (with_reducible apply quiet_foldl <;> intros) | split))
  all_goals (try simp)

@[simp] theorem State.sheafRun_quiet (s : State) (c : Class) (l ch p len : Nat) (x : ShId) :
    (s.sheafRun c l ch p len x).quiet = s.quiet := by
  unfold State.sheafRun
  try simp only []
  repeat' (first | with_reducible rfl | (with_reducible apply ite_quiet) | (with_reducible apply quiet_foldl_fst <;> intros)
                 | (with_reducible apply quiet_foldl_snd <;> intros) | (with_reducible apply quiet_foldl <;> intros) | split)
  all_goals (try simp only [apply_ite State.quiet, ite_self])
  all_goals (try simp)
  all_goals (repeat' (first | with_reducible rfl | (with_reducible apply ite_quiet) | (with_reducible apply quiet_foldl_fst <;> intros)
                            | (with_reducible apply quiet_foldl_snd <;> intros) | (with_reducible apply quiet_foldl <;> intros) | split))
  all_goals (try simp)
  all_goals (repeat' (first | with_reducible rfl | (with_reducible apply ite_quiet) | (with_reducible apply quiet_foldl_fst <;> intros)
                            | (with_reducible apply quiet_foldl_snd <;> intros) | (with_reducible apply quiet_foldl <;> intros) | split))
  all_goals (try simp)

theorem execSheafRunStart_quiet (lane idx hp : Nat) (s : State) (t : State)
    (h : execSheafRunStart lane idx hp s = .next t) : t.quiet = s.quiet := by
  unfold execSheafRunStart at h
  injection h with h
  subst h
  try simp only []
  repeat' (first | with_reducible rfl | (with_reducible apply ite_quiet) | (with_reducible apply quiet_foldl_fst <;> intros)
                 | (with_reducible apply quiet_foldl_snd <;> intros) | (with_reducible apply quiet_foldl <;> intros) | split)
  all_goals (try simp only [apply_ite State.quiet, ite_self])
  all_goals (try simp)
  all_goals (repeat' (first | with_reducible rfl | (with_reducible apply ite_quiet) | (with_reducible apply quiet_foldl_fst <;> intros)
                            | (with_reducible apply quiet_foldl_snd <;> intros) | (with_reducible apply quiet_foldl <;> intros) | split))
  all_goals (try simp)
  all_goals (repeat' (first | with_reducible rfl | (with_reducible apply ite_quiet) | (with_reducible apply quiet_foldl_fst <;> intros)
                            | (with_reducible apply quiet_foldl_snd <;> intros) | (with_reducible apply quiet_foldl <;> intros) | split))
  all_goals (try simp)

theorem execCatchupRunStart_quiet (lane idx : Nat) (s : State) (t : State)
    (h : execCatchupRunStart lane idx s = .next t) : t.quiet = s.quiet := by
  unfold execCatchupRunStart at h
  injection h with h
  subst h
  try simp only []
  repeat' (first | with_reducible rfl | (with_reducible apply ite_quiet) | (with_reducible apply quiet_foldl_fst <;> intros)
                 | (with_reducible apply quiet_foldl_snd <;> intros) | (with_reducible apply quiet_foldl <;> intros) | split)
  all_goals (try simp only [apply_ite State.quiet, ite_self])
  all_goals (try simp)
  all_goals (repeat' (first | with_reducible rfl | (with_reducible apply ite_quiet) | (with_reducible apply quiet_foldl_fst <;> intros)
                            | (with_reducible apply quiet_foldl_snd <;> intros) | (with_reducible apply quiet_foldl <;> intros) | split))
  all_goals (try simp)
  all_goals (repeat' (first | with_reducible rfl | (with_reducible apply ite_quiet) | (with_reducible apply quiet_foldl_fst <;> intros)
                            | (with_reducible apply quiet_foldl_snd <;> intros) | (with_reducible apply quiet_foldl <;> intros) | split))
  all_goals (try simp)

@[simp] theorem State.nextGlean_quiet (s : State) (k : Nat) : (s.nextGlean k).2.quiet = s.quiet := by
  unfold State.nextGlean
  try simp only []
  repeat' (first | with_reducible rfl | (with_reducible apply ite_quiet) | (with_reducible apply quiet_foldl_fst <;> intros)
                 | (with_reducible apply quiet_foldl_snd <;> intros) | (with_reducible apply quiet_foldl <;> intros) | split)
  all_goals (try simp only [apply_ite State.quiet, ite_self])
  all_goals (try simp)
  all_goals (repeat' (first | with_reducible rfl | (with_reducible apply ite_quiet) | (with_reducible apply quiet_foldl_fst <;> intros)
                            | (with_reducible apply quiet_foldl_snd <;> intros) | (with_reducible apply quiet_foldl <;> intros) | split))
  all_goals (try simp)
  all_goals (repeat' (first | with_reducible rfl | (with_reducible apply ite_quiet) | (with_reducible apply quiet_foldl_fst <;> intros)
                            | (with_reducible apply quiet_foldl_snd <;> intros) | (with_reducible apply quiet_foldl <;> intros) | split))
  all_goals (try simp)

theorem execGleanRunStart_quiet (lane idx : Nat) (s : State) (t : State)
    (h : execGleanRunStart lane idx s = .next t) : t.quiet = s.quiet := by
  unfold execGleanRunStart at h
  injection h with h
  subst h
  try simp only []
  repeat' (first | with_reducible rfl | (with_reducible apply ite_quiet) | (with_reducible apply quiet_foldl_fst <;> intros)
                 | (with_reducible apply quiet_foldl_snd <;> intros) | (with_reducible apply quiet_foldl <;> intros) | split)
  all_goals (try simp only [apply_ite State.quiet, ite_self])
  all_goals (try simp)
  all_goals (repeat' (first | with_reducible rfl | (with_reducible apply ite_quiet) | (with_reducible apply quiet_foldl_fst <;> intros)
                            | (with_reducible apply quiet_foldl_snd <;> intros) | (with_reducible apply quiet_foldl <;> intros) | split))
  all_goals (try simp)
  all_goals (repeat' (first | with_reducible rfl | (with_reducible apply ite_quiet) | (with_reducible apply quiet_foldl_fst <;> intros)
                            | (with_reducible apply quiet_foldl_snd <;> intros) | (with_reducible apply quiet_foldl <;> intros) | split))
  all_goals (try simp)

theorem execRunOverrun_quiet (lane : Nat) (s : State) (t : State) (h : execRunOverrun lane s = .next t) : t.quiet = s.quiet := by
  unfold execRunOverrun at h
  injection h with h
  subst h
  try simp only []
  repeat' (first | with_reducible rfl | (with_reducible apply ite_quiet) | (with_reducible apply quiet_foldl_fst <;> intros)
                 | (with_reducible apply quiet_foldl_snd <;> intros) | (with_reducible apply quiet_foldl <;> intros) | split)
  all_goals (try simp only [apply_ite State.quiet, ite_self])
  all_goals (try simp)
  all_goals (repeat' (first | with_reducible rfl | (with_reducible apply ite_quiet) | (with_reducible apply quiet_foldl_fst <;> intros)
                            | (with_reducible apply quiet_foldl_snd <;> intros) | (with_reducible apply quiet_foldl <;> intros) | split))
  all_goals (try simp)
  all_goals (repeat' (first | with_reducible rfl | (with_reducible apply ite_quiet) | (with_reducible apply quiet_foldl_fst <;> intros)
                            | (with_reducible apply quiet_foldl_snd <;> intros) | (with_reducible apply quiet_foldl <;> intros) | split))
  all_goals (try simp)

theorem execRotaBacklog_quiet (ch part frame sheaf : Nat) (s : State) (t : State)
    (h : execRotaBacklog ch part frame sheaf s = .next t) : t.quiet = s.quiet := by
  unfold execRotaBacklog at h
  injection h with h
  subst h
  try simp only []
  repeat' (first | with_reducible rfl | (with_reducible apply ite_quiet) | (with_reducible apply quiet_foldl_fst <;> intros)
                 | (with_reducible apply quiet_foldl_snd <;> intros) | (with_reducible apply quiet_foldl <;> intros) | split)
  all_goals (try simp only [apply_ite State.quiet, ite_self])
  all_goals (try simp)
  all_goals (repeat' (first | with_reducible rfl | (with_reducible apply ite_quiet) | (with_reducible apply quiet_foldl_fst <;> intros)
                            | (with_reducible apply quiet_foldl_snd <;> intros) | (with_reducible apply quiet_foldl <;> intros) | split))
  all_goals (try simp)
  all_goals (repeat' (first | with_reducible rfl | (with_reducible apply ite_quiet) | (with_reducible apply quiet_foldl_fst <;> intros)
                            | (with_reducible apply quiet_foldl_snd <;> intros) | (with_reducible apply quiet_foldl <;> intros) | split))
  all_goals (try simp)

@[simp] theorem State.checkFail_quiet (s : State) (l verdict cnt src : Nat) : (s.checkFail l verdict cnt src).quiet = s.quiet := by
  unfold State.checkFail
  try simp only []
  repeat' (first | with_reducible rfl | (with_reducible apply ite_quiet) | (with_reducible apply quiet_foldl_fst <;> intros)
                 | (with_reducible apply quiet_foldl_snd <;> intros) | (with_reducible apply quiet_foldl <;> intros) | split)
  all_goals (try simp only [apply_ite State.quiet, ite_self])
  all_goals (try simp)
  all_goals (repeat' (first | with_reducible rfl | (with_reducible apply ite_quiet) | (with_reducible apply quiet_foldl_fst <;> intros)
                            | (with_reducible apply quiet_foldl_snd <;> intros) | (with_reducible apply quiet_foldl <;> intros) | split))
  all_goals (try simp)
  all_goals (repeat' (first | with_reducible rfl | (with_reducible apply ite_quiet) | (with_reducible apply quiet_foldl_fst <;> intros)
                            | (with_reducible apply quiet_foldl_snd <;> intros) | (with_reducible apply quiet_foldl <;> intros) | split))
  all_goals (try simp)

@[simp] theorem State.threshFailed_quiet (s : State) (l : Nat) : (s.threshFailed l).quiet = s.quiet := by
  unfold State.threshFailed
  try simp only []
  repeat' (first | with_reducible rfl | (with_reducible apply ite_quiet) | (with_reducible apply quiet_foldl_fst <;> intros)
                 | (with_reducible apply quiet_foldl_snd <;> intros) | (with_reducible apply quiet_foldl <;> intros) | split)
  all_goals (try simp only [apply_ite State.quiet, ite_self])
  all_goals (try simp)
  all_goals (repeat' (first | with_reducible rfl | (with_reducible apply ite_quiet) | (with_reducible apply quiet_foldl_fst <;> intros)
                            | (with_reducible apply quiet_foldl_snd <;> intros) | (with_reducible apply quiet_foldl <;> intros) | split))
  all_goals (try simp)
  all_goals (repeat' (first | with_reducible rfl | (with_reducible apply ite_quiet) | (with_reducible apply quiet_foldl_fst <;> intros)
                            | (with_reducible apply quiet_foldl_snd <;> intros) | (with_reducible apply quiet_foldl <;> intros) | split))
  all_goals (try simp)

theorem execThreshFail_quiet (lane : Nat) (s : State) (parsed : List Config.Parsed) (t : State)
    (h : execThreshFail lane s parsed = .next t) : t.quiet = s.quiet := by
  unfold execThreshFail at h
  injection h with h
  subst h
  try simp only []
  repeat' (first | with_reducible rfl | (with_reducible apply ite_quiet) | (with_reducible apply quiet_foldl_fst <;> intros)
                 | (with_reducible apply quiet_foldl_snd <;> intros) | (with_reducible apply quiet_foldl <;> intros) | split)
  all_goals (try simp only [apply_ite State.quiet, ite_self])
  all_goals (try simp)
  all_goals (repeat' (first | with_reducible rfl | (with_reducible apply ite_quiet) | (with_reducible apply quiet_foldl_fst <;> intros)
                            | (with_reducible apply quiet_foldl_snd <;> intros) | (with_reducible apply quiet_foldl <;> intros) | split))
  all_goals (try simp)
  all_goals (repeat' (first | with_reducible rfl | (with_reducible apply ite_quiet) | (with_reducible apply quiet_foldl_fst <;> intros)
                            | (with_reducible apply quiet_foldl_snd <;> intros) | (with_reducible apply quiet_foldl <;> intros) | split))
  all_goals (try simp)

theorem execResidueMismatch_quiet (lane : Nat) (s : State) (value : Int) (residue : Nat) (t : State)
    (h : execResidueMismatch lane s value residue = .next t) : t.quiet = s.quiet := by
  unfold execResidueMismatch at h
  injection h with h
  subst h
  try simp only []
  repeat' (first | with_reducible rfl | (with_reducible apply ite_quiet) | (with_reducible apply quiet_foldl_fst <;> intros)
                 | (with_reducible apply quiet_foldl_snd <;> intros) | (with_reducible apply quiet_foldl <;> intros) | split)
  all_goals (try simp only [apply_ite State.quiet, ite_self])
  all_goals (try simp)
  all_goals (repeat' (first | with_reducible rfl | (with_reducible apply ite_quiet) | (with_reducible apply quiet_foldl_fst <;> intros)
                            | (with_reducible apply quiet_foldl_snd <;> intros) | (with_reducible apply quiet_foldl <;> intros) | split))
  all_goals (try simp)
  all_goals (repeat' (first | with_reducible rfl | (with_reducible apply ite_quiet) | (with_reducible apply quiet_foldl_fst <;> intros)
                            | (with_reducible apply quiet_foldl_snd <;> intros) | (with_reducible apply quiet_foldl <;> intros) | split))
  all_goals (try simp)

theorem execGleanResult_quiet (lane : Nat) (err : BitVec 64) (failed : Bool) (s : State) (t : State)
    (h : execGleanResult lane err failed s = .next t) : t.quiet = s.quiet := by
  unfold execGleanResult at h
  injection h with h
  subst h
  try simp only []
  repeat' (first | with_reducible rfl | (with_reducible apply ite_quiet) | (with_reducible apply quiet_foldl_fst <;> intros)
                 | (with_reducible apply quiet_foldl_snd <;> intros) | (with_reducible apply quiet_foldl <;> intros) | split)
  all_goals (try simp only [apply_ite State.quiet, ite_self])
  all_goals (try simp)
  all_goals (repeat' (first | with_reducible rfl | (with_reducible apply ite_quiet) | (with_reducible apply quiet_foldl_fst <;> intros)
                            | (with_reducible apply quiet_foldl_snd <;> intros) | (with_reducible apply quiet_foldl <;> intros) | split))
  all_goals (try simp)
  all_goals (repeat' (first | with_reducible rfl | (with_reducible apply ite_quiet) | (with_reducible apply quiet_foldl_fst <;> intros)
                            | (with_reducible apply quiet_foldl_snd <;> intros) | (with_reducible apply quiet_foldl <;> intros) | split))
  all_goals (try simp)

@[simp] theorem State.pictureDone_quiet (s : State) (c : Class) (r : Run) : (s.pictureDone c r).quiet = s.quiet := by
  unfold State.pictureDone
  try simp only []
  repeat' (first | with_reducible rfl | (with_reducible apply ite_quiet) | (with_reducible apply quiet_foldl_fst <;> intros)
                 | (with_reducible apply quiet_foldl_snd <;> intros) | (with_reducible apply quiet_foldl <;> intros) | split)
  all_goals (try simp only [apply_ite State.quiet, ite_self])
  all_goals (try simp)
  all_goals (repeat' (first | with_reducible rfl | (with_reducible apply ite_quiet) | (with_reducible apply quiet_foldl_fst <;> intros)
                            | (with_reducible apply quiet_foldl_snd <;> intros) | (with_reducible apply quiet_foldl <;> intros) | split))
  all_goals (try simp)
  all_goals (repeat' (first | with_reducible rfl | (with_reducible apply ite_quiet) | (with_reducible apply quiet_foldl_fst <;> intros)
                            | (with_reducible apply quiet_foldl_snd <;> intros) | (with_reducible apply quiet_foldl <;> intros) | split))
  all_goals (try simp)

@[simp] theorem State.releaseSheaf_quiet (s : State) (c : Class) (k : Nat) (outs : List Run) :
    (s.releaseSheaf c k outs).quiet = s.quiet := by
  unfold State.releaseSheaf
  try simp only []
  repeat' (first | with_reducible rfl | (with_reducible apply ite_quiet) | (with_reducible apply quiet_foldl_fst <;> intros)
                 | (with_reducible apply quiet_foldl_snd <;> intros) | (with_reducible apply quiet_foldl <;> intros) | split)
  all_goals (try simp only [apply_ite State.quiet, ite_self])
  all_goals (try simp)
  all_goals (repeat' (first | with_reducible rfl | (with_reducible apply ite_quiet) | (with_reducible apply quiet_foldl_fst <;> intros)
                            | (with_reducible apply quiet_foldl_snd <;> intros) | (with_reducible apply quiet_foldl <;> intros) | split))
  all_goals (try simp)
  all_goals (repeat' (first | with_reducible rfl | (with_reducible apply ite_quiet) | (with_reducible apply quiet_foldl_fst <;> intros)
                            | (with_reducible apply quiet_foldl_snd <;> intros) | (with_reducible apply quiet_foldl <;> intros) | split))
  all_goals (try simp)

@[simp] theorem State.joinParts_quiet (s : State) (c : Class) (a b : Run) : (s.joinParts c a b).quiet = s.quiet := by
  unfold State.joinParts
  try simp only []
  repeat' (first | with_reducible rfl | (with_reducible apply ite_quiet) | (with_reducible apply quiet_foldl_fst <;> intros)
                 | (with_reducible apply quiet_foldl_snd <;> intros) | (with_reducible apply quiet_foldl <;> intros) | split)
  all_goals (try simp only [apply_ite State.quiet, ite_self])
  all_goals (try simp)
  all_goals (repeat' (first | with_reducible rfl | (with_reducible apply ite_quiet) | (with_reducible apply quiet_foldl_fst <;> intros)
                            | (with_reducible apply quiet_foldl_snd <;> intros) | (with_reducible apply quiet_foldl <;> intros) | split))
  all_goals (try simp)
  all_goals (repeat' (first | with_reducible rfl | (with_reducible apply ite_quiet) | (with_reducible apply quiet_foldl_fst <;> intros)
                            | (with_reducible apply quiet_foldl_snd <;> intros) | (with_reducible apply quiet_foldl <;> intros) | split))
  all_goals (try simp)

@[simp] theorem State.passPart_quiet (s : State) (c : Class) (r : Run) : (s.passPart c r).quiet = s.quiet := by
  unfold State.passPart
  try simp only []
  repeat' (first | with_reducible rfl | (with_reducible apply ite_quiet) | (with_reducible apply quiet_foldl_fst <;> intros)
                 | (with_reducible apply quiet_foldl_snd <;> intros) | (with_reducible apply quiet_foldl <;> intros) | split)
  all_goals (try simp only [apply_ite State.quiet, ite_self])
  all_goals (try simp)
  all_goals (repeat' (first | with_reducible rfl | (with_reducible apply ite_quiet) | (with_reducible apply quiet_foldl_fst <;> intros)
                            | (with_reducible apply quiet_foldl_snd <;> intros) | (with_reducible apply quiet_foldl <;> intros) | split))
  all_goals (try simp)
  all_goals (repeat' (first | with_reducible rfl | (with_reducible apply ite_quiet) | (with_reducible apply quiet_foldl_fst <;> intros)
                            | (with_reducible apply quiet_foldl_snd <;> intros) | (with_reducible apply quiet_foldl <;> intros) | split))
  all_goals (try simp)

@[simp] theorem State.writeRecon_quiet (s : State) (c : Class) (r : Run) (o : Coded) : (s.writeRecon c r o).quiet = s.quiet := by
  unfold State.writeRecon
  split
  · exact quiet_foldl (fun s i => State.reconWrite_quiet ..) rfl
  · rfl

@[simp] theorem State.noteFilled_quiet (s : State) (c : Class) (r : Run) (o : Coded) : (s.noteFilled c r o).quiet = s.quiet := by
  unfold State.noteFilled
  try simp only []
  repeat' (first | with_reducible rfl | (with_reducible apply ite_quiet) | (with_reducible apply quiet_foldl_fst <;> intros)
                 | (with_reducible apply quiet_foldl_snd <;> intros) | (with_reducible apply quiet_foldl <;> intros) | split)
  all_goals (try simp only [apply_ite State.quiet, ite_self])
  all_goals (try simp)
  all_goals (repeat' (first | with_reducible rfl | (with_reducible apply ite_quiet) | (with_reducible apply quiet_foldl_fst <;> intros)
                            | (with_reducible apply quiet_foldl_snd <;> intros) | (with_reducible apply quiet_foldl <;> intros) | split))
  all_goals (try simp)
  all_goals (repeat' (first | with_reducible rfl | (with_reducible apply ite_quiet) | (with_reducible apply quiet_foldl_fst <;> intros)
                            | (with_reducible apply quiet_foldl_snd <;> intros) | (with_reducible apply quiet_foldl <;> intros) | split))
  all_goals (try simp)

@[simp] theorem State.commitRun_quiet (s : State) (c : Class) (r : Run) (o : Coded) : (s.commitRun c r o).quiet = s.quiet := by
  unfold State.commitRun
  try simp only []
  repeat' (first | with_reducible rfl | (with_reducible apply ite_quiet) | (with_reducible apply quiet_foldl_fst <;> intros)
                 | (with_reducible apply quiet_foldl_snd <;> intros) | (with_reducible apply quiet_foldl <;> intros) | split)
  all_goals (try simp only [apply_ite State.quiet, ite_self])
  all_goals (try simp)
  all_goals (repeat' (first | with_reducible rfl | (with_reducible apply ite_quiet) | (with_reducible apply quiet_foldl_fst <;> intros)
                            | (with_reducible apply quiet_foldl_snd <;> intros) | (with_reducible apply quiet_foldl <;> intros) | split))
  all_goals (try simp)
  all_goals (repeat' (first | with_reducible rfl | (with_reducible apply ite_quiet) | (with_reducible apply quiet_foldl_fst <;> intros)
                            | (with_reducible apply quiet_foldl_snd <;> intros) | (with_reducible apply quiet_foldl <;> intros) | split))
  all_goals (try simp)

@[simp] theorem State.passRun_quiet (s : State) (c : Class) (l : Nat) (r : Run) (o : Coded) : (s.passRun c l r o).quiet = s.quiet := by
  unfold State.passRun
  try simp only []
  repeat' (first | with_reducible rfl | (with_reducible apply ite_quiet) | (with_reducible apply quiet_foldl_fst <;> intros)
                 | (with_reducible apply quiet_foldl_snd <;> intros) | (with_reducible apply quiet_foldl <;> intros) | split)
  all_goals (try simp only [apply_ite State.quiet, ite_self])
  all_goals (try simp)
  all_goals (repeat' (first | with_reducible rfl | (with_reducible apply ite_quiet) | (with_reducible apply quiet_foldl_fst <;> intros)
                            | (with_reducible apply quiet_foldl_snd <;> intros) | (with_reducible apply quiet_foldl <;> intros) | split))
  all_goals (try simp)
  all_goals (repeat' (first | with_reducible rfl | (with_reducible apply ite_quiet) | (with_reducible apply quiet_foldl_fst <;> intros)
                            | (with_reducible apply quiet_foldl_snd <;> intros) | (with_reducible apply quiet_foldl <;> intros) | split))
  all_goals (try simp)

theorem execSheafPass_quiet (lane : Nat) (parsed : List Config.Parsed) (s : State) (t : State)
    (h : execSheafPass lane parsed s = .next t) : t.quiet = s.quiet := by
  unfold execSheafPass at h
  injection h with h
  subst h
  try simp only []
  repeat' (first | with_reducible rfl | (with_reducible apply ite_quiet) | (with_reducible apply quiet_foldl_fst <;> intros)
                 | (with_reducible apply quiet_foldl_snd <;> intros) | (with_reducible apply quiet_foldl <;> intros) | split)
  all_goals (try simp only [apply_ite State.quiet, ite_self])
  all_goals (try simp)
  all_goals (repeat' (first | with_reducible rfl | (with_reducible apply ite_quiet) | (with_reducible apply quiet_foldl_fst <;> intros)
                            | (with_reducible apply quiet_foldl_snd <;> intros) | (with_reducible apply quiet_foldl <;> intros) | split))
  all_goals (try simp)
  all_goals (repeat' (first | with_reducible rfl | (with_reducible apply ite_quiet) | (with_reducible apply quiet_foldl_fst <;> intros)
                            | (with_reducible apply quiet_foldl_snd <;> intros) | (with_reducible apply quiet_foldl <;> intros) | split))
  all_goals (try simp)

end Sys2Proof.Machine
end

