-- ==== Sys2Proof/Laws/QuietUnits.lean ====
section
/-!
SUPPORT. One lemma per operation: the quiet part of the state is as before. This file: the units between ingress and egress, the islands and the faults.
-/

namespace Sys2Proof.Machine

set_option linter.unusedTactic false
set_option linter.unreachableTactic false
set_option linter.unusedSimpArgs false

@[simp] theorem State.rotaOn_quiet (s : State) : (s.rotaOn).quiet = s.quiet := by
  unfold State.rotaOn
  try simp only []
  repeat' (first | with_reducible rfl | (with_reducible apply ite_quiet) | (with_reducible apply quiet_foldl_fst <;> intros)
                 | (with_reducible apply quiet_foldl_snd <;> intros) | (with_reducible apply quiet_foldl <;> intros) | split)
  all_goals (try simp only [apply_ite State.quiet, ite_self])
  all_goals (try simp)
  all_goals (repeat' (first | with_reducible rfl | (with_reducible apply ite_quiet) | (with_reducible apply quiet_foldl_fst <;> intros)
                            | (with_reducible apply quiet_foldl_snd <;> intros) | (with_reducible apply quiet_foldl <;> intros) | split))
  all_goals (try simp)
  all_goals (repeat' (first | with_reducible rfl | (with_reducible apply ite_quiet) | (with_reducible apply quiet_foldl_fst <;> intros)
                            | (with_reducible apply quiet_foldl_snd <;> intros) | (with_reducible apply quiet_foldl <;> intros) | split))
  all_goals (try simp)

theorem execRotaStart_quiet (s t : State) (h : execRotaStart s = .next t) : t.quiet = s.quiet := by
  unfold execRotaStart at h
  injection h with h
  subst h
  refine ite_quiet (quiet_foldl (fun s ch => State.beginSession_quiet _ _ _) ?_) rfl
  rw [State.rotaOn_quiet, State.timeTo_quiet]

@[simp] theorem State.freshWindows_quiet (s : State) (p old new : Nat) : (s.freshWindows p old new).quiet = s.quiet := by
  unfold State.freshWindows
  try simp only []
  repeat' (first | with_reducible rfl | (with_reducible apply ite_quiet) | (with_reducible apply quiet_foldl_fst <;> intros)
                 | (with_reducible apply quiet_foldl_snd <;> intros) | (with_reducible apply quiet_foldl <;> intros) | split)
  all_goals (try simp only [apply_ite State.quiet, ite_self])
  all_goals (try simp)
  all_goals (repeat' (first | with_reducible rfl | (with_reducible apply ite_quiet) | (with_reducible apply quiet_foldl_fst <;> intros)
                            | (with_reducible apply quiet_foldl_snd <;> intros) | (with_reducible apply quiet_foldl <;> intros) | split))
  all_goals (try simp)
  all_goals (repeat' (first | with_reducible rfl | (with_reducible apply ite_quiet) | (with_reducible apply quiet_foldl_fst <;> intros)
                            | (with_reducible apply quiet_foldl_snd <;> intros) | (with_reducible apply quiet_foldl <;> intros) | split))
  all_goals (try simp)

@[simp] theorem State.gatesFollow_quiet (s : State) : (s.gatesFollow).quiet = s.quiet := by
  unfold State.gatesFollow
  try simp only []
  repeat' (first | with_reducible rfl | (with_reducible apply ite_quiet) | (with_reducible apply quiet_foldl_fst <;> intros)
                 | (with_reducible apply quiet_foldl_snd <;> intros) | (with_reducible apply quiet_foldl <;> intros) | split)
  all_goals (try simp only [apply_ite State.quiet, ite_self])
  all_goals (try simp)
  all_goals (repeat' (first | with_reducible rfl | (with_reducible apply ite_quiet) | (with_reducible apply quiet_foldl_fst <;> intros)
                            | (with_reducible apply quiet_foldl_snd <;> intros) | (with_reducible apply quiet_foldl <;> intros) | split))
  all_goals (try simp)
  all_goals (repeat' (first | with_reducible rfl | (with_reducible apply ite_quiet) | (with_reducible apply quiet_foldl_fst <;> intros)
                            | (with_reducible apply quiet_foldl_snd <;> intros) | (with_reducible apply quiet_foldl <;> intros) | split))
  all_goals (try simp)

@[simp] theorem State.gatesNow_quiet (s : State) : (s.gatesNow).quiet = s.quiet := by
  unfold State.gatesNow
  try simp only []
  repeat' (first | with_reducible rfl | (with_reducible apply ite_quiet) | (with_reducible apply quiet_foldl_fst <;> intros)
                 | (with_reducible apply quiet_foldl_snd <;> intros) | (with_reducible apply quiet_foldl <;> intros) | split)
  all_goals (try simp only [apply_ite State.quiet, ite_self])
  all_goals (try simp)
  all_goals (repeat' (first | with_reducible rfl | (with_reducible apply ite_quiet) | (with_reducible apply quiet_foldl_fst <;> intros)
                            | (with_reducible apply quiet_foldl_snd <;> intros) | (with_reducible apply quiet_foldl <;> intros) | split))
  all_goals (try simp)
  all_goals (repeat' (first | with_reducible rfl | (with_reducible apply ite_quiet) | (with_reducible apply quiet_foldl_fst <;> intros)
                            | (with_reducible apply quiet_foldl_snd <;> intros) | (with_reducible apply quiet_foldl <;> intros) | split))
  all_goals (try simp)

@[simp] theorem State.passSheaves_quiet (s : State) (c : Class) (ch p : Nat) (xs : List ShId) :
    (s.passSheaves c ch p xs).quiet = s.quiet := by
  unfold State.passSheaves
  try simp only []
  repeat' (first | with_reducible rfl | (with_reducible apply ite_quiet) | (with_reducible apply quiet_foldl_fst <;> intros)
                 | (with_reducible apply quiet_foldl_snd <;> intros) | (with_reducible apply quiet_foldl <;> intros) | split)
  all_goals (try simp only [apply_ite State.quiet, ite_self])
  all_goals (try simp)
  all_goals (repeat' (first | with_reducible rfl | (with_reducible apply ite_quiet) | (with_reducible apply quiet_foldl_fst <;> intros)
                            | (with_reducible apply quiet_foldl_snd <;> intros) | (with_reducible apply quiet_foldl <;> intros) | split))
  all_goals (try simp)
  all_goals (repeat' (first | with_reducible rfl | (with_reducible apply ite_quiet) | (with_reducible apply quiet_foldl_fst <;> intros)
                            | (with_reducible apply quiet_foldl_snd <;> intros) | (with_reducible apply quiet_foldl <;> intros) | split))
  all_goals (try simp)

@[simp] theorem State.passDues_quiet (s : State) (c : Class) (ch t0 t1 : Nat) (open_ : Option Nat) :
    (s.passDues c ch t0 t1 open_).quiet = s.quiet := by
  unfold State.passDues
  try simp only []
  repeat' (first | with_reducible rfl | (with_reducible apply ite_quiet) | (with_reducible apply quiet_foldl_fst <;> intros)
                 | (with_reducible apply quiet_foldl_snd <;> intros) | (with_reducible apply quiet_foldl <;> intros) | split)
  all_goals (try simp only [apply_ite State.quiet, ite_self])
  all_goals (try simp)
  all_goals (repeat' (first | with_reducible rfl | (with_reducible apply ite_quiet) | (with_reducible apply quiet_foldl_fst <;> intros)
                            | (with_reducible apply quiet_foldl_snd <;> intros) | (with_reducible apply quiet_foldl <;> intros) | split))
  all_goals (try simp)
  all_goals (repeat' (first | with_reducible rfl | (with_reducible apply ite_quiet) | (with_reducible apply quiet_foldl_fst <;> intros)
                            | (with_reducible apply quiet_foldl_snd <;> intros) | (with_reducible apply quiet_foldl <;> intros) | split))
  all_goals (try simp)

@[simp] theorem State.smallStep_quiet (s : State) (t0 t1 ch : Nat) : (s.smallStep t0 t1 ch).quiet = s.quiet := by
  unfold State.smallStep
  try simp only []
  repeat' (first | with_reducible rfl | (with_reducible apply ite_quiet) | (with_reducible apply quiet_foldl_fst <;> intros)
                 | (with_reducible apply quiet_foldl_snd <;> intros) | (with_reducible apply quiet_foldl <;> intros) | split)
  all_goals (try simp only [apply_ite State.quiet, ite_self])
  all_goals (try simp)
  all_goals (repeat' (first | with_reducible rfl | (with_reducible apply ite_quiet) | (with_reducible apply quiet_foldl_fst <;> intros)
                            | (with_reducible apply quiet_foldl_snd <;> intros) | (with_reducible apply quiet_foldl <;> intros) | split))
  all_goals (try simp)
  all_goals (repeat' (first | with_reducible rfl | (with_reducible apply ite_quiet) | (with_reducible apply quiet_foldl_fst <;> intros)
                            | (with_reducible apply quiet_foldl_snd <;> intros) | (with_reducible apply quiet_foldl <;> intros) | split))
  all_goals (try simp)

@[simp] theorem State.bigStep_quiet (s : State) (t0 t1 ch : Nat) : (s.bigStep t0 t1 ch).quiet = s.quiet := by
  unfold State.bigStep
  try simp only []
  repeat' (first | with_reducible rfl | (with_reducible apply ite_quiet) | (with_reducible apply quiet_foldl_fst <;> intros)
                 | (with_reducible apply quiet_foldl_snd <;> intros) | (with_reducible apply quiet_foldl <;> intros) | split)
  all_goals (try simp only [apply_ite State.quiet, ite_self])
  all_goals (try simp)
  all_goals (repeat' (first | with_reducible rfl | (with_reducible apply ite_quiet) | (with_reducible apply quiet_foldl_fst <;> intros)
                            | (with_reducible apply quiet_foldl_snd <;> intros) | (with_reducible apply quiet_foldl <;> intros) | split))
  all_goals (try simp)
  all_goals (repeat' (first | with_reducible rfl | (with_reducible apply ite_quiet) | (with_reducible apply quiet_foldl_fst <;> intros)
                            | (with_reducible apply quiet_foldl_snd <;> intros) | (with_reducible apply quiet_foldl <;> intros) | split))
  all_goals (try simp)

@[simp] theorem State.stepTaken_quiet (s : State) (d : Int) : (s.stepTaken d).quiet = s.quiet := by
  unfold State.stepTaken
  try simp only []
  repeat' (first | with_reducible rfl | (with_reducible apply ite_quiet) | (with_reducible apply quiet_foldl_fst <;> intros)
                 | (with_reducible apply quiet_foldl_snd <;> intros) | (with_reducible apply quiet_foldl <;> intros) | split)
  all_goals (try simp only [apply_ite State.quiet, ite_self])
  all_goals (try simp)
  all_goals (repeat' (first | with_reducible rfl | (with_reducible apply ite_quiet) | (with_reducible apply quiet_foldl_fst <;> intros)
                            | (with_reducible apply quiet_foldl_snd <;> intros) | (with_reducible apply quiet_foldl <;> intros) | split))
  all_goals (try simp)
  all_goals (repeat' (first | with_reducible rfl | (with_reducible apply ite_quiet) | (with_reducible apply quiet_foldl_fst <;> intros)
                            | (with_reducible apply quiet_foldl_snd <;> intros) | (with_reducible apply quiet_foldl <;> intros) | split))
  all_goals (try simp)

@[simp] theorem State.stepRota_quiet (s : State) (d : Int) (t0 t1 : Nat) : (s.stepRota d t0 t1).quiet = s.quiet := by
  unfold State.stepRota
  try simp only []
  repeat' (first | with_reducible rfl | (with_reducible apply ite_quiet) | (with_reducible apply quiet_foldl_fst <;> intros)
                 | (with_reducible apply quiet_foldl_snd <;> intros) | (with_reducible apply quiet_foldl <;> intros) | split)
  all_goals (try simp only [apply_ite State.quiet, ite_self])
  all_goals (try simp)
  all_goals (repeat' (first | with_reducible rfl | (with_reducible apply ite_quiet) | (with_reducible apply quiet_foldl_fst <;> intros)
                            | (with_reducible apply quiet_foldl_snd <;> intros) | (with_reducible apply quiet_foldl <;> intros) | split))
  all_goals (try simp)
  all_goals (repeat' (first | with_reducible rfl | (with_reducible apply ite_quiet) | (with_reducible apply quiet_foldl_fst <;> intros)
                            | (with_reducible apply quiet_foldl_snd <;> intros) | (with_reducible apply quiet_foldl <;> intros) | split))
  all_goals (try simp)

@[simp] theorem State.stepTime_quiet (s : State) (d : Int) (t0 t1 : Nat) : (s.stepTime d t0 t1).quiet = s.quiet := by
  unfold State.stepTime
  try simp only []
  repeat' (first | with_reducible rfl | (with_reducible apply ite_quiet) | (with_reducible apply quiet_foldl_fst <;> intros)
                 | (with_reducible apply quiet_foldl_snd <;> intros) | (with_reducible apply quiet_foldl <;> intros) | split)
  all_goals (try simp only [apply_ite State.quiet, ite_self])
  all_goals (try simp)
  all_goals (repeat' (first | with_reducible rfl | (with_reducible apply ite_quiet) | (with_reducible apply quiet_foldl_fst <;> intros)
                            | (with_reducible apply quiet_foldl_snd <;> intros) | (with_reducible apply quiet_foldl <;> intros) | split))
  all_goals (try simp)
  all_goals (repeat' (first | with_reducible rfl | (with_reducible apply ite_quiet) | (with_reducible apply quiet_foldl_fst <;> intros)
                            | (with_reducible apply quiet_foldl_snd <;> intros) | (with_reducible apply quiet_foldl <;> intros) | split))
  all_goals (try simp)

theorem execClockStep_quiet (s : State) (t : State) (h : execClockStep s = .next t) : t.quiet = s.quiet := by
  unfold execClockStep at h
  injection h with h
  subst h
  try simp only []
  repeat' (first | with_reducible rfl | (with_reducible apply ite_quiet) | (with_reducible apply quiet_foldl_fst <;> intros)
                 | (with_reducible apply quiet_foldl_snd <;> intros) | (with_reducible apply quiet_foldl <;> intros) | split)
  all_goals (try simp only [apply_ite State.quiet, ite_self])
  all_goals (try simp)
  all_goals (repeat' (first | with_reducible rfl | (with_reducible apply ite_quiet) | (with_reducible apply quiet_foldl_fst <;> intros)
                            | (with_reducible apply quiet_foldl_snd <;> intros) | (with_reducible apply quiet_foldl <;> intros) | split))
  all_goals (try simp)
  all_goals (repeat' (first | with_reducible rfl | (with_reducible apply ite_quiet) | (with_reducible apply quiet_foldl_fst <;> intros)
                            | (with_reducible apply quiet_foldl_snd <;> intros) | (with_reducible apply quiet_foldl <;> intros) | split))
  all_goals (try simp)

@[simp] theorem State.vftPop_quiet (s : State) (port : Nat) (p : VftPkt) : (s.vftPop port p).quiet = s.quiet := by
  unfold State.vftPop
  try simp only []
  repeat' (first | with_reducible rfl | (with_reducible apply ite_quiet) | (with_reducible apply quiet_foldl_fst <;> intros)
                 | (with_reducible apply quiet_foldl_snd <;> intros) | (with_reducible apply quiet_foldl <;> intros) | split)
  all_goals (try simp only [apply_ite State.quiet, ite_self])
  all_goals (try simp)
  all_goals (repeat' (first | with_reducible rfl | (with_reducible apply ite_quiet) | (with_reducible apply quiet_foldl_fst <;> intros)
                            | (with_reducible apply quiet_foldl_snd <;> intros) | (with_reducible apply quiet_foldl <;> intros) | split))
  all_goals (try simp)
  all_goals (repeat' (first | with_reducible rfl | (with_reducible apply ite_quiet) | (with_reducible apply quiet_foldl_fst <;> intros)
                            | (with_reducible apply quiet_foldl_snd <;> intros) | (with_reducible apply quiet_foldl <;> intros) | split))
  all_goals (try simp)

@[simp] theorem State.vftTake_quiet (s : State) (p : VftPkt) : (s.vftTake p).quiet = s.quiet := by
  unfold State.vftTake
  try simp only []
  repeat' (first | with_reducible rfl | (with_reducible apply ite_quiet) | (with_reducible apply quiet_foldl_fst <;> intros)
                 | (with_reducible apply quiet_foldl_snd <;> intros) | (with_reducible apply quiet_foldl <;> intros) | split)
  all_goals (try simp only [apply_ite State.quiet, ite_self])
  all_goals (try simp)
  all_goals (repeat' (first | with_reducible rfl | (with_reducible apply ite_quiet) | (with_reducible apply quiet_foldl_fst <;> intros)
                            | (with_reducible apply quiet_foldl_snd <;> intros) | (with_reducible apply quiet_foldl <;> intros) | split))
  all_goals (try simp)
  all_goals (repeat' (first | with_reducible rfl | (with_reducible apply ite_quiet) | (with_reducible apply quiet_foldl_fst <;> intros)
                            | (with_reducible apply quiet_foldl_snd <;> intros) | (with_reducible apply quiet_foldl <;> intros) | split))
  all_goals (try simp)

theorem execVftRows_quiet (port : Nat) (s : State) (t : State) (h : execVftRows port s = .next t) : t.quiet = s.quiet := by
  unfold execVftRows at h
  injection h with h
  subst h
  try simp only []
  repeat' (first | with_reducible rfl | (with_reducible apply ite_quiet) | (with_reducible apply quiet_foldl_fst <;> intros)
                 | (with_reducible apply quiet_foldl_snd <;> intros) | (with_reducible apply quiet_foldl <;> intros) | split)
  all_goals (try simp only [apply_ite State.quiet, ite_self])
  all_goals (try simp)
  all_goals (repeat' (first | with_reducible rfl | (with_reducible apply ite_quiet) | (with_reducible apply quiet_foldl_fst <;> intros)
                            | (with_reducible apply quiet_foldl_snd <;> intros) | (with_reducible apply quiet_foldl <;> intros) | split))
  all_goals (try simp)
  all_goals (repeat' (first | with_reducible rfl | (with_reducible apply ite_quiet) | (with_reducible apply quiet_foldl_fst <;> intros)
                            | (with_reducible apply quiet_foldl_snd <;> intros) | (with_reducible apply quiet_foldl <;> intros) | split))
  all_goals (try simp)

theorem execDone_quiet (pe : Nat) (m : PtpMsg) (s : State) (pop : Bool) (t : State)
    (h : execDone pe m s pop = .next t) : t.quiet = s.quiet := by
  unfold execDone at h
  injection h with h
  subst h
  try simp only []
  repeat' (first | with_reducible rfl | (with_reducible apply ite_quiet) | (with_reducible apply quiet_foldl_fst <;> intros)
                 | (with_reducible apply quiet_foldl_snd <;> intros) | (with_reducible apply quiet_foldl <;> intros) | split)
  all_goals (try simp only [apply_ite State.quiet, ite_self])
  all_goals (try simp)
  all_goals (repeat' (first | with_reducible rfl | (with_reducible apply ite_quiet) | (with_reducible apply quiet_foldl_fst <;> intros)
                            | (with_reducible apply quiet_foldl_snd <;> intros) | (with_reducible apply quiet_foldl <;> intros) | split))
  all_goals (try simp)
  all_goals (repeat' (first | with_reducible rfl | (with_reducible apply ite_quiet) | (with_reducible apply quiet_foldl_fst <;> intros)
                            | (with_reducible apply quiet_foldl_snd <;> intros) | (with_reducible apply quiet_foldl <;> intros) | split))
  all_goals (try simp)

theorem execDoorbell_quiet (s : State) (t : State) (h : execDoorbell s = .next t) : t.quiet = s.quiet := by
  unfold execDoorbell at h
  injection h with h
  subst h
  try simp only []
  repeat' (first | with_reducible rfl | (with_reducible apply ite_quiet) | (with_reducible apply quiet_foldl_fst <;> intros)
                 | (with_reducible apply quiet_foldl_snd <;> intros) | (with_reducible apply quiet_foldl <;> intros) | split)
  all_goals (try simp only [apply_ite State.quiet, ite_self])
  all_goals (try simp)
  all_goals (repeat' (first | with_reducible rfl | (with_reducible apply ite_quiet) | (with_reducible apply quiet_foldl_fst <;> intros)
                            | (with_reducible apply quiet_foldl_snd <;> intros) | (with_reducible apply quiet_foldl <;> intros) | split))
  all_goals (try simp)
  all_goals (repeat' (first | with_reducible rfl | (with_reducible apply ite_quiet) | (with_reducible apply quiet_foldl_fst <;> intros)
                            | (with_reducible apply quiet_foldl_snd <;> intros) | (with_reducible apply quiet_foldl <;> intros) | split))
  all_goals (try simp)

theorem execSheafDue_quiet (ch hp frame sheaf : Nat) (s : State) (t : State)
    (h : execSheafDue ch hp frame sheaf s = .next t) : t.quiet = s.quiet := by
  unfold execSheafDue at h
  injection h with h
  subst h
  try simp only []
  repeat' (first | with_reducible rfl | (with_reducible apply ite_quiet) | (with_reducible apply quiet_foldl_fst <;> intros)
                 | (with_reducible apply quiet_foldl_snd <;> intros) | (with_reducible apply quiet_foldl <;> intros) | split)
  all_goals (try simp only [apply_ite State.quiet, ite_self])
  all_goals (try simp)
  all_goals (repeat' (first | with_reducible rfl | (with_reducible apply ite_quiet) | (with_reducible apply quiet_foldl_fst <;> intros)
                            | (with_reducible apply quiet_foldl_snd <;> intros) | (with_reducible apply quiet_foldl <;> intros) | split))
  all_goals (try simp)
  all_goals (repeat' (first | with_reducible rfl | (with_reducible apply ite_quiet) | (with_reducible apply quiet_foldl_fst <;> intros)
                            | (with_reducible apply quiet_foldl_snd <;> intros) | (with_reducible apply quiet_foldl <;> intros) | split))
  all_goals (try simp)

@[simp] theorem State.setFlight_quiet (s : State) (f : Nat) (v : Flight) : (s.setFlight f v).quiet = s.quiet := by
  unfold State.setFlight
  try simp only []
  repeat' (first | with_reducible rfl | (with_reducible apply ite_quiet) | (with_reducible apply quiet_foldl_fst <;> intros)
                 | (with_reducible apply quiet_foldl_snd <;> intros) | (with_reducible apply quiet_foldl <;> intros) | split)
  all_goals (try simp only [apply_ite State.quiet, ite_self])
  all_goals (try simp)
  all_goals (repeat' (first | with_reducible rfl | (with_reducible apply ite_quiet) | (with_reducible apply quiet_foldl_fst <;> intros)
                            | (with_reducible apply quiet_foldl_snd <;> intros) | (with_reducible apply quiet_foldl <;> intros) | split))
  all_goals (try simp)
  all_goals (repeat' (first | with_reducible rfl | (with_reducible apply ite_quiet) | (with_reducible apply quiet_foldl_fst <;> intros)
                            | (with_reducible apply quiet_foldl_snd <;> intros) | (with_reducible apply quiet_foldl <;> intros) | split))
  all_goals (try simp)

@[simp] theorem State.beginFlight_quiet (s : State) (v : Flight) : (s.beginFlight v).2.quiet = s.quiet := by
  unfold State.beginFlight
  try simp only []
  repeat' (first | with_reducible rfl | (with_reducible apply ite_quiet) | (with_reducible apply quiet_foldl_fst <;> intros)
                 | (with_reducible apply quiet_foldl_snd <;> intros) | (with_reducible apply quiet_foldl <;> intros) | split)
  all_goals (try simp only [apply_ite State.quiet, ite_self])
  all_goals (try simp)
  all_goals (repeat' (first | with_reducible rfl | (with_reducible apply ite_quiet) | (with_reducible apply quiet_foldl_fst <;> intros)
                            | (with_reducible apply quiet_foldl_snd <;> intros) | (with_reducible apply quiet_foldl <;> intros) | split))
  all_goals (try simp)
  all_goals (repeat' (first | with_reducible rfl | (with_reducible apply ite_quiet) | (with_reducible apply quiet_foldl_fst <;> intros)
                            | (with_reducible apply quiet_foldl_snd <;> intros) | (with_reducible apply quiet_foldl <;> intros) | split))
  all_goals (try simp)

@[simp] theorem State.settleFlight_quiet (s : State) (f : Nat) : (s.settleFlight f).quiet = s.quiet := by
  unfold State.settleFlight
  try simp only []
  repeat' (first | with_reducible rfl | (with_reducible apply ite_quiet) | (with_reducible apply quiet_foldl_fst <;> intros)
                 | (with_reducible apply quiet_foldl_snd <;> intros) | (with_reducible apply quiet_foldl <;> intros) | split)
  all_goals (try simp only [apply_ite State.quiet, ite_self])
  all_goals (try simp)
  all_goals (repeat' (first | with_reducible rfl | (with_reducible apply ite_quiet) | (with_reducible apply quiet_foldl_fst <;> intros)
                            | (with_reducible apply quiet_foldl_snd <;> intros) | (with_reducible apply quiet_foldl <;> intros) | split))
  all_goals (try simp)
  all_goals (repeat' (first | with_reducible rfl | (with_reducible apply ite_quiet) | (with_reducible apply quiet_foldl_fst <;> intros)
                            | (with_reducible apply quiet_foldl_snd <;> intros) | (with_reducible apply quiet_foldl <;> intros) | split))
  all_goals (try simp)

@[simp] theorem State.copyDone_quiet (s : State) (c : Copy) : (s.copyDone c).quiet = s.quiet := by
  unfold State.copyDone
  try simp only []
  repeat' (first | with_reducible rfl | (with_reducible apply ite_quiet) | (with_reducible apply quiet_foldl_fst <;> intros)
                 | (with_reducible apply quiet_foldl_snd <;> intros) | (with_reducible apply quiet_foldl <;> intros) | split)
  all_goals (try simp only [apply_ite State.quiet, ite_self])
  all_goals (try simp)
  all_goals (repeat' (first | with_reducible rfl | (with_reducible apply ite_quiet) | (with_reducible apply quiet_foldl_fst <;> intros)
                            | (with_reducible apply quiet_foldl_snd <;> intros) | (with_reducible apply quiet_foldl <;> intros) | split))
  all_goals (try simp)
  all_goals (repeat' (first | with_reducible rfl | (with_reducible apply ite_quiet) | (with_reducible apply quiet_foldl_fst <;> intros)
                            | (with_reducible apply quiet_foldl_snd <;> intros) | (with_reducible apply quiet_foldl <;> intros) | split))
  all_goals (try simp)

theorem execRulesetFlip_quiet (s : State) (t : State) (h : execRulesetFlip s = .next t) : t.quiet = s.quiet := by
  unfold execRulesetFlip at h
  injection h with h
  subst h
  try simp only []
  repeat' (first | with_reducible rfl | (with_reducible apply ite_quiet) | (with_reducible apply quiet_foldl_fst <;> intros)
                 | (with_reducible apply quiet_foldl_snd <;> intros) | (with_reducible apply quiet_foldl <;> intros) | split)
  all_goals (try simp only [apply_ite State.quiet, ite_self])
  all_goals (try simp)
  all_goals (repeat' (first | with_reducible rfl | (with_reducible apply ite_quiet) | (with_reducible apply quiet_foldl_fst <;> intros)
                            | (with_reducible apply quiet_foldl_snd <;> intros) | (with_reducible apply quiet_foldl <;> intros) | split))
  all_goals (try simp)
  all_goals (repeat' (first | with_reducible rfl | (with_reducible apply ite_quiet) | (with_reducible apply quiet_foldl_fst <;> intros)
                            | (with_reducible apply quiet_foldl_snd <;> intros) | (with_reducible apply quiet_foldl <;> intros) | split))
  all_goals (try simp)

theorem execRulesetRetire_quiet (s : State) (t : State) (h : execRulesetRetire s = .next t) : t.quiet = s.quiet := by
  unfold execRulesetRetire at h
  injection h with h
  subst h
  try simp only []
  repeat' (first | with_reducible rfl | (with_reducible apply ite_quiet) | (with_reducible apply quiet_foldl_fst <;> intros)
                 | (with_reducible apply quiet_foldl_snd <;> intros) | (with_reducible apply quiet_foldl <;> intros) | split)
  all_goals (try simp only [apply_ite State.quiet, ite_self])
  all_goals (try simp)
  all_goals (repeat' (first | with_reducible rfl | (with_reducible apply ite_quiet) | (with_reducible apply quiet_foldl_fst <;> intros)
                            | (with_reducible apply quiet_foldl_snd <;> intros) | (with_reducible apply quiet_foldl <;> intros) | split))
  all_goals (try simp)
  all_goals (repeat' (first | with_reducible rfl | (with_reducible apply ite_quiet) | (with_reducible apply quiet_foldl_fst <;> intros)
                            | (with_reducible apply quiet_foldl_snd <;> intros) | (with_reducible apply quiet_foldl <;> intros) | split))
  all_goals (try simp)

theorem State.emInsert_quiet {s t : State} {n : Nat} {key : List Byte} {b : EmBody} (h : s.emInsert n key b = some t) :
    t.quiet = s.quiet := by
  unfold State.emInsert at h
  split at h
  · cases h
  · simp only [] at h
    split at h
    · cases h
    · split at h
      · cases h
      · rw [Option.map_eq_some_iff] at h
        obtain ⟨e, _, rfl⟩ := h
        simp only [quiet_mk, quiet_eta]
        split <;> simp

@[simp] theorem State.emInsert_getD_quiet (s : State) (n : Nat) (key : List Byte) (b : EmBody) :
    ((s.emInsert n key b).getD s).quiet = s.quiet := by
  cases h : s.emInsert n key b with
  | none => rfl
  | some t => exact State.emInsert_quiet h

@[simp] theorem State.emDelete_quiet (s : State) (n : Nat) (key : List Byte) : (s.emDelete n key).quiet = s.quiet := by
  unfold State.emDelete
  try simp only []
  repeat' (first | with_reducible rfl | (with_reducible apply ite_quiet) | (with_reducible apply quiet_foldl_fst <;> intros)
                 | (with_reducible apply quiet_foldl_snd <;> intros) | (with_reducible apply quiet_foldl <;> intros) | split)
  all_goals (try simp only [apply_ite State.quiet, ite_self])
  all_goals (try simp)
  all_goals (repeat' (first | with_reducible rfl | (with_reducible apply ite_quiet) | (with_reducible apply quiet_foldl_fst <;> intros)
                            | (with_reducible apply quiet_foldl_snd <;> intros) | (with_reducible apply quiet_foldl <;> intros) | split))
  all_goals (try simp)
  all_goals (repeat' (first | with_reducible rfl | (with_reducible apply ite_quiet) | (with_reducible apply quiet_foldl_fst <;> intros)
                            | (with_reducible apply quiet_foldl_snd <;> intros) | (with_reducible apply quiet_foldl <;> intros) | split))
  all_goals (try simp)

theorem execStashMove_quiet (slot : Nat) (s : State) (t : State) (h : execStashMove slot s = .next t) : t.quiet = s.quiet := by
  unfold execStashMove at h
  injection h with h
  subst h
  try simp only []
  repeat' (first | with_reducible rfl | (with_reducible apply ite_quiet) | (with_reducible apply quiet_foldl_fst <;> intros)
                 | (with_reducible apply quiet_foldl_snd <;> intros) | (with_reducible apply quiet_foldl <;> intros) | split)
  all_goals (try simp only [apply_ite State.quiet, ite_self])
  all_goals (try simp)
  all_goals (repeat' (first | with_reducible rfl | (with_reducible apply ite_quiet) | (with_reducible apply quiet_foldl_fst <;> intros)
                            | (with_reducible apply quiet_foldl_snd <;> intros) | (with_reducible apply quiet_foldl <;> intros) | split))
  all_goals (try simp)
  all_goals (repeat' (first | with_reducible rfl | (with_reducible apply ite_quiet) | (with_reducible apply quiet_foldl_fst <;> intros)
                            | (with_reducible apply quiet_foldl_snd <;> intros) | (with_reducible apply quiet_foldl <;> intros) | split))
  all_goals (try simp)

@[simp] theorem State.irqWithdraw_quiet (s : State) (ns : List Nat) : (s.irqWithdraw ns).quiet = s.quiet := by
  unfold State.irqWithdraw
  try simp only []
  repeat' (first | with_reducible rfl | (with_reducible apply ite_quiet) | (with_reducible apply quiet_foldl_fst <;> intros)
                 | (with_reducible apply quiet_foldl_snd <;> intros) | (with_reducible apply quiet_foldl <;> intros) | split)
  all_goals (try simp only [apply_ite State.quiet, ite_self])
  all_goals (try simp)
  all_goals (repeat' (first | with_reducible rfl | (with_reducible apply ite_quiet) | (with_reducible apply quiet_foldl_fst <;> intros)
                            | (with_reducible apply quiet_foldl_snd <;> intros) | (with_reducible apply quiet_foldl <;> intros) | split))
  all_goals (try simp)
  all_goals (repeat' (first | with_reducible rfl | (with_reducible apply ite_quiet) | (with_reducible apply quiet_foldl_fst <;> intros)
                            | (with_reducible apply quiet_foldl_snd <;> intros) | (with_reducible apply quiet_foldl <;> intros) | split))
  all_goals (try simp)

theorem execIrqEvent_quiet (src : Nat) (level : Bool) (s : State) (held : Nat) (t : State)
    (h : execIrqEvent src level s held = .next t) : t.quiet = s.quiet := by
  unfold execIrqEvent at h
  injection h with h
  subst h
  try simp only []
  repeat' (first | with_reducible rfl | (with_reducible apply ite_quiet) | (with_reducible apply quiet_foldl_fst <;> intros)
                 | (with_reducible apply quiet_foldl_snd <;> intros) | (with_reducible apply quiet_foldl <;> intros) | split)
  all_goals (try simp only [apply_ite State.quiet, ite_self])
  all_goals (try simp)
  all_goals (repeat' (first | with_reducible rfl | (with_reducible apply ite_quiet) | (with_reducible apply quiet_foldl_fst <;> intros)
                            | (with_reducible apply quiet_foldl_snd <;> intros) | (with_reducible apply quiet_foldl <;> intros) | split))
  all_goals (try simp)
  all_goals (repeat' (first | with_reducible rfl | (with_reducible apply ite_quiet) | (with_reducible apply quiet_foldl_fst <;> intros)
                            | (with_reducible apply quiet_foldl_snd <;> intros) | (with_reducible apply quiet_foldl <;> intros) | split))
  all_goals (try simp)

theorem execIrqModerationEnd_quiet (tgt : Nat) (s : State) (t : State) (h : execIrqModerationEnd tgt s = .next t) : t.quiet = s.quiet := by
  unfold execIrqModerationEnd at h
  injection h with h
  subst h
  try simp only []
  repeat' (first | with_reducible rfl | (with_reducible apply ite_quiet) | (with_reducible apply quiet_foldl_fst <;> intros)
                 | (with_reducible apply quiet_foldl_snd <;> intros) | (with_reducible apply quiet_foldl <;> intros) | split)
  all_goals (try simp only [apply_ite State.quiet, ite_self])
  all_goals (try simp)
  all_goals (repeat' (first | with_reducible rfl | (with_reducible apply ite_quiet) | (with_reducible apply quiet_foldl_fst <;> intros)
                            | (with_reducible apply quiet_foldl_snd <;> intros) | (with_reducible apply quiet_foldl <;> intros) | split))
  all_goals (try simp)
  all_goals (repeat' (first | with_reducible rfl | (with_reducible apply ite_quiet) | (with_reducible apply quiet_foldl_fst <;> intros)
                            | (with_reducible apply quiet_foldl_snd <;> intros) | (with_reducible apply quiet_foldl <;> intros) | split))
  all_goals (try simp)

theorem execIrqHostAck_quiet (v : Nat) (s : State) (t : State) (h : execIrqHostAck v s = .next t) : t.quiet = s.quiet := by
  unfold execIrqHostAck at h
  injection h with h
  subst h
  try simp only []
  repeat' (first | with_reducible rfl | (with_reducible apply ite_quiet) | (with_reducible apply quiet_foldl_fst <;> intros)
                 | (with_reducible apply quiet_foldl_snd <;> intros) | (with_reducible apply quiet_foldl <;> intros) | split)
  all_goals (try simp only [apply_ite State.quiet, ite_self])
  all_goals (try simp)
  all_goals (repeat' (first | with_reducible rfl | (with_reducible apply ite_quiet) | (with_reducible apply quiet_foldl_fst <;> intros)
                            | (with_reducible apply quiet_foldl_snd <;> intros) | (with_reducible apply quiet_foldl <;> intros) | split))
  all_goals (try simp)
  all_goals (repeat' (first | with_reducible rfl | (with_reducible apply ite_quiet) | (with_reducible apply quiet_foldl_fst <;> intros)
                            | (with_reducible apply quiet_foldl_snd <;> intros) | (with_reducible apply quiet_foldl <;> intros) | split))
  all_goals (try simp)

theorem execIrqSwSet_quiet (n : Nat) (s : State) (t : State) (h : execIrqSwSet n s = .next t) : t.quiet = s.quiet := by
  unfold execIrqSwSet at h
  injection h with h
  subst h
  try simp only []
  repeat' (first | with_reducible rfl | (with_reducible apply ite_quiet) | (with_reducible apply quiet_foldl_fst <;> intros)
                 | (with_reducible apply quiet_foldl_snd <;> intros) | (with_reducible apply quiet_foldl <;> intros) | split)
  all_goals (try simp only [apply_ite State.quiet, ite_self])
  all_goals (try simp)
  all_goals (repeat' (first | with_reducible rfl | (with_reducible apply ite_quiet) | (with_reducible apply quiet_foldl_fst <;> intros)
                            | (with_reducible apply quiet_foldl_snd <;> intros) | (with_reducible apply quiet_foldl <;> intros) | split))
  all_goals (try simp)
  all_goals (repeat' (first | with_reducible rfl | (with_reducible apply ite_quiet) | (with_reducible apply quiet_foldl_fst <;> intros)
                            | (with_reducible apply quiet_foldl_snd <;> intros) | (with_reducible apply quiet_foldl <;> intros) | split))
  all_goals (try simp)

theorem execIrqSrcCfg_quiet (n : Nat) (w : Word) (s : State) (t : State) (h : execIrqSrcCfg n w s = .next t) : t.quiet = s.quiet := by
  unfold execIrqSrcCfg at h
  injection h with h
  subst h
  try simp only []
  repeat' (first | with_reducible rfl | (with_reducible apply ite_quiet) | (with_reducible apply quiet_foldl_fst <;> intros)
                 | (with_reducible apply quiet_foldl_snd <;> intros) | (with_reducible apply quiet_foldl <;> intros) | split)
  all_goals (try simp only [apply_ite State.quiet, ite_self])
  all_goals (try simp)
  all_goals (repeat' (first | with_reducible rfl | (with_reducible apply ite_quiet) | (with_reducible apply quiet_foldl_fst <;> intros)
                            | (with_reducible apply quiet_foldl_snd <;> intros) | (with_reducible apply quiet_foldl <;> intros) | split))
  all_goals (try simp)
  all_goals (repeat' (first | with_reducible rfl | (with_reducible apply ite_quiet) | (with_reducible apply quiet_foldl_fst <;> intros)
                            | (with_reducible apply quiet_foldl_snd <;> intros) | (with_reducible apply quiet_foldl <;> intros) | split))
  all_goals (try simp)

theorem execMsixMask_quiet (w : MsixWr) (s : State) (t : State) (h : execMsixMask w s = .next t) : t.quiet = s.quiet := by
  unfold execMsixMask at h
  injection h with h
  subst h
  try simp only []
  repeat' (first | with_reducible rfl | (with_reducible apply ite_quiet) | (with_reducible apply quiet_foldl_fst <;> intros)
                 | (with_reducible apply quiet_foldl_snd <;> intros) | (with_reducible apply quiet_foldl <;> intros) | split)
  all_goals (try simp only [apply_ite State.quiet, ite_self])
  all_goals (try simp)
  all_goals (repeat' (first | with_reducible rfl | (with_reducible apply ite_quiet) | (with_reducible apply quiet_foldl_fst <;> intros)
                            | (with_reducible apply quiet_foldl_snd <;> intros) | (with_reducible apply quiet_foldl <;> intros) | split))
  all_goals (try simp)
  all_goals (repeat' (first | with_reducible rfl | (with_reducible apply ite_quiet) | (with_reducible apply quiet_foldl_fst <;> intros)
                            | (with_reducible apply quiet_foldl_snd <;> intros) | (with_reducible apply quiet_foldl <;> intros) | split))
  all_goals (try simp)

@[simp] theorem State.heal_quiet (s : State) (a n : Nat) : (s.heal a n).quiet = s.quiet := by
  unfold State.heal
  try simp only []
  repeat' (first | with_reducible rfl | (with_reducible apply ite_quiet) | (with_reducible apply quiet_foldl_fst <;> intros)
                 | (with_reducible apply quiet_foldl_snd <;> intros) | (with_reducible apply quiet_foldl <;> intros) | split)
  all_goals (try simp only [apply_ite State.quiet, ite_self])
  all_goals (try simp)
  all_goals (repeat' (first | with_reducible rfl | (with_reducible apply ite_quiet) | (with_reducible apply quiet_foldl_fst <;> intros)
                            | (with_reducible apply quiet_foldl_snd <;> intros) | (with_reducible apply quiet_foldl <;> intros) | split))
  all_goals (try simp)
  all_goals (repeat' (first | with_reducible rfl | (with_reducible apply ite_quiet) | (with_reducible apply quiet_foldl_fst <;> intros)
                            | (with_reducible apply quiet_foldl_snd <;> intros) | (with_reducible apply quiet_foldl <;> intros) | split))
  all_goals (try simp)

@[simp] theorem State.accWrite_quiet (s : State) (al a : Nat) (bs : List Byte) : (s.accWrite al a bs).quiet = s.quiet := by
  unfold State.accWrite
  try simp only []
  repeat' (first | with_reducible rfl | (with_reducible apply ite_quiet) | (with_reducible apply quiet_foldl_fst <;> intros)
                 | (with_reducible apply quiet_foldl_snd <;> intros) | (with_reducible apply quiet_foldl <;> intros) | split)
  all_goals (try simp only [apply_ite State.quiet, ite_self])
  all_goals (try simp)
  all_goals (repeat' (first | with_reducible rfl | (with_reducible apply ite_quiet) | (with_reducible apply quiet_foldl_fst <;> intros)
                            | (with_reducible apply quiet_foldl_snd <;> intros) | (with_reducible apply quiet_foldl <;> intros) | split))
  all_goals (try simp)
  all_goals (repeat' (first | with_reducible rfl | (with_reducible apply ite_quiet) | (with_reducible apply quiet_foldl_fst <;> intros)
                            | (with_reducible apply quiet_foldl_snd <;> intros) | (with_reducible apply quiet_foldl <;> intros) | split))
  all_goals (try simp)

@[simp] theorem State.takeSet_quiet (s : State) (x : Nat) (nal : List Byte) : (s.takeSet x nal).quiet = s.quiet := by
  unfold State.takeSet
  try simp only []
  repeat' (first | with_reducible rfl | (with_reducible apply ite_quiet) | (with_reducible apply quiet_foldl_fst <;> intros)
                 | (with_reducible apply quiet_foldl_snd <;> intros) | (with_reducible apply quiet_foldl <;> intros) | split)
  all_goals (try simp only [apply_ite State.quiet, ite_self])
  all_goals (try simp)
  all_goals (repeat' (first | with_reducible rfl | (with_reducible apply ite_quiet) | (with_reducible apply quiet_foldl_fst <;> intros)
                            | (with_reducible apply quiet_foldl_snd <;> intros) | (with_reducible apply quiet_foldl <;> intros) | split))
  all_goals (try simp)
  all_goals (repeat' (first | with_reducible rfl | (with_reducible apply ite_quiet) | (with_reducible apply quiet_foldl_fst <;> intros)
                            | (with_reducible apply quiet_foldl_snd <;> intros) | (with_reducible apply quiet_foldl <;> intros) | split))
  all_goals (try simp)

@[simp] theorem State.greyBuf_quiet (s : State) (x b : Nat) (p : Config.ParamSet) : (s.greyBuf x b p).quiet = s.quiet := by
  unfold State.greyBuf
  try simp only []
  repeat' (first | with_reducible rfl | (with_reducible apply ite_quiet) | (with_reducible apply quiet_foldl_fst <;> intros)
                 | (with_reducible apply quiet_foldl_snd <;> intros) | (with_reducible apply quiet_foldl <;> intros) | split)
  all_goals (try simp only [apply_ite State.quiet, ite_self])
  all_goals (try simp)
  all_goals (repeat' (first | with_reducible rfl | (with_reducible apply ite_quiet) | (with_reducible apply quiet_foldl_fst <;> intros)
                            | (with_reducible apply quiet_foldl_snd <;> intros) | (with_reducible apply quiet_foldl <;> intros) | split))
  all_goals (try simp)
  all_goals (repeat' (first | with_reducible rfl | (with_reducible apply ite_quiet) | (with_reducible apply quiet_foldl_fst <;> intros)
                            | (with_reducible apply quiet_foldl_snd <;> intros) | (with_reducible apply quiet_foldl <;> intros) | split))
  all_goals (try simp)

@[simp] theorem State.writeRow_quiet (s : State) (x : Nat) (p : CurPic) (copied : List Nat) (r : Nat) :
    (s.writeRow x p copied r).quiet = s.quiet := by
  unfold State.writeRow
  refine quiet_foldl (fun s i => State.decPut_quiet ..) (quiet_foldl (fun s i => State.decPut_quiet ..) rfl)

@[simp] theorem State.writeRows_quiet (s : State) (x n : Nat) (copied : List Nat) : (s.writeRows x n copied).quiet = s.quiet := by
  unfold State.writeRows
  have h (p : CurPic) : ((range2 p.rows n).foldl (fun s r => s.writeRow x p copied r) s).quiet = s.quiet :=
    quiet_foldl (fun s r => State.writeRow_quiet s x p copied r) rfl
  dsimp only
  split
  · rfl
  · split
    · rfl
    · split <;> simp [h]

@[simp] theorem State.outHost_quiet (s : State) (x b : Nat) : (s.outHost x b).quiet = s.quiet := by
  unfold State.outHost
  try simp only []
  repeat' (first | with_reducible rfl | (with_reducible apply ite_quiet) | (with_reducible apply quiet_foldl_fst <;> intros)
                 | (with_reducible apply quiet_foldl_snd <;> intros) | (with_reducible apply quiet_foldl <;> intros) | split)
  all_goals (try simp only [apply_ite State.quiet, ite_self])
  all_goals (try simp)
  all_goals (repeat' (first | with_reducible rfl | (with_reducible apply ite_quiet) | (with_reducible apply quiet_foldl_fst <;> intros)
                            | (with_reducible apply quiet_foldl_snd <;> intros) | (with_reducible apply quiet_foldl <;> intros) | split))
  all_goals (try simp)
  all_goals (repeat' (first | with_reducible rfl | (with_reducible apply ite_quiet) | (with_reducible apply quiet_foldl_fst <;> intros)
                            | (with_reducible apply quiet_foldl_snd <;> intros) | (with_reducible apply quiet_foldl <;> intros) | split))
  all_goals (try simp)

@[simp] theorem State.outBind_quiet (s : State) (x b : Nat) : (s.outBind x b).quiet = s.quiet := by
  unfold State.outBind
  try simp only []
  repeat' (first | with_reducible rfl | (with_reducible apply ite_quiet) | (with_reducible apply quiet_foldl_fst <;> intros)
                 | (with_reducible apply quiet_foldl_snd <;> intros) | (with_reducible apply quiet_foldl <;> intros) | split)
  all_goals (try simp only [apply_ite State.quiet, ite_self])
  all_goals (try simp)
  all_goals (repeat' (first | with_reducible rfl | (with_reducible apply ite_quiet) | (with_reducible apply quiet_foldl_fst <;> intros)
                            | (with_reducible apply quiet_foldl_snd <;> intros) | (with_reducible apply quiet_foldl <;> intros) | split))
  all_goals (try simp)
  all_goals (repeat' (first | with_reducible rfl | (with_reducible apply ite_quiet) | (with_reducible apply quiet_foldl_fst <;> intros)
                            | (with_reducible apply quiet_foldl_snd <;> intros) | (with_reducible apply quiet_foldl <;> intros) | split))
  all_goals (try simp)

@[simp] theorem State.outputPic_quiet (s : State) (x b : Nat) (extra : Nat) : (s.outputPic x b extra).quiet = s.quiet := by
  unfold State.outputPic
  try simp only []
  repeat' (first | with_reducible rfl | (with_reducible apply ite_quiet) | (with_reducible apply quiet_foldl_fst <;> intros)
                 | (with_reducible apply quiet_foldl_snd <;> intros) | (with_reducible apply quiet_foldl <;> intros) | split)
  all_goals (try simp only [apply_ite State.quiet, ite_self])
  all_goals (try simp)
  all_goals (repeat' (first | with_reducible rfl | (with_reducible apply ite_quiet) | (with_reducible apply quiet_foldl_fst <;> intros)
                            | (with_reducible apply quiet_foldl_snd <;> intros) | (with_reducible apply quiet_foldl <;> intros) | split))
  all_goals (try simp)
  all_goals (repeat' (first | with_reducible rfl | (with_reducible apply ite_quiet) | (with_reducible apply quiet_foldl_fst <;> intros)
                            | (with_reducible apply quiet_foldl_snd <;> intros) | (with_reducible apply quiet_foldl <;> intros) | split))
  all_goals (try simp)

@[simp] theorem State.bump_quiet (s : State) (x : Nat) : (s.bump x).quiet = s.quiet := by
  unfold State.bump
  try simp only []
  repeat' (first | with_reducible rfl | (with_reducible apply ite_quiet) | (with_reducible apply quiet_foldl_fst <;> intros)
                 | (with_reducible apply quiet_foldl_snd <;> intros) | (with_reducible apply quiet_foldl <;> intros) | split)
  all_goals (try simp only [apply_ite State.quiet, ite_self])
  all_goals (try simp)
  all_goals (repeat' (first | with_reducible rfl | (with_reducible apply ite_quiet) | (with_reducible apply quiet_foldl_fst <;> intros)
                            | (with_reducible apply quiet_foldl_snd <;> intros) | (with_reducible apply quiet_foldl <;> intros) | split))
  all_goals (try simp)
  all_goals (repeat' (first | with_reducible rfl | (with_reducible apply ite_quiet) | (with_reducible apply quiet_foldl_fst <;> intros)
                            | (with_reducible apply quiet_foldl_snd <;> intros) | (with_reducible apply quiet_foldl <;> intros) | split))
  all_goals (try simp)

@[simp] theorem State.bumpWhile_quiet (f : Dcx → Bool) (x n : Nat) (s : State) : (State.bumpWhile f x n s).quiet = s.quiet := by
  induction n generalizing s with
  | zero => rfl
  | succ n ih => unfold State.bumpWhile; split <;> simp [ih]

@[simp] theorem State.flushOut_quiet (s : State) (x : Nat) (noPrior : Bool) : (s.flushOut x noPrior).quiet = s.quiet := by
  unfold State.flushOut
  try simp only []
  repeat' (first | with_reducible rfl | (with_reducible apply ite_quiet) | (with_reducible apply quiet_foldl_fst <;> intros)
                 | (with_reducible apply quiet_foldl_snd <;> intros) | (with_reducible apply quiet_foldl <;> intros) | split)
  all_goals (try simp only [apply_ite State.quiet, ite_self])
  all_goals (try simp)
  all_goals (repeat' (first | with_reducible rfl | (with_reducible apply ite_quiet) | (with_reducible apply quiet_foldl_fst <;> intros)
                            | (with_reducible apply quiet_foldl_snd <;> intros) | (with_reducible apply quiet_foldl <;> intros) | split))
  all_goals (try simp)
  all_goals (repeat' (first | with_reducible rfl | (with_reducible apply ite_quiet) | (with_reducible apply quiet_foldl_fst <;> intros)
                            | (with_reducible apply quiet_foldl_snd <;> intros) | (with_reducible apply quiet_foldl <;> intros) | split))
  all_goals (try simp)

@[simp] theorem State.awaitOut_quiet (s : State) (x : Nat) (p : CurPic) : (s.awaitOut x p).quiet = s.quiet := by
  unfold State.awaitOut
  try simp only []
  repeat' (first | with_reducible rfl | (with_reducible apply ite_quiet) | (with_reducible apply quiet_foldl_fst <;> intros)
                 | (with_reducible apply quiet_foldl_snd <;> intros) | (with_reducible apply quiet_foldl <;> intros) | split)
  all_goals (try simp only [apply_ite State.quiet, ite_self])
  all_goals (try simp)
  all_goals (repeat' (first | with_reducible rfl | (with_reducible apply ite_quiet) | (with_reducible apply quiet_foldl_fst <;> intros)
                            | (with_reducible apply quiet_foldl_snd <;> intros) | (with_reducible apply quiet_foldl <;> intros) | split))
  all_goals (try simp)
  all_goals (repeat' (first | with_reducible rfl | (with_reducible apply ite_quiet) | (with_reducible apply quiet_foldl_fst <;> intros)
                            | (with_reducible apply quiet_foldl_snd <;> intros) | (with_reducible apply quiet_foldl <;> intros) | split))
  all_goals (try simp)

@[simp] theorem State.storeNonRef_quiet (x : Nat) (p : CurPic) (n : Nat) (s : State) :
    (State.storeNonRef x p n s).quiet = s.quiet := by
  induction n generalizing s with
  | zero => simp [State.storeNonRef]
  | succ n ih => unfold State.storeNonRef; dsimp only; repeat' split
                 all_goals simp [ih]

@[simp] theorem State.storeOut_quiet (s : State) (x : Nat) (p : CurPic) : (s.storeOut x p).quiet = s.quiet := by
  unfold State.storeOut
  try simp only []
  repeat' (first | with_reducible rfl | (with_reducible apply ite_quiet) | (with_reducible apply quiet_foldl_fst <;> intros)
                 | (with_reducible apply quiet_foldl_snd <;> intros) | (with_reducible apply quiet_foldl <;> intros) | split)
  all_goals (try simp only [apply_ite State.quiet, ite_self])
  all_goals (try simp)
  all_goals (repeat' (first | with_reducible rfl | (with_reducible apply ite_quiet) | (with_reducible apply quiet_foldl_fst <;> intros)
                            | (with_reducible apply quiet_foldl_snd <;> intros) | (with_reducible apply quiet_foldl <;> intros) | split))
  all_goals (try simp)
  all_goals (repeat' (first | with_reducible rfl | (with_reducible apply ite_quiet) | (with_reducible apply quiet_foldl_fst <;> intros)
                            | (with_reducible apply quiet_foldl_snd <;> intros) | (with_reducible apply quiet_foldl <;> intros) | split))
  all_goals (try simp)

@[simp] theorem State.flagPic_quiet (s : State) (x flags : Nat) : (s.flagPic x flags).quiet = s.quiet := by
  unfold State.flagPic
  try simp only []
  repeat' (first | with_reducible rfl | (with_reducible apply ite_quiet) | (with_reducible apply quiet_foldl_fst <;> intros)
                 | (with_reducible apply quiet_foldl_snd <;> intros) | (with_reducible apply quiet_foldl <;> intros) | split)
  all_goals (try simp only [apply_ite State.quiet, ite_self])
  all_goals (try simp)
  all_goals (repeat' (first | with_reducible rfl | (with_reducible apply ite_quiet) | (with_reducible apply quiet_foldl_fst <;> intros)
                            | (with_reducible apply quiet_foldl_snd <;> intros) | (with_reducible apply quiet_foldl <;> intros) | split))
  all_goals (try simp)
  all_goals (repeat' (first | with_reducible rfl | (with_reducible apply ite_quiet) | (with_reducible apply quiet_foldl_fst <;> intros)
                            | (with_reducible apply quiet_foldl_snd <;> intros) | (with_reducible apply quiet_foldl <;> intros) | split))
  all_goals (try simp)

@[simp] theorem State.finishPic_quiet (s : State) (x : Nat) : (s.finishPic x).quiet = s.quiet := by
  unfold State.finishPic
  try simp only []
  repeat' (first | with_reducible rfl | (with_reducible apply ite_quiet) | (with_reducible apply quiet_foldl_fst <;> intros)
                 | (with_reducible apply quiet_foldl_snd <;> intros) | (with_reducible apply quiet_foldl <;> intros) | split)
  all_goals (try simp only [apply_ite State.quiet, ite_self])
  all_goals (try simp)
  all_goals (repeat' (first | with_reducible rfl | (with_reducible apply ite_quiet) | (with_reducible apply quiet_foldl_fst <;> intros)
                            | (with_reducible apply quiet_foldl_snd <;> intros) | (with_reducible apply quiet_foldl <;> intros) | split))
  all_goals (try simp)
  all_goals (repeat' (first | with_reducible rfl | (with_reducible apply ite_quiet) | (with_reducible apply quiet_foldl_fst <;> intros)
                            | (with_reducible apply quiet_foldl_snd <;> intros) | (with_reducible apply quiet_foldl <;> intros) | split))
  all_goals (try simp)

@[simp] theorem State.takeEarly_quiet (s : State) (x : Nat) : (s.takeEarly x).quiet = s.quiet := by
  unfold State.takeEarly
  try simp only []
  repeat' (first | with_reducible rfl | (with_reducible apply ite_quiet) | (with_reducible apply quiet_foldl_fst <;> intros)
                 | (with_reducible apply quiet_foldl_snd <;> intros) | (with_reducible apply quiet_foldl <;> intros) | split)
  all_goals (try simp only [apply_ite State.quiet, ite_self])
  all_goals (try simp)
  all_goals (repeat' (first | with_reducible rfl | (with_reducible apply ite_quiet) | (with_reducible apply quiet_foldl_fst <;> intros)
                            | (with_reducible apply quiet_foldl_snd <;> intros) | (with_reducible apply quiet_foldl <;> intros) | split))
  all_goals (try simp)
  all_goals (repeat' (first | with_reducible rfl | (with_reducible apply ite_quiet) | (with_reducible apply quiet_foldl_fst <;> intros)
                            | (with_reducible apply quiet_foldl_snd <;> intros) | (with_reducible apply quiet_foldl <;> intros) | split))
  all_goals (try simp)

@[simp] theorem State.nextSub_quiet (s : State) (x : Nat) (carry : List Nat) : (s.nextSub x carry).quiet = s.quiet := by
  unfold State.nextSub
  try simp only []
  repeat' (first | with_reducible rfl | (with_reducible apply ite_quiet) | (with_reducible apply quiet_foldl_fst <;> intros)
                 | (with_reducible apply quiet_foldl_snd <;> intros) | (with_reducible apply quiet_foldl <;> intros) | split)
  all_goals (try simp only [apply_ite State.quiet, ite_self])
  all_goals (try simp)
  all_goals (repeat' (first | with_reducible rfl | (with_reducible apply ite_quiet) | (with_reducible apply quiet_foldl_fst <;> intros)
                            | (with_reducible apply quiet_foldl_snd <;> intros) | (with_reducible apply quiet_foldl <;> intros) | split))
  all_goals (try simp)
  all_goals (repeat' (first | with_reducible rfl | (with_reducible apply ite_quiet) | (with_reducible apply quiet_foldl_fst <;> intros)
                            | (with_reducible apply quiet_foldl_snd <;> intros) | (with_reducible apply quiet_foldl <;> intros) | split))
  all_goals (try simp)

@[simp] theorem State.nextItem_quiet (s : State) (x : Nat) : (s.nextItem x).quiet = s.quiet := by
  unfold State.nextItem
  try simp only []
  repeat' (first | with_reducible rfl | (with_reducible apply ite_quiet) | (with_reducible apply quiet_foldl_fst <;> intros)
                 | (with_reducible apply quiet_foldl_snd <;> intros) | (with_reducible apply quiet_foldl <;> intros) | split)
  all_goals (try simp only [apply_ite State.quiet, ite_self])
  all_goals (try simp)
  all_goals (repeat' (first | with_reducible rfl | (with_reducible apply ite_quiet) | (with_reducible apply quiet_foldl_fst <;> intros)
                            | (with_reducible apply quiet_foldl_snd <;> intros) | (with_reducible apply quiet_foldl <;> intros) | split))
  all_goals (try simp)
  all_goals (repeat' (first | with_reducible rfl | (with_reducible apply ite_quiet) | (with_reducible apply quiet_foldl_fst <;> intros)
                            | (with_reducible apply quiet_foldl_snd <;> intros) | (with_reducible apply quiet_foldl <;> intros) | split))
  all_goals (try simp)

@[simp] theorem State.takeUnit_quiet (s : State) (x : Nat) : (s.takeUnit x).quiet = s.quiet := by
  unfold State.takeUnit
  try simp only []
  repeat' (first | with_reducible rfl | (with_reducible apply ite_quiet) | (with_reducible apply quiet_foldl_fst <;> intros)
                 | (with_reducible apply quiet_foldl_snd <;> intros) | (with_reducible apply quiet_foldl <;> intros) | split)
  all_goals (try simp only [apply_ite State.quiet, ite_self])
  all_goals (try simp)
  all_goals (repeat' (first | with_reducible rfl | (with_reducible apply ite_quiet) | (with_reducible apply quiet_foldl_fst <;> intros)
                            | (with_reducible apply quiet_foldl_snd <;> intros) | (with_reducible apply quiet_foldl <;> intros) | split))
  all_goals (try simp)
  all_goals (repeat' (first | with_reducible rfl | (with_reducible apply ite_quiet) | (with_reducible apply quiet_foldl_fst <;> intros)
                            | (with_reducible apply quiet_foldl_snd <;> intros) | (with_reducible apply quiet_foldl <;> intros) | split))
  all_goals (try simp)

@[simp] theorem State.stepBlock_quiet (s : State) (x off : Nat) (nal : List Byte) (t : Config.UnitSyn) (p : CurPic) :
    (s.stepBlock x off nal t p).quiet = s.quiet := by
  unfold State.stepBlock
  try simp only []
  repeat' (first | with_reducible rfl | (with_reducible apply ite_quiet) | (with_reducible apply quiet_foldl_fst <;> intros)
                 | (with_reducible apply quiet_foldl_snd <;> intros) | (with_reducible apply quiet_foldl <;> intros) | split)
  all_goals (try simp only [apply_ite State.quiet, ite_self])
  all_goals (try simp)
  all_goals (repeat' (first | with_reducible rfl | (with_reducible apply ite_quiet) | (with_reducible apply quiet_foldl_fst <;> intros)
                            | (with_reducible apply quiet_foldl_snd <;> intros) | (with_reducible apply quiet_foldl <;> intros) | split))
  all_goals (try simp)
  all_goals (repeat' (first | with_reducible rfl | (with_reducible apply ite_quiet) | (with_reducible apply quiet_foldl_fst <;> intros)
                            | (with_reducible apply quiet_foldl_snd <;> intros) | (with_reducible apply quiet_foldl <;> intros) | split))
  all_goals (try simp)

theorem State.substitute_quiet {s t : State} {x : Nat} {p : Config.ParamSet} {l : List Int} (h : s.substitute x p l = some t) :
    t.quiet = s.quiet := by
  unfold State.substitute at h
  dsimp only at h
  repeat' split at h
  all_goals first | (cases h; simp) | cases h

theorem State.startPic_quiet {s t : State} {x : Nat} {u : DecUnit} {n : List Byte} {y : Config.PicSyn} {p : Config.ParamSet}
    (h : s.startPic x u n y p = some t) : t.quiet = s.quiet := by
  unfold State.startPic at h
  dsimp only at h
  split at h
  · cases h
  · next e =>
    have e := State.substitute_quiet e
    split at h
    · cases h
    · cases h
      simp only [State.takeEarly_quiet, State.markBuf_quiet, State.setDcx_quiet] at e ⊢
      exact (ite_quiet (State.bumpWhile_quiet ..) rfl).trans (e.trans (ite_quiet (by simp) (by simp)))

theorem State.showSlot_quiet {s t : State} {x : Nat} {u : DecUnit} {i : Int} {y : Config.PicSyn} (h : s.showSlot x u i y = some t) :
    t.quiet = s.quiet := by
  unfold State.showSlot at h
  dsimp only at h
  split at h
  · cases h; rfl
  · split at h
    · cases h
    · next e =>
      have e := State.substitute_quiet e
      split at h <;> cases h <;> simpa using e

@[simp] theorem State.dfallow_quiet (s : State) (l : Nat) : (s.dfallow l).quiet = s.quiet := by
  unfold State.dfallow
  try simp only []
  repeat' (first | with_reducible rfl | (with_reducible apply ite_quiet) | (with_reducible apply quiet_foldl_fst <;> intros)
                 | (with_reducible apply quiet_foldl_snd <;> intros) | (with_reducible apply quiet_foldl <;> intros) | split)
  all_goals (try simp only [apply_ite State.quiet, ite_self])
  all_goals (try simp)
  all_goals (repeat' (first | with_reducible rfl | (with_reducible apply ite_quiet) | (with_reducible apply quiet_foldl_fst <;> intros)
                            | (with_reducible apply quiet_foldl_snd <;> intros) | (with_reducible apply quiet_foldl <;> intros) | split))
  all_goals (try simp)
  all_goals (repeat' (first | with_reducible rfl | (with_reducible apply ite_quiet) | (with_reducible apply quiet_foldl_fst <;> intros)
                            | (with_reducible apply quiet_foldl_snd <;> intros) | (with_reducible apply quiet_foldl <;> intros) | split))
  all_goals (try simp)

theorem State.codedStep_quiet {s t : State} {x : Nat} {u : DecUnit} {o : Nat} {n : List Byte} {y : Config.UnitSyn}
    (h : s.codedStep x u o n y = some t) : t.quiet = s.quiet := by
  unfold State.codedStep at h
  dsimp only at h
  split at h
  · cases h; simp
  · split at h
    · rw [Option.map_eq_some_iff] at h
      obtain ⟨v, e, rfl⟩ := h
      simpa using State.showSlot_quiet e
    · split at h
      · split at h
        · cases h; simp
        · split at h
          · cases h; simp
          · exact State.startPic_quiet h
      · split at h
        · cases h; simp
        · cases h
          split <;> simp

theorem State.decodeOne_quiet {s t : State} {x : Nat} (h : s.decodeOne x = some t) : t.quiet = s.quiet := by
  unfold State.decodeOne at h
  dsimp only at h
  repeat' split at h
  all_goals first | (cases h; simp) | exact State.codedStep_quiet h | cases h

@[simp] theorem State.endDecRun_quiet (s : State) (l : Nat) : (s.endDecRun l).quiet = s.quiet := by
  unfold State.endDecRun
  try simp only []
  repeat' (first | with_reducible rfl | (with_reducible apply ite_quiet) | (with_reducible apply quiet_foldl_fst <;> intros)
                 | (with_reducible apply quiet_foldl_snd <;> intros) | (with_reducible apply quiet_foldl <;> intros) | split)
  all_goals (try simp only [apply_ite State.quiet, ite_self])
  all_goals (try simp)
  all_goals (repeat' (first | with_reducible rfl | (with_reducible apply ite_quiet) | (with_reducible apply quiet_foldl_fst <;> intros)
                            | (with_reducible apply quiet_foldl_snd <;> intros) | (with_reducible apply quiet_foldl <;> intros) | split))
  all_goals (try simp)
  all_goals (repeat' (first | with_reducible rfl | (with_reducible apply ite_quiet) | (with_reducible apply quiet_foldl_fst <;> intros)
                            | (with_reducible apply quiet_foldl_snd <;> intros) | (with_reducible apply quiet_foldl <;> intros) | split))
  all_goals (try simp)

@[simp] theorem State.portWrite_quiet (s : State) (k x : Nat) (w : DecWrite) : (s.portWrite k x w).quiet = s.quiet := by
  unfold State.portWrite
  try simp only []
  repeat' (first | with_reducible rfl | (with_reducible apply ite_quiet) | (with_reducible apply quiet_foldl_fst <;> intros)
                 | (with_reducible apply quiet_foldl_snd <;> intros) | (with_reducible apply quiet_foldl <;> intros) | split)
  all_goals (try simp only [apply_ite State.quiet, ite_self])
  all_goals (try simp)
  all_goals (repeat' (first | with_reducible rfl | (with_reducible apply ite_quiet) | (with_reducible apply quiet_foldl_fst <;> intros)
                            | (with_reducible apply quiet_foldl_snd <;> intros) | (with_reducible apply quiet_foldl <;> intros) | split))
  all_goals (try simp)
  all_goals (repeat' (first | with_reducible rfl | (with_reducible apply ite_quiet) | (with_reducible apply quiet_foldl_fst <;> intros)
                            | (with_reducible apply quiet_foldl_snd <;> intros) | (with_reducible apply quiet_foldl <;> intros) | split))
  all_goals (try simp)

@[simp] theorem State.decodeAll_quiet (k x : Nat) (ws : List DecWrite) (n i : Nat) (s : State) :
    (State.decodeAll k x ws n i s).1.quiet = s.quiet := by
  induction n generalizing i s with
  | zero => rfl
  | succ n ih =>
    unfold State.decodeAll
    have hw : ((ws.filter fun w => w.after == i).foldl (fun s w => s.portWrite k x w) s).quiet = s.quiet :=
      quiet_foldl (fun s w => State.portWrite_quiet s k x w) rfl
    dsimp only
    split
    · exact hw
    · next t e => exact (ih _ t).trans ((State.decodeOne_quiet e).trans hw)

@[simp] theorem State.decodeRun_quiet (s : State) (l k x work : Nat) (ws : List DecWrite) :
    (s.decodeRun l k x work ws).quiet = s.quiet := by
  unfold State.decodeRun
  try simp only []
  repeat' (first | with_reducible rfl | (with_reducible apply ite_quiet) | (with_reducible apply quiet_foldl_fst <;> intros)
                 | (with_reducible apply quiet_foldl_snd <;> intros) | (with_reducible apply quiet_foldl <;> intros) | split)
  all_goals (try simp only [apply_ite State.quiet, ite_self])
  all_goals (try simp)
  all_goals (repeat' (first | with_reducible rfl | (with_reducible apply ite_quiet) | (with_reducible apply quiet_foldl_fst <;> intros)
                            | (with_reducible apply quiet_foldl_snd <;> intros) | (with_reducible apply quiet_foldl <;> intros) | split))
  all_goals (try simp)
  all_goals (repeat' (first | with_reducible rfl | (with_reducible apply ite_quiet) | (with_reducible apply quiet_foldl_fst <;> intros)
                            | (with_reducible apply quiet_foldl_snd <;> intros) | (with_reducible apply quiet_foldl <;> intros) | split))
  all_goals (try simp)

@[simp] theorem State.doverrun_quiet (s : State) (l : Nat) : (s.doverrun l).quiet = s.quiet := by
  unfold State.doverrun
  try simp only []
  repeat' (first | with_reducible rfl | (with_reducible apply ite_quiet) | (with_reducible apply quiet_foldl_fst <;> intros)
                 | (with_reducible apply quiet_foldl_snd <;> intros) | (with_reducible apply quiet_foldl <;> intros) | split)
  all_goals (try simp only [apply_ite State.quiet, ite_self])
  all_goals (try simp)
  all_goals (repeat' (first | with_reducible rfl | (with_reducible apply ite_quiet) | (with_reducible apply quiet_foldl_fst <;> intros)
                            | (with_reducible apply quiet_foldl_snd <;> intros) | (with_reducible apply quiet_foldl <;> intros) | split))
  all_goals (try simp)
  all_goals (repeat' (first | with_reducible rfl | (with_reducible apply ite_quiet) | (with_reducible apply quiet_foldl_fst <;> intros)
                            | (with_reducible apply quiet_foldl_snd <;> intros) | (with_reducible apply quiet_foldl <;> intros) | split))
  all_goals (try simp)

theorem execDecodeRunStart_quiet (dlane idx work : Nat) (s : State) (writes : List DecWrite) (t : State)
    (h : execDecodeRunStart dlane idx work s writes = .next t) : t.quiet = s.quiet := by
  unfold execDecodeRunStart at h
  injection h with h
  subst h
  try simp only []
  repeat' (first | with_reducible rfl | (with_reducible apply ite_quiet) | (with_reducible apply quiet_foldl_fst <;> intros)
                 | (with_reducible apply quiet_foldl_snd <;> intros) | (with_reducible apply quiet_foldl <;> intros) | split)
  all_goals (try simp only [apply_ite State.quiet, ite_self])
  all_goals (try simp)
  all_goals (repeat' (first | with_reducible rfl | (with_reducible apply ite_quiet) | (with_reducible apply quiet_foldl_fst <;> intros)
                            | (with_reducible apply quiet_foldl_snd <;> intros) | (with_reducible apply quiet_foldl <;> intros) | split))
  all_goals (try simp)
  all_goals (repeat' (first | with_reducible rfl | (with_reducible apply ite_quiet) | (with_reducible apply quiet_foldl_fst <;> intros)
                            | (with_reducible apply quiet_foldl_snd <;> intros) | (with_reducible apply quiet_foldl <;> intros) | split))
  all_goals (try simp)

theorem execDecodeRunStop_quiet (dlane : Nat) (s : State) (t : State) (h : execDecodeRunStop dlane s = .next t) : t.quiet = s.quiet := by
  unfold execDecodeRunStop at h
  injection h with h
  subst h
  try simp only []
  repeat' (first | with_reducible rfl | (with_reducible apply ite_quiet) | (with_reducible apply quiet_foldl_fst <;> intros)
                 | (with_reducible apply quiet_foldl_snd <;> intros) | (with_reducible apply quiet_foldl <;> intros) | split)
  all_goals (try simp only [apply_ite State.quiet, ite_self])
  all_goals (try simp)
  all_goals (repeat' (first | with_reducible rfl | (with_reducible apply ite_quiet) | (with_reducible apply quiet_foldl_fst <;> intros)
                            | (with_reducible apply quiet_foldl_snd <;> intros) | (with_reducible apply quiet_foldl <;> intros) | split))
  all_goals (try simp)
  all_goals (repeat' (first | with_reducible rfl | (with_reducible apply ite_quiet) | (with_reducible apply quiet_foldl_fst <;> intros)
                            | (with_reducible apply quiet_foldl_snd <;> intros) | (with_reducible apply quiet_foldl <;> intros) | split))
  all_goals (try simp)

theorem execDecWatchdog_quiet (dlane : Nat) (s : State) (t : State) (h : execDecWatchdog dlane s = .next t) : t.quiet = s.quiet := by
  unfold execDecWatchdog at h
  injection h with h
  subst h
  try simp only []
  repeat' (first | with_reducible rfl | (with_reducible apply ite_quiet) | (with_reducible apply quiet_foldl_fst <;> intros)
                 | (with_reducible apply quiet_foldl_snd <;> intros) | (with_reducible apply quiet_foldl <;> intros) | split)
  all_goals (try simp only [apply_ite State.quiet, ite_self])
  all_goals (try simp)
  all_goals (repeat' (first | with_reducible rfl | (with_reducible apply ite_quiet) | (with_reducible apply quiet_foldl_fst <;> intros)
                            | (with_reducible apply quiet_foldl_snd <;> intros) | (with_reducible apply quiet_foldl <;> intros) | split))
  all_goals (try simp)
  all_goals (repeat' (first | with_reducible rfl | (with_reducible apply ite_quiet) | (with_reducible apply quiet_foldl_fst <;> intros)
                            | (with_reducible apply quiet_foldl_snd <;> intros) | (with_reducible apply quiet_foldl <;> intros) | split))
  all_goals (try simp)

@[simp] theorem State.decGleanEnd_quiet (s : State) (k gcase : Nat) (sig : BitVec 64) (ok : Bool) :
    (s.decGleanEnd k gcase sig ok).quiet = s.quiet := by
  unfold State.decGleanEnd
  try simp only []
  repeat' (first | with_reducible rfl | (with_reducible apply ite_quiet) | (with_reducible apply quiet_foldl_fst <;> intros)
                 | (with_reducible apply quiet_foldl_snd <;> intros) | (with_reducible apply quiet_foldl <;> intros) | split)
  all_goals (try simp only [apply_ite State.quiet, ite_self])
  all_goals (try simp)
  all_goals (repeat' (first | with_reducible rfl | (with_reducible apply ite_quiet) | (with_reducible apply quiet_foldl_fst <;> intros)
                            | (with_reducible apply quiet_foldl_snd <;> intros) | (with_reducible apply quiet_foldl <;> intros) | split))
  all_goals (try simp)
  all_goals (repeat' (first | with_reducible rfl | (with_reducible apply ite_quiet) | (with_reducible apply quiet_foldl_fst <;> intros)
                            | (with_reducible apply quiet_foldl_snd <;> intros) | (with_reducible apply quiet_foldl <;> intros) | split))
  all_goals (try simp)

@[simp] theorem State.nextDecGlean_quiet (s : State) (k : Nat) : (s.nextDecGlean k).2.quiet = s.quiet := by
  unfold State.nextDecGlean
  try simp only []
  repeat' (first | with_reducible rfl | (with_reducible apply ite_quiet) | (with_reducible apply quiet_foldl_fst <;> intros)
                 | (with_reducible apply quiet_foldl_snd <;> intros) | (with_reducible apply quiet_foldl <;> intros) | split)
  all_goals (try simp only [apply_ite State.quiet, ite_self])
  all_goals (try simp)
  all_goals (repeat' (first | with_reducible rfl | (with_reducible apply ite_quiet) | (with_reducible apply quiet_foldl_fst <;> intros)
                            | (with_reducible apply quiet_foldl_snd <;> intros) | (with_reducible apply quiet_foldl <;> intros) | split))
  all_goals (try simp)
  all_goals (repeat' (first | with_reducible rfl | (with_reducible apply ite_quiet) | (with_reducible apply quiet_foldl_fst <;> intros)
                            | (with_reducible apply quiet_foldl_snd <;> intros) | (with_reducible apply quiet_foldl <;> intros) | split))
  all_goals (try simp)

theorem execDecodeGleanRun_quiet (dlane idx : Nat) (err : BitVec 64) (failed : Bool) (s : State) (t : State)
    (h : execDecodeGleanRun dlane idx err failed s = .next t) : t.quiet = s.quiet := by
  unfold execDecodeGleanRun at h
  injection h with h
  subst h
  try simp only []
  repeat' (first | with_reducible rfl | (with_reducible apply ite_quiet) | (with_reducible apply quiet_foldl_fst <;> intros)
                 | (with_reducible apply quiet_foldl_snd <;> intros) | (with_reducible apply quiet_foldl <;> intros) | split)
  all_goals (try simp only [apply_ite State.quiet, ite_self])
  all_goals (try simp)
  all_goals (repeat' (first | with_reducible rfl | (with_reducible apply ite_quiet) | (with_reducible apply quiet_foldl_fst <;> intros)
                            | (with_reducible apply quiet_foldl_snd <;> intros) | (with_reducible apply quiet_foldl <;> intros) | split))
  all_goals (try simp)
  all_goals (repeat' (first | with_reducible rfl | (with_reducible apply ite_quiet) | (with_reducible apply quiet_foldl_fst <;> intros)
                            | (with_reducible apply quiet_foldl_snd <;> intros) | (with_reducible apply quiet_foldl <;> intros) | split))
  all_goals (try simp)

theorem execDecRelease_quiet (dcx buf : Nat) (s : State) (t : State) (h : execDecRelease dcx buf s = .next t) : t.quiet = s.quiet := by
  unfold execDecRelease at h
  injection h with h
  subst h
  try simp only []
  repeat' (first | with_reducible rfl | (with_reducible apply ite_quiet) | (with_reducible apply quiet_foldl_fst <;> intros)
                 | (with_reducible apply quiet_foldl_snd <;> intros) | (with_reducible apply quiet_foldl <;> intros) | split)
  all_goals (try simp only [apply_ite State.quiet, ite_self])
  all_goals (try simp)
  all_goals (repeat' (first | with_reducible rfl | (with_reducible apply ite_quiet) | (with_reducible apply quiet_foldl_fst <;> intros)
                            | (with_reducible apply quiet_foldl_snd <;> intros) | (with_reducible apply quiet_foldl <;> intros) | split))
  all_goals (try simp)
  all_goals (repeat' (first | with_reducible rfl | (with_reducible apply ite_quiet) | (with_reducible apply quiet_foldl_fst <;> intros)
                            | (with_reducible apply quiet_foldl_snd <;> intros) | (with_reducible apply quiet_foldl <;> intros) | split))
  all_goals (try simp)

@[simp] theorem State.unlinkBody_quiet (s : State) (h : Nat) : (s.unlinkBody h).quiet = s.quiet := by
  unfold State.unlinkBody
  try simp only []
  repeat' (first | with_reducible rfl | (with_reducible apply ite_quiet) | (with_reducible apply quiet_foldl_fst <;> intros)
                 | (with_reducible apply quiet_foldl_snd <;> intros) | (with_reducible apply quiet_foldl <;> intros) | split)
  all_goals (try simp only [apply_ite State.quiet, ite_self])
  all_goals (try simp)
  all_goals (repeat' (first | with_reducible rfl | (with_reducible apply ite_quiet) | (with_reducible apply quiet_foldl_fst <;> intros)
                            | (with_reducible apply quiet_foldl_snd <;> intros) | (with_reducible apply quiet_foldl <;> intros) | split))
  all_goals (try simp)
  all_goals (repeat' (first | with_reducible rfl | (with_reducible apply ite_quiet) | (with_reducible apply quiet_foldl_fst <;> intros)
                            | (with_reducible apply quiet_foldl_snd <;> intros) | (with_reducible apply quiet_foldl <;> intros) | split))
  all_goals (try simp)

theorem execBodyFree_quiet (ptr : Nat) (s : State) (t : State) (h : execBodyFree ptr s = .next t) : t.quiet = s.quiet := by
  unfold execBodyFree at h
  injection h with h
  subst h
  try simp only []
  repeat' (first | with_reducible rfl | (with_reducible apply ite_quiet) | (with_reducible apply quiet_foldl_fst <;> intros)
                 | (with_reducible apply quiet_foldl_snd <;> intros) | (with_reducible apply quiet_foldl <;> intros) | split)
  all_goals (try simp only [apply_ite State.quiet, ite_self])
  all_goals (try simp)
  all_goals (repeat' (first | with_reducible rfl | (with_reducible apply ite_quiet) | (with_reducible apply quiet_foldl_fst <;> intros)
                            | (with_reducible apply quiet_foldl_snd <;> intros) | (with_reducible apply quiet_foldl <;> intros) | split))
  all_goals (try simp)
  all_goals (repeat' (first | with_reducible rfl | (with_reducible apply ite_quiet) | (with_reducible apply quiet_foldl_fst <;> intros)
                            | (with_reducible apply quiet_foldl_snd <;> intros) | (with_reducible apply quiet_foldl <;> intros) | split))
  all_goals (try simp)

@[simp] theorem State.bodyErr_quiet (s : State) (h : Nat) : (s.bodyErr h).quiet = s.quiet := by
  unfold State.bodyErr
  try simp only []
  repeat' (first | with_reducible rfl | (with_reducible apply ite_quiet) | (with_reducible apply quiet_foldl_fst <;> intros)
                 | (with_reducible apply quiet_foldl_snd <;> intros) | (with_reducible apply quiet_foldl <;> intros) | split)
  all_goals (try simp only [apply_ite State.quiet, ite_self])
  all_goals (try simp)
  all_goals (repeat' (first | with_reducible rfl | (with_reducible apply ite_quiet) | (with_reducible apply quiet_foldl_fst <;> intros)
                            | (with_reducible apply quiet_foldl_snd <;> intros) | (with_reducible apply quiet_foldl <;> intros) | split))
  all_goals (try simp)
  all_goals (repeat' (first | with_reducible rfl | (with_reducible apply ite_quiet) | (with_reducible apply quiet_foldl_fst <;> intros)
                            | (with_reducible apply quiet_foldl_snd <;> intros) | (with_reducible apply quiet_foldl <;> intros) | split))
  all_goals (try simp)

@[simp] theorem State.cacheUse_quiet (s : State) (pid len : Nat) : (s.cacheUse pid len).quiet = s.quiet := by
  unfold State.cacheUse
  try simp only []
  repeat' (first | with_reducible rfl | (with_reducible apply ite_quiet) | (with_reducible apply quiet_foldl_fst <;> intros)
                 | (with_reducible apply quiet_foldl_snd <;> intros) | (with_reducible apply quiet_foldl <;> intros) | split)
  all_goals (try simp only [apply_ite State.quiet, ite_self])
  all_goals (try simp)
  all_goals (repeat' (first | with_reducible rfl | (with_reducible apply ite_quiet) | (with_reducible apply quiet_foldl_fst <;> intros)
                            | (with_reducible apply quiet_foldl_snd <;> intros) | (with_reducible apply quiet_foldl <;> intros) | split))
  all_goals (try simp)
  all_goals (repeat' (first | with_reducible rfl | (with_reducible apply ite_quiet) | (with_reducible apply quiet_foldl_fst <;> intros)
                            | (with_reducible apply quiet_foldl_snd <;> intros) | (with_reducible apply quiet_foldl <;> intros) | split))
  all_goals (try simp)

@[simp] theorem State.pushCopy_quiet (s : State) (c : Copy) : (s.pushCopy c).quiet = s.quiet := by
  unfold State.pushCopy
  try simp only []
  repeat' (first | with_reducible rfl | (with_reducible apply ite_quiet) | (with_reducible apply quiet_foldl_fst <;> intros)
                 | (with_reducible apply quiet_foldl_snd <;> intros) | (with_reducible apply quiet_foldl <;> intros) | split)
  all_goals (try simp only [apply_ite State.quiet, ite_self])
  all_goals (try simp)
  all_goals (repeat' (first | with_reducible rfl | (with_reducible apply ite_quiet) | (with_reducible apply quiet_foldl_fst <;> intros)
                            | (with_reducible apply quiet_foldl_snd <;> intros) | (with_reducible apply quiet_foldl <;> intros) | split))
  all_goals (try simp)
  all_goals (repeat' (first | with_reducible rfl | (with_reducible apply ite_quiet) | (with_reducible apply quiet_foldl_fst <;> intros)
                            | (with_reducible apply quiet_foldl_snd <;> intros) | (with_reducible apply quiet_foldl <;> intros) | split))
  all_goals (try simp)

@[simp] theorem State.pushRetx_quiet (s : State) (c : Copy) : (s.pushRetx c).quiet = s.quiet := by
  unfold State.pushRetx
  try simp only []
  repeat' (first | with_reducible rfl | (with_reducible apply ite_quiet) | (with_reducible apply quiet_foldl_fst <;> intros)
                 | (with_reducible apply quiet_foldl_snd <;> intros) | (with_reducible apply quiet_foldl <;> intros) | split)
  all_goals (try simp only [apply_ite State.quiet, ite_self])
  all_goals (try simp)
  all_goals (repeat' (first | with_reducible rfl | (with_reducible apply ite_quiet) | (with_reducible apply quiet_foldl_fst <;> intros)
                            | (with_reducible apply quiet_foldl_snd <;> intros) | (with_reducible apply quiet_foldl <;> intros) | split))
  all_goals (try simp)
  all_goals (repeat' (first | with_reducible rfl | (with_reducible apply ite_quiet) | (with_reducible apply quiet_foldl_fst <;> intros)
                            | (with_reducible apply quiet_foldl_snd <;> intros) | (with_reducible apply quiet_foldl <;> intros) | split))
  all_goals (try simp)

@[simp] theorem State.emitCopy_quiet (s : State) (f h : Nat) (b : Body) (mp : MPkt) : (s.emitCopy f h b mp).quiet = s.quiet := by
  unfold State.emitCopy
  try simp only []
  repeat' (first | with_reducible rfl | (with_reducible apply ite_quiet) | (with_reducible apply quiet_foldl_fst <;> intros)
                 | (with_reducible apply quiet_foldl_snd <;> intros) | (with_reducible apply quiet_foldl <;> intros) | split)
  all_goals (try simp only [apply_ite State.quiet, ite_self])
  all_goals (try simp)
  all_goals (repeat' (first | with_reducible rfl | (with_reducible apply ite_quiet) | (with_reducible apply quiet_foldl_fst <;> intros)
                            | (with_reducible apply quiet_foldl_snd <;> intros) | (with_reducible apply quiet_foldl <;> intros) | split))
  all_goals (try simp)
  all_goals (repeat' (first | with_reducible rfl | (with_reducible apply ite_quiet) | (with_reducible apply quiet_foldl_fst <;> intros)
                            | (with_reducible apply quiet_foldl_snd <;> intros) | (with_reducible apply quiet_foldl <;> intros) | split))
  all_goals (try simp)

@[simp] theorem State.passBody_quiet (s : State) (mp : MPkt) (f h : Nat) : (s.passBody mp f h).quiet = s.quiet := by
  unfold State.passBody
  try simp only []
  repeat' (first | with_reducible rfl | (with_reducible apply ite_quiet) | (with_reducible apply quiet_foldl_fst <;> intros)
                 | (with_reducible apply quiet_foldl_snd <;> intros) | (with_reducible apply quiet_foldl <;> intros) | split)
  all_goals (try simp only [apply_ite State.quiet, ite_self])
  all_goals (try simp)
  all_goals (repeat' (first | with_reducible rfl | (with_reducible apply ite_quiet) | (with_reducible apply quiet_foldl_fst <;> intros)
                            | (with_reducible apply quiet_foldl_snd <;> intros) | (with_reducible apply quiet_foldl <;> intros) | split))
  all_goals (try simp)
  all_goals (repeat' (first | with_reducible rfl | (with_reducible apply ite_quiet) | (with_reducible apply quiet_foldl_fst <;> intros)
                            | (with_reducible apply quiet_foldl_snd <;> intros) | (with_reducible apply quiet_foldl <;> intros) | split))
  all_goals (try simp)

@[simp] theorem State.endPass1_quiet (s : State) (f : Nat) : (s.endPass1 f).quiet = s.quiet := by
  unfold State.endPass1
  try simp only []
  repeat' (first | with_reducible rfl | (with_reducible apply ite_quiet) | (with_reducible apply quiet_foldl_fst <;> intros)
                 | (with_reducible apply quiet_foldl_snd <;> intros) | (with_reducible apply quiet_foldl <;> intros) | split)
  all_goals (try simp only [apply_ite State.quiet, ite_self])
  all_goals (try simp)
  all_goals (repeat' (first | with_reducible rfl | (with_reducible apply ite_quiet) | (with_reducible apply quiet_foldl_fst <;> intros)
                            | (with_reducible apply quiet_foldl_snd <;> intros) | (with_reducible apply quiet_foldl <;> intros) | split))
  all_goals (try simp)
  all_goals (repeat' (first | with_reducible rfl | (with_reducible apply ite_quiet) | (with_reducible apply quiet_foldl_fst <;> intros)
                            | (with_reducible apply quiet_foldl_snd <;> intros) | (with_reducible apply quiet_foldl <;> intros) | split))
  all_goals (try simp)

@[simp] theorem State.passChain_quiet (mp : MPkt) (f : Nat) (seen l : List Nat) (s : State) :
    (State.passChain mp f seen l s).quiet = s.quiet := by
  induction l generalizing seen s with
  | nil => simp [State.passChain]
  | cons a l ih => unfold State.passChain; repeat' split
                   all_goals simp [ih]

theorem execPass1_quiet (ch : Nat) (s : State) (t : State) (h : execPass1 ch s = .next t) : t.quiet = s.quiet := by
  unfold execPass1 at h
  injection h with h
  subst h
  try simp only []
  repeat' (first | with_reducible rfl | (with_reducible apply ite_quiet) | (with_reducible apply quiet_foldl_fst <;> intros)
                 | (with_reducible apply quiet_foldl_snd <;> intros) | (with_reducible apply quiet_foldl <;> intros) | split)
  all_goals (try simp only [apply_ite State.quiet, ite_self])
  all_goals (try simp)
  all_goals (repeat' (first | with_reducible rfl | (with_reducible apply ite_quiet) | (with_reducible apply quiet_foldl_fst <;> intros)
                            | (with_reducible apply quiet_foldl_snd <;> intros) | (with_reducible apply quiet_foldl <;> intros) | split))
  all_goals (try simp)
  all_goals (repeat' (first | with_reducible rfl | (with_reducible apply ite_quiet) | (with_reducible apply quiet_foldl_fst <;> intros)
                            | (with_reducible apply quiet_foldl_snd <;> intros) | (with_reducible apply quiet_foldl <;> intros) | split))
  all_goals (try simp)

theorem execPass1Resume_quiet (s : State) (t : State) (h : execPass1Resume s = .next t) : t.quiet = s.quiet := by
  unfold execPass1Resume at h
  injection h with h
  subst h
  try simp only []
  repeat' (first | with_reducible rfl | (with_reducible apply ite_quiet) | (with_reducible apply quiet_foldl_fst <;> intros)
                 | (with_reducible apply quiet_foldl_snd <;> intros) | (with_reducible apply quiet_foldl <;> intros) | split)
  all_goals (try simp only [apply_ite State.quiet, ite_self])
  all_goals (try simp)
  all_goals (repeat' (first | with_reducible rfl | (with_reducible apply ite_quiet) | (with_reducible apply quiet_foldl_fst <;> intros)
                            | (with_reducible apply quiet_foldl_snd <;> intros) | (with_reducible apply quiet_foldl <;> intros) | split))
  all_goals (try simp)
  all_goals (repeat' (first | with_reducible rfl | (with_reducible apply ite_quiet) | (with_reducible apply quiet_foldl_fst <;> intros)
                            | (with_reducible apply quiet_foldl_snd <;> intros) | (with_reducible apply quiet_foldl <;> intros) | split))
  all_goals (try simp)

@[simp] theorem State.setQueue_quiet (s : State) (p q : Nat) (l : List Copy) : (s.setQueue p q l).quiet = s.quiet := by
  unfold State.setQueue
  try simp only []
  repeat' (first | with_reducible rfl | (with_reducible apply ite_quiet) | (with_reducible apply quiet_foldl_fst <;> intros)
                 | (with_reducible apply quiet_foldl_snd <;> intros) | (with_reducible apply quiet_foldl <;> intros) | split)
  all_goals (try simp only [apply_ite State.quiet, ite_self])
  all_goals (try simp)
  all_goals (repeat' (first | with_reducible rfl | (with_reducible apply ite_quiet) | (with_reducible apply quiet_foldl_fst <;> intros)
                            | (with_reducible apply quiet_foldl_snd <;> intros) | (with_reducible apply quiet_foldl <;> intros) | split))
  all_goals (try simp)
  all_goals (repeat' (first | with_reducible rfl | (with_reducible apply ite_quiet) | (with_reducible apply quiet_foldl_fst <;> intros)
                            | (with_reducible apply quiet_foldl_snd <;> intros) | (with_reducible apply quiet_foldl <;> intros) | split))
  all_goals (try simp)

@[simp] theorem State.storeFull_quiet (s : State) (p : Nat) : (s.storeFull p).quiet = s.quiet := by
  unfold State.storeFull
  try simp only []
  repeat' (first | with_reducible rfl | (with_reducible apply ite_quiet) | (with_reducible apply quiet_foldl_fst <;> intros)
                 | (with_reducible apply quiet_foldl_snd <;> intros) | (with_reducible apply quiet_foldl <;> intros) | split)
  all_goals (try simp only [apply_ite State.quiet, ite_self])
  all_goals (try simp)
  all_goals (repeat' (first | with_reducible rfl | (with_reducible apply ite_quiet) | (with_reducible apply quiet_foldl_fst <;> intros)
                            | (with_reducible apply quiet_foldl_snd <;> intros) | (with_reducible apply quiet_foldl <;> intros) | split))
  all_goals (try simp)
  all_goals (repeat' (first | with_reducible rfl | (with_reducible apply ite_quiet) | (with_reducible apply quiet_foldl_fst <;> intros)
                            | (with_reducible apply quiet_foldl_snd <;> intros) | (with_reducible apply quiet_foldl <;> intros) | split))
  all_goals (try simp)

@[simp] theorem State.storeCopy_quiet (s : State) (c : Copy) : (s.storeCopy c).quiet = s.quiet := by
  unfold State.storeCopy
  try simp only []
  repeat' (first | with_reducible rfl | (with_reducible apply ite_quiet) | (with_reducible apply quiet_foldl_fst <;> intros)
                 | (with_reducible apply quiet_foldl_snd <;> intros) | (with_reducible apply quiet_foldl <;> intros) | split)
  all_goals (try simp only [apply_ite State.quiet, ite_self])
  all_goals (try simp)
  all_goals (repeat' (first | with_reducible rfl | (with_reducible apply ite_quiet) | (with_reducible apply quiet_foldl_fst <;> intros)
                            | (with_reducible apply quiet_foldl_snd <;> intros) | (with_reducible apply quiet_foldl <;> intros) | split))
  all_goals (try simp)
  all_goals (repeat' (first | with_reducible rfl | (with_reducible apply ite_quiet) | (with_reducible apply quiet_foldl_fst <;> intros)
                            | (with_reducible apply quiet_foldl_snd <;> intros) | (with_reducible apply quiet_foldl <;> intros) | split))
  all_goals (try simp)

@[simp] theorem State.retxJoin_quiet (s : State) : (s.retxJoin).quiet = s.quiet := by
  unfold State.retxJoin
  try simp only []
  repeat' (first | with_reducible rfl | (with_reducible apply ite_quiet) | (with_reducible apply quiet_foldl_fst <;> intros)
                 | (with_reducible apply quiet_foldl_snd <;> intros) | (with_reducible apply quiet_foldl <;> intros) | split)
  all_goals (try simp only [apply_ite State.quiet, ite_self])
  all_goals (try simp)
  all_goals (repeat' (first | with_reducible rfl | (with_reducible apply ite_quiet) | (with_reducible apply quiet_foldl_fst <;> intros)
                            | (with_reducible apply quiet_foldl_snd <;> intros) | (with_reducible apply quiet_foldl <;> intros) | split))
  all_goals (try simp)
  all_goals (repeat' (first | with_reducible rfl | (with_reducible apply ite_quiet) | (with_reducible apply quiet_foldl_fst <;> intros)
                            | (with_reducible apply quiet_foldl_snd <;> intros) | (with_reducible apply quiet_foldl <;> intros) | split))
  all_goals (try simp)

@[simp] theorem State.pass2Err_quiet (s : State) (c : Copy) : (s.pass2Err c).quiet = s.quiet := by
  unfold State.pass2Err
  try simp only []
  repeat' (first | with_reducible rfl | (with_reducible apply ite_quiet) | (with_reducible apply quiet_foldl_fst <;> intros)
                 | (with_reducible apply quiet_foldl_snd <;> intros) | (with_reducible apply quiet_foldl <;> intros) | split)
  all_goals (try simp only [apply_ite State.quiet, ite_self])
  all_goals (try simp)
  all_goals (repeat' (first | with_reducible rfl | (with_reducible apply ite_quiet) | (with_reducible apply quiet_foldl_fst <;> intros)
                            | (with_reducible apply quiet_foldl_snd <;> intros) | (with_reducible apply quiet_foldl <;> intros) | split))
  all_goals (try simp)
  all_goals (repeat' (first | with_reducible rfl | (with_reducible apply ite_quiet) | (with_reducible apply quiet_foldl_fst <;> intros)
                            | (with_reducible apply quiet_foldl_snd <;> intros) | (with_reducible apply quiet_foldl <;> intros) | split))
  all_goals (try simp)

theorem execBuildStage_quiet (agree : Bool) (s : State) (t : State) (h : execBuildStage agree s = .next t) : t.quiet = s.quiet := by
  unfold execBuildStage at h
  injection h with h
  subst h
  try simp only []
  repeat' (first | with_reducible rfl | (with_reducible apply ite_quiet) | (with_reducible apply quiet_foldl_fst <;> intros)
                 | (with_reducible apply quiet_foldl_snd <;> intros) | (with_reducible apply quiet_foldl <;> intros) | split)
  all_goals (try simp only [apply_ite State.quiet, ite_self])
  all_goals (try simp)
  all_goals (repeat' (first | with_reducible rfl | (with_reducible apply ite_quiet) | (with_reducible apply quiet_foldl_fst <;> intros)
                            | (with_reducible apply quiet_foldl_snd <;> intros) | (with_reducible apply quiet_foldl <;> intros) | split))
  all_goals (try simp)
  all_goals (repeat' (first | with_reducible rfl | (with_reducible apply ite_quiet) | (with_reducible apply quiet_foldl_fst <;> intros)
                            | (with_reducible apply quiet_foldl_snd <;> intros) | (with_reducible apply quiet_foldl <;> intros) | split))
  all_goals (try simp)

@[simp] theorem State.nack_quiet (s : State) (h d : Nat) : (s.nack h d).quiet = s.quiet := by
  unfold State.nack
  simp only []
  split
  · simp
  · split
    · simp
    · split
      · simp
      · simp only [State.pushRetx_quiet, State.beginFlight_quiet, State.setBody_quiet]

@[simp] theorem State.joinQueue_quiet (s : State) (c : Copy) : (s.joinQueue c).quiet = s.quiet := by
  unfold State.joinQueue
  try simp only []
  repeat' (first | with_reducible rfl | (with_reducible apply ite_quiet) | (with_reducible apply quiet_foldl_fst <;> intros)
                 | (with_reducible apply quiet_foldl_snd <;> intros) | (with_reducible apply quiet_foldl <;> intros) | split)
  all_goals (try simp only [apply_ite State.quiet, ite_self])
  all_goals (try simp)
  all_goals (repeat' (first | with_reducible rfl | (with_reducible apply ite_quiet) | (with_reducible apply quiet_foldl_fst <;> intros)
                            | (with_reducible apply quiet_foldl_snd <;> intros) | (with_reducible apply quiet_foldl <;> intros) | split))
  all_goals (try simp)
  all_goals (repeat' (first | with_reducible rfl | (with_reducible apply ite_quiet) | (with_reducible apply quiet_foldl_fst <;> intros)
                            | (with_reducible apply quiet_foldl_snd <;> intros) | (with_reducible apply quiet_foldl <;> intros) | split))
  all_goals (try simp)

@[simp] theorem State.sendTmmbn_quiet (s : State) (h : Nat) : (s.sendTmmbn h).quiet = s.quiet := by
  unfold State.sendTmmbn
  try simp only []
  repeat' (first | with_reducible rfl | (with_reducible apply ite_quiet) | (with_reducible apply quiet_foldl_fst <;> intros)
                 | (with_reducible apply quiet_foldl_snd <;> intros) | (with_reducible apply quiet_foldl <;> intros) | split)
  all_goals (try simp only [apply_ite State.quiet, ite_self])
  all_goals (try simp)
  all_goals (repeat' (first | with_reducible rfl | (with_reducible apply ite_quiet) | (with_reducible apply quiet_foldl_fst <;> intros)
                            | (with_reducible apply quiet_foldl_snd <;> intros) | (with_reducible apply quiet_foldl <;> intros) | split))
  all_goals (try simp)
  all_goals (repeat' (first | with_reducible rfl | (with_reducible apply ite_quiet) | (with_reducible apply quiet_foldl_fst <;> intros)
                            | (with_reducible apply quiet_foldl_snd <;> intros) | (with_reducible apply quiet_foldl <;> intros) | split))
  all_goals (try simp)

@[simp] theorem State.rtcpMsg_quiet (s : State) (h : Nat) (m : RtcpMsg) : (s.rtcpMsg h m).quiet = s.quiet := by
  unfold State.rtcpMsg
  try simp only []
  repeat' (first | with_reducible rfl | (with_reducible apply ite_quiet) | (with_reducible apply quiet_foldl_fst <;> intros)
                 | (with_reducible apply quiet_foldl_snd <;> intros) | (with_reducible apply quiet_foldl <;> intros) | split)
  all_goals (try simp only [apply_ite State.quiet, ite_self])
  all_goals (try simp)
  all_goals (repeat' (first | with_reducible rfl | (with_reducible apply ite_quiet) | (with_reducible apply quiet_foldl_fst <;> intros)
                            | (with_reducible apply quiet_foldl_snd <;> intros) | (with_reducible apply quiet_foldl <;> intros) | split))
  all_goals (try simp)
  all_goals (repeat' (first | with_reducible rfl | (with_reducible apply ite_quiet) | (with_reducible apply quiet_foldl_fst <;> intros)
                            | (with_reducible apply quiet_foldl_snd <;> intros) | (with_reducible apply quiet_foldl <;> intros) | split))
  all_goals (try simp)

theorem execRtcpPacket_quiet (authOk : Bool) (msgs : List RtcpMsg) (s : State) (t : State)
    (h : execRtcpPacket authOk msgs s = .next t) : t.quiet = s.quiet := by
  unfold execRtcpPacket at h
  injection h with h
  subst h
  try simp only []
  repeat' (first | with_reducible rfl | (with_reducible apply ite_quiet) | (with_reducible apply quiet_foldl_fst <;> intros)
                 | (with_reducible apply quiet_foldl_snd <;> intros) | (with_reducible apply quiet_foldl <;> intros) | split)
  all_goals (try simp only [apply_ite State.quiet, ite_self])
  all_goals (try simp)
  all_goals (repeat' (first | with_reducible rfl | (with_reducible apply ite_quiet) | (with_reducible apply quiet_foldl_fst <;> intros)
                            | (with_reducible apply quiet_foldl_snd <;> intros) | (with_reducible apply quiet_foldl <;> intros) | split))
  all_goals (try simp)
  all_goals (repeat' (first | with_reducible rfl | (with_reducible apply ite_quiet) | (with_reducible apply quiet_foldl_fst <;> intros)
                            | (with_reducible apply quiet_foldl_snd <;> intros) | (with_reducible apply quiet_foldl <;> intros) | split))
  all_goals (try simp)

theorem execCalendarBucket_quiet (port : Nat) (s : State) (t : State) (h : execCalendarBucket port s = .next t) : t.quiet = s.quiet := by
  unfold execCalendarBucket at h
  injection h with h
  subst h
  try simp only []
  repeat' (first | with_reducible rfl | (with_reducible apply ite_quiet) | (with_reducible apply quiet_foldl_fst <;> intros)
                 | (with_reducible apply quiet_foldl_snd <;> intros) | (with_reducible apply quiet_foldl <;> intros) | split)
  all_goals (try simp only [apply_ite State.quiet, ite_self])
  all_goals (try simp)
  all_goals (repeat' (first | with_reducible rfl | (with_reducible apply ite_quiet) | (with_reducible apply quiet_foldl_fst <;> intros)
                            | (with_reducible apply quiet_foldl_snd <;> intros) | (with_reducible apply quiet_foldl <;> intros) | split))
  all_goals (try simp)
  all_goals (repeat' (first | with_reducible rfl | (with_reducible apply ite_quiet) | (with_reducible apply quiet_foldl_fst <;> intros)
                            | (with_reducible apply quiet_foldl_snd <;> intros) | (with_reducible apply quiet_foldl <;> intros) | split))
  all_goals (try simp)

theorem execGateEntry_quiet (port entry : Nat) (s : State) (t : State) (h : execGateEntry port entry s = .next t) : t.quiet = s.quiet := by
  unfold execGateEntry at h
  injection h with h
  subst h
  try simp only []
  repeat' (first | with_reducible rfl | (with_reducible apply ite_quiet) | (with_reducible apply quiet_foldl_fst <;> intros)
                 | (with_reducible apply quiet_foldl_snd <;> intros) | (with_reducible apply quiet_foldl <;> intros) | split)
  all_goals (try simp only [apply_ite State.quiet, ite_self])
  all_goals (try simp)
  all_goals (repeat' (first | with_reducible rfl | (with_reducible apply ite_quiet) | (with_reducible apply quiet_foldl_fst <;> intros)
                            | (with_reducible apply quiet_foldl_snd <;> intros) | (with_reducible apply quiet_foldl <;> intros) | split))
  all_goals (try simp)
  all_goals (repeat' (first | with_reducible rfl | (with_reducible apply ite_quiet) | (with_reducible apply quiet_foldl_fst <;> intros)
                            | (with_reducible apply quiet_foldl_snd <;> intros) | (with_reducible apply quiet_foldl <;> intros) | split))
  all_goals (try simp)

@[simp] theorem State.dropOversize_quiet (s : State) (p q n : Nat) (l : List Copy) : (s.dropOversize p q n l).quiet = s.quiet := by
  induction l generalizing s with
  | nil => simp [State.dropOversize]
  | cons c l ih => unfold State.dropOversize; split <;> simp [ih]

@[simp] theorem State.judgeQueue_quiet (s : State) (p q : Nat) : (s.judgeQueue p q).2.quiet = s.quiet := by
  unfold State.judgeQueue
  simp only []
  split
  · rfl
  · refine Eq.trans ?_ (State.dropOversize_quiet s p q ((s.gateImg p).longest (s.queueCfg p q).cls) (s.queue p q))
    split
    · rfl
    · split
      · rfl
      · split
        · rfl
        · simp only [State.egrCount_quiet, quiet_mk, quiet_eta]

@[simp] theorem State.judgeAll_quiet (s : State) (same : Bool) (p : Nat) : (s.judgeAll same p).2.quiet = s.quiet := by
  unfold State.judgeAll
  try simp only []
  repeat' (first | with_reducible rfl | (with_reducible apply ite_quiet) | (with_reducible apply quiet_foldl_fst <;> intros)
                 | (with_reducible apply quiet_foldl_snd <;> intros) | (with_reducible apply quiet_foldl <;> intros) | split)
  all_goals (try simp only [apply_ite State.quiet, ite_self])
  all_goals (try simp)
  all_goals (repeat' (first | with_reducible rfl | (with_reducible apply ite_quiet) | (with_reducible apply quiet_foldl_fst <;> intros)
                            | (with_reducible apply quiet_foldl_snd <;> intros) | (with_reducible apply quiet_foldl <;> intros) | split))
  all_goals (try simp)
  all_goals (repeat' (first | with_reducible rfl | (with_reducible apply ite_quiet) | (with_reducible apply quiet_foldl_fst <;> intros)
                            | (with_reducible apply quiet_foldl_snd <;> intros) | (with_reducible apply quiet_foldl <;> intros) | split))
  all_goals (try simp)

@[simp] theorem State.selectHead_quiet (s : State) (p q : Nat) : (s.selectHead p q).quiet = s.quiet := by
  unfold State.selectHead
  try simp only []
  repeat' (first | with_reducible rfl | (with_reducible apply ite_quiet) | (with_reducible apply quiet_foldl_fst <;> intros)
                 | (with_reducible apply quiet_foldl_snd <;> intros) | (with_reducible apply quiet_foldl <;> intros) | split)
  all_goals (try simp only [apply_ite State.quiet, ite_self])
  all_goals (try simp)
  all_goals (repeat' (first | with_reducible rfl | (with_reducible apply ite_quiet) | (with_reducible apply quiet_foldl_fst <;> intros)
                            | (with_reducible apply quiet_foldl_snd <;> intros) | (with_reducible apply quiet_foldl <;> intros) | split))
  all_goals (try simp)
  all_goals (repeat' (first | with_reducible rfl | (with_reducible apply ite_quiet) | (with_reducible apply quiet_foldl_fst <;> intros)
                            | (with_reducible apply quiet_foldl_snd <;> intros) | (with_reducible apply quiet_foldl <;> intros) | split))
  all_goals (try simp)

theorem execSchedulerSelect_quiet (port : Nat) (s : State) (same : Bool) (t : State)
    (h : execSchedulerSelect port s same = .next t) : t.quiet = s.quiet := by
  unfold execSchedulerSelect at h
  injection h with h
  subst h
  try simp only []
  repeat' (first | with_reducible rfl | (with_reducible apply ite_quiet) | (with_reducible apply quiet_foldl_fst <;> intros)
                 | (with_reducible apply quiet_foldl_snd <;> intros) | (with_reducible apply quiet_foldl <;> intros) | split)
  all_goals (try simp only [apply_ite State.quiet, ite_self])
  all_goals (try simp)
  all_goals (repeat' (first | with_reducible rfl | (with_reducible apply ite_quiet) | (with_reducible apply quiet_foldl_fst <;> intros)
                            | (with_reducible apply quiet_foldl_snd <;> intros) | (with_reducible apply quiet_foldl <;> intros) | split))
  all_goals (try simp)
  all_goals (repeat' (first | with_reducible rfl | (with_reducible apply ite_quiet) | (with_reducible apply quiet_foldl_fst <;> intros)
                            | (with_reducible apply quiet_foldl_snd <;> intros) | (with_reducible apply quiet_foldl <;> intros) | split))
  all_goals (try simp)

@[simp] theorem State.transmit_quiet (s : State) (p : Nat) (c : Copy) : (s.transmit p c).quiet = s.quiet := by
  unfold State.transmit
  try simp only []
  repeat' (first | with_reducible rfl | (with_reducible apply ite_quiet) | (with_reducible apply quiet_foldl_fst <;> intros)
                 | (with_reducible apply quiet_foldl_snd <;> intros) | (with_reducible apply quiet_foldl <;> intros) | split)
  all_goals (try simp only [apply_ite State.quiet, ite_self])
  all_goals (try simp)
  all_goals (repeat' (first | with_reducible rfl | (with_reducible apply ite_quiet) | (with_reducible apply quiet_foldl_fst <;> intros)
                            | (with_reducible apply quiet_foldl_snd <;> intros) | (with_reducible apply quiet_foldl <;> intros) | split))
  all_goals (try simp)
  all_goals (repeat' (first | with_reducible rfl | (with_reducible apply ite_quiet) | (with_reducible apply quiet_foldl_fst <;> intros)
                            | (with_reducible apply quiet_foldl_snd <;> intros) | (with_reducible apply quiet_foldl <;> intros) | split))
  all_goals (try simp)

@[simp] theorem State.takeTurn_quiet (s : State) (p : Nat) : (s.takeTurn p).2.quiet = s.quiet := by
  unfold State.takeTurn
  try simp only []
  repeat' (first | with_reducible rfl | (with_reducible apply ite_quiet) | (with_reducible apply quiet_foldl_fst <;> intros)
                 | (with_reducible apply quiet_foldl_snd <;> intros) | (with_reducible apply quiet_foldl <;> intros) | split)
  all_goals (try simp only [apply_ite State.quiet, ite_self])
  all_goals (try simp)
  all_goals (repeat' (first | with_reducible rfl | (with_reducible apply ite_quiet) | (with_reducible apply quiet_foldl_fst <;> intros)
                            | (with_reducible apply quiet_foldl_snd <;> intros) | (with_reducible apply quiet_foldl <;> intros) | split))
  all_goals (try simp)
  all_goals (repeat' (first | with_reducible rfl | (with_reducible apply ite_quiet) | (with_reducible apply quiet_foldl_fst <;> intros)
                            | (with_reducible apply quiet_foldl_snd <;> intros) | (with_reducible apply quiet_foldl <;> intros) | split))
  all_goals (try simp)

@[simp] theorem State.readPayload_quiet (s : State) (c : Copy) : (s.readPayload c).quiet = s.quiet := by
  unfold State.readPayload
  try simp only []
  repeat' (first | with_reducible rfl | (with_reducible apply ite_quiet) | (with_reducible apply quiet_foldl_fst <;> intros)
                 | (with_reducible apply quiet_foldl_snd <;> intros) | (with_reducible apply quiet_foldl <;> intros) | split)
  all_goals (try simp only [apply_ite State.quiet, ite_self])
  all_goals (try simp)
  all_goals (repeat' (first | with_reducible rfl | (with_reducible apply ite_quiet) | (with_reducible apply quiet_foldl_fst <;> intros)
                            | (with_reducible apply quiet_foldl_snd <;> intros) | (with_reducible apply quiet_foldl <;> intros) | split))
  all_goals (try simp)
  all_goals (repeat' (first | with_reducible rfl | (with_reducible apply ite_quiet) | (with_reducible apply quiet_foldl_fst <;> intros)
                            | (with_reducible apply quiet_foldl_snd <;> intros) | (with_reducible apply quiet_foldl <;> intros) | split))
  all_goals (try simp)

theorem execSealStage_quiet (port : Nat) (o : SealObs) (s : State) (t : State)
    (h : execSealStage port o s = .next t) : t.quiet = s.quiet := by
  unfold execSealStage at h
  injection h with h
  subst h
  try simp only []
  repeat' (first | with_reducible rfl | (with_reducible apply ite_quiet) | (with_reducible apply quiet_foldl_fst <;> intros)
                 | (with_reducible apply quiet_foldl_snd <;> intros) | (with_reducible apply quiet_foldl <;> intros) | split)
  all_goals (try simp only [apply_ite State.quiet, ite_self])
  all_goals (try simp)
  all_goals (repeat' (first | with_reducible rfl | (with_reducible apply ite_quiet) | (with_reducible apply quiet_foldl_fst <;> intros)
                            | (with_reducible apply quiet_foldl_snd <;> intros) | (with_reducible apply quiet_foldl <;> intros) | split))
  all_goals (try simp)
  all_goals (repeat' (first | with_reducible rfl | (with_reducible apply ite_quiet) | (with_reducible apply quiet_foldl_fst <;> intros)
                            | (with_reducible apply quiet_foldl_snd <;> intros) | (with_reducible apply quiet_foldl <;> intros) | split))
  all_goals (try simp)

theorem execSrtpRemap_quiet (sp : Nat) (s : State) (t : State) (h : execSrtpRemap sp s = .next t) : t.quiet = s.quiet := by
  unfold execSrtpRemap at h
  injection h with h
  subst h
  try simp only []
  repeat' (first | with_reducible rfl | (with_reducible apply ite_quiet) | (with_reducible apply quiet_foldl_fst <;> intros)
                 | (with_reducible apply quiet_foldl_snd <;> intros) | (with_reducible apply quiet_foldl <;> intros) | split)
  all_goals (try simp only [apply_ite State.quiet, ite_self])
  all_goals (try simp)
  all_goals (repeat' (first | with_reducible rfl | (with_reducible apply ite_quiet) | (with_reducible apply quiet_foldl_fst <;> intros)
                            | (with_reducible apply quiet_foldl_snd <;> intros) | (with_reducible apply quiet_foldl <;> intros) | split))
  all_goals (try simp)
  all_goals (repeat' (first | with_reducible rfl | (with_reducible apply ite_quiet) | (with_reducible apply quiet_foldl_fst <;> intros)
                            | (with_reducible apply quiet_foldl_snd <;> intros) | (with_reducible apply quiet_foldl <;> intros) | split))
  all_goals (try simp)

@[simp] theorem State.addJob_quiet (s : State) (h : CmdHdr) (opcode : Nat) : (s.addJob h opcode).quiet = s.quiet := by
  unfold State.addJob
  try simp only []
  repeat' (first | with_reducible rfl | (with_reducible apply ite_quiet) | (with_reducible apply quiet_foldl_fst <;> intros)
                 | (with_reducible apply quiet_foldl_snd <;> intros) | (with_reducible apply quiet_foldl <;> intros) | split)
  all_goals (try simp only [apply_ite State.quiet, ite_self])
  all_goals (try simp)
  all_goals (repeat' (first | with_reducible rfl | (with_reducible apply ite_quiet) | (with_reducible apply quiet_foldl_fst <;> intros)
                            | (with_reducible apply quiet_foldl_snd <;> intros) | (with_reducible apply quiet_foldl <;> intros) | split))
  all_goals (try simp)
  all_goals (repeat' (first | with_reducible rfl | (with_reducible apply ite_quiet) | (with_reducible apply quiet_foldl_fst <;> intros)
                            | (with_reducible apply quiet_foldl_snd <;> intros) | (with_reducible apply quiet_foldl <;> intros) | split))
  all_goals (try simp)

@[simp] theorem State.denyJob_quiet (s : State) (j : Job) (aborted : Bool) : (s.denyJob j aborted).quiet = s.quiet := by
  unfold State.denyJob
  try simp only []
  repeat' (first | with_reducible rfl | (with_reducible apply ite_quiet) | (with_reducible apply quiet_foldl_fst <;> intros)
                 | (with_reducible apply quiet_foldl_snd <;> intros) | (with_reducible apply quiet_foldl <;> intros) | split)
  all_goals (try simp only [apply_ite State.quiet, ite_self])
  all_goals (try simp)
  all_goals (repeat' (first | with_reducible rfl | (with_reducible apply ite_quiet) | (with_reducible apply quiet_foldl_fst <;> intros)
                            | (with_reducible apply quiet_foldl_snd <;> intros) | (with_reducible apply quiet_foldl <;> intros) | split))
  all_goals (try simp)
  all_goals (repeat' (first | with_reducible rfl | (with_reducible apply ite_quiet) | (with_reducible apply quiet_foldl_fst <;> intros)
                            | (with_reducible apply quiet_foldl_snd <;> intros) | (with_reducible apply quiet_foldl <;> intros) | split))
  all_goals (try simp)

@[simp] theorem State.dropWork_quiet (s : State) (j : Job) : (s.dropWork j).quiet = s.quiet := by
  unfold State.dropWork
  try simp only []
  repeat' (first | with_reducible rfl | (with_reducible apply ite_quiet) | (with_reducible apply quiet_foldl_fst <;> intros)
                 | (with_reducible apply quiet_foldl_snd <;> intros) | (with_reducible apply quiet_foldl <;> intros) | split)
  all_goals (try simp only [apply_ite State.quiet, ite_self])
  all_goals (try simp)
  all_goals (repeat' (first | with_reducible rfl | (with_reducible apply ite_quiet) | (with_reducible apply quiet_foldl_fst <;> intros)
                            | (with_reducible apply quiet_foldl_snd <;> intros) | (with_reducible apply quiet_foldl <;> intros) | split))
  all_goals (try simp)
  all_goals (repeat' (first | with_reducible rfl | (with_reducible apply ite_quiet) | (with_reducible apply quiet_foldl_fst <;> intros)
                            | (with_reducible apply quiet_foldl_snd <;> intros) | (with_reducible apply quiet_foldl <;> intros) | split))
  all_goals (try simp)

@[simp] theorem State.failJob_quiet (s : State) : (s.failJob).quiet = s.quiet := by
  unfold State.failJob
  try simp only []
  repeat' (first | with_reducible rfl | (with_reducible apply ite_quiet) | (with_reducible apply quiet_foldl_fst <;> intros)
                 | (with_reducible apply quiet_foldl_snd <;> intros) | (with_reducible apply quiet_foldl <;> intros) | split)
  all_goals (try simp only [apply_ite State.quiet, ite_self])
  all_goals (try simp)
  all_goals (repeat' (first | with_reducible rfl | (with_reducible apply ite_quiet) | (with_reducible apply quiet_foldl_fst <;> intros)
                            | (with_reducible apply quiet_foldl_snd <;> intros) | (with_reducible apply quiet_foldl <;> intros) | split))
  all_goals (try simp)
  all_goals (repeat' (first | with_reducible rfl | (with_reducible apply ite_quiet) | (with_reducible apply quiet_foldl_fst <;> intros)
                            | (with_reducible apply quiet_foldl_snd <;> intros) | (with_reducible apply quiet_foldl <;> intros) | split))
  all_goals (try simp)

@[simp] theorem State.work_quiet (s : State) (i : Instr) (h : CmdHdr) (l : Bool) (f : State → State)
    (hf : ∀ s, (f s).quiet = s.quiet) : (s.work i h l f).quiet = s.quiet := by
  unfold State.work
  repeat' (first | with_reducible rfl | split)
  all_goals simp [hf]

@[simp] theorem State.serve_quiet (s : State) (i : Instr) (fenic safeOk loadOk : Bool) (h : CmdHdr) (f : State → State)
    (hf : ∀ s, (f s).quiet = s.quiet) : (s.serve i fenic safeOk loadOk h f).quiet = s.quiet := by
  unfold State.serve
  repeat' (first | with_reducible rfl | split)
  all_goals exact State.work_quiet _ _ _ _ _ hf

@[simp] theorem State.pcTrained_quiet (s : State) (g : Nat) : (s.pcTrained g).quiet = s.quiet := by
  unfold State.pcTrained
  try simp only []
  repeat' (first | with_reducible rfl | (with_reducible apply ite_quiet) | (with_reducible apply quiet_foldl_fst <;> intros)
                 | (with_reducible apply quiet_foldl_snd <;> intros) | (with_reducible apply quiet_foldl <;> intros) | split)
  all_goals (try simp only [apply_ite State.quiet, ite_self])
  all_goals (try simp)
  all_goals (repeat' (first | with_reducible rfl | (with_reducible apply ite_quiet) | (with_reducible apply quiet_foldl_fst <;> intros)
                            | (with_reducible apply quiet_foldl_snd <;> intros) | (with_reducible apply quiet_foldl <;> intros) | split))
  all_goals (try simp)
  all_goals (repeat' (first | with_reducible rfl | (with_reducible apply ite_quiet) | (with_reducible apply quiet_foldl_fst <;> intros)
                            | (with_reducible apply quiet_foldl_snd <;> intros) | (with_reducible apply quiet_foldl <;> intros) | split))
  all_goals (try simp)

@[simp] theorem State.nextOrder_quiet (s : State) (k : Nat) : (s.nextOrder k).quiet = s.quiet := by
  unfold State.nextOrder
  try simp only []
  repeat' (first | with_reducible rfl | (with_reducible apply ite_quiet) | (with_reducible apply quiet_foldl_fst <;> intros)
                 | (with_reducible apply quiet_foldl_snd <;> intros) | (with_reducible apply quiet_foldl <;> intros) | split)
  all_goals (try simp only [apply_ite State.quiet, ite_self])
  all_goals (try simp)
  all_goals (repeat' (first | with_reducible rfl | (with_reducible apply ite_quiet) | (with_reducible apply quiet_foldl_fst <;> intros)
                            | (with_reducible apply quiet_foldl_snd <;> intros) | (with_reducible apply quiet_foldl <;> intros) | split))
  all_goals (try simp)
  all_goals (repeat' (first | with_reducible rfl | (with_reducible apply ite_quiet) | (with_reducible apply quiet_foldl_fst <;> intros)
                            | (with_reducible apply quiet_foldl_snd <;> intros) | (with_reducible apply quiet_foldl <;> intros) | split))
  all_goals (try simp)

@[simp] theorem State.pcRetire_quiet (s : State) (g : Nat) : (s.pcRetire g).quiet = s.quiet := by
  unfold State.pcRetire
  try simp only []
  repeat' (first | with_reducible rfl | (with_reducible apply ite_quiet) | (with_reducible apply quiet_foldl_fst <;> intros)
                 | (with_reducible apply quiet_foldl_snd <;> intros) | (with_reducible apply quiet_foldl <;> intros) | split)
  all_goals (try simp only [apply_ite State.quiet, ite_self])
  all_goals (try simp)
  all_goals (repeat' (first | with_reducible rfl | (with_reducible apply ite_quiet) | (with_reducible apply quiet_foldl_fst <;> intros)
                            | (with_reducible apply quiet_foldl_snd <;> intros) | (with_reducible apply quiet_foldl <;> intros) | split))
  all_goals (try simp)
  all_goals (repeat' (first | with_reducible rfl | (with_reducible apply ite_quiet) | (with_reducible apply quiet_foldl_fst <;> intros)
                            | (with_reducible apply quiet_foldl_snd <;> intros) | (with_reducible apply quiet_foldl <;> intros) | split))
  all_goals (try simp)

@[simp] theorem State.spentSpares_quiet (s : State) (k : Nat) : (s.spentSpares k).quiet = s.quiet := by
  unfold State.spentSpares
  try simp only []
  repeat' (first | with_reducible rfl | (with_reducible apply ite_quiet) | (with_reducible apply quiet_foldl_fst <;> intros)
                 | (with_reducible apply quiet_foldl_snd <;> intros) | (with_reducible apply quiet_foldl <;> intros) | split)
  all_goals (try simp only [apply_ite State.quiet, ite_self])
  all_goals (try simp)
  all_goals (repeat' (first | with_reducible rfl | (with_reducible apply ite_quiet) | (with_reducible apply quiet_foldl_fst <;> intros)
                            | (with_reducible apply quiet_foldl_snd <;> intros) | (with_reducible apply quiet_foldl <;> intros) | split))
  all_goals (try simp)
  all_goals (repeat' (first | with_reducible rfl | (with_reducible apply ite_quiet) | (with_reducible apply quiet_foldl_fst <;> intros)
                            | (with_reducible apply quiet_foldl_snd <;> intros) | (with_reducible apply quiet_foldl <;> intros) | split))
  all_goals (try simp)

@[simp] theorem State.placePc_quiet (s : State) (i g : Nat) : (s.placePc i g).quiet = s.quiet := by
  unfold State.placePc
  try simp only []
  repeat' (first | with_reducible rfl | (with_reducible apply ite_quiet) | (with_reducible apply quiet_foldl_fst <;> intros)
                 | (with_reducible apply quiet_foldl_snd <;> intros) | (with_reducible apply quiet_foldl <;> intros) | split)
  all_goals (try simp only [apply_ite State.quiet, ite_self])
  all_goals (try simp)
  all_goals (repeat' (first | with_reducible rfl | (with_reducible apply ite_quiet) | (with_reducible apply quiet_foldl_fst <;> intros)
                            | (with_reducible apply quiet_foldl_snd <;> intros) | (with_reducible apply quiet_foldl <;> intros) | split))
  all_goals (try simp)
  all_goals (repeat' (first | with_reducible rfl | (with_reducible apply ite_quiet) | (with_reducible apply quiet_foldl_fst <;> intros)
                            | (with_reducible apply quiet_foldl_snd <;> intros) | (with_reducible apply quiet_foldl <;> intros) | split))
  all_goals (try simp)

@[simp] theorem State.sparePc_quiet (s : State) (g : Nat) : (s.sparePc g).quiet = s.quiet := by
  unfold State.sparePc
  try simp only []
  repeat' (first | with_reducible rfl | (with_reducible apply ite_quiet) | (with_reducible apply quiet_foldl_fst <;> intros)
                 | (with_reducible apply quiet_foldl_snd <;> intros) | (with_reducible apply quiet_foldl <;> intros) | split)
  all_goals (try simp only [apply_ite State.quiet, ite_self])
  all_goals (try simp)
  all_goals (repeat' (first | with_reducible rfl | (with_reducible apply ite_quiet) | (with_reducible apply quiet_foldl_fst <;> intros)
                            | (with_reducible apply quiet_foldl_snd <;> intros) | (with_reducible apply quiet_foldl <;> intros) | split))
  all_goals (try simp)
  all_goals (repeat' (first | with_reducible rfl | (with_reducible apply ite_quiet) | (with_reducible apply quiet_foldl_fst <;> intros)
                            | (with_reducible apply quiet_foldl_snd <;> intros) | (with_reducible apply quiet_foldl <;> intros) | split))
  all_goals (try simp)

@[simp] theorem State.trainAll_quiet (s : State) (k : Nat) (working : List Nat) : (s.trainAll k working).quiet = s.quiet := by
  unfold State.trainAll
  try simp only []
  repeat' (first | with_reducible rfl | (with_reducible apply ite_quiet) | (with_reducible apply quiet_foldl_fst <;> intros)
                 | (with_reducible apply quiet_foldl_snd <;> intros) | (with_reducible apply quiet_foldl <;> intros) | split)
  all_goals (try simp only [apply_ite State.quiet, ite_self])
  all_goals (try simp)
  all_goals (repeat' (first | with_reducible rfl | (with_reducible apply ite_quiet) | (with_reducible apply quiet_foldl_fst <;> intros)
                            | (with_reducible apply quiet_foldl_snd <;> intros) | (with_reducible apply quiet_foldl <;> intros) | split))
  all_goals (try simp)
  all_goals (repeat' (first | with_reducible rfl | (with_reducible apply ite_quiet) | (with_reducible apply quiet_foldl_fst <;> intros)
                            | (with_reducible apply quiet_foldl_snd <;> intros) | (with_reducible apply quiet_foldl <;> intros) | split))
  all_goals (try simp)

@[simp] theorem State.placeAll_quiet (s : State) (k : Nat) : (s.placeAll k).quiet = s.quiet := by
  unfold State.placeAll
  try simp only []
  repeat' (first | with_reducible rfl | (with_reducible apply ite_quiet) | (with_reducible apply quiet_foldl_fst <;> intros)
                 | (with_reducible apply quiet_foldl_snd <;> intros) | (with_reducible apply quiet_foldl <;> intros) | split)
  all_goals (try simp only [apply_ite State.quiet, ite_self])
  all_goals (try simp)
  all_goals (repeat' (first | with_reducible rfl | (with_reducible apply ite_quiet) | (with_reducible apply quiet_foldl_fst <;> intros)
                            | (with_reducible apply quiet_foldl_snd <;> intros) | (with_reducible apply quiet_foldl <;> intros) | split))
  all_goals (try simp)
  all_goals (repeat' (first | with_reducible rfl | (with_reducible apply ite_quiet) | (with_reducible apply quiet_foldl_fst <;> intros)
                            | (with_reducible apply quiet_foldl_snd <;> intros) | (with_reducible apply quiet_foldl <;> intros) | split))
  all_goals (try simp)

@[simp] theorem State.afterTraining_quiet (s : State) (k retired : Nat) : (s.afterTraining k retired).quiet = s.quiet := by
  unfold State.afterTraining
  try simp only []
  repeat' (first | with_reducible rfl | (with_reducible apply ite_quiet) | (with_reducible apply quiet_foldl_fst <;> intros)
                 | (with_reducible apply quiet_foldl_snd <;> intros) | (with_reducible apply quiet_foldl <;> intros) | split)
  all_goals (try simp only [apply_ite State.quiet, ite_self])
  all_goals (try simp)
  all_goals (repeat' (first | with_reducible rfl | (with_reducible apply ite_quiet) | (with_reducible apply quiet_foldl_fst <;> intros)
                            | (with_reducible apply quiet_foldl_snd <;> intros) | (with_reducible apply quiet_foldl <;> intros) | split))
  all_goals (try simp)
  all_goals (repeat' (first | with_reducible rfl | (with_reducible apply ite_quiet) | (with_reducible apply quiet_foldl_fst <;> intros)
                            | (with_reducible apply quiet_foldl_snd <;> intros) | (with_reducible apply quiet_foldl <;> intros) | split))
  all_goals (try simp)

@[simp] theorem State.drainEnds_quiet (s : State) (k : Nat) : (s.drainEnds k).quiet = s.quiet := by
  unfold State.drainEnds
  try simp only []
  repeat' (first | with_reducible rfl | (with_reducible apply ite_quiet) | (with_reducible apply quiet_foldl_fst <;> intros)
                 | (with_reducible apply quiet_foldl_snd <;> intros) | (with_reducible apply quiet_foldl <;> intros) | split)
  all_goals (try simp only [apply_ite State.quiet, ite_self])
  all_goals (try simp)
  all_goals (repeat' (first | with_reducible rfl | (with_reducible apply ite_quiet) | (with_reducible apply quiet_foldl_fst <;> intros)
                            | (with_reducible apply quiet_foldl_snd <;> intros) | (with_reducible apply quiet_foldl <;> intros) | split))
  all_goals (try simp)
  all_goals (repeat' (first | with_reducible rfl | (with_reducible apply ite_quiet) | (with_reducible apply quiet_foldl_fst <;> intros)
                            | (with_reducible apply quiet_foldl_snd <;> intros) | (with_reducible apply quiet_foldl <;> intros) | split))
  all_goals (try simp)

@[simp] theorem State.abandonDrain_quiet (s : State) (k : Nat) : (s.abandonDrain k).quiet = s.quiet := by
  unfold State.abandonDrain
  try simp only []
  repeat' (first | with_reducible rfl | (with_reducible apply ite_quiet) | (with_reducible apply quiet_foldl_fst <;> intros)
                 | (with_reducible apply quiet_foldl_snd <;> intros) | (with_reducible apply quiet_foldl <;> intros) | split)
  all_goals (try simp only [apply_ite State.quiet, ite_self])
  all_goals (try simp)
  all_goals (repeat' (first | with_reducible rfl | (with_reducible apply ite_quiet) | (with_reducible apply quiet_foldl_fst <;> intros)
                            | (with_reducible apply quiet_foldl_snd <;> intros) | (with_reducible apply quiet_foldl <;> intros) | split))
  all_goals (try simp)
  all_goals (repeat' (first | with_reducible rfl | (with_reducible apply ite_quiet) | (with_reducible apply quiet_foldl_fst <;> intros)
                            | (with_reducible apply quiet_foldl_snd <;> intros) | (with_reducible apply quiet_foldl <;> intros) | split))
  all_goals (try simp)

@[simp] theorem State.abortDone_quiet (s : State) (res : Nat) : (s.abortDone res).quiet = s.quiet := by
  unfold State.abortDone
  try simp only []
  repeat' (first | with_reducible rfl | (with_reducible apply ite_quiet) | (with_reducible apply quiet_foldl_fst <;> intros)
                 | (with_reducible apply quiet_foldl_snd <;> intros) | (with_reducible apply quiet_foldl <;> intros) | split)
  all_goals (try simp only [apply_ite State.quiet, ite_self])
  all_goals (try simp)
  all_goals (repeat' (first | with_reducible rfl | (with_reducible apply ite_quiet) | (with_reducible apply quiet_foldl_fst <;> intros)
                            | (with_reducible apply quiet_foldl_snd <;> intros) | (with_reducible apply quiet_foldl <;> intros) | split))
  all_goals (try simp)
  all_goals (repeat' (first | with_reducible rfl | (with_reducible apply ite_quiet) | (with_reducible apply quiet_foldl_fst <;> intros)
                            | (with_reducible apply quiet_foldl_snd <;> intros) | (with_reducible apply quiet_foldl <;> intros) | split))
  all_goals (try simp)

@[simp] theorem State.resolveAbort_quiet (s : State) (a : AbortOf) : (s.resolveAbort a).quiet = s.quiet := by
  unfold State.resolveAbort
  try simp only []
  repeat' (first | with_reducible rfl | (with_reducible apply ite_quiet) | (with_reducible apply quiet_foldl_fst <;> intros)
                 | (with_reducible apply quiet_foldl_snd <;> intros) | (with_reducible apply quiet_foldl <;> intros) | split)
  all_goals (try simp only [apply_ite State.quiet, ite_self])
  all_goals (try simp)
  all_goals (repeat' (first | with_reducible rfl | (with_reducible apply ite_quiet) | (with_reducible apply quiet_foldl_fst <;> intros)
                            | (with_reducible apply quiet_foldl_snd <;> intros) | (with_reducible apply quiet_foldl <;> intros) | split))
  all_goals (try simp)
  all_goals (repeat' (first | with_reducible rfl | (with_reducible apply ite_quiet) | (with_reducible apply quiet_foldl_fst <;> intros)
                            | (with_reducible apply quiet_foldl_snd <;> intros) | (with_reducible apply quiet_foldl <;> intros) | split))
  all_goals (try simp)

@[simp] theorem State.requestAbort_quiet (s : State) (a : AbortOf) : (s.requestAbort a).quiet = s.quiet := by
  unfold State.requestAbort
  try simp only []
  repeat' (first | with_reducible rfl | (with_reducible apply ite_quiet) | (with_reducible apply quiet_foldl_fst <;> intros)
                 | (with_reducible apply quiet_foldl_snd <;> intros) | (with_reducible apply quiet_foldl <;> intros) | split)
  all_goals (try simp only [apply_ite State.quiet, ite_self])
  all_goals (try simp)
  all_goals (repeat' (first | with_reducible rfl | (with_reducible apply ite_quiet) | (with_reducible apply quiet_foldl_fst <;> intros)
                            | (with_reducible apply quiet_foldl_snd <;> intros) | (with_reducible apply quiet_foldl <;> intros) | split))
  all_goals (try simp)
  all_goals (repeat' (first | with_reducible rfl | (with_reducible apply ite_quiet) | (with_reducible apply quiet_foldl_fst <;> intros)
                            | (with_reducible apply quiet_foldl_snd <;> intros) | (with_reducible apply quiet_foldl <;> intros) | split))
  all_goals (try simp)

@[simp] theorem State.putWaiting_quiet (l : List Cpl) (s : State) : (State.putWaiting l s).quiet = s.quiet := by
  induction l generalizing s with
  | nil => simp [State.putWaiting]
  | cons c l ih => unfold State.putWaiting; split <;> simp [ih]

@[simp] theorem State.mailboxReturns_quiet (s : State) : (s.mailboxReturns).quiet = s.quiet := by
  unfold State.mailboxReturns
  try simp only []
  repeat' (first | with_reducible rfl | (with_reducible apply ite_quiet) | (with_reducible apply quiet_foldl_fst <;> intros)
                 | (with_reducible apply quiet_foldl_snd <;> intros) | (with_reducible apply quiet_foldl <;> intros) | split)
  all_goals (try simp only [apply_ite State.quiet, ite_self])
  all_goals (try simp)
  all_goals (repeat' (first | with_reducible rfl | (with_reducible apply ite_quiet) | (with_reducible apply quiet_foldl_fst <;> intros)
                            | (with_reducible apply quiet_foldl_snd <;> intros) | (with_reducible apply quiet_foldl <;> intros) | split))
  all_goals (try simp)
  all_goals (repeat' (first | with_reducible rfl | (with_reducible apply ite_quiet) | (with_reducible apply quiet_foldl_fst <;> intros)
                            | (with_reducible apply quiet_foldl_snd <;> intros) | (with_reducible apply quiet_foldl <;> intros) | split))
  all_goals (try simp)

@[simp] theorem State.retrainStack_quiet (s : State) (k : Nat) : (s.retrainStack k).quiet = s.quiet := by
  unfold State.retrainStack
  try simp only []
  repeat' (first | with_reducible rfl | (with_reducible apply ite_quiet) | (with_reducible apply quiet_foldl_fst <;> intros)
                 | (with_reducible apply quiet_foldl_snd <;> intros) | (with_reducible apply quiet_foldl <;> intros) | split)
  all_goals (try simp only [apply_ite State.quiet, ite_self])
  all_goals (try simp)
  all_goals (repeat' (first | with_reducible rfl | (with_reducible apply ite_quiet) | (with_reducible apply quiet_foldl_fst <;> intros)
                            | (with_reducible apply quiet_foldl_snd <;> intros) | (with_reducible apply quiet_foldl <;> intros) | split))
  all_goals (try simp)
  all_goals (repeat' (first | with_reducible rfl | (with_reducible apply ite_quiet) | (with_reducible apply quiet_foldl_fst <;> intros)
                            | (with_reducible apply quiet_foldl_snd <;> intros) | (with_reducible apply quiet_foldl <;> intros) | split))
  all_goals (try simp)

@[simp] theorem State.loseStack_quiet (s : State) (k : Nat) : (s.loseStack k).quiet = s.quiet := by
  unfold State.loseStack
  try simp only []
  repeat' (first | with_reducible rfl | (with_reducible apply ite_quiet) | (with_reducible apply quiet_foldl_fst <;> intros)
                 | (with_reducible apply quiet_foldl_snd <;> intros) | (with_reducible apply quiet_foldl <;> intros) | split)
  all_goals (try simp only [apply_ite State.quiet, ite_self])
  all_goals (try simp)
  all_goals (repeat' (first | with_reducible rfl | (with_reducible apply ite_quiet) | (with_reducible apply quiet_foldl_fst <;> intros)
                            | (with_reducible apply quiet_foldl_snd <;> intros) | (with_reducible apply quiet_foldl <;> intros) | split))
  all_goals (try simp)
  all_goals (repeat' (first | with_reducible rfl | (with_reducible apply ite_quiet) | (with_reducible apply quiet_foldl_fst <;> intros)
                            | (with_reducible apply quiet_foldl_snd <;> intros) | (with_reducible apply quiet_foldl <;> intros) | split))
  all_goals (try simp)

@[simp] theorem State.poisonPos_quiet (s : State) (i : Nat) : (s.poisonPos i).quiet = s.quiet := by
  unfold State.poisonPos
  try simp only []
  repeat' (first | with_reducible rfl | (with_reducible apply ite_quiet) | (with_reducible apply quiet_foldl_fst <;> intros)
                 | (with_reducible apply quiet_foldl_snd <;> intros) | (with_reducible apply quiet_foldl <;> intros) | split)
  all_goals (try simp only [apply_ite State.quiet, ite_self])
  all_goals (try simp)
  all_goals (repeat' (first | with_reducible rfl | (with_reducible apply ite_quiet) | (with_reducible apply quiet_foldl_fst <;> intros)
                            | (with_reducible apply quiet_foldl_snd <;> intros) | (with_reducible apply quiet_foldl <;> intros) | split))
  all_goals (try simp)
  all_goals (repeat' (first | with_reducible rfl | (with_reducible apply ite_quiet) | (with_reducible apply quiet_foldl_fst <;> intros)
                            | (with_reducible apply quiet_foldl_snd <;> intros) | (with_reducible apply quiet_foldl <;> intros) | split))
  all_goals (try simp)

@[simp] theorem State.linkLost_quiet (s : State) (p : Nat) : (s.linkLost p).quiet = s.quiet := by
  unfold State.linkLost
  try simp only []
  repeat' (first | with_reducible rfl | (with_reducible apply ite_quiet) | (with_reducible apply quiet_foldl_fst <;> intros)
                 | (with_reducible apply quiet_foldl_snd <;> intros) | (with_reducible apply quiet_foldl <;> intros) | split)
  all_goals (try simp only [apply_ite State.quiet, ite_self])
  all_goals (try simp)
  all_goals (repeat' (first | with_reducible rfl | (with_reducible apply ite_quiet) | (with_reducible apply quiet_foldl_fst <;> intros)
                            | (with_reducible apply quiet_foldl_snd <;> intros) | (with_reducible apply quiet_foldl <;> intros) | split))
  all_goals (try simp)
  all_goals (repeat' (first | with_reducible rfl | (with_reducible apply ite_quiet) | (with_reducible apply quiet_foldl_fst <;> intros)
                            | (with_reducible apply quiet_foldl_snd <;> intros) | (with_reducible apply quiet_foldl <;> intros) | split))
  all_goals (try simp)

theorem execPortLinkDown_quiet (port : Nat) (s : State) (t : State) (h : execPortLinkDown port s = .next t) : t.quiet = s.quiet := by
  unfold execPortLinkDown at h
  injection h with h
  subst h
  try simp only []
  repeat' (first | with_reducible rfl | (with_reducible apply ite_quiet) | (with_reducible apply quiet_foldl_fst <;> intros)
                 | (with_reducible apply quiet_foldl_snd <;> intros) | (with_reducible apply quiet_foldl <;> intros) | split)
  all_goals (try simp only [apply_ite State.quiet, ite_self])
  all_goals (try simp)
  all_goals (repeat' (first | with_reducible rfl | (with_reducible apply ite_quiet) | (with_reducible apply quiet_foldl_fst <;> intros)
                            | (with_reducible apply quiet_foldl_snd <;> intros) | (with_reducible apply quiet_foldl <;> intros) | split))
  all_goals (try simp)
  all_goals (repeat' (first | with_reducible rfl | (with_reducible apply ite_quiet) | (with_reducible apply quiet_foldl_fst <;> intros)
                            | (with_reducible apply quiet_foldl_snd <;> intros) | (with_reducible apply quiet_foldl <;> intros) | split))
  all_goals (try simp)

@[simp] theorem State.laneTests_quiet (s : State) (p : Nat) (trained : List Nat) : (s.laneTests p trained).quiet = s.quiet := by
  unfold State.laneTests
  try simp only []
  repeat' (first | with_reducible rfl | (with_reducible apply ite_quiet) | (with_reducible apply quiet_foldl_fst <;> intros)
                 | (with_reducible apply quiet_foldl_snd <;> intros) | (with_reducible apply quiet_foldl <;> intros) | split)
  all_goals (try simp only [apply_ite State.quiet, ite_self])
  all_goals (try simp)
  all_goals (repeat' (first | with_reducible rfl | (with_reducible apply ite_quiet) | (with_reducible apply quiet_foldl_fst <;> intros)
                            | (with_reducible apply quiet_foldl_snd <;> intros) | (with_reducible apply quiet_foldl <;> intros) | split))
  all_goals (try simp)
  all_goals (repeat' (first | with_reducible rfl | (with_reducible apply ite_quiet) | (with_reducible apply quiet_foldl_fst <;> intros)
                            | (with_reducible apply quiet_foldl_snd <;> intros) | (with_reducible apply quiet_foldl <;> intros) | split))
  all_goals (try simp)

theorem execPortRetrainDone_quiet (port : Nat) (trained : List Nat) (s : State) (t : State)
    (h : execPortRetrainDone port trained s = .next t) : t.quiet = s.quiet := by
  unfold execPortRetrainDone at h
  injection h with h
  subst h
  try simp only []
  repeat' (first | with_reducible rfl | (with_reducible apply ite_quiet) | (with_reducible apply quiet_foldl_fst <;> intros)
                 | (with_reducible apply quiet_foldl_snd <;> intros) | (with_reducible apply quiet_foldl <;> intros) | split)
  all_goals (try simp only [apply_ite State.quiet, ite_self])
  all_goals (try simp)
  all_goals (repeat' (first | with_reducible rfl | (with_reducible apply ite_quiet) | (with_reducible apply quiet_foldl_fst <;> intros)
                            | (with_reducible apply quiet_foldl_snd <;> intros) | (with_reducible apply quiet_foldl <;> intros) | split))
  all_goals (try simp)
  all_goals (repeat' (first | with_reducible rfl | (with_reducible apply ite_quiet) | (with_reducible apply quiet_foldl_fst <;> intros)
                            | (with_reducible apply quiet_foldl_snd <;> intros) | (with_reducible apply quiet_foldl <;> intros) | split))
  all_goals (try simp)

theorem execSerdesBerWindow_quiet (ber : List (Nat × Nat × Nat × Nat)) (s : State) (t : State)
    (h : execSerdesBerWindow ber s = .next t) : t.quiet = s.quiet := by
  unfold execSerdesBerWindow at h
  injection h with h
  subst h
  try simp only []
  repeat' (first | with_reducible rfl | (with_reducible apply ite_quiet) | (with_reducible apply quiet_foldl_fst <;> intros)
                 | (with_reducible apply quiet_foldl_snd <;> intros) | (with_reducible apply quiet_foldl <;> intros) | split)
  all_goals (try simp only [apply_ite State.quiet, ite_self])
  all_goals (try simp)
  all_goals (repeat' (first | with_reducible rfl | (with_reducible apply ite_quiet) | (with_reducible apply quiet_foldl_fst <;> intros)
                            | (with_reducible apply quiet_foldl_snd <;> intros) | (with_reducible apply quiet_foldl <;> intros) | split))
  all_goals (try simp)
  all_goals (repeat' (first | with_reducible rfl | (with_reducible apply ite_quiet) | (with_reducible apply quiet_foldl_fst <;> intros)
                            | (with_reducible apply quiet_foldl_snd <;> intros) | (with_reducible apply quiet_foldl <;> intros) | split))
  all_goals (try simp)

theorem execLaneSubstitution_quiet (port : Nat) (s : State) (t : State)
    (h : execLaneSubstitution port s = .next t) : t.quiet = s.quiet := by
  unfold execLaneSubstitution at h
  injection h with h
  subst h
  try simp only []
  repeat' (first | with_reducible rfl | (with_reducible apply ite_quiet) | (with_reducible apply quiet_foldl_fst <;> intros)
                 | (with_reducible apply quiet_foldl_snd <;> intros) | (with_reducible apply quiet_foldl <;> intros) | split)
  all_goals (try simp only [apply_ite State.quiet, ite_self])
  all_goals (try simp)
  all_goals (repeat' (first | with_reducible rfl | (with_reducible apply ite_quiet) | (with_reducible apply quiet_foldl_fst <;> intros)
                            | (with_reducible apply quiet_foldl_snd <;> intros) | (with_reducible apply quiet_foldl <;> intros) | split))
  all_goals (try simp)
  all_goals (repeat' (first | with_reducible rfl | (with_reducible apply ite_quiet) | (with_reducible apply quiet_foldl_fst <;> intros)
                            | (with_reducible apply quiet_foldl_snd <;> intros) | (with_reducible apply quiet_foldl <;> intros) | split))
  all_goals (try simp)

@[simp] theorem State.islAnswer_quiet (s : State) (n : Nat) (hdr : Option CmdHdr) (st : Status) :
    (s.islAnswer n hdr st).quiet = s.quiet := by
  unfold State.islAnswer
  try simp only []
  repeat' (first | with_reducible rfl | (with_reducible apply ite_quiet) | (with_reducible apply quiet_foldl_fst <;> intros)
                 | (with_reducible apply quiet_foldl_snd <;> intros) | (with_reducible apply quiet_foldl <;> intros) | split)
  all_goals (try simp only [apply_ite State.quiet, ite_self])
  all_goals (try simp)
  all_goals (repeat' (first | with_reducible rfl | (with_reducible apply ite_quiet) | (with_reducible apply quiet_foldl_fst <;> intros)
                            | (with_reducible apply quiet_foldl_snd <;> intros) | (with_reducible apply quiet_foldl <;> intros) | split))
  all_goals (try simp)
  all_goals (repeat' (first | with_reducible rfl | (with_reducible apply ite_quiet) | (with_reducible apply quiet_foldl_fst <;> intros)
                            | (with_reducible apply quiet_foldl_snd <;> intros) | (with_reducible apply quiet_foldl <;> intros) | split))
  all_goals (try simp)

@[simp] theorem State.islDone_quiet (s : State) (n : Nat) (hdrs : List CmdHdr) : (s.islDone n hdrs).quiet = s.quiet := by
  unfold State.islDone
  try simp only []
  repeat' (first | with_reducible rfl | (with_reducible apply ite_quiet) | (with_reducible apply quiet_foldl_fst <;> intros)
                 | (with_reducible apply quiet_foldl_snd <;> intros) | (with_reducible apply quiet_foldl <;> intros) | split)
  all_goals (try simp only [apply_ite State.quiet, ite_self])
  all_goals (try simp)
  all_goals (repeat' (first | with_reducible rfl | (with_reducible apply ite_quiet) | (with_reducible apply quiet_foldl_fst <;> intros)
                            | (with_reducible apply quiet_foldl_snd <;> intros) | (with_reducible apply quiet_foldl <;> intros) | split))
  all_goals (try simp)
  all_goals (repeat' (first | with_reducible rfl | (with_reducible apply ite_quiet) | (with_reducible apply quiet_foldl_fst <;> intros)
                            | (with_reducible apply quiet_foldl_snd <;> intros) | (with_reducible apply quiet_foldl <;> intros) | split))
  all_goals (try simp)

@[simp] theorem State.islBegin_quiet (s : State) (n : Nat) (r : IslReq) (hdrs : List CmdHdr) : (s.islBegin n r hdrs).quiet = s.quiet := by
  unfold State.islBegin
  try simp only []
  repeat' (first | with_reducible rfl | (with_reducible apply ite_quiet) | (with_reducible apply quiet_foldl_fst <;> intros)
                 | (with_reducible apply quiet_foldl_snd <;> intros) | (with_reducible apply quiet_foldl <;> intros) | split)
  all_goals (try simp only [apply_ite State.quiet, ite_self])
  all_goals (try simp)
  all_goals (repeat' (first | with_reducible rfl | (with_reducible apply ite_quiet) | (with_reducible apply quiet_foldl_fst <;> intros)
                            | (with_reducible apply quiet_foldl_snd <;> intros) | (with_reducible apply quiet_foldl <;> intros) | split))
  all_goals (try simp)
  all_goals (repeat' (first | with_reducible rfl | (with_reducible apply ite_quiet) | (with_reducible apply quiet_foldl_fst <;> intros)
                            | (with_reducible apply quiet_foldl_snd <;> intros) | (with_reducible apply quiet_foldl <;> intros) | split))
  all_goals (try simp)

@[simp] theorem State.islStoreFreq_quiet (s : State) (n mhz : Nat) : (s.islStoreFreq n mhz).quiet = s.quiet := by
  unfold State.islStoreFreq
  try simp only []
  repeat' (first | with_reducible rfl | (with_reducible apply ite_quiet) | (with_reducible apply quiet_foldl_fst <;> intros)
                 | (with_reducible apply quiet_foldl_snd <;> intros) | (with_reducible apply quiet_foldl <;> intros) | split)
  all_goals (try simp only [apply_ite State.quiet, ite_self])
  all_goals (try simp)
  all_goals (repeat' (first | with_reducible rfl | (with_reducible apply ite_quiet) | (with_reducible apply quiet_foldl_fst <;> intros)
                            | (with_reducible apply quiet_foldl_snd <;> intros) | (with_reducible apply quiet_foldl <;> intros) | split))
  all_goals (try simp)
  all_goals (repeat' (first | with_reducible rfl | (with_reducible apply ite_quiet) | (with_reducible apply quiet_foldl_fst <;> intros)
                            | (with_reducible apply quiet_foldl_snd <;> intros) | (with_reducible apply quiet_foldl <;> intros) | split))
  all_goals (try simp)

@[simp] theorem State.hbmRetune_quiet (s : State) (n : Nat) (r : IslReq) (hdrs : List CmdHdr) : (s.hbmRetune n r hdrs).quiet = s.quiet := by
  unfold State.hbmRetune
  try simp only []
  repeat' (first | with_reducible rfl | (with_reducible apply ite_quiet) | (with_reducible apply quiet_foldl_fst <;> intros)
                 | (with_reducible apply quiet_foldl_snd <;> intros) | (with_reducible apply quiet_foldl <;> intros) | split)
  all_goals (try simp only [apply_ite State.quiet, ite_self])
  all_goals (try simp)
  all_goals (repeat' (first | with_reducible rfl | (with_reducible apply ite_quiet) | (with_reducible apply quiet_foldl_fst <;> intros)
                            | (with_reducible apply quiet_foldl_snd <;> intros) | (with_reducible apply quiet_foldl <;> intros) | split))
  all_goals (try simp)
  all_goals (repeat' (first | with_reducible rfl | (with_reducible apply ite_quiet) | (with_reducible apply quiet_foldl_fst <;> intros)
                            | (with_reducible apply quiet_foldl_snd <;> intros) | (with_reducible apply quiet_foldl <;> intros) | split))
  all_goals (try simp)

@[simp] theorem State.islTake_quiet (s : State) (n : Nat) (r : IslReq) (hdrs : List CmdHdr) : (s.islTake n r hdrs).2.quiet = s.quiet := by
  unfold State.islTake
  try simp only []
  repeat' (first | with_reducible rfl | (with_reducible apply ite_quiet) | (with_reducible apply quiet_foldl_fst <;> intros)
                 | (with_reducible apply quiet_foldl_snd <;> intros) | (with_reducible apply quiet_foldl <;> intros) | split)
  all_goals (try simp only [apply_ite State.quiet, ite_self])
  all_goals (try simp)
  all_goals (repeat' (first | with_reducible rfl | (with_reducible apply ite_quiet) | (with_reducible apply quiet_foldl_fst <;> intros)
                            | (with_reducible apply quiet_foldl_snd <;> intros) | (with_reducible apply quiet_foldl <;> intros) | split))
  all_goals (try simp)
  all_goals (repeat' (first | with_reducible rfl | (with_reducible apply ite_quiet) | (with_reducible apply quiet_foldl_fst <;> intros)
                            | (with_reducible apply quiet_foldl_snd <;> intros) | (with_reducible apply quiet_foldl <;> intros) | split))
  all_goals (try simp)

@[simp] theorem State.islHold_quiet (s : State) (n : Nat) (r : IslReq) : (s.islHold n r).quiet = s.quiet := by
  unfold State.islHold
  try simp only []
  repeat' (first | with_reducible rfl | (with_reducible apply ite_quiet) | (with_reducible apply quiet_foldl_fst <;> intros)
                 | (with_reducible apply quiet_foldl_snd <;> intros) | (with_reducible apply quiet_foldl <;> intros) | split)
  all_goals (try simp only [apply_ite State.quiet, ite_self])
  all_goals (try simp)
  all_goals (repeat' (first | with_reducible rfl | (with_reducible apply ite_quiet) | (with_reducible apply quiet_foldl_fst <;> intros)
                            | (with_reducible apply quiet_foldl_snd <;> intros) | (with_reducible apply quiet_foldl <;> intros) | split))
  all_goals (try simp)
  all_goals (repeat' (first | with_reducible rfl | (with_reducible apply ite_quiet) | (with_reducible apply quiet_foldl_fst <;> intros)
                            | (with_reducible apply quiet_foldl_snd <;> intros) | (with_reducible apply quiet_foldl <;> intros) | split))
  all_goals (try simp)

@[simp] theorem State.islApply_quiet (s : State) (n : Nat) (r : IslReq) : (s.islApply n r).quiet = s.quiet := by
  unfold State.islApply
  try simp only []
  repeat' (first | with_reducible rfl | (with_reducible apply ite_quiet) | (with_reducible apply quiet_foldl_fst <;> intros)
                 | (with_reducible apply quiet_foldl_snd <;> intros) | (with_reducible apply quiet_foldl <;> intros) | split)
  all_goals (try simp only [apply_ite State.quiet, ite_self])
  all_goals (try simp)
  all_goals (repeat' (first | with_reducible rfl | (with_reducible apply ite_quiet) | (with_reducible apply quiet_foldl_fst <;> intros)
                            | (with_reducible apply quiet_foldl_snd <;> intros) | (with_reducible apply quiet_foldl <;> intros) | split))
  all_goals (try simp)
  all_goals (repeat' (first | with_reducible rfl | (with_reducible apply ite_quiet) | (with_reducible apply quiet_foldl_fst <;> intros)
                            | (with_reducible apply quiet_foldl_snd <;> intros) | (with_reducible apply quiet_foldl <;> intros) | split))
  all_goals (try simp)

@[simp] theorem State.islApplyHeld_quiet (n : Nat) (l : List IslReq) (b : Bool) (s : State) :
    (State.islApplyHeld n l b s).quiet = s.quiet := by
  induction l generalizing b s with
  | nil => simp [State.islApplyHeld]
  | cons r l ih => unfold State.islApplyHeld; split <;> simp [ih]

@[simp] theorem State.islHeldNow_quiet (s : State) (n : Nat) (fresh : Bool) : (s.islHeldNow n fresh).quiet = s.quiet := by
  unfold State.islHeldNow
  try simp only []
  repeat' (first | with_reducible rfl | (with_reducible apply ite_quiet) | (with_reducible apply quiet_foldl_fst <;> intros)
                 | (with_reducible apply quiet_foldl_snd <;> intros) | (with_reducible apply quiet_foldl <;> intros) | split)
  all_goals (try simp only [apply_ite State.quiet, ite_self])
  all_goals (try simp)
  all_goals (repeat' (first | with_reducible rfl | (with_reducible apply ite_quiet) | (with_reducible apply quiet_foldl_fst <;> intros)
                            | (with_reducible apply quiet_foldl_snd <;> intros) | (with_reducible apply quiet_foldl <;> intros) | split))
  all_goals (try simp)
  all_goals (repeat' (first | with_reducible rfl | (with_reducible apply ite_quiet) | (with_reducible apply quiet_foldl_fst <;> intros)
                            | (with_reducible apply quiet_foldl_snd <;> intros) | (with_reducible apply quiet_foldl <;> intros) | split))
  all_goals (try simp)

@[simp] theorem State.islRequest_quiet (s : State) (n : Nat) (r : IslReq) (hdr : Option CmdHdr) :
    (s.islRequest n r hdr).quiet = s.quiet := by
  unfold State.islRequest
  try simp only []
  repeat' (first | with_reducible rfl | (with_reducible apply ite_quiet) | (with_reducible apply quiet_foldl_fst <;> intros)
                 | (with_reducible apply quiet_foldl_snd <;> intros) | (with_reducible apply quiet_foldl <;> intros) | split)
  all_goals (try simp only [apply_ite State.quiet, ite_self])
  all_goals (try simp)
  all_goals (repeat' (first | with_reducible rfl | (with_reducible apply ite_quiet) | (with_reducible apply quiet_foldl_fst <;> intros)
                            | (with_reducible apply quiet_foldl_snd <;> intros) | (with_reducible apply quiet_foldl <;> intros) | split))
  all_goals (try simp)
  all_goals (repeat' (first | with_reducible rfl | (with_reducible apply ite_quiet) | (with_reducible apply quiet_foldl_fst <;> intros)
                            | (with_reducible apply quiet_foldl_snd <;> intros) | (with_reducible apply quiet_foldl <;> intros) | split))
  all_goals (try simp)

theorem execPwrIslReq_quiet (n : Nat) (st : Nat) (s : State) (t : State) (h : execPwrIslReq n st s = .next t) : t.quiet = s.quiet := by
  unfold execPwrIslReq at h
  injection h with h
  subst h
  try simp only []
  repeat' (first | with_reducible rfl | (with_reducible apply ite_quiet) | (with_reducible apply quiet_foldl_fst <;> intros)
                 | (with_reducible apply quiet_foldl_snd <;> intros) | (with_reducible apply quiet_foldl <;> intros) | split)
  all_goals (try simp only [apply_ite State.quiet, ite_self])
  all_goals (try simp)
  all_goals (repeat' (first | with_reducible rfl | (with_reducible apply ite_quiet) | (with_reducible apply quiet_foldl_fst <;> intros)
                            | (with_reducible apply quiet_foldl_snd <;> intros) | (with_reducible apply quiet_foldl <;> intros) | split))
  all_goals (try simp)
  all_goals (repeat' (first | with_reducible rfl | (with_reducible apply ite_quiet) | (with_reducible apply quiet_foldl_fst <;> intros)
                            | (with_reducible apply quiet_foldl_snd <;> intros) | (with_reducible apply quiet_foldl <;> intros) | split))
  all_goals (try simp)

theorem execPwrIslFreq_quiet (n : Nat) (mhz : Nat) (s : State) (t : State) (h : execPwrIslFreq n mhz s = .next t) : t.quiet = s.quiet := by
  unfold execPwrIslFreq at h
  injection h with h
  subst h
  try simp only []
  repeat' (first | with_reducible rfl | (with_reducible apply ite_quiet) | (with_reducible apply quiet_foldl_fst <;> intros)
                 | (with_reducible apply quiet_foldl_snd <;> intros) | (with_reducible apply quiet_foldl <;> intros) | split)
  all_goals (try simp only [apply_ite State.quiet, ite_self])
  all_goals (try simp)
  all_goals (repeat' (first | with_reducible rfl | (with_reducible apply ite_quiet) | (with_reducible apply quiet_foldl_fst <;> intros)
                            | (with_reducible apply quiet_foldl_snd <;> intros) | (with_reducible apply quiet_foldl <;> intros) | split))
  all_goals (try simp)
  all_goals (repeat' (first | with_reducible rfl | (with_reducible apply ite_quiet) | (with_reducible apply quiet_foldl_fst <;> intros)
                            | (with_reducible apply quiet_foldl_snd <;> intros) | (with_reducible apply quiet_foldl <;> intros) | split))
  all_goals (try simp)

theorem execPcieL1Exit_quiet (s : State) (t : State) (h : execPcieL1Exit s = .next t) : t.quiet = s.quiet := by
  unfold execPcieL1Exit at h
  injection h with h
  subst h
  try simp only []
  repeat' (first | with_reducible rfl | (with_reducible apply ite_quiet) | (with_reducible apply quiet_foldl_fst <;> intros)
                 | (with_reducible apply quiet_foldl_snd <;> intros) | (with_reducible apply quiet_foldl <;> intros) | split)
  all_goals (try simp only [apply_ite State.quiet, ite_self])
  all_goals (try simp)
  all_goals (repeat' (first | with_reducible rfl | (with_reducible apply ite_quiet) | (with_reducible apply quiet_foldl_fst <;> intros)
                            | (with_reducible apply quiet_foldl_snd <;> intros) | (with_reducible apply quiet_foldl <;> intros) | split))
  all_goals (try simp)
  all_goals (repeat' (first | with_reducible rfl | (with_reducible apply ite_quiet) | (with_reducible apply quiet_foldl_fst <;> intros)
                            | (with_reducible apply quiet_foldl_snd <;> intros) | (with_reducible apply quiet_foldl <;> intros) | split))
  all_goals (try simp)

theorem execUnitBoundary_quiet (isl : Nat) (s : State) (t : State) (h : execUnitBoundary isl s = .next t) : t.quiet = s.quiet := by
  unfold execUnitBoundary at h
  injection h with h
  subst h
  try simp only []
  repeat' (first | with_reducible rfl | (with_reducible apply ite_quiet) | (with_reducible apply quiet_foldl_fst <;> intros)
                 | (with_reducible apply quiet_foldl_snd <;> intros) | (with_reducible apply quiet_foldl <;> intros) | split)
  all_goals (try simp only [apply_ite State.quiet, ite_self])
  all_goals (try simp)
  all_goals (repeat' (first | with_reducible rfl | (with_reducible apply ite_quiet) | (with_reducible apply quiet_foldl_fst <;> intros)
                            | (with_reducible apply quiet_foldl_snd <;> intros) | (with_reducible apply quiet_foldl <;> intros) | split))
  all_goals (try simp)
  all_goals (repeat' (first | with_reducible rfl | (with_reducible apply ite_quiet) | (with_reducible apply quiet_foldl_fst <;> intros)
                            | (with_reducible apply quiet_foldl_snd <;> intros) | (with_reducible apply quiet_foldl <;> intros) | split))
  all_goals (try simp)

@[simp] theorem State.netOff_quiet (s : State) (p : Nat) : (s.netOff p).quiet = s.quiet := by
  unfold State.netOff
  try simp only []
  repeat' (first | with_reducible rfl | (with_reducible apply ite_quiet) | (with_reducible apply quiet_foldl_fst <;> intros)
                 | (with_reducible apply quiet_foldl_snd <;> intros) | (with_reducible apply quiet_foldl <;> intros) | split)
  all_goals (try simp only [apply_ite State.quiet, ite_self])
  all_goals (try simp)
  all_goals (repeat' (first | with_reducible rfl | (with_reducible apply ite_quiet) | (with_reducible apply quiet_foldl_fst <;> intros)
                            | (with_reducible apply quiet_foldl_snd <;> intros) | (with_reducible apply quiet_foldl <;> intros) | split))
  all_goals (try simp)
  all_goals (repeat' (first | with_reducible rfl | (with_reducible apply ite_quiet) | (with_reducible apply quiet_foldl_fst <;> intros)
                            | (with_reducible apply quiet_foldl_snd <;> intros) | (with_reducible apply quiet_foldl <;> intros) | split))
  all_goals (try simp)

@[simp] theorem State.pktOff_quiet (s : State) : s.pktOff.quiet = s.quiet := rfl

@[simp] theorem State.keysLost_quiet (s : State) (k : Nat) : (s.keysLost k).quiet = s.quiet := by
  unfold State.keysLost
  try simp only []
  repeat' (first | with_reducible rfl | (with_reducible apply ite_quiet) | (with_reducible apply quiet_foldl_fst <;> intros)
                 | (with_reducible apply quiet_foldl_snd <;> intros) | (with_reducible apply quiet_foldl <;> intros) | split)
  all_goals (try simp only [apply_ite State.quiet, ite_self])
  all_goals (try simp)
  all_goals (repeat' (first | with_reducible rfl | (with_reducible apply ite_quiet) | (with_reducible apply quiet_foldl_fst <;> intros)
                            | (with_reducible apply quiet_foldl_snd <;> intros) | (with_reducible apply quiet_foldl <;> intros) | split))
  all_goals (try simp)
  all_goals (repeat' (first | with_reducible rfl | (with_reducible apply ite_quiet) | (with_reducible apply quiet_foldl_fst <;> intros)
                            | (with_reducible apply quiet_foldl_snd <;> intros) | (with_reducible apply quiet_foldl <;> intros) | split))
  all_goals (try simp)

@[simp] theorem State.fifosReset_quiet (s : State) (n : Nat) : (s.fifosReset n).quiet = s.quiet := by
  unfold State.fifosReset
  try simp only []
  repeat' (first | with_reducible rfl | (with_reducible apply ite_quiet) | (with_reducible apply quiet_foldl_fst <;> intros)
                 | (with_reducible apply quiet_foldl_snd <;> intros) | (with_reducible apply quiet_foldl <;> intros) | split)
  all_goals (try simp only [apply_ite State.quiet, ite_self])
  all_goals (try simp)
  all_goals (repeat' (first | with_reducible rfl | (with_reducible apply ite_quiet) | (with_reducible apply quiet_foldl_fst <;> intros)
                            | (with_reducible apply quiet_foldl_snd <;> intros) | (with_reducible apply quiet_foldl <;> intros) | split))
  all_goals (try simp)
  all_goals (repeat' (first | with_reducible rfl | (with_reducible apply ite_quiet) | (with_reducible apply quiet_foldl_fst <;> intros)
                            | (with_reducible apply quiet_foldl_snd <;> intros) | (with_reducible apply quiet_foldl <;> intros) | split))
  all_goals (try simp)

@[simp] theorem State.linesLow_quiet (s : State) (n : Nat) : (s.linesLow n).quiet = s.quiet := by
  unfold State.linesLow
  try simp only []
  repeat' (first | with_reducible rfl | (with_reducible apply ite_quiet) | (with_reducible apply quiet_foldl_fst <;> intros)
                 | (with_reducible apply quiet_foldl_snd <;> intros) | (with_reducible apply quiet_foldl <;> intros) | split)
  all_goals (try simp only [apply_ite State.quiet, ite_self])
  all_goals (try simp)
  all_goals (repeat' (first | with_reducible rfl | (with_reducible apply ite_quiet) | (with_reducible apply quiet_foldl_fst <;> intros)
                            | (with_reducible apply quiet_foldl_snd <;> intros) | (with_reducible apply quiet_foldl <;> intros) | split))
  all_goals (try simp)
  all_goals (repeat' (first | with_reducible rfl | (with_reducible apply ite_quiet) | (with_reducible apply quiet_foldl_fst <;> intros)
                            | (with_reducible apply quiet_foldl_snd <;> intros) | (with_reducible apply quiet_foldl <;> intros) | split))
  all_goals (try simp)

@[simp] theorem State.pulsesGo_quiet (s : State) (n : Nat) (off : Bool) : (s.pulsesGo n off).quiet = s.quiet := by
  unfold State.pulsesGo
  try simp only []
  repeat' (first | with_reducible rfl | (with_reducible apply ite_quiet) | (with_reducible apply quiet_foldl_fst <;> intros)
                 | (with_reducible apply quiet_foldl_snd <;> intros) | (with_reducible apply quiet_foldl <;> intros) | split)
  all_goals (try simp only [apply_ite State.quiet, ite_self])
  all_goals (try simp)
  all_goals (repeat' (first | with_reducible rfl | (with_reducible apply ite_quiet) | (with_reducible apply quiet_foldl_fst <;> intros)
                            | (with_reducible apply quiet_foldl_snd <;> intros) | (with_reducible apply quiet_foldl <;> intros) | split))
  all_goals (try simp)
  all_goals (repeat' (first | with_reducible rfl | (with_reducible apply ite_quiet) | (with_reducible apply quiet_foldl_fst <;> intros)
                            | (with_reducible apply quiet_foldl_snd <;> intros) | (with_reducible apply quiet_foldl <;> intros) | split))
  all_goals (try simp)

@[simp] theorem State.islStops_quiet (s : State) (n : Nat) (off : Bool) : (s.islStops n off).quiet = s.quiet := by
  unfold State.islStops
  try simp only []
  repeat' (first | with_reducible rfl | (with_reducible apply ite_quiet) | (with_reducible apply quiet_foldl_fst <;> intros)
                 | (with_reducible apply quiet_foldl_snd <;> intros) | (with_reducible apply quiet_foldl <;> intros) | split)
  all_goals (try simp only [apply_ite State.quiet, ite_self])
  all_goals (try simp)
  all_goals (repeat' (first | with_reducible rfl | (with_reducible apply ite_quiet) | (with_reducible apply quiet_foldl_fst <;> intros)
                            | (with_reducible apply quiet_foldl_snd <;> intros) | (with_reducible apply quiet_foldl <;> intros) | split))
  all_goals (try simp)
  all_goals (repeat' (first | with_reducible rfl | (with_reducible apply ite_quiet) | (with_reducible apply quiet_foldl_fst <;> intros)
                            | (with_reducible apply quiet_foldl_snd <;> intros) | (with_reducible apply quiet_foldl <;> intros) | split))
  all_goals (try simp)

@[simp] theorem State.islReturns_quiet (s : State) (n : Nat) (off : Bool) : (s.islReturns n off).quiet = s.quiet := by
  unfold State.islReturns
  try simp only []
  repeat' (first | with_reducible rfl | (with_reducible apply ite_quiet) | (with_reducible apply quiet_foldl_fst <;> intros)
                 | (with_reducible apply quiet_foldl_snd <;> intros) | (with_reducible apply quiet_foldl <;> intros) | split)
  all_goals (try simp only [apply_ite State.quiet, ite_self])
  all_goals (try simp)
  all_goals (repeat' (first | with_reducible rfl | (with_reducible apply ite_quiet) | (with_reducible apply quiet_foldl_fst <;> intros)
                            | (with_reducible apply quiet_foldl_snd <;> intros) | (with_reducible apply quiet_foldl <;> intros) | split))
  all_goals (try simp)
  all_goals (repeat' (first | with_reducible rfl | (with_reducible apply ite_quiet) | (with_reducible apply quiet_foldl_fst <;> intros)
                            | (with_reducible apply quiet_foldl_snd <;> intros) | (with_reducible apply quiet_foldl <;> intros) | split))
  all_goals (try simp)

theorem execIslandTransitionDone_quiet (isl : Nat) (s : State) (t : State)
    (h : execIslandTransitionDone isl s = .next t) : t.quiet = s.quiet := by
  unfold execIslandTransitionDone at h
  injection h with h
  subst h
  try simp only []
  repeat' (first | with_reducible rfl | (with_reducible apply ite_quiet) | (with_reducible apply quiet_foldl_fst <;> intros)
                 | (with_reducible apply quiet_foldl_snd <;> intros) | (with_reducible apply quiet_foldl <;> intros) | split)
  all_goals (try simp only [apply_ite State.quiet, ite_self])
  all_goals (try simp)
  all_goals (repeat' (first | with_reducible rfl | (with_reducible apply ite_quiet) | (with_reducible apply quiet_foldl_fst <;> intros)
                            | (with_reducible apply quiet_foldl_snd <;> intros) | (with_reducible apply quiet_foldl <;> intros) | split))
  all_goals (try simp)
  all_goals (repeat' (first | with_reducible rfl | (with_reducible apply ite_quiet) | (with_reducible apply quiet_foldl_fst <;> intros)
                            | (with_reducible apply quiet_foldl_snd <;> intros) | (with_reducible apply quiet_foldl <;> intros) | split))
  all_goals (try simp)

theorem execRefreshDue_quiet (g : Nat) (readsQueued : Bool) (s : State) (t : State)
    (h : execRefreshDue g readsQueued s = .next t) : t.quiet = s.quiet := by
  unfold execRefreshDue at h
  injection h with h
  subst h
  try simp only []
  repeat' (first | with_reducible rfl | (with_reducible apply ite_quiet) | (with_reducible apply quiet_foldl_fst <;> intros)
                 | (with_reducible apply quiet_foldl_snd <;> intros) | (with_reducible apply quiet_foldl <;> intros) | split)
  all_goals (try simp only [apply_ite State.quiet, ite_self])
  all_goals (try simp)
  all_goals (repeat' (first | with_reducible rfl | (with_reducible apply ite_quiet) | (with_reducible apply quiet_foldl_fst <;> intros)
                            | (with_reducible apply quiet_foldl_snd <;> intros) | (with_reducible apply quiet_foldl <;> intros) | split))
  all_goals (try simp)
  all_goals (repeat' (first | with_reducible rfl | (with_reducible apply ite_quiet) | (with_reducible apply quiet_foldl_fst <;> intros)
                            | (with_reducible apply quiet_foldl_snd <;> intros) | (with_reducible apply quiet_foldl <;> intros) | split))
  all_goals (try simp)

theorem execStackTemperatureReport_quiet (stack : Nat) (temp : Nat) (s : State) (t : State)
    (h : execStackTemperatureReport stack temp s = .next t) : t.quiet = s.quiet := by
  unfold execStackTemperatureReport at h
  injection h with h
  subst h
  try simp only []
  repeat' (first | with_reducible rfl | (with_reducible apply ite_quiet) | (with_reducible apply quiet_foldl_fst <;> intros)
                 | (with_reducible apply quiet_foldl_snd <;> intros) | (with_reducible apply quiet_foldl <;> intros) | split)
  all_goals (try simp only [apply_ite State.quiet, ite_self])
  all_goals (try simp)
  all_goals (repeat' (first | with_reducible rfl | (with_reducible apply ite_quiet) | (with_reducible apply quiet_foldl_fst <;> intros)
                            | (with_reducible apply quiet_foldl_snd <;> intros) | (with_reducible apply quiet_foldl <;> intros) | split))
  all_goals (try simp)
  all_goals (repeat' (first | with_reducible rfl | (with_reducible apply ite_quiet) | (with_reducible apply quiet_foldl_fst <;> intros)
                            | (with_reducible apply quiet_foldl_snd <;> intros) | (with_reducible apply quiet_foldl <;> intros) | split))
  all_goals (try simp)

@[simp] theorem State.correctedErr_quiet (s : State) (g : Nat) : (s.correctedErr g).quiet = s.quiet := by
  unfold State.correctedErr
  try simp only []
  repeat' (first | with_reducible rfl | (with_reducible apply ite_quiet) | (with_reducible apply quiet_foldl_fst <;> intros)
                 | (with_reducible apply quiet_foldl_snd <;> intros) | (with_reducible apply quiet_foldl <;> intros) | split)
  all_goals (try simp only [apply_ite State.quiet, ite_self])
  all_goals (try simp)
  all_goals (repeat' (first | with_reducible rfl | (with_reducible apply ite_quiet) | (with_reducible apply quiet_foldl_fst <;> intros)
                            | (with_reducible apply quiet_foldl_snd <;> intros) | (with_reducible apply quiet_foldl <;> intros) | split))
  all_goals (try simp)
  all_goals (repeat' (first | with_reducible rfl | (with_reducible apply ite_quiet) | (with_reducible apply quiet_foldl_fst <;> intros)
                            | (with_reducible apply quiet_foldl_snd <;> intros) | (with_reducible apply quiet_foldl <;> intros) | split))
  all_goals (try simp)

@[simp] theorem State.uncorrectableErr_quiet (s : State) (g addr : Nat) : (s.uncorrectableErr g addr).quiet = s.quiet := by
  unfold State.uncorrectableErr
  try simp only []
  repeat' (first | with_reducible rfl | (with_reducible apply ite_quiet) | (with_reducible apply quiet_foldl_fst <;> intros)
                 | (with_reducible apply quiet_foldl_snd <;> intros) | (with_reducible apply quiet_foldl <;> intros) | split)
  all_goals (try simp only [apply_ite State.quiet, ite_self])
  all_goals (try simp)
  all_goals (repeat' (first | with_reducible rfl | (with_reducible apply ite_quiet) | (with_reducible apply quiet_foldl_fst <;> intros)
                            | (with_reducible apply quiet_foldl_snd <;> intros) | (with_reducible apply quiet_foldl <;> intros) | split))
  all_goals (try simp)
  all_goals (repeat' (first | with_reducible rfl | (with_reducible apply ite_quiet) | (with_reducible apply quiet_foldl_fst <;> intros)
                            | (with_reducible apply quiet_foldl_snd <;> intros) | (with_reducible apply quiet_foldl <;> intros) | split))
  all_goals (try simp)

@[simp] theorem State.runFilled_quiet (s : State) (k addr : Nat) : (s.runFilled k addr).quiet = s.quiet := by
  unfold State.runFilled
  try simp only []
  repeat' (first | with_reducible rfl | (with_reducible apply ite_quiet) | (with_reducible apply quiet_foldl_fst <;> intros)
                 | (with_reducible apply quiet_foldl_snd <;> intros) | (with_reducible apply quiet_foldl <;> intros) | split)
  all_goals (try simp only [apply_ite State.quiet, ite_self])
  all_goals (try simp)
  all_goals (repeat' (first | with_reducible rfl | (with_reducible apply ite_quiet) | (with_reducible apply quiet_foldl_fst <;> intros)
                            | (with_reducible apply quiet_foldl_snd <;> intros) | (with_reducible apply quiet_foldl <;> intros) | split))
  all_goals (try simp)
  all_goals (repeat' (first | with_reducible rfl | (with_reducible apply ite_quiet) | (with_reducible apply quiet_foldl_fst <;> intros)
                            | (with_reducible apply quiet_foldl_snd <;> intros) | (with_reducible apply quiet_foldl <;> intros) | split))
  all_goals (try simp)

@[simp] theorem State.corruptUnit_quiet (s : State) (k : Nat) : (s.corruptUnit k).quiet = s.quiet := by
  unfold State.corruptUnit
  try simp only []
  repeat' (first | with_reducible rfl | (with_reducible apply ite_quiet) | (with_reducible apply quiet_foldl_fst <;> intros)
                 | (with_reducible apply quiet_foldl_snd <;> intros) | (with_reducible apply quiet_foldl <;> intros) | split)
  all_goals (try simp only [apply_ite State.quiet, ite_self])
  all_goals (try simp)
  all_goals (repeat' (first | with_reducible rfl | (with_reducible apply ite_quiet) | (with_reducible apply quiet_foldl_fst <;> intros)
                            | (with_reducible apply quiet_foldl_snd <;> intros) | (with_reducible apply quiet_foldl <;> intros) | split))
  all_goals (try simp)
  all_goals (repeat' (first | with_reducible rfl | (with_reducible apply ite_quiet) | (with_reducible apply quiet_foldl_fst <;> intros)
                            | (with_reducible apply quiet_foldl_snd <;> intros) | (with_reducible apply quiet_foldl <;> intros) | split))
  all_goals (try simp)

@[simp] theorem State.masterError_quiet (s : State) (m addr : Nat) : (s.masterError m addr).quiet = s.quiet := by
  unfold State.masterError
  try simp only []
  repeat' (first | with_reducible rfl | (with_reducible apply ite_quiet) | (with_reducible apply quiet_foldl_fst <;> intros)
                 | (with_reducible apply quiet_foldl_snd <;> intros) | (with_reducible apply quiet_foldl <;> intros) | split)
  all_goals (try simp only [apply_ite State.quiet, ite_self])
  all_goals (try simp)
  all_goals (repeat' (first | with_reducible rfl | (with_reducible apply ite_quiet) | (with_reducible apply quiet_foldl_fst <;> intros)
                            | (with_reducible apply quiet_foldl_snd <;> intros) | (with_reducible apply quiet_foldl <;> intros) | split))
  all_goals (try simp)
  all_goals (repeat' (first | with_reducible rfl | (with_reducible apply ite_quiet) | (with_reducible apply quiet_foldl_fst <;> intros)
                            | (with_reducible apply quiet_foldl_snd <;> intros) | (with_reducible apply quiet_foldl <;> intros) | split))
  all_goals (try simp)

@[simp] theorem State.respond_quiet (s : State) (a : GranAcc) (err : Bool) (data : List Byte) : (s.respond a err data).quiet = s.quiet := by
  unfold State.respond
  try simp only []
  repeat' (first | with_reducible rfl | (with_reducible apply ite_quiet) | (with_reducible apply quiet_foldl_fst <;> intros)
                 | (with_reducible apply quiet_foldl_snd <;> intros) | (with_reducible apply quiet_foldl <;> intros) | split)
  all_goals (try simp only [apply_ite State.quiet, ite_self])
  all_goals (try simp)
  all_goals (repeat' (first | with_reducible rfl | (with_reducible apply ite_quiet) | (with_reducible apply quiet_foldl_fst <;> intros)
                            | (with_reducible apply quiet_foldl_snd <;> intros) | (with_reducible apply quiet_foldl <;> intros) | split))
  all_goals (try simp)
  all_goals (repeat' (first | with_reducible rfl | (with_reducible apply ite_quiet) | (with_reducible apply quiet_foldl_fst <;> intros)
                            | (with_reducible apply quiet_foldl_snd <;> intros) | (with_reducible apply quiet_foldl <;> intros) | split))
  all_goals (try simp)

@[simp] theorem State.deliver_quiet (port : Nat) (l : List RetSlot) (s : State) : (s.deliver port l).quiet = s.quiet := by
  induction l generalizing s with
  | nil => rfl
  | cons x l ih => unfold State.deliver; split <;> simp [ih]

@[simp] theorem State.fillRet_quiet (s : State) (port id : Nat) (err : Bool) (data : List Byte) :
    (s.fillRet port id err data).quiet = s.quiet := by
  unfold State.fillRet
  try simp only []
  repeat' (first | with_reducible rfl | (with_reducible apply ite_quiet) | (with_reducible apply quiet_foldl_fst <;> intros)
                 | (with_reducible apply quiet_foldl_snd <;> intros) | (with_reducible apply quiet_foldl <;> intros) | split)
  all_goals (try simp only [apply_ite State.quiet, ite_self])
  all_goals (try simp)
  all_goals (repeat' (first | with_reducible rfl | (with_reducible apply ite_quiet) | (with_reducible apply quiet_foldl_fst <;> intros)
                            | (with_reducible apply quiet_foldl_snd <;> intros) | (with_reducible apply quiet_foldl <;> intros) | split))
  all_goals (try simp)
  all_goals (repeat' (first | with_reducible rfl | (with_reducible apply ite_quiet) | (with_reducible apply quiet_foldl_fst <;> intros)
                            | (with_reducible apply quiet_foldl_snd <;> intros) | (with_reducible apply quiet_foldl <;> intros) | split))
  all_goals (try simp)

@[simp] theorem State.openRet_quiet (s : State) (a : GranAcc) : (s.openRet a).2.quiet = s.quiet := by
  unfold State.openRet
  try simp only []
  repeat' (first | with_reducible rfl | (with_reducible apply ite_quiet) | (with_reducible apply quiet_foldl_fst <;> intros)
                 | (with_reducible apply quiet_foldl_snd <;> intros) | (with_reducible apply quiet_foldl <;> intros) | split)
  all_goals (try simp only [apply_ite State.quiet, ite_self])
  all_goals (try simp)
  all_goals (repeat' (first | with_reducible rfl | (with_reducible apply ite_quiet) | (with_reducible apply quiet_foldl_fst <;> intros)
                            | (with_reducible apply quiet_foldl_snd <;> intros) | (with_reducible apply quiet_foldl <;> intros) | split))
  all_goals (try simp)
  all_goals (repeat' (first | with_reducible rfl | (with_reducible apply ite_quiet) | (with_reducible apply quiet_foldl_fst <;> intros)
                            | (with_reducible apply quiet_foldl_snd <;> intros) | (with_reducible apply quiet_foldl <;> intros) | split))
  all_goals (try simp)

@[simp] theorem State.acceptAcc_quiet (s : State) (i : Nat) (a : GranAcc) : (s.acceptAcc i a).quiet = s.quiet := by
  unfold State.acceptAcc
  try simp only []
  repeat' (first | with_reducible rfl | (with_reducible apply ite_quiet) | (with_reducible apply quiet_foldl_fst <;> intros)
                 | (with_reducible apply quiet_foldl_snd <;> intros) | (with_reducible apply quiet_foldl <;> intros) | split)
  all_goals (try simp only [apply_ite State.quiet, ite_self])
  all_goals (try simp)
  all_goals (repeat' (first | with_reducible rfl | (with_reducible apply ite_quiet) | (with_reducible apply quiet_foldl_fst <;> intros)
                            | (with_reducible apply quiet_foldl_snd <;> intros) | (with_reducible apply quiet_foldl <;> intros) | split))
  all_goals (try simp)
  all_goals (repeat' (first | with_reducible rfl | (with_reducible apply ite_quiet) | (with_reducible apply quiet_foldl_fst <;> intros)
                            | (with_reducible apply quiet_foldl_snd <;> intros) | (with_reducible apply quiet_foldl <;> intros) | split))
  all_goals (try simp)

@[simp] theorem State.issueRead_quiet (s : State) (g : Nat) (q : QRead) (e : EccOut) : (s.issueRead g q e).quiet = s.quiet := by
  unfold State.issueRead
  try simp only []
  repeat' (first | with_reducible rfl | (with_reducible apply ite_quiet) | (with_reducible apply quiet_foldl_fst <;> intros)
                 | (with_reducible apply quiet_foldl_snd <;> intros) | (with_reducible apply quiet_foldl <;> intros) | split)
  all_goals (try simp only [apply_ite State.quiet, ite_self])
  all_goals (try simp)
  all_goals (repeat' (first | with_reducible rfl | (with_reducible apply ite_quiet) | (with_reducible apply quiet_foldl_fst <;> intros)
                            | (with_reducible apply quiet_foldl_snd <;> intros) | (with_reducible apply quiet_foldl <;> intros) | split))
  all_goals (try simp)
  all_goals (repeat' (first | with_reducible rfl | (with_reducible apply ite_quiet) | (with_reducible apply quiet_foldl_fst <;> intros)
                            | (with_reducible apply quiet_foldl_snd <;> intros) | (with_reducible apply quiet_foldl <;> intros) | split))
  all_goals (try simp)

@[simp] theorem State.issueWrite_quiet (s : State) (g : Nat) (a : GranAcc) (e : EccOut) : (s.issueWrite g a e).quiet = s.quiet := by
  unfold State.issueWrite
  try simp only []
  repeat' (first | with_reducible rfl | (with_reducible apply ite_quiet) | (with_reducible apply quiet_foldl_fst <;> intros)
                 | (with_reducible apply quiet_foldl_snd <;> intros) | (with_reducible apply quiet_foldl <;> intros) | split)
  all_goals (try simp only [apply_ite State.quiet, ite_self])
  all_goals (try simp)
  all_goals (repeat' (first | with_reducible rfl | (with_reducible apply ite_quiet) | (with_reducible apply quiet_foldl_fst <;> intros)
                            | (with_reducible apply quiet_foldl_snd <;> intros) | (with_reducible apply quiet_foldl <;> intros) | split))
  all_goals (try simp)
  all_goals (repeat' (first | with_reducible rfl | (with_reducible apply ite_quiet) | (with_reducible apply quiet_foldl_fst <;> intros)
                            | (with_reducible apply quiet_foldl_snd <;> intros) | (with_reducible apply quiet_foldl <;> intros) | split))
  all_goals (try simp)

@[simp] theorem State.holdAccess_quiet (s : State) (a : GranAcc) : (s.holdAccess a).quiet = s.quiet := by
  unfold State.holdAccess
  try simp only []
  repeat' (first | with_reducible rfl | (with_reducible apply ite_quiet) | (with_reducible apply quiet_foldl_fst <;> intros)
                 | (with_reducible apply quiet_foldl_snd <;> intros) | (with_reducible apply quiet_foldl <;> intros) | split)
  all_goals (try simp only [apply_ite State.quiet, ite_self])
  all_goals (try simp)
  all_goals (repeat' (first | with_reducible rfl | (with_reducible apply ite_quiet) | (with_reducible apply quiet_foldl_fst <;> intros)
                            | (with_reducible apply quiet_foldl_snd <;> intros) | (with_reducible apply quiet_foldl <;> intros) | split))
  all_goals (try simp)
  all_goals (repeat' (first | with_reducible rfl | (with_reducible apply ite_quiet) | (with_reducible apply quiet_foldl_fst <;> intros)
                            | (with_reducible apply quiet_foldl_snd <;> intros) | (with_reducible apply quiet_foldl <;> intros) | split))
  all_goals (try simp)

@[simp] theorem State.present_quiet (p : State × List Nat × List Nat) (a : GranAcc) :
    (State.present p a).1.quiet = p.1.quiet := by
  unfold State.present
  simp only []
  repeat' (first | with_reducible rfl | split)
  all_goals (try simp)

@[simp] theorem State.issuePos_quiet (l : List Nat) (p : State × List EccOut) (i : Nat) :
    (State.issuePos l p i).1.quiet = p.1.quiet := by
  unfold State.issuePos
  simp only []
  repeat' (first | with_reducible rfl | split)
  all_goals (try simp)

theorem execGranaryAccess_quiet (accs : List GranAcc) (e : EccOut) (s : State) (cyc : GranCyc) (t : State)
    (h : execGranaryAccess accs e s cyc = .next t) : t.quiet = s.quiet := by
  unfold execGranaryAccess at h
  injection h with h
  subst h
  try simp only []
  repeat' (first | with_reducible rfl | (with_reducible apply ite_quiet) | (with_reducible apply quiet_foldl_fst <;> intros)
                 | (with_reducible apply quiet_foldl_snd <;> intros) | (with_reducible apply quiet_foldl <;> intros) | split)
  all_goals (try simp only [apply_ite State.quiet, ite_self])
  all_goals (try simp)
  all_goals (repeat' (first | with_reducible rfl | (with_reducible apply ite_quiet) | (with_reducible apply quiet_foldl_fst <;> intros)
                            | (with_reducible apply quiet_foldl_snd <;> intros) | (with_reducible apply quiet_foldl <;> intros) | split))
  all_goals (try simp)
  all_goals (repeat' (first | with_reducible rfl | (with_reducible apply ite_quiet) | (with_reducible apply quiet_foldl_fst <;> intros)
                            | (with_reducible apply quiet_foldl_snd <;> intros) | (with_reducible apply quiet_foldl <;> intros) | split))
  all_goals (try simp)

theorem execScrubRead_quiet (addr : Nat) (e : EccOut) (passEnd : Bool) (s : State) (t : State)
    (h : execScrubRead addr e passEnd s = .next t) : t.quiet = s.quiet := by
  unfold execScrubRead at h
  injection h with h
  subst h
  try simp only []
  repeat' (first | with_reducible rfl | (with_reducible apply ite_quiet) | (with_reducible apply quiet_foldl_fst <;> intros)
                 | (with_reducible apply quiet_foldl_snd <;> intros) | (with_reducible apply quiet_foldl <;> intros) | split)
  all_goals (try simp only [apply_ite State.quiet, ite_self])
  all_goals (try simp)
  all_goals (repeat' (first | with_reducible rfl | (with_reducible apply ite_quiet) | (with_reducible apply quiet_foldl_fst <;> intros)
                            | (with_reducible apply quiet_foldl_snd <;> intros) | (with_reducible apply quiet_foldl <;> intros) | split))
  all_goals (try simp)
  all_goals (repeat' (first | with_reducible rfl | (with_reducible apply ite_quiet) | (with_reducible apply quiet_foldl_fst <;> intros)
                            | (with_reducible apply quiet_foldl_snd <;> intros) | (with_reducible apply quiet_foldl <;> intros) | split))
  all_goals (try simp)

@[simp] theorem State.beginDrain_quiet (s : State) (k t sp : Nat) : (s.beginDrain k t sp).quiet = s.quiet := by
  unfold State.beginDrain
  try simp only []
  repeat' (first | with_reducible rfl | (with_reducible apply ite_quiet) | (with_reducible apply quiet_foldl_fst <;> intros)
                 | (with_reducible apply quiet_foldl_snd <;> intros) | (with_reducible apply quiet_foldl <;> intros) | split)
  all_goals (try simp only [apply_ite State.quiet, ite_self])
  all_goals (try simp)
  all_goals (repeat' (first | with_reducible rfl | (with_reducible apply ite_quiet) | (with_reducible apply quiet_foldl_fst <;> intros)
                            | (with_reducible apply quiet_foldl_snd <;> intros) | (with_reducible apply quiet_foldl <;> intros) | split))
  all_goals (try simp)
  all_goals (repeat' (first | with_reducible rfl | (with_reducible apply ite_quiet) | (with_reducible apply quiet_foldl_fst <;> intros)
                            | (with_reducible apply quiet_foldl_snd <;> intros) | (with_reducible apply quiet_foldl <;> intros) | split))
  all_goals (try simp)

theorem execDrainStart_quiet (stack : Nat) (s : State) (t : State) (h : execDrainStart stack s = .next t) : t.quiet = s.quiet := by
  unfold execDrainStart at h
  injection h with h
  subst h
  try simp only []
  repeat' (first | with_reducible rfl | (with_reducible apply ite_quiet) | (with_reducible apply quiet_foldl_fst <;> intros)
                 | (with_reducible apply quiet_foldl_snd <;> intros) | (with_reducible apply quiet_foldl <;> intros) | split)
  all_goals (try simp only [apply_ite State.quiet, ite_self])
  all_goals (try simp)
  all_goals (repeat' (first | with_reducible rfl | (with_reducible apply ite_quiet) | (with_reducible apply quiet_foldl_fst <;> intros)
                            | (with_reducible apply quiet_foldl_snd <;> intros) | (with_reducible apply quiet_foldl <;> intros) | split))
  all_goals (try simp)
  all_goals (repeat' (first | with_reducible rfl | (with_reducible apply ite_quiet) | (with_reducible apply quiet_foldl_fst <;> intros)
                            | (with_reducible apply quiet_foldl_snd <;> intros) | (with_reducible apply quiet_foldl <;> intros) | split))
  all_goals (try simp)

theorem execTrainingGatherEnd_quiet (stack : Nat) (s : State) (t : State)
    (h : execTrainingGatherEnd stack s = .next t) : t.quiet = s.quiet := by
  unfold execTrainingGatherEnd at h
  injection h with h
  subst h
  try simp only []
  repeat' (first | with_reducible rfl | (with_reducible apply ite_quiet) | (with_reducible apply quiet_foldl_fst <;> intros)
                 | (with_reducible apply quiet_foldl_snd <;> intros) | (with_reducible apply quiet_foldl <;> intros) | split)
  all_goals (try simp only [apply_ite State.quiet, ite_self])
  all_goals (try simp)
  all_goals (repeat' (first | with_reducible rfl | (with_reducible apply ite_quiet) | (with_reducible apply quiet_foldl_fst <;> intros)
                            | (with_reducible apply quiet_foldl_snd <;> intros) | (with_reducible apply quiet_foldl <;> intros) | split))
  all_goals (try simp)
  all_goals (repeat' (first | with_reducible rfl | (with_reducible apply ite_quiet) | (with_reducible apply quiet_foldl_fst <;> intros)
                            | (with_reducible apply quiet_foldl_snd <;> intros) | (with_reducible apply quiet_foldl <;> intros) | split))
  all_goals (try simp)

@[simp] theorem State.checkFailed_quiet (s : State) (k : Nat) : (s.checkFailed k).quiet = s.quiet := by
  unfold State.checkFailed
  try simp only []
  repeat' (first | with_reducible rfl | (with_reducible apply ite_quiet) | (with_reducible apply quiet_foldl_fst <;> intros)
                 | (with_reducible apply quiet_foldl_snd <;> intros) | (with_reducible apply quiet_foldl <;> intros) | split)
  all_goals (try simp only [apply_ite State.quiet, ite_self])
  all_goals (try simp)
  all_goals (repeat' (first | with_reducible rfl | (with_reducible apply ite_quiet) | (with_reducible apply quiet_foldl_fst <;> intros)
                            | (with_reducible apply quiet_foldl_snd <;> intros) | (with_reducible apply quiet_foldl <;> intros) | split))
  all_goals (try simp)
  all_goals (repeat' (first | with_reducible rfl | (with_reducible apply ite_quiet) | (with_reducible apply quiet_foldl_fst <;> intros)
                            | (with_reducible apply quiet_foldl_snd <;> intros) | (with_reducible apply quiet_foldl <;> intros) | split))
  all_goals (try simp)

theorem execTrainingDone_quiet (stack : Nat) (ok : Bool) (s : State) (t : State)
    (h : execTrainingDone stack ok s = .next t) : t.quiet = s.quiet := by
  unfold execTrainingDone at h
  injection h with h
  subst h
  try simp only []
  repeat' (first | with_reducible rfl | (with_reducible apply ite_quiet) | (with_reducible apply quiet_foldl_fst <;> intros)
                 | (with_reducible apply quiet_foldl_snd <;> intros) | (with_reducible apply quiet_foldl <;> intros) | split)
  all_goals (try simp only [apply_ite State.quiet, ite_self])
  all_goals (try simp)
  all_goals (repeat' (first | with_reducible rfl | (with_reducible apply ite_quiet) | (with_reducible apply quiet_foldl_fst <;> intros)
                            | (with_reducible apply quiet_foldl_snd <;> intros) | (with_reducible apply quiet_foldl <;> intros) | split))
  all_goals (try simp)
  all_goals (repeat' (first | with_reducible rfl | (with_reducible apply ite_quiet) | (with_reducible apply quiet_foldl_fst <;> intros)
                            | (with_reducible apply quiet_foldl_snd <;> intros) | (with_reducible apply quiet_foldl <;> intros) | split))
  all_goals (try simp)

theorem execDrainSwap_quiet (stack : Nat) (s : State) (t : State) (h : execDrainSwap stack s = .next t) : t.quiet = s.quiet := by
  unfold execDrainSwap at h
  injection h with h
  subst h
  try simp only []
  repeat' (first | with_reducible rfl | (with_reducible apply ite_quiet) | (with_reducible apply quiet_foldl_fst <;> intros)
                 | (with_reducible apply quiet_foldl_snd <;> intros) | (with_reducible apply quiet_foldl <;> intros) | split)
  all_goals (try simp only [apply_ite State.quiet, ite_self])
  all_goals (try simp)
  all_goals (repeat' (first | with_reducible rfl | (with_reducible apply ite_quiet) | (with_reducible apply quiet_foldl_fst <;> intros)
                            | (with_reducible apply quiet_foldl_snd <;> intros) | (with_reducible apply quiet_foldl <;> intros) | split))
  all_goals (try simp)
  all_goals (repeat' (first | with_reducible rfl | (with_reducible apply ite_quiet) | (with_reducible apply quiet_foldl_fst <;> intros)
                            | (with_reducible apply quiet_foldl_snd <;> intros) | (with_reducible apply quiet_foldl <;> intros) | split))
  all_goals (try simp)

theorem execAbortDrain_quiet (stack : Nat) (s : State) (t : State) (h : execAbortDrain stack s = .next t) : t.quiet = s.quiet := by
  unfold execAbortDrain at h
  injection h with h
  subst h
  try simp only []
  repeat' (first | with_reducible rfl | (with_reducible apply ite_quiet) | (with_reducible apply quiet_foldl_fst <;> intros)
                 | (with_reducible apply quiet_foldl_snd <;> intros) | (with_reducible apply quiet_foldl <;> intros) | split)
  all_goals (try simp only [apply_ite State.quiet, ite_self])
  all_goals (try simp)
  all_goals (repeat' (first | with_reducible rfl | (with_reducible apply ite_quiet) | (with_reducible apply quiet_foldl_fst <;> intros)
                            | (with_reducible apply quiet_foldl_snd <;> intros) | (with_reducible apply quiet_foldl <;> intros) | split))
  all_goals (try simp)
  all_goals (repeat' (first | with_reducible rfl | (with_reducible apply ite_quiet) | (with_reducible apply quiet_foldl_fst <;> intros)
                            | (with_reducible apply quiet_foldl_snd <;> intros) | (with_reducible apply quiet_foldl <;> intros) | split))
  all_goals (try simp)

@[simp] theorem State.replacePc_quiet (s : State) (k g : Nat) : (s.replacePc k g).quiet = s.quiet := by
  unfold State.replacePc
  try simp only []
  repeat' (first | with_reducible rfl | (with_reducible apply ite_quiet) | (with_reducible apply quiet_foldl_fst <;> intros)
                 | (with_reducible apply quiet_foldl_snd <;> intros) | (with_reducible apply quiet_foldl <;> intros) | split)
  all_goals (try simp only [apply_ite State.quiet, ite_self])
  all_goals (try simp)
  all_goals (repeat' (first | with_reducible rfl | (with_reducible apply ite_quiet) | (with_reducible apply quiet_foldl_fst <;> intros)
                            | (with_reducible apply quiet_foldl_snd <;> intros) | (with_reducible apply quiet_foldl <;> intros) | split))
  all_goals (try simp)
  all_goals (repeat' (first | with_reducible rfl | (with_reducible apply ite_quiet) | (with_reducible apply quiet_foldl_fst <;> intros)
                            | (with_reducible apply quiet_foldl_snd <;> intros) | (with_reducible apply quiet_foldl <;> intros) | split))
  all_goals (try simp)

@[simp] theorem State.retrained_quiet (s : State) (k : Nat) (working : List Nat) : (s.retrained k working).quiet = s.quiet := by
  unfold State.retrained
  try simp only []
  repeat' (first | with_reducible rfl | (with_reducible apply ite_quiet) | (with_reducible apply quiet_foldl_fst <;> intros)
                 | (with_reducible apply quiet_foldl_snd <;> intros) | (with_reducible apply quiet_foldl <;> intros) | split)
  all_goals (try simp only [apply_ite State.quiet, ite_self])
  all_goals (try simp)
  all_goals (repeat' (first | with_reducible rfl | (with_reducible apply ite_quiet) | (with_reducible apply quiet_foldl_fst <;> intros)
                            | (with_reducible apply quiet_foldl_snd <;> intros) | (with_reducible apply quiet_foldl <;> intros) | split))
  all_goals (try simp)
  all_goals (repeat' (first | with_reducible rfl | (with_reducible apply ite_quiet) | (with_reducible apply quiet_foldl_fst <;> intros)
                            | (with_reducible apply quiet_foldl_snd <;> intros) | (with_reducible apply quiet_foldl <;> intros) | split))
  all_goals (try simp)

theorem execHbmResume_quiet (stack : Nat) (working : List Nat) (s : State) (t : State)
    (h : execHbmResume stack working s = .next t) : t.quiet = s.quiet := by
  unfold execHbmResume at h
  injection h with h
  subst h
  try simp only []
  repeat' (first | with_reducible rfl | (with_reducible apply ite_quiet) | (with_reducible apply quiet_foldl_fst <;> intros)
                 | (with_reducible apply quiet_foldl_snd <;> intros) | (with_reducible apply quiet_foldl <;> intros) | split)
  all_goals (try simp only [apply_ite State.quiet, ite_self])
  all_goals (try simp)
  all_goals (repeat' (first | with_reducible rfl | (with_reducible apply ite_quiet) | (with_reducible apply quiet_foldl_fst <;> intros)
                            | (with_reducible apply quiet_foldl_snd <;> intros) | (with_reducible apply quiet_foldl <;> intros) | split))
  all_goals (try simp)
  all_goals (repeat' (first | with_reducible rfl | (with_reducible apply ite_quiet) | (with_reducible apply quiet_foldl_fst <;> intros)
                            | (with_reducible apply quiet_foldl_snd <;> intros) | (with_reducible apply quiet_foldl <;> intros) | split))
  all_goals (try simp)

@[simp] theorem State.sqDoorbell_quiet (s : State) (tail : Nat) : (s.sqDoorbell tail).quiet = s.quiet := by
  unfold State.sqDoorbell
  try simp only []
  repeat' (first | with_reducible rfl | (with_reducible apply ite_quiet) | (with_reducible apply quiet_foldl_fst <;> intros)
                 | (with_reducible apply quiet_foldl_snd <;> intros) | (with_reducible apply quiet_foldl <;> intros) | split)
  all_goals (try simp only [apply_ite State.quiet, ite_self])
  all_goals (try simp)
  all_goals (repeat' (first | with_reducible rfl | (with_reducible apply ite_quiet) | (with_reducible apply quiet_foldl_fst <;> intros)
                            | (with_reducible apply quiet_foldl_snd <;> intros) | (with_reducible apply quiet_foldl <;> intros) | split))
  all_goals (try simp)
  all_goals (repeat' (first | with_reducible rfl | (with_reducible apply ite_quiet) | (with_reducible apply quiet_foldl_fst <;> intros)
                            | (with_reducible apply quiet_foldl_snd <;> intros) | (with_reducible apply quiet_foldl <;> intros) | split))
  all_goals (try simp)

@[simp] theorem State.cqDoorbell_quiet (s : State) (head : Nat) : (s.cqDoorbell head).quiet = s.quiet := by
  unfold State.cqDoorbell
  try simp only []
  repeat' (first | with_reducible rfl | (with_reducible apply ite_quiet) | (with_reducible apply quiet_foldl_fst <;> intros)
                 | (with_reducible apply quiet_foldl_snd <;> intros) | (with_reducible apply quiet_foldl <;> intros) | split)
  all_goals (try simp only [apply_ite State.quiet, ite_self])
  all_goals (try simp)
  all_goals (repeat' (first | with_reducible rfl | (with_reducible apply ite_quiet) | (with_reducible apply quiet_foldl_fst <;> intros)
                            | (with_reducible apply quiet_foldl_snd <;> intros) | (with_reducible apply quiet_foldl <;> intros) | split))
  all_goals (try simp)
  all_goals (repeat' (first | with_reducible rfl | (with_reducible apply ite_quiet) | (with_reducible apply quiet_foldl_fst <;> intros)
                            | (with_reducible apply quiet_foldl_snd <;> intros) | (with_reducible apply quiet_foldl <;> intros) | split))
  all_goals (try simp)

@[simp] theorem State.setLayout_quiet (s : State) (fenic : Bool) : (s.setLayout fenic).quiet = s.quiet := by
  unfold State.setLayout
  try simp only []
  repeat' (first | with_reducible rfl | (with_reducible apply ite_quiet) | (with_reducible apply quiet_foldl_fst <;> intros)
                 | (with_reducible apply quiet_foldl_snd <;> intros) | (with_reducible apply quiet_foldl <;> intros) | split)
  all_goals (try simp only [apply_ite State.quiet, ite_self])
  all_goals (try simp)
  all_goals (repeat' (first | with_reducible rfl | (with_reducible apply ite_quiet) | (with_reducible apply quiet_foldl_fst <;> intros)
                            | (with_reducible apply quiet_foldl_snd <;> intros) | (with_reducible apply quiet_foldl <;> intros) | split))
  all_goals (try simp)
  all_goals (repeat' (first | with_reducible rfl | (with_reducible apply ite_quiet) | (with_reducible apply quiet_foldl_fst <;> intros)
                            | (with_reducible apply quiet_foldl_snd <;> intros) | (with_reducible apply quiet_foldl <;> intros) | split))
  all_goals (try simp)

theorem execMbxSqDb_quiet (tail : Nat) (s : State) (t : State) (h : execMbxSqDb tail s = .next t) : t.quiet = s.quiet := by
  unfold execMbxSqDb at h
  injection h with h
  subst h
  try simp only []
  repeat' (first | with_reducible rfl | (with_reducible apply ite_quiet) | (with_reducible apply quiet_foldl_fst <;> intros)
                 | (with_reducible apply quiet_foldl_snd <;> intros) | (with_reducible apply quiet_foldl <;> intros) | split)
  all_goals (try simp only [apply_ite State.quiet, ite_self])
  all_goals (try simp)
  all_goals (repeat' (first | with_reducible rfl | (with_reducible apply ite_quiet) | (with_reducible apply quiet_foldl_fst <;> intros)
                            | (with_reducible apply quiet_foldl_snd <;> intros) | (with_reducible apply quiet_foldl <;> intros) | split))
  all_goals (try simp)
  all_goals (repeat' (first | with_reducible rfl | (with_reducible apply ite_quiet) | (with_reducible apply quiet_foldl_fst <;> intros)
                            | (with_reducible apply quiet_foldl_snd <;> intros) | (with_reducible apply quiet_foldl <;> intros) | split))
  all_goals (try simp)

theorem execMbxCqDb_quiet (head : Nat) (s : State) (t : State) (h : execMbxCqDb head s = .next t) : t.quiet = s.quiet := by
  unfold execMbxCqDb at h
  injection h with h
  subst h
  try simp only []
  repeat' (first | with_reducible rfl | (with_reducible apply ite_quiet) | (with_reducible apply quiet_foldl_fst <;> intros)
                 | (with_reducible apply quiet_foldl_snd <;> intros) | (with_reducible apply quiet_foldl <;> intros) | split)
  all_goals (try simp only [apply_ite State.quiet, ite_self])
  all_goals (try simp)
  all_goals (repeat' (first | with_reducible rfl | (with_reducible apply ite_quiet) | (with_reducible apply quiet_foldl_fst <;> intros)
                            | (with_reducible apply quiet_foldl_snd <;> intros) | (with_reducible apply quiet_foldl <;> intros) | split))
  all_goals (try simp)
  all_goals (repeat' (first | with_reducible rfl | (with_reducible apply ite_quiet) | (with_reducible apply quiet_foldl_fst <;> intros)
                            | (with_reducible apply quiet_foldl_snd <;> intros) | (with_reducible apply quiet_foldl <;> intros) | split))
  all_goals (try simp)

theorem execMbxCtrl_quiet (w : Word) (s : State) (t : State) (h : execMbxCtrl w s = .next t) : t.quiet = s.quiet := by
  unfold execMbxCtrl at h
  injection h with h
  subst h
  try simp only []
  repeat' (first | with_reducible rfl | (with_reducible apply ite_quiet) | (with_reducible apply quiet_foldl_fst <;> intros)
                 | (with_reducible apply quiet_foldl_snd <;> intros) | (with_reducible apply quiet_foldl <;> intros) | split)
  all_goals (try simp only [apply_ite State.quiet, ite_self])
  all_goals (try simp)
  all_goals (repeat' (first | with_reducible rfl | (with_reducible apply ite_quiet) | (with_reducible apply quiet_foldl_fst <;> intros)
                            | (with_reducible apply quiet_foldl_snd <;> intros) | (with_reducible apply quiet_foldl <;> intros) | split))
  all_goals (try simp)
  all_goals (repeat' (first | with_reducible rfl | (with_reducible apply ite_quiet) | (with_reducible apply quiet_foldl_fst <;> intros)
                            | (with_reducible apply quiet_foldl_snd <;> intros) | (with_reducible apply quiet_foldl <;> intros) | split))
  all_goals (try simp)

theorem execMbxAbort_quiet (tag : Nat) (s : State) (t : State) (h : execMbxAbort tag s = .next t) : t.quiet = s.quiet := by
  unfold execMbxAbort at h
  injection h with h
  subst h
  try simp only []
  repeat' (first | with_reducible rfl | (with_reducible apply ite_quiet) | (with_reducible apply quiet_foldl_fst <;> intros)
                 | (with_reducible apply quiet_foldl_snd <;> intros) | (with_reducible apply quiet_foldl <;> intros) | split)
  all_goals (try simp only [apply_ite State.quiet, ite_self])
  all_goals (try simp)
  all_goals (repeat' (first | with_reducible rfl | (with_reducible apply ite_quiet) | (with_reducible apply quiet_foldl_fst <;> intros)
                            | (with_reducible apply quiet_foldl_snd <;> intros) | (with_reducible apply quiet_foldl <;> intros) | split))
  all_goals (try simp)
  all_goals (repeat' (first | with_reducible rfl | (with_reducible apply ite_quiet) | (with_reducible apply quiet_foldl_fst <;> intros)
                            | (with_reducible apply quiet_foldl_snd <;> intros) | (with_reducible apply quiet_foldl <;> intros) | split))
  all_goals (try simp)

@[simp] theorem State.bar2Write_quiet (s : State) (o : Nat) (bs : List Byte) : (s.bar2Write o bs).quiet = s.quiet := by
  unfold State.bar2Write
  try simp only []
  repeat' (first | with_reducible rfl | (with_reducible apply ite_quiet) | (with_reducible apply quiet_foldl_fst <;> intros)
                 | (with_reducible apply quiet_foldl_snd <;> intros) | (with_reducible apply quiet_foldl <;> intros) | split)
  all_goals (try simp only [apply_ite State.quiet, ite_self])
  all_goals (try simp)
  all_goals (repeat' (first | with_reducible rfl | (with_reducible apply ite_quiet) | (with_reducible apply quiet_foldl_fst <;> intros)
                            | (with_reducible apply quiet_foldl_snd <;> intros) | (with_reducible apply quiet_foldl <;> intros) | split))
  all_goals (try simp)
  all_goals (repeat' (first | with_reducible rfl | (with_reducible apply ite_quiet) | (with_reducible apply quiet_foldl_fst <;> intros)
                            | (with_reducible apply quiet_foldl_snd <;> intros) | (with_reducible apply quiet_foldl <;> intros) | split))
  all_goals (try simp)

@[simp] theorem State.coresSpare_quiet (s : State) : (s.coresSpare).quiet = s.quiet := by
  unfold State.coresSpare
  try simp only []
  repeat' (first | with_reducible rfl | (with_reducible apply ite_quiet) | (with_reducible apply quiet_foldl_fst <;> intros)
                 | (with_reducible apply quiet_foldl_snd <;> intros) | (with_reducible apply quiet_foldl <;> intros) | split)
  all_goals (try simp only [apply_ite State.quiet, ite_self])
  all_goals (try simp)
  all_goals (repeat' (first | with_reducible rfl | (with_reducible apply ite_quiet) | (with_reducible apply quiet_foldl_fst <;> intros)
                            | (with_reducible apply quiet_foldl_snd <;> intros) | (with_reducible apply quiet_foldl <;> intros) | split))
  all_goals (try simp)
  all_goals (repeat' (first | with_reducible rfl | (with_reducible apply ite_quiet) | (with_reducible apply quiet_foldl_fst <;> intros)
                            | (with_reducible apply quiet_foldl_snd <;> intros) | (with_reducible apply quiet_foldl <;> intros) | split))
  all_goals (try simp)

@[simp] theorem State.leaveReset_quiet (s : State) : (s.leaveReset).quiet = s.quiet := by
  unfold State.leaveReset
  try simp only []
  repeat' (first | with_reducible rfl | (with_reducible apply ite_quiet) | (with_reducible apply quiet_foldl_fst <;> intros)
                 | (with_reducible apply quiet_foldl_snd <;> intros) | (with_reducible apply quiet_foldl <;> intros) | split)
  all_goals (try simp only [apply_ite State.quiet, ite_self])
  all_goals (try simp)
  all_goals (repeat' (first | with_reducible rfl | (with_reducible apply ite_quiet) | (with_reducible apply quiet_foldl_fst <;> intros)
                            | (with_reducible apply quiet_foldl_snd <;> intros) | (with_reducible apply quiet_foldl <;> intros) | split))
  all_goals (try simp)
  all_goals (repeat' (first | with_reducible rfl | (with_reducible apply ite_quiet) | (with_reducible apply quiet_foldl_fst <;> intros)
                            | (with_reducible apply quiet_foldl_snd <;> intros) | (with_reducible apply quiet_foldl <;> intros) | split))
  all_goals (try simp)

@[simp] theorem State.tryLeave_quiet (s : State) : (s.tryLeave).quiet = s.quiet := by
  unfold State.tryLeave
  try simp only []
  repeat' (first | with_reducible rfl | (with_reducible apply ite_quiet) | (with_reducible apply quiet_foldl_fst <;> intros)
                 | (with_reducible apply quiet_foldl_snd <;> intros) | (with_reducible apply quiet_foldl <;> intros) | split)
  all_goals (try simp only [apply_ite State.quiet, ite_self])
  all_goals (try simp)
  all_goals (repeat' (first | with_reducible rfl | (with_reducible apply ite_quiet) | (with_reducible apply quiet_foldl_fst <;> intros)
                            | (with_reducible apply quiet_foldl_snd <;> intros) | (with_reducible apply quiet_foldl <;> intros) | split))
  all_goals (try simp)
  all_goals (repeat' (first | with_reducible rfl | (with_reducible apply ite_quiet) | (with_reducible apply quiet_foldl_fst <;> intros)
                            | (with_reducible apply quiet_foldl_snd <;> intros) | (with_reducible apply quiet_foldl <;> intros) | split))
  all_goals (try simp)

@[simp] theorem State.cutLedger_quiet (s : State) : (s.cutLedger).quiet = s.quiet := by
  unfold State.cutLedger
  try simp only []
  repeat' (first | with_reducible rfl | (with_reducible apply ite_quiet) | (with_reducible apply quiet_foldl_fst <;> intros)
                 | (with_reducible apply quiet_foldl_snd <;> intros) | (with_reducible apply quiet_foldl <;> intros) | split)
  all_goals (try simp only [apply_ite State.quiet, ite_self])
  all_goals (try simp)
  all_goals (repeat' (first | with_reducible rfl | (with_reducible apply ite_quiet) | (with_reducible apply quiet_foldl_fst <;> intros)
                            | (with_reducible apply quiet_foldl_snd <;> intros) | (with_reducible apply quiet_foldl <;> intros) | split))
  all_goals (try simp)
  all_goals (repeat' (first | with_reducible rfl | (with_reducible apply ite_quiet) | (with_reducible apply quiet_foldl_fst <;> intros)
                            | (with_reducible apply quiet_foldl_snd <;> intros) | (with_reducible apply quiet_foldl <;> intros) | split))
  all_goals (try simp)

@[simp] theorem State.passes_quiet (s : State) (lowNs : Nat) : (s.passes lowNs).2.quiet = s.quiet := by
  unfold State.passes
  try simp only []
  repeat' (first | with_reducible rfl | (with_reducible apply ite_quiet) | (with_reducible apply quiet_foldl_fst <;> intros)
                 | (with_reducible apply quiet_foldl_snd <;> intros) | (with_reducible apply quiet_foldl <;> intros) | split)
  all_goals (try simp only [apply_ite State.quiet, ite_self])
  all_goals (try simp)
  all_goals (repeat' (first | with_reducible rfl | (with_reducible apply ite_quiet) | (with_reducible apply quiet_foldl_fst <;> intros)
                            | (with_reducible apply quiet_foldl_snd <;> intros) | (with_reducible apply quiet_foldl <;> intros) | split))
  all_goals (try simp)
  all_goals (repeat' (first | with_reducible rfl | (with_reducible apply ite_quiet) | (with_reducible apply quiet_foldl_fst <;> intros)
                            | (with_reducible apply quiet_foldl_snd <;> intros) | (with_reducible apply quiet_foldl <;> intros) | split))
  all_goals (try simp)

theorem execResetNRelease_quiet (compat : Bool) (s : State) (t : State) (h : execResetNRelease compat s = .next t) : t.quiet = s.quiet := by
  unfold execResetNRelease at h
  injection h with h
  subst h
  try simp only []
  repeat' (first | with_reducible rfl | (with_reducible apply ite_quiet) | (with_reducible apply quiet_foldl_fst <;> intros)
                 | (with_reducible apply quiet_foldl_snd <;> intros) | (with_reducible apply quiet_foldl <;> intros) | split)
  all_goals (try simp only [apply_ite State.quiet, ite_self])
  all_goals (try simp)
  all_goals (repeat' (first | with_reducible rfl | (with_reducible apply ite_quiet) | (with_reducible apply quiet_foldl_fst <;> intros)
                            | (with_reducible apply quiet_foldl_snd <;> intros) | (with_reducible apply quiet_foldl <;> intros) | split))
  all_goals (try simp)
  all_goals (repeat' (first | with_reducible rfl | (with_reducible apply ite_quiet) | (with_reducible apply quiet_foldl_fst <;> intros)
                            | (with_reducible apply quiet_foldl_snd <;> intros) | (with_reducible apply quiet_foldl <;> intros) | split))
  all_goals (try simp)

theorem execPerstNRelease_quiet (compat : Bool) (s : State) (t : State) (h : execPerstNRelease compat s = .next t) : t.quiet = s.quiet := by
  unfold execPerstNRelease at h
  injection h with h
  subst h
  try simp only []
  repeat' (first | with_reducible rfl | (with_reducible apply ite_quiet) | (with_reducible apply quiet_foldl_fst <;> intros)
                 | (with_reducible apply quiet_foldl_snd <;> intros) | (with_reducible apply quiet_foldl <;> intros) | split)
  all_goals (try simp only [apply_ite State.quiet, ite_self])
  all_goals (try simp)
  all_goals (repeat' (first | with_reducible rfl | (with_reducible apply ite_quiet) | (with_reducible apply quiet_foldl_fst <;> intros)
                            | (with_reducible apply quiet_foldl_snd <;> intros) | (with_reducible apply quiet_foldl <;> intros) | split))
  all_goals (try simp)
  all_goals (repeat' (first | with_reducible rfl | (with_reducible apply ite_quiet) | (with_reducible apply quiet_foldl_fst <;> intros)
                            | (with_reducible apply quiet_foldl_snd <;> intros) | (with_reducible apply quiet_foldl <;> intros) | split))
  all_goals (try simp)

theorem execRestartLeaveReset_quiet (compat : Bool) (s : State) (t : State)
    (h : execRestartLeaveReset compat s = .next t) : t.quiet = s.quiet := by
  unfold execRestartLeaveReset at h
  injection h with h
  subst h
  try simp only []
  repeat' (first | with_reducible rfl | (with_reducible apply ite_quiet) | (with_reducible apply quiet_foldl_fst <;> intros)
                 | (with_reducible apply quiet_foldl_snd <;> intros) | (with_reducible apply quiet_foldl <;> intros) | split)
  all_goals (try simp only [apply_ite State.quiet, ite_self])
  all_goals (try simp)
  all_goals (repeat' (first | with_reducible rfl | (with_reducible apply ite_quiet) | (with_reducible apply quiet_foldl_fst <;> intros)
                            | (with_reducible apply quiet_foldl_snd <;> intros) | (with_reducible apply quiet_foldl <;> intros) | split))
  all_goals (try simp)
  all_goals (repeat' (first | with_reducible rfl | (with_reducible apply ite_quiet) | (with_reducible apply quiet_foldl_fst <;> intros)
                            | (with_reducible apply quiet_foldl_snd <;> intros) | (with_reducible apply quiet_foldl <;> intros) | split))
  all_goals (try simp)

theorem execClkSysLoss_quiet (absentNs : Nat) (s : State) (t : State) (h : execClkSysLoss absentNs s = .next t) : t.quiet = s.quiet := by
  unfold execClkSysLoss at h
  injection h with h
  subst h
  try simp only []
  repeat' (first | with_reducible rfl | (with_reducible apply ite_quiet) | (with_reducible apply quiet_foldl_fst <;> intros)
                 | (with_reducible apply quiet_foldl_snd <;> intros) | (with_reducible apply quiet_foldl <;> intros) | split)
  all_goals (try simp only [apply_ite State.quiet, ite_self])
  all_goals (try simp)
  all_goals (repeat' (first | with_reducible rfl | (with_reducible apply ite_quiet) | (with_reducible apply quiet_foldl_fst <;> intros)
                            | (with_reducible apply quiet_foldl_snd <;> intros) | (with_reducible apply quiet_foldl <;> intros) | split))
  all_goals (try simp)
  all_goals (repeat' (first | with_reducible rfl | (with_reducible apply ite_quiet) | (with_reducible apply quiet_foldl_fst <;> intros)
                            | (with_reducible apply quiet_foldl_snd <;> intros) | (with_reducible apply quiet_foldl <;> intros) | split))
  all_goals (try simp)

theorem execEthRefclkLoss_quiet (absentNs : Nat) (s : State) (t : State)
    (h : execEthRefclkLoss absentNs s = .next t) : t.quiet = s.quiet := by
  unfold execEthRefclkLoss at h
  injection h with h
  subst h
  try simp only []
  repeat' (first | with_reducible rfl | (with_reducible apply ite_quiet) | (with_reducible apply quiet_foldl_fst <;> intros)
                 | (with_reducible apply quiet_foldl_snd <;> intros) | (with_reducible apply quiet_foldl <;> intros) | split)
  all_goals (try simp only [apply_ite State.quiet, ite_self])
  all_goals (try simp)
  all_goals (repeat' (first | with_reducible rfl | (with_reducible apply ite_quiet) | (with_reducible apply quiet_foldl_fst <;> intros)
                            | (with_reducible apply quiet_foldl_snd <;> intros) | (with_reducible apply quiet_foldl <;> intros) | split))
  all_goals (try simp)
  all_goals (repeat' (first | with_reducible rfl | (with_reducible apply ite_quiet) | (with_reducible apply quiet_foldl_fst <;> intros)
                            | (with_reducible apply quiet_foldl_snd <;> intros) | (with_reducible apply quiet_foldl <;> intros) | split))
  all_goals (try simp)

@[simp] theorem State.pcieDown_quiet (s : State) (link : Bool) : (s.pcieDown link).quiet = s.quiet := by
  unfold State.pcieDown
  try simp only []
  repeat' (first | with_reducible rfl | (with_reducible apply ite_quiet) | (with_reducible apply quiet_foldl_fst <;> intros)
                 | (with_reducible apply quiet_foldl_snd <;> intros) | (with_reducible apply quiet_foldl <;> intros) | split)
  all_goals (try simp only [apply_ite State.quiet, ite_self])
  all_goals (try simp)
  all_goals (repeat' (first | with_reducible rfl | (with_reducible apply ite_quiet) | (with_reducible apply quiet_foldl_fst <;> intros)
                            | (with_reducible apply quiet_foldl_snd <;> intros) | (with_reducible apply quiet_foldl <;> intros) | split))
  all_goals (try simp)
  all_goals (repeat' (first | with_reducible rfl | (with_reducible apply ite_quiet) | (with_reducible apply quiet_foldl_fst <;> intros)
                            | (with_reducible apply quiet_foldl_snd <;> intros) | (with_reducible apply quiet_foldl <;> intros) | split))
  all_goals (try simp)

@[simp] theorem State.linkDown_quiet (s : State) : (s.linkDown).quiet = s.quiet := by
  unfold State.linkDown
  try simp only []
  repeat' (first | with_reducible rfl | (with_reducible apply ite_quiet) | (with_reducible apply quiet_foldl_fst <;> intros)
                 | (with_reducible apply quiet_foldl_snd <;> intros) | (with_reducible apply quiet_foldl <;> intros) | split)
  all_goals (try simp only [apply_ite State.quiet, ite_self])
  all_goals (try simp)
  all_goals (repeat' (first | with_reducible rfl | (with_reducible apply ite_quiet) | (with_reducible apply quiet_foldl_fst <;> intros)
                            | (with_reducible apply quiet_foldl_snd <;> intros) | (with_reducible apply quiet_foldl <;> intros) | split))
  all_goals (try simp)
  all_goals (repeat' (first | with_reducible rfl | (with_reducible apply ite_quiet) | (with_reducible apply quiet_foldl_fst <;> intros)
                            | (with_reducible apply quiet_foldl_snd <;> intros) | (with_reducible apply quiet_foldl <;> intros) | split))
  all_goals (try simp)

theorem execPcieRefclkLoss_quiet (s : State) (t : State) (h : execPcieRefclkLoss s = .next t) : t.quiet = s.quiet := by
  unfold execPcieRefclkLoss at h
  injection h with h
  subst h
  try simp only []
  repeat' (first | with_reducible rfl | (with_reducible apply ite_quiet) | (with_reducible apply quiet_foldl_fst <;> intros)
                 | (with_reducible apply quiet_foldl_snd <;> intros) | (with_reducible apply quiet_foldl <;> intros) | split)
  all_goals (try simp only [apply_ite State.quiet, ite_self])
  all_goals (try simp)
  all_goals (repeat' (first | with_reducible rfl | (with_reducible apply ite_quiet) | (with_reducible apply quiet_foldl_fst <;> intros)
                            | (with_reducible apply quiet_foldl_snd <;> intros) | (with_reducible apply quiet_foldl <;> intros) | split))
  all_goals (try simp)
  all_goals (repeat' (first | with_reducible rfl | (with_reducible apply ite_quiet) | (with_reducible apply quiet_foldl_fst <;> intros)
                            | (with_reducible apply quiet_foldl_snd <;> intros) | (with_reducible apply quiet_foldl <;> intros) | split))
  all_goals (try simp)

theorem execPcieLinkDown_quiet (c : LinkDownCause) (s : State) (t : State) (h : execPcieLinkDown c s = .next t) : t.quiet = s.quiet := by
  unfold execPcieLinkDown at h
  injection h with h
  subst h
  try simp only []
  repeat' (first | with_reducible rfl | (with_reducible apply ite_quiet) | (with_reducible apply quiet_foldl_fst <;> intros)
                 | (with_reducible apply quiet_foldl_snd <;> intros) | (with_reducible apply quiet_foldl <;> intros) | split)
  all_goals (try simp only [apply_ite State.quiet, ite_self])
  all_goals (try simp)
  all_goals (repeat' (first | with_reducible rfl | (with_reducible apply ite_quiet) | (with_reducible apply quiet_foldl_fst <;> intros)
                            | (with_reducible apply quiet_foldl_snd <;> intros) | (with_reducible apply quiet_foldl <;> intros) | split))
  all_goals (try simp)
  all_goals (repeat' (first | with_reducible rfl | (with_reducible apply ite_quiet) | (with_reducible apply quiet_foldl_fst <;> intros)
                            | (with_reducible apply quiet_foldl_snd <;> intros) | (with_reducible apply quiet_foldl <;> intros) | split))
  all_goals (try simp)

theorem execPcieLinkUp_quiet (s : State) (t : State) (h : execPcieLinkUp s = .next t) : t.quiet = s.quiet := by
  unfold execPcieLinkUp at h
  injection h with h
  subst h
  try simp only []
  repeat' (first | with_reducible rfl | (with_reducible apply ite_quiet) | (with_reducible apply quiet_foldl_fst <;> intros)
                 | (with_reducible apply quiet_foldl_snd <;> intros) | (with_reducible apply quiet_foldl <;> intros) | split)
  all_goals (try simp only [apply_ite State.quiet, ite_self])
  all_goals (try simp)
  all_goals (repeat' (first | with_reducible rfl | (with_reducible apply ite_quiet) | (with_reducible apply quiet_foldl_fst <;> intros)
                            | (with_reducible apply quiet_foldl_snd <;> intros) | (with_reducible apply quiet_foldl <;> intros) | split))
  all_goals (try simp)
  all_goals (repeat' (first | with_reducible rfl | (with_reducible apply ite_quiet) | (with_reducible apply quiet_foldl_fst <;> intros)
                            | (with_reducible apply quiet_foldl_snd <;> intros) | (with_reducible apply quiet_foldl <;> intros) | split))
  all_goals (try simp)

@[simp] theorem State.configure_quiet (s : State) (r : CfgReq) : (s.configure r).quiet = s.quiet := by
  unfold State.configure
  try simp only []
  repeat' (first | with_reducible rfl | (with_reducible apply ite_quiet) | (with_reducible apply quiet_foldl_fst <;> intros)
                 | (with_reducible apply quiet_foldl_snd <;> intros) | (with_reducible apply quiet_foldl <;> intros) | split)
  all_goals (try simp only [apply_ite State.quiet, ite_self])
  all_goals (try simp)
  all_goals (repeat' (first | with_reducible rfl | (with_reducible apply ite_quiet) | (with_reducible apply quiet_foldl_fst <;> intros)
                            | (with_reducible apply quiet_foldl_snd <;> intros) | (with_reducible apply quiet_foldl <;> intros) | split))
  all_goals (try simp)
  all_goals (repeat' (first | with_reducible rfl | (with_reducible apply ite_quiet) | (with_reducible apply quiet_foldl_fst <;> intros)
                            | (with_reducible apply quiet_foldl_snd <;> intros) | (with_reducible apply quiet_foldl <;> intros) | split))
  all_goals (try simp)

theorem execConfigurationRequest_quiet (r : CfgReq) (s : State) (t : State)
    (h : execConfigurationRequest r s = .next t) : t.quiet = s.quiet := by
  unfold execConfigurationRequest at h
  injection h with h
  subst h
  try simp only []
  repeat' (first | with_reducible rfl | (with_reducible apply ite_quiet) | (with_reducible apply quiet_foldl_fst <;> intros)
                 | (with_reducible apply quiet_foldl_snd <;> intros) | (with_reducible apply quiet_foldl <;> intros) | split)
  all_goals (try simp only [apply_ite State.quiet, ite_self])
  all_goals (try simp)
  all_goals (repeat' (first | with_reducible rfl | (with_reducible apply ite_quiet) | (with_reducible apply quiet_foldl_fst <;> intros)
                            | (with_reducible apply quiet_foldl_snd <;> intros) | (with_reducible apply quiet_foldl <;> intros) | split))
  all_goals (try simp)
  all_goals (repeat' (first | with_reducible rfl | (with_reducible apply ite_quiet) | (with_reducible apply quiet_foldl_fst <;> intros)
                            | (with_reducible apply quiet_foldl_snd <;> intros) | (with_reducible apply quiet_foldl <;> intros) | split))
  all_goals (try simp)

@[simp] theorem State.spadUeFrom_quiet (s : State) (p : Nat) (core : Option Nat) : (s.spadUeFrom p core).quiet = s.quiet := by
  unfold State.spadUeFrom
  try simp only []
  repeat' (first | with_reducible rfl | (with_reducible apply ite_quiet) | (with_reducible apply quiet_foldl_fst <;> intros)
                 | (with_reducible apply quiet_foldl_snd <;> intros) | (with_reducible apply quiet_foldl <;> intros) | split)
  all_goals (try simp only [apply_ite State.quiet, ite_self])
  all_goals (try simp)
  all_goals (repeat' (first | with_reducible rfl | (with_reducible apply ite_quiet) | (with_reducible apply quiet_foldl_fst <;> intros)
                            | (with_reducible apply quiet_foldl_snd <;> intros) | (with_reducible apply quiet_foldl <;> intros) | split))
  all_goals (try simp)
  all_goals (repeat' (first | with_reducible rfl | (with_reducible apply ite_quiet) | (with_reducible apply quiet_foldl_fst <;> intros)
                            | (with_reducible apply quiet_foldl_snd <;> intros) | (with_reducible apply quiet_foldl <;> intros) | split))
  all_goals (try simp)

@[simp] theorem State.fabRead_quiet (s : State) (r : FabReq) (a : Nat) : (s.fabRead r a).quiet = s.quiet := by
  unfold State.fabRead
  try simp only []
  repeat' (first | with_reducible rfl | (with_reducible apply ite_quiet) | (with_reducible apply quiet_foldl_fst <;> intros)
                 | (with_reducible apply quiet_foldl_snd <;> intros) | (with_reducible apply quiet_foldl <;> intros) | split)
  all_goals (try simp only [apply_ite State.quiet, ite_self])
  all_goals (try simp)
  all_goals (repeat' (first | with_reducible rfl | (with_reducible apply ite_quiet) | (with_reducible apply quiet_foldl_fst <;> intros)
                            | (with_reducible apply quiet_foldl_snd <;> intros) | (with_reducible apply quiet_foldl <;> intros) | split))
  all_goals (try simp)
  all_goals (repeat' (first | with_reducible rfl | (with_reducible apply ite_quiet) | (with_reducible apply quiet_foldl_fst <;> intros)
                            | (with_reducible apply quiet_foldl_snd <;> intros) | (with_reducible apply quiet_foldl <;> intros) | split))
  all_goals (try simp)

@[simp] theorem State.fabPerform_quiet (s : State) (r : FabReq) : (s.fabPerform r).quiet = s.quiet := by
  unfold State.fabPerform
  try simp only []
  repeat' (first | with_reducible rfl | (with_reducible apply ite_quiet) | (with_reducible apply quiet_foldl_fst <;> intros)
                 | (with_reducible apply quiet_foldl_snd <;> intros) | (with_reducible apply quiet_foldl <;> intros) | split)
  all_goals (try simp only [apply_ite State.quiet, ite_self])
  all_goals (try simp)
  all_goals (repeat' (first | with_reducible rfl | (with_reducible apply ite_quiet) | (with_reducible apply quiet_foldl_fst <;> intros)
                            | (with_reducible apply quiet_foldl_snd <;> intros) | (with_reducible apply quiet_foldl <;> intros) | split))
  all_goals (try simp)
  all_goals (repeat' (first | with_reducible rfl | (with_reducible apply ite_quiet) | (with_reducible apply quiet_foldl_fst <;> intros)
                            | (with_reducible apply quiet_foldl_snd <;> intros) | (with_reducible apply quiet_foldl <;> intros) | split))
  all_goals (try simp)

@[simp] theorem State.freezeUnit_quiet (s : State) (m : Nat) : (s.freezeUnit m).quiet = s.quiet := by
  unfold State.freezeUnit
  try simp only []
  repeat' (first | with_reducible rfl | (with_reducible apply ite_quiet) | (with_reducible apply quiet_foldl_fst <;> intros)
                 | (with_reducible apply quiet_foldl_snd <;> intros) | (with_reducible apply quiet_foldl <;> intros) | split)
  all_goals (try simp only [apply_ite State.quiet, ite_self])
  all_goals (try simp)
  all_goals (repeat' (first | with_reducible rfl | (with_reducible apply ite_quiet) | (with_reducible apply quiet_foldl_fst <;> intros)
                            | (with_reducible apply quiet_foldl_snd <;> intros) | (with_reducible apply quiet_foldl <;> intros) | split))
  all_goals (try simp)
  all_goals (repeat' (first | with_reducible rfl | (with_reducible apply ite_quiet) | (with_reducible apply quiet_foldl_fst <;> intros)
                            | (with_reducible apply quiet_foldl_snd <;> intros) | (with_reducible apply quiet_foldl <;> intros) | split))
  all_goals (try simp)

@[simp] theorem State.fabBar2_quiet (s : State) (r : FabReq) : (s.fabBar2 r).quiet = s.quiet := by
  unfold State.fabBar2
  try simp only []
  repeat' (first | with_reducible rfl | (with_reducible apply ite_quiet) | (with_reducible apply quiet_foldl_fst <;> intros)
                 | (with_reducible apply quiet_foldl_snd <;> intros) | (with_reducible apply quiet_foldl <;> intros) | split)
  all_goals (try simp only [apply_ite State.quiet, ite_self])
  all_goals (try simp)
  all_goals (repeat' (first | with_reducible rfl | (with_reducible apply ite_quiet) | (with_reducible apply quiet_foldl_fst <;> intros)
                            | (with_reducible apply quiet_foldl_snd <;> intros) | (with_reducible apply quiet_foldl <;> intros) | split))
  all_goals (try simp)
  all_goals (repeat' (first | with_reducible rfl | (with_reducible apply ite_quiet) | (with_reducible apply quiet_foldl_fst <;> intros)
                            | (with_reducible apply quiet_foldl_snd <;> intros) | (with_reducible apply quiet_foldl <;> intros) | split))
  all_goals (try simp)

@[simp] theorem State.fabOne_quiet (a : State × List (Nat × Nat)) (r : FabReq) : (State.fabOne a r).1.quiet = a.1.quiet := by
  unfold State.fabOne
  repeat' (first | with_reducible rfl | split)
  all_goals (try simp)

@[simp] theorem State.fabViolations_quiet (s : State) (bad : List (Nat × Nat)) : (s.fabViolations bad).quiet = s.quiet := by
  unfold State.fabViolations
  try simp only []
  repeat' (first | with_reducible rfl | (with_reducible apply ite_quiet) | (with_reducible apply quiet_foldl_fst <;> intros)
                 | (with_reducible apply quiet_foldl_snd <;> intros) | (with_reducible apply quiet_foldl <;> intros) | split)
  all_goals (try simp only [apply_ite State.quiet, ite_self])
  all_goals (try simp)
  all_goals (repeat' (first | with_reducible rfl | (with_reducible apply ite_quiet) | (with_reducible apply quiet_foldl_fst <;> intros)
                            | (with_reducible apply quiet_foldl_snd <;> intros) | (with_reducible apply quiet_foldl <;> intros) | split))
  all_goals (try simp)
  all_goals (repeat' (first | with_reducible rfl | (with_reducible apply ite_quiet) | (with_reducible apply quiet_foldl_fst <;> intros)
                            | (with_reducible apply quiet_foldl_snd <;> intros) | (with_reducible apply quiet_foldl <;> intros) | split))
  all_goals (try simp)

theorem execFabricTransaction_quiet (reqs : List FabReq) (s : State) (t : State)
    (h : execFabricTransaction reqs s = .next t) : t.quiet = s.quiet := by
  unfold execFabricTransaction at h
  injection h with h
  subst h
  try simp only []
  repeat' (first | with_reducible rfl | (with_reducible apply ite_quiet) | (with_reducible apply quiet_foldl_fst <;> intros)
                 | (with_reducible apply quiet_foldl_snd <;> intros) | (with_reducible apply quiet_foldl <;> intros) | split)
  all_goals (try simp only [apply_ite State.quiet, ite_self])
  all_goals (try simp)
  all_goals (repeat' (first | with_reducible rfl | (with_reducible apply ite_quiet) | (with_reducible apply quiet_foldl_fst <;> intros)
                            | (with_reducible apply quiet_foldl_snd <;> intros) | (with_reducible apply quiet_foldl <;> intros) | split))
  all_goals (try simp)
  all_goals (repeat' (first | with_reducible rfl | (with_reducible apply ite_quiet) | (with_reducible apply quiet_foldl_fst <;> intros)
                            | (with_reducible apply quiet_foldl_snd <;> intros) | (with_reducible apply quiet_foldl <;> intros) | split))
  all_goals (try simp)

@[simp] theorem State.fabDiscard_quiet (s : State) (m : Nat) : (s.fabDiscard m).quiet = s.quiet := by
  unfold State.fabDiscard
  try simp only []
  repeat' (first | with_reducible rfl | (with_reducible apply ite_quiet) | (with_reducible apply quiet_foldl_fst <;> intros)
                 | (with_reducible apply quiet_foldl_snd <;> intros) | (with_reducible apply quiet_foldl <;> intros) | split)
  all_goals (try simp only [apply_ite State.quiet, ite_self])
  all_goals (try simp)
  all_goals (repeat' (first | with_reducible rfl | (with_reducible apply ite_quiet) | (with_reducible apply quiet_foldl_fst <;> intros)
                            | (with_reducible apply quiet_foldl_snd <;> intros) | (with_reducible apply quiet_foldl <;> intros) | split))
  all_goals (try simp)
  all_goals (repeat' (first | with_reducible rfl | (with_reducible apply ite_quiet) | (with_reducible apply quiet_foldl_fst <;> intros)
                            | (with_reducible apply quiet_foldl_snd <;> intros) | (with_reducible apply quiet_foldl <;> intros) | split))
  all_goals (try simp)

theorem execFabUnfreeze_quiet (m : Nat) (s : State) (t : State) (h : execFabUnfreeze m s = .next t) : t.quiet = s.quiet := by
  unfold execFabUnfreeze at h
  injection h with h
  subst h
  try simp only []
  repeat' (first | with_reducible rfl | (with_reducible apply ite_quiet) | (with_reducible apply quiet_foldl_fst <;> intros)
                 | (with_reducible apply quiet_foldl_snd <;> intros) | (with_reducible apply quiet_foldl <;> intros) | split)
  all_goals (try simp only [apply_ite State.quiet, ite_self])
  all_goals (try simp)
  all_goals (repeat' (first | with_reducible rfl | (with_reducible apply ite_quiet) | (with_reducible apply quiet_foldl_fst <;> intros)
                            | (with_reducible apply quiet_foldl_snd <;> intros) | (with_reducible apply quiet_foldl <;> intros) | split))
  all_goals (try simp)
  all_goals (repeat' (first | with_reducible rfl | (with_reducible apply ite_quiet) | (with_reducible apply quiet_foldl_fst <;> intros)
                            | (with_reducible apply quiet_foldl_snd <;> intros) | (with_reducible apply quiet_foldl <;> intros) | split))
  all_goals (try simp)

theorem execFabLock_quiet (s : State) (t : State) (h : execFabLock s = .next t) : t.quiet = s.quiet := by
  unfold execFabLock at h
  injection h with h
  subst h
  try simp only []
  repeat' (first | with_reducible rfl | (with_reducible apply ite_quiet) | (with_reducible apply quiet_foldl_fst <;> intros)
                 | (with_reducible apply quiet_foldl_snd <;> intros) | (with_reducible apply quiet_foldl <;> intros) | split)
  all_goals (try simp only [apply_ite State.quiet, ite_self])
  all_goals (try simp)
  all_goals (repeat' (first | with_reducible rfl | (with_reducible apply ite_quiet) | (with_reducible apply quiet_foldl_fst <;> intros)
                            | (with_reducible apply quiet_foldl_snd <;> intros) | (with_reducible apply quiet_foldl <;> intros) | split))
  all_goals (try simp)
  all_goals (repeat' (first | with_reducible rfl | (with_reducible apply ite_quiet) | (with_reducible apply quiet_foldl_fst <;> intros)
                            | (with_reducible apply quiet_foldl_snd <;> intros) | (with_reducible apply quiet_foldl <;> intros) | split))
  all_goals (try simp)

@[simp] theorem State.bindEnc_quiet (s : State) (l k : Nat) : (s.bindEnc l k).quiet = s.quiet := by
  unfold State.bindEnc
  try simp only []
  repeat' (first | with_reducible rfl | (with_reducible apply ite_quiet) | (with_reducible apply quiet_foldl_fst <;> intros)
                 | (with_reducible apply quiet_foldl_snd <;> intros) | (with_reducible apply quiet_foldl <;> intros) | split)
  all_goals (try simp only [apply_ite State.quiet, ite_self])
  all_goals (try simp)
  all_goals (repeat' (first | with_reducible rfl | (with_reducible apply ite_quiet) | (with_reducible apply quiet_foldl_fst <;> intros)
                            | (with_reducible apply quiet_foldl_snd <;> intros) | (with_reducible apply quiet_foldl <;> intros) | split))
  all_goals (try simp)
  all_goals (repeat' (first | with_reducible rfl | (with_reducible apply ite_quiet) | (with_reducible apply quiet_foldl_fst <;> intros)
                            | (with_reducible apply quiet_foldl_snd <;> intros) | (with_reducible apply quiet_foldl <;> intros) | split))
  all_goals (try simp)

@[simp] theorem State.bindDec_quiet (s : State) (l k : Nat) : (s.bindDec l k).quiet = s.quiet := by
  unfold State.bindDec
  try simp only []
  repeat' (first | with_reducible rfl | (with_reducible apply ite_quiet) | (with_reducible apply quiet_foldl_fst <;> intros)
                 | (with_reducible apply quiet_foldl_snd <;> intros) | (with_reducible apply quiet_foldl <;> intros) | split)
  all_goals (try simp only [apply_ite State.quiet, ite_self])
  all_goals (try simp)
  all_goals (repeat' (first | with_reducible rfl | (with_reducible apply ite_quiet) | (with_reducible apply quiet_foldl_fst <;> intros)
                            | (with_reducible apply quiet_foldl_snd <;> intros) | (with_reducible apply quiet_foldl <;> intros) | split))
  all_goals (try simp)
  all_goals (repeat' (first | with_reducible rfl | (with_reducible apply ite_quiet) | (with_reducible apply quiet_foldl_fst <;> intros)
                            | (with_reducible apply quiet_foldl_snd <;> intros) | (with_reducible apply quiet_foldl <;> intros) | split))
  all_goals (try simp)

@[simp] theorem State.admitEnc_quiet (s : State) (l k : Nat) (err : BitVec 64) (failed : Bool) :
    (s.admitEnc l k err failed).quiet = s.quiet := by
  unfold State.admitEnc
  try simp only []
  repeat' (first | with_reducible rfl | (with_reducible apply ite_quiet) | (with_reducible apply quiet_foldl_fst <;> intros)
                 | (with_reducible apply quiet_foldl_snd <;> intros) | (with_reducible apply quiet_foldl <;> intros) | split)
  all_goals (try simp only [apply_ite State.quiet, ite_self])
  all_goals (try simp)
  all_goals (repeat' (first | with_reducible rfl | (with_reducible apply ite_quiet) | (with_reducible apply quiet_foldl_fst <;> intros)
                            | (with_reducible apply quiet_foldl_snd <;> intros) | (with_reducible apply quiet_foldl <;> intros) | split))
  all_goals (try simp)
  all_goals (repeat' (first | with_reducible rfl | (with_reducible apply ite_quiet) | (with_reducible apply quiet_foldl_fst <;> intros)
                            | (with_reducible apply quiet_foldl_snd <;> intros) | (with_reducible apply quiet_foldl <;> intros) | split))
  all_goals (try simp)

@[simp] theorem State.admitDec_quiet (s : State) (l k : Nat) (err : BitVec 64) (failed : Bool) :
    (s.admitDec l k err failed).quiet = s.quiet := by
  unfold State.admitDec
  try simp only []
  repeat' (first | with_reducible rfl | (with_reducible apply ite_quiet) | (with_reducible apply quiet_foldl_fst <;> intros)
                 | (with_reducible apply quiet_foldl_snd <;> intros) | (with_reducible apply quiet_foldl <;> intros) | split)
  all_goals (try simp only [apply_ite State.quiet, ite_self])
  all_goals (try simp)
  all_goals (repeat' (first | with_reducible rfl | (with_reducible apply ite_quiet) | (with_reducible apply quiet_foldl_fst <;> intros)
                            | (with_reducible apply quiet_foldl_snd <;> intros) | (with_reducible apply quiet_foldl <;> intros) | split))
  all_goals (try simp)
  all_goals (repeat' (first | with_reducible rfl | (with_reducible apply ite_quiet) | (with_reducible apply quiet_foldl_fst <;> intros)
                            | (with_reducible apply quiet_foldl_snd <;> intros) | (with_reducible apply quiet_foldl <;> intros) | split))
  all_goals (try simp)

theorem execSpareAdmissionDone_quiet (decode : Bool) (lane : Nat) (err : BitVec 64) (failed : Bool) (s : State) (t : State)
    (h : execSpareAdmissionDone decode lane err failed s = .next t) : t.quiet = s.quiet := by
  unfold execSpareAdmissionDone at h
  injection h with h
  subst h
  try simp only []
  repeat' (first | with_reducible rfl | (with_reducible apply ite_quiet) | (with_reducible apply quiet_foldl_fst <;> intros)
                 | (with_reducible apply quiet_foldl_snd <;> intros) | (with_reducible apply quiet_foldl <;> intros) | split)
  all_goals (try simp only [apply_ite State.quiet, ite_self])
  all_goals (try simp)
  all_goals (repeat' (first | with_reducible rfl | (with_reducible apply ite_quiet) | (with_reducible apply quiet_foldl_fst <;> intros)
                            | (with_reducible apply quiet_foldl_snd <;> intros) | (with_reducible apply quiet_foldl <;> intros) | split))
  all_goals (try simp)
  all_goals (repeat' (first | with_reducible rfl | (with_reducible apply ite_quiet) | (with_reducible apply quiet_foldl_fst <;> intros)
                            | (with_reducible apply quiet_foldl_snd <;> intros) | (with_reducible apply quiet_foldl <;> intros) | split))
  all_goals (try simp)

theorem execLaneRebind_quiet (decode : Bool) (lane : Nat) (s : State) (t : State)
    (h : execLaneRebind decode lane s = .next t) : t.quiet = s.quiet := by
  unfold execLaneRebind at h
  injection h with h
  subst h
  try simp only []
  repeat' (first | with_reducible rfl | (with_reducible apply ite_quiet) | (with_reducible apply quiet_foldl_fst <;> intros)
                 | (with_reducible apply quiet_foldl_snd <;> intros) | (with_reducible apply quiet_foldl <;> intros) | split)
  all_goals (try simp only [apply_ite State.quiet, ite_self])
  all_goals (try simp)
  all_goals (repeat' (first | with_reducible rfl | (with_reducible apply ite_quiet) | (with_reducible apply quiet_foldl_fst <;> intros)
                            | (with_reducible apply quiet_foldl_snd <;> intros) | (with_reducible apply quiet_foldl <;> intros) | split))
  all_goals (try simp)
  all_goals (repeat' (first | with_reducible rfl | (with_reducible apply ite_quiet) | (with_reducible apply quiet_foldl_fst <;> intros)
                            | (with_reducible apply quiet_foldl_snd <;> intros) | (with_reducible apply quiet_foldl <;> intros) | split))
  all_goals (try simp)

theorem execStewardTakeover_quiet (core : Nat) (s : State) (t : State) (h : execStewardTakeover core s = .next t) : t.quiet = s.quiet := by
  unfold execStewardTakeover at h
  injection h with h
  subst h
  try simp only []
  repeat' (first | with_reducible rfl | (with_reducible apply ite_quiet) | (with_reducible apply quiet_foldl_fst <;> intros)
                 | (with_reducible apply quiet_foldl_snd <;> intros) | (with_reducible apply quiet_foldl <;> intros) | split)
  all_goals (try simp only [apply_ite State.quiet, ite_self])
  all_goals (try simp)
  all_goals (repeat' (first | with_reducible rfl | (with_reducible apply ite_quiet) | (with_reducible apply quiet_foldl_fst <;> intros)
                            | (with_reducible apply quiet_foldl_snd <;> intros) | (with_reducible apply quiet_foldl <;> intros) | split))
  all_goals (try simp)
  all_goals (repeat' (first | with_reducible rfl | (with_reducible apply ite_quiet) | (with_reducible apply quiet_foldl_fst <;> intros)
                            | (with_reducible apply quiet_foldl_snd <;> intros) | (with_reducible apply quiet_foldl <;> intros) | split))
  all_goals (try simp)

theorem execStwWatchdog_quiet (core : Nat) (s : State) (t : State) (h : execStwWatchdog core s = .next t) : t.quiet = s.quiet := by
  unfold execStwWatchdog at h
  injection h with h
  subst h
  try simp only []
  repeat' (first | with_reducible rfl | (with_reducible apply ite_quiet) | (with_reducible apply quiet_foldl_fst <;> intros)
                 | (with_reducible apply quiet_foldl_snd <;> intros) | (with_reducible apply quiet_foldl <;> intros) | split)
  all_goals (try simp only [apply_ite State.quiet, ite_self])
  all_goals (try simp)
  all_goals (repeat' (first | with_reducible rfl | (with_reducible apply ite_quiet) | (with_reducible apply quiet_foldl_fst <;> intros)
                            | (with_reducible apply quiet_foldl_snd <;> intros) | (with_reducible apply quiet_foldl <;> intros) | split))
  all_goals (try simp)
  all_goals (repeat' (first | with_reducible rfl | (with_reducible apply ite_quiet) | (with_reducible apply quiet_foldl_fst <;> intros)
                            | (with_reducible apply quiet_foldl_snd <;> intros) | (with_reducible apply quiet_foldl <;> intros) | split))
  all_goals (try simp)

theorem execStewardCoreWfi_quiet (core : Nat) (s : State) (t : State) (h : execStewardCoreWfi core s = .next t) : t.quiet = s.quiet := by
  unfold execStewardCoreWfi at h
  injection h with h
  subst h
  try simp only []
  repeat' (first | with_reducible rfl | (with_reducible apply ite_quiet) | (with_reducible apply quiet_foldl_fst <;> intros)
                 | (with_reducible apply quiet_foldl_snd <;> intros) | (with_reducible apply quiet_foldl <;> intros) | split)
  all_goals (try simp only [apply_ite State.quiet, ite_self])
  all_goals (try simp)
  all_goals (repeat' (first | with_reducible rfl | (with_reducible apply ite_quiet) | (with_reducible apply quiet_foldl_fst <;> intros)
                            | (with_reducible apply quiet_foldl_snd <;> intros) | (with_reducible apply quiet_foldl <;> intros) | split))
  all_goals (try simp)
  all_goals (repeat' (first | with_reducible rfl | (with_reducible apply ite_quiet) | (with_reducible apply quiet_foldl_fst <;> intros)
                            | (with_reducible apply quiet_foldl_snd <;> intros) | (with_reducible apply quiet_foldl <;> intros) | split))
  all_goals (try simp)

theorem execStewardLoad_quiet (s : State) (t : State) (h : execStewardLoad s = .next t) : t.quiet = s.quiet := by
  unfold execStewardLoad at h
  injection h with h
  subst h
  try simp only []
  repeat' (first | with_reducible rfl | (with_reducible apply ite_quiet) | (with_reducible apply quiet_foldl_fst <;> intros)
                 | (with_reducible apply quiet_foldl_snd <;> intros) | (with_reducible apply quiet_foldl <;> intros) | split)
  all_goals (try simp only [apply_ite State.quiet, ite_self])
  all_goals (try simp)
  all_goals (repeat' (first | with_reducible rfl | (with_reducible apply ite_quiet) | (with_reducible apply quiet_foldl_fst <;> intros)
                            | (with_reducible apply quiet_foldl_snd <;> intros) | (with_reducible apply quiet_foldl <;> intros) | split))
  all_goals (try simp)
  all_goals (repeat' (first | with_reducible rfl | (with_reducible apply ite_quiet) | (with_reducible apply quiet_foldl_fst <;> intros)
                            | (with_reducible apply quiet_foldl_snd <;> intros) | (with_reducible apply quiet_foldl <;> intros) | split))
  all_goals (try simp)

@[simp] theorem State.retryEnc_quiet (s : State) : (s.retryEnc).quiet = s.quiet := by
  unfold State.retryEnc
  try simp only []
  repeat' (first | with_reducible rfl | (with_reducible apply ite_quiet) | (with_reducible apply quiet_foldl_fst <;> intros)
                 | (with_reducible apply quiet_foldl_snd <;> intros) | (with_reducible apply quiet_foldl <;> intros) | split)
  all_goals (try simp only [apply_ite State.quiet, ite_self])
  all_goals (try simp)
  all_goals (repeat' (first | with_reducible rfl | (with_reducible apply ite_quiet) | (with_reducible apply quiet_foldl_fst <;> intros)
                            | (with_reducible apply quiet_foldl_snd <;> intros) | (with_reducible apply quiet_foldl <;> intros) | split))
  all_goals (try simp)
  all_goals (repeat' (first | with_reducible rfl | (with_reducible apply ite_quiet) | (with_reducible apply quiet_foldl_fst <;> intros)
                            | (with_reducible apply quiet_foldl_snd <;> intros) | (with_reducible apply quiet_foldl <;> intros) | split))
  all_goals (try simp)

@[simp] theorem State.retryDec_quiet (s : State) : (s.retryDec).quiet = s.quiet := by
  unfold State.retryDec
  try simp only []
  repeat' (first | with_reducible rfl | (with_reducible apply ite_quiet) | (with_reducible apply quiet_foldl_fst <;> intros)
                 | (with_reducible apply quiet_foldl_snd <;> intros) | (with_reducible apply quiet_foldl <;> intros) | split)
  all_goals (try simp only [apply_ite State.quiet, ite_self])
  all_goals (try simp)
  all_goals (repeat' (first | with_reducible rfl | (with_reducible apply ite_quiet) | (with_reducible apply quiet_foldl_fst <;> intros)
                            | (with_reducible apply quiet_foldl_snd <;> intros) | (with_reducible apply quiet_foldl <;> intros) | split))
  all_goals (try simp)
  all_goals (repeat' (first | with_reducible rfl | (with_reducible apply ite_quiet) | (with_reducible apply quiet_foldl_fst <;> intros)
                            | (with_reducible apply quiet_foldl_snd <;> intros) | (with_reducible apply quiet_foldl <;> intros) | split))
  all_goals (try simp)

@[simp] theorem State.retryDma_quiet (s : State) (n : Nat) : (s.retryDma n).quiet = s.quiet := by
  unfold State.retryDma
  try simp only []
  repeat' (first | with_reducible rfl | (with_reducible apply ite_quiet) | (with_reducible apply quiet_foldl_fst <;> intros)
                 | (with_reducible apply quiet_foldl_snd <;> intros) | (with_reducible apply quiet_foldl <;> intros) | split)
  all_goals (try simp only [apply_ite State.quiet, ite_self])
  all_goals (try simp)
  all_goals (repeat' (first | with_reducible rfl | (with_reducible apply ite_quiet) | (with_reducible apply quiet_foldl_fst <;> intros)
                            | (with_reducible apply quiet_foldl_snd <;> intros) | (with_reducible apply quiet_foldl <;> intros) | split))
  all_goals (try simp)
  all_goals (repeat' (first | with_reducible rfl | (with_reducible apply ite_quiet) | (with_reducible apply quiet_foldl_fst <;> intros)
                            | (with_reducible apply quiet_foldl_snd <;> intros) | (with_reducible apply quiet_foldl <;> intros) | split))
  all_goals (try simp)

@[simp] theorem State.testPassed_quiet (s : State) (u : Nat) : (s.testPassed u).quiet = s.quiet := by
  unfold State.testPassed
  try simp only []
  repeat' (first | with_reducible rfl | (with_reducible apply ite_quiet) | (with_reducible apply quiet_foldl_fst <;> intros)
                 | (with_reducible apply quiet_foldl_snd <;> intros) | (with_reducible apply quiet_foldl <;> intros) | split)
  all_goals (try simp only [apply_ite State.quiet, ite_self])
  all_goals (try simp)
  all_goals (repeat' (first | with_reducible rfl | (with_reducible apply ite_quiet) | (with_reducible apply quiet_foldl_fst <;> intros)
                            | (with_reducible apply quiet_foldl_snd <;> intros) | (with_reducible apply quiet_foldl <;> intros) | split))
  all_goals (try simp)
  all_goals (repeat' (first | with_reducible rfl | (with_reducible apply ite_quiet) | (with_reducible apply quiet_foldl_fst <;> intros)
                            | (with_reducible apply quiet_foldl_snd <;> intros) | (with_reducible apply quiet_foldl <;> intros) | split))
  all_goals (try simp)

@[simp] theorem State.testResults_quiet (s : State) (u : Nat) (err : BitVec 64) : (s.testResults u err).2.quiet = s.quiet := by
  unfold State.testResults
  try simp only []
  repeat' (first | with_reducible rfl | (with_reducible apply ite_quiet) | (with_reducible apply quiet_foldl_fst <;> intros)
                 | (with_reducible apply quiet_foldl_snd <;> intros) | (with_reducible apply quiet_foldl <;> intros) | split)
  all_goals (try simp only [apply_ite State.quiet, ite_self])
  all_goals (try simp)
  all_goals (repeat' (first | with_reducible rfl | (with_reducible apply ite_quiet) | (with_reducible apply quiet_foldl_fst <;> intros)
                            | (with_reducible apply quiet_foldl_snd <;> intros) | (with_reducible apply quiet_foldl <;> intros) | split))
  all_goals (try simp)
  all_goals (repeat' (first | with_reducible rfl | (with_reducible apply ite_quiet) | (with_reducible apply quiet_foldl_fst <;> intros)
                            | (with_reducible apply quiet_foldl_snd <;> intros) | (with_reducible apply quiet_foldl <;> intros) | split))
  all_goals (try simp)

theorem execQuarantineTestEnd_quiet (unit : Nat) (passed : Bool) (s : State) (err : BitVec 64) (t : State)
    (h : execQuarantineTestEnd unit passed s err = .next t) : t.quiet = s.quiet := by
  unfold execQuarantineTestEnd at h
  injection h with h
  subst h
  try simp only []
  repeat' (first | with_reducible rfl | (with_reducible apply ite_quiet) | (with_reducible apply quiet_foldl_fst <;> intros)
                 | (with_reducible apply quiet_foldl_snd <;> intros) | (with_reducible apply quiet_foldl <;> intros) | split)
  all_goals (try simp only [apply_ite State.quiet, ite_self])
  all_goals (try simp)
  all_goals (repeat' (first | with_reducible rfl | (with_reducible apply ite_quiet) | (with_reducible apply quiet_foldl_fst <;> intros)
                            | (with_reducible apply quiet_foldl_snd <;> intros) | (with_reducible apply quiet_foldl <;> intros) | split))
  all_goals (try simp)
  all_goals (repeat' (first | with_reducible rfl | (with_reducible apply ite_quiet) | (with_reducible apply quiet_foldl_fst <;> intros)
                            | (with_reducible apply quiet_foldl_snd <;> intros) | (with_reducible apply quiet_foldl <;> intros) | split))
  all_goals (try simp)

end Sys2Proof.Machine
end

