-- ==== Sys2Proof/Laws/QuietHost.lean ====
section
/-!
SUPPORT. One lemma per operation: the quiet part of the state is as before. This file: the host, the control and the power side.
-/

namespace Sys2Proof.Machine

set_option linter.unusedTactic false
set_option linter.unreachableTactic false
set_option linter.unusedSimpArgs false

theorem execPowerOnHour_quiet (tj : Nat) (writeOk : Bool) (s : State) (t : State)
    (h : execPowerOnHour tj writeOk s = .next t) : t.quiet = s.quiet := by
  unfold execPowerOnHour at h
  injection h with h
  subst h
  try simp only []
  repeat' (first | with_reducible rfl | (with_reducible apply ite_quiet) | (with_reducible apply quiet_foldl_fst <;> intros)
                 | (with_reducible apply quiet_foldl_snd <;> intros) | (with_reducible apply quiet_foldl <;> intros) | split)
  all_goals (try simp only [apply_ite State.quiet, ite_self])
  all_goals (try simp)
  all_goals (repeat' (first | with_reducible rfl | (with_reducible apply ite_quiet) | (with_reducible apply quiet_foldl_fst <;> intros)
                            | (with_reducible apply quiet_foldl_snd <;> intros) | (with_reducible apply quiet_foldl <;> intros) | split))
  all_goals (try simp)
  all_goals (repeat' (first | with_reducible rfl | (with_reducible apply ite_quiet) | (with_reducible apply quiet_foldl_fst <;> intros)
                            | (with_reducible apply quiet_foldl_snd <;> intros) | (with_reducible apply quiet_foldl <;> intros) | split))
  all_goals (try simp)

@[simp] theorem State.loadFails_quiet (s : State) : (s.loadFails).quiet = s.quiet := by
  unfold State.loadFails
  try simp only []
  repeat' (first | with_reducible rfl | (with_reducible apply ite_quiet) | (with_reducible apply quiet_foldl_fst <;> intros)
                 | (with_reducible apply quiet_foldl_snd <;> intros) | (with_reducible apply quiet_foldl <;> intros) | split)
  all_goals (try simp only [apply_ite State.quiet, ite_self])
  all_goals (try simp)
  all_goals (repeat' (first | with_reducible rfl | (with_reducible apply ite_quiet) | (with_reducible apply quiet_foldl_fst <;> intros)
                            | (with_reducible apply quiet_foldl_snd <;> intros) | (with_reducible apply quiet_foldl <;> intros) | split))
  all_goals (try simp)
  all_goals (repeat' (first | with_reducible rfl | (with_reducible apply ite_quiet) | (with_reducible apply quiet_foldl_fst <;> intros)
                            | (with_reducible apply quiet_foldl_snd <;> intros) | (with_reducible apply quiet_foldl <;> intros) | split))
  all_goals (try simp)

@[simp] theorem State.slotResult_quiet (s : State) (slot r : Nat) : (s.slotResult slot r).quiet = s.quiet := by
  unfold State.slotResult
  try simp only []
  repeat' (first | with_reducible rfl | (with_reducible apply ite_quiet) | (with_reducible apply quiet_foldl_fst <;> intros)
                 | (with_reducible apply quiet_foldl_snd <;> intros) | (with_reducible apply quiet_foldl <;> intros) | split)
  all_goals (try simp only [apply_ite State.quiet, ite_self])
  all_goals (try simp)
  all_goals (repeat' (first | with_reducible rfl | (with_reducible apply ite_quiet) | (with_reducible apply quiet_foldl_fst <;> intros)
                            | (with_reducible apply quiet_foldl_snd <;> intros) | (with_reducible apply quiet_foldl <;> intros) | split))
  all_goals (try simp)
  all_goals (repeat' (first | with_reducible rfl | (with_reducible apply ite_quiet) | (with_reducible apply quiet_foldl_fst <;> intros)
                            | (with_reducible apply quiet_foldl_snd <;> intros) | (with_reducible apply quiet_foldl <;> intros) | split))
  all_goals (try simp)

@[simp] theorem State.imageFreqs_quiet (s : State) (fs : List Nat) : (s.imageFreqs fs).quiet = s.quiet := by
  unfold State.imageFreqs
  try simp only []
  repeat' (first | with_reducible rfl | (with_reducible apply ite_quiet) | (with_reducible apply quiet_foldl_fst <;> intros)
                 | (with_reducible apply quiet_foldl_snd <;> intros) | (with_reducible apply quiet_foldl <;> intros) | split)
  all_goals (try simp only [apply_ite State.quiet, ite_self])
  all_goals (try simp)
  all_goals (repeat' (first | with_reducible rfl | (with_reducible apply ite_quiet) | (with_reducible apply quiet_foldl_fst <;> intros)
                            | (with_reducible apply quiet_foldl_snd <;> intros) | (with_reducible apply quiet_foldl <;> intros) | split))
  all_goals (try simp)
  all_goals (repeat' (first | with_reducible rfl | (with_reducible apply ite_quiet) | (with_reducible apply quiet_foldl_fst <;> intros)
                            | (with_reducible apply quiet_foldl_snd <;> intros) | (with_reducible apply quiet_foldl <;> intros) | split))
  all_goals (try simp)

@[simp] theorem State.installLevels_quiet (s : State) (ls : List Nat) : (s.installLevels ls).quiet = s.quiet := by
  unfold State.installLevels
  try simp only []
  repeat' (first | with_reducible rfl | (with_reducible apply ite_quiet) | (with_reducible apply quiet_foldl_fst <;> intros)
                 | (with_reducible apply quiet_foldl_snd <;> intros) | (with_reducible apply quiet_foldl <;> intros) | split)
  all_goals (try simp only [apply_ite State.quiet, ite_self])
  all_goals (try simp)
  all_goals (repeat' (first | with_reducible rfl | (with_reducible apply ite_quiet) | (with_reducible apply quiet_foldl_fst <;> intros)
                            | (with_reducible apply quiet_foldl_snd <;> intros) | (with_reducible apply quiet_foldl <;> intros) | split))
  all_goals (try simp)
  all_goals (repeat' (first | with_reducible rfl | (with_reducible apply ite_quiet) | (with_reducible apply quiet_foldl_fst <;> intros)
                            | (with_reducible apply quiet_foldl_snd <;> intros) | (with_reducible apply quiet_foldl <;> intros) | split))
  all_goals (try simp)

@[simp] theorem State.imageRegs_quiet (s : State) (i : Img) : (s.imageRegs i).quiet = s.quiet := by
  unfold State.imageRegs
  try simp only []
  repeat' (first | with_reducible rfl | (with_reducible apply ite_quiet) | (with_reducible apply quiet_foldl_fst <;> intros)
                 | (with_reducible apply quiet_foldl_snd <;> intros) | (with_reducible apply quiet_foldl <;> intros) | split)
  all_goals (try simp only [apply_ite State.quiet, ite_self])
  all_goals (try simp)
  all_goals (repeat' (first | with_reducible rfl | (with_reducible apply ite_quiet) | (with_reducible apply quiet_foldl_fst <;> intros)
                            | (with_reducible apply quiet_foldl_snd <;> intros) | (with_reducible apply quiet_foldl <;> intros) | split))
  all_goals (try simp)
  all_goals (repeat' (first | with_reducible rfl | (with_reducible apply ite_quiet) | (with_reducible apply quiet_foldl_fst <;> intros)
                            | (with_reducible apply quiet_foldl_snd <;> intros) | (with_reducible apply quiet_foldl <;> intros) | split))
  all_goals (try simp)

@[simp] theorem State.startTime_quiet (s : State) : (s.startTime).quiet = s.quiet := by
  unfold State.startTime
  try simp only []
  repeat' (first | with_reducible rfl | (with_reducible apply ite_quiet) | (with_reducible apply quiet_foldl_fst <;> intros)
                 | (with_reducible apply quiet_foldl_snd <;> intros) | (with_reducible apply quiet_foldl <;> intros) | split)
  all_goals (try simp only [apply_ite State.quiet, ite_self])
  all_goals (try simp)
  all_goals (repeat' (first | with_reducible rfl | (with_reducible apply ite_quiet) | (with_reducible apply quiet_foldl_fst <;> intros)
                            | (with_reducible apply quiet_foldl_snd <;> intros) | (with_reducible apply quiet_foldl <;> intros) | split))
  all_goals (try simp)
  all_goals (repeat' (first | with_reducible rfl | (with_reducible apply ite_quiet) | (with_reducible apply quiet_foldl_fst <;> intros)
                            | (with_reducible apply quiet_foldl_snd <;> intros) | (with_reducible apply quiet_foldl <;> intros) | split))
  all_goals (try simp)

@[simp] theorem State.drawKeys_quiet (s : State) : (s.drawKeys).quiet = s.quiet := by
  unfold State.drawKeys
  try simp only []
  repeat' (first | with_reducible rfl | (with_reducible apply ite_quiet) | (with_reducible apply quiet_foldl_fst <;> intros)
                 | (with_reducible apply quiet_foldl_snd <;> intros) | (with_reducible apply quiet_foldl <;> intros) | split)
  all_goals (try simp only [apply_ite State.quiet, ite_self])
  all_goals (try simp)
  all_goals (repeat' (first | with_reducible rfl | (with_reducible apply ite_quiet) | (with_reducible apply quiet_foldl_fst <;> intros)
                            | (with_reducible apply quiet_foldl_snd <;> intros) | (with_reducible apply quiet_foldl <;> intros) | split))
  all_goals (try simp)
  all_goals (repeat' (first | with_reducible rfl | (with_reducible apply ite_quiet) | (with_reducible apply quiet_foldl_fst <;> intros)
                            | (with_reducible apply quiet_foldl_snd <;> intros) | (with_reducible apply quiet_foldl <;> intros) | split))
  all_goals (try simp)

@[simp] theorem State.spanWrite_quiet (l : List (Nat × Nat)) (bs : List Byte) (s : State) :
    (State.spanWrite l bs s).quiet = s.quiet := by
  induction l generalizing bs s with
  | nil => simp [State.spanWrite]
  | cons a l ih => unfold State.spanWrite; simp [ih]

@[simp] theorem State.stageSlot_quiet (s : State) (slot : Nat) : (s.stageSlot slot).quiet = s.quiet := by
  unfold State.stageSlot
  try simp only []
  repeat' (first | with_reducible rfl | (with_reducible apply ite_quiet) | (with_reducible apply quiet_foldl_fst <;> intros)
                 | (with_reducible apply quiet_foldl_snd <;> intros) | (with_reducible apply quiet_foldl <;> intros) | split)
  all_goals (try simp only [apply_ite State.quiet, ite_self])
  all_goals (try simp)
  all_goals (repeat' (first | with_reducible rfl | (with_reducible apply ite_quiet) | (with_reducible apply quiet_foldl_fst <;> intros)
                            | (with_reducible apply quiet_foldl_snd <;> intros) | (with_reducible apply quiet_foldl <;> intros) | split))
  all_goals (try simp)
  all_goals (repeat' (first | with_reducible rfl | (with_reducible apply ite_quiet) | (with_reducible apply quiet_foldl_fst <;> intros)
                            | (with_reducible apply quiet_foldl_snd <;> intros) | (with_reducible apply quiet_foldl <;> intros) | split))
  all_goals (try simp)

@[simp] theorem State.discardStage_quiet (s : State) : (s.discardStage).quiet = s.quiet := by
  unfold State.discardStage
  try simp only []
  repeat' (first | with_reducible rfl | (with_reducible apply ite_quiet) | (with_reducible apply quiet_foldl_fst <;> intros)
                 | (with_reducible apply quiet_foldl_snd <;> intros) | (with_reducible apply quiet_foldl <;> intros) | split)
  all_goals (try simp only [apply_ite State.quiet, ite_self])
  all_goals (try simp)
  all_goals (repeat' (first | with_reducible rfl | (with_reducible apply ite_quiet) | (with_reducible apply quiet_foldl_fst <;> intros)
                            | (with_reducible apply quiet_foldl_snd <;> intros) | (with_reducible apply quiet_foldl <;> intros) | split))
  all_goals (try simp)
  all_goals (repeat' (first | with_reducible rfl | (with_reducible apply ite_quiet) | (with_reducible apply quiet_foldl_fst <;> intros)
                            | (with_reducible apply quiet_foldl_snd <;> intros) | (with_reducible apply quiet_foldl <;> intros) | split))
  all_goals (try simp)

@[simp] theorem State.stackServes_quiet (s : State) (k : Nat) : (s.stackServes k).quiet = s.quiet := by
  unfold State.stackServes
  try simp only []
  repeat' (first | with_reducible rfl | (with_reducible apply ite_quiet) | (with_reducible apply quiet_foldl_fst <;> intros)
                 | (with_reducible apply quiet_foldl_snd <;> intros) | (with_reducible apply quiet_foldl <;> intros) | split)
  all_goals (try simp only [apply_ite State.quiet, ite_self])
  all_goals (try simp)
  all_goals (repeat' (first | with_reducible rfl | (with_reducible apply ite_quiet) | (with_reducible apply quiet_foldl_fst <;> intros)
                            | (with_reducible apply quiet_foldl_snd <;> intros) | (with_reducible apply quiet_foldl <;> intros) | split))
  all_goals (try simp)
  all_goals (repeat' (first | with_reducible rfl | (with_reducible apply ite_quiet) | (with_reducible apply quiet_foldl_fst <;> intros)
                            | (with_reducible apply quiet_foldl_snd <;> intros) | (with_reducible apply quiet_foldl <;> intros) | split))
  all_goals (try simp)

theorem execHbmTrainingComplete_quiet (working : List Nat) (s : State) (t : State)
    (h : execHbmTrainingComplete working s = .next t) : t.quiet = s.quiet := by
  unfold execHbmTrainingComplete at h
  injection h with h
  subst h
  try simp only []
  repeat' (first | with_reducible rfl | (with_reducible apply ite_quiet) | (with_reducible apply quiet_foldl_fst <;> intros)
                 | (with_reducible apply quiet_foldl_snd <;> intros) | (with_reducible apply quiet_foldl <;> intros) | split)
  all_goals (try simp only [apply_ite State.quiet, ite_self])
  all_goals (try simp)
  all_goals (repeat' (first | with_reducible rfl | (with_reducible apply ite_quiet) | (with_reducible apply quiet_foldl_fst <;> intros)
                            | (with_reducible apply quiet_foldl_snd <;> intros) | (with_reducible apply quiet_foldl <;> intros) | split))
  all_goals (try simp)
  all_goals (repeat' (first | with_reducible rfl | (with_reducible apply ite_quiet) | (with_reducible apply quiet_foldl_fst <;> intros)
                            | (with_reducible apply quiet_foldl_snd <;> intros) | (with_reducible apply quiet_foldl <;> intros) | split))
  all_goals (try simp)

@[simp] theorem State.copySections_quiet (s : State) : (s.copySections).quiet = s.quiet := by
  unfold State.copySections
  try simp only []
  repeat' (first | with_reducible rfl | (with_reducible apply ite_quiet) | (with_reducible apply quiet_foldl_fst <;> intros)
                 | (with_reducible apply quiet_foldl_snd <;> intros) | (with_reducible apply quiet_foldl <;> intros) | split)
  all_goals (try simp only [apply_ite State.quiet, ite_self])
  all_goals (try simp)
  all_goals (repeat' (first | with_reducible rfl | (with_reducible apply ite_quiet) | (with_reducible apply quiet_foldl_fst <;> intros)
                            | (with_reducible apply quiet_foldl_snd <;> intros) | (with_reducible apply quiet_foldl <;> intros) | split))
  all_goals (try simp)
  all_goals (repeat' (first | with_reducible rfl | (with_reducible apply ite_quiet) | (with_reducible apply quiet_foldl_fst <;> intros)
                            | (with_reducible apply quiet_foldl_snd <;> intros) | (with_reducible apply quiet_foldl <;> intros) | split))
  all_goals (try simp)

theorem execImageSectionsCopied_quiet (s : State) (t : State) (h : execImageSectionsCopied s = .next t) : t.quiet = s.quiet := by
  unfold execImageSectionsCopied at h
  injection h with h
  subst h
  try simp only []
  repeat' (first | with_reducible rfl | (with_reducible apply ite_quiet) | (with_reducible apply quiet_foldl_fst <;> intros)
                 | (with_reducible apply quiet_foldl_snd <;> intros) | (with_reducible apply quiet_foldl <;> intros) | split)
  all_goals (try simp only [apply_ite State.quiet, ite_self])
  all_goals (try simp)
  all_goals (repeat' (first | with_reducible rfl | (with_reducible apply ite_quiet) | (with_reducible apply quiet_foldl_fst <;> intros)
                            | (with_reducible apply quiet_foldl_snd <;> intros) | (with_reducible apply quiet_foldl <;> intros) | split))
  all_goals (try simp)
  all_goals (repeat' (first | with_reducible rfl | (with_reducible apply ite_quiet) | (with_reducible apply quiet_foldl_fst <;> intros)
                            | (with_reducible apply quiet_foldl_snd <;> intros) | (with_reducible apply quiet_foldl <;> intros) | split))
  all_goals (try simp)

@[simp] theorem State.writeWindows_quiet (s : State) (m : Nat) : (s.writeWindows m).quiet = s.quiet := by
  unfold State.writeWindows
  repeat' (first | with_reducible rfl | (with_reducible apply ite_quiet)
                 | (with_reducible refine resState_quiet ?_ (fun t h => ?_); rotate_left; first | apply execFuseBurnOwner_quiet; exact h
                                                                                                | apply execFuseBurnDebugClose_quiet; exact h
                                                                                                | apply execIrqHostAck_quiet; exact h
                                                                                                | apply execIrqSwSet_quiet; exact h
                                                                                                | apply execIrqSrcCfg_quiet; exact h
                                                                                                | apply execFltAckAll_quiet; exact h
                                                                                                | apply execFltAck_quiet; exact h
                                                                                                | apply execMsixMask_quiet; exact h
                                                                                                | apply execMbxCtrl_quiet; exact h
                                                                                                | apply execMbxAbort_quiet; exact h
                                                                                                | apply execAbortDrain_quiet; exact h
                                                                                                | apply execFabLock_quiet; exact h
                                                                                                | apply execFabUnfreeze_quiet; exact h
                                                                                                | apply execDecFeed_quiet; exact h
                                                                                                | apply execDecRelease_quiet; exact h
                                                                                                | apply execDmaAbort_quiet; exact h
                                                                                                | apply execDmaStart_quiet; exact h
                                                                                                | apply execDmaFifoFlush_quiet; exact h
                                                                                                | apply execPwrIslReq_quiet; exact h
                                                                                                | apply execPwrIslFreq_quiet; exact h
                                                                                                | apply execIngDb_quiet; exact h)
                 | split)
  all_goals (try simp)
  all_goals (repeat' (first | with_reducible rfl | (with_reducible apply ite_quiet)
                            | (with_reducible refine resState_quiet ?_ (fun t h => ?_); rotate_left; first | apply execFuseBurnOwner_quiet; exact h
                                                                                                           | apply execFuseBurnDebugClose_quiet; exact h
                                                                                                           | apply execIrqHostAck_quiet; exact h
                                                                                                           | apply execIrqSwSet_quiet; exact h
                                                                                                           | apply execIrqSrcCfg_quiet; exact h
                                                                                                           | apply execFltAckAll_quiet; exact h
                                                                                                           | apply execFltAck_quiet; exact h
                                                                                                           | apply execMsixMask_quiet; exact h
                                                                                                           | apply execMbxCtrl_quiet; exact h
                                                                                                           | apply execMbxAbort_quiet; exact h
                                                                                                           | apply execAbortDrain_quiet; exact h
                                                                                                           | apply execFabLock_quiet; exact h
                                                                                                           | apply execFabUnfreeze_quiet; exact h
                                                                                                           | apply execDecFeed_quiet; exact h
                                                                                                           | apply execDecRelease_quiet; exact h
                                                                                                           | apply execDmaAbort_quiet; exact h
                                                                                                           | apply execDmaStart_quiet; exact h
                                                                                                           | apply execDmaFifoFlush_quiet; exact h
                                                                                                           | apply execPwrIslReq_quiet; exact h
                                                                                                           | apply execPwrIslFreq_quiet; exact h
                                                                                                           | apply execIngDb_quiet; exact h)
                            | split))
  all_goals (try simp)

@[simp] theorem State.installStatic_quiet (s : State) (t : Nat) : (s.installStatic t).quiet = s.quiet := by
  unfold State.installStatic
  split
  · rfl
  · split
    · rfl
    · refine quiet_foldl (fun s a => ?_) rfl
      simp only []
      split
      · rfl
      · exact State.emInsert_getD_quiet _ _ _ _

@[simp] theorem State.bindNamed_quiet (s : State) : (s.bindNamed).quiet = s.quiet := by
  unfold State.bindNamed
  try simp only []
  repeat' (first | with_reducible rfl | (with_reducible apply ite_quiet) | (with_reducible apply quiet_foldl_fst <;> intros)
                 | (with_reducible apply quiet_foldl_snd <;> intros) | (with_reducible apply quiet_foldl <;> intros) | split)
  all_goals (try simp only [apply_ite State.quiet, ite_self])
  all_goals (try simp)
  all_goals (repeat' (first | with_reducible rfl | (with_reducible apply ite_quiet) | (with_reducible apply quiet_foldl_fst <;> intros)
                            | (with_reducible apply quiet_foldl_snd <;> intros) | (with_reducible apply quiet_foldl <;> intros) | split))
  all_goals (try simp)
  all_goals (repeat' (first | with_reducible rfl | (with_reducible apply ite_quiet) | (with_reducible apply quiet_foldl_fst <;> intros)
                            | (with_reducible apply quiet_foldl_snd <;> intros) | (with_reducible apply quiet_foldl <;> intros) | split))
  all_goals (try simp)

@[simp] theorem State.bindRest_quiet (s : State) : (s.bindRest).quiet = s.quiet := by
  unfold State.bindRest
  try simp only []
  repeat' (first | with_reducible rfl | (with_reducible apply ite_quiet) | (with_reducible apply quiet_foldl_fst <;> intros)
                 | (with_reducible apply quiet_foldl_snd <;> intros) | (with_reducible apply quiet_foldl <;> intros) | split)
  all_goals (try simp only [apply_ite State.quiet, ite_self])
  all_goals (try simp)
  all_goals (repeat' (first | with_reducible rfl | (with_reducible apply ite_quiet) | (with_reducible apply quiet_foldl_fst <;> intros)
                            | (with_reducible apply quiet_foldl_snd <;> intros) | (with_reducible apply quiet_foldl <;> intros) | split))
  all_goals (try simp)
  all_goals (repeat' (first | with_reducible rfl | (with_reducible apply ite_quiet) | (with_reducible apply quiet_foldl_fst <;> intros)
                            | (with_reducible apply quiet_foldl_snd <;> intros) | (with_reducible apply quiet_foldl <;> intros) | split))
  all_goals (try simp)

@[simp] theorem State.keyBounds_quiet (s : State) : (s.keyBounds).quiet = s.quiet := by
  unfold State.keyBounds
  try simp only []
  repeat' (first | with_reducible rfl | (with_reducible apply ite_quiet) | (with_reducible apply quiet_foldl_fst <;> intros)
                 | (with_reducible apply quiet_foldl_snd <;> intros) | (with_reducible apply quiet_foldl <;> intros) | split)
  all_goals (try simp only [apply_ite State.quiet, ite_self])
  all_goals (try simp)
  all_goals (repeat' (first | with_reducible rfl | (with_reducible apply ite_quiet) | (with_reducible apply quiet_foldl_fst <;> intros)
                            | (with_reducible apply quiet_foldl_snd <;> intros) | (with_reducible apply quiet_foldl <;> intros) | split))
  all_goals (try simp)
  all_goals (repeat' (first | with_reducible rfl | (with_reducible apply ite_quiet) | (with_reducible apply quiet_foldl_fst <;> intros)
                            | (with_reducible apply quiet_foldl_snd <;> intros) | (with_reducible apply quiet_foldl <;> intros) | split))
  all_goals (try simp)

@[simp] theorem State.loadTables_quiet (s : State) : (s.loadTables).quiet = s.quiet := by
  unfold State.loadTables
  try simp only []
  repeat' (first | with_reducible rfl | (with_reducible apply ite_quiet) | (with_reducible apply quiet_foldl_fst <;> intros)
                 | (with_reducible apply quiet_foldl_snd <;> intros) | (with_reducible apply quiet_foldl <;> intros) | split)
  all_goals (try simp only [apply_ite State.quiet, ite_self])
  all_goals (try simp)
  all_goals (repeat' (first | with_reducible rfl | (with_reducible apply ite_quiet) | (with_reducible apply quiet_foldl_fst <;> intros)
                            | (with_reducible apply quiet_foldl_snd <;> intros) | (with_reducible apply quiet_foldl <;> intros) | split))
  all_goals (try simp)
  all_goals (repeat' (first | with_reducible rfl | (with_reducible apply ite_quiet) | (with_reducible apply quiet_foldl_fst <;> intros)
                            | (with_reducible apply quiet_foldl_snd <;> intros) | (with_reducible apply quiet_foldl <;> intros) | split))
  all_goals (try simp)

@[simp] theorem State.holdJobs_quiet (s : State) : (s.holdJobs).quiet = s.quiet := by
  unfold State.holdJobs
  try simp only []
  repeat' (first | with_reducible rfl | (with_reducible apply ite_quiet) | (with_reducible apply quiet_foldl_fst <;> intros)
                 | (with_reducible apply quiet_foldl_snd <;> intros) | (with_reducible apply quiet_foldl <;> intros) | split)
  all_goals (try simp only [apply_ite State.quiet, ite_self])
  all_goals (try simp)
  all_goals (repeat' (first | with_reducible rfl | (with_reducible apply ite_quiet) | (with_reducible apply quiet_foldl_fst <;> intros)
                            | (with_reducible apply quiet_foldl_snd <;> intros) | (with_reducible apply quiet_foldl <;> intros) | split))
  all_goals (try simp)
  all_goals (repeat' (first | with_reducible rfl | (with_reducible apply ite_quiet) | (with_reducible apply quiet_foldl_fst <;> intros)
                            | (with_reducible apply quiet_foldl_snd <;> intros) | (with_reducible apply quiet_foldl <;> intros) | split))
  all_goals (try simp)

@[simp] theorem State.enterRun_quiet (s : State) : (s.enterRun).quiet = s.quiet := by
  unfold State.enterRun
  try simp only []
  repeat' (first | with_reducible rfl | (with_reducible apply ite_quiet) | (with_reducible apply quiet_foldl_fst <;> intros)
                 | (with_reducible apply quiet_foldl_snd <;> intros) | (with_reducible apply quiet_foldl <;> intros) | split)
  all_goals (try simp only [apply_ite State.quiet, ite_self])
  all_goals (try simp)
  all_goals (repeat' (first | with_reducible rfl | (with_reducible apply ite_quiet) | (with_reducible apply quiet_foldl_fst <;> intros)
                            | (with_reducible apply quiet_foldl_snd <;> intros) | (with_reducible apply quiet_foldl <;> intros) | split))
  all_goals (try simp)
  all_goals (repeat' (first | with_reducible rfl | (with_reducible apply ite_quiet) | (with_reducible apply quiet_foldl_fst <;> intros)
                            | (with_reducible apply quiet_foldl_snd <;> intros) | (with_reducible apply quiet_foldl <;> intros) | split))
  all_goals (try simp)

theorem execTablesLoaded_quiet (s : State) (t : State) (h : execTablesLoaded s = .next t) : t.quiet = s.quiet := by
  unfold execTablesLoaded at h
  injection h with h
  subst h
  try simp only []
  repeat' (first | with_reducible rfl | (with_reducible apply ite_quiet) | (with_reducible apply quiet_foldl_fst <;> intros)
                 | (with_reducible apply quiet_foldl_snd <;> intros) | (with_reducible apply quiet_foldl <;> intros) | split)
  all_goals (try simp only [apply_ite State.quiet, ite_self])
  all_goals (try simp)
  all_goals (repeat' (first | with_reducible rfl | (with_reducible apply ite_quiet) | (with_reducible apply quiet_foldl_fst <;> intros)
                            | (with_reducible apply quiet_foldl_snd <;> intros) | (with_reducible apply quiet_foldl <;> intros) | split))
  all_goals (try simp)
  all_goals (repeat' (first | with_reducible rfl | (with_reducible apply ite_quiet) | (with_reducible apply quiet_foldl_fst <;> intros)
                            | (with_reducible apply quiet_foldl_snd <;> intros) | (with_reducible apply quiet_foldl <;> intros) | split))
  all_goals (try simp)

@[simp] theorem State.spadPortError_quiet (s : State) (p : Nat) (a : SpadAcc) : (s.spadPortError p a).quiet = s.quiet := by
  unfold State.spadPortError
  try simp only []
  repeat' (first | with_reducible rfl | (with_reducible apply ite_quiet) | (with_reducible apply quiet_foldl_fst <;> intros)
                 | (with_reducible apply quiet_foldl_snd <;> intros) | (with_reducible apply quiet_foldl <;> intros) | split)
  all_goals (try simp only [apply_ite State.quiet, ite_self])
  all_goals (try simp)
  all_goals (repeat' (first | with_reducible rfl | (with_reducible apply ite_quiet) | (with_reducible apply quiet_foldl_fst <;> intros)
                            | (with_reducible apply quiet_foldl_snd <;> intros) | (with_reducible apply quiet_foldl <;> intros) | split))
  all_goals (try simp)
  all_goals (repeat' (first | with_reducible rfl | (with_reducible apply ite_quiet) | (with_reducible apply quiet_foldl_fst <;> intros)
                            | (with_reducible apply quiet_foldl_snd <;> intros) | (with_reducible apply quiet_foldl <;> intros) | split))
  all_goals (try simp)

@[simp] theorem State.spadAnswer_quiet (s : State) (bad : List SpadAcc) : (s.spadAnswer bad).quiet = s.quiet := by
  unfold State.spadAnswer
  try simp only []
  repeat' (first | with_reducible rfl | (with_reducible apply ite_quiet) | (with_reducible apply quiet_foldl_fst <;> intros)
                 | (with_reducible apply quiet_foldl_snd <;> intros) | (with_reducible apply quiet_foldl <;> intros) | split)
  all_goals (try simp only [apply_ite State.quiet, ite_self])
  all_goals (try simp)
  all_goals (repeat' (first | with_reducible rfl | (with_reducible apply ite_quiet) | (with_reducible apply quiet_foldl_fst <;> intros)
                            | (with_reducible apply quiet_foldl_snd <;> intros) | (with_reducible apply quiet_foldl <;> intros) | split))
  all_goals (try simp)
  all_goals (repeat' (first | with_reducible rfl | (with_reducible apply ite_quiet) | (with_reducible apply quiet_foldl_fst <;> intros)
                            | (with_reducible apply quiet_foldl_snd <;> intros) | (with_reducible apply quiet_foldl <;> intros) | split))
  all_goals (try simp)

@[simp] theorem State.spadSources_quiet (s : State) (reads : List SpadAcc) (e : SpadEcc) : (s.spadSources reads e).quiet = s.quiet := by
  unfold State.spadSources
  try simp only []
  repeat' (first | with_reducible rfl | (with_reducible apply ite_quiet) | (with_reducible apply quiet_foldl_fst <;> intros)
                 | (with_reducible apply quiet_foldl_snd <;> intros) | (with_reducible apply quiet_foldl <;> intros) | split)
  all_goals (try simp only [apply_ite State.quiet, ite_self])
  all_goals (try simp)
  all_goals (repeat' (first | with_reducible rfl | (with_reducible apply ite_quiet) | (with_reducible apply quiet_foldl_fst <;> intros)
                            | (with_reducible apply quiet_foldl_snd <;> intros) | (with_reducible apply quiet_foldl <;> intros) | split))
  all_goals (try simp)
  all_goals (repeat' (first | with_reducible rfl | (with_reducible apply ite_quiet) | (with_reducible apply quiet_foldl_fst <;> intros)
                            | (with_reducible apply quiet_foldl_snd <;> intros) | (with_reducible apply quiet_foldl <;> intros) | split))
  all_goals (try simp)

theorem execScratchpadAccess_quiet (accs : List SpadAcc) (e : SpadEcc) (s : State) (t : State)
    (h : execScratchpadAccess accs e s = .next t) : t.quiet = s.quiet := by
  unfold execScratchpadAccess at h
  injection h with h
  subst h
  try simp only []
  repeat' (first | with_reducible rfl | (with_reducible apply ite_quiet) | (with_reducible apply quiet_foldl_fst <;> intros)
                 | (with_reducible apply quiet_foldl_snd <;> intros) | (with_reducible apply quiet_foldl <;> intros) | split)
  all_goals (try simp only [apply_ite State.quiet, ite_self])
  all_goals (try simp)
  all_goals (repeat' (first | with_reducible rfl | (with_reducible apply ite_quiet) | (with_reducible apply quiet_foldl_fst <;> intros)
                            | (with_reducible apply quiet_foldl_snd <;> intros) | (with_reducible apply quiet_foldl <;> intros) | split))
  all_goals (try simp)
  all_goals (repeat' (first | with_reducible rfl | (with_reducible apply ite_quiet) | (with_reducible apply quiet_foldl_fst <;> intros)
                            | (with_reducible apply quiet_foldl_snd <;> intros) | (with_reducible apply quiet_foldl <;> intros) | split))
  all_goals (try simp)

theorem execDmaFifoFlush_quiet (f : Nat) (s : State) (ops : FifoOps) (t : State)
    (h : execDmaFifoFlush f s ops = .next t) : t.quiet = s.quiet := by
  unfold execDmaFifoFlush at h
  injection h with h
  subst h
  try simp only []
  repeat' (first | with_reducible rfl | (with_reducible apply ite_quiet) | (with_reducible apply quiet_foldl_fst <;> intros)
                 | (with_reducible apply quiet_foldl_snd <;> intros) | (with_reducible apply quiet_foldl <;> intros) | split)
  all_goals (try simp only [apply_ite State.quiet, ite_self])
  all_goals (try simp)
  all_goals (repeat' (first | with_reducible rfl | (with_reducible apply ite_quiet) | (with_reducible apply quiet_foldl_fst <;> intros)
                            | (with_reducible apply quiet_foldl_snd <;> intros) | (with_reducible apply quiet_foldl <;> intros) | split))
  all_goals (try simp)
  all_goals (repeat' (first | with_reducible rfl | (with_reducible apply ite_quiet) | (with_reducible apply quiet_foldl_fst <;> intros)
                            | (with_reducible apply quiet_foldl_snd <;> intros) | (with_reducible apply quiet_foldl <;> intros) | split))
  all_goals (try simp)

@[simp] theorem State.dmaHalt_quiet (s : State) (n used : Nat) : (s.dmaHalt n used).quiet = s.quiet := by
  unfold State.dmaHalt
  try simp only []
  repeat' (first | with_reducible rfl | (with_reducible apply ite_quiet) | (with_reducible apply quiet_foldl_fst <;> intros)
                 | (with_reducible apply quiet_foldl_snd <;> intros) | (with_reducible apply quiet_foldl <;> intros) | split)
  all_goals (try simp only [apply_ite State.quiet, ite_self])
  all_goals (try simp)
  all_goals (repeat' (first | with_reducible rfl | (with_reducible apply ite_quiet) | (with_reducible apply quiet_foldl_fst <;> intros)
                            | (with_reducible apply quiet_foldl_snd <;> intros) | (with_reducible apply quiet_foldl <;> intros) | split))
  all_goals (try simp)
  all_goals (repeat' (first | with_reducible rfl | (with_reducible apply ite_quiet) | (with_reducible apply quiet_foldl_fst <;> intros)
                            | (with_reducible apply quiet_foldl_snd <;> intros) | (with_reducible apply quiet_foldl <;> intros) | split))
  all_goals (try simp)

@[simp] theorem State.dmaAdvance_quiet (s : State) (n k : Nat) : (s.dmaAdvance n k).quiet = s.quiet := by
  unfold State.dmaAdvance
  try simp only []
  repeat' (first | with_reducible rfl | (with_reducible apply ite_quiet) | (with_reducible apply quiet_foldl_fst <;> intros)
                 | (with_reducible apply quiet_foldl_snd <;> intros) | (with_reducible apply quiet_foldl <;> intros) | split)
  all_goals (try simp only [apply_ite State.quiet, ite_self])
  all_goals (try simp)
  all_goals (repeat' (first | with_reducible rfl | (with_reducible apply ite_quiet) | (with_reducible apply quiet_foldl_fst <;> intros)
                            | (with_reducible apply quiet_foldl_snd <;> intros) | (with_reducible apply quiet_foldl <;> intros) | split))
  all_goals (try simp)
  all_goals (repeat' (first | with_reducible rfl | (with_reducible apply ite_quiet) | (with_reducible apply quiet_foldl_fst <;> intros)
                            | (with_reducible apply quiet_foldl_snd <;> intros) | (with_reducible apply quiet_foldl <;> intros) | split))
  all_goals (try simp)

@[simp] theorem State.sendPulse_quiet (s : State) (e : Nat) : (s.sendPulse e).quiet = s.quiet := by
  unfold State.sendPulse
  try simp only []
  repeat' (first | with_reducible rfl | (with_reducible apply ite_quiet) | (with_reducible apply quiet_foldl_fst <;> intros)
                 | (with_reducible apply quiet_foldl_snd <;> intros) | (with_reducible apply quiet_foldl <;> intros) | split)
  all_goals (try simp only [apply_ite State.quiet, ite_self])
  all_goals (try simp)
  all_goals (repeat' (first | with_reducible rfl | (with_reducible apply ite_quiet) | (with_reducible apply quiet_foldl_fst <;> intros)
                            | (with_reducible apply quiet_foldl_snd <;> intros) | (with_reducible apply quiet_foldl <;> intros) | split))
  all_goals (try simp)
  all_goals (repeat' (first | with_reducible rfl | (with_reducible apply ite_quiet) | (with_reducible apply quiet_foldl_fst <;> intros)
                            | (with_reducible apply quiet_foldl_snd <;> intros) | (with_reducible apply quiet_foldl <;> intros) | split))
  all_goals (try simp)

@[simp] theorem State.dmaFinish_quiet (s : State) (n : Nat) : (s.dmaFinish n).quiet = s.quiet := by
  unfold State.dmaFinish
  try simp only []
  repeat' (first | with_reducible rfl | (with_reducible apply ite_quiet) | (with_reducible apply quiet_foldl_fst <;> intros)
                 | (with_reducible apply quiet_foldl_snd <;> intros) | (with_reducible apply quiet_foldl <;> intros) | split)
  all_goals (try simp only [apply_ite State.quiet, ite_self])
  all_goals (try simp)
  all_goals (repeat' (first | with_reducible rfl | (with_reducible apply ite_quiet) | (with_reducible apply quiet_foldl_fst <;> intros)
                            | (with_reducible apply quiet_foldl_snd <;> intros) | (with_reducible apply quiet_foldl <;> intros) | split))
  all_goals (try simp)
  all_goals (repeat' (first | with_reducible rfl | (with_reducible apply ite_quiet) | (with_reducible apply quiet_foldl_fst <;> intros)
                            | (with_reducible apply quiet_foldl_snd <;> intros) | (with_reducible apply quiet_foldl <;> intros) | split))
  all_goals (try simp)

theorem execDmaStart_quiet (ch : Nat) (s : State) (t : State) (h : execDmaStart ch s = .next t) : t.quiet = s.quiet := by
  unfold execDmaStart at h
  injection h with h
  subst h
  try simp only []
  repeat' (first | with_reducible rfl | (with_reducible apply ite_quiet) | (with_reducible apply quiet_foldl_fst <;> intros)
                 | (with_reducible apply quiet_foldl_snd <;> intros) | (with_reducible apply quiet_foldl <;> intros) | split)
  all_goals (try simp only [apply_ite State.quiet, ite_self])
  all_goals (try simp)
  all_goals (repeat' (first | with_reducible rfl | (with_reducible apply ite_quiet) | (with_reducible apply quiet_foldl_fst <;> intros)
                            | (with_reducible apply quiet_foldl_snd <;> intros) | (with_reducible apply quiet_foldl <;> intros) | split))
  all_goals (try simp)
  all_goals (repeat' (first | with_reducible rfl | (with_reducible apply ite_quiet) | (with_reducible apply quiet_foldl_fst <;> intros)
                            | (with_reducible apply quiet_foldl_snd <;> intros) | (with_reducible apply quiet_foldl <;> intros) | split))
  all_goals (try simp)

theorem execDmaFifoLevelStart_quiet (ch : Nat) (s : State) (cycles : List (Nat × FifoOps)) (t : State)
    (h : execDmaFifoLevelStart ch s cycles = .next t) : t.quiet = s.quiet := by
  unfold execDmaFifoLevelStart at h
  injection h with h
  subst h
  try simp only []
  repeat' (first | with_reducible rfl | (with_reducible apply ite_quiet) | (with_reducible apply quiet_foldl_fst <;> intros)
                 | (with_reducible apply quiet_foldl_snd <;> intros) | (with_reducible apply quiet_foldl <;> intros) | split)
  all_goals (try simp only [apply_ite State.quiet, ite_self])
  all_goals (try simp)
  all_goals (repeat' (first | with_reducible rfl | (with_reducible apply ite_quiet) | (with_reducible apply quiet_foldl_fst <;> intros)
                            | (with_reducible apply quiet_foldl_snd <;> intros) | (with_reducible apply quiet_foldl <;> intros) | split))
  all_goals (try simp)
  all_goals (repeat' (first | with_reducible rfl | (with_reducible apply ite_quiet) | (with_reducible apply quiet_foldl_fst <;> intros)
                            | (with_reducible apply quiet_foldl_snd <;> intros) | (with_reducible apply quiet_foldl <;> intros) | split))
  all_goals (try simp)

theorem execDmaFifoLevelPause_quiet (ch : Nat) (words : Nat) (s : State) (t : State)
    (h : execDmaFifoLevelPause ch words s = .next t) : t.quiet = s.quiet := by
  unfold execDmaFifoLevelPause at h
  injection h with h
  subst h
  try simp only []
  repeat' (first | with_reducible rfl | (with_reducible apply ite_quiet) | (with_reducible apply quiet_foldl_fst <;> intros)
                 | (with_reducible apply quiet_foldl_snd <;> intros) | (with_reducible apply quiet_foldl <;> intros) | split)
  all_goals (try simp only [apply_ite State.quiet, ite_self])
  all_goals (try simp)
  all_goals (repeat' (first | with_reducible rfl | (with_reducible apply ite_quiet) | (with_reducible apply quiet_foldl_fst <;> intros)
                            | (with_reducible apply quiet_foldl_snd <;> intros) | (with_reducible apply quiet_foldl <;> intros) | split))
  all_goals (try simp)
  all_goals (repeat' (first | with_reducible rfl | (with_reducible apply ite_quiet) | (with_reducible apply quiet_foldl_fst <;> intros)
                            | (with_reducible apply quiet_foldl_snd <;> intros) | (with_reducible apply quiet_foldl <;> intros) | split))
  all_goals (try simp)

theorem execDmaComplete_quiet (ch : Nat) (s : State) (t : State) (h : execDmaComplete ch s = .next t) : t.quiet = s.quiet := by
  unfold execDmaComplete at h
  injection h with h
  subst h
  try simp only []
  repeat' (first | with_reducible rfl | (with_reducible apply ite_quiet) | (with_reducible apply quiet_foldl_fst <;> intros)
                 | (with_reducible apply quiet_foldl_snd <;> intros) | (with_reducible apply quiet_foldl <;> intros) | split)
  all_goals (try simp only [apply_ite State.quiet, ite_self])
  all_goals (try simp)
  all_goals (repeat' (first | with_reducible rfl | (with_reducible apply ite_quiet) | (with_reducible apply quiet_foldl_fst <;> intros)
                            | (with_reducible apply quiet_foldl_snd <;> intros) | (with_reducible apply quiet_foldl <;> intros) | split))
  all_goals (try simp)
  all_goals (repeat' (first | with_reducible rfl | (with_reducible apply ite_quiet) | (with_reducible apply quiet_foldl_fst <;> intros)
                            | (with_reducible apply quiet_foldl_snd <;> intros) | (with_reducible apply quiet_foldl <;> intros) | split))
  all_goals (try simp)

@[simp] theorem State.dmaUe_quiet (s : State) (n : Nat) : (s.dmaUe n).quiet = s.quiet := by
  unfold State.dmaUe
  try simp only []
  repeat' (first | with_reducible rfl | (with_reducible apply ite_quiet) | (with_reducible apply quiet_foldl_fst <;> intros)
                 | (with_reducible apply quiet_foldl_snd <;> intros) | (with_reducible apply quiet_foldl <;> intros) | split)
  all_goals (try simp only [apply_ite State.quiet, ite_self])
  all_goals (try simp)
  all_goals (repeat' (first | with_reducible rfl | (with_reducible apply ite_quiet) | (with_reducible apply quiet_foldl_fst <;> intros)
                            | (with_reducible apply quiet_foldl_snd <;> intros) | (with_reducible apply quiet_foldl <;> intros) | split))
  all_goals (try simp)
  all_goals (repeat' (first | with_reducible rfl | (with_reducible apply ite_quiet) | (with_reducible apply quiet_foldl_fst <;> intros)
                            | (with_reducible apply quiet_foldl_snd <;> intros) | (with_reducible apply quiet_foldl <;> intros) | split))
  all_goals (try simp)

theorem execDmaBeatError_quiet (ch : Nat) (written : Nat) (s : State) (ue : Bool) (t : State)
    (h : execDmaBeatError ch written s ue = .next t) : t.quiet = s.quiet := by
  unfold execDmaBeatError at h
  injection h with h
  subst h
  try simp only []
  repeat' (first | with_reducible rfl | (with_reducible apply ite_quiet) | (with_reducible apply quiet_foldl_fst <;> intros)
                 | (with_reducible apply quiet_foldl_snd <;> intros) | (with_reducible apply quiet_foldl <;> intros) | split)
  all_goals (try simp only [apply_ite State.quiet, ite_self])
  all_goals (try simp)
  all_goals (repeat' (first | with_reducible rfl | (with_reducible apply ite_quiet) | (with_reducible apply quiet_foldl_fst <;> intros)
                            | (with_reducible apply quiet_foldl_snd <;> intros) | (with_reducible apply quiet_foldl <;> intros) | split))
  all_goals (try simp)
  all_goals (repeat' (first | with_reducible rfl | (with_reducible apply ite_quiet) | (with_reducible apply quiet_foldl_fst <;> intros)
                            | (with_reducible apply quiet_foldl_snd <;> intros) | (with_reducible apply quiet_foldl <;> intros) | split))
  all_goals (try simp)

theorem execDmaAbort_quiet (ch : Nat) (written : Nat) (s : State) (t : State)
    (h : execDmaAbort ch written s = .next t) : t.quiet = s.quiet := by
  unfold execDmaAbort at h
  injection h with h
  subst h
  try simp only []
  repeat' (first | with_reducible rfl | (with_reducible apply ite_quiet) | (with_reducible apply quiet_foldl_fst <;> intros)
                 | (with_reducible apply quiet_foldl_snd <;> intros) | (with_reducible apply quiet_foldl <;> intros) | split)
  all_goals (try simp only [apply_ite State.quiet, ite_self])
  all_goals (try simp)
  all_goals (repeat' (first | with_reducible rfl | (with_reducible apply ite_quiet) | (with_reducible apply quiet_foldl_fst <;> intros)
                            | (with_reducible apply quiet_foldl_snd <;> intros) | (with_reducible apply quiet_foldl <;> intros) | split))
  all_goals (try simp)
  all_goals (repeat' (first | with_reducible rfl | (with_reducible apply ite_quiet) | (with_reducible apply quiet_foldl_fst <;> intros)
                            | (with_reducible apply quiet_foldl_snd <;> intros) | (with_reducible apply quiet_foldl <;> intros) | split))
  all_goals (try simp)

@[simp] theorem State.scanDr_quiet (s : State) (load : List Bool) : (s.scanDr load).quiet = s.quiet := by
  unfold State.scanDr
  try simp only []
  repeat' (first | with_reducible rfl | (with_reducible apply ite_quiet) | (with_reducible apply quiet_foldl_fst <;> intros)
                 | (with_reducible apply quiet_foldl_snd <;> intros) | (with_reducible apply quiet_foldl <;> intros) | split)
  all_goals (try simp only [apply_ite State.quiet, ite_self])
  all_goals (try simp)
  all_goals (repeat' (first | with_reducible rfl | (with_reducible apply ite_quiet) | (with_reducible apply quiet_foldl_fst <;> intros)
                            | (with_reducible apply quiet_foldl_snd <;> intros) | (with_reducible apply quiet_foldl <;> intros) | split))
  all_goals (try simp)
  all_goals (repeat' (first | with_reducible rfl | (with_reducible apply ite_quiet) | (with_reducible apply quiet_foldl_fst <;> intros)
                            | (with_reducible apply quiet_foldl_snd <;> intros) | (with_reducible apply quiet_foldl <;> intros) | split))
  all_goals (try simp)

@[simp] theorem State.burnResult_quiet (s : State) (r : Nat) : (s.burnResult r).quiet = s.quiet := by
  unfold State.burnResult
  try simp only []
  repeat' (first | with_reducible rfl | (with_reducible apply ite_quiet) | (with_reducible apply quiet_foldl_fst <;> intros)
                 | (with_reducible apply quiet_foldl_snd <;> intros) | (with_reducible apply quiet_foldl <;> intros) | split)
  all_goals (try simp only [apply_ite State.quiet, ite_self])
  all_goals (try simp)
  all_goals (repeat' (first | with_reducible rfl | (with_reducible apply ite_quiet) | (with_reducible apply quiet_foldl_fst <;> intros)
                            | (with_reducible apply quiet_foldl_snd <;> intros) | (with_reducible apply quiet_foldl <;> intros) | split))
  all_goals (try simp)
  all_goals (repeat' (first | with_reducible rfl | (with_reducible apply ite_quiet) | (with_reducible apply quiet_foldl_fst <;> intros)
                            | (with_reducible apply quiet_foldl_snd <;> intros) | (with_reducible apply quiet_foldl <;> intros) | split))
  all_goals (try simp)

theorem execFuseBurnOwner_quiet (confirm : Nat) (s : State) (t : State)
    (h : execFuseBurnOwner confirm s = .next t) : t.quiet = s.quiet := by
  unfold execFuseBurnOwner at h
  injection h with h
  subst h
  try simp only []
  repeat' (first | with_reducible rfl | (with_reducible apply ite_quiet) | (with_reducible apply quiet_foldl_fst <;> intros)
                 | (with_reducible apply quiet_foldl_snd <;> intros) | (with_reducible apply quiet_foldl <;> intros) | split)
  all_goals (try simp only [apply_ite State.quiet, ite_self])
  all_goals (try simp)
  all_goals (repeat' (first | with_reducible rfl | (with_reducible apply ite_quiet) | (with_reducible apply quiet_foldl_fst <;> intros)
                            | (with_reducible apply quiet_foldl_snd <;> intros) | (with_reducible apply quiet_foldl <;> intros) | split))
  all_goals (try simp)
  all_goals (repeat' (first | with_reducible rfl | (with_reducible apply ite_quiet) | (with_reducible apply quiet_foldl_fst <;> intros)
                            | (with_reducible apply quiet_foldl_snd <;> intros) | (with_reducible apply quiet_foldl <;> intros) | split))
  all_goals (try simp)

theorem execFuseBurnDebugClose_quiet (confirm : Nat) (s : State) (t : State)
    (h : execFuseBurnDebugClose confirm s = .next t) : t.quiet = s.quiet := by
  unfold execFuseBurnDebugClose at h
  injection h with h
  subst h
  try simp only []
  repeat' (first | with_reducible rfl | (with_reducible apply ite_quiet) | (with_reducible apply quiet_foldl_fst <;> intros)
                 | (with_reducible apply quiet_foldl_snd <;> intros) | (with_reducible apply quiet_foldl <;> intros) | split)
  all_goals (try simp only [apply_ite State.quiet, ite_self])
  all_goals (try simp)
  all_goals (repeat' (first | with_reducible rfl | (with_reducible apply ite_quiet) | (with_reducible apply quiet_foldl_fst <;> intros)
                            | (with_reducible apply quiet_foldl_snd <;> intros) | (with_reducible apply quiet_foldl <;> intros) | split))
  all_goals (try simp)
  all_goals (repeat' (first | with_reducible rfl | (with_reducible apply ite_quiet) | (with_reducible apply quiet_foldl_fst <;> intros)
                            | (with_reducible apply quiet_foldl_snd <;> intros) | (with_reducible apply quiet_foldl <;> intros) | split))
  all_goals (try simp)

@[simp] theorem State.tapSelect_quiet (s : State) (code : Nat) : (s.tapSelect code).quiet = s.quiet := by
  unfold State.tapSelect
  try simp only []
  repeat' (first | with_reducible rfl | (with_reducible apply ite_quiet) | (with_reducible apply quiet_foldl_fst <;> intros)
                 | (with_reducible apply quiet_foldl_snd <;> intros) | (with_reducible apply quiet_foldl <;> intros) | split)
  all_goals (try simp only [apply_ite State.quiet, ite_self])
  all_goals (try simp)
  all_goals (repeat' (first | with_reducible rfl | (with_reducible apply ite_quiet) | (with_reducible apply quiet_foldl_fst <;> intros)
                            | (with_reducible apply quiet_foldl_snd <;> intros) | (with_reducible apply quiet_foldl <;> intros) | split))
  all_goals (try simp)
  all_goals (repeat' (first | with_reducible rfl | (with_reducible apply ite_quiet) | (with_reducible apply quiet_foldl_fst <;> intros)
                            | (with_reducible apply quiet_foldl_snd <;> intros) | (with_reducible apply quiet_foldl <;> intros) | split))
  all_goals (try simp)

@[simp] theorem State.tapOpen_quiet (s : State) (code : Nat) : (s.tapOpen code).quiet = s.quiet := by
  unfold State.tapOpen
  try simp only []
  repeat' (first | with_reducible rfl | (with_reducible apply ite_quiet) | (with_reducible apply quiet_foldl_fst <;> intros)
                 | (with_reducible apply quiet_foldl_snd <;> intros) | (with_reducible apply quiet_foldl <;> intros) | split)
  all_goals (try simp only [apply_ite State.quiet, ite_self])
  all_goals (try simp)
  all_goals (repeat' (first | with_reducible rfl | (with_reducible apply ite_quiet) | (with_reducible apply quiet_foldl_fst <;> intros)
                            | (with_reducible apply quiet_foldl_snd <;> intros) | (with_reducible apply quiet_foldl <;> intros) | split))
  all_goals (try simp)
  all_goals (repeat' (first | with_reducible rfl | (with_reducible apply ite_quiet) | (with_reducible apply quiet_foldl_fst <;> intros)
                            | (with_reducible apply quiet_foldl_snd <;> intros) | (with_reducible apply quiet_foldl <;> intros) | split))
  all_goals (try simp)

theorem execTapReset_quiet (s : State) (t : State) (h : execTapReset s = .next t) : t.quiet = s.quiet := by
  unfold execTapReset at h
  injection h with h
  subst h
  try simp only []
  repeat' (first | with_reducible rfl | (with_reducible apply ite_quiet) | (with_reducible apply quiet_foldl_fst <;> intros)
                 | (with_reducible apply quiet_foldl_snd <;> intros) | (with_reducible apply quiet_foldl <;> intros) | split)
  all_goals (try simp only [apply_ite State.quiet, ite_self])
  all_goals (try simp)
  all_goals (repeat' (first | with_reducible rfl | (with_reducible apply ite_quiet) | (with_reducible apply quiet_foldl_fst <;> intros)
                            | (with_reducible apply quiet_foldl_snd <;> intros) | (with_reducible apply quiet_foldl <;> intros) | split))
  all_goals (try simp)
  all_goals (repeat' (first | with_reducible rfl | (with_reducible apply ite_quiet) | (with_reducible apply quiet_foldl_fst <;> intros)
                            | (with_reducible apply quiet_foldl_snd <;> intros) | (with_reducible apply quiet_foldl <;> intros) | split))
  all_goals (try simp)

theorem execExtest_quiet (s : State) (load : List Bool) (t : State) (h : execExtest s load = .next t) : t.quiet = s.quiet := by
  unfold execExtest at h
  injection h with h
  subst h
  try simp only []
  repeat' (first | with_reducible rfl | (with_reducible apply ite_quiet) | (with_reducible apply quiet_foldl_fst <;> intros)
                 | (with_reducible apply quiet_foldl_snd <;> intros) | (with_reducible apply quiet_foldl <;> intros) | split)
  all_goals (try simp only [apply_ite State.quiet, ite_self])
  all_goals (try simp)
  all_goals (repeat' (first | with_reducible rfl | (with_reducible apply ite_quiet) | (with_reducible apply quiet_foldl_fst <;> intros)
                            | (with_reducible apply quiet_foldl_snd <;> intros) | (with_reducible apply quiet_foldl <;> intros) | split))
  all_goals (try simp)
  all_goals (repeat' (first | with_reducible rfl | (with_reducible apply ite_quiet) | (with_reducible apply quiet_foldl_fst <;> intros)
                            | (with_reducible apply quiet_foldl_snd <;> intros) | (with_reducible apply quiet_foldl <;> intros) | split))
  all_goals (try simp)

theorem execSamplePreload_quiet (s : State) (load : List Bool) (t : State)
    (h : execSamplePreload s load = .next t) : t.quiet = s.quiet := by
  unfold execSamplePreload at h
  injection h with h
  subst h
  try simp only []
  repeat' (first | with_reducible rfl | (with_reducible apply ite_quiet) | (with_reducible apply quiet_foldl_fst <;> intros)
                 | (with_reducible apply quiet_foldl_snd <;> intros) | (with_reducible apply quiet_foldl <;> intros) | split)
  all_goals (try simp only [apply_ite State.quiet, ite_self])
  all_goals (try simp)
  all_goals (repeat' (first | with_reducible rfl | (with_reducible apply ite_quiet) | (with_reducible apply quiet_foldl_fst <;> intros)
                            | (with_reducible apply quiet_foldl_snd <;> intros) | (with_reducible apply quiet_foldl <;> intros) | split))
  all_goals (try simp)
  all_goals (repeat' (first | with_reducible rfl | (with_reducible apply ite_quiet) | (with_reducible apply quiet_foldl_fst <;> intros)
                            | (with_reducible apply quiet_foldl_snd <;> intros) | (with_reducible apply quiet_foldl <;> intros) | split))
  all_goals (try simp)

theorem execIdcode_quiet (s : State) (t : State) (h : execIdcode s = .next t) : t.quiet = s.quiet := by
  unfold execIdcode at h
  injection h with h
  subst h
  try simp only []
  repeat' (first | with_reducible rfl | (with_reducible apply ite_quiet) | (with_reducible apply quiet_foldl_fst <;> intros)
                 | (with_reducible apply quiet_foldl_snd <;> intros) | (with_reducible apply quiet_foldl <;> intros) | split)
  all_goals (try simp only [apply_ite State.quiet, ite_self])
  all_goals (try simp)
  all_goals (repeat' (first | with_reducible rfl | (with_reducible apply ite_quiet) | (with_reducible apply quiet_foldl_fst <;> intros)
                            | (with_reducible apply quiet_foldl_snd <;> intros) | (with_reducible apply quiet_foldl <;> intros) | split))
  all_goals (try simp)
  all_goals (repeat' (first | with_reducible rfl | (with_reducible apply ite_quiet) | (with_reducible apply quiet_foldl_fst <;> intros)
                            | (with_reducible apply quiet_foldl_snd <;> intros) | (with_reducible apply quiet_foldl <;> intros) | split))
  all_goals (try simp)

theorem execHighz_quiet (s : State) (t : State) (h : execHighz s = .next t) : t.quiet = s.quiet := by
  unfold execHighz at h
  injection h with h
  subst h
  try simp only []
  repeat' (first | with_reducible rfl | (with_reducible apply ite_quiet) | (with_reducible apply quiet_foldl_fst <;> intros)
                 | (with_reducible apply quiet_foldl_snd <;> intros) | (with_reducible apply quiet_foldl <;> intros) | split)
  all_goals (try simp only [apply_ite State.quiet, ite_self])
  all_goals (try simp)
  all_goals (repeat' (first | with_reducible rfl | (with_reducible apply ite_quiet) | (with_reducible apply quiet_foldl_fst <;> intros)
                            | (with_reducible apply quiet_foldl_snd <;> intros) | (with_reducible apply quiet_foldl <;> intros) | split))
  all_goals (try simp)
  all_goals (repeat' (first | with_reducible rfl | (with_reducible apply ite_quiet) | (with_reducible apply quiet_foldl_fst <;> intros)
                            | (with_reducible apply quiet_foldl_snd <;> intros) | (with_reducible apply quiet_foldl <;> intros) | split))
  all_goals (try simp)

theorem execClamp_quiet (s : State) (t : State) (h : execClamp s = .next t) : t.quiet = s.quiet := by
  unfold execClamp at h
  injection h with h
  subst h
  try simp only []
  repeat' (first | with_reducible rfl | (with_reducible apply ite_quiet) | (with_reducible apply quiet_foldl_fst <;> intros)
                 | (with_reducible apply quiet_foldl_snd <;> intros) | (with_reducible apply quiet_foldl <;> intros) | split)
  all_goals (try simp only [apply_ite State.quiet, ite_self])
  all_goals (try simp)
  all_goals (repeat' (first | with_reducible rfl | (with_reducible apply ite_quiet) | (with_reducible apply quiet_foldl_fst <;> intros)
                            | (with_reducible apply quiet_foldl_snd <;> intros) | (with_reducible apply quiet_foldl <;> intros) | split))
  all_goals (try simp)
  all_goals (repeat' (first | with_reducible rfl | (with_reducible apply ite_quiet) | (with_reducible apply quiet_foldl_fst <;> intros)
                            | (with_reducible apply quiet_foldl_snd <;> intros) | (with_reducible apply quiet_foldl <;> intros) | split))
  all_goals (try simp)

theorem execExtestPulse_quiet (s : State) (load : List Bool) (t : State) (h : execExtestPulse s load = .next t) : t.quiet = s.quiet := by
  unfold execExtestPulse at h
  injection h with h
  subst h
  try simp only []
  repeat' (first | with_reducible rfl | (with_reducible apply ite_quiet) | (with_reducible apply quiet_foldl_fst <;> intros)
                 | (with_reducible apply quiet_foldl_snd <;> intros) | (with_reducible apply quiet_foldl <;> intros) | split)
  all_goals (try simp only [apply_ite State.quiet, ite_self])
  all_goals (try simp)
  all_goals (repeat' (first | with_reducible rfl | (with_reducible apply ite_quiet) | (with_reducible apply quiet_foldl_fst <;> intros)
                            | (with_reducible apply quiet_foldl_snd <;> intros) | (with_reducible apply quiet_foldl <;> intros) | split))
  all_goals (try simp)
  all_goals (repeat' (first | with_reducible rfl | (with_reducible apply ite_quiet) | (with_reducible apply quiet_foldl_fst <;> intros)
                            | (with_reducible apply quiet_foldl_snd <;> intros) | (with_reducible apply quiet_foldl <;> intros) | split))
  all_goals (try simp)

theorem execExtestTrain_quiet (s : State) (load : List Bool) (t : State) (h : execExtestTrain s load = .next t) : t.quiet = s.quiet := by
  unfold execExtestTrain at h
  injection h with h
  subst h
  try simp only []
  repeat' (first | with_reducible rfl | (with_reducible apply ite_quiet) | (with_reducible apply quiet_foldl_fst <;> intros)
                 | (with_reducible apply quiet_foldl_snd <;> intros) | (with_reducible apply quiet_foldl <;> intros) | split)
  all_goals (try simp only [apply_ite State.quiet, ite_self])
  all_goals (try simp)
  all_goals (repeat' (first | with_reducible rfl | (with_reducible apply ite_quiet) | (with_reducible apply quiet_foldl_fst <;> intros)
                            | (with_reducible apply quiet_foldl_snd <;> intros) | (with_reducible apply quiet_foldl <;> intros) | split))
  all_goals (try simp)
  all_goals (repeat' (first | with_reducible rfl | (with_reducible apply ite_quiet) | (with_reducible apply quiet_foldl_fst <;> intros)
                            | (with_reducible apply quiet_foldl_snd <;> intros) | (with_reducible apply quiet_foldl <;> intros) | split))
  all_goals (try simp)

theorem execBypass_quiet (s : State) (t : State) (h : execBypass s = .next t) : t.quiet = s.quiet := by
  unfold execBypass at h
  injection h with h
  subst h
  try simp only []
  repeat' (first | with_reducible rfl | (with_reducible apply ite_quiet) | (with_reducible apply quiet_foldl_fst <;> intros)
                 | (with_reducible apply quiet_foldl_snd <;> intros) | (with_reducible apply quiet_foldl <;> intros) | split)
  all_goals (try simp only [apply_ite State.quiet, ite_self])
  all_goals (try simp)
  all_goals (repeat' (first | with_reducible rfl | (with_reducible apply ite_quiet) | (with_reducible apply quiet_foldl_fst <;> intros)
                            | (with_reducible apply quiet_foldl_snd <;> intros) | (with_reducible apply quiet_foldl <;> intros) | split))
  all_goals (try simp)
  all_goals (repeat' (first | with_reducible rfl | (with_reducible apply ite_quiet) | (with_reducible apply quiet_foldl_fst <;> intros)
                            | (with_reducible apply quiet_foldl_snd <;> intros) | (with_reducible apply quiet_foldl <;> intros) | split))
  all_goals (try simp)

theorem execDbgSteward_quiet (s : State) (t : State) (h : execDbgSteward s = .next t) : t.quiet = s.quiet := by
  unfold execDbgSteward at h
  injection h with h
  subst h
  try simp only []
  repeat' (first | with_reducible rfl | (with_reducible apply ite_quiet) | (with_reducible apply quiet_foldl_fst <;> intros)
                 | (with_reducible apply quiet_foldl_snd <;> intros) | (with_reducible apply quiet_foldl <;> intros) | split)
  all_goals (try simp only [apply_ite State.quiet, ite_self])
  all_goals (try simp)
  all_goals (repeat' (first | with_reducible rfl | (with_reducible apply ite_quiet) | (with_reducible apply quiet_foldl_fst <;> intros)
                            | (with_reducible apply quiet_foldl_snd <;> intros) | (with_reducible apply quiet_foldl <;> intros) | split))
  all_goals (try simp)
  all_goals (repeat' (first | with_reducible rfl | (with_reducible apply ite_quiet) | (with_reducible apply quiet_foldl_fst <;> intros)
                            | (with_reducible apply quiet_foldl_snd <;> intros) | (with_reducible apply quiet_foldl <;> intros) | split))
  all_goals (try simp)

theorem execDbgFabric_quiet (s : State) (t : State) (h : execDbgFabric s = .next t) : t.quiet = s.quiet := by
  unfold execDbgFabric at h
  injection h with h
  subst h
  try simp only []
  repeat' (first | with_reducible rfl | (with_reducible apply ite_quiet) | (with_reducible apply quiet_foldl_fst <;> intros)
                 | (with_reducible apply quiet_foldl_snd <;> intros) | (with_reducible apply quiet_foldl <;> intros) | split)
  all_goals (try simp only [apply_ite State.quiet, ite_self])
  all_goals (try simp)
  all_goals (repeat' (first | with_reducible rfl | (with_reducible apply ite_quiet) | (with_reducible apply quiet_foldl_fst <;> intros)
                            | (with_reducible apply quiet_foldl_snd <;> intros) | (with_reducible apply quiet_foldl <;> intros) | split))
  all_goals (try simp)
  all_goals (repeat' (first | with_reducible rfl | (with_reducible apply ite_quiet) | (with_reducible apply quiet_foldl_fst <;> intros)
                            | (with_reducible apply quiet_foldl_snd <;> intros) | (with_reducible apply quiet_foldl <;> intros) | split))
  all_goals (try simp)

@[simp] theorem State.startSession_quiet (s : State) (fenic : Bool) (a : OpenArgs) (host : Nat) :
    (s.startSession fenic a host).quiet = s.quiet := by
  unfold State.startSession
  try simp only []
  repeat' (first | with_reducible rfl | (with_reducible apply ite_quiet) | (with_reducible apply quiet_foldl_fst <;> intros)
                 | (with_reducible apply quiet_foldl_snd <;> intros) | (with_reducible apply quiet_foldl <;> intros) | split)
  all_goals (try simp only [apply_ite State.quiet, ite_self])
  all_goals (try simp)
  all_goals (repeat' (first | with_reducible rfl | (with_reducible apply ite_quiet) | (with_reducible apply quiet_foldl_fst <;> intros)
                            | (with_reducible apply quiet_foldl_snd <;> intros) | (with_reducible apply quiet_foldl <;> intros) | split))
  all_goals (try simp)
  all_goals (repeat' (first | with_reducible rfl | (with_reducible apply ite_quiet) | (with_reducible apply quiet_foldl_fst <;> intros)
                            | (with_reducible apply quiet_foldl_snd <;> intros) | (with_reducible apply quiet_foldl <;> intros) | split))
  all_goals (try simp)

@[simp] theorem State.openSession_quiet (s : State) (fenic : Bool) (h : CmdHdr) (a : OpenArgs) (host : Class → Nat) :
    (s.openSession fenic h a host).quiet = s.quiet := by
  unfold State.openSession
  split
  · simp
  · simp
  · refine ite_quiet (by simp) (ite_quiet rfl ?_)
    split
    · simp
    · refine ite_quiet (by simp) ?_
      split
      · simp
      · next e => simpa using State.emInsert_quiet e

theorem execSessionOpen_quiet
    (h : CmdHdr) (a : OpenArgs) (s : State) (t : State) (h : execSessionOpen h a s = .next t) : t.quiet = s.quiet := by
  unfold execSessionOpen at h
  injection h with h
  subst h
  try simp only []
  repeat' (first | with_reducible rfl | (with_reducible apply State.serve_quiet; intros) | (with_reducible apply ite_quiet)
                 | (with_reducible apply quiet_foldl_fst <;> intros) | (with_reducible apply quiet_foldl_snd <;> intros)
                 | (with_reducible apply quiet_foldl <;> intros) | split)
  all_goals (try simp only [apply_ite State.quiet, ite_self])
  all_goals (try simp)
  all_goals (repeat' (first | with_reducible rfl | (with_reducible apply State.serve_quiet; intros) | (with_reducible apply ite_quiet)
                            | (with_reducible apply quiet_foldl_fst <;> intros) | (with_reducible apply quiet_foldl_snd <;> intros)
                            | (with_reducible apply quiet_foldl <;> intros) | split))
  all_goals (try simp)
  all_goals (repeat' (first | with_reducible rfl | (with_reducible apply State.serve_quiet; intros) | (with_reducible apply ite_quiet)
                            | (with_reducible apply quiet_foldl_fst <;> intros) | (with_reducible apply quiet_foldl_snd <;> intros)
                            | (with_reducible apply quiet_foldl <;> intros) | split))
  all_goals (try simp)

theorem execOpenStream_quiet
    (h : CmdHdr) (ch width height target : Nat) (s : State) (t : State) (h : execOpenStream h ch width height target s = .next t) : t.quiet = s.quiet := by
  unfold execOpenStream at h
  injection h with h
  subst h
  try simp only []
  repeat' (first | with_reducible rfl | (with_reducible apply State.serve_quiet; intros) | (with_reducible apply ite_quiet)
                 | (with_reducible apply quiet_foldl_fst <;> intros) | (with_reducible apply quiet_foldl_snd <;> intros)
                 | (with_reducible apply quiet_foldl <;> intros) | split)
  all_goals (try simp only [apply_ite State.quiet, ite_self])
  all_goals (try simp)
  all_goals (repeat' (first | with_reducible rfl | (with_reducible apply State.serve_quiet; intros) | (with_reducible apply ite_quiet)
                            | (with_reducible apply quiet_foldl_fst <;> intros) | (with_reducible apply quiet_foldl_snd <;> intros)
                            | (with_reducible apply quiet_foldl <;> intros) | split))
  all_goals (try simp)
  all_goals (repeat' (first | with_reducible rfl | (with_reducible apply State.serve_quiet; intros) | (with_reducible apply ite_quiet)
                            | (with_reducible apply quiet_foldl_fst <;> intros) | (with_reducible apply quiet_foldl_snd <;> intros)
                            | (with_reducible apply quiet_foldl <;> intros) | split))
  all_goals (try simp)

@[simp] theorem State.unbind_quiet (s : State) (x : Nat) : (s.unbind x).quiet = s.quiet := by
  unfold State.unbind
  try simp only []
  repeat' (first | with_reducible rfl | (with_reducible apply ite_quiet) | (with_reducible apply quiet_foldl_fst <;> intros)
                 | (with_reducible apply quiet_foldl_snd <;> intros) | (with_reducible apply quiet_foldl <;> intros) | split)
  all_goals (try simp only [apply_ite State.quiet, ite_self])
  all_goals (try simp)
  all_goals (repeat' (first | with_reducible rfl | (with_reducible apply ite_quiet) | (with_reducible apply quiet_foldl_fst <;> intros)
                            | (with_reducible apply quiet_foldl_snd <;> intros) | (with_reducible apply quiet_foldl <;> intros) | split))
  all_goals (try simp)
  all_goals (repeat' (first | with_reducible rfl | (with_reducible apply ite_quiet) | (with_reducible apply quiet_foldl_fst <;> intros)
                            | (with_reducible apply quiet_foldl_snd <;> intros) | (with_reducible apply quiet_foldl <;> intros) | split))
  all_goals (try simp)

@[simp] theorem State.unlinkChain_quiet (s : State) (ch : Nat) : (s.unlinkChain ch).quiet = s.quiet := by
  unfold State.unlinkChain
  try simp only []
  repeat' (first | with_reducible rfl | (with_reducible apply ite_quiet) | (with_reducible apply quiet_foldl_fst <;> intros)
                 | (with_reducible apply quiet_foldl_snd <;> intros) | (with_reducible apply quiet_foldl <;> intros) | split)
  all_goals (try simp only [apply_ite State.quiet, ite_self])
  all_goals (try simp)
  all_goals (repeat' (first | with_reducible rfl | (with_reducible apply ite_quiet) | (with_reducible apply quiet_foldl_fst <;> intros)
                            | (with_reducible apply quiet_foldl_snd <;> intros) | (with_reducible apply quiet_foldl <;> intros) | split))
  all_goals (try simp)
  all_goals (repeat' (first | with_reducible rfl | (with_reducible apply ite_quiet) | (with_reducible apply quiet_foldl_fst <;> intros)
                            | (with_reducible apply quiet_foldl_snd <;> intros) | (with_reducible apply quiet_foldl <;> intros) | split))
  all_goals (try simp)

@[simp] theorem State.closeSession_quiet (s : State) (ch : Nat) : (s.closeSession ch).quiet = s.quiet := by
  unfold State.closeSession
  try simp only []
  repeat' (first | with_reducible rfl | (with_reducible apply ite_quiet) | (with_reducible apply quiet_foldl_fst <;> intros)
                 | (with_reducible apply quiet_foldl_snd <;> intros) | (with_reducible apply quiet_foldl <;> intros) | split)
  all_goals (try simp only [apply_ite State.quiet, ite_self])
  all_goals (try simp)
  all_goals (repeat' (first | with_reducible rfl | (with_reducible apply ite_quiet) | (with_reducible apply quiet_foldl_fst <;> intros)
                            | (with_reducible apply quiet_foldl_snd <;> intros) | (with_reducible apply quiet_foldl <;> intros) | split))
  all_goals (try simp)
  all_goals (repeat' (first | with_reducible rfl | (with_reducible apply ite_quiet) | (with_reducible apply quiet_foldl_fst <;> intros)
                            | (with_reducible apply quiet_foldl_snd <;> intros) | (with_reducible apply quiet_foldl <;> intros) | split))
  all_goals (try simp)

@[simp] theorem State.closeCommand_quiet (s : State)
    (h : CmdHdr) (ch : Nat) (rsvOk fenic : Bool) : (s.closeCommand h ch rsvOk fenic).quiet = s.quiet := by
  unfold State.closeCommand
  try simp only []
  repeat' (first | with_reducible rfl | (with_reducible apply ite_quiet) | (with_reducible apply quiet_foldl_fst <;> intros)
                 | (with_reducible apply quiet_foldl_snd <;> intros) | (with_reducible apply quiet_foldl <;> intros) | split)
  all_goals (try simp only [apply_ite State.quiet, ite_self])
  all_goals (try simp)
  all_goals (repeat' (first | with_reducible rfl | (with_reducible apply ite_quiet) | (with_reducible apply quiet_foldl_fst <;> intros)
                            | (with_reducible apply quiet_foldl_snd <;> intros) | (with_reducible apply quiet_foldl <;> intros) | split))
  all_goals (try simp)
  all_goals (repeat' (first | with_reducible rfl | (with_reducible apply ite_quiet) | (with_reducible apply quiet_foldl_fst <;> intros)
                            | (with_reducible apply quiet_foldl_snd <;> intros) | (with_reducible apply quiet_foldl <;> intros) | split))
  all_goals (try simp)

theorem execSessionClose_quiet
    (h : CmdHdr) (ch : Nat) (rsvOk : Bool) (s : State) (t : State) (h : execSessionClose h ch rsvOk s = .next t) : t.quiet = s.quiet := by
  unfold execSessionClose at h
  injection h with h
  subst h
  try simp only []
  repeat' (first | with_reducible rfl | (with_reducible apply State.serve_quiet; intros) | (with_reducible apply ite_quiet)
                 | (with_reducible apply quiet_foldl_fst <;> intros) | (with_reducible apply quiet_foldl_snd <;> intros)
                 | (with_reducible apply quiet_foldl <;> intros) | split)
  all_goals (try simp only [apply_ite State.quiet, ite_self])
  all_goals (try simp)
  all_goals (repeat' (first | with_reducible rfl | (with_reducible apply State.serve_quiet; intros) | (with_reducible apply ite_quiet)
                            | (with_reducible apply quiet_foldl_fst <;> intros) | (with_reducible apply quiet_foldl_snd <;> intros)
                            | (with_reducible apply quiet_foldl <;> intros) | split))
  all_goals (try simp)
  all_goals (repeat' (first | with_reducible rfl | (with_reducible apply State.serve_quiet; intros) | (with_reducible apply ite_quiet)
                            | (with_reducible apply quiet_foldl_fst <;> intros) | (with_reducible apply quiet_foldl_snd <;> intros)
                            | (with_reducible apply quiet_foldl <;> intros) | split))
  all_goals (try simp)

theorem execCloseStream_quiet
    (h : CmdHdr) (ch : Nat) (s : State) (t : State) (h : execCloseStream h ch s = .next t) : t.quiet = s.quiet := by
  unfold execCloseStream at h
  injection h with h
  subst h
  try simp only []
  repeat' (first | with_reducible rfl | (with_reducible apply State.serve_quiet; intros) | (with_reducible apply ite_quiet)
                 | (with_reducible apply quiet_foldl_fst <;> intros) | (with_reducible apply quiet_foldl_snd <;> intros)
                 | (with_reducible apply quiet_foldl <;> intros) | split)
  all_goals (try simp only [apply_ite State.quiet, ite_self])
  all_goals (try simp)
  all_goals (repeat' (first | with_reducible rfl | (with_reducible apply State.serve_quiet; intros) | (with_reducible apply ite_quiet)
                            | (with_reducible apply quiet_foldl_fst <;> intros) | (with_reducible apply quiet_foldl_snd <;> intros)
                            | (with_reducible apply quiet_foldl <;> intros) | split))
  all_goals (try simp)
  all_goals (repeat' (first | with_reducible rfl | (with_reducible apply State.serve_quiet; intros) | (with_reducible apply ite_quiet)
                            | (with_reducible apply quiet_foldl_fst <;> intros) | (with_reducible apply quiet_foldl_snd <;> intros)
                            | (with_reducible apply quiet_foldl <;> intros) | split))
  all_goals (try simp)

@[simp] theorem State.openCtx_quiet (s : State) (a : CtxArgs) : (s.openCtx a).quiet = s.quiet := by
  unfold State.openCtx
  try simp only []
  repeat' (first | with_reducible rfl | (with_reducible apply ite_quiet) | (with_reducible apply quiet_foldl_fst <;> intros)
                 | (with_reducible apply quiet_foldl_snd <;> intros) | (with_reducible apply quiet_foldl <;> intros) | split)
  all_goals (try simp only [apply_ite State.quiet, ite_self])
  all_goals (try simp)
  all_goals (repeat' (first | with_reducible rfl | (with_reducible apply ite_quiet) | (with_reducible apply quiet_foldl_fst <;> intros)
                            | (with_reducible apply quiet_foldl_snd <;> intros) | (with_reducible apply quiet_foldl <;> intros) | split))
  all_goals (try simp)
  all_goals (repeat' (first | with_reducible rfl | (with_reducible apply ite_quiet) | (with_reducible apply quiet_foldl_fst <;> intros)
                            | (with_reducible apply quiet_foldl_snd <;> intros) | (with_reducible apply quiet_foldl <;> intros) | split))
  all_goals (try simp)

theorem execSessionOpenContext_quiet
    (h : CmdHdr) (a : CtxArgs) (s : State) (t : State) (h : execSessionOpenContext h a s = .next t) : t.quiet = s.quiet := by
  unfold execSessionOpenContext at h
  injection h with h
  subst h
  try simp only []
  repeat' (first | with_reducible rfl | (with_reducible apply State.serve_quiet; intros) | (with_reducible apply ite_quiet)
                 | (with_reducible apply quiet_foldl_fst <;> intros) | (with_reducible apply quiet_foldl_snd <;> intros)
                 | (with_reducible apply quiet_foldl <;> intros) | split)
  all_goals (try simp only [apply_ite State.quiet, ite_self])
  all_goals (try simp)
  all_goals (repeat' (first | with_reducible rfl | (with_reducible apply State.serve_quiet; intros) | (with_reducible apply ite_quiet)
                            | (with_reducible apply quiet_foldl_fst <;> intros) | (with_reducible apply quiet_foldl_snd <;> intros)
                            | (with_reducible apply quiet_foldl <;> intros) | split))
  all_goals (try simp)
  all_goals (repeat' (first | with_reducible rfl | (with_reducible apply State.serve_quiet; intros) | (with_reducible apply ite_quiet)
                            | (with_reducible apply quiet_foldl_fst <;> intros) | (with_reducible apply quiet_foldl_snd <;> intros)
                            | (with_reducible apply quiet_foldl <;> intros) | split))
  all_goals (try simp)
  all_goals exact State.emInsert_quiet (by assumption)
@[simp] theorem State.closeCtx_quiet (s : State) (x : Nat) : (s.closeCtx x).quiet = s.quiet := by
  unfold State.closeCtx
  try simp only []
  repeat' (first | with_reducible rfl | (with_reducible apply ite_quiet) | (with_reducible apply quiet_foldl_fst <;> intros)
                 | (with_reducible apply quiet_foldl_snd <;> intros) | (with_reducible apply quiet_foldl <;> intros) | split)
  all_goals (try simp only [apply_ite State.quiet, ite_self])
  all_goals (try simp)
  all_goals (repeat' (first | with_reducible rfl | (with_reducible apply ite_quiet) | (with_reducible apply quiet_foldl_fst <;> intros)
                            | (with_reducible apply quiet_foldl_snd <;> intros) | (with_reducible apply quiet_foldl <;> intros) | split))
  all_goals (try simp)
  all_goals (repeat' (first | with_reducible rfl | (with_reducible apply ite_quiet) | (with_reducible apply quiet_foldl_fst <;> intros)
                            | (with_reducible apply quiet_foldl_snd <;> intros) | (with_reducible apply quiet_foldl <;> intros) | split))
  all_goals (try simp)

theorem execSessionCloseContext_quiet
    (h : CmdHdr) (dcx : Nat) (rsvOk : Bool) (s : State) (t : State) (h : execSessionCloseContext h dcx rsvOk s = .next t) : t.quiet = s.quiet := by
  unfold execSessionCloseContext at h
  injection h with h
  subst h
  try simp only []
  repeat' (first | with_reducible rfl | (with_reducible apply State.serve_quiet; intros) | (with_reducible apply ite_quiet)
                 | (with_reducible apply quiet_foldl_fst <;> intros) | (with_reducible apply quiet_foldl_snd <;> intros)
                 | (with_reducible apply quiet_foldl <;> intros) | split)
  all_goals (try simp only [apply_ite State.quiet, ite_self])
  all_goals (try simp)
  all_goals (repeat' (first | with_reducible rfl | (with_reducible apply State.serve_quiet; intros) | (with_reducible apply ite_quiet)
                            | (with_reducible apply quiet_foldl_fst <;> intros) | (with_reducible apply quiet_foldl_snd <;> intros)
                            | (with_reducible apply quiet_foldl <;> intros) | split))
  all_goals (try simp)
  all_goals (repeat' (first | with_reducible rfl | (with_reducible apply State.serve_quiet; intros) | (with_reducible apply ite_quiet)
                            | (with_reducible apply quiet_foldl_fst <;> intros) | (with_reducible apply quiet_foldl_snd <;> intros)
                            | (with_reducible apply quiet_foldl <;> intros) | split))
  all_goals (try simp)

@[simp] theorem State.allocBody_quiet (s : State) : (s.allocBody).2.quiet = s.quiet := by
  unfold State.allocBody
  try simp only []
  repeat' (first | with_reducible rfl | (with_reducible apply ite_quiet) | (with_reducible apply quiet_foldl_fst <;> intros)
                 | (with_reducible apply quiet_foldl_snd <;> intros) | (with_reducible apply quiet_foldl <;> intros) | split)
  all_goals (try simp only [apply_ite State.quiet, ite_self])
  all_goals (try simp)
  all_goals (repeat' (first | with_reducible rfl | (with_reducible apply ite_quiet) | (with_reducible apply quiet_foldl_fst <;> intros)
                            | (with_reducible apply quiet_foldl_snd <;> intros) | (with_reducible apply quiet_foldl <;> intros) | split))
  all_goals (try simp)
  all_goals (repeat' (first | with_reducible rfl | (with_reducible apply ite_quiet) | (with_reducible apply quiet_foldl_fst <;> intros)
                            | (with_reducible apply quiet_foldl_snd <;> intros) | (with_reducible apply quiet_foldl <;> intros) | split))
  all_goals (try simp)

@[simp] theorem State.linkBody_quiet (s : State) (k : Nat) (a : AddArgs) : (s.linkBody k a).quiet = s.quiet := by
  unfold State.linkBody
  try simp only []
  repeat' (first | with_reducible rfl | (with_reducible apply ite_quiet) | (with_reducible apply quiet_foldl_fst <;> intros)
                 | (with_reducible apply quiet_foldl_snd <;> intros) | (with_reducible apply quiet_foldl <;> intros) | split)
  all_goals (try simp only [apply_ite State.quiet, ite_self])
  all_goals (try simp)
  all_goals (repeat' (first | with_reducible rfl | (with_reducible apply ite_quiet) | (with_reducible apply quiet_foldl_fst <;> intros)
                            | (with_reducible apply quiet_foldl_snd <;> intros) | (with_reducible apply quiet_foldl <;> intros) | split))
  all_goals (try simp)
  all_goals (repeat' (first | with_reducible rfl | (with_reducible apply ite_quiet) | (with_reducible apply quiet_foldl_fst <;> intros)
                            | (with_reducible apply quiet_foldl_snd <;> intros) | (with_reducible apply quiet_foldl <;> intros) | split))
  all_goals (try simp)

@[simp] theorem State.addBody_quiet (s : State) (h : CmdHdr) (a : AddArgs) : (s.addBody h a).quiet = s.quiet := by
  have ha := State.allocBody_quiet s
  unfold State.addBody
  split
  · simp
  · simp only []
    split
    · simp
    · split
      · next e => rw [e] at ha; simpa using ha
      · next e =>
        rw [e] at ha
        split
        · simpa using ha
        · next e' => simpa using (State.emInsert_quiet e').trans ha

@[simp] theorem State.addDelivery_quiet (s : State) (h : CmdHdr) (a : AddArgs) : (s.addDelivery h a).quiet = s.quiet := by
  unfold State.addDelivery
  try simp only []
  repeat' (first | with_reducible rfl | (with_reducible apply ite_quiet) | (with_reducible apply quiet_foldl_fst <;> intros)
                 | (with_reducible apply quiet_foldl_snd <;> intros) | (with_reducible apply quiet_foldl <;> intros) | split)
  all_goals (try simp only [apply_ite State.quiet, ite_self])
  all_goals (try simp)
  all_goals (repeat' (first | with_reducible rfl | (with_reducible apply ite_quiet) | (with_reducible apply quiet_foldl_fst <;> intros)
                            | (with_reducible apply quiet_foldl_snd <;> intros) | (with_reducible apply quiet_foldl <;> intros) | split))
  all_goals (try simp)
  all_goals (repeat' (first | with_reducible rfl | (with_reducible apply ite_quiet) | (with_reducible apply quiet_foldl_fst <;> intros)
                            | (with_reducible apply quiet_foldl_snd <;> intros) | (with_reducible apply quiet_foldl <;> intros) | split))
  all_goals (try simp)

theorem execDeliveryAdd_quiet
    (h : CmdHdr) (a : AddArgs) (s : State) (t : State) (h : execDeliveryAdd h a s = .next t) : t.quiet = s.quiet := by
  unfold execDeliveryAdd at h
  injection h with h
  subst h
  try simp only []
  repeat' (first | with_reducible rfl | (with_reducible apply State.serve_quiet; intros) | (with_reducible apply ite_quiet)
                 | (with_reducible apply quiet_foldl_fst <;> intros) | (with_reducible apply quiet_foldl_snd <;> intros)
                 | (with_reducible apply quiet_foldl <;> intros) | split)
  all_goals (try simp only [apply_ite State.quiet, ite_self])
  all_goals (try simp)
  all_goals (repeat' (first | with_reducible rfl | (with_reducible apply State.serve_quiet; intros) | (with_reducible apply ite_quiet)
                            | (with_reducible apply quiet_foldl_fst <;> intros) | (with_reducible apply quiet_foldl_snd <;> intros)
                            | (with_reducible apply quiet_foldl <;> intros) | split))
  all_goals (try simp)
  all_goals (repeat' (first | with_reducible rfl | (with_reducible apply State.serve_quiet; intros) | (with_reducible apply ite_quiet)
                            | (with_reducible apply quiet_foldl_fst <;> intros) | (with_reducible apply quiet_foldl_snd <;> intros)
                            | (with_reducible apply quiet_foldl <;> intros) | split))
  all_goals (try simp)

theorem execAddDest_quiet (h : CmdHdr) (a : DestArgs) (s : State) (t : State) (h : execAddDest h a s = .next t) : t.quiet = s.quiet := by
  unfold execAddDest at h
  injection h with h
  subst h
  try simp only []
  repeat' (first | with_reducible rfl | (with_reducible apply State.serve_quiet; intros) | (with_reducible apply ite_quiet)
                 | (with_reducible apply quiet_foldl_fst <;> intros) | (with_reducible apply quiet_foldl_snd <;> intros)
                 | (with_reducible apply quiet_foldl <;> intros) | split)
  all_goals (try simp only [apply_ite State.quiet, ite_self])
  all_goals (try simp)
  all_goals (repeat' (first | with_reducible rfl | (with_reducible apply State.serve_quiet; intros) | (with_reducible apply ite_quiet)
                            | (with_reducible apply quiet_foldl_fst <;> intros) | (with_reducible apply quiet_foldl_snd <;> intros)
                            | (with_reducible apply quiet_foldl <;> intros) | split))
  all_goals (try simp)
  all_goals (repeat' (first | with_reducible rfl | (with_reducible apply State.serve_quiet; intros) | (with_reducible apply ite_quiet)
                            | (with_reducible apply quiet_foldl_fst <;> intros) | (with_reducible apply quiet_foldl_snd <;> intros)
                            | (with_reducible apply quiet_foldl <;> intros) | split))
  all_goals (try simp)

@[simp] theorem State.delDelivery_quiet (s : State) (h : CmdHdr) (handle : Nat) : (s.delDelivery h handle).quiet = s.quiet := by
  unfold State.delDelivery
  try simp only []
  repeat' (first | with_reducible rfl | (with_reducible apply ite_quiet) | (with_reducible apply quiet_foldl_fst <;> intros)
                 | (with_reducible apply quiet_foldl_snd <;> intros) | (with_reducible apply quiet_foldl <;> intros) | split)
  all_goals (try simp only [apply_ite State.quiet, ite_self])
  all_goals (try simp)
  all_goals (repeat' (first | with_reducible rfl | (with_reducible apply ite_quiet) | (with_reducible apply quiet_foldl_fst <;> intros)
                            | (with_reducible apply quiet_foldl_snd <;> intros) | (with_reducible apply quiet_foldl <;> intros) | split))
  all_goals (try simp)
  all_goals (repeat' (first | with_reducible rfl | (with_reducible apply ite_quiet) | (with_reducible apply quiet_foldl_fst <;> intros)
                            | (with_reducible apply quiet_foldl_snd <;> intros) | (with_reducible apply quiet_foldl <;> intros) | split))
  all_goals (try simp)

theorem execDeliveryDel_quiet
    (h : CmdHdr) (handle : Nat) (s : State) (t : State) (h : execDeliveryDel h handle s = .next t) : t.quiet = s.quiet := by
  unfold execDeliveryDel at h
  injection h with h
  subst h
  try simp only []
  repeat' (first | with_reducible rfl | (with_reducible apply State.serve_quiet; intros) | (with_reducible apply ite_quiet)
                 | (with_reducible apply quiet_foldl_fst <;> intros) | (with_reducible apply quiet_foldl_snd <;> intros)
                 | (with_reducible apply quiet_foldl <;> intros) | split)
  all_goals (try simp only [apply_ite State.quiet, ite_self])
  all_goals (try simp)
  all_goals (repeat' (first | with_reducible rfl | (with_reducible apply State.serve_quiet; intros) | (with_reducible apply ite_quiet)
                            | (with_reducible apply quiet_foldl_fst <;> intros) | (with_reducible apply quiet_foldl_snd <;> intros)
                            | (with_reducible apply quiet_foldl <;> intros) | split))
  all_goals (try simp)
  all_goals (repeat' (first | with_reducible rfl | (with_reducible apply State.serve_quiet; intros) | (with_reducible apply ite_quiet)
                            | (with_reducible apply quiet_foldl_fst <;> intros) | (with_reducible apply quiet_foldl_snd <;> intros)
                            | (with_reducible apply quiet_foldl <;> intros) | split))
  all_goals (try simp)

theorem execDelDest_quiet
    (h : CmdHdr) (handle : Nat) (s : State) (t : State) (h : execDelDest h handle s = .next t) : t.quiet = s.quiet := by
  unfold execDelDest at h
  injection h with h
  subst h
  try simp only []
  repeat' (first | with_reducible rfl | (with_reducible apply State.serve_quiet; intros) | (with_reducible apply ite_quiet)
                 | (with_reducible apply quiet_foldl_fst <;> intros) | (with_reducible apply quiet_foldl_snd <;> intros)
                 | (with_reducible apply quiet_foldl <;> intros) | split)
  all_goals (try simp only [apply_ite State.quiet, ite_self])
  all_goals (try simp)
  all_goals (repeat' (first | with_reducible rfl | (with_reducible apply State.serve_quiet; intros) | (with_reducible apply ite_quiet)
                            | (with_reducible apply quiet_foldl_fst <;> intros) | (with_reducible apply quiet_foldl_snd <;> intros)
                            | (with_reducible apply quiet_foldl <;> intros) | split))
  all_goals (try simp)
  all_goals (repeat' (first | with_reducible rfl | (with_reducible apply State.serve_quiet; intros) | (with_reducible apply ite_quiet)
                            | (with_reducible apply quiet_foldl_fst <;> intros) | (with_reducible apply quiet_foldl_snd <;> intros)
                            | (with_reducible apply quiet_foldl <;> intros) | split))
  all_goals (try simp)

@[simp] theorem State.setTarget_quiet (s : State) (h : CmdHdr) (ch value : Nat) : (s.setTarget h ch value).quiet = s.quiet := by
  unfold State.setTarget
  try simp only []
  repeat' (first | with_reducible rfl | (with_reducible apply ite_quiet) | (with_reducible apply quiet_foldl_fst <;> intros)
                 | (with_reducible apply quiet_foldl_snd <;> intros) | (with_reducible apply quiet_foldl <;> intros) | split)
  all_goals (try simp only [apply_ite State.quiet, ite_self])
  all_goals (try simp)
  all_goals (repeat' (first | with_reducible rfl | (with_reducible apply ite_quiet) | (with_reducible apply quiet_foldl_fst <;> intros)
                            | (with_reducible apply quiet_foldl_snd <;> intros) | (with_reducible apply quiet_foldl <;> intros) | split))
  all_goals (try simp)
  all_goals (repeat' (first | with_reducible rfl | (with_reducible apply ite_quiet) | (with_reducible apply quiet_foldl_fst <;> intros)
                            | (with_reducible apply quiet_foldl_snd <;> intros) | (with_reducible apply quiet_foldl <;> intros) | split))
  all_goals (try simp)

theorem execTargetSet_quiet
    (h : CmdHdr) (ch value : Nat) (s : State) (t : State) (h : execTargetSet h ch value s = .next t) : t.quiet = s.quiet := by
  unfold execTargetSet at h
  injection h with h
  subst h
  try simp only []
  repeat' (first | with_reducible rfl | (with_reducible apply State.serve_quiet; intros) | (with_reducible apply ite_quiet)
                 | (with_reducible apply quiet_foldl_fst <;> intros) | (with_reducible apply quiet_foldl_snd <;> intros)
                 | (with_reducible apply quiet_foldl <;> intros) | split)
  all_goals (try simp only [apply_ite State.quiet, ite_self])
  all_goals (try simp)
  all_goals (repeat' (first | with_reducible rfl | (with_reducible apply State.serve_quiet; intros) | (with_reducible apply ite_quiet)
                            | (with_reducible apply quiet_foldl_fst <;> intros) | (with_reducible apply quiet_foldl_snd <;> intros)
                            | (with_reducible apply quiet_foldl <;> intros) | split))
  all_goals (try simp)
  all_goals (repeat' (first | with_reducible rfl | (with_reducible apply State.serve_quiet; intros) | (with_reducible apply ite_quiet)
                            | (with_reducible apply quiet_foldl_fst <;> intros) | (with_reducible apply quiet_foldl_snd <;> intros)
                            | (with_reducible apply quiet_foldl <;> intros) | split))
  all_goals (try simp)

theorem execSetBitrate_quiet
    (h : CmdHdr) (ch value : Nat) (s : State) (t : State) (h : execSetBitrate h ch value s = .next t) : t.quiet = s.quiet := by
  unfold execSetBitrate at h
  injection h with h
  subst h
  try simp only []
  repeat' (first | with_reducible rfl | (with_reducible apply State.serve_quiet; intros) | (with_reducible apply ite_quiet)
                 | (with_reducible apply quiet_foldl_fst <;> intros) | (with_reducible apply quiet_foldl_snd <;> intros)
                 | (with_reducible apply quiet_foldl <;> intros) | split)
  all_goals (try simp only [apply_ite State.quiet, ite_self])
  all_goals (try simp)
  all_goals (repeat' (first | with_reducible rfl | (with_reducible apply State.serve_quiet; intros) | (with_reducible apply ite_quiet)
                            | (with_reducible apply quiet_foldl_fst <;> intros) | (with_reducible apply quiet_foldl_snd <;> intros)
                            | (with_reducible apply quiet_foldl <;> intros) | split))
  all_goals (try simp)
  all_goals (repeat' (first | with_reducible rfl | (with_reducible apply State.serve_quiet; intros) | (with_reducible apply ite_quiet)
                            | (with_reducible apply quiet_foldl_fst <;> intros) | (with_reducible apply quiet_foldl_snd <;> intros)
                            | (with_reducible apply quiet_foldl <;> intros) | split))
  all_goals (try simp)

theorem execTargetSetDelivery_quiet
    (h : CmdHdr) (handle value : Nat) (s : State) (t : State) (h : execTargetSetDelivery h handle value s = .next t) : t.quiet = s.quiet := by
  unfold execTargetSetDelivery at h
  injection h with h
  subst h
  try simp only []
  repeat' (first | with_reducible rfl | (with_reducible apply State.serve_quiet; intros) | (with_reducible apply ite_quiet)
                 | (with_reducible apply quiet_foldl_fst <;> intros) | (with_reducible apply quiet_foldl_snd <;> intros)
                 | (with_reducible apply quiet_foldl <;> intros) | split)
  all_goals (try simp only [apply_ite State.quiet, ite_self])
  all_goals (try simp)
  all_goals (repeat' (first | with_reducible rfl | (with_reducible apply State.serve_quiet; intros) | (with_reducible apply ite_quiet)
                            | (with_reducible apply quiet_foldl_fst <;> intros) | (with_reducible apply quiet_foldl_snd <;> intros)
                            | (with_reducible apply quiet_foldl <;> intros) | split))
  all_goals (try simp)
  all_goals (repeat' (first | with_reducible rfl | (with_reducible apply State.serve_quiet; intros) | (with_reducible apply ite_quiet)
                            | (with_reducible apply quiet_foldl_fst <;> intros) | (with_reducible apply quiet_foldl_snd <;> intros)
                            | (with_reducible apply quiet_foldl <;> intros) | split))
  all_goals (try simp)

theorem execRulesetSwap_quiet
    (h : CmdHdr) (idx : Nat) (s : State) (t : State) (h : execRulesetSwap h idx s = .next t) : t.quiet = s.quiet := by
  unfold execRulesetSwap at h
  injection h with h
  subst h
  try simp only []
  repeat' (first | with_reducible rfl | (with_reducible apply State.serve_quiet; intros) | (with_reducible apply ite_quiet)
                 | (with_reducible apply quiet_foldl_fst <;> intros) | (with_reducible apply quiet_foldl_snd <;> intros)
                 | (with_reducible apply quiet_foldl <;> intros) | split)
  all_goals (try simp only [apply_ite State.quiet, ite_self])
  all_goals (try simp)
  all_goals (repeat' (first | with_reducible rfl | (with_reducible apply State.serve_quiet; intros) | (with_reducible apply ite_quiet)
                            | (with_reducible apply quiet_foldl_fst <;> intros) | (with_reducible apply quiet_foldl_snd <;> intros)
                            | (with_reducible apply quiet_foldl <;> intros) | split))
  all_goals (try simp)
  all_goals (repeat' (first | with_reducible rfl | (with_reducible apply State.serve_quiet; intros) | (with_reducible apply ite_quiet)
                            | (with_reducible apply quiet_foldl_fst <;> intros) | (with_reducible apply quiet_foldl_snd <;> intros)
                            | (with_reducible apply quiet_foldl <;> intros) | split))
  all_goals (try simp)

@[simp] theorem State.readEffect_quiet (s : State) (off : Nat) : (s.readEffect off).quiet = s.quiet := by
  unfold State.readEffect
  try simp only []
  repeat' (first | with_reducible rfl | (with_reducible apply ite_quiet) | (with_reducible apply quiet_foldl_fst <;> intros)
                 | (with_reducible apply quiet_foldl_snd <;> intros) | (with_reducible apply quiet_foldl <;> intros) | split)
  all_goals (try simp only [apply_ite State.quiet, ite_self])
  all_goals (try simp)
  all_goals (repeat' (first | with_reducible rfl | (with_reducible apply ite_quiet) | (with_reducible apply quiet_foldl_fst <;> intros)
                            | (with_reducible apply quiet_foldl_snd <;> intros) | (with_reducible apply quiet_foldl <;> intros) | split))
  all_goals (try simp)
  all_goals (repeat' (first | with_reducible rfl | (with_reducible apply ite_quiet) | (with_reducible apply quiet_foldl_fst <;> intros)
                            | (with_reducible apply quiet_foldl_snd <;> intros) | (with_reducible apply quiet_foldl <;> intros) | split))
  all_goals (try simp)

@[simp] theorem State.read4_quiet (s : State) (who : Requester) (off : Nat) : (s.read4 who off).2.quiet = s.quiet := by
  unfold State.read4
  try simp only []
  repeat' (first | with_reducible rfl | (with_reducible apply ite_quiet) | (with_reducible apply quiet_foldl_fst <;> intros)
                 | (with_reducible apply quiet_foldl_snd <;> intros) | (with_reducible apply quiet_foldl <;> intros) | split)
  all_goals (try simp only [apply_ite State.quiet, ite_self])
  all_goals (try simp)
  all_goals (repeat' (first | with_reducible rfl | (with_reducible apply ite_quiet) | (with_reducible apply quiet_foldl_fst <;> intros)
                            | (with_reducible apply quiet_foldl_snd <;> intros) | (with_reducible apply quiet_foldl <;> intros) | split))
  all_goals (try simp)
  all_goals (repeat' (first | with_reducible rfl | (with_reducible apply ite_quiet) | (with_reducible apply quiet_foldl_fst <;> intros)
                            | (with_reducible apply quiet_foldl_snd <;> intros) | (with_reducible apply quiet_foldl <;> intros) | split))
  all_goals (try simp)

@[simp] theorem State.read8_quiet (s : State) (who : Requester) (off : Nat) : (s.read8 who off).quiet = s.quiet := by
  unfold State.read8
  try simp only []
  repeat' (first | with_reducible rfl | (with_reducible apply ite_quiet) | (with_reducible apply quiet_foldl_fst <;> intros)
                 | (with_reducible apply quiet_foldl_snd <;> intros) | (with_reducible apply quiet_foldl <;> intros) | split)
  all_goals (try simp only [apply_ite State.quiet, ite_self])
  all_goals (try simp)
  all_goals (repeat' (first | with_reducible rfl | (with_reducible apply ite_quiet) | (with_reducible apply quiet_foldl_fst <;> intros)
                            | (with_reducible apply quiet_foldl_snd <;> intros) | (with_reducible apply quiet_foldl <;> intros) | split))
  all_goals (try simp)
  all_goals (repeat' (first | with_reducible rfl | (with_reducible apply ite_quiet) | (with_reducible apply quiet_foldl_fst <;> intros)
                            | (with_reducible apply quiet_foldl_snd <;> intros) | (with_reducible apply quiet_foldl <;> intros) | split))
  all_goals (try simp)

@[simp] theorem State.answered_quiet (s : State) (who : Requester) : (s.answered who).quiet = s.quiet := by
  cases who <;> simp [State.answered]

@[simp] theorem State.refusedAccess_quiet (s : State) (who : Requester) : (s.refusedAccess who).quiet = s.quiet := by
  cases who <;> simp [State.refusedAccess]

@[simp] theorem State.offBar0_quiet (s : State) (who : Requester) : (s.offBar0 who).quiet = s.quiet := by
  cases who <;> simp [State.offBar0]

theorem execCounterLowRead_quiet (who : Requester) (off : Nat) (s : State) (size : Nat) (t : State)
    (h : execCounterLowRead who off s size = .next t) : t.quiet = s.quiet := by
  unfold execCounterLowRead at h
  injection h with h
  subst h
  try simp only []
  repeat' (first | with_reducible rfl | (with_reducible apply ite_quiet) | (with_reducible apply quiet_foldl_fst <;> intros)
                 | (with_reducible apply quiet_foldl_snd <;> intros) | (with_reducible apply quiet_foldl <;> intros) | split)
  all_goals (try simp only [apply_ite State.quiet, ite_self])
  all_goals (try simp)
  all_goals (repeat' (first | with_reducible rfl | (with_reducible apply ite_quiet) | (with_reducible apply quiet_foldl_fst <;> intros)
                            | (with_reducible apply quiet_foldl_snd <;> intros) | (with_reducible apply quiet_foldl <;> intros) | split))
  all_goals (try simp)
  all_goals (repeat' (first | with_reducible rfl | (with_reducible apply ite_quiet) | (with_reducible apply quiet_foldl_fst <;> intros)
                            | (with_reducible apply quiet_foldl_snd <;> intros) | (with_reducible apply quiet_foldl <;> intros) | split))
  all_goals (try simp)

theorem execSecKeyStatRead_quiet (s : State) (t : State) (h : execSecKeyStatRead s = .next t) : t.quiet = s.quiet := by
  unfold execSecKeyStatRead at h
  injection h with h
  subst h
  try simp only []
  repeat' (first | with_reducible rfl | (with_reducible apply ite_quiet) | (with_reducible apply quiet_foldl_fst <;> intros)
                 | (with_reducible apply quiet_foldl_snd <;> intros) | (with_reducible apply quiet_foldl <;> intros) | split)
  all_goals (try simp only [apply_ite State.quiet, ite_self])
  all_goals (try simp)
  all_goals (repeat' (first | with_reducible rfl | (with_reducible apply ite_quiet) | (with_reducible apply quiet_foldl_fst <;> intros)
                            | (with_reducible apply quiet_foldl_snd <;> intros) | (with_reducible apply quiet_foldl <;> intros) | split))
  all_goals (try simp)
  all_goals (repeat' (first | with_reducible rfl | (with_reducible apply ite_quiet) | (with_reducible apply quiet_foldl_fst <;> intros)
                            | (with_reducible apply quiet_foldl_snd <;> intros) | (with_reducible apply quiet_foldl <;> intros) | split))
  all_goals (try simp)

theorem execFabViolLastRead_quiet (s : State) (t : State) (h : execFabViolLastRead s = .next t) : t.quiet = s.quiet := by
  unfold execFabViolLastRead at h
  injection h with h
  subst h
  try simp only []
  repeat' (first | with_reducible rfl | (with_reducible apply ite_quiet) | (with_reducible apply quiet_foldl_fst <;> intros)
                 | (with_reducible apply quiet_foldl_snd <;> intros) | (with_reducible apply quiet_foldl <;> intros) | split)
  all_goals (try simp only [apply_ite State.quiet, ite_self])
  all_goals (try simp)
  all_goals (repeat' (first | with_reducible rfl | (with_reducible apply ite_quiet) | (with_reducible apply quiet_foldl_fst <;> intros)
                            | (with_reducible apply quiet_foldl_snd <;> intros) | (with_reducible apply quiet_foldl <;> intros) | split))
  all_goals (try simp)
  all_goals (repeat' (first | with_reducible rfl | (with_reducible apply ite_quiet) | (with_reducible apply quiet_foldl_fst <;> intros)
                            | (with_reducible apply quiet_foldl_snd <;> intros) | (with_reducible apply quiet_foldl <;> intros) | split))
  all_goals (try simp)

theorem execRotaTimeNsRead_quiet (s : State) (t : State) (h : execRotaTimeNsRead s = .next t) : t.quiet = s.quiet := by
  unfold execRotaTimeNsRead at h
  injection h with h
  subst h
  try simp only []
  repeat' (first | with_reducible rfl | (with_reducible apply ite_quiet) | (with_reducible apply quiet_foldl_fst <;> intros)
                 | (with_reducible apply quiet_foldl_snd <;> intros) | (with_reducible apply quiet_foldl <;> intros) | split)
  all_goals (try simp only [apply_ite State.quiet, ite_self])
  all_goals (try simp)
  all_goals (repeat' (first | with_reducible rfl | (with_reducible apply ite_quiet) | (with_reducible apply quiet_foldl_fst <;> intros)
                            | (with_reducible apply quiet_foldl_snd <;> intros) | (with_reducible apply quiet_foldl <;> intros) | split))
  all_goals (try simp)
  all_goals (repeat' (first | with_reducible rfl | (with_reducible apply ite_quiet) | (with_reducible apply quiet_foldl_fst <;> intros)
                            | (with_reducible apply quiet_foldl_snd <;> intros) | (with_reducible apply quiet_foldl <;> intros) | split))
  all_goals (try simp)

@[simp] theorem State.storeKey_quiet (s : State) (slot : Nat) (k : List Byte) : (s.storeKey slot k).quiet = s.quiet := by
  unfold State.storeKey
  try simp only []
  repeat' (first | with_reducible rfl | (with_reducible apply ite_quiet) | (with_reducible apply quiet_foldl_fst <;> intros)
                 | (with_reducible apply quiet_foldl_snd <;> intros) | (with_reducible apply quiet_foldl <;> intros) | split)
  all_goals (try simp only [apply_ite State.quiet, ite_self])
  all_goals (try simp)
  all_goals (repeat' (first | with_reducible rfl | (with_reducible apply ite_quiet) | (with_reducible apply quiet_foldl_fst <;> intros)
                            | (with_reducible apply quiet_foldl_snd <;> intros) | (with_reducible apply quiet_foldl <;> intros) | split))
  all_goals (try simp)
  all_goals (repeat' (first | with_reducible rfl | (with_reducible apply ite_quiet) | (with_reducible apply quiet_foldl_fst <;> intros)
                            | (with_reducible apply quiet_foldl_snd <;> intros) | (with_reducible apply quiet_foldl <;> intros) | split))
  all_goals (try simp)

@[simp] theorem State.commitKey_quiet (s : State) (h : CmdHdr) (slot : Nat) (k : List Byte) : (s.commitKey h slot k).quiet = s.quiet := by
  unfold State.commitKey
  try simp only []
  repeat' (first | with_reducible rfl | (with_reducible apply ite_quiet) | (with_reducible apply quiet_foldl_fst <;> intros)
                 | (with_reducible apply quiet_foldl_snd <;> intros) | (with_reducible apply quiet_foldl <;> intros) | split)
  all_goals (try simp only [apply_ite State.quiet, ite_self])
  all_goals (try simp)
  all_goals (repeat' (first | with_reducible rfl | (with_reducible apply ite_quiet) | (with_reducible apply quiet_foldl_fst <;> intros)
                            | (with_reducible apply quiet_foldl_snd <;> intros) | (with_reducible apply quiet_foldl <;> intros) | split))
  all_goals (try simp)
  all_goals (repeat' (first | with_reducible rfl | (with_reducible apply ite_quiet) | (with_reducible apply quiet_foldl_fst <;> intros)
                            | (with_reducible apply quiet_foldl_snd <;> intros) | (with_reducible apply quiet_foldl <;> intros) | split))
  all_goals (try simp)

@[simp] theorem State.unwrapFailed_quiet (s : State) : (s.unwrapFailed).quiet = s.quiet := by
  unfold State.unwrapFailed
  try simp only []
  repeat' (first | with_reducible rfl | (with_reducible apply ite_quiet) | (with_reducible apply quiet_foldl_fst <;> intros)
                 | (with_reducible apply quiet_foldl_snd <;> intros) | (with_reducible apply quiet_foldl <;> intros) | split)
  all_goals (try simp only [apply_ite State.quiet, ite_self])
  all_goals (try simp)
  all_goals (repeat' (first | with_reducible rfl | (with_reducible apply ite_quiet) | (with_reducible apply quiet_foldl_fst <;> intros)
                            | (with_reducible apply quiet_foldl_snd <;> intros) | (with_reducible apply quiet_foldl <;> intros) | split))
  all_goals (try simp)
  all_goals (repeat' (first | with_reducible rfl | (with_reducible apply ite_quiet) | (with_reducible apply quiet_foldl_fst <;> intros)
                            | (with_reducible apply quiet_foldl_snd <;> intros) | (with_reducible apply quiet_foldl <;> intros) | split))
  all_goals (try simp)

@[simp] theorem State.importBlob_quiet (s : State)
    (h : CmdHdr) (len : Nat) (blob : List Byte) (slot : Option Nat) : (s.importBlob h len blob slot).quiet = s.quiet := by
  unfold State.importBlob
  try simp only []
  repeat' (first | with_reducible rfl | (with_reducible apply ite_quiet) | (with_reducible apply quiet_foldl_fst <;> intros)
                 | (with_reducible apply quiet_foldl_snd <;> intros) | (with_reducible apply quiet_foldl <;> intros) | split)
  all_goals (try simp only [apply_ite State.quiet, ite_self])
  all_goals (try simp)
  all_goals (repeat' (first | with_reducible rfl | (with_reducible apply ite_quiet) | (with_reducible apply quiet_foldl_fst <;> intros)
                            | (with_reducible apply quiet_foldl_snd <;> intros) | (with_reducible apply quiet_foldl <;> intros) | split))
  all_goals (try simp)
  all_goals (repeat' (first | with_reducible rfl | (with_reducible apply ite_quiet) | (with_reducible apply quiet_foldl_fst <;> intros)
                            | (with_reducible apply quiet_foldl_snd <;> intros) | (with_reducible apply quiet_foldl <;> intros) | split))
  all_goals (try simp)

theorem execKeyImport_quiet
    (h : CmdHdr) (src len : Nat) (blob : List Byte) (s : State) (t : State) (h : execKeyImport h src len blob s = .next t) : t.quiet = s.quiet := by
  unfold execKeyImport at h
  injection h with h
  subst h
  try simp only []
  repeat' (first | with_reducible rfl | (with_reducible apply State.serve_quiet; intros) | (with_reducible apply ite_quiet)
                 | (with_reducible apply quiet_foldl_fst <;> intros) | (with_reducible apply quiet_foldl_snd <;> intros)
                 | (with_reducible apply quiet_foldl <;> intros) | split)
  all_goals (try simp only [apply_ite State.quiet, ite_self])
  all_goals (try simp)
  all_goals (repeat' (first | with_reducible rfl | (with_reducible apply State.serve_quiet; intros) | (with_reducible apply ite_quiet)
                            | (with_reducible apply quiet_foldl_fst <;> intros) | (with_reducible apply quiet_foldl_snd <;> intros)
                            | (with_reducible apply quiet_foldl <;> intros) | split))
  all_goals (try simp)
  all_goals (repeat' (first | with_reducible rfl | (with_reducible apply State.serve_quiet; intros) | (with_reducible apply ite_quiet)
                            | (with_reducible apply quiet_foldl_fst <;> intros) | (with_reducible apply quiet_foldl_snd <;> intros)
                            | (with_reducible apply quiet_foldl <;> intros) | split))
  all_goals (try simp)

theorem execLoadKey_quiet
    (h : CmdHdr) (src len slot : Nat) (blob : List Byte) (s : State) (t : State) (h : execLoadKey h src len slot blob s = .next t) : t.quiet = s.quiet := by
  unfold execLoadKey at h
  injection h with h
  subst h
  try simp only []
  repeat' (first | with_reducible rfl | (with_reducible apply State.serve_quiet; intros) | (with_reducible apply ite_quiet)
                 | (with_reducible apply quiet_foldl_fst <;> intros) | (with_reducible apply quiet_foldl_snd <;> intros)
                 | (with_reducible apply quiet_foldl <;> intros) | split)
  all_goals (try simp only [apply_ite State.quiet, ite_self])
  all_goals (try simp)
  all_goals (repeat' (first | with_reducible rfl | (with_reducible apply State.serve_quiet; intros) | (with_reducible apply ite_quiet)
                            | (with_reducible apply quiet_foldl_fst <;> intros) | (with_reducible apply quiet_foldl_snd <;> intros)
                            | (with_reducible apply quiet_foldl <;> intros) | split))
  all_goals (try simp)
  all_goals (repeat' (first | with_reducible rfl | (with_reducible apply State.serve_quiet; intros) | (with_reducible apply ite_quiet)
                            | (with_reducible apply quiet_foldl_fst <;> intros) | (with_reducible apply quiet_foldl_snd <;> intros)
                            | (with_reducible apply quiet_foldl <;> intros) | split))
  all_goals (try simp)

theorem execKeyErase_quiet (h : CmdHdr) (slot : Nat) (s : State) (t : State) (h : execKeyErase h slot s = .next t) : t.quiet = s.quiet := by
  unfold execKeyErase at h
  injection h with h
  subst h
  try simp only []
  repeat' (first | with_reducible rfl | (with_reducible apply State.serve_quiet; intros) | (with_reducible apply ite_quiet)
                 | (with_reducible apply quiet_foldl_fst <;> intros) | (with_reducible apply quiet_foldl_snd <;> intros)
                 | (with_reducible apply quiet_foldl <;> intros) | split)
  all_goals (try simp only [apply_ite State.quiet, ite_self])
  all_goals (try simp)
  all_goals (repeat' (first | with_reducible rfl | (with_reducible apply State.serve_quiet; intros) | (with_reducible apply ite_quiet)
                            | (with_reducible apply quiet_foldl_fst <;> intros) | (with_reducible apply quiet_foldl_snd <;> intros)
                            | (with_reducible apply quiet_foldl <;> intros) | split))
  all_goals (try simp)
  all_goals (repeat' (first | with_reducible rfl | (with_reducible apply State.serve_quiet; intros) | (with_reducible apply ite_quiet)
                            | (with_reducible apply quiet_foldl_fst <;> intros) | (with_reducible apply quiet_foldl_snd <;> intros)
                            | (with_reducible apply quiet_foldl <;> intros) | split))
  all_goals (try simp)

theorem execAttest_quiet
    (h : CmdHdr) (nonceSrc dst : Nat) (s : State) (t : State) (h : execAttest h nonceSrc dst s = .next t) : t.quiet = s.quiet := by
  unfold execAttest at h
  injection h with h
  subst h
  try simp only []
  repeat' (first | with_reducible rfl | (with_reducible apply State.serve_quiet; intros) | (with_reducible apply ite_quiet)
                 | (with_reducible apply quiet_foldl_fst <;> intros) | (with_reducible apply quiet_foldl_snd <;> intros)
                 | (with_reducible apply quiet_foldl <;> intros) | split)
  all_goals (try simp only [apply_ite State.quiet, ite_self])
  all_goals (try simp)
  all_goals (repeat' (first | with_reducible rfl | (with_reducible apply State.serve_quiet; intros) | (with_reducible apply ite_quiet)
                            | (with_reducible apply quiet_foldl_fst <;> intros) | (with_reducible apply quiet_foldl_snd <;> intros)
                            | (with_reducible apply quiet_foldl <;> intros) | split))
  all_goals (try simp)
  all_goals (repeat' (first | with_reducible rfl | (with_reducible apply State.serve_quiet; intros) | (with_reducible apply ite_quiet)
                            | (with_reducible apply quiet_foldl_fst <;> intros) | (with_reducible apply quiet_foldl_snd <;> intros)
                            | (with_reducible apply quiet_foldl <;> intros) | split))
  all_goals (try simp)

@[simp] theorem State.islCommand_quiet (s : State)
    (h : CmdHdr) (isl : Nat) (r : Option IslReq) : (s.islCommand h isl r).quiet = s.quiet := by
  unfold State.islCommand
  try simp only []
  repeat' (first | with_reducible rfl | (with_reducible apply ite_quiet) | (with_reducible apply quiet_foldl_fst <;> intros)
                 | (with_reducible apply quiet_foldl_snd <;> intros) | (with_reducible apply quiet_foldl <;> intros) | split)
  all_goals (try simp only [apply_ite State.quiet, ite_self])
  all_goals (try simp)
  all_goals (repeat' (first | with_reducible rfl | (with_reducible apply ite_quiet) | (with_reducible apply quiet_foldl_fst <;> intros)
                            | (with_reducible apply quiet_foldl_snd <;> intros) | (with_reducible apply quiet_foldl <;> intros) | split))
  all_goals (try simp)
  all_goals (repeat' (first | with_reducible rfl | (with_reducible apply ite_quiet) | (with_reducible apply quiet_foldl_fst <;> intros)
                            | (with_reducible apply quiet_foldl_snd <;> intros) | (with_reducible apply quiet_foldl <;> intros) | split))
  all_goals (try simp)

theorem execIslandState_quiet
    (h : CmdHdr) (isl st : Nat) (s : State) (t : State) (h : execIslandState h isl st s = .next t) : t.quiet = s.quiet := by
  unfold execIslandState at h
  injection h with h
  subst h
  try simp only []
  repeat' (first | with_reducible rfl | (with_reducible apply State.serve_quiet; intros) | (with_reducible apply ite_quiet)
                 | (with_reducible apply quiet_foldl_fst <;> intros) | (with_reducible apply quiet_foldl_snd <;> intros)
                 | (with_reducible apply quiet_foldl <;> intros) | split)
  all_goals (try simp only [apply_ite State.quiet, ite_self])
  all_goals (try simp)
  all_goals (repeat' (first | with_reducible rfl | (with_reducible apply State.serve_quiet; intros) | (with_reducible apply ite_quiet)
                            | (with_reducible apply quiet_foldl_fst <;> intros) | (with_reducible apply quiet_foldl_snd <;> intros)
                            | (with_reducible apply quiet_foldl <;> intros) | split))
  all_goals (try simp)
  all_goals (repeat' (first | with_reducible rfl | (with_reducible apply State.serve_quiet; intros) | (with_reducible apply ite_quiet)
                            | (with_reducible apply quiet_foldl_fst <;> intros) | (with_reducible apply quiet_foldl_snd <;> intros)
                            | (with_reducible apply quiet_foldl <;> intros) | split))
  all_goals (try simp)

theorem execIslandFreq_quiet
    (h : CmdHdr) (isl mhz : Nat) (s : State) (t : State) (h : execIslandFreq h isl mhz s = .next t) : t.quiet = s.quiet := by
  unfold execIslandFreq at h
  injection h with h
  subst h
  try simp only []
  repeat' (first | with_reducible rfl | (with_reducible apply State.serve_quiet; intros) | (with_reducible apply ite_quiet)
                 | (with_reducible apply quiet_foldl_fst <;> intros) | (with_reducible apply quiet_foldl_snd <;> intros)
                 | (with_reducible apply quiet_foldl <;> intros) | split)
  all_goals (try simp only [apply_ite State.quiet, ite_self])
  all_goals (try simp)
  all_goals (repeat' (first | with_reducible rfl | (with_reducible apply State.serve_quiet; intros) | (with_reducible apply ite_quiet)
                            | (with_reducible apply quiet_foldl_fst <;> intros) | (with_reducible apply quiet_foldl_snd <;> intros)
                            | (with_reducible apply quiet_foldl <;> intros) | split))
  all_goals (try simp)
  all_goals (repeat' (first | with_reducible rfl | (with_reducible apply State.serve_quiet; intros) | (with_reducible apply ite_quiet)
                            | (with_reducible apply quiet_foldl_fst <;> intros) | (with_reducible apply quiet_foldl_snd <;> intros)
                            | (with_reducible apply quiet_foldl <;> intros) | split))
  all_goals (try simp)

@[simp] theorem State.beginFlash_quiet (s : State)
    (h : CmdHdr) (opcode base len : Nat) (data : Option (List Byte)) : (s.beginFlash h opcode base len data).quiet = s.quiet := by
  unfold State.beginFlash
  try simp only []
  repeat' (first | with_reducible rfl | (with_reducible apply ite_quiet) | (with_reducible apply quiet_foldl_fst <;> intros)
                 | (with_reducible apply quiet_foldl_snd <;> intros) | (with_reducible apply quiet_foldl <;> intros) | split)
  all_goals (try simp only [apply_ite State.quiet, ite_self])
  all_goals (try simp)
  all_goals (repeat' (first | with_reducible rfl | (with_reducible apply ite_quiet) | (with_reducible apply quiet_foldl_fst <;> intros)
                            | (with_reducible apply quiet_foldl_snd <;> intros) | (with_reducible apply quiet_foldl <;> intros) | split))
  all_goals (try simp)
  all_goals (repeat' (first | with_reducible rfl | (with_reducible apply ite_quiet) | (with_reducible apply quiet_foldl_fst <;> intros)
                            | (with_reducible apply quiet_foldl_snd <;> intros) | (with_reducible apply quiet_foldl <;> intros) | split))
  all_goals (try simp)

@[simp] theorem State.program_quiet (s : State)
    (h : CmdHdr) (opcode base len src : Nat) : (s.program h opcode base len src).quiet = s.quiet := by
  unfold State.program
  try simp only []
  repeat' (first | with_reducible rfl | (with_reducible apply ite_quiet) | (with_reducible apply quiet_foldl_fst <;> intros)
                 | (with_reducible apply quiet_foldl_snd <;> intros) | (with_reducible apply quiet_foldl <;> intros) | split)
  all_goals (try simp only [apply_ite State.quiet, ite_self])
  all_goals (try simp)
  all_goals (repeat' (first | with_reducible rfl | (with_reducible apply ite_quiet) | (with_reducible apply quiet_foldl_fst <;> intros)
                            | (with_reducible apply quiet_foldl_snd <;> intros) | (with_reducible apply quiet_foldl <;> intros) | split))
  all_goals (try simp)
  all_goals (repeat' (first | with_reducible rfl | (with_reducible apply ite_quiet) | (with_reducible apply quiet_foldl_fst <;> intros)
                            | (with_reducible apply quiet_foldl_snd <;> intros) | (with_reducible apply quiet_foldl <;> intros) | split))
  all_goals (try simp)

theorem execImageWriteProgram_quiet
    (h : CmdHdr) (slot off len src : Nat) (s : State) (t : State) (h : execImageWriteProgram h slot off len src s = .next t) : t.quiet = s.quiet := by
  unfold execImageWriteProgram at h
  injection h with h
  subst h
  try simp only []
  repeat' (first | with_reducible rfl | (with_reducible apply State.serve_quiet; intros) | (with_reducible apply ite_quiet)
                 | (with_reducible apply quiet_foldl_fst <;> intros) | (with_reducible apply quiet_foldl_snd <;> intros)
                 | (with_reducible apply quiet_foldl <;> intros) | split)
  all_goals (try simp only [apply_ite State.quiet, ite_self])
  all_goals (try simp)
  all_goals (repeat' (first | with_reducible rfl | (with_reducible apply State.serve_quiet; intros) | (with_reducible apply ite_quiet)
                            | (with_reducible apply quiet_foldl_fst <;> intros) | (with_reducible apply quiet_foldl_snd <;> intros)
                            | (with_reducible apply quiet_foldl <;> intros) | split))
  all_goals (try simp)
  all_goals (repeat' (first | with_reducible rfl | (with_reducible apply State.serve_quiet; intros) | (with_reducible apply ite_quiet)
                            | (with_reducible apply quiet_foldl_fst <;> intros) | (with_reducible apply quiet_foldl_snd <;> intros)
                            | (with_reducible apply quiet_foldl <;> intros) | split))
  all_goals (try simp)

theorem execImageWriteErase_quiet
    (h : CmdHdr) (slot off len : Nat) (s : State) (t : State) (h : execImageWriteErase h slot off len s = .next t) : t.quiet = s.quiet := by
  unfold execImageWriteErase at h
  injection h with h
  subst h
  try simp only []
  repeat' (first | with_reducible rfl | (with_reducible apply State.serve_quiet; intros) | (with_reducible apply ite_quiet)
                 | (with_reducible apply quiet_foldl_fst <;> intros) | (with_reducible apply quiet_foldl_snd <;> intros)
                 | (with_reducible apply quiet_foldl <;> intros) | split)
  all_goals (try simp only [apply_ite State.quiet, ite_self])
  all_goals (try simp)
  all_goals (repeat' (first | with_reducible rfl | (with_reducible apply State.serve_quiet; intros) | (with_reducible apply ite_quiet)
                            | (with_reducible apply quiet_foldl_fst <;> intros) | (with_reducible apply quiet_foldl_snd <;> intros)
                            | (with_reducible apply quiet_foldl <;> intros) | split))
  all_goals (try simp)
  all_goals (repeat' (first | with_reducible rfl | (with_reducible apply State.serve_quiet; intros) | (with_reducible apply ite_quiet)
                            | (with_reducible apply quiet_foldl_fst <;> intros) | (with_reducible apply quiet_foldl_snd <;> intros)
                            | (with_reducible apply quiet_foldl <;> intros) | split))
  all_goals (try simp)

theorem execImageWriteVerify_quiet
    (h : CmdHdr) (slot : Nat) (rd : FlashReads) (s : State) (t : State) (h : execImageWriteVerify h slot rd s = .next t) : t.quiet = s.quiet := by
  unfold execImageWriteVerify at h
  injection h with h
  subst h
  try simp only []
  repeat' (first | with_reducible rfl | (with_reducible apply State.serve_quiet; intros) | (with_reducible apply ite_quiet)
                 | (with_reducible apply quiet_foldl_fst <;> intros) | (with_reducible apply quiet_foldl_snd <;> intros)
                 | (with_reducible apply quiet_foldl <;> intros) | split)
  all_goals (try simp only [apply_ite State.quiet, ite_self])
  all_goals (try simp)
  all_goals (repeat' (first | with_reducible rfl | (with_reducible apply State.serve_quiet; intros) | (with_reducible apply ite_quiet)
                            | (with_reducible apply quiet_foldl_fst <;> intros) | (with_reducible apply quiet_foldl_snd <;> intros)
                            | (with_reducible apply quiet_foldl <;> intros) | split))
  all_goals (try simp)
  all_goals (repeat' (first | with_reducible rfl | (with_reducible apply State.serve_quiet; intros) | (with_reducible apply ite_quiet)
                            | (with_reducible apply quiet_foldl_fst <;> intros) | (with_reducible apply quiet_foldl_snd <;> intros)
                            | (with_reducible apply quiet_foldl <;> intros) | split))
  all_goals (try simp)

theorem execFlashWrite_quiet
    (h : CmdHdr) (addr len src : Nat) (s : State) (t : State) (h : execFlashWrite h addr len src s = .next t) : t.quiet = s.quiet := by
  unfold execFlashWrite at h
  injection h with h
  subst h
  try simp only []
  repeat' (first | with_reducible rfl | (with_reducible apply State.serve_quiet; intros) | (with_reducible apply ite_quiet)
                 | (with_reducible apply quiet_foldl_fst <;> intros) | (with_reducible apply quiet_foldl_snd <;> intros)
                 | (with_reducible apply quiet_foldl <;> intros) | split)
  all_goals (try simp only [apply_ite State.quiet, ite_self])
  all_goals (try simp)
  all_goals (repeat' (first | with_reducible rfl | (with_reducible apply State.serve_quiet; intros) | (with_reducible apply ite_quiet)
                            | (with_reducible apply quiet_foldl_fst <;> intros) | (with_reducible apply quiet_foldl_snd <;> intros)
                            | (with_reducible apply quiet_foldl <;> intros) | split))
  all_goals (try simp)
  all_goals (repeat' (first | with_reducible rfl | (with_reducible apply State.serve_quiet; intros) | (with_reducible apply ite_quiet)
                            | (with_reducible apply quiet_foldl_fst <;> intros) | (with_reducible apply quiet_foldl_snd <;> intros)
                            | (with_reducible apply quiet_foldl <;> intros) | split))
  all_goals (try simp)

@[simp] theorem State.restartNow_quiet (s : State) (h : CmdHdr) : (s.restartNow h).quiet = s.quiet := by
  unfold State.restartNow
  try simp only []
  repeat' (first | with_reducible rfl | (with_reducible apply ite_quiet) | (with_reducible apply quiet_foldl_fst <;> intros)
                 | (with_reducible apply quiet_foldl_snd <;> intros) | (with_reducible apply quiet_foldl <;> intros) | split)
  all_goals (try simp only [apply_ite State.quiet, ite_self])
  all_goals (try simp)
  all_goals (repeat' (first | with_reducible rfl | (with_reducible apply ite_quiet) | (with_reducible apply quiet_foldl_fst <;> intros)
                            | (with_reducible apply quiet_foldl_snd <;> intros) | (with_reducible apply quiet_foldl <;> intros) | split))
  all_goals (try simp)
  all_goals (repeat' (first | with_reducible rfl | (with_reducible apply ite_quiet) | (with_reducible apply quiet_foldl_fst <;> intros)
                            | (with_reducible apply quiet_foldl_snd <;> intros) | (with_reducible apply quiet_foldl <;> intros) | split))
  all_goals (try simp)

theorem execRestart_quiet (h : CmdHdr) (s : State) (t : State) (h : execRestart h s = .next t) : t.quiet = s.quiet := by
  unfold execRestart at h
  injection h with h
  subst h
  try simp only []
  repeat' (first | with_reducible rfl | (with_reducible apply State.serve_quiet; intros) | (with_reducible apply ite_quiet)
                 | (with_reducible apply quiet_foldl_fst <;> intros) | (with_reducible apply quiet_foldl_snd <;> intros)
                 | (with_reducible apply quiet_foldl <;> intros) | split)
  all_goals (try simp only [apply_ite State.quiet, ite_self])
  all_goals (try simp)
  all_goals (repeat' (first | with_reducible rfl | (with_reducible apply State.serve_quiet; intros) | (with_reducible apply ite_quiet)
                            | (with_reducible apply quiet_foldl_fst <;> intros) | (with_reducible apply quiet_foldl_snd <;> intros)
                            | (with_reducible apply quiet_foldl <;> intros) | split))
  all_goals (try simp)
  all_goals (repeat' (first | with_reducible rfl | (with_reducible apply State.serve_quiet; intros) | (with_reducible apply ite_quiet)
                            | (with_reducible apply quiet_foldl_fst <;> intros) | (with_reducible apply quiet_foldl_snd <;> intros)
                            | (with_reducible apply quiet_foldl <;> intros) | split))
  all_goals (try simp)

theorem execReboot_quiet (h : CmdHdr) (s : State) (t : State) (h : execReboot h s = .next t) : t.quiet = s.quiet := by
  unfold execReboot at h
  injection h with h
  subst h
  try simp only []
  repeat' (first | with_reducible rfl | (with_reducible apply State.serve_quiet; intros) | (with_reducible apply ite_quiet)
                 | (with_reducible apply quiet_foldl_fst <;> intros) | (with_reducible apply quiet_foldl_snd <;> intros)
                 | (with_reducible apply quiet_foldl <;> intros) | split)
  all_goals (try simp only [apply_ite State.quiet, ite_self])
  all_goals (try simp)
  all_goals (repeat' (first | with_reducible rfl | (with_reducible apply State.serve_quiet; intros) | (with_reducible apply ite_quiet)
                            | (with_reducible apply quiet_foldl_fst <;> intros) | (with_reducible apply quiet_foldl_snd <;> intros)
                            | (with_reducible apply quiet_foldl <;> intros) | split))
  all_goals (try simp)
  all_goals (repeat' (first | with_reducible rfl | (with_reducible apply State.serve_quiet; intros) | (with_reducible apply ite_quiet)
                            | (with_reducible apply quiet_foldl_fst <;> intros) | (with_reducible apply quiet_foldl_snd <;> intros)
                            | (with_reducible apply quiet_foldl <;> intros) | split))
  all_goals (try simp)

@[simp] theorem State.clearMark_quiet (s : State) (n : Nat) : (s.clearMark n).quiet = s.quiet := by
  unfold State.clearMark
  try simp only []
  repeat' (first | with_reducible rfl | (with_reducible apply ite_quiet) | (with_reducible apply quiet_foldl_fst <;> intros)
                 | (with_reducible apply quiet_foldl_snd <;> intros) | (with_reducible apply quiet_foldl <;> intros) | split)
  all_goals (try simp only [apply_ite State.quiet, ite_self])
  all_goals (try simp)
  all_goals (repeat' (first | with_reducible rfl | (with_reducible apply ite_quiet) | (with_reducible apply quiet_foldl_fst <;> intros)
                            | (with_reducible apply quiet_foldl_snd <;> intros) | (with_reducible apply quiet_foldl <;> intros) | split))
  all_goals (try simp)
  all_goals (repeat' (first | with_reducible rfl | (with_reducible apply ite_quiet) | (with_reducible apply quiet_foldl_fst <;> intros)
                            | (with_reducible apply quiet_foldl_snd <;> intros) | (with_reducible apply quiet_foldl <;> intros) | split))
  all_goals (try simp)

@[simp] theorem State.ackFault_quiet (s : State) (h : CmdHdr) (n : Nat) : (s.ackFault h n).quiet = s.quiet := by
  unfold State.ackFault
  try simp only []
  repeat' (first | with_reducible rfl | (with_reducible apply ite_quiet) | (with_reducible apply quiet_foldl_fst <;> intros)
                 | (with_reducible apply quiet_foldl_snd <;> intros) | (with_reducible apply quiet_foldl <;> intros) | split)
  all_goals (try simp only [apply_ite State.quiet, ite_self])
  all_goals (try simp)
  all_goals (repeat' (first | with_reducible rfl | (with_reducible apply ite_quiet) | (with_reducible apply quiet_foldl_fst <;> intros)
                            | (with_reducible apply quiet_foldl_snd <;> intros) | (with_reducible apply quiet_foldl <;> intros) | split))
  all_goals (try simp)
  all_goals (repeat' (first | with_reducible rfl | (with_reducible apply ite_quiet) | (with_reducible apply quiet_foldl_fst <;> intros)
                            | (with_reducible apply quiet_foldl_snd <;> intros) | (with_reducible apply quiet_foldl <;> intros) | split))
  all_goals (try simp)

theorem execFaultAck_quiet (h : CmdHdr) (src : Nat) (s : State) (t : State) (h : execFaultAck h src s = .next t) : t.quiet = s.quiet := by
  unfold execFaultAck at h
  injection h with h
  subst h
  try simp only []
  repeat' (first | with_reducible rfl | (with_reducible apply State.serve_quiet; intros) | (with_reducible apply ite_quiet)
                 | (with_reducible apply quiet_foldl_fst <;> intros) | (with_reducible apply quiet_foldl_snd <;> intros)
                 | (with_reducible apply quiet_foldl <;> intros) | split)
  all_goals (try simp only [apply_ite State.quiet, ite_self])
  all_goals (try simp)
  all_goals (repeat' (first | with_reducible rfl | (with_reducible apply State.serve_quiet; intros) | (with_reducible apply ite_quiet)
                            | (with_reducible apply quiet_foldl_fst <;> intros) | (with_reducible apply quiet_foldl_snd <;> intros)
                            | (with_reducible apply quiet_foldl <;> intros) | split))
  all_goals (try simp)
  all_goals (repeat' (first | with_reducible rfl | (with_reducible apply State.serve_quiet; intros) | (with_reducible apply ite_quiet)
                            | (with_reducible apply quiet_foldl_fst <;> intros) | (with_reducible apply quiet_foldl_snd <;> intros)
                            | (with_reducible apply quiet_foldl <;> intros) | split))
  all_goals (try simp)

theorem execClearAlarm_quiet
    (h : CmdHdr) (src : Nat) (s : State) (t : State) (h : execClearAlarm h src s = .next t) : t.quiet = s.quiet := by
  unfold execClearAlarm at h
  injection h with h
  subst h
  try simp only []
  repeat' (first | with_reducible rfl | (with_reducible apply State.serve_quiet; intros) | (with_reducible apply ite_quiet)
                 | (with_reducible apply quiet_foldl_fst <;> intros) | (with_reducible apply quiet_foldl_snd <;> intros)
                 | (with_reducible apply quiet_foldl <;> intros) | split)
  all_goals (try simp only [apply_ite State.quiet, ite_self])
  all_goals (try simp)
  all_goals (repeat' (first | with_reducible rfl | (with_reducible apply State.serve_quiet; intros) | (with_reducible apply ite_quiet)
                            | (with_reducible apply quiet_foldl_fst <;> intros) | (with_reducible apply quiet_foldl_snd <;> intros)
                            | (with_reducible apply quiet_foldl <;> intros) | split))
  all_goals (try simp)
  all_goals (repeat' (first | with_reducible rfl | (with_reducible apply State.serve_quiet; intros) | (with_reducible apply ite_quiet)
                            | (with_reducible apply quiet_foldl_fst <;> intros) | (with_reducible apply quiet_foldl_snd <;> intros)
                            | (with_reducible apply quiet_foldl <;> intros) | split))
  all_goals (try simp)

@[simp] theorem State.copyRegs_quiet (n off : Nat) (s : State) : (State.copyRegs n off s).2.quiet = s.quiet := by
  induction n generalizing off s with
  | zero => rfl
  | succ n ih => unfold State.copyRegs; simp [ih]

theorem execReservedOpcode_quiet
    (h : CmdHdr) (opcode : Nat) (s : State) (t : State) (h : execReservedOpcode h opcode s = .next t) : t.quiet = s.quiet := by
  unfold execReservedOpcode at h
  injection h with h
  subst h
  try simp only []
  repeat' (first | with_reducible rfl | (with_reducible apply State.serve_quiet; intros) | (with_reducible apply ite_quiet)
                 | (with_reducible apply quiet_foldl_fst <;> intros) | (with_reducible apply quiet_foldl_snd <;> intros)
                 | (with_reducible apply quiet_foldl <;> intros) | split)
  all_goals (try simp only [apply_ite State.quiet, ite_self])
  all_goals (try simp)
  all_goals (repeat' (first | with_reducible rfl | (with_reducible apply State.serve_quiet; intros) | (with_reducible apply ite_quiet)
                            | (with_reducible apply quiet_foldl_fst <;> intros) | (with_reducible apply quiet_foldl_snd <;> intros)
                            | (with_reducible apply quiet_foldl <;> intros) | split))
  all_goals (try simp)
  all_goals (repeat' (first | with_reducible rfl | (with_reducible apply State.serve_quiet; intros) | (with_reducible apply ite_quiet)
                            | (with_reducible apply quiet_foldl_fst <;> intros) | (with_reducible apply quiet_foldl_snd <;> intros)
                            | (with_reducible apply quiet_foldl <;> intros) | split))
  all_goals (try simp)

theorem execBadOpcode_quiet
    (h : CmdHdr) (opcode : Nat) (s : State) (t : State) (h : execBadOpcode h opcode s = .next t) : t.quiet = s.quiet := by
  unfold execBadOpcode at h
  injection h with h
  subst h
  try simp only []
  repeat' (first | with_reducible rfl | (with_reducible apply State.serve_quiet; intros) | (with_reducible apply ite_quiet)
                 | (with_reducible apply quiet_foldl_fst <;> intros) | (with_reducible apply quiet_foldl_snd <;> intros)
                 | (with_reducible apply quiet_foldl <;> intros) | split)
  all_goals (try simp only [apply_ite State.quiet, ite_self])
  all_goals (try simp)
  all_goals (repeat' (first | with_reducible rfl | (with_reducible apply State.serve_quiet; intros) | (with_reducible apply ite_quiet)
                            | (with_reducible apply quiet_foldl_fst <;> intros) | (with_reducible apply quiet_foldl_snd <;> intros)
                            | (with_reducible apply quiet_foldl <;> intros) | split))
  all_goals (try simp)
  all_goals (repeat' (first | with_reducible rfl | (with_reducible apply State.serve_quiet; intros) | (with_reducible apply ite_quiet)
                            | (with_reducible apply quiet_foldl_fst <;> intros) | (with_reducible apply quiet_foldl_snd <;> intros)
                            | (with_reducible apply quiet_foldl <;> intros) | split))
  all_goals (try simp)

@[simp] theorem State.setTj_quiet (s : State) (ts : Nat) (tj : Int) : (s.setTj ts tj).quiet = s.quiet := by
  unfold State.setTj
  try simp only []
  repeat' (first | with_reducible rfl | (with_reducible apply ite_quiet) | (with_reducible apply quiet_foldl_fst <;> intros)
                 | (with_reducible apply quiet_foldl_snd <;> intros) | (with_reducible apply quiet_foldl <;> intros) | split)
  all_goals (try simp only [apply_ite State.quiet, ite_self])
  all_goals (try simp)
  all_goals (repeat' (first | with_reducible rfl | (with_reducible apply ite_quiet) | (with_reducible apply quiet_foldl_fst <;> intros)
                            | (with_reducible apply quiet_foldl_snd <;> intros) | (with_reducible apply quiet_foldl <;> intros) | split))
  all_goals (try simp)
  all_goals (repeat' (first | with_reducible rfl | (with_reducible apply ite_quiet) | (with_reducible apply quiet_foldl_fst <;> intros)
                            | (with_reducible apply quiet_foldl_snd <;> intros) | (with_reducible apply quiet_foldl <;> intros) | split))
  all_goals (try simp)

@[simp] theorem State.thermLine_quiet (s : State) (n : Nat) (level : Bool) : (s.thermLine n level).quiet = s.quiet := by
  unfold State.thermLine
  try simp only []
  repeat' (first | with_reducible rfl | (with_reducible apply ite_quiet) | (with_reducible apply quiet_foldl_fst <;> intros)
                 | (with_reducible apply quiet_foldl_snd <;> intros) | (with_reducible apply quiet_foldl <;> intros) | split)
  all_goals (try simp only [apply_ite State.quiet, ite_self])
  all_goals (try simp)
  all_goals (repeat' (first | with_reducible rfl | (with_reducible apply ite_quiet) | (with_reducible apply quiet_foldl_fst <;> intros)
                            | (with_reducible apply quiet_foldl_snd <;> intros) | (with_reducible apply quiet_foldl <;> intros) | split))
  all_goals (try simp)
  all_goals (repeat' (first | with_reducible rfl | (with_reducible apply ite_quiet) | (with_reducible apply quiet_foldl_fst <;> intros)
                            | (with_reducible apply quiet_foldl_snd <;> intros) | (with_reducible apply quiet_foldl <;> intros) | split))
  all_goals (try simp)

theorem execThermalWarn_quiet (ts : Nat) (tj : Int) (s : State) (t : State)
    (h : execThermalWarn ts tj s = .next t) : t.quiet = s.quiet := by
  unfold execThermalWarn at h
  injection h with h
  subst h
  try simp only []
  repeat' (first | with_reducible rfl | (with_reducible apply ite_quiet) | (with_reducible apply quiet_foldl_fst <;> intros)
                 | (with_reducible apply quiet_foldl_snd <;> intros) | (with_reducible apply quiet_foldl <;> intros) | split)
  all_goals (try simp only [apply_ite State.quiet, ite_self])
  all_goals (try simp)
  all_goals (repeat' (first | with_reducible rfl | (with_reducible apply ite_quiet) | (with_reducible apply quiet_foldl_fst <;> intros)
                            | (with_reducible apply quiet_foldl_snd <;> intros) | (with_reducible apply quiet_foldl <;> intros) | split))
  all_goals (try simp)
  all_goals (repeat' (first | with_reducible rfl | (with_reducible apply ite_quiet) | (with_reducible apply quiet_foldl_fst <;> intros)
                            | (with_reducible apply quiet_foldl_snd <;> intros) | (with_reducible apply quiet_foldl <;> intros) | split))
  all_goals (try simp)

theorem execThermalCrit_quiet (ts : Nat) (tj : Int) (s : State) (t : State)
    (h : execThermalCrit ts tj s = .next t) : t.quiet = s.quiet := by
  unfold execThermalCrit at h
  injection h with h
  subst h
  try simp only []
  repeat' (first | with_reducible rfl | (with_reducible apply ite_quiet) | (with_reducible apply quiet_foldl_fst <;> intros)
                 | (with_reducible apply quiet_foldl_snd <;> intros) | (with_reducible apply quiet_foldl <;> intros) | split)
  all_goals (try simp only [apply_ite State.quiet, ite_self])
  all_goals (try simp)
  all_goals (repeat' (first | with_reducible rfl | (with_reducible apply ite_quiet) | (with_reducible apply quiet_foldl_fst <;> intros)
                            | (with_reducible apply quiet_foldl_snd <;> intros) | (with_reducible apply quiet_foldl <;> intros) | split))
  all_goals (try simp)
  all_goals (repeat' (first | with_reducible rfl | (with_reducible apply ite_quiet) | (with_reducible apply quiet_foldl_fst <;> intros)
                            | (with_reducible apply quiet_foldl_snd <;> intros) | (with_reducible apply quiet_foldl <;> intros) | split))
  all_goals (try simp)

theorem execThermalAlertClears_quiet (ts : Nat) (tj : Int) (s : State) (t : State)
    (h : execThermalAlertClears ts tj s = .next t) : t.quiet = s.quiet := by
  unfold execThermalAlertClears at h
  injection h with h
  subst h
  try simp only []
  repeat' (first | with_reducible rfl | (with_reducible apply ite_quiet) | (with_reducible apply quiet_foldl_fst <;> intros)
                 | (with_reducible apply quiet_foldl_snd <;> intros) | (with_reducible apply quiet_foldl <;> intros) | split)
  all_goals (try simp only [apply_ite State.quiet, ite_self])
  all_goals (try simp)
  all_goals (repeat' (first | with_reducible rfl | (with_reducible apply ite_quiet) | (with_reducible apply quiet_foldl_fst <;> intros)
                            | (with_reducible apply quiet_foldl_snd <;> intros) | (with_reducible apply quiet_foldl <;> intros) | split))
  all_goals (try simp)
  all_goals (repeat' (first | with_reducible rfl | (with_reducible apply ite_quiet) | (with_reducible apply quiet_foldl_fst <;> intros)
                            | (with_reducible apply quiet_foldl_snd <;> intros) | (with_reducible apply quiet_foldl <;> intros) | split))
  all_goals (try simp)

@[simp] theorem State.smbAnswer_quiet (s : State) (pre bs : List Byte) (nack : Bool) : (s.smbAnswer pre bs nack).quiet = s.quiet := by
  unfold State.smbAnswer
  try simp only []
  repeat' (first | with_reducible rfl | (with_reducible apply ite_quiet) | (with_reducible apply quiet_foldl_fst <;> intros)
                 | (with_reducible apply quiet_foldl_snd <;> intros) | (with_reducible apply quiet_foldl <;> intros) | split)
  all_goals (try simp only [apply_ite State.quiet, ite_self])
  all_goals (try simp)
  all_goals (repeat' (first | with_reducible rfl | (with_reducible apply ite_quiet) | (with_reducible apply quiet_foldl_fst <;> intros)
                            | (with_reducible apply quiet_foldl_snd <;> intros) | (with_reducible apply quiet_foldl <;> intros) | split))
  all_goals (try simp)
  all_goals (repeat' (first | with_reducible rfl | (with_reducible apply ite_quiet) | (with_reducible apply quiet_foldl_fst <;> intros)
                            | (with_reducible apply quiet_foldl_snd <;> intros) | (with_reducible apply quiet_foldl <;> intros) | split))
  all_goals (try simp)

@[simp] theorem State.smbReturn_quiet (s : State) (code : Nat) (bs : List Byte) (nack : Bool) :
    (s.smbReturn code bs nack).quiet = s.quiet := by
  unfold State.smbReturn
  try simp only []
  repeat' (first | with_reducible rfl | (with_reducible apply ite_quiet) | (with_reducible apply quiet_foldl_fst <;> intros)
                 | (with_reducible apply quiet_foldl_snd <;> intros) | (with_reducible apply quiet_foldl <;> intros) | split)
  all_goals (try simp only [apply_ite State.quiet, ite_self])
  all_goals (try simp)
  all_goals (repeat' (first | with_reducible rfl | (with_reducible apply ite_quiet) | (with_reducible apply quiet_foldl_fst <;> intros)
                            | (with_reducible apply quiet_foldl_snd <;> intros) | (with_reducible apply quiet_foldl <;> intros) | split))
  all_goals (try simp)
  all_goals (repeat' (first | with_reducible rfl | (with_reducible apply ite_quiet) | (with_reducible apply quiet_foldl_fst <;> intros)
                            | (with_reducible apply quiet_foldl_snd <;> intros) | (with_reducible apply quiet_foldl <;> intros) | split))
  all_goals (try simp)

theorem execSmbReadHottestTj_quiet (s : State) (t : State) (h : execSmbReadHottestTj s = .next t) : t.quiet = s.quiet := by
  unfold execSmbReadHottestTj at h
  injection h with h
  subst h
  try simp only []
  repeat' (first | with_reducible rfl | (with_reducible apply ite_quiet) | (with_reducible apply quiet_foldl_fst <;> intros)
                 | (with_reducible apply quiet_foldl_snd <;> intros) | (with_reducible apply quiet_foldl <;> intros) | split)
  all_goals (try simp only [apply_ite State.quiet, ite_self])
  all_goals (try simp)
  all_goals (repeat' (first | with_reducible rfl | (with_reducible apply ite_quiet) | (with_reducible apply quiet_foldl_fst <;> intros)
                            | (with_reducible apply quiet_foldl_snd <;> intros) | (with_reducible apply quiet_foldl <;> intros) | split))
  all_goals (try simp)
  all_goals (repeat' (first | with_reducible rfl | (with_reducible apply ite_quiet) | (with_reducible apply quiet_foldl_fst <;> intros)
                            | (with_reducible apply quiet_foldl_snd <;> intros) | (with_reducible apply quiet_foldl <;> intros) | split))
  all_goals (try simp)

theorem execSmbReadHottestIndex_quiet (s : State) (t : State) (h : execSmbReadHottestIndex s = .next t) : t.quiet = s.quiet := by
  unfold execSmbReadHottestIndex at h
  injection h with h
  subst h
  try simp only []
  repeat' (first | with_reducible rfl | (with_reducible apply ite_quiet) | (with_reducible apply quiet_foldl_fst <;> intros)
                 | (with_reducible apply quiet_foldl_snd <;> intros) | (with_reducible apply quiet_foldl <;> intros) | split)
  all_goals (try simp only [apply_ite State.quiet, ite_self])
  all_goals (try simp)
  all_goals (repeat' (first | with_reducible rfl | (with_reducible apply ite_quiet) | (with_reducible apply quiet_foldl_fst <;> intros)
                            | (with_reducible apply quiet_foldl_snd <;> intros) | (with_reducible apply quiet_foldl <;> intros) | split))
  all_goals (try simp)
  all_goals (repeat' (first | with_reducible rfl | (with_reducible apply ite_quiet) | (with_reducible apply quiet_foldl_fst <;> intros)
                            | (with_reducible apply quiet_foldl_snd <;> intros) | (with_reducible apply quiet_foldl <;> intros) | split))
  all_goals (try simp)

theorem execSmbReadPower_quiet (s : State) (t : State) (h : execSmbReadPower s = .next t) : t.quiet = s.quiet := by
  unfold execSmbReadPower at h
  injection h with h
  subst h
  try simp only []
  repeat' (first | with_reducible rfl | (with_reducible apply ite_quiet) | (with_reducible apply quiet_foldl_fst <;> intros)
                 | (with_reducible apply quiet_foldl_snd <;> intros) | (with_reducible apply quiet_foldl <;> intros) | split)
  all_goals (try simp only [apply_ite State.quiet, ite_self])
  all_goals (try simp)
  all_goals (repeat' (first | with_reducible rfl | (with_reducible apply ite_quiet) | (with_reducible apply quiet_foldl_fst <;> intros)
                            | (with_reducible apply quiet_foldl_snd <;> intros) | (with_reducible apply quiet_foldl <;> intros) | split))
  all_goals (try simp)
  all_goals (repeat' (first | with_reducible rfl | (with_reducible apply ite_quiet) | (with_reducible apply quiet_foldl_fst <;> intros)
                            | (with_reducible apply quiet_foldl_snd <;> intros) | (with_reducible apply quiet_foldl <;> intros) | split))
  all_goals (try simp)

theorem execSmbReadState_quiet (s : State) (t : State) (h : execSmbReadState s = .next t) : t.quiet = s.quiet := by
  unfold execSmbReadState at h
  injection h with h
  subst h
  try simp only []
  repeat' (first | with_reducible rfl | (with_reducible apply ite_quiet) | (with_reducible apply quiet_foldl_fst <;> intros)
                 | (with_reducible apply quiet_foldl_snd <;> intros) | (with_reducible apply quiet_foldl <;> intros) | split)
  all_goals (try simp only [apply_ite State.quiet, ite_self])
  all_goals (try simp)
  all_goals (repeat' (first | with_reducible rfl | (with_reducible apply ite_quiet) | (with_reducible apply quiet_foldl_fst <;> intros)
                            | (with_reducible apply quiet_foldl_snd <;> intros) | (with_reducible apply quiet_foldl <;> intros) | split))
  all_goals (try simp)
  all_goals (repeat' (first | with_reducible rfl | (with_reducible apply ite_quiet) | (with_reducible apply quiet_foldl_fst <;> intros)
                            | (with_reducible apply quiet_foldl_snd <;> intros) | (with_reducible apply quiet_foldl <;> intros) | split))
  all_goals (try simp)

theorem execSmbReadThermalStatus_quiet (s : State) (t : State) (h : execSmbReadThermalStatus s = .next t) : t.quiet = s.quiet := by
  unfold execSmbReadThermalStatus at h
  injection h with h
  subst h
  try simp only []
  repeat' (first | with_reducible rfl | (with_reducible apply ite_quiet) | (with_reducible apply quiet_foldl_fst <;> intros)
                 | (with_reducible apply quiet_foldl_snd <;> intros) | (with_reducible apply quiet_foldl <;> intros) | split)
  all_goals (try simp only [apply_ite State.quiet, ite_self])
  all_goals (try simp)
  all_goals (repeat' (first | with_reducible rfl | (with_reducible apply ite_quiet) | (with_reducible apply quiet_foldl_fst <;> intros)
                            | (with_reducible apply quiet_foldl_snd <;> intros) | (with_reducible apply quiet_foldl <;> intros) | split))
  all_goals (try simp)
  all_goals (repeat' (first | with_reducible rfl | (with_reducible apply ite_quiet) | (with_reducible apply quiet_foldl_fst <;> intros)
                            | (with_reducible apply quiet_foldl_snd <;> intros) | (with_reducible apply quiet_foldl <;> intros) | split))
  all_goals (try simp)

theorem execSmbReadSensorTj_quiet (code : Nat) (s : State) (t : State) (h : execSmbReadSensorTj code s = .next t) : t.quiet = s.quiet := by
  unfold execSmbReadSensorTj at h
  injection h with h
  subst h
  try simp only []
  repeat' (first | with_reducible rfl | (with_reducible apply ite_quiet) | (with_reducible apply quiet_foldl_fst <;> intros)
                 | (with_reducible apply quiet_foldl_snd <;> intros) | (with_reducible apply quiet_foldl <;> intros) | split)
  all_goals (try simp only [apply_ite State.quiet, ite_self])
  all_goals (try simp)
  all_goals (repeat' (first | with_reducible rfl | (with_reducible apply ite_quiet) | (with_reducible apply quiet_foldl_fst <;> intros)
                            | (with_reducible apply quiet_foldl_snd <;> intros) | (with_reducible apply quiet_foldl <;> intros) | split))
  all_goals (try simp)
  all_goals (repeat' (first | with_reducible rfl | (with_reducible apply ite_quiet) | (with_reducible apply quiet_foldl_fst <;> intros)
                            | (with_reducible apply quiet_foldl_snd <;> intros) | (with_reducible apply quiet_foldl <;> intros) | split))
  all_goals (try simp)

theorem execSmbReadRailCurrent_quiet (code : Nat) (s : State) (t : State)
    (h : execSmbReadRailCurrent code s = .next t) : t.quiet = s.quiet := by
  unfold execSmbReadRailCurrent at h
  injection h with h
  subst h
  try simp only []
  repeat' (first | with_reducible rfl | (with_reducible apply ite_quiet) | (with_reducible apply quiet_foldl_fst <;> intros)
                 | (with_reducible apply quiet_foldl_snd <;> intros) | (with_reducible apply quiet_foldl <;> intros) | split)
  all_goals (try simp only [apply_ite State.quiet, ite_self])
  all_goals (try simp)
  all_goals (repeat' (first | with_reducible rfl | (with_reducible apply ite_quiet) | (with_reducible apply quiet_foldl_fst <;> intros)
                            | (with_reducible apply quiet_foldl_snd <;> intros) | (with_reducible apply quiet_foldl <;> intros) | split))
  all_goals (try simp)
  all_goals (repeat' (first | with_reducible rfl | (with_reducible apply ite_quiet) | (with_reducible apply quiet_foldl_fst <;> intros)
                            | (with_reducible apply quiet_foldl_snd <;> intros) | (with_reducible apply quiet_foldl <;> intros) | split))
  all_goals (try simp)

theorem execSmbUnknownCommand_quiet (code n : Nat) (s : State) (t : State)
    (h : execSmbUnknownCommand code n s = .next t) : t.quiet = s.quiet := by
  unfold execSmbUnknownCommand at h
  injection h with h
  subst h
  try simp only []
  repeat' (first | with_reducible rfl | (with_reducible apply ite_quiet) | (with_reducible apply quiet_foldl_fst <;> intros)
                 | (with_reducible apply quiet_foldl_snd <;> intros) | (with_reducible apply quiet_foldl <;> intros) | split)
  all_goals (try simp only [apply_ite State.quiet, ite_self])
  all_goals (try simp)
  all_goals (repeat' (first | with_reducible rfl | (with_reducible apply ite_quiet) | (with_reducible apply quiet_foldl_fst <;> intros)
                            | (with_reducible apply quiet_foldl_snd <;> intros) | (with_reducible apply quiet_foldl <;> intros) | split))
  all_goals (try simp)
  all_goals (repeat' (first | with_reducible rfl | (with_reducible apply ite_quiet) | (with_reducible apply quiet_foldl_fst <;> intros)
                            | (with_reducible apply quiet_foldl_snd <;> intros) | (with_reducible apply quiet_foldl <;> intros) | split))
  all_goals (try simp)

theorem execSmbAlertResponse_quiet (s : State) (t : State) (h : execSmbAlertResponse s = .next t) : t.quiet = s.quiet := by
  unfold execSmbAlertResponse at h
  injection h with h
  subst h
  try simp only []
  repeat' (first | with_reducible rfl | (with_reducible apply ite_quiet) | (with_reducible apply quiet_foldl_fst <;> intros)
                 | (with_reducible apply quiet_foldl_snd <;> intros) | (with_reducible apply quiet_foldl <;> intros) | split)
  all_goals (try simp only [apply_ite State.quiet, ite_self])
  all_goals (try simp)
  all_goals (repeat' (first | with_reducible rfl | (with_reducible apply ite_quiet) | (with_reducible apply quiet_foldl_fst <;> intros)
                            | (with_reducible apply quiet_foldl_snd <;> intros) | (with_reducible apply quiet_foldl <;> intros) | split))
  all_goals (try simp)
  all_goals (repeat' (first | with_reducible rfl | (with_reducible apply ite_quiet) | (with_reducible apply quiet_foldl_fst <;> intros)
                            | (with_reducible apply quiet_foldl_snd <;> intros) | (with_reducible apply quiet_foldl <;> intros) | split))
  all_goals (try simp)

@[simp] theorem State.forcedUnit_quiet (s : State) (n : Nat) : (s.forcedUnit n).2.quiet = s.quiet := by
  unfold State.forcedUnit
  try simp only []
  repeat' (first | with_reducible rfl | (with_reducible apply ite_quiet) | (with_reducible apply quiet_foldl_fst <;> intros)
                 | (with_reducible apply quiet_foldl_snd <;> intros) | (with_reducible apply quiet_foldl <;> intros) | split)
  all_goals (try simp only [apply_ite State.quiet, ite_self])
  all_goals (try simp)
  all_goals (repeat' (first | with_reducible rfl | (with_reducible apply ite_quiet) | (with_reducible apply quiet_foldl_fst <;> intros)
                            | (with_reducible apply quiet_foldl_snd <;> intros) | (with_reducible apply quiet_foldl <;> intros) | split))
  all_goals (try simp)
  all_goals (repeat' (first | with_reducible rfl | (with_reducible apply ite_quiet) | (with_reducible apply quiet_foldl_fst <;> intros)
                            | (with_reducible apply quiet_foldl_snd <;> intros) | (with_reducible apply quiet_foldl <;> intros) | split))
  all_goals (try simp)

@[simp] theorem State.forceEvents_quiet (l : List Nat) (s : State) : (State.forceEvents l s).2.quiet = s.quiet := by
  induction l generalizing s with
  | nil => rfl
  | cons n l ih => unfold State.forceEvents; simp [ih]

@[simp] theorem State.setForce_quiet (s : State) (n : Nat) (w : Nat) : (s.setForce n w).quiet = s.quiet := by
  unfold State.setForce
  try simp only []
  repeat' (first | with_reducible rfl | (with_reducible apply ite_quiet) | (with_reducible apply quiet_foldl_fst <;> intros)
                 | (with_reducible apply quiet_foldl_snd <;> intros) | (with_reducible apply quiet_foldl <;> intros) | split)
  all_goals (try simp only [apply_ite State.quiet, ite_self])
  all_goals (try simp)
  all_goals (repeat' (first | with_reducible rfl | (with_reducible apply ite_quiet) | (with_reducible apply quiet_foldl_fst <;> intros)
                            | (with_reducible apply quiet_foldl_snd <;> intros) | (with_reducible apply quiet_foldl <;> intros) | split))
  all_goals (try simp)
  all_goals (repeat' (first | with_reducible rfl | (with_reducible apply ite_quiet) | (with_reducible apply quiet_foldl_fst <;> intros)
                            | (with_reducible apply quiet_foldl_snd <;> intros) | (with_reducible apply quiet_foldl <;> intros) | split))
  all_goals (try simp)

theorem execFltForce_quiet (n : Nat) (w : Word) (s : State) (t : State) (h : execFltForce n w s = .next t) : t.quiet = s.quiet := by
  unfold execFltForce at h
  injection h with h
  subst h
  try simp only []
  repeat' (first | with_reducible rfl | (with_reducible apply ite_quiet) | (with_reducible apply quiet_foldl_fst <;> intros)
                 | (with_reducible apply quiet_foldl_snd <;> intros) | (with_reducible apply quiet_foldl <;> intros) | split)
  all_goals (try simp only [apply_ite State.quiet, ite_self])
  all_goals (try simp)
  all_goals (repeat' (first | with_reducible rfl | (with_reducible apply ite_quiet) | (with_reducible apply quiet_foldl_fst <;> intros)
                            | (with_reducible apply quiet_foldl_snd <;> intros) | (with_reducible apply quiet_foldl <;> intros) | split))
  all_goals (try simp)
  all_goals (repeat' (first | with_reducible rfl | (with_reducible apply ite_quiet) | (with_reducible apply quiet_foldl_fst <;> intros)
                            | (with_reducible apply quiet_foldl_snd <;> intros) | (with_reducible apply quiet_foldl <;> intros) | split))
  all_goals (try simp)

theorem execFltAck_quiet (src : Nat) (s : State) (t : State) (h : execFltAck src s = .next t) : t.quiet = s.quiet := by
  unfold execFltAck at h
  injection h with h
  subst h
  try simp only []
  repeat' (first | with_reducible rfl | (with_reducible apply ite_quiet) | (with_reducible apply quiet_foldl_fst <;> intros)
                 | (with_reducible apply quiet_foldl_snd <;> intros) | (with_reducible apply quiet_foldl <;> intros) | split)
  all_goals (try simp only [apply_ite State.quiet, ite_self])
  all_goals (try simp)
  all_goals (repeat' (first | with_reducible rfl | (with_reducible apply ite_quiet) | (with_reducible apply quiet_foldl_fst <;> intros)
                            | (with_reducible apply quiet_foldl_snd <;> intros) | (with_reducible apply quiet_foldl <;> intros) | split))
  all_goals (try simp)
  all_goals (repeat' (first | with_reducible rfl | (with_reducible apply ite_quiet) | (with_reducible apply quiet_foldl_fst <;> intros)
                            | (with_reducible apply quiet_foldl_snd <;> intros) | (with_reducible apply quiet_foldl <;> intros) | split))
  all_goals (try simp)

theorem execFltAckAll_quiet (s : State) (t : State) (h : execFltAckAll s = .next t) : t.quiet = s.quiet := by
  unfold execFltAckAll at h
  injection h with h
  subst h
  try simp only []
  repeat' (first | with_reducible rfl | (with_reducible apply ite_quiet) | (with_reducible apply quiet_foldl_fst <;> intros)
                 | (with_reducible apply quiet_foldl_snd <;> intros) | (with_reducible apply quiet_foldl <;> intros) | split)
  all_goals (try simp only [apply_ite State.quiet, ite_self])
  all_goals (try simp)
  all_goals (repeat' (first | with_reducible rfl | (with_reducible apply ite_quiet) | (with_reducible apply quiet_foldl_fst <;> intros)
                            | (with_reducible apply quiet_foldl_snd <;> intros) | (with_reducible apply quiet_foldl <;> intros) | split))
  all_goals (try simp)
  all_goals (repeat' (first | with_reducible rfl | (with_reducible apply ite_quiet) | (with_reducible apply quiet_foldl_fst <;> intros)
                            | (with_reducible apply quiet_foldl_snd <;> intros) | (with_reducible apply quiet_foldl <;> intros) | split))
  all_goals (try simp)

theorem resState_quiet {s : State} {r : Res} {q : Quiet} (h0 : s.quiet = q) (h : ∀ t, r = .next t → t.quiet = s.quiet) :
    (resState s r).quiet = q := by
  cases r with
  | next t => exact (h t rfl).trans h0
  | fault f => exact h0
  | refused f => exact h0

@[simp] theorem State.writeSec_quiet (s : State) (off w : Nat) : (s.writeSec off w).quiet = s.quiet := by
  unfold State.writeSec
  repeat' (first | with_reducible rfl | (with_reducible apply ite_quiet)
                 | (with_reducible refine resState_quiet ?_ (fun t h => ?_); rotate_left; first | apply execFuseBurnOwner_quiet; exact h
                                                                                                | apply execFuseBurnDebugClose_quiet; exact h
                                                                                                | apply execIrqHostAck_quiet; exact h
                                                                                                | apply execIrqSwSet_quiet; exact h
                                                                                                | apply execIrqSrcCfg_quiet; exact h
                                                                                                | apply execFltAckAll_quiet; exact h
                                                                                                | apply execFltAck_quiet; exact h
                                                                                                | apply execMsixMask_quiet; exact h
                                                                                                | apply execMbxCtrl_quiet; exact h
                                                                                                | apply execMbxAbort_quiet; exact h
                                                                                                | apply execAbortDrain_quiet; exact h
                                                                                                | apply execFabLock_quiet; exact h
                                                                                                | apply execFabUnfreeze_quiet; exact h
                                                                                                | apply execDecFeed_quiet; exact h
                                                                                                | apply execDecRelease_quiet; exact h
                                                                                                | apply execDmaAbort_quiet; exact h
                                                                                                | apply execDmaStart_quiet; exact h
                                                                                                | apply execDmaFifoFlush_quiet; exact h
                                                                                                | apply execPwrIslReq_quiet; exact h
                                                                                                | apply execPwrIslFreq_quiet; exact h
                                                                                                | apply execIngDb_quiet; exact h)
                 | split)
  all_goals (try simp)
  all_goals (repeat' (first | with_reducible rfl | (with_reducible apply ite_quiet)
                            | (with_reducible refine resState_quiet ?_ (fun t h => ?_); rotate_left; first | apply execFuseBurnOwner_quiet; exact h
                                                                                                           | apply execFuseBurnDebugClose_quiet; exact h
                                                                                                           | apply execIrqHostAck_quiet; exact h
                                                                                                           | apply execIrqSwSet_quiet; exact h
                                                                                                           | apply execIrqSrcCfg_quiet; exact h
                                                                                                           | apply execFltAckAll_quiet; exact h
                                                                                                           | apply execFltAck_quiet; exact h
                                                                                                           | apply execMsixMask_quiet; exact h
                                                                                                           | apply execMbxCtrl_quiet; exact h
                                                                                                           | apply execMbxAbort_quiet; exact h
                                                                                                           | apply execAbortDrain_quiet; exact h
                                                                                                           | apply execFabLock_quiet; exact h
                                                                                                           | apply execFabUnfreeze_quiet; exact h
                                                                                                           | apply execDecFeed_quiet; exact h
                                                                                                           | apply execDecRelease_quiet; exact h
                                                                                                           | apply execDmaAbort_quiet; exact h
                                                                                                           | apply execDmaStart_quiet; exact h
                                                                                                           | apply execDmaFifoFlush_quiet; exact h
                                                                                                           | apply execPwrIslReq_quiet; exact h
                                                                                                           | apply execPwrIslFreq_quiet; exact h
                                                                                                           | apply execIngDb_quiet; exact h)
                            | split))
  all_goals (try simp)

@[simp] theorem State.writeIrq_quiet (s : State) (off w : Nat) : (s.writeIrq off w).quiet = s.quiet := by
  unfold State.writeIrq
  repeat' (first | with_reducible rfl | (with_reducible apply ite_quiet)
                 | (with_reducible refine resState_quiet ?_ (fun t h => ?_); rotate_left; first | apply execFuseBurnOwner_quiet; exact h
                                                                                                | apply execFuseBurnDebugClose_quiet; exact h
                                                                                                | apply execIrqHostAck_quiet; exact h
                                                                                                | apply execIrqSwSet_quiet; exact h
                                                                                                | apply execIrqSrcCfg_quiet; exact h
                                                                                                | apply execFltAckAll_quiet; exact h
                                                                                                | apply execFltAck_quiet; exact h
                                                                                                | apply execMsixMask_quiet; exact h
                                                                                                | apply execMbxCtrl_quiet; exact h
                                                                                                | apply execMbxAbort_quiet; exact h
                                                                                                | apply execAbortDrain_quiet; exact h
                                                                                                | apply execFabLock_quiet; exact h
                                                                                                | apply execFabUnfreeze_quiet; exact h
                                                                                                | apply execDecFeed_quiet; exact h
                                                                                                | apply execDecRelease_quiet; exact h
                                                                                                | apply execDmaAbort_quiet; exact h
                                                                                                | apply execDmaStart_quiet; exact h
                                                                                                | apply execDmaFifoFlush_quiet; exact h
                                                                                                | apply execPwrIslReq_quiet; exact h
                                                                                                | apply execPwrIslFreq_quiet; exact h
                                                                                                | apply execIngDb_quiet; exact h)
                 | split)
  all_goals (try simp)
  all_goals (repeat' (first | with_reducible rfl | (with_reducible apply ite_quiet)
                            | (with_reducible refine resState_quiet ?_ (fun t h => ?_); rotate_left; first | apply execFuseBurnOwner_quiet; exact h
                                                                                                           | apply execFuseBurnDebugClose_quiet; exact h
                                                                                                           | apply execIrqHostAck_quiet; exact h
                                                                                                           | apply execIrqSwSet_quiet; exact h
                                                                                                           | apply execIrqSrcCfg_quiet; exact h
                                                                                                           | apply execFltAckAll_quiet; exact h
                                                                                                           | apply execFltAck_quiet; exact h
                                                                                                           | apply execMsixMask_quiet; exact h
                                                                                                           | apply execMbxCtrl_quiet; exact h
                                                                                                           | apply execMbxAbort_quiet; exact h
                                                                                                           | apply execAbortDrain_quiet; exact h
                                                                                                           | apply execFabLock_quiet; exact h
                                                                                                           | apply execFabUnfreeze_quiet; exact h
                                                                                                           | apply execDecFeed_quiet; exact h
                                                                                                           | apply execDecRelease_quiet; exact h
                                                                                                           | apply execDmaAbort_quiet; exact h
                                                                                                           | apply execDmaStart_quiet; exact h
                                                                                                           | apply execDmaFifoFlush_quiet; exact h
                                                                                                           | apply execPwrIslReq_quiet; exact h
                                                                                                           | apply execPwrIslFreq_quiet; exact h
                                                                                                           | apply execIngDb_quiet; exact h)
                            | split))
  all_goals (try simp)

@[simp] theorem State.writeFlt_quiet (s : State) (off w : Nat) : (s.writeFlt off w).quiet = s.quiet := by
  unfold State.writeFlt
  repeat' (first | with_reducible rfl | (with_reducible apply ite_quiet)
                 | (with_reducible refine resState_quiet ?_ (fun t h => ?_); rotate_left; first | apply execFuseBurnOwner_quiet; exact h
                                                                                                | apply execFuseBurnDebugClose_quiet; exact h
                                                                                                | apply execIrqHostAck_quiet; exact h
                                                                                                | apply execIrqSwSet_quiet; exact h
                                                                                                | apply execIrqSrcCfg_quiet; exact h
                                                                                                | apply execFltAckAll_quiet; exact h
                                                                                                | apply execFltAck_quiet; exact h
                                                                                                | apply execMsixMask_quiet; exact h
                                                                                                | apply execMbxCtrl_quiet; exact h
                                                                                                | apply execMbxAbort_quiet; exact h
                                                                                                | apply execAbortDrain_quiet; exact h
                                                                                                | apply execFabLock_quiet; exact h
                                                                                                | apply execFabUnfreeze_quiet; exact h
                                                                                                | apply execDecFeed_quiet; exact h
                                                                                                | apply execDecRelease_quiet; exact h
                                                                                                | apply execDmaAbort_quiet; exact h
                                                                                                | apply execDmaStart_quiet; exact h
                                                                                                | apply execDmaFifoFlush_quiet; exact h
                                                                                                | apply execPwrIslReq_quiet; exact h
                                                                                                | apply execPwrIslFreq_quiet; exact h
                                                                                                | apply execIngDb_quiet; exact h)
                 | split)
  all_goals (try simp)
  all_goals (repeat' (first | with_reducible rfl | (with_reducible apply ite_quiet)
                            | (with_reducible refine resState_quiet ?_ (fun t h => ?_); rotate_left; first | apply execFuseBurnOwner_quiet; exact h
                                                                                                           | apply execFuseBurnDebugClose_quiet; exact h
                                                                                                           | apply execIrqHostAck_quiet; exact h
                                                                                                           | apply execIrqSwSet_quiet; exact h
                                                                                                           | apply execIrqSrcCfg_quiet; exact h
                                                                                                           | apply execFltAckAll_quiet; exact h
                                                                                                           | apply execFltAck_quiet; exact h
                                                                                                           | apply execMsixMask_quiet; exact h
                                                                                                           | apply execMbxCtrl_quiet; exact h
                                                                                                           | apply execMbxAbort_quiet; exact h
                                                                                                           | apply execAbortDrain_quiet; exact h
                                                                                                           | apply execFabLock_quiet; exact h
                                                                                                           | apply execFabUnfreeze_quiet; exact h
                                                                                                           | apply execDecFeed_quiet; exact h
                                                                                                           | apply execDecRelease_quiet; exact h
                                                                                                           | apply execDmaAbort_quiet; exact h
                                                                                                           | apply execDmaStart_quiet; exact h
                                                                                                           | apply execDmaFifoFlush_quiet; exact h
                                                                                                           | apply execPwrIslReq_quiet; exact h
                                                                                                           | apply execPwrIslFreq_quiet; exact h
                                                                                                           | apply execIngDb_quiet; exact h)
                            | split))
  all_goals (try simp)

@[simp] theorem State.writeMsix_quiet (s : State) (v field w : Nat) : (s.writeMsix v field w).quiet = s.quiet := by
  unfold State.writeMsix
  repeat' (first | with_reducible rfl | (with_reducible apply ite_quiet)
                 | (with_reducible refine resState_quiet ?_ (fun t h => ?_); rotate_left; first | apply execFuseBurnOwner_quiet; exact h
                                                                                                | apply execFuseBurnDebugClose_quiet; exact h
                                                                                                | apply execIrqHostAck_quiet; exact h
                                                                                                | apply execIrqSwSet_quiet; exact h
                                                                                                | apply execIrqSrcCfg_quiet; exact h
                                                                                                | apply execFltAckAll_quiet; exact h
                                                                                                | apply execFltAck_quiet; exact h
                                                                                                | apply execMsixMask_quiet; exact h
                                                                                                | apply execMbxCtrl_quiet; exact h
                                                                                                | apply execMbxAbort_quiet; exact h
                                                                                                | apply execAbortDrain_quiet; exact h
                                                                                                | apply execFabLock_quiet; exact h
                                                                                                | apply execFabUnfreeze_quiet; exact h
                                                                                                | apply execDecFeed_quiet; exact h
                                                                                                | apply execDecRelease_quiet; exact h
                                                                                                | apply execDmaAbort_quiet; exact h
                                                                                                | apply execDmaStart_quiet; exact h
                                                                                                | apply execDmaFifoFlush_quiet; exact h
                                                                                                | apply execPwrIslReq_quiet; exact h
                                                                                                | apply execPwrIslFreq_quiet; exact h
                                                                                                | apply execIngDb_quiet; exact h)
                 | split)
  all_goals (try simp)
  all_goals (repeat' (first | with_reducible rfl | (with_reducible apply ite_quiet)
                            | (with_reducible refine resState_quiet ?_ (fun t h => ?_); rotate_left; first | apply execFuseBurnOwner_quiet; exact h
                                                                                                           | apply execFuseBurnDebugClose_quiet; exact h
                                                                                                           | apply execIrqHostAck_quiet; exact h
                                                                                                           | apply execIrqSwSet_quiet; exact h
                                                                                                           | apply execIrqSrcCfg_quiet; exact h
                                                                                                           | apply execFltAckAll_quiet; exact h
                                                                                                           | apply execFltAck_quiet; exact h
                                                                                                           | apply execMsixMask_quiet; exact h
                                                                                                           | apply execMbxCtrl_quiet; exact h
                                                                                                           | apply execMbxAbort_quiet; exact h
                                                                                                           | apply execAbortDrain_quiet; exact h
                                                                                                           | apply execFabLock_quiet; exact h
                                                                                                           | apply execFabUnfreeze_quiet; exact h
                                                                                                           | apply execDecFeed_quiet; exact h
                                                                                                           | apply execDecRelease_quiet; exact h
                                                                                                           | apply execDmaAbort_quiet; exact h
                                                                                                           | apply execDmaStart_quiet; exact h
                                                                                                           | apply execDmaFifoFlush_quiet; exact h
                                                                                                           | apply execPwrIslReq_quiet; exact h
                                                                                                           | apply execPwrIslFreq_quiet; exact h
                                                                                                           | apply execIngDb_quiet; exact h)
                            | split))
  all_goals (try simp)

@[simp] theorem State.writeMbx_quiet (s : State) (off w : Nat) : (s.writeMbx off w).quiet = s.quiet := by
  unfold State.writeMbx
  repeat' (first | with_reducible rfl | (with_reducible apply ite_quiet)
                 | (with_reducible refine resState_quiet ?_ (fun t h => ?_); rotate_left; first | apply execFuseBurnOwner_quiet; exact h
                                                                                                | apply execFuseBurnDebugClose_quiet; exact h
                                                                                                | apply execIrqHostAck_quiet; exact h
                                                                                                | apply execIrqSwSet_quiet; exact h
                                                                                                | apply execIrqSrcCfg_quiet; exact h
                                                                                                | apply execFltAckAll_quiet; exact h
                                                                                                | apply execFltAck_quiet; exact h
                                                                                                | apply execMsixMask_quiet; exact h
                                                                                                | apply execMbxCtrl_quiet; exact h
                                                                                                | apply execMbxAbort_quiet; exact h
                                                                                                | apply execAbortDrain_quiet; exact h
                                                                                                | apply execFabLock_quiet; exact h
                                                                                                | apply execFabUnfreeze_quiet; exact h
                                                                                                | apply execDecFeed_quiet; exact h
                                                                                                | apply execDecRelease_quiet; exact h
                                                                                                | apply execDmaAbort_quiet; exact h
                                                                                                | apply execDmaStart_quiet; exact h
                                                                                                | apply execDmaFifoFlush_quiet; exact h
                                                                                                | apply execPwrIslReq_quiet; exact h
                                                                                                | apply execPwrIslFreq_quiet; exact h
                                                                                                | apply execIngDb_quiet; exact h)
                 | split)
  all_goals (try simp)
  all_goals (repeat' (first | with_reducible rfl | (with_reducible apply ite_quiet)
                            | (with_reducible refine resState_quiet ?_ (fun t h => ?_); rotate_left; first | apply execFuseBurnOwner_quiet; exact h
                                                                                                           | apply execFuseBurnDebugClose_quiet; exact h
                                                                                                           | apply execIrqHostAck_quiet; exact h
                                                                                                           | apply execIrqSwSet_quiet; exact h
                                                                                                           | apply execIrqSrcCfg_quiet; exact h
                                                                                                           | apply execFltAckAll_quiet; exact h
                                                                                                           | apply execFltAck_quiet; exact h
                                                                                                           | apply execMsixMask_quiet; exact h
                                                                                                           | apply execMbxCtrl_quiet; exact h
                                                                                                           | apply execMbxAbort_quiet; exact h
                                                                                                           | apply execAbortDrain_quiet; exact h
                                                                                                           | apply execFabLock_quiet; exact h
                                                                                                           | apply execFabUnfreeze_quiet; exact h
                                                                                                           | apply execDecFeed_quiet; exact h
                                                                                                           | apply execDecRelease_quiet; exact h
                                                                                                           | apply execDmaAbort_quiet; exact h
                                                                                                           | apply execDmaStart_quiet; exact h
                                                                                                           | apply execDmaFifoFlush_quiet; exact h
                                                                                                           | apply execPwrIslReq_quiet; exact h
                                                                                                           | apply execPwrIslFreq_quiet; exact h
                                                                                                           | apply execIngDb_quiet; exact h)
                            | split))
  all_goals (try simp)

@[simp] theorem State.writeFab_quiet (s : State) (off w : Nat) : (s.writeFab off w).quiet = s.quiet := by
  unfold State.writeFab
  repeat' (first | with_reducible rfl | (with_reducible apply ite_quiet)
                 | (with_reducible refine resState_quiet ?_ (fun t h => ?_); rotate_left; first | apply execFuseBurnOwner_quiet; exact h
                                                                                                | apply execFuseBurnDebugClose_quiet; exact h
                                                                                                | apply execIrqHostAck_quiet; exact h
                                                                                                | apply execIrqSwSet_quiet; exact h
                                                                                                | apply execIrqSrcCfg_quiet; exact h
                                                                                                | apply execFltAckAll_quiet; exact h
                                                                                                | apply execFltAck_quiet; exact h
                                                                                                | apply execMsixMask_quiet; exact h
                                                                                                | apply execMbxCtrl_quiet; exact h
                                                                                                | apply execMbxAbort_quiet; exact h
                                                                                                | apply execAbortDrain_quiet; exact h
                                                                                                | apply execFabLock_quiet; exact h
                                                                                                | apply execFabUnfreeze_quiet; exact h
                                                                                                | apply execDecFeed_quiet; exact h
                                                                                                | apply execDecRelease_quiet; exact h
                                                                                                | apply execDmaAbort_quiet; exact h
                                                                                                | apply execDmaStart_quiet; exact h
                                                                                                | apply execDmaFifoFlush_quiet; exact h
                                                                                                | apply execPwrIslReq_quiet; exact h
                                                                                                | apply execPwrIslFreq_quiet; exact h
                                                                                                | apply execIngDb_quiet; exact h)
                 | split)
  all_goals (try simp)
  all_goals (repeat' (first | with_reducible rfl | (with_reducible apply ite_quiet)
                            | (with_reducible refine resState_quiet ?_ (fun t h => ?_); rotate_left; first | apply execFuseBurnOwner_quiet; exact h
                                                                                                           | apply execFuseBurnDebugClose_quiet; exact h
                                                                                                           | apply execIrqHostAck_quiet; exact h
                                                                                                           | apply execIrqSwSet_quiet; exact h
                                                                                                           | apply execIrqSrcCfg_quiet; exact h
                                                                                                           | apply execFltAckAll_quiet; exact h
                                                                                                           | apply execFltAck_quiet; exact h
                                                                                                           | apply execMsixMask_quiet; exact h
                                                                                                           | apply execMbxCtrl_quiet; exact h
                                                                                                           | apply execMbxAbort_quiet; exact h
                                                                                                           | apply execAbortDrain_quiet; exact h
                                                                                                           | apply execFabLock_quiet; exact h
                                                                                                           | apply execFabUnfreeze_quiet; exact h
                                                                                                           | apply execDecFeed_quiet; exact h
                                                                                                           | apply execDecRelease_quiet; exact h
                                                                                                           | apply execDmaAbort_quiet; exact h
                                                                                                           | apply execDmaStart_quiet; exact h
                                                                                                           | apply execDmaFifoFlush_quiet; exact h
                                                                                                           | apply execPwrIslReq_quiet; exact h
                                                                                                           | apply execPwrIslFreq_quiet; exact h
                                                                                                           | apply execIngDb_quiet; exact h)
                            | split))
  all_goals (try simp)

@[simp] theorem State.writeRota_quiet (s : State) (off w : Nat) : (s.writeRota off w).quiet = s.quiet := by
  unfold State.writeRota
  repeat' (first | with_reducible rfl | (with_reducible apply ite_quiet)
                 | (with_reducible refine resState_quiet ?_ (fun t h => ?_); rotate_left; first | apply execFuseBurnOwner_quiet; exact h
                                                                                                | apply execFuseBurnDebugClose_quiet; exact h
                                                                                                | apply execIrqHostAck_quiet; exact h
                                                                                                | apply execIrqSwSet_quiet; exact h
                                                                                                | apply execIrqSrcCfg_quiet; exact h
                                                                                                | apply execFltAckAll_quiet; exact h
                                                                                                | apply execFltAck_quiet; exact h
                                                                                                | apply execMsixMask_quiet; exact h
                                                                                                | apply execMbxCtrl_quiet; exact h
                                                                                                | apply execMbxAbort_quiet; exact h
                                                                                                | apply execAbortDrain_quiet; exact h
                                                                                                | apply execFabLock_quiet; exact h
                                                                                                | apply execFabUnfreeze_quiet; exact h
                                                                                                | apply execDecFeed_quiet; exact h
                                                                                                | apply execDecRelease_quiet; exact h
                                                                                                | apply execDmaAbort_quiet; exact h
                                                                                                | apply execDmaStart_quiet; exact h
                                                                                                | apply execDmaFifoFlush_quiet; exact h
                                                                                                | apply execPwrIslReq_quiet; exact h
                                                                                                | apply execPwrIslFreq_quiet; exact h
                                                                                                | apply execIngDb_quiet; exact h)
                 | split)
  all_goals (try simp)
  all_goals (repeat' (first | with_reducible rfl | (with_reducible apply ite_quiet)
                            | (with_reducible refine resState_quiet ?_ (fun t h => ?_); rotate_left; first | apply execFuseBurnOwner_quiet; exact h
                                                                                                           | apply execFuseBurnDebugClose_quiet; exact h
                                                                                                           | apply execIrqHostAck_quiet; exact h
                                                                                                           | apply execIrqSwSet_quiet; exact h
                                                                                                           | apply execIrqSrcCfg_quiet; exact h
                                                                                                           | apply execFltAckAll_quiet; exact h
                                                                                                           | apply execFltAck_quiet; exact h
                                                                                                           | apply execMsixMask_quiet; exact h
                                                                                                           | apply execMbxCtrl_quiet; exact h
                                                                                                           | apply execMbxAbort_quiet; exact h
                                                                                                           | apply execAbortDrain_quiet; exact h
                                                                                                           | apply execFabLock_quiet; exact h
                                                                                                           | apply execFabUnfreeze_quiet; exact h
                                                                                                           | apply execDecFeed_quiet; exact h
                                                                                                           | apply execDecRelease_quiet; exact h
                                                                                                           | apply execDmaAbort_quiet; exact h
                                                                                                           | apply execDmaStart_quiet; exact h
                                                                                                           | apply execDmaFifoFlush_quiet; exact h
                                                                                                           | apply execPwrIslReq_quiet; exact h
                                                                                                           | apply execPwrIslFreq_quiet; exact h
                                                                                                           | apply execIngDb_quiet; exact h)
                            | split))
  all_goals (try simp)

@[simp] theorem State.writeRc_quiet (s : State) (ch p o w : Nat) : (s.writeRc ch p o w).quiet = s.quiet := by
  unfold State.writeRc
  repeat' (first | with_reducible rfl | (with_reducible apply ite_quiet)
                 | (with_reducible refine resState_quiet ?_ (fun t h => ?_); rotate_left; first | apply execFuseBurnOwner_quiet; exact h
                                                                                                | apply execFuseBurnDebugClose_quiet; exact h
                                                                                                | apply execIrqHostAck_quiet; exact h
                                                                                                | apply execIrqSwSet_quiet; exact h
                                                                                                | apply execIrqSrcCfg_quiet; exact h
                                                                                                | apply execFltAckAll_quiet; exact h
                                                                                                | apply execFltAck_quiet; exact h
                                                                                                | apply execMsixMask_quiet; exact h
                                                                                                | apply execMbxCtrl_quiet; exact h
                                                                                                | apply execMbxAbort_quiet; exact h
                                                                                                | apply execAbortDrain_quiet; exact h
                                                                                                | apply execFabLock_quiet; exact h
                                                                                                | apply execFabUnfreeze_quiet; exact h
                                                                                                | apply execDecFeed_quiet; exact h
                                                                                                | apply execDecRelease_quiet; exact h
                                                                                                | apply execDmaAbort_quiet; exact h
                                                                                                | apply execDmaStart_quiet; exact h
                                                                                                | apply execDmaFifoFlush_quiet; exact h
                                                                                                | apply execPwrIslReq_quiet; exact h
                                                                                                | apply execPwrIslFreq_quiet; exact h
                                                                                                | apply execIngDb_quiet; exact h)
                 | split)
  all_goals (try simp)
  all_goals (repeat' (first | with_reducible rfl | (with_reducible apply ite_quiet)
                            | (with_reducible refine resState_quiet ?_ (fun t h => ?_); rotate_left; first | apply execFuseBurnOwner_quiet; exact h
                                                                                                           | apply execFuseBurnDebugClose_quiet; exact h
                                                                                                           | apply execIrqHostAck_quiet; exact h
                                                                                                           | apply execIrqSwSet_quiet; exact h
                                                                                                           | apply execIrqSrcCfg_quiet; exact h
                                                                                                           | apply execFltAckAll_quiet; exact h
                                                                                                           | apply execFltAck_quiet; exact h
                                                                                                           | apply execMsixMask_quiet; exact h
                                                                                                           | apply execMbxCtrl_quiet; exact h
                                                                                                           | apply execMbxAbort_quiet; exact h
                                                                                                           | apply execAbortDrain_quiet; exact h
                                                                                                           | apply execFabLock_quiet; exact h
                                                                                                           | apply execFabUnfreeze_quiet; exact h
                                                                                                           | apply execDecFeed_quiet; exact h
                                                                                                           | apply execDecRelease_quiet; exact h
                                                                                                           | apply execDmaAbort_quiet; exact h
                                                                                                           | apply execDmaStart_quiet; exact h
                                                                                                           | apply execDmaFifoFlush_quiet; exact h
                                                                                                           | apply execPwrIslReq_quiet; exact h
                                                                                                           | apply execPwrIslFreq_quiet; exact h
                                                                                                           | apply execIngDb_quiet; exact h)
                            | split))
  all_goals (try simp)

@[simp] theorem State.writeDcx_quiet (s : State) (x o w : Nat) : (s.writeDcx x o w).quiet = s.quiet := by
  unfold State.writeDcx
  repeat' (first | with_reducible rfl | (with_reducible apply ite_quiet)
                 | (with_reducible refine resState_quiet ?_ (fun t h => ?_); rotate_left; first | apply execFuseBurnOwner_quiet; exact h
                                                                                                | apply execFuseBurnDebugClose_quiet; exact h
                                                                                                | apply execIrqHostAck_quiet; exact h
                                                                                                | apply execIrqSwSet_quiet; exact h
                                                                                                | apply execIrqSrcCfg_quiet; exact h
                                                                                                | apply execFltAckAll_quiet; exact h
                                                                                                | apply execFltAck_quiet; exact h
                                                                                                | apply execMsixMask_quiet; exact h
                                                                                                | apply execMbxCtrl_quiet; exact h
                                                                                                | apply execMbxAbort_quiet; exact h
                                                                                                | apply execAbortDrain_quiet; exact h
                                                                                                | apply execFabLock_quiet; exact h
                                                                                                | apply execFabUnfreeze_quiet; exact h
                                                                                                | apply execDecFeed_quiet; exact h
                                                                                                | apply execDecRelease_quiet; exact h
                                                                                                | apply execDmaAbort_quiet; exact h
                                                                                                | apply execDmaStart_quiet; exact h
                                                                                                | apply execDmaFifoFlush_quiet; exact h
                                                                                                | apply execPwrIslReq_quiet; exact h
                                                                                                | apply execPwrIslFreq_quiet; exact h
                                                                                                | apply execIngDb_quiet; exact h)
                 | split)
  all_goals (try simp)
  all_goals (repeat' (first | with_reducible rfl | (with_reducible apply ite_quiet)
                            | (with_reducible refine resState_quiet ?_ (fun t h => ?_); rotate_left; first | apply execFuseBurnOwner_quiet; exact h
                                                                                                           | apply execFuseBurnDebugClose_quiet; exact h
                                                                                                           | apply execIrqHostAck_quiet; exact h
                                                                                                           | apply execIrqSwSet_quiet; exact h
                                                                                                           | apply execIrqSrcCfg_quiet; exact h
                                                                                                           | apply execFltAckAll_quiet; exact h
                                                                                                           | apply execFltAck_quiet; exact h
                                                                                                           | apply execMsixMask_quiet; exact h
                                                                                                           | apply execMbxCtrl_quiet; exact h
                                                                                                           | apply execMbxAbort_quiet; exact h
                                                                                                           | apply execAbortDrain_quiet; exact h
                                                                                                           | apply execFabLock_quiet; exact h
                                                                                                           | apply execFabUnfreeze_quiet; exact h
                                                                                                           | apply execDecFeed_quiet; exact h
                                                                                                           | apply execDecRelease_quiet; exact h
                                                                                                           | apply execDmaAbort_quiet; exact h
                                                                                                           | apply execDmaStart_quiet; exact h
                                                                                                           | apply execDmaFifoFlush_quiet; exact h
                                                                                                           | apply execPwrIslReq_quiet; exact h
                                                                                                           | apply execPwrIslFreq_quiet; exact h
                                                                                                           | apply execIngDb_quiet; exact h)
                            | split))
  all_goals (try simp)

@[simp] theorem State.writeHbm_quiet (s : State) (k o w : Nat) : (s.writeHbm k o w).quiet = s.quiet := by
  unfold State.writeHbm
  repeat' (first | with_reducible rfl | (with_reducible apply ite_quiet)
                 | (with_reducible refine resState_quiet ?_ (fun t h => ?_); rotate_left; first | apply execFuseBurnOwner_quiet; exact h
                                                                                                | apply execFuseBurnDebugClose_quiet; exact h
                                                                                                | apply execIrqHostAck_quiet; exact h
                                                                                                | apply execIrqSwSet_quiet; exact h
                                                                                                | apply execIrqSrcCfg_quiet; exact h
                                                                                                | apply execFltAckAll_quiet; exact h
                                                                                                | apply execFltAck_quiet; exact h
                                                                                                | apply execMsixMask_quiet; exact h
                                                                                                | apply execMbxCtrl_quiet; exact h
                                                                                                | apply execMbxAbort_quiet; exact h
                                                                                                | apply execAbortDrain_quiet; exact h
                                                                                                | apply execFabLock_quiet; exact h
                                                                                                | apply execFabUnfreeze_quiet; exact h
                                                                                                | apply execDecFeed_quiet; exact h
                                                                                                | apply execDecRelease_quiet; exact h
                                                                                                | apply execDmaAbort_quiet; exact h
                                                                                                | apply execDmaStart_quiet; exact h
                                                                                                | apply execDmaFifoFlush_quiet; exact h
                                                                                                | apply execPwrIslReq_quiet; exact h
                                                                                                | apply execPwrIslFreq_quiet; exact h
                                                                                                | apply execIngDb_quiet; exact h)
                 | split)
  all_goals (try simp)
  all_goals (repeat' (first | with_reducible rfl | (with_reducible apply ite_quiet)
                            | (with_reducible refine resState_quiet ?_ (fun t h => ?_); rotate_left; first | apply execFuseBurnOwner_quiet; exact h
                                                                                                           | apply execFuseBurnDebugClose_quiet; exact h
                                                                                                           | apply execIrqHostAck_quiet; exact h
                                                                                                           | apply execIrqSwSet_quiet; exact h
                                                                                                           | apply execIrqSrcCfg_quiet; exact h
                                                                                                           | apply execFltAckAll_quiet; exact h
                                                                                                           | apply execFltAck_quiet; exact h
                                                                                                           | apply execMsixMask_quiet; exact h
                                                                                                           | apply execMbxCtrl_quiet; exact h
                                                                                                           | apply execMbxAbort_quiet; exact h
                                                                                                           | apply execAbortDrain_quiet; exact h
                                                                                                           | apply execFabLock_quiet; exact h
                                                                                                           | apply execFabUnfreeze_quiet; exact h
                                                                                                           | apply execDecFeed_quiet; exact h
                                                                                                           | apply execDecRelease_quiet; exact h
                                                                                                           | apply execDmaAbort_quiet; exact h
                                                                                                           | apply execDmaStart_quiet; exact h
                                                                                                           | apply execDmaFifoFlush_quiet; exact h
                                                                                                           | apply execPwrIslReq_quiet; exact h
                                                                                                           | apply execPwrIslFreq_quiet; exact h
                                                                                                           | apply execIngDb_quiet; exact h)
                            | split))
  all_goals (try simp)

@[simp] theorem State.writeDmaCh_quiet (s : State) (who : Requester) (n r w : Nat) : (s.writeDmaCh who n r w).quiet = s.quiet := by
  unfold State.writeDmaCh
  repeat' (first | with_reducible rfl | (with_reducible apply ite_quiet)
                 | (with_reducible refine resState_quiet ?_ (fun t h => ?_); rotate_left; first | apply execFuseBurnOwner_quiet; exact h
                                                                                                | apply execFuseBurnDebugClose_quiet; exact h
                                                                                                | apply execIrqHostAck_quiet; exact h
                                                                                                | apply execIrqSwSet_quiet; exact h
                                                                                                | apply execIrqSrcCfg_quiet; exact h
                                                                                                | apply execFltAckAll_quiet; exact h
                                                                                                | apply execFltAck_quiet; exact h
                                                                                                | apply execMsixMask_quiet; exact h
                                                                                                | apply execMbxCtrl_quiet; exact h
                                                                                                | apply execMbxAbort_quiet; exact h
                                                                                                | apply execAbortDrain_quiet; exact h
                                                                                                | apply execFabLock_quiet; exact h
                                                                                                | apply execFabUnfreeze_quiet; exact h
                                                                                                | apply execDecFeed_quiet; exact h
                                                                                                | apply execDecRelease_quiet; exact h
                                                                                                | apply execDmaAbort_quiet; exact h
                                                                                                | apply execDmaStart_quiet; exact h
                                                                                                | apply execDmaFifoFlush_quiet; exact h
                                                                                                | apply execPwrIslReq_quiet; exact h
                                                                                                | apply execPwrIslFreq_quiet; exact h
                                                                                                | apply execIngDb_quiet; exact h)
                 | split)
  all_goals (try simp)
  all_goals (repeat' (first | with_reducible rfl | (with_reducible apply ite_quiet)
                            | (with_reducible refine resState_quiet ?_ (fun t h => ?_); rotate_left; first | apply execFuseBurnOwner_quiet; exact h
                                                                                                           | apply execFuseBurnDebugClose_quiet; exact h
                                                                                                           | apply execIrqHostAck_quiet; exact h
                                                                                                           | apply execIrqSwSet_quiet; exact h
                                                                                                           | apply execIrqSrcCfg_quiet; exact h
                                                                                                           | apply execFltAckAll_quiet; exact h
                                                                                                           | apply execFltAck_quiet; exact h
                                                                                                           | apply execMsixMask_quiet; exact h
                                                                                                           | apply execMbxCtrl_quiet; exact h
                                                                                                           | apply execMbxAbort_quiet; exact h
                                                                                                           | apply execAbortDrain_quiet; exact h
                                                                                                           | apply execFabLock_quiet; exact h
                                                                                                           | apply execFabUnfreeze_quiet; exact h
                                                                                                           | apply execDecFeed_quiet; exact h
                                                                                                           | apply execDecRelease_quiet; exact h
                                                                                                           | apply execDmaAbort_quiet; exact h
                                                                                                           | apply execDmaStart_quiet; exact h
                                                                                                           | apply execDmaFifoFlush_quiet; exact h
                                                                                                           | apply execPwrIslReq_quiet; exact h
                                                                                                           | apply execPwrIslFreq_quiet; exact h
                                                                                                           | apply execIngDb_quiet; exact h)
                            | split))
  all_goals (try simp)

@[simp] theorem State.writeDma_quiet (s : State) (who : Requester) (off w : Nat) : (s.writeDma who off w).quiet = s.quiet := by
  unfold State.writeDma
  repeat' (first | with_reducible rfl | (with_reducible apply ite_quiet)
                 | (with_reducible refine resState_quiet ?_ (fun t h => ?_); rotate_left; first | apply execFuseBurnOwner_quiet; exact h
                                                                                                | apply execFuseBurnDebugClose_quiet; exact h
                                                                                                | apply execIrqHostAck_quiet; exact h
                                                                                                | apply execIrqSwSet_quiet; exact h
                                                                                                | apply execIrqSrcCfg_quiet; exact h
                                                                                                | apply execFltAckAll_quiet; exact h
                                                                                                | apply execFltAck_quiet; exact h
                                                                                                | apply execMsixMask_quiet; exact h
                                                                                                | apply execMbxCtrl_quiet; exact h
                                                                                                | apply execMbxAbort_quiet; exact h
                                                                                                | apply execAbortDrain_quiet; exact h
                                                                                                | apply execFabLock_quiet; exact h
                                                                                                | apply execFabUnfreeze_quiet; exact h
                                                                                                | apply execDecFeed_quiet; exact h
                                                                                                | apply execDecRelease_quiet; exact h
                                                                                                | apply execDmaAbort_quiet; exact h
                                                                                                | apply execDmaStart_quiet; exact h
                                                                                                | apply execDmaFifoFlush_quiet; exact h
                                                                                                | apply execPwrIslReq_quiet; exact h
                                                                                                | apply execPwrIslFreq_quiet; exact h
                                                                                                | apply execIngDb_quiet; exact h)
                 | split)
  all_goals (try simp)
  all_goals (repeat' (first | with_reducible rfl | (with_reducible apply ite_quiet)
                            | (with_reducible refine resState_quiet ?_ (fun t h => ?_); rotate_left; first | apply execFuseBurnOwner_quiet; exact h
                                                                                                           | apply execFuseBurnDebugClose_quiet; exact h
                                                                                                           | apply execIrqHostAck_quiet; exact h
                                                                                                           | apply execIrqSwSet_quiet; exact h
                                                                                                           | apply execIrqSrcCfg_quiet; exact h
                                                                                                           | apply execFltAckAll_quiet; exact h
                                                                                                           | apply execFltAck_quiet; exact h
                                                                                                           | apply execMsixMask_quiet; exact h
                                                                                                           | apply execMbxCtrl_quiet; exact h
                                                                                                           | apply execMbxAbort_quiet; exact h
                                                                                                           | apply execAbortDrain_quiet; exact h
                                                                                                           | apply execFabLock_quiet; exact h
                                                                                                           | apply execFabUnfreeze_quiet; exact h
                                                                                                           | apply execDecFeed_quiet; exact h
                                                                                                           | apply execDecRelease_quiet; exact h
                                                                                                           | apply execDmaAbort_quiet; exact h
                                                                                                           | apply execDmaStart_quiet; exact h
                                                                                                           | apply execDmaFifoFlush_quiet; exact h
                                                                                                           | apply execPwrIslReq_quiet; exact h
                                                                                                           | apply execPwrIslFreq_quiet; exact h
                                                                                                           | apply execIngDb_quiet; exact h)
                            | split))
  all_goals (try simp)

@[simp] theorem State.write4_quiet (s : State) (who : Requester) (off w : Nat) : (s.write4 who off w).quiet = s.quiet := by
  unfold State.write4
  repeat' (first | with_reducible rfl | (with_reducible apply ite_quiet)
                 | (with_reducible refine resState_quiet ?_ (fun t h => ?_); rotate_left; first | apply execFuseBurnOwner_quiet; exact h
                                                                                                | apply execFuseBurnDebugClose_quiet; exact h
                                                                                                | apply execIrqHostAck_quiet; exact h
                                                                                                | apply execIrqSwSet_quiet; exact h
                                                                                                | apply execIrqSrcCfg_quiet; exact h
                                                                                                | apply execFltAckAll_quiet; exact h
                                                                                                | apply execFltAck_quiet; exact h
                                                                                                | apply execMsixMask_quiet; exact h
                                                                                                | apply execMbxCtrl_quiet; exact h
                                                                                                | apply execMbxAbort_quiet; exact h
                                                                                                | apply execAbortDrain_quiet; exact h
                                                                                                | apply execFabLock_quiet; exact h
                                                                                                | apply execFabUnfreeze_quiet; exact h
                                                                                                | apply execDecFeed_quiet; exact h
                                                                                                | apply execDecRelease_quiet; exact h
                                                                                                | apply execDmaAbort_quiet; exact h
                                                                                                | apply execDmaStart_quiet; exact h
                                                                                                | apply execDmaFifoFlush_quiet; exact h
                                                                                                | apply execPwrIslReq_quiet; exact h
                                                                                                | apply execPwrIslFreq_quiet; exact h
                                                                                                | apply execIngDb_quiet; exact h)
                 | split)
  all_goals (try simp)
  all_goals (repeat' (first | with_reducible rfl | (with_reducible apply ite_quiet)
                            | (with_reducible refine resState_quiet ?_ (fun t h => ?_); rotate_left; first | apply execFuseBurnOwner_quiet; exact h
                                                                                                           | apply execFuseBurnDebugClose_quiet; exact h
                                                                                                           | apply execIrqHostAck_quiet; exact h
                                                                                                           | apply execIrqSwSet_quiet; exact h
                                                                                                           | apply execIrqSrcCfg_quiet; exact h
                                                                                                           | apply execFltAckAll_quiet; exact h
                                                                                                           | apply execFltAck_quiet; exact h
                                                                                                           | apply execMsixMask_quiet; exact h
                                                                                                           | apply execMbxCtrl_quiet; exact h
                                                                                                           | apply execMbxAbort_quiet; exact h
                                                                                                           | apply execAbortDrain_quiet; exact h
                                                                                                           | apply execFabLock_quiet; exact h
                                                                                                           | apply execFabUnfreeze_quiet; exact h
                                                                                                           | apply execDecFeed_quiet; exact h
                                                                                                           | apply execDecRelease_quiet; exact h
                                                                                                           | apply execDmaAbort_quiet; exact h
                                                                                                           | apply execDmaStart_quiet; exact h
                                                                                                           | apply execDmaFifoFlush_quiet; exact h
                                                                                                           | apply execPwrIslReq_quiet; exact h
                                                                                                           | apply execPwrIslFreq_quiet; exact h
                                                                                                           | apply execIngDb_quiet; exact h)
                            | split))
  all_goals (try simp)

theorem execRegisterWrite_quiet (who : Requester) (off size : Nat) (val : BitVec 64) (s : State) (partialBe : Bool) (t : State)
    (h : execRegisterWrite who off size val s partialBe = .next t) : t.quiet = s.quiet := by
  unfold execRegisterWrite at h
  injection h with h
  subst h
  try simp only []
  repeat' (first | with_reducible rfl | (with_reducible apply ite_quiet) | (with_reducible apply quiet_foldl_fst <;> intros)
                 | (with_reducible apply quiet_foldl_snd <;> intros) | (with_reducible apply quiet_foldl <;> intros) | split)
  all_goals (try simp only [apply_ite State.quiet, ite_self])
  all_goals (try simp)
  all_goals (repeat' (first | with_reducible rfl | (with_reducible apply ite_quiet) | (with_reducible apply quiet_foldl_fst <;> intros)
                            | (with_reducible apply quiet_foldl_snd <;> intros) | (with_reducible apply quiet_foldl <;> intros) | split))
  all_goals (try simp)
  all_goals (repeat' (first | with_reducible rfl | (with_reducible apply ite_quiet) | (with_reducible apply quiet_foldl_fst <;> intros)
                            | (with_reducible apply quiet_foldl_snd <;> intros) | (with_reducible apply quiet_foldl <;> intros) | split))
  all_goals (try simp)

@[simp] theorem State.slew_quiet (s : State) : (s.slew).2.quiet = s.quiet := by
  unfold State.slew
  try simp only []
  repeat' (first | with_reducible rfl | (with_reducible apply ite_quiet) | (with_reducible apply quiet_foldl_fst <;> intros)
                 | (with_reducible apply quiet_foldl_snd <;> intros) | (with_reducible apply quiet_foldl <;> intros) | split)
  all_goals (try simp only [apply_ite State.quiet, ite_self])
  all_goals (try simp)
  all_goals (repeat' (first | with_reducible rfl | (with_reducible apply ite_quiet) | (with_reducible apply quiet_foldl_fst <;> intros)
                            | (with_reducible apply quiet_foldl_snd <;> intros) | (with_reducible apply quiet_foldl <;> intros) | split))
  all_goals (try simp)
  all_goals (repeat' (first | with_reducible rfl | (with_reducible apply ite_quiet) | (with_reducible apply quiet_foldl_fst <;> intros)
                            | (with_reducible apply quiet_foldl_snd <;> intros) | (with_reducible apply quiet_foldl <;> intros) | split))
  all_goals (try simp)

theorem quiet_ptp (s : State) (v : Ptp) : ({ s with ptp := v } : State).quiet = s.quiet := rfl

@[simp] theorem State.coast_quiet (s : State) : (s.coast).2.quiet = s.quiet := by
  unfold State.coast
  have h := State.drawBelow_quiet s 2
  rcases e : s.drawBelow 2 with ⟨n, u⟩
  rw [e] at h
  rw [← h]
  rcases e2 : u.ptp.coast n with ⟨t, v⟩
  exact quiet_ptp u v

@[simp] theorem State.tick_quiet (s : State) : (s.tick).quiet = s.quiet := by
  unfold State.tick
  try simp only []
  repeat' (first | with_reducible rfl | (with_reducible apply ite_quiet) | (with_reducible apply quiet_foldl_fst <;> intros)
                 | (with_reducible apply quiet_foldl_snd <;> intros) | (with_reducible apply quiet_foldl <;> intros) | split)
  all_goals (try simp only [apply_ite State.quiet, ite_self])
  all_goals (try simp)
  all_goals (repeat' (first | with_reducible rfl | (with_reducible apply ite_quiet) | (with_reducible apply quiet_foldl_fst <;> intros)
                            | (with_reducible apply quiet_foldl_snd <;> intros) | (with_reducible apply quiet_foldl <;> intros) | split))
  all_goals (try simp)
  all_goals (repeat' (first | with_reducible rfl | (with_reducible apply ite_quiet) | (with_reducible apply quiet_foldl_fst <;> intros)
                            | (with_reducible apply quiet_foldl_snd <;> intros) | (with_reducible apply quiet_foldl <;> intros) | split))
  all_goals (try simp)

end Sys2Proof.Machine
end

