-- ==== Sys2Proof/Tests/Slice0.lean ====
section
/-!
SUPPORT. The tests: commands that are not well formed, a witness for the hypotheses of every statement, and single steps whose
results the spec gives.
-/

namespace Sys2Proof.Tests

open Sys2Proof Sys2Proof.Machine

/-! ### Small states and operands -/

/-- Runs, safe, starting. -/
def runSt : State := { glb := { st := .run } }
def safeSt : State := { glb := { st := .safe } }
def loadSt : State := { glb := { st := .load }, cfg := { phase := 1 } }
def trainSt : State := { glb := { st := .train } }
/-- RUN in the Fenic layout. -/
def fenicSt : State := { glb := { st := .run }, mbx := { fenic := true } }
/-- A channel class of 60 frames per second on one lane, in VFT, which serves anyone. -/
def cls1 : Machine.Class :=
  { base := { maxW := 1920, maxH := 1088, rate := 2, format := 0, layers := 1, lanes := 1, latency := 0, pixFmt := 0, hint := false
              cut := false, transfer := 0, primaries := 0, segs := 0, pathVft := false, pathPcie := true, pathBind := false, ring := 4 }
    cod := { mode := 0, modelSet := 0, maxPay := 1200, target := 5000, peak := 9000, minK := 1000, qpMin := 10, qpMax := 40, cqQp := 20
             refreshN := 60, refreshHold := 10, feedback := false, ackRef := false, mark := false, cutRefresh := false, ackDepth := 1
             markEvery := 0, markDelta := 0, extId := 1 } }
/-- RUN, with that class for channel 0. -/
def chanSt : State := { glb := { st := .run }, img := { classes := [cls1] } }
def hdr1 : CmdHdr := { tag := 65535, irq := true }
def noRead : FlashReads := { sfdp := false, header := false, dir := false, body := false }
def sess1 : Sess := { isOpen := true, w := 1920, h := 1080, n0set := true }
def parsed1 : Config.Parsed := { unit := { type := 1 }, ends := true, framed := true }
/-- The same parse, but of another unit. -/
def parsed0 : Config.Parsed := { parsed1 with unit := { type := 0 } }
/-- What a core has coded of a sheaf: one unit of five bytes. -/
def coded1 : Coded := { a := ({ type := 1 }, [2, 1, 0, 0, 0]) }
def run1 (kind : Nat) : Run :=
  { kind := kind, core := 31, ch := 0, part := 0, fr := 0, sh := 0, own := sess1, skind := .normal, coded := some coded1 }
def pkt1 : MPkt :=
  { pid := 0, ch := 0, sess := 0, seq := 0, ts := 0, marker := false, pt := 96, ssrc := 1, pay := List.replicate 100 0, tid := 0, cycle := false
    join := false, recov := false, cycSeq := 0, fr := 0, sh := 0, first := false, last := false, var := 0, bit := 0 }
def copy1 : Copy :=
  { flight := 0, handle := 0, mp := pkt1, d := {}, dseq := 0, roc := 0, epoch := 0, port := 0, queue := 0, len := 100, elig := 0, tag := 0
    retx := false, hdr := [], outerLen := 0, ftag := 0 }
def case1 (kind : Nat) : GleanCase := { kind := kind, format := 0, width := 0, height := 0, offset := 0, len := 0, sig := 7 }
/-- RUN, with channel 0's session open, and lane 0 bound to core 0. -/
def sessSt : State :=
  { chanSt with
    sess := [(0, sess1)]
    rota := { started := true, lanes := [(0, { bound := some 0 })] } }

/-- RUN, with the link up, every BAR assigned and its memory space enabled. -/
def hostSt : State :=
  { runSt with pcie := { link := true, cfgReady := true, mse := true, assigned := [(0, true), (2, true), (4, true)] } }

/-! ### Witnesses: every hypothesis is met by some state and operands, clause by clause -/

theorem witness_ResetPinFilter : (340 : Nat) ≤ 340 ∧ (300 : Nat) ≤ 300 ∧ (300 : Nat) < 301 ∧ (339 : Nat) < 340 := by decide

theorem witness_DevResetLeaves :
    runSt.sec.burn = none ∧ runSt.flashOp = none ∧ runSt.led.writing = none ∧ ({ glb := { st := .run, restartPend := true } } : State).glb.restartPend = true := by
  decide

theorem witness_LeavingReset :
    State.reset.glb.st = .reset ∧ State.reset.glb.restartHold = false ∧ State.reset.glb.por = false
      ∧ (let s : State := { glb := { por := true, restartHold := true }, pins := { resetN := true, perstN := true } }
         s.glb.st = .reset ∧ s.glb.restartHold = true ∧ s.glb.por = true ∧ s.pins.resetN = true ∧ s.pins.perstN = true) := by
  decide

theorem witness_ClocksAndSensors :
    runSt.glb.st = .run ∧ 1000 < 1001 ∧ runSt.glb.st ≠ .reset ∧ (1000 : Nat) ≤ 1000
      ∧ (let s : State := { runSt with pcie := { link := true }, pins := { perstN := true } }
         s.pcie.link = true ∧ s.pins.perstN = true ∧ s.stopped 8 = false ∧ s.pcie.cfgReady = false)
      ∧ (let s : State := { runSt with pcie := { link := true, cfgReady := true } }
         s.pcie.link = true ∧ s.stopped 8 = false ∧ s.pcie.cfgReady = true) := by
  decide

theorem witness_ClocksAndSensors_sensors :
    (480 : Int) ≤ 480 ∧ runSt.pins.thermtrip = false ∧ ({ pins := { thermtrip := true } } : State).pins.thermtrip = true
      ∧ (340 : Int) ≤ 340 ∧ ({ runSt with cfg := { loaded := true } } : State).cfg.loaded = true ∧ (440 : Int) ≤ 440
      ∧ runSt.glb.st ≠ .reset ∧ State.reset.glb.st = .reset ∧ (339 : Int) < 340 := by
  decide

theorem witness_SmbusReads :
    0x10 ≤ 0x1F ∧ 0x20 ≤ 0x28 ∧ 5 ≤ 0x0F ∧ 0x28 < 0x29
      ∧ ({ therm := { warn := [(15, true)] } } : State).therm.warn.get false 15 = true
      ∧ (∀ i ∈ List.range 16, State.reset.therm.warn.get false i = false ∧ State.reset.therm.crit.get false i = false
        ∧ State.reset.flt.force.get false (0x130 + i) = false ∧ State.reset.flt.force.get false (0x140 + i) = false)
      ∧ ({ flt := { force := [(0x14F, true)] } } : State).flt.force.get false (0x140 + 15) = true := by
  decide

theorem witness_JtagInstructions :
    ({ sec := { sensed := { debugClosed := true } } } : State).sec.sensed.debugClosed = true
      ∧ State.reset.sec.sensed.debugClosed = false ∧ State.reset.glb.st = .reset ∧ runSt.sec.sensed.debugClosed = false
      ∧ runSt.glb.st = .run ∧ runSt.canRise 0x16A = true ∧ (∀ q ∈ State.reset.fab.held, q.master ≠ 0xC5) := by
  decide

set_option exponentiation.threshold 600 in
theorem witness_FuseBurns :
    (let s : State := { glb := { st := .loadfail } }
     s.glb.st ≠ .reset ∧ s.sec.burn = none ∧ s.sec.sensed.ownerSet = false ∧ s.glb.st = .loadfail
       ∧ (s.sec.sensed.owner ||| s.sec.fuses.owner) &&& ~~~s.sec.digest = 0 ∧ 0xA55B ≠ 0xA55A)
      ∧ (let s : State := { glb := { st := .loadfail }, sec := { sensed := { owner := 1 } } }
         s.sec.burn = none ∧ s.sec.sensed.ownerSet = false ∧ (s.sec.sensed.owner ||| s.sec.fuses.owner) &&& ~~~s.sec.digest ≠ 0)
      ∧ (let s : State := { runSt with sec := { burn := some 1 } }
         s.glb.st ≠ .loadfail ∧ s.sec.burn.isSome = true ∧ s.sec.burn = some 1
           ∧ s.sec.fuses.owner ||| ((0 : BitVec 512) &&& s.sec.digest) = s.sec.digest)
      ∧ (let s : State := { runSt with sec := { burn := some 1, stage := [(0, 1)] } }
         (s.sec.fuses.owner ||| ((0 : BitVec 512) &&& s.sec.digest)) &&& s.sec.digest ≠ s.sec.digest)
      ∧ (let s : State := { runSt with sec := { burn := some 1, fuses := { owner := 2 } } }
         s.sec.fuses.owner ||| ((0 : BitVec 512) &&& s.sec.digest) ≠ s.sec.digest
           ∧ (s.sec.fuses.owner ||| ((0 : BitVec 512) &&& s.sec.digest)) &&& s.sec.digest = s.sec.digest)
      ∧ (let s : State := { runSt with sec := { burn := some 2 } }
         s.sec.burn = some 2 ∧ 2 ≤ max s.sec.fuses.debugOnes (min 3 2) ∧ max s.sec.fuses.debugOnes (min 3 1) < 2)
      ∧ runSt.canRise 0x168 = true := by
  decide

theorem witness_SlotChecks :
    loadSt.glb.st = .load ∧ loadSt.cfg.phase = 0 + 1 ∧ loadSt.slotCheck 0 noRead = (resNoFlash, none)
      ∧ ({ loadSt with cfg := { phase := 2 } } : State).cfg.phase = 1 + 1
      ∧ loadSt.slotCheck 0 { noRead with sfdp := true } = (resReadError, none) := by
  decide

theorem witness_TrainToRun :
    trainSt.glb.st = .train ∧ (trainSt.stack 0).st = .training ∧ (trainSt.stack 1).st = .training
      ∧ (let s : State := { trainSt with hbm := { stk := [(0, { st := .service }), (1, { st := .service })] } }
         (s.stack 0).st = .service ∧ (s.stack 1).st = .service ∧ s.cfg.copied = false)
      ∧ ({ trainSt with cfg := { copied := true } } : State).cfg.copied = true := by
  decide

theorem witness_NetworkTime :
    (let s : State := { runSt with ptp := { lock := 1, syncTrans := some 0, master := some 1 }
                                   img := { net := { ptpTrans := 1 } }, egr := { ports := [(0, { up := true })] } }
     s.ptp.lock = 1 ∧ s.canRise 0x163 = true ∧ s.ptp.syncTrans = some 0 ∧ s.ptp.master.isSome = true ∧ s.canSend s.img.net.ptpPort = true
       ∧ s.glb.st = .run ∧ bitOf s.img.net.ptpTrans 0 = true)
      ∧ (let s : State := { runSt with ptp := { lock := 2 } }
         s.ptp.lock ≠ 1 ∧ s.ptp.lock = 2 ∧ s.ptp.holdoverS ≠ 0 ∧ s.canRise 0x164 = true)
      ∧ ({ ptp := { holdoverS := 0 } } : State).ptp.holdoverS = 0
      ∧ (let s : State := { time := { running := true, ptp := 2000 * 499999999 } }
         (100 : Nat) ≤ 100 ∧ s.time.running = true ∧ s.ptpNsec < 500000000)
      ∧ (let s : State := { time := { running := true, ptp := 2000 * 500000000 } }
         s.time.running = true ∧ 500000000 ≤ s.ptpNsec ∧ 99 < 100)
      ∧ hostSt.hostBar 0 = true := by
  decide

theorem witness_ClockSteps :
    (let s : State := { runSt with ptp := { stepPend := some (-8000) } }
     s.ptp.stepPend = some (-8000) ∧ s.canRise 0x165 = true ∧ s.rota.started = false ∧ ∀ l, (s.lane l).run = none) :=
  ⟨rfl, rfl, rfl, fun _ => rfl⟩

/-- RUN entries of lane 0: its own sheaf, a catch-up and a gleaning run. -/
def rotaSt : State :=
  { sessSt with
    img := { classes := [cls1], glean := [case1 0]
             encRota := [(0, [{ kind := 0, start := 0, part := 0, len := 1, ch := 0, sheaf := 0, frame := 0, lead := 0 },
                              { kind := 1, start := 0, part := 0, len := 1, ch := 0, sheaf := 0, frame := 0, lead := 0 },
                              { kind := 2, start := 0, part := 0, len := 1, ch := 0, sheaf := 0, frame := 0, lead := 0 }])] } }

theorem witness_RunsStart :
    (let s : State := { runSt with rota := { startNoLock := true } }
     s.rota.started = false ∧ s.glb.st = .run ∧ s.rota.startNoLock = true)
      ∧ trainSt.glb.st ≠ .run ∧ runSt.ptp.wasLocked = false ∧ runSt.rota.startNoLock = false
      ∧ (rotaSt.rota.started = true ∧ rotaSt.glb.st = .run ∧ (rotaSt.lane 0).run = none ∧ rotaSt.laneCore 0 = some 0
        ∧ (rotaSt.laneEnt 0 0).map (·.kind) = some 0 ∧ (rotaSt.laneEnt 0 1).map (·.kind) = some 1
        ∧ (rotaSt.laneEnt 0 2).map (·.kind) = some 2 ∧ rotaSt.cls 0 = some cls1 ∧ rotaSt.rota.notBefore ≤ rotaSt.nowSlot * slotTime
        ∧ (rotaSt.part 0 0).issued = none ∧ rotaSt.ownSheaf cls1 0 { fr := 0, sh := 0 } = true ∧ (rotaSt.part 0 0).pend = []
        ∧ rotaSt.earlierPassed cls1 0 { fr := 0, sh := 0 } = true ∧ rotaSt.catchupPick 0 1 = none
        ∧ ((rotaSt.markIssued cls1 0 0 { fr := 0, sh := 0 }).planRun cls1 0 0 0 0 { fr := 0, sh := 0 }).dec.ref1 = 0
        ∧ (12500 * 0 + 0) * slotTime ≤ rotaSt.time.ptp ∧ rotaSt.rota.notBefore ≤ (12500 * 0 + 0) * slotTime)
      ∧ (let s : State := { rotaSt with rota := { rotaSt.rota with parts := [(0, { pend := [{ fr := 0, sh := 0 }] })] } }
         s.catchupPick 0 1 = some (cls1, 0, 0, { fr := 0, sh := 0 })) := by
  decide

/-- The fetch of a run that refers to the root alone violates nothing. -/
theorem witness_RunsStart_fetch (s : State) (c : Machine.Class) (r : Run) (h : r.dec.ref1 = 0) (n : Nat) :
    s.fetchVerdict c r ≠ .violation n := by
  unfold State.fetchVerdict
  split <;> simp [h]

theorem witness_RunsFail :
    (let s (late : List ShId) : State :=
       { sessSt with rota := { lanes := [(27, { run := some (run1 0) })], parts := [(0, { pend := [{ fr := 1, sh := 2 }], late := late })] } }
     ((s []).lane 27).run = some (run1 0) ∧ (run1 0).kind ≠ 2 ∧ (s []).runSess (run1 0) = true ∧ (s []).givenUp 0 0 = false
       ∧ (run1 0).fails [parsed0] = true ∧ (run1 0).fails [parsed1] = false ∧ (8 : Int) % 7 ≠ 0 ∧ (8 : Int) % 7 = 1
       ∧ ((s []).part 0 0).pend.contains { fr := 1, sh := 2 } = true ∧ ((s []).part 0 0).late.contains { fr := 1, sh := 2 } = false
       ∧ ((s [{ fr := 1, sh := 2 }]).part 0 0).late.contains { fr := 1, sh := 2 } = true)
      ∧ (let s : State := { runSt with rota := { lanes := [(0, { run := some (run1 2) })] }, img := { glean := [case1 0] } }
         (s.lane 0).run = some (run1 2) ∧ (run1 2).kind = 2 ∧ s.img.glean[(run1 2).gcase]? = some (case1 0)
           ∧ Tbl.wf {} s.enc = true ∧ s.canRise (srcOverrun 31) = true ∧ s.canRise (srcGlean 31) = true) := by
  decide

/-- Every signature is that of a case as some core codes it. -/
theorem witness_RunsFail_signature (g : GleanCase) (sig : BitVec 64) : ∃ err, caseSig g ^^^ err = sig :=
  ⟨caseSig g ^^^ sig, by rw [← BitVec.xor_assoc, BitVec.xor_self, BitVec.zero_xor]⟩

theorem witness_SheafPasses :
    (let s : State := { sessSt with rota := { lanes := [(0, { run := some (run1 0) })] } }
     (s.lane 0).run = some (run1 0) ∧ (run1 0).kind ≠ 2 ∧ s.cls 0 = some cls1 ∧ cls1.base.lanes ≠ 2 ∧ s.ownRun (run1 0) = true
       ∧ (run1 0).coded = some coded1 ∧ coded1.passes [parsed1] = true ∧ coded1.passes [parsed0] = false
       ∧ s.frameGone cls1 0 0 = false ∧ (run1 0).sh + 1 ≠ sheavesOf (run1 0).own.h) := by
  decide

def open1 : OpenArgs :=
  { channel := 0, width := 1920, height := 1080, pt := 96, ipv6 := false, srcAddr := 0x0A000001, srcPort := 5004, ssrc := 1, seed := 2
    rsvOk := true }

theorem witness_DebtSaturates :
    (let s : State := { sessSt with rota := { lanes := [(0, { run := some (run1 0) })] } }
     (s.lane 0).run = some (run1 0) ∧ (run1 0).kind ≠ 2 ∧ s.cls 0 = some cls1 ∧ s.ownRun (run1 0) = true
       ∧ (run1 0).coded = some coded1 ∧ coded1.passes [parsed1] = true ∧ s.frameGone cls1 0 0 = false)
      ∧ (let r : Run := { run1 0 with sh := 16, led := { left := 39, debt := 2 ^ 32 - 1 } }
         r.sh + 1 = sheavesOf sess1.h ∧ r.led.left - coded1.bits < 0 ∧ r.led.debt + (r.led.left - coded1.bits).natAbs = 2 ^ 32)
      ∧ chanSt.serving (.sessionOpen hdr1 open1) false hdr1 = true ∧ chanSt.openRefused false open1 = none
          ∧ chanSt.cls open1.channel = some cls1
      ∧ cls1.base.pathVft = false := by
  decide

/-- Decode lane 0 on core 0, with a RUN and a GLEAN entry of context 0, which is open and has one access unit. -/
def decSt : State :=
  { runSt with
    img := { decRota := [(0, [{ start := 0, kind := 0, dcx := 0, len := 1 }, { start := 0, kind := 2, dcx := 0, len := 1 }])]
             glean := [case1 1]
             dec := [{ maxW := 1920, maxH := 1088, rate := 2, codecs := 1, outFrames := 2, inMib := 1 }] }
    rota := { started := true, dlanes := [(0, { bound := some 0 })] }
    dcx := [(0, { isOpen := true, units := [{ len := 10, loss := false, ts := 0 }] })] }

/-- A picture in decoding, in buffer 0. -/
def cur1 : CurPic := { buf := 0, pic := {}, hdr := [], set := { w := 64, h := 64 }, flags := 0, refs := [] }
/-- The same with that picture begun. -/
def decCurSt : State :=
  { decSt with dcx := [(0, { isOpen := true, units := [{ len := 10, loss := false, ts := 0 }], cur := some cur1 })] }

theorem witness_DecodeRuns :
    (decSt.dlaneEnt 0 0).map (·.kind) = some 0 ∧ (decSt.dlaneEnt 0 1).map (·.kind) = some 2 ∧ (decSt.dlaneEnt 0 0).map (·.len) = some 1
      ∧ decSt.rota.started = true ∧ decSt.glb.st = .run ∧ decSt.rota.notBefore ≤ decSt.nowSlot * slotTime
      ∧ (decSt.dlane 0).run = none ∧ decSt.dlaneCore 0 = some 0 ∧ (decSt.dcxOf 0).isOpen = true ∧ (decSt.dcxOf 0).units ≠ []
      ∧ (decCurSt.dcxOf 0).cur.isSome = true ∧ (decCurSt.dcxOf 0).units ≠ [] ∧ decCurSt.dlaneCore 0 = some 0
      ∧ decCurSt.starves 0 2 = false ∧ decCurSt.hostFull 0 = false ∧ Tbl.wf {} decSt.dec = true
      ∧ ({ decSt with dcx := [(0, { isOpen := true, outHost := true, pool := [(0, { host := true }), (1, { host := true })] })] } : State).hostFull 0 = true
      ∧ ({ decSt with dcx := [] } : State).dcxOf 0 = {} ∧ decSt.canRise (srcDecGlean 0) = true
      ∧ (let s : State := { runSt with rota := { dlanes := [(7, { bound := some 8, run := some 63, left := 0 })] } }
         (s.dlane 7).left = 0 ∧ (s.dcxOf 63).units = [])
      ∧ (let s : State := { runSt with rota := { dlanes := [(7, { bound := some 8, run := some 63 })] } }
         (s.dlane 7).run = some 63 ∧ (s.dlane 7).bound = some 8) := by
  decide

/-- A begun picture has its buffer, whatever the ring's size; and where what the decoder reads begins a picture that finds no free
buffer, the context starves. -/
theorem witness_DecodeRuns_starves (s : State) (x n : Nat) :
    ((s.dcxOf x).cur.isSome = true → s.starves x (n + 1) = false)
      ∧ ((s.dcxOf x).cur = none → (s.dcxOf x).units ≠ [] → s.decodeOne x = none → s.starves x (n + 1) = true) := by
  refine ⟨fun h => ?_, fun h u d => ?_⟩
  · simp [State.starves, h]
  · simp [State.starves, h, u, d]

/-- A case's signature matches and fails to match, as the core's errors have it. -/
theorem witness_DecodeRuns_case (s : State) (n : Nat) (g : GleanCase) (h : s.img.glean[n]? = some g) :
    (∃ err, s.caseMatches n (s.decCaseSig n ^^^ err) = true) ∧ ∃ err, s.caseMatches n (s.decCaseSig n ^^^ err) = false := by
  refine ⟨⟨s.decCaseSig n ^^^ g.sig, ?_⟩, ⟨s.decCaseSig n ^^^ (g.sig ^^^ 1), ?_⟩⟩
  · rw [← BitVec.xor_assoc, BitVec.xor_self, BitVec.zero_xor]
    simp [State.caseMatches, h]
  · rw [← BitVec.xor_assoc, BitVec.xor_self, BitVec.zero_xor]
    simp only [State.caseMatches, h, beq_eq_false_iff_ne]
    intro e
    have e : g.sig ^^^ g.sig = g.sig ^^^ (g.sig ^^^ 1) := congrArg (g.sig ^^^ ·) e
    rw [← BitVec.xor_assoc, BitVec.xor_self, BitVec.zero_xor] at e
    exact absurd e (by decide)

theorem witness_LowestFreeBuffer :
    freeBuf [(0, ({ cur := true } : Marks))] 2 = some 1 ∧ freeBuf [(0, ({ cur := true } : Marks))] 1 = none := by
  decide

theorem witness_DecodeInput :
    (decSt.glb.st ≠ .reset ∧ (decSt.dcxOf 0).isOpen = true ∧ (decSt.dcxOf 0).rtp = none ∧ decSt.ringFree 0 ≤ decSt.ringFree 0
      ∧ decSt.ringFree 0 < decSt.ringFree 0 + 1 ∧ (decSt.dcxOf 1).isOpen = false)
      ∧ (let s : State := { decCurSt with rota := { dlanes := [(0, { run := some 0 })] } }
         (s.dlane 0).run = some 0 ∧ (s.dcxOf 0).cur.isSome = true)
      ∧ (let s : State := { decSt with rota := { dlanes := [(0, { run := some 0 })] } }
         (s.dlane 0).run = some 0 ∧ (s.dcxOf 0).cur = none)
      ∧ (let r : RtpIn := { next := some 65535, buf := [{ seq := 1, ts := 0, marker := false, pay := [1] }] }
         let s : State := { decSt with dcx := [(0, { isOpen := true, rtp := some r })] }
         (s.dcxOf 0).rtp = some r ∧ (s.dcxOf 0).rtp.isSome = true ∧ r.next = some 65535 ∧ r.buf ≠ []) := by
  decide

/-- Row 0 of plane 0 of frame 0 of channel 0, 64 × 64, with the header of R159; and the same with another version. -/
def vft1 : VftPkt :=
  { ch := 0
    bytes := [0x10, 0, 0, 96, 0, 0, 0, 0, 0, 0, 0, 0, 1, 0, 0, 64, 0, 64] ++ List.replicate 14 0 ++ List.replicate 64 0 }
def vft2 : VftPkt := { vft1 with bytes := [] }

/-- RUN, with frame 0 of channel 0 open over both paths, its aperture at 0, and the host at BAR4. -/
def ingSt : State :=
  { hostSt with
    img := { classes := [{ cls1 with base := { cls1.base with pathVft := true } }] }
    sess := [(0, { isOpen := true, w := 64, h := 64 })]
    fab := { lock := true }
    ing := { ch := [(0, { isOpen := true })], apt := [(0, some (0, 1))] } }

theorem witness_IngressFifos :
    (let s : State := { ingSt with ing := { ingSt.ing with q0 := [vft1], q1 := [vft2], q2 := [.tlp 0 (leBytes 8 0)] } }
     s.ingRuns = true ∧ s.ing.q0 = vft1 :: [] ∧ s.ing.q1 = vft2 :: [] ∧ s.vftReason vft1 = none ∧ s.vftReason vft2 = some 0
       ∧ s.ing.q2 = .tlp 0 (leBytes 8 0) :: [] ∧ 0 % 8 = 0 ∧ (leBytes 8 0).length = 8 ∧ s.aptReason 0 0 8 = none)
      ∧ ({ ingSt with sess := [] } : State).aptReason 0 0 8 = some 1
      ∧ (let s : State := { ingSt with ing := { ingSt.ing with q2 := [.db 0x8000] } }
         s.ing.q2 = .db 0x8000 :: [] ∧ s.dbReason (0x8000 : Word).toNat = none ∧ s.dbReason (0 : Word).toNat = some 0xA)
      ∧ (let s : State := { ingSt with fab := { lock := true, frozen := [(0xC4, true)] } }
         s.ingRuns = true ∧ s.hostBar 4 = true ∧ s.isFrozen 0xC4 = true)
      ∧ (let s : State := { ingSt with fab := {} }
         s.hostBar 4 = true ∧ s.fab.lock = false)
      ∧ (ingSt.ingRuns = true ∧ ingSt.hostBar 4 = true ∧ 0x3FFFFFFF8 + (leBytes 8 0).length ≤ 0x400000000
        ∧ ingSt.isFrozen 0xC4 = false ∧ ingSt.fab.lock = true
        ∧ ingSt.fifoFill 2 + fifoWords (leBytes 8 0).length ≤ 16384 ∧ ingSt.fifoItems 2 + 1 ≤ 255) := by
  decide +kernel

/-- FIFO 2 with 255 items takes a 256th, and with its 16,384 words full takes none. -/
theorem witness_IngressFifos_full :
    (let q (n : Nat) : State := { ingSt with ing := { ingSt.ing with q2 := List.replicate n (.tlp 0 [0]) } }
     255 < (q 256).fifoItems 2 ∧ (q 255).fifoFill 2 + fifoWords 1 ≤ 16384) := by
  decide +kernel

theorem witness_DueTimes :
    (let s : State := { rotaSt with ing := { ch := [(0, { isOpen := true, fr := 0, next := 1, slots := [(0, { fr1 := 1 })] })] } }
     s.cls 0 = some cls1 ∧ s.rota.started = true ∧ s.glb.st = .run ∧ s.stopped 6 = false ∧ s.dueSlot 0 0 0 = some 0 ∧ (s.sessOf 0).isOpen = true
       ∧ (s.sessOf 0).n0set = true ∧ (s.sessOf 0).n0 ≤ 0 ∧ (s.ingOf 0).isOpen = true ∧ (s.ingOf 0).fr = 0 ∧ (s.ingOf 0).next = 0 + 1
       ∧ (s.ingOf 0).closed.get false 0 = false ∧ 0 + 1 < sheavesOf (s.sessOf 0).h
       ∧ ((s.ingOf 0).slots.get {} (slotOf cls1 0)).fr1 = 0 + 1)
      ∧ (let s : State := { rotaSt with ing := { ch := [(0, { closed := [(0, true)], slots := [(0, { fr1 := 1 })] })] } }
         (s.lane 0).run = none ∧ ((s.ingOf 0).slots.get {} (slotOf cls1 0)).fr1 = 0 + 1 ∧ (s.ingOf 0).closed.get false 0 = true
           ∧ 0 < sheavesOf (s.sessOf 0).h)
      ∧ (let s : State := { runSt with egr := { ports := [(1, { up := true })] }, ing := { asserted := [(1, true)] } }
         s.canSend 1 = true ∧ s.glb.st = .run ∧ s.ing.asserted.get false 1 = true)
      ∧ (let s : State := { safeSt with egr := { ports := [(1, { up := true })] } }
         s.canSend 1 = true ∧ s.glb.st = .safe) := by
  decide

/-- RUN, with both ports up and a program of one instruction. -/
def parseSt (w : BitVec 64) : State :=
  { runSt with egr := { ports := [(0, { up := true }), (1, { up := true })] }, img := { parser := { code := [w] } } }

/-- DONE with class 0, in the fields of R287: OP in bits 63 to 58. -/
def done0 : BitVec 64 := BitVec.ofNat 64 (10 * 2 ^ 58)

theorem witness_FramesAndFields :
    (parseSt done0).canSend 1 = true ∧ (parseSt done0).pktRuns = true ∧ 9212 < 9213 ∧ (9212 : Nat) ≤ 9212
      ∧ (let s : State := { parseSt done0 with pkt := { rx := [(1, [(5, [1])])] } }
         s.canSend 1 = true ∧ s.pktRuns = true ∧ s.pkt.rx.get [] 1 = [(5, [1])] ∧ s.freePe = some 0
           ∧ s.img.parser.code[s.img.parser.entry1]? = some done0 ∧ (PeIns.ofWord done0).op = 0x0A ∧ 1 ≤ (PeIns.ofWord done0).op) := by
  decide

/-- The machine with engine 63 about to execute `w` on a frame of `n` bytes. -/
def peSt (w : BitVec 64) (n : Nat) (c : PeCtx) : State :=
  { parseSt w with pkt := { pes := [(63, { c with busy := true, frame := List.replicate n 0, fin := n })] } }

/-- An instruction word from its fields (R287). -/
def insn (op a b f off n imm tgt : Nat) : BitVec 64 :=
  BitVec.ofNat 64 (op * 2 ^ 58 + a * 2 ^ 55 + b * 2 ^ 52 + f * 2 ^ 48 + off * 2 ^ 40 + n * 2 ^ 32 + imm * 2 ^ 16 + tgt * 2 ^ 6)

theorem witness_FramesAndFields_data :
    (let s := peSt (insn 1 7 0 0 0 2 0xFFFF 0) 2 { steps := 95 }
     s.pktRuns = true ∧ (s.pe 63).busy = true ∧ (s.pe 63).lookup = none ∧ (s.pe 63).steps < 96
       ∧ s.img.parser.code[(s.pe 63).pc]? = some (insn 1 7 0 0 0 2 0xFFFF 0))
      ∧ (let i := PeIns.ofWord (insn 1 7 0 0 0 2 0xFFFF 0)
         i.op = 1 ∧ i.n = 2 ∧ 0 + i.off + i.n ≤ 256 ∧ 0 + i.off + i.n ≤ 2 ∧ ¬ 0 + i.off + i.n ≤ 1)
      ∧ (PeIns.ofWord (insn 1 0 0 0 0 3 0 0)).n = 3
      ∧ (let i := PeIns.ofWord (insn 2 0 0 0 0 48 0 0)
         i.op = 2 ∧ 1 ≤ i.n ∧ i.n ≤ 48 ∧ i.imm % 64 + i.n ≤ 48)
      ∧ (PeIns.ofWord (insn 2 0 0 0 0 48 1 0)).imm % 64 + 48 = 49 ∧ (PeIns.ofWord (insn 2 0 0 0 0 49 0 0)).n = 49
      ∧ ((PeIns.ofWord (insn 3 0 0 0 46 0 0 0)).op = 3 ∧ (PeIns.ofWord (insn 3 0 0 0 46 0 0 0)).off = 46
        ∧ (PeIns.ofWord (insn 3 0 0 0 47 0 0 0)).off = 47)
      ∧ (PeIns.ofWord (insn 4 0 0 0 0 0 0 0)).f = 0 ∧ (PeIns.ofWord (insn 4 0 0 1 0 0 0 0)).f = 1
      ∧ (PeIns.ofWord (insn 4 0 0 2 0 0 0 0)).f = 2 ∧ (PeIns.ofWord (insn 4 0 0 3 0 0 0 0)).f = 3
      ∧ (PeIns.ofWord (insn 4 0 0 4 0 0 0 0)).f = 4 ∧ (PeIns.ofWord (insn 4 0 0 5 0 0 0 0)).f = 5
      ∧ (PeIns.ofWord (insn 4 0 0 6 0 0 0 0)).f = 6 ∧ (PeIns.ofWord (insn 4 0 0 7 0 0 0 0)).f = 7
      ∧ (PeIns.ofWord (insn 4 0 0 7 0 0 0 0)).op = 4 := by
  decide

theorem witness_ParseDecides :
    (let w := insn 5 0 0 0 0 0 0 0
     let s := peSt w 2 { steps := 95 }
     s.pktRuns = true ∧ (s.pe 63).busy = true ∧ (s.pe 63).lookup = none ∧ (s.pe 63).steps < 96
       ∧ s.img.parser.code[(s.pe 63).pc]? = some w ∧ (PeIns.ofWord w).op = 5 ∧ (PeIns.ofWord w).tgt < s.img.parser.code.length)
      ∧ (∀ f ∈ List.range 16, (PeIns.ofWord (insn 5 0 0 f 0 0 0 0)).f = f) ∧ 1 ≤ (PeIns.ofWord (insn 5 0 0 0 0 0 0 1)).tgt
      ∧ (let i := PeIns.ofWord (insn 6 0 0 0 0 10 256 0)
         (PeIns.ofWord (insn 6 0 0 4 0 11 0 0)).n = 11 ∧ bitOf (PeIns.ofWord (insn 6 0 0 4 0 11 0 0)).f 2 = true
           ∧ i.op = 6 ∧ 1 ≤ i.n ∧ i.n ≤ 0x0A ∧ bitOf i.f 2 = false ∧ 0 + i.imm ≤ 256 ∧ 256 < 1 + i.imm ∧ 12 ≤ (List.replicate 12 0).length)
      ∧ (let i := PeIns.ofWord (insn 7 0 0 0 2 0 0 0)
         i.op = 7 ∧ 0 + i.off = 2 ∧ 0 + i.off < 3 ∧ 1 < 0 + i.off ∧ ((peSt (insn 7 0 0 0 2 0 0 0) 60 {}).pe 63).frame.length = 60
           ∧ ((peSt (insn 7 0 0 0 2 0 0 0) 61 {}).pe 63).frame.length ≠ 60)
      ∧ (let i := PeIns.ofWord (insn 8 0 0 0 0 48 7 0)
         i.op = 8 ∧ 1 ≤ i.n ∧ i.n ≤ 48 ∧ i.tgt < 1 ∧ 48 < (PeIns.ofWord (insn 8 0 0 0 0 49 7 0)).n
           ∧ 1 ≤ (PeIns.ofWord (insn 8 0 0 0 0 48 7 1)).tgt)
      ∧ ((PeIns.ofWord (insn 9 0 0 4 0 0 0 0)).f < 5 ∧ 5 < (PeIns.ofWord (insn 10 0 0 6 0 0 0 0)).f)
      ∧ ((PeIns.ofWord (insn 9 0 0 5 0 0 0 0)).op = 9 ∧ 5 ≤ (PeIns.ofWord (insn 9 0 0 5 0 0 0 0)).f)
      ∧ ((PeIns.ofWord (insn 10 0 0 5 0 0 0 0)).op = 10 ∧ (PeIns.ofWord (insn 10 0 0 5 0 0 0 0)).f ≤ 5)
      ∧ 96 ≤ ((peSt done0 2 { steps := 96 }).pe 63).steps := by
  decide

/-- A state whose engine 63 awaits a lookup of one byte in table 0, which holds that key in its stash where `full`. -/
def lookSt (full : Bool) : State :=
  { peSt done0 2 { lookup := some (0, 1, 0) } with
    img := { parser := { code := [done0] }, em := [{ role := 2, keyLen := 1, cap := 4 }] }
    pkt := { pes := [(63, { busy := true, frame := [0, 0], fin := 2, lookup := some (0, 1, 0) })]
             em := if full then [(655360, some { tbl := 0, key := [0], sig := emHash 0 0 [0] / 65536, body := .aud 0 })] else [] } }

set_option maxRecDepth 4000 in
theorem witness_ParseDecides_lookup :
    ((lookSt true).pe 63).lookup = some (0, 1, 0) ∧ (lookSt true).emLookup 0 (((lookSt true).pe 63).kb.getList 0 0 1) = some (.aud 0)
      ∧ (lookSt false).emLookup 0 (((lookSt false).pe 63).kb.getList 0 0 1) = none := by
  decide

/-- A signalled packet of channel 0, whose chain holds body 5, which is active. -/
def repSt : State :=
  { runSt with
    rep := { sigQ := [pkt1], chain := [(0, [5])], bodies := [(5, { st := .active, sh := { burst := 1, dropAt := 1, credit := 65536 } })] } }
def paused1 : Paused := { mp := pkt1, flight := 0, seen := [] }

theorem witness_PassOne :
    (repSt.repRuns = true ∧ repSt.rep.sigQ.find? (fun p => p.ch == 0) = some pkt1 ∧ pkt1.sess = (repSt.sessOf 0).id
      ∧ repSt.rep.paused = none ∧ repSt.chain 0 = [5] ∧ repSt.bodyBad 5 = false ∧ repSt.rep.recirc.length < 16384
      ∧ (repSt.body 5).st = .active ∧ (repSt.body 5).dropPic = false ∧ pkt1.join = false ∧ pkt1.first = false ∧ pkt1.tid = 0
      ∧ pkt1.var = 0 ∧ ((repSt.body 5).sh.update repSt.egrTime).wait ≤ 8191
      ∧ ((repSt.body 5).sh.update repSt.egrTime).tooDeep ((repSt.ruleSet repSt.rep.epoch).copyLen (repSt.body 5).d pkt1.len) = false)
      ∧ ({ repSt with rep := { sigQ := [pkt1] } } : State).chain 0 = []
      ∧ (let s : State := { repSt with rep := { repSt.rep with paused := some paused1 } }
         s.rep.paused.isSome = true ∧ s.rep.paused = some paused1 ∧ s.rep.recirc.length < 16384
           ∧ paused1.mp.sess = (s.sessOf paused1.mp.ch).id) := by
  decide

theorem witness_PassOne_full :
    16384 ≤ ({ repSt with rep := { repSt.rep with paused := some paused1, recirc := List.replicate 16384 copy1 } } : State).rep.recirc.length :=
  Nat.le_of_eq List.length_replicate.symm

/-- RUN, with one built copy and room for one copy in its queue. -/
def buildSt : State :=
  { runSt with
    rep := { recirc := [{ copy1 with len := 120 }] }
    img := { gates := [{ mode := 0, cycleNs := 1000, phaseNs := 0, queues := [{ cls := 0, weight := 1, depth := 1 }]
                         ents := [{ gates := 1, interval := 400 }, { gates := 2, interval := 600 }] }] } }

theorem witness_CopiesBuilt :
    (buildSt.rep.recirc = { copy1 with len := 120 } :: [] ∧ buildSt.pktRuns = true
      ∧ rewriteOk { copy1 with hdr := buildSt.copyHdr { copy1 with len := 120 } } false = false
      ∧ rewriteOk { { copy1 with len := (buildSt.copyHdr copy1).length + 120 } with hdr := buildSt.copyHdr copy1 } true = true
      ∧ (buildSt.islOf (4 + 0)).st ≠ .off ∧ buildSt.bodyBad 0 = false ∧ buildSt.storeUsed 0 < 65536
      ∧ buildSt.queueDepth 0 0 < (buildSt.queueCfg 0 0).depth ∧ copy1.retx = false)
      ∧ (let s : State := { buildSt with egr := { queues := [(0, [copy1])] } }
         ({ s with hbm := { poison := [(0, true)] } } : State).bodyBad 0 = true ∧ s.storeUsed 0 < 65536 ∧ (s.queueCfg 0 0).depth ≤ s.queueDepth 0 0) := by
  decide

/-- Copies in the calendar count as used. -/
theorem storeUsed_cal (n : Nat) : n ≤ ({ buildSt with egr := { cal := [(0, List.replicate n copy1)] } } : State).storeUsed 0 := by
  simp [State.storeUsed, Tbl.get]

theorem witness_CopiesBuilt_full :
    65536 ≤ ({ buildSt with egr := { cal := [(0, List.replicate 65536 copy1)] } } : State).storeUsed 0 := storeUsed_cal 65536

/-- Slot 0 of the key store holds a key, and its entry reads as the key engine sealed it. -/
def keySec : Sec := { ksLen := 64, keys := [(0, [1])], entries := [(0, List.replicate 64 0)] }

def em1 : EmEnt := { tbl := 0, key := [0], sig := 0, body := .aud 0 }

theorem witness_IndexAndRtcp :
    (let s : State := { rep := { bodies := [(5, { waits := some [1] })], flights := [(1, { live := true })] } }
     (s.body 5).waits = some [1] ∧ ∃ f ∈ [1], (s.flight f).live = true)
      ∧ (let s : State := { rep := { bodies := [(5, { waits := some [1] })] } }
         (s.body 5).waits = some [1] ∧ (∀ f ∈ [1], (s.flight f).live = false) ∧ s.foundBody 5 = false ∧ ({ s with glb := { st := .run } } : State).stewardFree = true
           ∧ ({ s with isl := [(1, { st := .hold })] } : State).stewardFree = false)
      ∧ (let s : State := { pkt := { rtcpQ := [5] }, rep := { bodies := [(5, { waits := some [1] })] } }
         (s.body 5).waits = some [1] ∧ s.foundBody 5 = true)
      ∧ (let s : State := { pkt := { em := [(655423, some em1)] } }
         s.pkt.em.get none (655360 + 63) = some em1 ∧ s.stewardFree = true ∧ s.stopped 6 = false
           ∧ (EmIdx.firstFree s.pkt.em (bucketSlots (s.emBucket1 0 [0]) ++ bucketSlots (s.emBucket2 0 [0]))).isSome = true)
      ∧ (let b (player : Bool) : Body := { st := .held, d := { player := player } }
         let s : State := { runSt with pkt := { rtcpQ := [5] }, rep := { chain := [(0, [5])], bodies := [(5, b true)] }
                                       sec := keySec, hbm := { stk := [(0, { st := .service })], map := [(0, some 0)] } }
         s.repRuns = true ∧ s.pkt.rtcpQ = 5 :: [] ∧ s.stopped 7 = false ∧ s.keyWaits 0 = false ∧ s.named 5 = true ∧ s.bodyBad 5 = false
           ∧ s.keyAt (s.body 5).d.keySlot ≠ [] ∧ (s.body 5).d.player = true ∧ (b false).d.player = false
           ∧ (s.body 5).resolve (0 % 65536) = none)
      ∧ ({ runSt with pkt := { rtcpQ := [5] } } : State).keyAt 0 = [] := by
  decide +kernel

theorem witness_IndexAndRtcp_full :
    (let t : Tbl (Option EmEnt) :=
       (List.range 4).map fun i => (4 * ({} : State).emBucket1 0 [0] + i, some em1)
     EmIdx.firstFree t (bucketSlots (({} : State).emBucket1 0 [0]) ++ bucketSlots (({} : State).emBucket2 0 [0])) = none) := by
  decide +kernel

theorem witness_QueuesAndGates :
    (buildSt.stopped (4 + 1) = false ∧ buildSt.glb.st = .run ∧ (∀ x ∈ buildSt.egr.cal.get [] 0, aheadOf buildSt.egrTime x.elig ≠ 0)
      ∧ 1 < (buildSt.gateImg 0).ents.length ∧ (buildSt.gateImg 0).cycleNs ≠ 0 ∧ gateAt (buildSt.gateImg 0) buildSt.ptpNs ≠ 1
      ∧ buildSt.canStart 0 = false)
      ∧ (let s : State := { buildSt with egr := { cal := [(0, [copy1])] } }
         s.egr.cal.get [] 0 = [copy1] ∧ aheadOf s.egrTime copy1.elig = 0)
      ∧ (let s : State := { buildSt with glb := { st := .run, tables := true }, egr := { ports := [(0, { up := true })], srtp := [(0, some 0)], queues := [(0, [copy1])] } }
         s.canStart 0 = true ∧ (s.gatesNow.judgeAll false 0).2.chooseQueue 0 (s.gatesNow.judgeAll false 0).1 = some 0
           ∧ (s.gatesNow.judgeAll false 0).2.queue 0 0 = copy1 :: [])
      ∧ (let s : State := { buildSt with glb := { st := .run, tables := true }, egr := { ports := [(0, { up := true })], srtp := [(0, some 0)] } }
         s.canStart 0 = true ∧ (s.gatesNow.judgeAll false 0).2.chooseQueue 0 (s.gatesNow.judgeAll false 0).1 = none) := by
  decide

def sealObs (agree sealed : Bool) : SealObs := { agree := agree, sealed := sealed, seen := none }
/-- A copy that carries the tag of its own inputs. -/
def copy2 : Copy := { copy1 with tag := itag 0 (tagSeen copy1 1 (sealObs true true)) }

theorem witness_SealAndSend :
    (let s : State := { runSt with egr := { ports := [(1, { up := true })], srtp := [(2, some 2)], sealing := [(1, [copy2])] }
                                   sec := keySec, hbm := { stk := [(0, { st := .service })], map := [(0, some 0)] } }
     s.canStart 1 = true ∧ s.egr.sealing.get [] 1 = copy2 :: [] ∧ s.keyWaits copy2.d.keySlot = false ∧ s.keyAt copy2.d.keySlot ≠ []
       ∧ itag s.egr.itSeed (tagSeen copy2 1 (sealObs true true)) = copy2.tag ∧ (sealObs false true).agree = false
       ∧ (sealObs true false).agree = true ∧ (sealObs true false).sealed = false
       ∧ s.canRise (0x114 + s.physPair (s.takeTurn 1).1) = true ∧ s.canRise 0x172 = true)
      ∧ (let s : State := { runSt with egr := { ports := [(1, { up := true })], srtp := [(2, some 2)], sealing := [(1, [copy2])] } }
         s.canStart 1 = true ∧ s.keyWaits copy2.d.keySlot = false ∧ s.keyAt copy2.d.keySlot = []) := by
  decide +kernel

def swap1 (flipped : Option Nat) (answered : Bool) : Swap :=
  { tag := 1, irq := false, idx := 1, flipped := flipped, answered := answered }

theorem witness_RulesetSwaps :
    (let s : State := { runSt with img := { rules := [{}, {}] } }
     s.serving (.rulesetSwap hdr1 1) false hdr1 = true ∧ s.img.rules.length ≤ 2 ∧ 0 < s.img.rules.length ∧ 0 = s.rep.active
         ∧ 1 < s.img.rules.length
       ∧ 1 ≠ s.rep.active ∧ s.rep.swap = none)
      ∧ (let s : State := { runSt with img := { rules := [{}, {}] }, rep := { swap := some (swap1 none false) } }
         s.serving (.rulesetSwap hdr1 1) false hdr1 = true ∧ s.rep.swap.isSome = true ∧ s.rep.swap = some (swap1 none false)
             ∧ s.stopped 6 = false
           ∧ (swap1 none false).flipped = none)
      ∧ (let s : State := { runSt with rep := { swap := some (swap1 (some 15) false), flights := [(0, { live := true, epoch := 15 })] } }
         (swap1 (some 15) false).flipped = some 15 ∧ s.inFlight 15 ≠ 0 ∧ s.inFlight 14 = 0
           ∧ (swap1 (some 15) false).answered = false ∧ (swap1 (some 14) true).answered = true) := by
  decide

/-- RUN, stack 0 in service with pseudo-channel 0 at position 0. -/
def granSt : State := { runSt with hbm := { stk := [(0, { st := .service })], map := [(0, some 0)] } }

theorem witness_GranaryAccesses :
    (granSt.hbm.stalled = [] ∧ granSt.hbm.rq = [] ∧ granSt.hbm.wq = [] ∧ granSt.hbm.retq = [] ∧ granSt.hbm.batch = [] ∧ 0 % 64 + 64 ≤ 64
      ∧ 63 % 64 + 1 ≤ 64 ∧ granSt.portClosed 0 = false ∧ granSt.meets 0 = .served 0 ∧ granSt.unitPoisoned (0 / 64) = false
      ∧ granSt.canRise (srcHbmCe 0) = true ∧ granSt.canRise (srcHbmUe 0) = true)
      ∧ (let s : State := { granSt with hbm := { granSt.hbm with poison := [(0, true)] } }
         s.meets 0 = .served 0 ∧ s.unitPoisoned (0 / 64) = true)
      ∧ runSt.meets 0 = .wait ∧ runSt.meets granTop = .error ∧ runSt.hbm.stalled = []
      ∧ ({ granSt with fab := { frozen := [(0x20, true)] } } : State).portClosed 0x20 = true ∧ 0x20 ≠ 0xC4 := by
  decide

/-- Some bank is among those that are not ready. -/
theorem witness_GranaryAccesses_slow (a : Nat) : ∃ c : GranCyc, Config.bankOf a ∈ c.slow := ⟨{ slow := [Config.bankOf a] }, by simp⟩

theorem witness_PositionsApart : runSt.posOf 0 = runSt.posOf 255 ∧ runSt.offOf 0 ≠ runSt.offOf 255 ∧ runSt.posOf 256 = 1 := by decide

theorem witness_RefreshAndScrub :
    ((granSt.stack (31 / 32)).st = .service ∧ (granSt.pc 31).role ≠ .retired ∧ (granSt.pc 31).outst < 7
      ∧ granSt.meets 0 = .served 0 ∧ granSt.posIdle (granSt.posOf 0) = true ∧ (granSt.stack (granSt.posOf 0 % 2)).st = .service ∧ granSt.unitPoisoned (0 / 64) = false
      ∧ granSt.canRise (srcHbmCe (0 / 32)) = true ∧ granSt.glb.st ≠ .reset ∧ granSt.stopped (2 + 1) = false)
      ∧ (({ hbm := { pcs := [(31, { outst := 7 })] } } : State).pc 31).outst = 7
      ∧ 8 ≤ (({ hbm := { pcs := [(31, { outst := 8 })] } } : State).pc 31).outst := by
  decide

/-- Stack 0 in service, with pseudo-channels 30 and 31 as its spares. -/
def drainSt (d : Drain) (gather : Bool) : State :=
  { runSt with hbm := { stk := [(0, { st := .service, drain := d, gather := gather })]
                        pcs := [(30, { role := .spare }), (31, { role := .spare })] } }

theorem witness_DrainsAndResumption :
    (let s := drainSt {} false
     s.drainsRun 0 = true ∧ (s.stack 0).drain.phase = .idle ∧ (s.stack 0).drain.want = [] ∧ s.stackSpares 0 = 30 :: [31]
       ∧ (s.stack 0).exhausted = false ∧ s.drainTarget 0 = some 0)
      ∧ (let s : State := { runSt with hbm := { stk := [(1, { st := .service, exhausted := true })] } }
         s.drainsRun 1 = true ∧ (s.stack 1).drain.phase = .idle ∧ (s.stack 1).drain.want = [] ∧ (s.stack 1).exhausted = true)
      ∧ (((drainSt {} true).stack 0).gather = true ∧ ((drainSt {} true).islOf (2 + 0)).held = [])
      ∧ (let s := drainSt { phase := .check, tgt := 0, spare := 30 } false
         (s.stack 0).gather = false ∧ (s.stack 0).retrain = false ∧ (s.stack 0).st = .service ∧ (s.stack 0).drain.phase = .check)
      ∧ (((drainSt { phase := .copy } false).stack 0).drain.phase = .copy ∧ ((drainSt { phase := .copy } false).stack 0).st = .service)
      ∧ ((drainSt { phase := .offline } false).stack 0).drain.phase = .offline
      ∧ (let s : State := { drainSt { phase := .check } true with pcie := hostSt.pcie }
         s.mbxReached = true ∧ s.mbx.abortPend = none ∧ s.stopped 1 = false ∧ (s.stack 0).drain.phase = .check ∧ (s.stack 0).st ≠ .training)
      ∧ (runSt.mbxReached = false ∧ ({ hostSt with mbx := { abortPend := some (.command 0) } } : State).mbx.abortPend.isSome = true
        ∧ ({ hostSt with mbx := { abortPend := some (.command 0) } } : State).mbxReached = true)
      ∧ (let s : State := { runSt with hbm := { stk := [(0, { retrain := true })], pcs := [(31, { role := .spare })] } }
         0 < 2 ∧ (s.stack 0).retrain = true ∧ Tbl.wf {} s.isl = true ∧ (s.stack 0).gather = false ∧ (s.stack 0).lost = false
           ∧ s.stopped (2 + 0) = false ∧ s.glb.st = .run ∧ (s.islOf (2 + 0)).held = []
           ∧ (∀ g ∈ List.range 32, (List.range 32).contains g = true ∧ (s.pc g).role ≠ .retired) ∧ s.stackSpares 0 ≠ [])
      ∧ (let s : State := { runSt with hbm := { stk := [(0, { retrain := true, gather := true })] } }
         (s.stack 0).retrain = true ∧ (s.stack 0).gather = true) := by
  decide

def req1 (m a : Nat) (write : Bool) : FabReq := { master := m, addr := a, len := 1, write := write, data := if write then [7] else [] }

/-- RUN after the lock, where master 0 may read its scratchpad through window 0, and read and write it through window 1. -/
def fabSt : State :=
  { runSt with fab := { lock := true, win := [(0, 0xF00000), (1, 0xF00000), (2, 9), (4, 0xF00001), (5, 0xF00001), (6, 15)] } }
/-- RUN after the lock, with window 0 of master 0 over its scratchpad and a control word of the test's. -/
def winSt (ctl : Nat) : State :=
  { runSt with fab := { lock := true, win := [(0, 0xF00000), (1, 0xF00000), (2, ctl)] } }

theorem witness_FabricTransactions :
    (fabSt.glb.st ≠ .reset ∧ fabSt.fab.waiting = [] ∧ masterIssued 0 = true ∧ fabSt.portClosed 0 = false
      ∧ fabSt.fabVerdict (req1 0 spadBase false) = .allow ∧ fabSt.rangeMeets (plainOf spadBase) 1 false = .served 0
      ∧ fabSt.fabVerdict (req1 0 (spadBase + 4096) true) = .allow ∧ fabSt.fabVerdict (req1 0 spadBase true) = .violation 1)
      ∧ (let s : State := { fabSt with isl := [(17, { st := .hold })] }
         s.fabVerdict (req1 0 spadBase false) = .allow ∧ s.rangeMeets (plainOf spadBase) 1 false = .wait)
      ∧ (let s : State := { runSt with fab := { frozen := [(0xC3, true)] } }
         s.portClosed 0xC3 = true ∧ 0xC3 ≠ 0xC4 ∧ masterIssued 0xC3 = true ∧ s.fab.frozen.get false 0xC3 = true ∧ 0xC3 ≠ 0xC5)
      ∧ (runSt.fab.lock = false ∧ runSt.portClosed 0xC4 = false ∧ aliasOf (req1 0xC4 0 false).addr ≠ 3)
      ∧ runSt.stopped 7 = false ∧ runSt.glb.st ≠ .loadfail ∧ ({ glb := { st := .loadfail } } : State).glb.st = .loadfail
      ∧ (let s : State := { hostSt with hbm := granSt.hbm }
         s.hostBar 0 = true ∧ s.hostBar 2 = true ∧ s.hostBar 4 = true ∧ s.portClosed 0xC4 = false ∧ s.isFrozen 0xC4 = false ∧ s.stopped 8 = false
           ∧ 0xFFFFFFF + 1 ≤ 0x10000000 ∧ runSt.hostBar 0 = false ∧ runSt.hostBar 2 = false ∧ runSt.hostBar 4 = false)
      ∧ (spadOf (plainOf spadBase)).isSome = true := by
  decide

theorem witness_FirewallVerdict :
    aliasOf (req1 0 (3 * 2 ^ 36) false).addr = 3 ∧ aliasOf (req1 0 spadBase false).addr ≠ 3 ∧ fabSt.fab.lock = true
      ∧ (∀ w ∈ List.range 8, fabSt.inWindow (req1 1 spadBase false) w = false)
      ∧ fabSt.inWindow (req1 0 spadBase true) 0 = true
      ∧ (∀ w ∈ List.range 8, fabSt.inWindow (req1 0 spadBase true) w = true → fabSt.winGrants (req1 0 spadBase true) w = false)
      ∧ (let r := req1 0 (2 ^ 36 + spadBase) true
         (winSt 11).fab.lock = true ∧ (winSt 11).inWindow r 0 = true ∧ (winSt 11).winGrants r 0 = true
           ∧ ∀ w ∈ List.range 8, (winSt 11).winAlias r w = false)
      ∧ (fabSt.inWindow (req1 0 (spadBase + 4096) true) 1 && fabSt.winGrants (req1 0 (spadBase + 4096) true) 1
        && fabSt.winAlias (req1 0 (spadBase + 4096) true) 1) = true := by
  decide

def spad1 (rank op addr : Nat) : SpadAcc := { rank := rank, addr := addr, op := op, data := 0, be := 255 }

theorem witness_ScratchpadAccesses :
    runSt.glb.st ≠ .reset ∧ runSt.chip.stalled = [] ∧ spadOf (stwSpad + 8) = some 40 ∧ runSt.stopped (spadIsland 40) = false
      ∧ runSt.canRise (spadCe 40) = true
      ∧ (spad1 0 0 spadBase).op = 0 ∧ 1 ≤ (spad1 64 3 spadBase).op ∧ bankOf spadBase = bankOf (spadBase + 64)
      ∧ spadBase ≠ spadBase + 64 ∧ (spad1 0 0 spadBase).rank < (spad1 1 0 (spadBase + 64)).rank := by
  decide

/-- RUN, with DMA channel 67. -/
def dmaSt (c : DmaCh) : State := { runSt with chip := { dma := [(67, c)] } }
def dma1 (st : DmaSt) : DmaCh := { src := spadBase, dst := spadBase + 4096, len := 64, st := st }

theorem witness_DmaTransfers :
    ((dmaSt (dma1 .idle)).glb.st ≠ .reset ∧ (dma1 .idle).st.active = false ∧ (dma1 .idle).trig = 0 ∧ (dma1 .idle).cfgOk = true
      ∧ ({ dma1 .idle with trig := 1, fifo := 0 } : DmaCh).cfgOk = true ∧ ({ dma1 .idle with len := 0 } : DmaCh).cfgOk = false
      ∧ (dma1 .run).st.active = true ∧ (dma1 .paused).st = .paused)
      ∧ (let s : State := { dmaSt { dma1 .waitHigh with trig := 1, fifo := 2 } with ing := { asserted := [(2, true)] } }
         (s.dma 67).trig = 1 ∧ (s.dma 67).st = .waitHigh ∧ s.fifoAsserted (s.dma 67).fifo = true)
      ∧ (let s := dmaSt (dma1 .run)
         s.dmaRuns 67 = true ∧ s.dmaReach 67 = none ∧ (s.dma 67).limit ≤ (if (s.dma 67).done = (s.dma 67).usedAt then (s.dma 67).used else 0) ∧ (s.dma 67).done < (s.dma 67).len)
      ∧ ((dmaSt { dma1 .run with limit := 1 }).dma 67).used < ((dmaSt { dma1 .run with limit := 1 }).dma 67).limit
      ∧ (let s := dmaSt { dma1 .run with trig := 1, fifo := 2 }
         s.dmaRuns 67 = true ∧ (s.dma 67).trig = 1 ∧ 0 ≤ s.fifoFill (s.dma 67).fifo - s.fifoLow (s.dma 67).fifo ∧ s.dmaReach 67 = none)
      ∧ (let s := dmaSt { dma1 .paused with trig := 1, fifo := 2 }
         (s.dma 67).st = .paused ∧ ({ s with ing := { asserted := [(2, true)] } } : State).fifoAsserted (s.dma 67).fifo = true)
      ∧ runSt.stopped (fifoIsland 0xA7) = false := by
  decide

theorem witness_DmaCompletes :
    (let s := dmaSt (dma1 .run)
     s.dmaRuns 67 = true ∧ s.dmaReach 67 = none ∧ s.dmaCanEnd 67 = true ∧ (s.dma 67).done ≤ (s.dma 67).len ∧ (s.dma 67).len % (s.dma 67).dw = 0
       ∧ s.stopped (eventIsland (s.dma 67).event) = false ∧ (s.dma 67).trig = 0 ∧ (s.dma 67).done = 0
       ∧ spadBase ≤ plainOf (s.dma 67).src ∧ spadBase ≤ plainOf (s.dma 67).dst ∧ plainOf (s.dma 67).dst + (s.dma 67).len ≤ spadTop
       ∧ aliasOf (s.dma 67).dst = 0 ∧ (s.dma 67).len ≠ 0)
      ∧ (let s : State := { dmaSt { dma1 .run with event := 0x2A } with isl := [(eventIsland 0x2A, { st := .hold })] }
         s.dmaRuns 67 = true ∧ s.stopped (eventIsland 0x2A) = true ∧ (s.islOf (eventIsland 0x2A)).st = .hold) := by
  decide

theorem witness_FaultReactions :
    (runSt.canRise 0x182 = false ∧ runSt.canRise 0x181 = true ∧ runSt.flt.installed = false)
      ∧ (let s (lvl : Nat) : State := { runSt with flt := { installed := true, level := [(0x17C, lvl)] } }
         (s 1).canRise 0x17C = true ∧ (s 1).flt.installed = true ∧ (s 1).muted (fltUnit 0x17C (some 0)) = false
           ∧ (s 1).classHeld (fltClass 0x17C) = false ∧ (s 0).fltLevel 0x17C = 0 ∧ (s 1).fltLevel 0x17C = 1
           ∧ (s 3).fltLevel 0x17C = 3 ∧ (s 3).glb.st = .run
           ∧ (s 3).glb.restartPend = false)
      ∧ (let s : State := { glb := { st := .run, restartPend := true, restartAt := 7 }, time := { aon := 7 } }
         s.canRise 0x17C = true ∧ s.glb.st = .run ∧ s.glb.restartPend = true ∧ s.glb.restartAt = s.time.aon)
      ∧ ({ glb := { restartPend := true, restartAt := 6 }, time := { aon := 7 } } : State).glb.restartAt ≠ 7
      ∧ (let s : State := { runSt with flt := { installed := true }, led := { units := [(31, { st := .quarantined })] } }
         s.canRise 0x1F = true ∧ s.muted (fltUnit 0x1F (some 0)) = true)
      ∧ (let s : State := { runSt with flt := { installed := true, mark := [(0x17D, true)] } }
         s.canRise 0x17C = true ∧ s.muted (fltUnit 0x17C (some 0)) = false ∧ s.classHeld (fltClass 0x17C) = true
           ∧ s.fltLevel 0x17C = 0)
      ∧ (let s : State := { runSt with flt := { installed := true, line := [(0x173, true)] } }
         s.flt.installed = true ∧ s.canRise 0x173 = false) := by
  decide

theorem witness_Acknowledge :
    runSt.serving (.faultAck hdr1 0x182) false hdr1 = true ∧ fltReserved 0x182 = true ∧ fltReserved 0x181 = false
      ∧ (let s : State := { runSt with flt := { mark := [(0x181, true)] } }
         s.serving (.faultAck hdr1 0x181) false hdr1 = true ∧ s.flt.mark.get false 0x181 = true)
      ∧ (let s : State := { fenicSt with flt := { mark := [(0x181, true)] } }
         s.serving (.clearAlarm hdr1 0x181) true hdr1 = true ∧ s.flt.mark.get false 0x181 = true)
      ∧ runSt.flt.mark.get false 0x181 = false ∧ runSt.glb.st ≠ .reset ∧ 15 < 16 ∧ 31 < 32 ∧ fltReserved (32 * 12 + 1) = false
      ∧ runSt.flt.force.get false (32 * 12 + 1) = false ∧ runSt.canRise (32 * 12 + 1) true = true := by
  decide

theorem witness_SpareSelection :
    runSt.encSpare = some 0 ∧ ({ runSt with rota := { lanes := [(0, { bound := some 0 })] } } : State).encSpare = some 1
      ∧ runSt.decSpare = some 0 := by
  decide

set_option maxRecDepth 8000 in
theorem witness_SparesMove :
    (let s : State := { runSt with img := { glean := [case1 0, case1 1] }
                                   rota := { lanes := [(27, { adm := some 31 })], dlanes := [(7, { adm := some 8 })] } }
     (s.lane 27).adm = some 31 ∧ s.img.glean[gleanCaseAt s.img.glean 0 (s.encOf 31).gleans]? = some (case1 0)
       ∧ lastCase s.img.glean 0 = 0 ∧ lastCase s.img.glean 1 = 1
       ∧ (s.dlane 7).adm = some 8 ∧ s.img.glean[gleanCaseAt s.img.glean 1 (s.decOf 8).gleans]? = some (case1 1))
      ∧ (let s : State := { runSt with rota := { lanes := [(27, { ready := some 31 })], dlanes := [(7, { ready := some 8 })] } }
         (s.lane 27).ready = some 31 ∧ s.encUsable 31 = true ∧ (s.dlane 7).ready = some 8 ∧ s.decUsable 8 = true)
      ∧ (let s : State := { runSt with led := { units := [(43, { st := .retired }), (44, { st := .spare })] }, egr := { remap := [(3, some 4)] } }
         3 < 4 ∧ (s.unit (41 + 3)).st = .spare ∧ s.stewards < 3 ∧ s.egr.remap.get none 3 = some 4)
      ∧ 3 ≤ runSt.stewards ∧ (runSt.irqTgt 3).idle = true
      ∧ (let s : State := { runSt with irq := { tgts := [(3, { idle := false })] } }
         (s.unit (41 + 3)).st = .inService ∧ (s.irqTgt 3).idle = false ∧ s.stopped 1 = false)
      ∧ (let j : Job := { tag := 0, opcode := 0, irq := false, mute := false }
         230 < (List.replicate 231 j).length ∧ (List.replicate 230 j).length ≤ 230)
      ∧ (let s : State := { runSt with led := { units := [(251, { st := .quarantined })] } }
         s.testable 251 = true ∧ (251 : Nat) ≤ 251)
      ∧ (let s : State := { runSt with led := { units := [(31, { st := .quarantined }), (40, { st := .quarantined })] } }
         s.testable 31 = true ∧ s.testable 40 = true ∧ 31 < 32 ∧ 40 < 41) := by
  decide

/-- A core's case matches as its errors have it. -/
theorem witness_SparesMove_case (s : State) (n : Nat) (g : GleanCase) (h : s.img.glean[n]? = some g) :
    (∃ err, s.caseMatches n (s.encCaseSig n err) = true) ∧ ∃ err, s.caseMatches n (s.decCaseSig n ^^^ err) = true := by
  refine ⟨⟨caseSig g ^^^ g.sig, ?_⟩, ⟨s.decCaseSig n ^^^ g.sig, ?_⟩⟩
  · simp [State.caseMatches, State.encCaseSig, h]
  · rw [← BitVec.xor_assoc, BitVec.xor_self, BitVec.zero_xor]
    simp [State.caseMatches, h]

theorem witness_LinksAndWear :
    (let s : State := { runSt with egr := { ports := [(1, { up := true, subFor := some 3 })] }, led := { units := [(250, { st := .spare })] } }
     (s.portSt 1).up = true ∧ 1 ≠ s.img.net.ptpPort ∧ (s.portSt 1).subFor = some 3 ∧ s.firstSpare (241 + 5 * 1) (246 + 5 * 1) = some 250)
      ∧ ((runSt.portSt 1).up = false ∧ runSt.stopped (4 + 1) = false ∧ runSt.glb.st = .run
        ∧ (∀ i ∈ List.range 5, (runSt.unit (241 + 5 * 1 + i)).st ≠ .quarantined) ∧ ∀ i ∈ (runSt.portSt 1).lanes, i ∈ [0, 1, 2, 3])
      ∧ (let s : State := { runSt with led := { units := [(250, { st := .quarantined })] } }
         (s.portSt 1).up = false ∧ s.stopped (4 + 1) = false ∧ (s.unit (241 + 5 * 1 + 4)).st = .quarantined)
      ∧ ({ runSt with glb := { st := .run, por := true } } : State).glb.por = true ∧ runSt.glb.por = false
      ∧ 10000 * 1 ≤ 10000 ∧ 9999 < 10000 * 1 := by
  decide

theorem witness_InterruptEvents :
    runSt.glb.st ≠ .reset ∧ irqReserved 5 = true ∧ irqReserved 4 = false ∧ (runSt.irqSrc 4).line = false ∧ (runSt.irqSrc 4).filter ≤ 0
      ∧ (let s : State := { runSt with irq := { srcs := [(4, { filter := 63 })] } }
         62 < (s.irqSrc 4).filter ∧ (s.irqSrc 4).filter ≤ 63)
      ∧ (irqIsland 4).any runSt.stopped = false ∧ (irqIsland 4).any ({ isl := [(6, { st := .hold })] } : State).stopped = true
      ∧ (({ irq := { srcs := [(4, { line := true })] } } : State).irqSrc 4).line = true ∧ 63 < 64
      ∧ (runSt.irqPresents (runSt.irqSrc 4).goesTo).contains 4 = false ∧ runSt.irqPresents (4 + 63) = []
      ∧ (let s : State := { runSt with irq := { srcs := [(4, { en := true, prio := 255, pend := true })] } }
         irqReserved 4 = false ∧ (s.irqPresents (s.irqSrc 4).goesTo).contains 4 = true ∧ bitOf 0x7FFFFFFF 31 = false)
      ∧ (let s : State := { runSt with irq := { srcs := [(4, { en := true, target := 67, prio := 255, pend := true })] }
                                       pcie := { link := true, bme := true, msix := [(63, { mask := false })] } }
         s.irqPresents (4 + 63) = [4]) := by
  decide

theorem witness_InterruptDeliveries :
    (runSt.irqReady 4 = false ∧ runSt.irqHeld 3 = false ∧ runSt.vecOpen (4 - 4) = false)
      ∧ (let s : State := { runSt with irq := { srcs := [(4, { en := true, target := 3, prio := 255, pend := true })] } }
         3 < 4 ∧ s.irqReady 3 = true ∧ s.irqBest (s.irqFor 3) = some 4 ∧ (s.irqTgt 3).serving = none)
      ∧ (let s : State := { runSt with irq := { srcs := [(3, { prio := 255 }), (4, { en := true, target := 3, prio := 255, pend := true })]
                                                tgts := [(3, { serving := some 3 })] } }
         s.irqReady 3 = true ∧ s.irqBest (s.irqFor 3) = some 4 ∧ (s.irqTgt 3).serving = some 3 ∧ s.irqGroup 4 ≤ s.irqGroup 3)
      ∧ (let s : State := { runSt with irq := { srcs := [(4, { en := true, target := 3, prio := 255, pend := true })]
                                                tgts := [(3, { serving := some 3 })] } }
         s.irqReady 3 = true ∧ s.irqBest (s.irqFor 3) = some 4 ∧ (s.irqTgt 3).serving = some 3 ∧ s.irqGroup 3 < s.irqGroup 4)
      ∧ (let s : State := { runSt with irq := { srcs := [(4, { en := true, target := 67, prio := 255, pend := true })] }
                                       pcie := { link := true, bme := true, msix := [(63, { mask := false })] } }
         4 ≤ 67 ∧ s.irqReady 67 = true ∧ s.vecOpen (67 - 4) = true ∧ s.irqFor 67 = [4])
      ∧ (let s : State := { runSt with irq := { tgts := [(67, { altEn := true, altTgt := 3 })] } }
         s.irqHeld 67 = true ∧ (s.irqTgt 67).altEn = true ∧ (s.irqTgt 67).altTgt < 68 ∧ s.irqReady (s.irqTgt 67).altTgt = true)
      ∧ (let s : State := { runSt with irq := { srcs := [(4, { en := true, target := 3, prio := 255, pend := true })]
                                                tgts := [(3, { altEn := true, altTgt := 67 })] }
                                       fab := { frozen := [(0xC3, true)] } }
         s.irqHeld 3 = true ∧ (s.irqTgt 3).altEn = true ∧ (s.irqTgt 3).altTgt < 68 ∧ s.irqReady (s.irqTgt 3).altTgt = false
           ∧ 4 ∈ (s.irqFor 3).filter (fun n => (s.irqSrc n).alt.isNone) ∧ Tbl.wf {} s.irq.srcs = true)
      ∧ (let s : State := { runSt with irq := { srcs := [(4, { en := true, target := 3, prio := 255, pend := true })]
                                                tgts := [(3, { altEn := true, altTgt := 67 })] }
                                       fab := { frozen := [(0xC3, true)] }
                                       pcie := { link := true, bme := true, msix := [(63, { mask := false })] } }
         4 ≤ (s.irqTgt 3).altTgt ∧ s.irqHeld 3 = true ∧ s.irqReady (s.irqTgt 3).altTgt = true ∧ s.vecOpen ((s.irqTgt 3).altTgt - 4) = true
           ∧ 4 ∈ (s.irqFor 3).filter (fun n => (s.irqSrc n).alt.isNone) ∧ Tbl.wf {} s.irq.srcs = true)
      ∧ (runSt.irqFor 3).filter (fun n => (runSt.irqSrc n).alt.isNone) = [] := by
  decide

def trans1 (r : IslReq) (waits : Bool) : IslTrans := { req := r, hdrs := [], waits := waits }

theorem witness_Islands :
    (58 < 59 ∧ 58 ≠ 2 ∧ 58 ≠ 3 ∧ runSt.serving (.islandState hdr1 58 4) false hdr1 = true
      ∧ runSt.serving (.islandFreq hdr1 58 425) false hdr1 = true ∧ islFreqOk 57 (runSt.islOf 57).freq = true
          ∧ (runSt.islOf 57).trans = none ∧ runSt.islPermits 58 .off = false
      ∧ runSt.islPermits 57 .run = true ∧ (runSt.islOf 57).st = .run ∧ runSt.islPermits 57 .off = true ∧ (runSt.islOf 57).st ≠ .off
      ∧ islFreqOk 57 401 = false ∧ islFreqOk 57 425 = true ∧ (runSt.islOf 57).freq ≠ 425)
      ∧ (let s : State := { runSt with isl := [(57, { trans := some (trans1 (.freq 425) false) })] }
         s.serving (.islandState hdr1 57 0) false hdr1 = true ∧ (s.islOf 57).trans.isSome = true)
      ∧ (let s : State := { runSt with isl := [(17, { trans := some (trans1 (.state .off) true) })] }
         9 ≤ 17 ∧ 17 < 59 ∧ (s.islOf 17).trans = some (trans1 (.state .off) true) ∧ 17 < 49 ∧ s.unitBusy 17 = false)
      ∧ (let s : State := { runSt with isl := [(48, { trans := some (trans1 (.state .off) true) })]
                                       rota := { lanes := [(0, { run := some (run1 0) })] } }
         (s.islOf 48).trans = some (trans1 (.state .off) true) ∧ s.unitBusy 48 = true)
      ∧ (let s : State := { runSt with isl := [(57, { trans := some (trans1 (.freq 425) false) })] }
         (s.islOf 57).trans = some (trans1 (.freq 425) false) ∧ (trans1 (.freq 425) false).waits = false
           ∧ (trans1 (.freq 425) false).req = .freq 425 ∧ (trans1 (.freq 425) false).hdrs = [] ∧ Tbl.wf {} s.isl = true)
      ∧ (let s : State := { runSt with isl := [(58, { trans := some (trans1 (.state .slow8) false) })] }
         (s.islOf 58).trans = some (trans1 (.state .slow8) false) ∧ (trans1 (.state .slow8) false).req = .state .slow8
           ∧ IslSt.slow8.halts = false ∧ (s.islOf 58).st.halts = false ∧ (s.islOf 58).held = [] ∧ Tbl.wf {} s.isl = true)
      ∧ (let s : State := { runSt with isl := [(8, { st := .hold })] }
         (s.islOf 8).st = .hold ∧ s.islRegOk = true)
      ∧ (runSt.islOf 8).st ≠ .hold := by
  decide

def job1 (opcode : Nat) : Job := { tag := 65535, opcode := opcode, irq := true, mute := false }
/-- A fetched KEY_ERASE of slot 5, and an earlier one that waits. -/
def job2 (tag : Nat) (bad : Bool) : Job :=
  { tag := tag, opcode := 4, irq := true, mute := false, cmd := some (.keyErase { tag := tag, irq := true } 5), badRsv := bad }

theorem witness_MailboxRegisters :
    (hostSt.stopped 8 = false ∧ hostSt.hostBar 2 = true ∧ hostSt.hostBar 0 = true ∧ hostSt.isFrozen 0xC4 = false
      ∧ hostSt.mbx.sqHead = 4096 % 4096 ∧ hostSt.mbx.waiting = []
      ∧ hostSt.mbx.sqHead = hostSt.mbx.sqTail ∧ hostSt.mbx.locked = false ∧ hostSt.mbx.abortPend = none ∧ hostSt.stopped 1 = false
      ∧ (∀ j ∈ hostSt.mbx.jobs, j.tag ≠ 65535) ∧ (∀ c ∈ hostSt.mbx.waiting, c.tag ≠ 65535))
      ∧ (runSt.hostBar 2 = false ∧ runSt.hostBar 0 = false
        ∧ ({ hostSt with fab := { frozen := [(0xC4, true)] } } : State).isFrozen 0xC4 = true)
      ∧ (let s : State := { hostSt with isl := [(1, { st := .hold })] }
         s.hostBar 0 = true ∧ s.stopped 8 = false ∧ s.mbx.abortPend = none ∧ s.stopped 1 = true)
      ∧ ({ hostSt with mbx := { abortPend := some (.command 1) } } : State).mbx.abortPend.isSome = true
      ∧ (let s : State := { hostSt with mbx := { waiting := [{ tag := 65535, status := 0, res0 := 0, res1 := 0, irq := true }] } }
         (∀ j ∈ s.mbx.jobs, j.tag ≠ 65535) ∧ ∃ c ∈ s.mbx.waiting, c.tag = 65535)
      ∧ (let s (opcode : Nat) : State := { hostSt with mbx := { locked := true, jobs := [job1 opcode] } }
         (s 1).mbx.locked = true ∧ (s 1).mbx.jobs.find? (fun j => j.tag == 65535) = some (job1 1)
           ∧ (s 1).abortable (job1 1).opcode = false ∧ (s 2).mbx.jobs.find? (fun j => j.tag == 65535) = some (job1 2)
           ∧ (s 2).abortable (job1 2).opcode = true ∧ (s 2).swapCommitted (job1 2) = false)
      ∧ (let s : State := { hostSt with rep := { swap := some { swap1 (some 15) false with tag := 65535 } } }
         s.swapCommitted { job1 7 with begun := true } = true) := by
  decide

theorem witness_ReservedOpcodes :
    runSt.serving (.reservedOpcode hdr1 255) false hdr1 = true ∧ fenicSt.serving (.badOpcode hdr1 255) true hdr1 = true := by
  decide

theorem witness_MailboxStates :
    loadSt.glb.st = .load ∧ trainSt.glb.st = .train ∧ State.reset.glb.st = .reset ∧ fenicSt.mbx.fenic = true ∧ runSt.mbx.fenic = false
      ∧ (let s (st : DevSt) : State := { glb := { st := st } }
         (s .safe).glb.st = .safe ∧ ∀ st ∈ [DevSt.safe, DevSt.loadfail], (s st).mbx.fenic = false ∧ (s st).glb.restartPend = false
           ∧ (s st).stopped 1 = false ∧ (s st).mbx.cqFull = false ∧ (s st).turn (.keyErase hdr1 5) hdr1 = true
           ∧ (s st).turn (.sessionOpen hdr1 open1) hdr1 = true ∧ (s st).turn (.targetSet hdr1 0 0) hdr1 = true
           ∧ (s st).turn (.deliveryDel hdr1 0) hdr1 = true)
      ∧ (let s (jobs : List Job) : State := { runSt with mbx := { jobs := jobs } }
         (s []).glb.restartPend = false ∧ (s []).mbx.cqFull = false
           ∧ (s [job2 1 false, job2 65535 false]).behind hdr1 (.keyErase hdr1 5) = true
           ∧ (s [job2 65535 true]).behind hdr1 (.keyErase hdr1 5) = false
           ∧ (s [job2 65535 true]).jobOf hdr1 = some (job2 65535 true) ∧ (job2 65535 true).begun = false
           ∧ (job2 65535 true).cmd = some (.keyErase hdr1 5) ∧ (job2 65535 true).badRsv = true) := by
  decide

/-- The work queue full of commands that have begun. -/
theorem witness_MailboxStates_full :
    (let s : State := { runSt with mbx := { jobs := List.replicate 256 { job1 1 with tag := 0, begun := true } } }
     s.mbx.jobs.length = 256 ∧ s.behind hdr1 (.keyErase hdr1 5) = false ∧ s.fetched hdr1 = false) := by
  decide +kernel

def ctx1 : CtxArgs :=
  { dcx := 0, codec := 1, rtp := false, outHost := true, bindEn := false, ipv6 := false, bindCh := 0, pt := 0, reorder := 0, srcAddr := 0
    srcPort := 0, dstPort := 0, ssrc := 0, rsvOk := true }

theorem witness_Sessions :
    (chanSt.serving (.sessionOpen hdr1 open1) false hdr1 = true ∧ chanSt.serving (.sessionClose hdr1 0 true) false hdr1 = true
      ∧ chanSt.openRefused false { open1 with width := 8 } = some .badArg
      ∧ chanSt.openRefused false open1 = none ∧ chanSt.cls open1.channel = some cls1 ∧ cls1.base.pathVft = false
      ∧ chanSt.rota.started = false ∧ (chanSt.cls 0).isSome = true ∧ (chanSt.sessOf 0).isOpen = false ∧ chanSt.cls 1 = none)
      ∧ (sessSt.serving (.sessionClose hdr1 0 true) false hdr1 = true ∧ (sessSt.cls 0).isSome = true ∧ (sessSt.sessOf 0).isOpen = true
          ∧ sessSt.stopped 6 = false)
      ∧ (let s : State := { decSt with dcx := [] }
         s.serving (.sessionOpenContext hdr1 ctx1) false hdr1 = true ∧ s.serving (.sessionCloseContext hdr1 0 true) false hdr1 = true
           ∧ s.ctxRefused { ctx1 with dcx := 63 } = some .noChannel ∧ s.ctxRefused ctx1 = none
           ∧ ctx1.rtp = false ∧ ctx1.bindEn = false ∧ s.dcxDeclared 0 = true ∧ (s.dcxOf 0).isOpen = false)
      ∧ (decSt.serving (.sessionCloseContext hdr1 0 true) false hdr1 = true ∧ decSt.dcxDeclared 0 = true ∧ (decSt.dcxOf 0).isOpen = true
          ∧ (decSt.dcxOf 0).rtp = none)
      ∧ (let s : State := { fenicSt with img := { classes := [cls1] } }
         s.serving (.openStream hdr1 0 320 184 1000) true hdr1 = true ∧ s.cls 0 = some cls1 ∧ 0 ≤ 63 ∧ (s.sessOf 0).isOpen = false
             ∧ cls1.base.pathVft = false
           ∧ cls1.base.format < 2 ∧ layerPeriod cls1 = 1 ∧ badSize (some cls1) 320 184 = false)
      ∧ (let s : State := { fenicSt with img := { classes := [cls1] }, sess := [(0, { isOpen := true })] }
         s.serving (.closeStream hdr1 0) true hdr1 = true ∧ (s.cls 0).isSome = true ∧ (s.sessOf 0).isOpen = true
             ∧ s.stopped 6 = false) := by
  decide

/-- RUN, channel 0 over VFT and closed, with an empty VFT_SOURCE table. -/
def vftSt (fenic : Bool) : State :=
  { glb := { st := .run }, mbx := { fenic := fenic }
    img := { classes := [{ cls1 with base := { cls1.base with pathVft := true } }], em := [{ role := 1, keyLen := 19, cap := 2 }] } }

def add1 (player : Bool) : AddArgs :=
  { channel := 0, player := player, ipv6 := false, maxTid := 2, prof := 15, outer := 4095, dstAddr := 0xFFFFFFFF, dstPort := 65535
    srcPort := 1, ssrc := 3, dstMac := 4, dscp := 63, ecn := 3, hop := 64, vlan0 := 0, vlan1 := 0, markId := 0, keySlot := 524287, rate := 64
    burst := 16384, dropAt := 1, rsvOk := true }
def dest1 : DestArgs := { channel := 0, dstAddr := 0xFFFFFFFF, dstPort := 65535, vlan := 0, ssrc := 3, keySlot := 0, rate := 400000000 }

/-- RUN, channel 0 open, with an AUDIENCE table of one entry, body 5 on its chain and the compatibility defaults of ADD_DEST. -/
def delSt (fenic player : Bool) : State :=
  { glb := { st := .run }, mbx := { fenic := fenic }
    img := { classes := [cls1], em := [{ role := 2, keyLen := 40, cap := 2 }], net := { cDel := { burst := 1 } } }
    sess := [(0, { isOpen := true, added := true })]
    rep := { chain := [(0, [5])], bodies := [(5, { st := .active, d := { player := player } })] } }

theorem witness_Deliveries :
    (let s := delSt false true
     s.serving (.deliveryAdd hdr1 (add1 false)) false hdr1 = true ∧ s.serving (.deliveryDel hdr1 5) false hdr1 = true
       ∧ (s.sessOf 0).isOpen = true ∧ (add1 true).player = true ∧ s.hasPlayer 0 = true
       ∧ (add1 false).player = false ∧ s.playerOnly 0 = false
       ∧ ((add1 false).player && s.hasPlayer 0 || !(add1 false).player && s.playerOnly 0) = false
           ∧ addOk { add1 false with burst := 0 } = false ∧ addOk (add1 false) = true
       ∧ s.stopped 6 = false ∧ s.emTable 2 = some 0 ∧ s.named 5 = true ∧ s.named 6 = false ∧ (s.sessOf 1).isOpen = false)
      ∧ (let s := delSt true true
         s.serving (.addDest hdr1 dest1) true hdr1 = true ∧ s.serving (.delDest hdr1 5) true hdr1 = true
           ∧ (s.sessOf 0).isOpen = true ∧ (s.sessOf 0).added = true ∧ s.playerOnly 0 = false
           ∧ s.stopped 6 = false ∧ s.emTable 2 = some 0 ∧ s.named 5 = true)
      ∧ (let s := delSt false false
         s.serving (.targetSet hdr1 0 1000) false hdr1 = true ∧ s.serving (.targetSetDelivery hdr1 5 64) false hdr1 = true
           ∧ (delSt true false).serving (.setBitrate hdr1 0 1000) true hdr1 = true ∧ s.cls 0 = some cls1
           ∧ (s.sessOf 0).isOpen = true ∧ cls1.cod.minK ≤ 1000 ∧ 9000 ≤ cls1.cod.peak ∧ 999 < cls1.cod.minK
           ∧ cls1.cod.peak < 9001 ∧ s.cls 1 = none ∧ s.named 5 = true ∧ 64 ≤ 400000000 ∧ 63 < 64 ∧ 400000000 < 400000001) := by
  decide

/-- An empty index has a place for every entry. -/
theorem emPlace_empty (s : State) (e : EmEnt) (he : s.pkt.em = []) : ∃ t, s.emPlace e = some t := by
  have h (x : Nat) (l : List Nat) : EmIdx.firstFree [] (x :: l) = some x := rfl
  unfold State.emPlace
  simp [he, bucketSlots, h]

/-- An empty index takes a key of table 0 while the table has room. -/
theorem emInsert_empty (s : State) (d : EmDef) (key : List Byte) (b : EmBody) (hd : s.img.em[0]? = some d) (hc : 0 < d.cap)
    (he : s.pkt.em = []) : ∃ v, s.emInsert 0 key b = some v := by
  have h0 : EmIdx.occ [] 0 = 0 := rfl
  have h1 : ¬ d.cap ≤ 0 := by omega
  obtain ⟨t, ht⟩ := emPlace_empty s { tbl := 0, key := key, sig := s.emSig 0 key, body := b } he
  unfold State.emInsert
  rw [hd, he]
  simp [h0, h1, ht]

/-- The VFT source of an opened channel goes into the empty table. -/
theorem witness_Sessions_source (fenic : Bool) (h : CmdHdr) :
    (vftSt false).openRefused false open1 = none ∧ (vftSt true).openRefused true open1 = none ∧ (vftSt fenic).stopped 6 = false
      ∧ (vftSt fenic).emTable 1 = some 0
      ∧ (vftSt fenic).emHas 0 (vftKey open1.srcAddr open1.srcPort open1.ipv6) = false
      ∧ (vftSt false).serving (.sessionOpen h open1) false h = true
      ∧ ∃ u, (vftSt fenic).emInsert 0 (vftKey open1.srcAddr open1.srcPort open1.ipv6) (.vft 0) = some u :=
  ⟨by decide, by decide, by cases fenic <;> decide, by cases fenic <;> decide, by cases fenic <;> decide, rfl,
    emInsert_empty (vftSt fenic) { role := 1, keyLen := 19, cap := 2 } _ _ rfl (by decide) rfl⟩

/-- A channel whose image has players alone, and one without a delivery. -/
theorem witness_Deliveries_player :
    (let s : State := { delSt false true with img := { classes := [{ cls1 with base := { cls1.base with cut := true }, cod := { cls1.cod with ackRef := true } }] } }
     (s.sessOf 0).isOpen = true ∧ (add1 false).player = false ∧ s.playerOnly 0 = true)
      ∧ (let s : State := { delSt false true with rep := {} }
         ((add1 true).player && s.hasPlayer 0 || !(add1 true).player && s.playerOnly 0) = false) := by
  decide

/-- The body that a delivery takes, whichever the unit picks, and the index with its key in. -/
theorem witness_Deliveries_body :
    (delSt false true).emHas 0 (audKey (destOf (add1 false))) = false
      ∧ ∃ k u v, (delSt false true).allocBody = (some k, u) ∧ u.emInsert 0 (audKey (destOf (add1 false))) (.aud k) = some v := by
  refine ⟨by decide, ?_⟩
  let u : State := { delSt false true with free := 1 }
  have hf (j : Nat) (h : j ≠ 5) : u.bodyIsFree j = true := by
    have : u.rep.bodies.get {} j = ({} : Body) := by
      show Tbl.get ({} : Body) [(5, _)] j = {}
      simp [Tbl.get, h]
    simp [State.bodyIsFree, State.body, this]
  have ha (j : Nat) : ∃ k, u.freeFrom bodyCount j = some k := by
    by_cases h : j = 5
    · subst h
      exact ⟨6, by rfl⟩
    · exact ⟨j, by show u.freeFrom (524287 + 1) j = _; simp [State.freeFrom, hf j h]⟩
  obtain ⟨k, hk⟩ := ha ((Config.freeWord 0).toNat % bodyCount)
  obtain ⟨v, hv⟩ := emInsert_empty u { role := 2, keyLen := 40, cap := 2 } (audKey (destOf (add1 false))) (.aud k) rfl (by decide) rfl
  exact ⟨k, u, v, by show (u.freeFrom _ _, u) = _; exact Prod.ext hk rfl, hv⟩

def blob1 : List Byte :=
  [0x56, 0x4B, 0x49, 0x31, 0, 1, 0, 0xF0, 0, 7, 0xFF, 0xFF, 1, 0, 0, 0] ++ List.replicate 224 0

/-- RUN, the host's bus mastered, the key store's 64 MiB at the granary's start, stack 0 in service with pseudo-channel 0 at position 0. -/
def keySt (fenic : Bool) : State :=
  { granSt with mbx := { fenic := fenic }, pcie := { bme := true }, sec := { ksLen := 2 ^ 26 } }

set_option maxRecDepth 4000 in
theorem witness_KeysAndReports :
    (let s := keySt false
     s.stopped 7 = false ∧ s.serving (.keyImport hdr1 0 240 blob1) false hdr1 = true ∧ s.serving (.keyErase hdr1 5) false hdr1 = true
       ∧ s.serving (.attest hdr1 0 0) false hdr1 = true ∧ s.masters = true ∧ blobOk blob1 = true ∧ blobOk [] = false
       ∧ blobSlot blob1 = 524287 ∧ s.earlier hdr1 = false ∧ 0x3FFFC0 % 64 = 0 ∧ 0x3FFFC0 + 64 ≤ 0x400000 ∧ 0x3FF000 % 4096 = 0
       ∧ 0x3FF000 + 548 ≤ 0x400000 ∧ s.sec.sensed.idkeyOk = false ∧ s.keyPath 0 = .served 0 ∧ 524287 < 524288 ∧ 524288 ≤ 524288)
      ∧ runSt.keyPath (blobSlot blob1) = .error ∧ ({ runSt with sec := { ksLen := 2 ^ 26 } } : State).keyPath (blobSlot blob1) = .wait
      ∧ runSt.masters = false ∧ 239 ≠ 240 ∧ ({ sec := { sensed := { idkeyOk := true } } } : State).sec.sensed.idkeyOk = true
      ∧ (let s := keySt true
         s.stopped 7 = false ∧ s.serving (.loadKey hdr1 0 240 524287 blob1) true hdr1 = true ∧ s.masters = true) := by
  decide

/-- The last slot's entry, with every position of the granary served. -/
theorem witness_KeysAndReports_slot :
    (let s : State := { keySt false with hbm := { stk := [(0, { st := .service }), (1, { st := .service })]
                                                  map := (List.range 64).map fun i => (i, some i) } }
     (List.range 64).any fun x => s.keyPath (blobSlot blob1) = .served x) = true := by
  decide +kernel

/-- A blob unwraps or does not, as the key engine has it; a clause covers either. -/
theorem witness_KeysAndReports_unwrap (s : State) (b : List Byte) : (∃ k, s.unwrap b = some k) ∨ s.unwrap b = none := by
  cases h : s.unwrap b with
  | none => exact .inr rfl
  | some k => exact .inl ⟨k, rfl⟩

theorem witness_FlashUpdates :
    runSt.serving (.imageWriteProgram hdr1 1 0 4096 0) false hdr1 = true ∧ runSt.serving (.imageWriteErase hdr1 1 0 4096) false hdr1 = true
      ∧ runSt.serving (.imageWriteVerify hdr1 1 noRead) false hdr1 = true ∧ runSt.serving (.restart hdr1) false hdr1 = true
      ∧ fenicSt.serving (.reboot hdr1) true hdr1 = true ∧ runSt.earlier hdr1 = false ∧ rangeOk 1 0 4096 = true ∧ srcOk 0x3FF000 4096 = true
      ∧ rangeOk 2 0 4096 = false ∧ 1 < 2 ∧ fenicSt.serving (.flashWrite hdr1 0 4096 0) true hdr1 = true ∧ fenicSt.earlier hdr1 = false
      ∧ (let s : State := { flashOp := some { tag := 1, irq := false, base := 0, len := 4096, data := none } }
         s.flashOp = some { tag := 1, irq := false, base := 0, len := 4096, data := none } ∧ Tbl.wf 0xFF s.flash = true)
      ∧ ({ tag := 1, irq := false, base := 0, len := 1, data := some [7] } : FlashOp).data = some [7] ∧ runSt.canRise 0x166 = true := by
  decide

theorem witness_Registers :
    (let s : State := { runSt with pcie := { bme := true } }
     s.serving (.statsRead hdr1 0 0 65536) false hdr1 = true ∧ s.masters = true ∧ 0 % 8 = 0 ∧ 65536 % 8 = 0 ∧ 8 ≤ 65536 ∧ 65536 ≤ 65536
         ∧ 0 + 65536 ≤ 0x4000000
       ∧ 7 < 8)
      ∧ (let s : State := { fenicSt with pcie := { bme := true } }
         s.serving (.getStats hdr1 63 0 2048) true hdr1 = true ∧ s.masters = true ∧ 191 < 192 ∧ 8 % 8 = 0)
      ∧ (runSt.reaches .steward = true ∧ hostSt.reaches .host = true ∧ runSt.reaches .host = false ∧ runSt.counterAt 0x100044 = none
        ∧ runSt.regRuns 0x100044 = true ∧ 0x100040 % 4 = 0 ∧ 0x100040 < 0x4000000
        ∧ runSt.regRuns 0x100040 = true ∧ runSt.counterAt 0x100040 = some (1, 0) ∧ 0x3FFFFF8 % 8 = 0)
      ∧ 5 ≠ 4 ∧ 5 ≠ 8 ∧ 2 % 4 ≠ 0 ∧ 4 % 8 ≠ 0 ∧ 0x100010 < 0x4000000 ∧ 0x4000000 ≤ 0x4000000 := by
  decide

theorem witness_IdleTick : State.reset.pending = [] ∧ State.reset.time.running = false
    ∧ ({ time := { running := true } } : State).time.running = true ∧ State.reset.ptp.lock ≠ 2 := by
  decide

theorem witness_Invariants : State.reset.FusesHold ∧ Tbl.wf 0xFF State.reset.flash = true ∧ State.reset.flashOp = none
    ∧ step State.reset = .next State.reset.tick ∧ exec .tapReset runSt = .next runSt := by
  exact ⟨by unfold State.FusesHold; decide, rfl, rfl, rfl, rfl⟩

/-! ### Commands that are not well formed -/

def addBad : AddArgs := { add1 true with prof := 16 }

/-- Operands past their fields in the mailbox rows (R415, R416, R79). -/
theorem smoke_mailbox :
    (Instr.restart { tag := 65536, irq := false }).wf = false ∧ (Instr.sessionOpen hdr1 { open1 with width := 65536 }).wf = false
      ∧ (Instr.sessionOpenContext hdr1 { ctx1 with dcx := 256 }).wf = false ∧ (Instr.deliveryAdd hdr1 addBad).wf = false
      ∧ (Instr.addDest hdr1 { dest1 with dstAddr := 2 ^ 32 }).wf = false ∧ (Instr.keyImport hdr1 0 240 []).wf = false
      ∧ (Instr.loadKey hdr1 0 0 65536 []).wf = false ∧ (Instr.attest hdr1 0 (2 ^ 32)).wf = false
      ∧ (Instr.imageWriteProgram hdr1 0 (2 ^ 32) 0 0).wf = false ∧ (Instr.imageWriteErase hdr1 0 0 (2 ^ 32)).wf = false
      ∧ (Instr.statsRead hdr1 0 0 (2 ^ 32)).wf = false ∧ (Instr.getStats hdr1 0 (2 ^ 64) 0).wf = false
      ∧ (Instr.reservedOpcode hdr1 256).wf = false ∧ (Instr.badOpcode hdr1 256).wf = false
      ∧ (Instr.mbxSqDb (2 ^ 32)).wf = false ∧ (Instr.mbxCqDb (2 ^ 32)).wf = false ∧ (Instr.mbxAbort 65536).wf = false
      ∧ (Instr.sessionClose hdr1 256 true).wf = false ∧ (Instr.keyErase hdr1 (2 ^ 20)).wf = false
      ∧ (Instr.targetSet hdr1 0 (2 ^ 32)).wf = false ∧ (Instr.targetSetDelivery hdr1 (2 ^ 20) 0).wf = false
      ∧ (Instr.rulesetSwap hdr1 16).wf = false ∧ (Instr.islandState hdr1 0 256).wf = false ∧ (Instr.islandFreq hdr1 256 0).wf = false
      ∧ (Instr.imageWriteVerify hdr1 256 noRead).wf = false ∧ (Instr.faultAck hdr1 512).wf = false
      ∧ (Instr.openStream hdr1 64 0 0 0).wf = false ∧ (Instr.closeStream hdr1 64).wf = false ∧ (Instr.delDest hdr1 (2 ^ 32)).wf = false
      ∧ (Instr.setBitrate hdr1 64 0).wf = false ∧ (Instr.clearAlarm hdr1 65536).wf = false
      ∧ (Instr.flashWrite hdr1 (2 ^ 32) 0 0).wf = false ∧ (Instr.sessionOpen hdr1 open1).wf = true
          ∧ (Instr.deliveryAdd hdr1 (add1 true)).wf = true := by
  decide

/-- Units past their number: sensors, slots, groups, lanes, channels, contexts, ports, parse engines, stacks. -/
theorem smoke_units :
    (Instr.porRelease { resetN := true, perstN := true, compat := false, smbAddr := 4 }
        { serial := false, root := false, idkey := false, owner := false }).wf = false
      ∧ (Instr.thermalWarn 16 85).wf = false ∧ (Instr.slotCheck 2 noRead).wf = false ∧ (Instr.hbmTrainingComplete [64]).wf = false
      ∧ (Instr.sheafRunStart 28 0 0).wf = false ∧ (Instr.sheafRunStart 27 65536 0).wf = false
      ∧ (Instr.rotaBacklog 192 0 0 0).wf = false ∧ (Instr.rotaBacklog 191 2 0 0).wf = false ∧ (Instr.rotaBacklog 191 1 0 68).wf = false
      ∧ (Instr.decodeRunStop 8).wf = false ∧ (Instr.reorderTimeout 64 0).wf = false ∧ (Instr.reorderTimeout 63 65536).wf = false
      ∧ (Instr.portLinkDown 2).wf = false ∧ (Instr.serdesBerWindow [(0, 5, 0, 0)]).wf = false
      ∧ (Instr.serdesBerWindow [(0, 4, 2, 1)]).wf = false ∧ (Instr.ext 64).wf = false ∧ (Instr.pass1 192).wf = false
      ∧ (Instr.bodyFree 524288).wf = false ∧ (Instr.stashMove 64).wf = false ∧ (Instr.refreshDue 64 false).wf = false
      ∧ (Instr.drainStart 2).wf = false ∧ (Instr.dmaComplete 68).wf = false ∧ (Instr.laneRebind true 8).wf = false
      ∧ (Instr.laneRebind true 7).wf = true ∧ (Instr.laneRebind false 27).wf = true ∧ (Instr.stewardTakeover 4).wf = false
      ∧ (Instr.srtpRemap 4).wf = false ∧ (Instr.quarantineTestEnd 256 true 0).wf = false := by
  decide

/-- Accesses that are misaligned, too long, or carry data that does not fit. -/
theorem smoke_accesses :
    (Instr.scrubRead 1 .clean false).wf = false
        ∧ (Instr.granaryAccess [{ port := 13, master := 0, addr := 0, write := false, data := [] }] .clean).wf = false
      ∧ (Instr.granaryAccess [{ port := 0, master := 0, addr := 64, write := true, data := [0], len := 2 }] .clean).wf = false
      ∧ (Instr.fabricTransaction [{ master := 0, addr := 2 ^ 38, len := 1, write := false, data := [] }]).wf = false
      ∧ (Instr.fabricTransaction [{ master := 0, addr := 0, len := 0, write := false, data := [] }]).wf = false
      ∧ (Instr.fabricTransaction [{ master := 0, addr := 0, len := 2, write := true, data := [0] }]).wf = false
      ∧ (Instr.scratchpadAccess [{ rank := 0, addr := 0, op := 2, data := 0, be := 255 }] .clean).wf = false
      ∧ (Instr.scratchpadAccess [{ rank := 64, addr := 4, op := 0, data := 0, be := 255 }] .clean).wf = false
      ∧ (Instr.scratchpadAccess [{ rank := 64, addr := 0, op := 4, data := 0, be := 255 }] .clean).wf = false
      ∧ (Instr.counterLowRead .host 0x4000000).wf = false ∧ (Instr.counterLowRead .host 2).wf = true
      ∧ (Instr.registerWrite .host 0x4000000 4 0).wf = false ∧ (Instr.registerWrite .host 0x3FFFFFC 4 0).wf = true
      ∧ (Instr.apertureTlpArrival 0 0 []).wf = false ∧ (Instr.apertureTlpArrival 0x3FFFFFFF8 0 (leBytes 9 0)).wf = false
      ∧ (Instr.apertureTlpArrival 0x3FFFFFFF8 0 (leBytes 8 0)).wf = true ∧ (Instr.apertureTlpArrival 0 8 [0]).wf = false
      ∧ (Instr.decodeRunStart 0 0 0 [{ after := 0, desc := 3, off := 0, data := [0] }]).wf = false
      ∧ (Instr.decodeRunStart 0 0 0 [{ after := 0, desc := 2, off := 0, data := [] }]).wf = false
      ∧ (Instr.residueMismatch 27 0 7).wf = false ∧ (Instr.residueMismatch 27 0 6).wf = true
          ∧ (Instr.configurationRequest (.setBar 6 0)).wf = false := by
  decide

/-- Registers, sources and codes past their number. -/
theorem smoke_registers :
    (Instr.faultEvent [{ src := 512, unit := 0 }]).wf = false ∧ (Instr.faultEvent [{ src := 0, unit := 256 }]).wf = false
      ∧ (Instr.irqEvent 1024 true).wf = false ∧ (Instr.irqDelivery 68).wf = false ∧ (Instr.unitBoundary 59).wf = false
      ∧ (Instr.fuseBurnOwner (2 ^ 32)).wf = false ∧ (Instr.fabUnfreeze 256).wf = false ∧ (Instr.decFeed 64 false 0).wf = false
      ∧ (Instr.decRelease 0 32).wf = false ∧ (Instr.dmaFifoFlush 1024).wf = false ∧ (Instr.irqHostAck 64).wf = false
      ∧ (Instr.irqSrcCfg 1024 0).wf = false ∧ (Instr.msixMask (.vector 64 true)).wf = false ∧ (Instr.fltForce 16 0).wf = false
      ∧ (Instr.fltAck 512).wf = false ∧ (Instr.pwrIslReq 59 0).wf = false ∧ (Instr.smbReadSensorTj 256).wf = false
      ∧ (Instr.smbUnknownCommand 256 1).wf = false := by
  decide

/-! ### Values that the spec works out -/

set_option maxRecDepth 4000 in
/-- Chapter 0: the CRC-32C of the nine ASCII bytes "123456789" is 0xE306_9283. -/
theorem test_crc32c : crc32c [0x31, 0x32, 0x33, 0x34, 0x35, 0x36, 0x37, 0x38, 0x39] = 0xE3069283 := by decide

/-- Chapters 0 and 5: the sheaves of a picture, and the pixels of the last one (the table of R117's worked example). -/
theorem test_sheaves :
    sheavesOf 720 = 12 ∧ sheavesOf 1080 = 17 ∧ sheavesOf 2160 = 34 ∧ sheavesOf 4320 = 68 ∧ sheafPix cls1 1920 1080 0 0 = 122880
      ∧ sheafPix cls1 1920 1080 0 16 = 107520 ∧ sheafPix { cls1 with base := { cls1.base with lanes := 2 } } 7680 4320 0 67 = 122880 := by
  decide

/-- R207: at 60 frames per second frame 1 is 1,500 ticks after frame 0. -/
theorem test_rtp_time : rtpTime cls1 {} 1 = 1500 := by decide

/-- A two-lane session of width 7,680: the left part covers columns 0 to 3,839 (chapter 7). -/
theorem test_parts :
    let c : Machine.Class := { cls1 with base := { cls1.base with lanes := 2 } }
    partLeft c 7680 0 = 0 ∧ partRight c 7680 0 = 3840 ∧ partLeft c 7680 1 = 3840 ∧ partRight c 7680 1 = 7680 := by
  decide

/-- A class with the master rate of 20 Mbit/s and 60 frames per second (chapter 8's worked example). -/
def cls20 : Machine.Class := { cls1 with base := { cls1.base with rate := 2 } }

/-- Exhaustion in reference mix A: the ledger at frame open, and the kind of the sheaf at each `left` (R219, R222). -/
theorem test_exhaustion :
    let l := openLedger cls20 20000 false {}
    let k (left : Int) := sheafKind { l with left := left }
    fpsOf 2 = 60 ∧ l.left = 333333 ∧ l.slack = 41666 ∧ k 12000 = .normal ∧ k (-18000) = .lean ∧ k (-38000) = .lean ∧ k (-47000) = .allSkip
      ∧ (openLedger cls20 20000 false { l with debt := 47200 }).left = 286133
      ∧ (openLedger cls20 20000 false { l with debt := 47200 }).debt = 0 := by
  decide

/-- The worked example of R326: the shaper of a spectator of reference mix A across a rate change in debt. -/
theorem test_shaper :
    let v : Shaper := { rate := 12000, burst := 64, dropAt := 128, credit := -6144000, last := 0 }
    let a := v.update 1000
    let b := a.charge 1282
    let c := b.update 9000
    a.credit = -4608000 ∧ a.layerDrop = false ∧ a.wait = 3000 ∧ b.credit = -5920768 ∧ c.credit = 4194304 ∧ c.wait = 0
      ∧ (c.charge 1282).credit = 2881536 := by
  decide

/-- R393: at depth 0 a small FIFO's pop finds nothing while the push lands; a full large one frees its slot for the push, and without the
pop the push does not land. -/
theorem test_fifo_push_meets_pop :
    (({} : Fifo).cycle false 32 { pop := true, push := some (5, false) }).1 = 0
      ∧ (({} : Fifo).cycle false 32 { pop := true, push := some (5, false) }).2.words = [(5, false)]
      ∧ (({ words := [(5, false)] } : Fifo).cycle false 32 { pop := true }).1 = BitVec.ofNat 512 (2 ^ 63 + 5)
      ∧ (({ words := [(5, true)] } : Fifo).cycle true 1 { pop := true, push := some (7, true) }).2.words = [(7, true)]
      ∧ (({ words := [(5, true)] } : Fifo).cycle true 1 { push := some (7, true) }).2 = { words := [(5, true)], ovf := true } := by
  decide +kernel

/-- R391: a flush in the middle of an item has the rest of it discarded, its END word too; the next word lands. -/
theorem test_fifo_flush_cuts_item :
    let v := (({ words := [(5, false)], mid := true } : Fifo).cycle true 8 { flush := true }).2
    let u := (v.cycle true 8 { push := some (6, true) }).2
    v.words = [] ∧ u.words = [] ∧ (u.cycle true 8 { push := some (7, true) }).2.words = [(7, true)] := by
  decide +kernel

/-- R442, R440: with both copies of its byte lost, a source of table level RECORD takes the device to SAFE. -/
theorem test_lost_reaction_byte :
    let s : State := { runSt with flt := { installed := true } }
    let t := resState s (execFaultEvent [{ src := 0x173, unit := 0, hit := .bothCopies 0x17C }] s)
    t.fltLevel 0x17C = 3 ∧ t.fltLevel 0x17D = 0 := by
  decide

/-- R455, R495: at step 3 of R51 a marigold entry with no valid copy has its unit retired, with a record of source 0x1FF. -/
theorem test_ledger_entry_lost :
    let s : State := { runSt with glb := { runSt.glb with st := .load } }
    let t := resState s (execFaultEvent [{ src := 0x17A, unit := 0, hit := .entry 7 }] s)
    (t.unit 7).st = .retired ∧ (t.led.records.map fun r => r.src) = [0x1FF] := by
  decide

end Sys2Proof.Tests
end

section
/-!
SUPPORT. The reset state, and what a DEV reset leaves (R21, R36, R42, R69, R87).
-/

namespace Sys2Proof.Machine

/-- Settles O56: the reset state holds nothing, so each invariant is read off it. -/
theorem resetMeetsInvariants : Obligations.ResetMeetsInvariants := by
  unfold Obligations.ResetMeetsInvariants
  have hfuses : State.reset.FusesHold := by simp [State.FusesHold, State.reset]
  have hflash : State.reset.flashHeld := ⟨rfl, fun o h => nomatch h⟩
  exact ⟨rfl, hfuses, rfl, hflash, rfl, rfl, rfl⟩

section
variable {s : State}

theorem State.cutBurn_of_none (h : s.sec.burn = none) : s.cutBurn = s := by simp [State.cutBurn, h]

theorem State.cutFlash_of_none (h : s.flashOp = none) : s.cutFlash = s := by simp [State.cutFlash, h]

theorem State.cutLedger_of_none (h : s.led.writing = none) : s.cutLedger = s := by simp [State.cutLedger, h]

/-- The cause that stands, read from the device's state before the reset (R42). -/
theorem Glb.causeOf_eq (g : Glb) (cause now : Nat) :
    g.causeOf cause now = if g.st ≠ .reset then cause else if g.causeAt = now then min g.cause cause else g.cause := by
  by_cases h : g.st = .reset <;> simp [Glb.causeOf, h]

/-- A low level of 340 ns or longer always passes the filter of the reset pins (R41). -/
theorem State.passes_long {n : Nat} (h : 340 ≤ n) : s.passes n = (true, s) := by simp [State.passes, h]

/-- A DEV reset that cuts off no burn and no flash operation clears the device and records its cause. -/
theorem State.devReset_of_idle (hb : s.sec.burn = none) (hf : s.flashOp = none) (cause : Nat) :
    s.devReset cause = { s.clearDev with glb := { s.clearDev.glb with
      cause := if s.glb.st ≠ .reset then cause else if s.glb.causeAt = s.time.aon then min s.glb.cause cause else s.glb.cause
      causeAt := if s.glb.st = .reset then s.glb.causeAt else s.time.aon } } := by
  unfold State.devReset
  rw [State.cutBurn_of_none hb, State.cutFlash_of_none hf, Glb.causeOf_eq]

end

/-- Settles O2: with no burn, flash operation or ledger write to cut off, each cause's command is `devReset` and its own pins. -/
theorem devResetLeaves : Obligations.DevResetLeaves := by
  unfold Obligations.DevResetLeaves
  intro s n r hburn hflash left
  refine ⟨fun hlong => ?resetN, fun hlong => ?perstN, fun hpend => ?restart, fun hled => ?power⟩
  case resetN =>
    simp only [exec, execResetNAssert, State.passes_long hlong, State.devReset_of_idle hburn hflash]
    rfl
  case perstN =>
    simp only [exec, execPerstNAssert, State.passes_long hlong, State.devReset_of_idle hburn hflash]
    rfl
  case restart =>
    simp only [exec, execRestartEnterReset, hpend, State.devReset_of_idle hburn hflash]
    rfl
  case power =>
    have hsettled : { s.led with writing := none } = s.led := by rw [← hled]
    by_cases hr : r = .vddAon
    · simp only [exec, execRailBelowThreshold, hr, if_true, State.cutLedger_of_none hled, State.powerOn,
        State.devReset_of_idle hburn hflash, State.clearDev, hsettled]
      rfl
    · simp only [exec, execRailBelowThreshold, hr, if_false, State.powerOn,
        State.devReset_of_idle hburn hflash, State.clearDev, hsettled]
      rfl

end Sys2Proof.Machine
end

section
/-!
SUPPORT. What an event of a fault source leaves (R439 to R444): the entry into SAFE, the levels of a reaction, and the sticky bit
through FAILOVER.
-/

namespace Sys2Proof.Machine

/-! ### Folds -/

/-- What every step of a fold leaves, the fold leaves. -/
theorem foldl_keeps {α β : Type} (g : State → β) {f : State → α → State} (h : ∀ s a, g (f s a) = g s) (l : List α) (s : State) :
    g (l.foldl f s) = g s := by
  induction l generalizing s with
  | nil => rfl
  | cons a l ih => rw [List.foldl_cons, ih, h]

/-! ### The entry into SAFE (R18, R444) -/

/-- A state without what the entry into SAFE changes beyond the device's state: gates and frames, the stacks, a swap under way,
interrupts, the mailbox and its line. -/
def State.calm (s : State) : State :=
  { s with egr := {}, ing := {}, hbm := {}, rep := {}, irq := {}, mbx := {}, bar2 := [], flt := { s.flt with line := [] } }

section
variable (s : State)

@[simp] theorem State.irqEvent_calm (n : Nat) : (s.irqEvent n).calm = s.calm := by rw [State.irqEvent_frame]; rfl

@[simp] theorem State.irqEvent_flt (n : Nat) : (s.irqEvent n).flt = s.flt := by rw [State.irqEvent_frame]

@[simp] theorem State.sendPfc_calm (p m q : Nat) : (s.sendPfc p m q).calm = s.calm := by rw [State.sendPfc_frame]; rfl

@[simp] theorem State.completeJob_calm (h : CmdHdr) (st : Status) : (s.completeJob h st).calm = s.calm := by
  rw [State.completeJob_frame]; rfl

@[simp] theorem State.post_calm (c : Cpl) : (s.post c).calm = s.calm := by rw [State.post_frame]; rfl

@[simp] theorem State.stacksRest_calm : s.stacksRest.calm = s.calm :=
  foldl_keeps State.calm (fun s k => by dsimp only; split <;> rfl) _ s

@[simp] theorem State.swapDenied_calm : s.swapDenied.calm = s.calm := by
  unfold State.swapDenied
  split
  · rfl
  · split
    · rfl
    · exact State.completeJob_calm _ _ _

@[simp] theorem State.fetchOne_calm : s.fetchOne.calm = s.calm := by
  unfold State.fetchOne
  dsimp only
  split
  · rfl
  · exact State.post_calm _ _

@[simp] theorem State.fetchUpTo_calm (n : Nat) (s : State) : (State.fetchUpTo n s).calm = s.calm := by
  induction n generalizing s with
  | zero => rfl
  | succ n ih =>
    unfold State.fetchUpTo
    split
    · rw [ih, State.fetchOne_calm]
    · rfl

@[simp] theorem State.fetch_calm : s.fetch.calm = s.calm := State.fetchUpTo_calm _ s

/-- A RESTART of the same AON cycle keeps the device from SAFE (R18). -/
theorem State.enterSafe_restarted (hp : s.glb.restartPend = true) (ht : s.glb.restartAt = s.time.aon) : s.enterSafe = s := by
  simp [State.enterSafe, hp, ht]

/-- From TRAIN and RUN the device enters SAFE (R18, R444). -/
theorem State.enterSafe_calm (hr : ¬ (s.glb.restartPend = true ∧ s.glb.restartAt = s.time.aon))
    (hst : s.glb.st = .train ∨ s.glb.st = .run) : s.enterSafe.calm = s.safeState.calm := by
  simp [State.enterSafe, hr, hst]

/-- Of the device's own record the entry into SAFE changes the state alone. -/
theorem State.enterSafe_calm_cases : ∃ st, s.enterSafe.calm = ({ s with glb := { s.glb with st := st } } : State).calm := by
  by_cases hr : s.glb.restartPend = true ∧ s.glb.restartAt = s.time.aon
  · exact ⟨s.glb.st, by rw [State.enterSafe_restarted s hr.1 hr.2]⟩
  by_cases hst : s.glb.st = .train ∨ s.glb.st = .run
  · exact ⟨.safe, State.enterSafe_calm s hr hst⟩
  · exact ⟨s.glb.st, by simp [State.enterSafe, hr, hst]⟩

end

/-! ### Reactions (R440, R441, R451) -/

section
variable (s : State) (n : Nat) (u : Option Nat) (held mute : Bool)

/-- Before the table is installed, and for a unit out of service, an event is recorded only (R20, R451). -/
theorem State.react_recorded (h : mute = true ∨ s.flt.installed = false) : s.react n u held mute = (0, s.fltSticky n) := by
  have hc : mute = true ∨ (!(s.fltSticky n).flt.installed) = true := h.imp_right fun h => by simp [State.fltSticky, h]
  simp only [State.react, if_pos hc]

variable {s}

/-- No mark in the class: a source reacts at its table level (R440). -/
theorem State.react_tableLevel (hi : s.flt.installed = true) (hh : s.classHeld (fltClass n) = false) :
    s.react n u false false
      = if s.fltLevel n = 0 then (0, s.fltSticky n) else (s.fltLevel n, (s.fltSticky n).fltNotify n (s.fltLevel n)) := by
  have hi' : (s.fltSticky n).flt.installed = true := hi
  have hh' : (s.fltSticky n).classHeld (fltClass n) = false := hh
  have hl : (s.fltSticky n).fltLevel n = s.fltLevel n := rfl
  simp [State.react, hi', hh', hl]

/-- A mark in the class: a source reacts one level above its table level, and the escalation is counted (R441). -/
theorem State.react_escalated (hi : s.flt.installed = true) (hh : s.classHeld (fltClass n) = true) :
    s.react n u held false
      = (min 3 (s.fltLevel n + 1), ((s.fltSticky n).fltEscalated).fltNotify n (min 3 (s.fltLevel n + 1))) := by
  have hi' : (s.fltSticky n).flt.installed = true := hi
  have hh' : (s.fltSticky n).classHeld (fltClass n) = true := hh
  have hl : (s.fltSticky n).fltLevel n = s.fltLevel n := rfl
  simp [State.react, hi', hh', hl]

variable (s)

/-- An interrupt's event does not look at the fault collector. -/
theorem State.irqEvent_withFlt (f : Flt) (m : Nat) :
    ({ s with flt := f } : State).irqEvent m = { s.irqEvent m with flt := f } := by
  unfold State.irqEvent
  have hs : ({ s with flt := f } : State).stopped = s.stopped := rfl
  rw [hs]
  split <;> rfl

/-- The source's mark is set. -/
def State.fltMark (s : State) (n : Nat) : State := { s with flt := { s.flt with mark := s.flt.mark.set false n true } }

/-- The reaction from NOTIFY up: a mark, the interrupt of the source's number and, at SAFE, the entry into it (R440). -/
theorem State.fltNotify_eq (l : Nat) : s.fltNotify n l
    = if l = 3 then ((s.fltMark n).irqEvent (irqFlt n)).enterSafe else (s.fltMark n).irqEvent (irqFlt n) := by
  have h : ({ s.irqEvent (irqFlt n) with flt := { (s.irqEvent (irqFlt n)).flt with
      mark := (s.irqEvent (irqFlt n)).flt.mark.set false n true } } : State) = (s.fltMark n).irqEvent (irqFlt n) := by
    rw [State.irqEvent_flt]
    exact (State.irqEvent_withFlt s _ _).symm
  unfold State.fltNotify
  dsimp only
  rw [h]

/-- What a reaction does: it records the event, and above RECORD it notifies; the table stays as installed. -/
theorem State.react_cases : ∃ f : Flt, f.installed = s.flt.installed
    ∧ ((s.react n u held mute).2 = { s with flt := f }
      ∨ ∃ l, (s.react n u held mute).2 = ({ s with flt := f } : State).fltNotify n l) := by
  unfold State.react
  dsimp only
  split
  · exact ⟨(s.fltSticky n).flt, rfl, .inl rfl⟩
  · split
    · split
      · exact ⟨(s.fltSticky n).fltEscalated.flt, rfl, .inl rfl⟩
      · exact ⟨(s.fltSticky n).fltEscalated.flt, rfl, .inr ⟨_, rfl⟩⟩
    · split
      · exact ⟨(s.fltSticky n).flt, rfl, .inl rfl⟩
      · exact ⟨(s.fltSticky n).flt, rfl, .inr ⟨_, rfl⟩⟩

/-- Beyond the collector a notification can take the device to SAFE, and no more. -/
theorem State.fltNotify_calm (l : Nat) :
    ∃ st, (s.fltNotify n l).calm = ({ s.fltMark n with glb := { s.glb with st := st } } : State).calm := by
  rw [State.fltNotify_eq]
  split
  · obtain ⟨st, h⟩ := State.enterSafe_calm_cases ((s.fltMark n).irqEvent (irqFlt n))
    refine ⟨st, h.trans ?_⟩
    rw [State.irqEvent_frame]
    rfl
  · exact ⟨s.glb.st, State.irqEvent_calm _ _⟩

/-- Beyond the collector a reaction can take the device to SAFE, and no more; the table stays as installed. -/
theorem State.react_calm : ∃ st f, f.installed = s.flt.installed
    ∧ (s.react n u held mute).2.calm = ({ s with glb := { s.glb with st := st }, flt := f } : State).calm := by
  obtain ⟨f, hf, h | ⟨l, h⟩⟩ := State.react_cases s n u held mute
  · exact ⟨s.glb.st, f, hf, by rw [h]⟩
  · obtain ⟨st, hst⟩ := State.fltNotify_calm ({ s with flt := f } : State) n l
    exact ⟨st, (({ s with flt := f } : State).fltMark n).flt, hf, by rw [h, hst]; rfl⟩

end

/-! ### Whole events (R440, R446, R449) -/

section
variable {s : State} {n : Nat} (u : Option Nat) (held forced mute : Bool)

/-- A source that cannot rise has no event. -/
theorem State.raiseIn_held (h : s.canRise n forced = false) : s.raiseIn n u held forced mute = s := by
  simp [State.raiseIn, h]

/-- Below FAILOVER an event is its reaction. -/
theorem State.raiseIn_low {l : Nat} {t : State} (h : s.canRise n forced = true) (hr : s.react n u held mute = (l, t)) (hl : l < 2) :
    s.raiseIn n u held forced mute = t := by
  have h2 : ¬ (2 ≤ l ∧ 0x040 ≤ n ∧ n < 0x060) := by omega
  have h3 : l ≠ 2 := by omega
  simp only [State.raiseIn, h, hr, h2, h3, if_false, Bool.not_true, Bool.false_eq_true]
  split <;> rfl

/-- A gleaning mismatch asks for refreshes; beyond that an event at SAFE is its reaction (R446). -/
theorem State.raiseIn_safe {t : State} (h : s.canRise n forced = true) (hr : s.react n u held mute = (3, t)) :
    s.raiseIn n u held forced mute = if 0x040 ≤ n ∧ n < 0x060 then t.gleanRefresh (n - 0x040) else t := by
  simp only [State.raiseIn, h, hr, Bool.not_true, Bool.false_eq_true, if_false, Nat.reduceLeDiff, true_and, Nat.reduceEqDiff]
  split <;> rfl

/-- The events of a command with one event. -/
theorem execFaultEvent_single (s : State) (e : FaultEv) : execFaultEvent [e] s
    = .next ((s.faultHit e).raiseIn e.src (some e.unit) false) := by
  simp only [execFaultEvent, State.raiseAll, List.foldr, insEv, List.foldl]
  rfl

/-- An event that names no error behind it is the event alone. -/
theorem exec_faultEvent_plain (s : State) (n v : Nat) :
    exec (.faultEvent [{ src := n, unit := v }]) s = .next (s.raiseIn n (some v) false) :=
  execFaultEvent_single s { src := n, unit := v }

end

/-- A refresh request concerns rate control alone. -/
theorem State.refreshReq_frame (s : State) (ch : Nat) (now : Bool) :
    s.refreshReq ch now = { s with rc := (s.refreshReq ch now).rc } := by
  unfold State.refreshReq
  dsimp only
  repeat' split
  all_goals rfl

theorem State.gleanRefresh_flt (s : State) (k : Nat) : (s.gleanRefresh k).flt = s.flt := by
  unfold State.gleanRefresh
  split
  · rfl
  · exact foldl_keeps State.flt (fun s ch => by rw [State.refreshReq_frame]) _ s

theorem State.gleanRefresh_glb (s : State) (k : Nat) : (s.gleanRefresh k).glb = s.glb := by
  unfold State.gleanRefresh
  split
  · rfl
  · exact foldl_keeps State.glb (fun s ch => by rw [State.refreshReq_frame]) _ s

end Sys2Proof.Machine
end

section
/-!
SUPPORT. Sticky bits through FAILOVER: the moves of units leave the fault collector alone, but for a move that fails, which is an
event of its own.
-/

namespace Sys2Proof.Machine

variable (s : State)

/-! ### Operations that leave the fault collector as it is -/

@[simp] theorem State.coreIdle_flt (k : Nat) (v : Option Nat) : (s.coreIdle k v).flt = s.flt := rfl
@[simp] theorem State.putPend_flt (ch p : Nat) (x : ShId) : (s.putPend ch p x).flt = s.flt := rfl
@[simp] theorem State.countMove_flt (u : Nat) : (s.countMove u).flt = s.flt := rfl
@[simp] theorem State.setUnitSt_flt (u : Nat) (st : UnitSt) : (s.setUnitSt u st).flt = s.flt := rfl
@[simp] theorem State.gatherCut_flt (k : Nat) : (s.gatherCut k).flt = s.flt := rfl
@[simp] theorem State.setOrder_flt (p : Nat) (l : List Retire) : (s.setOrder p l).flt = s.flt := rfl
@[simp] theorem State.countClass_flt (c : Nat) : (s.countClass c).flt = s.flt := rfl
@[simp] theorem State.ringPut_flt (x : Nat) (bs : List Byte) : (s.ringPut x bs).flt = s.flt := rfl
@[simp] theorem State.announce_flt (a : Announce) : (s.announce a).flt = s.flt := rfl
@[simp] theorem State.retire_flt (u src : Nat) : (s.retire u src).flt = s.flt := by rw [State.retire_frame]
@[simp] theorem State.quarantine_flt (u src : Nat) : (s.quarantine u src).flt = s.flt := by rw [State.quarantine_frame]
@[simp] theorem State.fifoEval_flt (f : Nat) : (s.fifoEval f).flt = s.flt := by rw [State.fifoEval_frame]
@[simp] theorem State.queueExc_flt (p : ExcPkt) : (s.queueExc p).flt = s.flt := by rw [State.queueExc_frame]
@[simp] theorem State.packetExc_flt (k r : Nat) (c : PeCtx) : (s.packetExc k r c).flt = s.flt := by rw [State.packetExc_frame]

@[simp] theorem State.fabCancel_flt (m : Nat) : (s.fabCancel m).flt = s.flt := by
  unfold State.fabCancel
  exact foldl_keeps State.flt (f := fun s (r : FabReq) => s.fabRespond r.master true []) (fun _ _ => rfl) _ _

@[simp] theorem State.dropRun_flt (l v : Nat) : (s.dropRun l v).flt = s.flt := by
  unfold State.dropRun
  dsimp only
  repeat' split
  all_goals rfl

@[simp] theorem State.dropDecRun_flt (l : Nat) : (s.dropDecRun l).flt = s.flt := by
  unfold State.dropDecRun
  dsimp only
  split <;> rfl

/-! A parse engine that leaves service ends its packet, whose consumer takes it (R290, R453). -/

@[simp] theorem State.queueUnit_flt (x len ts : Nat) (loss : Bool) : (s.queueUnit x len ts loss).flt = s.flt := by
  unfold State.queueUnit
  dsimp only
  split <;> rfl

@[simp] theorem State.endAu_flt (x : Nat) : (s.endAu x).flt = s.flt := by
  unfold State.endAu
  dsimp only
  split
  · rfl
  · split
    · rfl
    · split <;> simp

@[simp] theorem State.passRtp_flt (x : Nat) (q : RtpHeld) : (s.passRtp x q).flt = s.flt := by
  unfold State.passRtp
  dsimp only
  repeat' split
  all_goals simp

@[simp] theorem State.drainRtp_flt (n x : Nat) (s : State) : (State.drainRtp n x s).flt = s.flt := by
  induction n generalizing s with
  | zero => rfl
  | succ n ih =>
    unfold State.drainRtp
    split
    · rfl
    · split
      · rfl
      · rw [ih, State.passRtp_flt, State.setDcx_flt]

@[simp] theorem State.loseRtp_flt (x : Nat) : (s.loseRtp x).flt = s.flt := by
  unfold State.loseRtp
  dsimp only
  repeat' split
  all_goals simp

@[simp] theorem State.rtpArrive_flt (x : Nat) (bs : List Byte) : (s.rtpArrive x bs).flt = s.flt := by
  unfold State.rtpArrive
  dsimp only
  repeat' split
  all_goals simp

@[simp] theorem State.setLock_flt (v : Nat) : (s.setLock v).flt = s.flt := by
  unfold State.setLock
  split
  · rfl
  · exact State.irqEvent_flt _ _

@[simp] theorem State.ptpOffset_flt (off : Int) : (s.ptpOffset off).flt = s.flt := by
  unfold State.ptpOffset
  dsimp only
  repeat' split
  all_goals simp

@[simp] theorem State.ptpMessage_flt (p ts : Nat) (m : PtpMsg) : (s.ptpMessage p ts m).flt = s.flt := by
  unfold State.ptpMessage
  dsimp only
  repeat' split
  all_goals simp

@[simp] theorem State.vftPush_flt (p : Nat) (q : VftPkt) : (s.vftPush p q).flt = s.flt := by
  unfold State.vftPush
  dsimp only
  split
  · rfl
  · rw [State.fifoEval_flt]
    split <;> split <;> rfl

@[simp] theorem State.consume_flt (k : Nat) (e : PeEnd) (c : PeCtx) : (s.consume k e c).flt = s.flt := by
  unfold State.consume
  dsimp only
  repeat' split
  all_goals simp

@[simp] theorem State.retirePort_flt (p : Nat) : (s.retirePort p).flt = s.flt := by
  unfold State.retirePort
  exact foldl_keeps State.flt (fun s (r : Retire) => by split <;> simp) _ _

@[simp] theorem State.peFinish_flt (k : Nat) (e : PeEnd) : (s.peFinish k e).flt = s.flt := by
  simp [State.peFinish]

/-! ### Sticky bits -/

/-- Every sticky bit that is set in `s` is set in `t`. -/
def State.StickyIn (s t : State) : Prop := ∀ n, s.flt.sticky.get false n = true → t.flt.sticky.get false n = true

variable {s}

theorem State.StickyIn.of_flt {t : State} (h : t.flt = s.flt) : s.StickyIn t := fun n hn => by rw [h]; exact hn

theorem State.StickyIn.trans {t u : State} (h : s.StickyIn t) (h' : t.StickyIn u) : s.StickyIn u := fun n hn => h' n (h n hn)

variable (s)

/-- An event sets its sticky bit, and clears none (R439). -/
theorem State.react_sets (n : Nat) (u : Option Nat) (held mute : Bool) :
    (s.react n u held mute).2.flt.sticky.get false n = true := by
  rw [State.react_sticky]; exact Tbl.get_set_ne false _ n true (by decide)

theorem State.react_stickyIn (n : Nat) (u : Option Nat) (held mute : Bool) : s.StickyIn (s.react n u held mute).2 := by
  intro m hm
  by_cases h : m = n
  · rw [h]; exact State.react_sets s n u held mute
  · rw [State.react_sticky, Tbl.get_set_other false _ true (by decide) h]; exact hm

theorem State.raiseBasic_stickyIn (n : Nat) : s.StickyIn (s.raiseBasic n) := by
  unfold State.raiseBasic
  split
  · exact State.react_stickyIn s n none false _
  · exact .of_flt rfl

/-- An operation that leaves the collector, and then finds no spare. -/
theorem State.StickyIn.moveFails {t : State} (h : t.flt = s.flt) : s.StickyIn (t.raiseBasic srcMoveFail) :=
  (StickyIn.of_flt h).trans (State.raiseBasic_stickyIn t _)

theorem State.seekEnc_stickyIn (l : Nat) : s.StickyIn (s.seekEnc l) := by
  unfold State.seekEnc
  dsimp only
  split
  · exact .of_flt rfl
  · exact .moveFails s rfl

theorem State.seekDec_stickyIn (l : Nat) : s.StickyIn (s.seekDec l) := by
  unfold State.seekDec
  dsimp only
  split
  · exact .of_flt rfl
  · exact .moveFails s rfl

theorem State.failEnc_stickyIn (k src : Nat) : s.StickyIn (s.failEnc k src) := by
  unfold State.failEnc
  split
  · exact (StickyIn.of_flt (by simp)).trans (State.seekEnc_stickyIn _ _)
  · dsimp only
    split
    · exact (StickyIn.of_flt (by simp)).trans (State.seekEnc_stickyIn _ _)
    · exact .of_flt (by simp)

theorem State.failDec_stickyIn (k src : Nat) : s.StickyIn (s.failDec k src) := by
  unfold State.failDec
  split
  · exact (StickyIn.of_flt (by simp)).trans (State.seekDec_stickyIn _ _)
  · dsimp only
    split
    · exact (StickyIn.of_flt (by simp)).trans (State.seekDec_stickyIn _ _)
    · exact .of_flt (by simp)

theorem State.failStw_stickyIn (u src : Nat) : s.StickyIn (s.failStw u src) := by
  unfold State.failStw
  dsimp only
  split
  · exact .of_flt (by simp)
  · exact .moveFails s (by simp)

theorem State.failDma_stickyIn (u src : Nat) : s.StickyIn (s.failDma u src) := by
  unfold State.failDma
  dsimp only
  split
  · refine .of_flt ?_
    repeat' split
    all_goals simp
  · refine .moveFails s ?_
    repeat' split
    all_goals simp

theorem State.failPe_stickyIn (u src : Nat) : s.StickyIn (s.failPe u src) := by
  unfold State.failPe
  dsimp only
  split
  · refine .of_flt ?_
    split <;> simp
  · refine .moveFails s ?_
    split <;> simp

theorem State.failSrtp_stickyIn (u src : Nat) : s.StickyIn (s.failSrtp u src) := by
  unfold State.failSrtp
  dsimp only
  split
  · exact .of_flt (by simp)
  · exact .of_flt (by simp)
  · exact .moveFails s (by simp)
  · exact .moveFails s (by simp)

theorem State.failLane_stickyIn (u src : Nat) : s.StickyIn (s.failLane u src) := by
  unfold State.failLane
  dsimp only
  cases s.img.net.ports[(u - 241) / 5]? with
  | none => exact .of_flt rfl
  | some b =>
    dsimp only
    split
    · exact .of_flt rfl
    · split
      · exact .moveFails s rfl
      · split
        · split
          · exact .of_flt rfl
          · split
            · exact .of_flt rfl
            · exact .moveFails s rfl
        · exact .of_flt (by simp)

theorem State.failPc_stickyIn (u src : Nat) : s.StickyIn (s.failPc u src) := by
  unfold State.failPc
  dsimp only
  split
  · exact .of_flt rfl
  · split
    case _ =>
      split
      · exact .moveFails s rfl
      · exact .of_flt rfl
    case _ => exact .of_flt rfl
    case _ =>
      split
      · exact .of_flt rfl
      · exact .of_flt (by simp)

/-- FAILOVER clears no sticky bit, whatever the kind of the unit (R449). -/
theorem State.failover_stickyIn (kind : FoKind) (u src : Nat) : s.StickyIn (s.failover kind u src) := by
  unfold State.failover
  split
  · exact State.failEnc_stickyIn s u src
  · exact State.failDec_stickyIn s (u - 32) src
  · exact State.failPc_stickyIn s u src
  · split
    · split <;> exact .of_flt (by simp)
    · split
      · exact State.failStw_stickyIn s u src
      · exact State.failDma_stickyIn s u src
      · exact State.failPe_stickyIn s u src
      · exact State.failSrtp_stickyIn s u src
      · exact State.failLane_stickyIn s u src
      · exact .of_flt rfl
    · exact .of_flt rfl

/-- An event sets its sticky bit, whatever its reaction (R439). -/
theorem State.raiseIn_sets {n : Nat} (u : Option Nat) (held forced mute : Bool) (h : s.canRise n forced = true) :
    (s.raiseIn n u held forced mute).flt.sticky.get false n = true := by
  have hset := State.react_sets s n u held mute
  have hglean (t : State) (ht : t.flt.sticky.get false n = true) (c : Prop) [Decidable c] :
      (if c then t.gleanRefresh (n - 0x040) else t).flt.sticky.get false n = true := by
    split
    · rw [State.gleanRefresh_flt]; exact ht
    · exact ht
  simp only [State.raiseIn, h, Bool.not_true, Bool.false_eq_true, if_false]
  split
  · split
    · exact State.failover_stickyIn _ _ _ _ n (hglean _ hset _)
    · exact hglean _ hset _
  · exact hglean _ hset _

end Sys2Proof.Machine
end

section
/-!
SUPPORT. One event of a fault source, level by level (R440 to R444).
-/

namespace Sys2Proof.Machine

section
variable {s : State} {n v : Nat}

/-- An event of a source that reacts at RECORD, or of a unit out of service, sets sticky alone (R20, R440, R451). -/
theorem State.raiseIn_recorded (hc : s.canRise n = true)
    (h : s.muted (fltUnit n (some v)) = true ∨ s.flt.installed = false) : s.raiseIn n (some v) false = s.fltSticky n :=
  State.raiseIn_low _ _ _ _ hc (State.react_recorded s n _ _ _ h) (by decide)

/-- A source of table level RECORD, with no mark in its class (R440). -/
theorem State.raiseIn_record (hc : s.canRise n = true) (hi : s.flt.installed = true) (hm : s.muted (fltUnit n (some v)) = false)
    (hh : s.classHeld (fltClass n) = false) (hl : s.fltLevel n = 0) : s.raiseIn n (some v) false = s.fltSticky n := by
  rw [hm]
  exact State.raiseIn_low _ _ _ _ hc (by rw [State.react_tableLevel n _ hi hh, if_pos hl]) (by decide)

/-- A source of table level NOTIFY, with no mark in its class (R440). -/
theorem State.raiseIn_notify (hc : s.canRise n = true) (hi : s.flt.installed = true) (hm : s.muted (fltUnit n (some v)) = false)
    (hh : s.classHeld (fltClass n) = false) (hl : s.fltLevel n = 1) :
    s.raiseIn n (some v) false = (s.fltSticky n).fltNotify n 1 := by
  rw [hm]
  exact State.raiseIn_low _ _ _ _ hc (by rw [State.react_tableLevel n _ hi hh, hl]; rfl) (by decide)

/-- A source of table level RECORD in a class that holds a mark reacts at NOTIFY (R441). -/
theorem State.raiseIn_escalated (hc : s.canRise n = true) (hi : s.flt.installed = true)
    (hm : s.muted (fltUnit n (some v)) = false) (hh : s.classHeld (fltClass n) = true) (hl : s.fltLevel n = 0) :
    s.raiseIn n (some v) false = ((s.fltSticky n).fltEscalated).fltNotify n 1 := by
  rw [hm]
  exact State.raiseIn_low _ _ _ _ hc (by rw [State.react_escalated n _ _ hi hh, hl]; rfl) (by decide)

/-- A source of table level SAFE, with no mark in its class, takes the device to SAFE (R440, R444). -/
theorem State.raiseIn_tableSafe (hc : s.canRise n = true) (hi : s.flt.installed = true)
    (hm : s.muted (fltUnit n (some v)) = false) (hh : s.classHeld (fltClass n) = false) (hl : s.fltLevel n = 3) :
    (s.raiseIn n (some v) false).glb = (((s.fltSticky n).fltMark n).irqEvent (irqFlt n)).enterSafe.glb
      ∧ (s.raiseIn n (some v) false).flt = (((s.fltSticky n).fltMark n).irqEvent (irqFlt n)).enterSafe.flt := by
  have hr : s.react n (some v) false false = (3, (((s.fltSticky n).fltMark n).irqEvent (irqFlt n)).enterSafe) := by
    rw [State.react_tableLevel n _ hi hh, hl, State.fltNotify_eq]; rfl
  rw [hm, State.raiseIn_safe _ _ _ _ hc hr]
  split
  · exact ⟨State.gleanRefresh_glb _ _, State.gleanRefresh_flt _ _⟩
  · exact ⟨rfl, rfl⟩

/-- The device enters SAFE in RUN: its state becomes SAFE, and every mark stays, unless a RESTART executed in the same cycle. -/
theorem State.enterSafe_run (hrun : s.glb.st = .run) (hr : s.glb.restartPend = false ∨ s.glb.restartAt ≠ s.time.aon) :
    s.enterSafe.glb = { s.glb with st := .safe } ∧ s.enterSafe.flt.mark = s.flt.mark := by
  have hr' : ¬ (s.glb.restartPend = true ∧ s.glb.restartAt = s.time.aon) := by
    rintro ⟨hp, ht⟩
    rcases hr with h | h
    · simp [h] at hp
    · exact h ht
  have h := State.enterSafe_calm s hr' (.inr hrun)
  exact ⟨congrArg State.glb h, congrArg (fun t => t.flt.mark) h⟩

/-- An event that finds both copies of a reaction byte at fault leaves the byte lost, and is one of PARITY beside (R442). -/
theorem State.faultHit_bothCopies (hi : s.flt.installed = true) (k : Nat) :
    s.faultHit { src := 0x173, unit := 0, hit := .bothCopies k } = { s with flt := { s.flt with lost := s.flt.lost.set false k true } } := by
  simp [State.faultHit, srcParity, hi]

end

/-- Settles O38: the reaction by the source's level, one lemma per level; `raiseIn_sets` gives the sticky bit of every event, through
FAILOVER. -/
theorem faultReactions : Obligations.FaultReactions := by
  unfold Obligations.FaultReactions
  refine ⟨fun s n u => ⟨?level, fun k hi hc => ?lost, fun hc => ?held, fun hc => ?rises⟩, fun s n u hc hi hm hh hl => ?escalated,
    fun s n u hc hi hm hh hl hrun => ?safe⟩
  case level => cases hi : s.flt.installed <;> simp [State.fltLevel, hi]
  case lost =>
    have hc' : ({ s with flt := { s.flt with lost := s.flt.lost.set false k true } } : State).canRise 0x173 = false := hc
    show execFaultEvent _ s = _
    rw [execFaultEvent_single, State.faultHit_bothCopies hi, State.raiseIn_held _ _ _ _ hc']
  case held => rw [exec_faultEvent_plain, State.raiseIn_held _ _ _ _ hc]
  case rises =>
    refine ⟨fun hi => ?_, fun hi hm => ?_, fun hi hm hh => ⟨fun hl => ?_, fun hl => ?_⟩,
      ⟨_, exec_faultEvent_plain s n u, State.raiseIn_sets s _ _ _ _ hc⟩⟩
    · rw [exec_faultEvent_plain, State.raiseIn_recorded hc (.inr hi)]; rfl
    · rw [exec_faultEvent_plain, State.raiseIn_recorded hc (.inl hm)]; rfl
    · rw [exec_faultEvent_plain, State.raiseIn_record hc hi hm hh hl]; rfl
    · rw [exec_faultEvent_plain, State.raiseIn_notify hc hi hm hh hl, State.fltNotify_eq]; rfl
  case escalated => rw [exec_faultEvent_plain, State.raiseIn_escalated hc hi hm hh hl, State.fltNotify_eq]; rfl
  case safe =>
    obtain ⟨hglb, hflt⟩ := State.raiseIn_tableSafe hc hi hm hh hl
    have hf := State.irqEvent_frame ((s.fltSticky n).fltMark n) (irqFlt n)
    refine ⟨fun hr => ⟨_, exec_faultEvent_plain s n u, ?_⟩, fun hp ht => ⟨_, exec_faultEvent_plain s n u, ?_⟩⟩
    · rw [hglb, hflt]
      obtain ⟨hg, hk⟩ := State.enterSafe_run (s := ((s.fltSticky n).fltMark n).irqEvent (irqFlt n)) (by rw [hf]; exact hrun)
        (by rw [hf]; exact hr)
      exact ⟨by rw [hg, hf]; rfl, by rw [hk, hf]; rfl⟩
    · rw [hglb, hflt, State.enterSafe_restarted _ (by rw [hf]; exact hp) (by rw [hf]; exact ht), hf]
      exact ⟨rfl, rfl⟩

end Sys2Proof.Machine
end

section
/-!
SUPPORT. What the steps of LOAD leave (R51, R53, R54, R61, R64): staging is a matter of the scratchpads, the image's frequencies one
of the islands, and a fuse error's event one of the collector.
-/

namespace Sys2Proof.Machine

variable (s : State)

/-! ### Staging -/

/-- A state without the on-chip memories, in which images are staged. -/
def State.offChip (s : State) : State := { s with chip := {} }

section
variable {s t : State} (h : t.offChip = s.offChip)
include h

theorem State.cfg_of_offChip : t.cfg = s.cfg := (congrArg State.cfg h :)
theorem State.img_of_offChip : t.img = s.img := (congrArg State.img h :)
theorem State.sec_of_offChip : t.sec = s.sec := (congrArg State.sec h :)
theorem State.flash_of_offChip : t.flash = s.flash := (congrArg State.flash h :)

end

theorem State.discardStage_offChip : s.discardStage.offChip = s.offChip := by
  unfold State.discardStage
  refine foldl_keeps State.offChip ?_ _ _
  exact fun _ _ => rfl

theorem State.spanWrite_offChip (sp : List (Nat × Nat)) (bs : List Byte) (s : State) :
    (State.spanWrite sp bs s).offChip = s.offChip := by
  induction sp generalizing bs s with
  | nil => rfl
  | cons e sp ih => exact ih _ _

theorem State.stageSlot_offChip (slot : Nat) : (s.stageSlot slot).offChip = s.offChip := State.spanWrite_offChip _ _ s

/-! ### The boot ROM's handler -/

/-- Two failed slots: the device is in LOADFAIL, and what is fetched there changes no register of CFG, nor the image (R18, R71). -/
theorem State.loadFails_leaves :
    s.loadFails.glb.st = .loadfail ∧ s.loadFails.cfg = { s.cfg with phase := 3 } ∧ s.loadFails.img = s.img := by
  have h : s.loadFails.calm = _ := State.fetch_calm
    { s with glb := { s.glb with st := .loadfail }, cfg := { s.cfg with phase := 3 }, fab := { s.fab with lock := false } }
  exact ⟨(congrArg (fun t => t.glb.st) h :), (congrArg State.cfg h :), (congrArg State.img h :)⟩

/-! ### The image takes effect -/

/-- A fold whose steps concern the islands alone concerns them alone. -/
theorem foldl_isl_frame {α : Type} {f : State → α → State} (h : ∀ s a, f s a = { s with isl := (f s a).isl }) (l : List α)
    (s : State) : l.foldl f s = { s with isl := (l.foldl f s).isl } := by
  induction l generalizing s with
  | nil => rfl
  | cons a l ih =>
    rw [List.foldl_cons, ih]
    exact congrArg (fun t => { t with isl := (l.foldl f (f s a)).isl }) (h s a)

/-- The image's frequencies concern the islands alone (R52, R470). -/
theorem State.imageFreqs_frame (fs : List Nat) : s.imageFreqs fs = { s with isl := (s.imageFreqs fs).isl } :=
  foldl_isl_frame (fun _ _ => rfl) _ s

/-- The image of a slot that passed is taken (R51, R64). -/
def State.takeImage (s : State) (slot : Nat) (i : Img) : State :=
  let h := readHeader (s.slotBytes slot 0 512)
  { s with
    cfg := { s.cfg with
      phase := 3, loaded := true, imgVer := h.ver, rotaId := h.ident
      imgHash := beBytes 64 (Config.sha512 (s.slotBytes slot 0 h.imgLen)).toNat }
    glb := { s.glb with st := .train, imgSlot := slot }
    img := i }

/-- The state on the entry into TRAIN, ahead of the event of a fuse error (R51). -/
def State.trained (s : State) (slot : Nat) (i : Img) : State :=
  (((((s.takeImage slot i).installLevels i.levels).imageFreqs i.freq).imageRegs i).startTime).drawKeys

theorem State.enterTrain_eq (slot : Nat) (i : Img) : s.enterTrain slot i
    = if (s.trained slot i).sec.sensed.eccErr then (s.trained slot i).raise srcFuse else s.trained slot i := rfl

/-- What the steps from the image to TRAIN write: the reaction table, the islands, the image's registers, time, and the keys. -/
theorem State.trained_frame (slot : Nat) (i : Img) : ∃ levels islands ingress granary clock egress draws,
    s.trained slot i = { s.takeImage slot i with
      flt := { s.flt with installed := true, level := levels }
      isl := islands
      ing := ingress
      hbm := granary
      time := { s.time with ptp := 0, latched := 0, running := true }
      ptp := clock
      sec := { s.sec with keyGen := s.free, keys := [], entries := [] }
      egr := egress
      free := draws } := by
  unfold State.trained
  rw [State.imageFreqs_frame]
  generalize (((s.takeImage slot i).installLevels i.levels).imageFreqs i.freq).isl = islands
  exact ⟨_, _, _, _, _, _, _, rfl⟩

/-- The event of a fuse error changes, beyond the collector, at most the device's state (R83). -/
theorem State.raise_srcFuse_calm : ∃ st f, f.installed = s.flt.installed
    ∧ (s.raise srcFuse).calm = ({ s with glb := { s.glb with st := st }, flt := f } : State).calm := by
  cases h : s.canRise srcFuse with
  | false => exact ⟨s.glb.st, s.flt, rfl, by rw [State.raise_held s h]⟩
  | true =>
    rw [State.raise_plain s h (by decide) (.inr (by decide))]
    exact State.react_calm s srcFuse none false _

/-- TRAIN with the image in effect; only the event of a fuse error can have taken the device on to SAFE (R51, R83). -/
theorem State.enterTrain_calm (slot : Nat) (i : Img) : ∃ st f, (st = .train ∨ s.sec.sensed.eccErr = true) ∧ f.installed = true
    ∧ (s.enterTrain slot i).calm
      = ({ s.trained slot i with glb := { (s.trained slot i).glb with st := st }, flt := f } : State).calm := by
  obtain ⟨_, _, _, _, _, _, _, ht⟩ := s.trained_frame slot i
  have hst : (s.trained slot i).glb.st = .train := by rw [ht]; rfl
  have hi : (s.trained slot i).flt.installed = true := by rw [ht]
  have he : (s.trained slot i).sec.sensed = s.sec.sensed := by rw [ht]
  rw [State.enterTrain_eq, he]
  clear ht
  generalize s.trained slot i = v at hst hi he ⊢
  cases h : s.sec.sensed.eccErr with
  | false => exact ⟨_, _, .inl hst, hi, rfl⟩
  | true =>
    obtain ⟨st, f, hf, hc⟩ := State.raise_srcFuse_calm v
    exact ⟨st, f, .inr rfl, hf.trans hi, hc⟩

/-- What the entry into TRAIN leaves, register by register (R18, R51, R64, R143). -/
theorem State.enterTrain_leaves (slot : Nat) (i : Img) :
    (∃ st, (st = .train ∨ s.sec.sensed.eccErr = true) ∧ (s.enterTrain slot i).glb = { s.glb with st := st, imgSlot := slot })
      ∧ (s.enterTrain slot i).cfg = (s.takeImage slot i).cfg ∧ (s.enterTrain slot i).img = i
      ∧ (s.enterTrain slot i).flt.installed = true
      ∧ (s.enterTrain slot i).time = { s.time with ptp := 0, latched := 0, running := true }
      ∧ (s.enterTrain slot i).sec = { s.sec with keyGen := s.free, keys := [], entries := [] }
      ∧ (s.enterTrain slot i).flash = s.flash := by
  obtain ⟨st, f, hsafe, hf, hc⟩ := s.enterTrain_calm slot i
  obtain ⟨_, _, _, _, _, _, _, ht⟩ := s.trained_frame slot i
  rw [ht] at hc
  generalize s.enterTrain slot i = t at hc ⊢
  exact ⟨⟨st, hsafe, (congrArg State.glb hc :)⟩, (congrArg State.cfg hc :), (congrArg State.img hc :),
    (congrArg (fun t => t.flt.installed) hc).trans hf, (congrArg State.time hc :), (congrArg State.sec hc :),
    (congrArg State.flash hc :)⟩

/-! ### The two outcomes of a slot -/

/-- A slot's result is recorded under its own name, and nothing else (R72). -/
theorem State.slotResult_frame (slot r : Nat) : s.slotResult slot r = { s with cfg := (s.slotResult slot r).cfg } := by
  unfold State.slotResult; split <;> rfl

@[simp] theorem State.slotResult_sec (slot r : Nat) : (s.slotResult slot r).sec = s.sec := by rw [State.slotResult_frame]
@[simp] theorem State.slotResult_flash (slot r : Nat) : (s.slotResult slot r).flash = s.flash := by rw [State.slotResult_frame]

theorem State.slotResult_result (slot r : Nat) :
    (if slot = 0 then (s.slotResult slot r).cfg.slotA else (s.slotResult slot r).cfg.slotB) = r := by
  unfold State.slotResult; split <;> rfl

section
variable {s} {slot r : Nat} {rd : FlashReads} (hst : s.glb.st = .load) (hslot : slot < 2) (hphase : s.cfg.phase = slot + 1)
include hst hslot hphase

theorem exec_slotCheck_passes {i : Img} (h : s.slotCheck slot rd = (r, some i)) :
    exec (.slotCheck slot rd) s = .next (((s.stageSlot slot).slotResult slot r).enterTrain slot i) := by
  simp [exec, execSlotCheck, hst, hslot, hphase, h]

theorem exec_slotCheck_fails (h : s.slotCheck slot rd = (r, none)) : exec (.slotCheck slot rd) s = .next (
    if slot = 1 then (s.discardStage.slotResult slot r).loadFails
    else if r = resNoFlash then ((s.discardStage.slotResult slot r).slotResult 1 r).loadFails
    else { s.discardStage.slotResult slot r with cfg := { (s.discardStage.slotResult slot r).cfg with phase := 2 } }) := by
  simp [exec, execSlotCheck, hst, hslot, hphase, h]

end

/-- Settles O8: the slot's checks decide between `enterTrain` and `loadFails`; staging touches the on-chip memories alone. -/
theorem slotChecks : Obligations.SlotChecks := by
  unfold Obligations.SlotChecks
  intro s slot rd hst hslot hphase
  refine ⟨fun k hk => ?other, ?checked⟩
  case other =>
    have hp : s.cfg.phase ≠ k + 1 := by omega
    simp [exec, execSlotCheck, hp]
  case checked =>
    rcases hcheck : s.slotCheck slot rd with ⟨r, _ | i⟩
    · have hrun := exec_slotCheck_fails hst hslot hphase hcheck
      have hcfg : s.discardStage.cfg = s.cfg := State.cfg_of_offChip s.discardStage_offChip
      have himg : s.discardStage.img = s.img := State.img_of_offChip s.discardStage_offChip
      generalize s.discardStage = d at hrun hcfg himg ⊢
      refine ⟨fun h0 hr => ?_, fun h1 => ?_, fun h0 hr => ?_⟩
      · subst h0
        rw [hrun, if_neg (by decide), if_neg hr, ← hcfg]
        rfl
      · subst h1
        obtain ⟨hload, hc, hi⟩ := (d.slotResult 1 r).loadFails_leaves
        refine ⟨_, hrun.trans (by rw [if_pos rfl]), hload, ?_, ?_⟩
        · rw [hc, ← hcfg]; rfl
        · rw [hi, ← himg]; rfl
      · subst h0 hr
        obtain ⟨hload, hc, -⟩ := ((d.slotResult 0 resNoFlash).slotResult 1 resNoFlash).loadFails_leaves
        refine ⟨_, hrun.trans (by rw [if_neg (by decide), if_pos rfl]), hload, ?_⟩
        rw [hc, ← hcfg]; rfl
    · have hrun := exec_slotCheck_passes hst hslot hphase hcheck
      have hsec : ((s.stageSlot slot).slotResult slot r).sec = s.sec :=
        (State.slotResult_sec _ slot r).trans (State.sec_of_offChip (s.stageSlot_offChip slot))
      have hflash : ((s.stageSlot slot).slotResult slot r).flash = s.flash :=
        (State.slotResult_flash _ slot r).trans (State.flash_of_offChip (s.stageSlot_offChip slot))
      have hres := (s.stageSlot slot).slotResult_result slot r
      generalize (s.stageSlot slot).slotResult slot r = w at hrun hsec hflash hres
      obtain ⟨⟨st, hsafe, tglb⟩, tcfg, timg, tflt, ttime, tsec, tflash⟩ := w.enterTrain_leaves slot i
      rw [hsec] at hsafe
      exact ⟨_, hrun, by rw [tglb]; exact hsafe, by rw [tglb], timg, by rw [tcfg]; rfl, by rw [tcfg]; rfl, tflt, by rw [ttime],
        by rw [ttime], by rw [tsec], by rw [tcfg]; exact hres, tflash.trans hflash⟩

end Sys2Proof.Machine
end

section
/-!
SUPPORT. Decode runs (R138, R258, R277, R278): how an idle lane's next entry begins, and what its run or its gleaning case leaves.
-/

namespace Sys2Proof.Machine

/-! ### Reads after writes, for values that are not the unlisted one -/

section
variable (s : State)

theorem State.setDLane_dlane_of_ne (l : Nat) {v : DLane} (h : v ≠ {}) : (s.setDLane l v).dlane l = v := Tbl.get_set_ne ({} : DLane) _ l v h

theorem State.setDec_decOf_of_ne (k : Nat) {v : DecCore} (h : v ≠ {}) : (s.setDec k v).decOf k = v := Tbl.get_set_ne ({} : DecCore) _ k v h

end

theorem DLane.ne_of_bound {v : DLane} {k : Nat} (h : v.bound = some k) : v ≠ {} := fun e => by simp [e] at h

theorem DLane.ne_of_run {v : DLane} {x : Nat} (h : v.run = some x) : v ≠ {} := fun e => by simp [e] at h

theorem DecCore.ne_of_act {v : DecCore} (h : v.act ≠ 0) : v ≠ {} := fun e => h (by rw [e])

/-- A core put to work and then counted. -/
theorem State.setDec_decCnt_decOf (s : State) (k i n : Nat) {v : DecCore} (h : v.act ≠ 0) :
    ((s.setDec k v).decCnt k i n).decOf k = { v with cnt := v.cnt.upd 0 i (cntAdd n) } := by
  have hv := State.setDec_decOf_of_ne s k (DecCore.ne_of_act h)
  unfold State.decCnt
  rw [hv]
  exact State.setDec_decOf_of_ne _ k (DecCore.ne_of_act (v := { v with cnt := v.cnt.upd 0 i (cntAdd n) }) h)

/-- No encode run waits for a sheaf-ready notice: none is woken (R171). -/
theorem State.wakeRuns_of_coded (s : State) (h : ∀ j r, (s.lane j).run = some r → r.coded.isSome = true) : s.wakeRuns = s := by
  refine List.foldl_fixed' (fun j => ?_) laneNums
  cases hr : (s.lane j).run with
  | none => rfl
  | some r =>
    have hc : r.coded.isNone = false := by simpa using h j r hr
    dsimp only
    split <;> simp [hc]

/-! ### An entry of an idle lane begins -/

section
variable {s : State} {l k : Nat}

/-- The lane's gleaning case has ended and its core is idle: the state in which the next entry of an idle lane begins (R138, R277). -/
def State.cleared (s : State) (l k : Nat) : State :=
  { s with
    rota := { s.rota with dlanes := s.rota.dlanes.set {} l { s.dlane l with glean := none } }
    dec := s.dec.set {} k { s.decOf k with act := 0 } }

theorem State.dlaneCore_eq_some : s.dlaneCore l = some k ↔ (s.dlane l).bound = some k ∧ s.decReady k = true := by
  simp [State.dlaneCore, Option.filter_eq_some_iff]

theorem State.doverrun_idle (hr : (s.dlane l).run = none) (hb : (s.dlane l).bound = some k) :
    s.doverrun l = s.cleared l k := by
  simp only [State.doverrun, State.cleared, hr, hb, Option.isSome_none, Bool.false_eq_true, if_false]
  rfl

theorem State.cleared_dlane (hb : (s.dlane l).bound = some k) : (s.cleared l k).dlane l = { s.dlane l with glean := none } :=
  State.setDLane_dlane_of_ne s l (DLane.ne_of_bound (v := { s.dlane l with glean := none }) hb)

theorem State.cleared_dlaneCore (h : s.dlaneCore l = some k) : (s.cleared l k).dlaneCore l = some k := by
  obtain ⟨hb, hk⟩ := State.dlaneCore_eq_some.mp h
  exact State.dlaneCore_eq_some.mpr ⟨by rw [State.cleared_dlane hb]; exact hb, hk⟩

/-- The rota issues the entries of a started rota in RUN, from the first slot on that a clock step left it (R144, R145). -/
theorem State.dissues_of_run {e : DecEnt} (hlen : e.len ≠ 0) (hstart : s.rota.started = true) (hst : s.glb.st = .run)
    (hnow : s.rota.notBefore ≤ s.nowSlot * slotTime) : s.dissues e = true := by
  simp [State.dissues, State.issues, hlen, hstart, hst, hnow]

/-! ### Runs -/

/-- A picture in decoding needs no other buffer (R259). -/
theorem State.starves_of_cur (s : State) (x n : Nat) (h : (s.dcxOf x).cur.isSome = true) : s.starves x n = false := by
  cases n <;> simp [State.starves, h]

variable {idx : Nat} {e : DecEnt}

/-- A RUN entry of an idle lane with a core: it is fallow without input, waits without a buffer, or decodes (R138, R258, R259). -/
theorem exec_decodeRunStart_idle (he : s.dlaneEnt l idx = some e) (hissue : s.dissues e = true) (hkind : e.kind = 0)
    (hr : (s.dlane l).run = none) (hcore : s.dlaneCore l = some k) (work : Nat) (ws : List DecWrite) :
    exec (.decodeRunStart l idx work ws) s = .next (
      if (s.dcxOf e.dcx).isOpen = false ∨ (s.dcxOf e.dcx).units = [] then (s.cleared l k).dfallow l
      else if (s.cleared l k).hostFull e.dcx || (s.cleared l k).starves e.dcx (s.ringBytes e.dcx + 2) then
        ((s.cleared l k).dfallow l).dcxCount e.dcx 6 1
      else ((s.cleared l k).decodeRun l k e.dcx work ws).wakeRuns) := by
  have hb := (State.dlaneCore_eq_some.mp hcore).1
  have hx : (s.cleared l k).dcxOf e.dcx = s.dcxOf e.dcx := rfl
  have hn : (s.cleared l k).ringBytes e.dcx = s.ringBytes e.dcx := rfl
  simp [exec, execDecodeRunStart, he, hissue, hkind, State.doverrun_idle hr hb, State.cleared_dlaneCore hcore, hx, hn]

/-- A run has begun: the context is saved, and the lane's core works on it (R138, R278). -/
def State.runBegun (s : State) (l k x : Nat) : State :=
  let s := { s with decRedo := s.decRedo.set none l (some (s.dcxOf x)) }
  let s := s.setDLane l { s.dlane l with run := some x, nRun := (s.dlane l).nRun + 1 }
  (s.setDec k { s.decOf k with ctx := x, act := 1 }).decCnt k 0 1

theorem State.runBegun_dlane (s : State) (l k x : Nat) :
    (s.runBegun l k x).dlane l = { s.dlane l with run := some x, nRun := (s.dlane l).nRun + 1 } :=
  State.setDLane_dlane_of_ne { s with decRedo := s.decRedo.set none l (some (s.dcxOf x)) } l (DLane.ne_of_run (x := x) rfl)

theorem State.runBegun_decOf (s : State) (l k x : Nat) :
    ((s.runBegun l k x).decOf k).act = 1 ∧ ((s.runBegun l k x).decOf k).ctx = x := by
  unfold State.runBegun
  dsimp only
  rw [State.setDec_decCnt_decOf _ k 0 1 Nat.one_ne_zero]
  exact ⟨rfl, rfl⟩

/-- A run whose core has had time for no block. -/
theorem State.decodeRun_zero (s : State) (l k x : Nat) :
    s.decodeRun l k x 0 [] = (s.runBegun l k x).setDLane l { (s.runBegun l k x).dlane l with left := 0 } := rfl

theorem State.decodeRun_zero_lane (s : State) (l k x : Nat) : (s.decodeRun l k x 0 []).lane = s.lane := by
  funext j
  simp only [State.lane, State.decodeRun_zero, State.runBegun, State.setDLane_rota, State.decCnt_rota, State.setDec_rota]

theorem State.decodeRun_zero_run (s : State) (l k x : Nat) : ((s.decodeRun l k x 0 []).dlane l).run = some x := by
  have hv : ({ (s.runBegun l k x).dlane l with left := 0 } : DLane).run = some x := by rw [State.runBegun_dlane]
  rw [State.decodeRun_zero, State.setDLane_dlane_of_ne _ l (DLane.ne_of_run hv)]
  exact hv

section
variable (he : s.dlaneEnt l idx = some e) (hissue : s.dissues e = true) (hkind : e.kind = 0) (hr : (s.dlane l).run = none)
  (hcore : s.dlaneCore l = some k)
include he hissue hkind hr hcore

/-- Without input, or for a closed context, the run is fallow (R138). -/
theorem exec_decodeRunStart_fallow (h : (s.dcxOf e.dcx).units = [] ∨ (s.dcxOf e.dcx).isOpen = false) (work : Nat)
    (ws : List DecWrite) : exec (.decodeRunStart l idx work ws) s = .next ((s.cleared l k).dfallow l) := by
  rw [exec_decodeRunStart_idle he hissue hkind hr hcore, if_pos h.symm]

variable (hopen : (s.dcxOf e.dcx).isOpen = true) (hunits : (s.dcxOf e.dcx).units ≠ [])
include hopen hunits

/-- Without a buffer for the next picture, or for the host's output, the run is fallow and counts as waiting (R10, R259). -/
theorem exec_decodeRunStart_waits (h : (s.cleared l k).starves e.dcx (s.ringBytes e.dcx + 2) = true
      ∨ (s.cleared l k).hostFull e.dcx = true) (work : Nat) (ws : List DecWrite) :
    exec (.decodeRunStart l idx work ws) s = .next (((s.cleared l k).dfallow l).dcxCount e.dcx 6 1) := by
  rw [exec_decodeRunStart_idle he hissue hkind hr hcore, if_neg (by simp [hopen, hunits]),
    if_pos (by rw [Bool.or_eq_true]; exact h.symm)]

/-- With input and a buffer the core decodes (R138, R258). -/
theorem exec_decodeRunStart_decodes (hstarve : (s.cleared l k).starves e.dcx (s.ringBytes e.dcx + 2) = false)
    (hfull : (s.cleared l k).hostFull e.dcx = false) (work : Nat) (ws : List DecWrite) :
    exec (.decodeRunStart l idx work ws) s = .next ((s.cleared l k).decodeRun l k e.dcx work ws).wakeRuns := by
  rw [exec_decodeRunStart_idle he hissue hkind hr hcore, if_neg (by simp [hopen, hunits]), if_neg (by simp [hstarve, hfull])]

/-- A run with no time, while no encode run waits for a notice, leaves what it began with. -/
theorem exec_decodeRunStart_zero (hstarve : (s.cleared l k).starves e.dcx (s.ringBytes e.dcx + 2) = false)
    (hfull : (s.cleared l k).hostFull e.dcx = false) (h : ∀ j r, (s.lane j).run = some r → r.coded.isSome = true) :
    exec (.decodeRunStart l idx 0 []) s = .next ((s.cleared l k).decodeRun l k e.dcx 0 []) := by
  rw [exec_decodeRunStart_decodes he hissue hkind hr hcore hopen hunits hstarve hfull,
    State.wakeRuns_of_coded _ (by rw [State.decodeRun_zero_lane]; exact h)]

end

/-! ### Gleaning runs -/

/-- A core's gleaning run has begun, with its next case (R277, R278). -/
def State.gleanBegun (s : State) (l k : Nat) : State :=
  let g := (s.nextDecGlean k).1
  let s := (s.nextDecGlean k).2
  let s := (s.setDLane l { s.dlane l with nRun := (s.dlane l).nRun + 1, glean := some g }).decCnt k 1 1
  s.setDec k { s.decOf k with act := 2 }

section
variable (s : State) (l k : Nat)

theorem State.gleanBegun_rota : (s.gleanBegun l k).rota = { s.rota with
    dlanes := s.rota.dlanes.set {} l { s.dlane l with nRun := (s.dlane l).nRun + 1, glean := some (s.nextDecGlean k).1 } } := by
  simp only [State.gleanBegun, State.setDec_rota, State.decCnt_rota, State.setDLane_rota]
  rfl

theorem State.gleanBegun_glb : (s.gleanBegun l k).glb = s.glb := by
  simp only [State.gleanBegun, State.nextDecGlean, State.setDec_glb, State.decCnt_glb, State.setDLane_glb]

theorem State.gleanBegun_img : (s.gleanBegun l k).img = s.img := by
  simp only [State.gleanBegun, State.nextDecGlean, State.setDec_img, State.decCnt_img, State.setDLane_img]

theorem State.gleanBegun_dcx : (s.gleanBegun l k).dcx = s.dcx := by
  simp only [State.gleanBegun, State.nextDecGlean, State.setDec_dcx, State.decCnt_dcx, State.setDLane_dcx]

theorem State.gleanBegun_flt : (s.gleanBegun l k).flt = s.flt := by
  simp only [State.gleanBegun, State.nextDecGlean, State.setDec_flt, State.decCnt_flt, State.setDLane_flt]

theorem State.gleanBegun_isl : (s.gleanBegun l k).isl = s.isl := by
  simp only [State.gleanBegun, State.nextDecGlean, State.setDec_isl, State.decCnt_isl, State.setDLane_isl]

theorem State.gleanBegun_canRise (m : Nat) : (s.gleanBegun l k).canRise m = s.canRise m := by
  simp only [State.canRise, State.fltLive, State.stopped, State.islOf, State.gleanBegun_glb, State.gleanBegun_flt,
    State.gleanBegun_isl]

theorem State.gleanBegun_decCaseSig (g : Nat) : (s.gleanBegun l k).decCaseSig g = s.decCaseSig g := by
  rw [State.decCaseSig, State.gleanBegun_img, State.decCaseSig]

theorem State.gleanBegun_caseMatches (g : Nat) (sig : BitVec 64) : (s.gleanBegun l k).caseMatches g sig = s.caseMatches g sig := by
  rw [State.caseMatches, State.gleanBegun_img, State.caseMatches]

end

theorem State.gleanBegun_act (s : State) (l k : Nat) : ((s.gleanBegun l k).decOf k).act = 2 := by
  unfold State.gleanBegun
  dsimp only
  rw [State.setDec_decOf_of_ne _ k (DecCore.ne_of_act (by simp))]

/-- A core whose case ended well shows its results. -/
theorem State.decGleanEnd_ok (s : State) (k g : Nat) (sig : BitVec 64) :
    s.decGleanEnd k g sig true = s.setDec k { s.decOf k with gMatch := true, gCase := g, gSig := sig } := rfl

theorem State.decGleanEnd_ok_decOf (s : State) (k g : Nat) (sig : BitVec 64) (h : (s.decOf k).act = 2) :
    (s.decGleanEnd k g sig true).decOf k = { s.decOf k with gMatch := true, gCase := g, gSig := sig } :=
  State.setDec_decOf_of_ne s k
    (DecCore.ne_of_act (v := { s.decOf k with gMatch := true, gCase := g, gSig := sig }) (by simp [h]))

/-- A mismatch is an event of the core's gleaning source (R277). -/
theorem State.decGleanEnd_fails (s : State) (k g : Nat) (sig : BitVec 64) (hc : s.canRise (srcDecGlean k) = true) :
    (s.decGleanEnd k g sig false).flt.sticky.get false (srcDecGlean k) = true := by
  have hc' : ((s.setDec k { s.decOf k with gMatch := false, gCase := g, gSig := sig }).decCnt k 2 1).canRise (srcDecGlean k) = true :=
    hc
  exact State.raiseIn_sets _ none false false _ hc'

theorem State.nextDecGlean_cleared (s : State) (l k : Nat) (w : Tbl.wf {} s.dec = true) :
    ((s.cleared l k).nextDecGlean k).1 = gleanCaseAt s.img.glean 1 (s.decOf k).gleans := by
  have h : ((s.cleared l k).decOf k).gleans = (s.decOf k).gleans := by
    have h' : (s.cleared l k).decOf k = { s.decOf k with act := 0 } := (Tbl.get_set w k _ k).trans (if_pos rfl)
    rw [h']
  exact congrArg (gleanCaseAt s.img.glean 1) h

/-- A GLEAN entry of an idle lane with a core (R277). -/
theorem exec_decodeGleanRun_idle (he : s.dlaneEnt l idx = some e) (hissue : s.dissues e = true) (hkind : e.kind = 2)
    (hr : (s.dlane l).run = none) (hcore : s.dlaneCore l = some k) (w : Tbl.wf {} s.dec = true) (err : BitVec 64) (failed : Bool)
    {n : Nat} (hcase : gleanCaseAt s.img.glean 1 (s.decOf k).gleans = n) :
    exec (.decodeGleanRun l idx err failed) s = .next (((s.cleared l k).gleanBegun l k).decGleanEnd k n (s.decCaseSig n ^^^ err)
      (s.caseMatches n (s.decCaseSig n ^^^ err) && !failed)) := by
  have hb := (State.dlaneCore_eq_some.mp hcore).1
  have hn : ((s.cleared l k).nextDecGlean k).1 = n := (State.nextDecGlean_cleared s l k w).trans hcase
  have hsig (g : Nat) : (s.cleared l k).decCaseSig g = s.decCaseSig g := rfl
  have hmatches (g : Nat) (sig : BitVec 64) : (s.cleared l k).caseMatches g sig = s.caseMatches g sig := rfl
  have hrun : exec (.decodeGleanRun l idx err failed) s = .next (
      let t := (s.cleared l k).gleanBegun l k
      let g := ((s.cleared l k).nextDecGlean k).1
      t.decGleanEnd k g (t.decCaseSig g ^^^ err) (t.caseMatches g (t.decCaseSig g ^^^ err) && !failed)) := by
    simp only [exec, execDecodeGleanRun, he, hissue, hkind, State.doverrun_idle hr hb, State.cleared_dlaneCore hcore]
    rfl
  rw [hrun]
  dsimp only
  rw [hn, State.gleanBegun_decCaseSig, State.gleanBegun_caseMatches, hsig, hmatches]

end

/-! ### The end of a run -/

/-- A run whose core has no time left, or nothing to decode, makes no step (R138, R258). -/
theorem State.decodeAll_none (s : State) (k x left : Nat) (h : left = 0 ∨ (s.dcxOf x).units = []) :
    (s.decodeAll k x [] left 0).1 = s := by
  cases left with
  | zero => rfl
  | succ n =>
    have hu : (s.dcxOf x).units = [] := h.resolve_left (Nat.succ_ne_zero n)
    have hone : s.decodeOne x = none := by simp [State.decodeOne, hu]
    simp [State.decodeAll, hone]

/-- The core of a run that stops is idle, and nothing of the run would be redone (R138). -/
theorem exec_decodeRunStop_idle {s : State} {l k x : Nat} (hr : (s.dlane l).run = some x) (hb : (s.dlane l).bound = some k)
    (h : (s.dlane l).left = 0 ∨ (s.dcxOf x).units = []) :
    exec (.decodeRunStop l) s = .next (((({ s.setDLane l { s.dlane l with run := none } with
      decRedo := s.decRedo.set none l none } : State).setDec k { s.decOf k with act := 0 })).wakeRuns) := by
  have hend : s.endDecRun l = ({ s.setDLane l { s.dlane l with run := none } with
      decRedo := s.decRedo.set none l none } : State).setDec k { s.decOf k with act := 0 } := by
    simp only [State.endDecRun, hb]
    rfl
  simp only [exec, execDecodeRunStop, hr, hb, State.decodeAll_none s k x _ h, hend]

/-- Settles O16: each clause is one branch of the lane's entry, or of its stop. -/
theorem decodeRuns : Obligations.DecodeRuns := by
  unfold Obligations.DecodeRuns
  refine ⟨?starts, ?stops⟩
  case starts =>
    intro s l idx k work e ws he hlen hstart hst hnow hr hcore b fallow room
    have hissue := State.dissues_of_run hlen hstart hst hnow
    refine ⟨fun hkind hopen hunits => ?run, fun hkind hnone => ?fallow, ?glean, ?gleanFails⟩
    case run =>
      have hgo := exec_decodeRunStart_decodes he hissue hkind hr hcore hopen hunits
      refine ⟨fun hroom => hgo hroom.1 hroom.2 work ws, fun hcur hfull => hgo (State.starves_of_cur _ _ _ hcur) hfull work ws,
        fun hroom hcoded => ⟨b.decodeRun l k e.dcx 0 [], ?_, ?_⟩, fun hbusy => ?_⟩
      · exact exec_decodeRunStart_zero he hissue hkind hr hcore hopen hunits hroom.1 hroom.2 hcoded
      · obtain ⟨hact, hctx⟩ := b.runBegun_decOf l k e.dcx
        exact ⟨rfl, b.decodeRun_zero_run l k e.dcx, hact, hctx⟩
      · exact exec_decodeRunStart_waits he hissue hkind hr hcore hopen hunits hbusy work ws
    case fallow => exact exec_decodeRunStart_fallow he hissue hkind hr hcore hnone work ws
    case glean =>
      intro err n sig hkind w hmatch
      have hrun := exec_decodeGleanRun_idle he hissue hkind hr hcore w err false (n := n) rfl
      have hok : (s.caseMatches n (s.decCaseSig n ^^^ err) && !false) = true := by rw [Bool.not_false, Bool.and_true]; exact hmatch
      rw [hok] at hrun
      have hn : ((s.cleared l k).nextDecGlean k).1 = n := State.nextDecGlean_cleared s l k w
      have hact := State.gleanBegun_act (s.cleared l k) l k
      have hdec := State.decGleanEnd_ok_decOf ((s.cleared l k).gleanBegun l k) k n sig hact
      refine ⟨_, hrun, ?_, by rw [hdec]; exact hact, by rw [hdec], by rw [hdec], by rw [hdec],
        (State.gleanBegun_flt _ l k :), (State.gleanBegun_dcx _ l k :)⟩
      rw [State.decGleanEnd_ok, State.setDec_rota, State.gleanBegun_rota, hn]
      rfl
    case gleanFails =>
      intro err fails n hkind w hmiss
      have hrun := exec_decodeGleanRun_idle he hissue hkind hr hcore w err fails (n := n) rfl
      have hbad : (s.caseMatches n (s.decCaseSig n ^^^ err) && !fails) = false := by rcases hmiss with h | h <;> simp [h]
      rw [hbad] at hrun
      exact ⟨_, hrun, fun hc => State.decGleanEnd_fails ((s.cleared l k).gleanBegun l k) k n _
        ((State.gleanBegun_canRise s l k (srcDecGlean k)).trans hc)⟩
  case stops =>
    intro s l k x hr hb stopped
    exact ⟨fun h => exec_decodeRunStop_idle hr hb (.inl h), fun h => exec_decodeRunStop_idle hr hb (.inr h)⟩

end Sys2Proof.Machine
end

section
/-!
SUPPORT. Which commands move the quiet part of the state, and which piece of it: one lemma per such command, and one theorem over
all commands.
-/

namespace Sys2Proof.Machine

/-- The quiet part after a command, where `q` was before it and `q'` is what it answers: only the pieces that the command may move
are taken from `q'`. -/
def Quiet.moved (q q' : Quiet) : Instr → Quiet
  | .porRelease _ _ => { q with sensed := q'.sensed, smbAddr := q'.smbAddr }
  | .railBelowThreshold r =>
    { q with
      flash := q'.flash, fuses := q'.fuses, sensed := q'.sensed, img := q'.img
      tripped := if r = .vddAon then q'.tripped else q.tripped }
  | .resetNAssert _ | .perstNAssert _ | .restartEnterReset => { q with flash := q'.flash, fuses := q'.fuses, img := q'.img }
  | .thermtrip _ _ => { q with tripped := q.tripped || q'.tripped }
  | .slotCheck _ _ => { q with img := q'.img }
  | .irqDelivery _ | .irqRedirect _ | .statsRead _ _ _ _ | .getStats _ _ _ _ => { q with host := q'.host }
  | .flashOpDone _ => { q with flash := q'.flash }
  | .fuseBurnDone _ _ => { q with fuses := q'.fuses, sensed := q'.sensed }
  | _ => q

theorem Quiet.moved_self (q : Quiet) (c : Instr) : q.moved q c = q := by
  unfold Quiet.moved
  split <;> simp

section
variable {s t : State}

/-- A command after which the quiet part is as before has moved none of it. -/
theorem State.moved_of_quiet (h : t.quiet = s.quiet) (c : Instr) : t.quiet = s.quiet.moved t.quiet c := by
  rw [h, Quiet.moved_self]

/-! ### DEV resets (R21, R42, R69, R87) -/

theorem State.cutBurn_quiet (s : State) : s.cutBurn.quiet = { s.quiet with fuses := s.cutBurn.sec.fuses } := by
  unfold State.cutBurn
  split <;> rfl

theorem State.cutFlash_quiet (s : State) : s.cutFlash.quiet = { s.quiet with flash := s.cutFlash.flash } := by
  unfold State.cutFlash
  split <;> rfl

/-- A DEV reset cuts a burn and a flash operation short, and clears the image. -/
theorem State.devReset_quiet (s : State) (cause : Nat) : (s.devReset cause).quiet
    = { s.quiet with
        flash := (s.devReset cause).flash, fuses := (s.devReset cause).sec.fuses, img := (s.devReset cause).img.kept } := by
  have hburn := s.cutBurn_quiet
  have hflash := s.cutBurn.cutFlash_quiet
  rw [hburn] at hflash
  generalize hd : s.devReset cause = d
  have hdev : d.quiet = { s.cutBurn.cutFlash.quiet with img := d.img.kept } := by rw [← hd]; rfl
  have hfl : d.flash = s.cutBurn.cutFlash.flash := by rw [← hd]; rfl
  have hfu : d.sec.fuses = s.cutBurn.sec.fuses := by
    have : s.cutBurn.cutFlash.sec.fuses = s.cutBurn.sec.fuses := (congrArg Quiet.fuses hflash :)
    rw [← this, ← hd]; rfl
  rw [hdev, hflash, hfl, hfu]

/-- A power-on event loses what was sensed, beyond what a DEV reset does. -/
theorem State.powerOn_quiet (s : State) : s.powerOn.quiet
    = { s.quiet with
        flash := s.powerOn.flash, fuses := s.powerOn.sec.fuses, sensed := s.powerOn.sec.sensed, img := s.powerOn.img.kept } :=
  congrArg (fun q : Quiet => { q with sensed := ({} : Sensed) }) (s.devReset_quiet 0)

theorem execRailBelowThreshold_moves {r : Rail} (h : execRailBelowThreshold r s = .next t) :
    t.quiet = s.quiet.moved t.quiet (.railBelowThreshold r) := by
  unfold execRailBelowThreshold at h
  injection h with h
  subst h
  by_cases hr : r = .vddAon
  · have hcut := s.cutLedger_quiet
    have hp := s.cutLedger.powerOn_quiet
    simp only [hr, if_true, Quiet.moved]
    rw [hcut] at hp
    exact congrArg (fun q : Quiet => { q with tripped := false }) hp
  · simp only [hr, if_false, Quiet.moved]
    exact s.powerOn_quiet

theorem execResetNAssert_moves {n : Nat} (h : execResetNAssert n s = .next t) :
    t.quiet = s.quiet.moved t.quiet (.resetNAssert n) := by
  injection h with h
  subst h
  have hp := s.passes_quiet n
  dsimp only
  split
  · have hd := (s.passes n).2.devReset_quiet 1
    rw [hp] at hd
    exact hd
  · exact State.moved_of_quiet hp _

theorem execPerstNAssert_moves {n : Nat} (h : execPerstNAssert n s = .next t) :
    t.quiet = s.quiet.moved t.quiet (.perstNAssert n) := by
  injection h with h
  subst h
  have hp := s.passes_quiet n
  dsimp only
  split
  · have hd := (s.passes n).2.devReset_quiet 2
    rw [hp] at hd
    exact hd
  · exact State.moved_of_quiet hp _

theorem execRestartEnterReset_moves (h : execRestartEnterReset s = .next t) :
    t.quiet = s.quiet.moved t.quiet .restartEnterReset := by
  injection h with h
  subst h
  split
  · exact s.devReset_quiet 3
  · rfl

/-! ### The release of the power-on reset, sensors, slots -/

theorem execPorRelease_moves {p : PinLevels} {e : FuseEcc} (h : execPorRelease p e s = .next t) :
    t.quiet = s.quiet.moved t.quiet (.porRelease p e) := by
  injection h with h
  subst h
  split
  · rfl
  · dsimp only
    rw [State.tryLeave_quiet]
    rfl

theorem execThermtrip_moves {ts : Nat} {tj : Int} (h : execThermtrip ts tj s = .next t) :
    t.quiet = s.quiet.moved t.quiet (.thermtrip ts tj) := by
  injection h with h
  subst h
  dsimp only
  split
  · exact State.moved_of_quiet rfl _
  · rw [State.raise_quiet]
    exact congrArg (fun b => ({ s.quiet with tripped := b } : Quiet)) (Bool.or_true _).symm

theorem State.enterTrain_quiet (s : State) (slot : Nat) (i : Img) :
    (s.enterTrain slot i).quiet = { s.quiet with img := i.kept } := by
  obtain ⟨_, _, _, _, _, _, _, ht⟩ := s.trained_frame slot i
  have hq : (s.trained slot i).quiet = { s.quiet with img := i.kept } := by rw [ht]; rfl
  rw [State.enterTrain_eq]
  exact ite_quiet ((State.raise_quiet _ _).trans hq) hq

theorem execSlotCheck_moves {slot : Nat} {rd : FlashReads} (h : execSlotCheck slot rd s = .next t) :
    t.quiet = s.quiet.moved t.quiet (.slotCheck slot rd) := by
  injection h with h
  subst h
  split
  · rfl
  · split
    · rw [State.enterTrain_quiet, State.slotResult_quiet, State.stageSlot_quiet]
      rfl
    · have hd (r : Nat) : (s.discardStage.slotResult slot r).quiet = s.quiet :=
        (State.slotResult_quiet _ slot r).trans s.discardStage_quiet
      refine State.moved_of_quiet ?_ _
      split
      · exact (State.loadFails_quiet _).trans (hd _)
      · split
        · exact (State.loadFails_quiet _).trans ((State.slotResult_quiet _ _ _).trans (hd _))
        · exact hd _

/-! ### Host memory (R411) -/

theorem State.host_of_quiet (h : t.quiet = s.quiet) : t.quiet = { s.quiet with host := t.host } := by rw [← h]; rfl

theorem State.host_trans {u : State} (hu : u.quiet = s.quiet) (h : t.quiet = { u.quiet with host := t.host }) :
    t.quiet = { s.quiet with host := t.host } := by rw [← hu]; exact h

theorem State.irqAccept_quiet (s : State) (n : Nat) (ns : List Nat) :
    (s.irqAccept n ns).quiet = { s.quiet with host := (s.irqAccept n ns).host } := by
  unfold State.irqAccept
  split
  · rfl
  next m _ =>
    dsimp only
    have hfold : ((m :: ‹List Nat›).foldl (fun s n => s.setIrqSrc n (s.irqSrc n).accepted) s).quiet = s.quiet :=
      quiet_foldl (fun _ _ => State.setIrqSrc_quiet _ _ _) rfl
    split
    · exact State.host_of_quiet hfold
    · exact State.host_trans hfold rfl

theorem execIrqDelivery_moves {n : Nat} (h : execIrqDelivery n s = .next t) :
    t.quiet = s.quiet.moved t.quiet (.irqDelivery n) := by
  injection h with h
  subst h
  exact s.irqAccept_quiet n _

theorem execIrqRedirect_moves {n : Nat} (h : execIrqRedirect n s = .next t) :
    t.quiet = s.quiet.moved t.quiet (.irqRedirect n) := by
  injection h with h
  subst h
  dsimp only
  split
  · rfl
  · exact State.host_trans (quiet_foldl (fun _ _ => State.setIrqSrc_quiet _ _ _) rfl) (State.irqAccept_quiet _ _ _)

theorem State.stats_quiet (s : State) (h : CmdHdr) (off dst len : Nat) :
    (s.stats h off dst len).quiet = { s.quiet with host := (s.stats h off dst len).quiet.host } := by
  unfold State.stats
  split
  · rw [State.complete_quiet]
  · split
    · rw [State.complete_quiet]
    · dsimp only
      rw [State.complete_quiet]
      exact State.host_trans (State.copyRegs_quiet _ _ s) rfl

/-- A command that is served moves at most what its own effect moves: host memory. -/
theorem State.serve_host (i : Instr) (f a b : Bool) (h : CmdHdr) {g : State → State}
    (hg : (g s).quiet = { s.quiet with host := (g s).quiet.host }) :
    (s.serve i f a b h g).quiet = { s.quiet with host := (s.serve i f a b h g).quiet.host } := by
  rcases serve_cases s i f a b h g with e | e | e | e | e
  · rw [e]; exact hg
  all_goals rw [e]
  all_goals rw [State.complete_quiet]

theorem execStatsRead_moves {h : CmdHdr} {off dst len : Nat} (hx : execStatsRead h off dst len s = .next t) :
    t.quiet = s.quiet.moved t.quiet (.statsRead h off dst len) := by
  injection hx with hx
  subst hx
  exact State.serve_host _ _ _ _ _ (s.stats_quiet _ _ _ _)

theorem execGetStats_moves {h : CmdHdr} {ch dst len : Nat} (hx : execGetStats h ch dst len s = .next t) :
    t.quiet = s.quiet.moved t.quiet (.getStats h ch dst len) := by
  injection hx with hx
  subst hx
  exact State.serve_host _ _ _ _ _ (s.stats_quiet _ _ _ _)

/-! ### Flash operations and burns (R68, R86, R87) -/

theorem execFlashOpDone_moves {ok : Bool} (h : execFlashOpDone ok s = .next t) :
    t.quiet = s.quiet.moved t.quiet (.flashOpDone ok) := by
  injection h with h
  subst h
  split
  · rfl
  · dsimp only
    split
    · rw [State.completeJob_quiet]
      split <;> rfl
    · rw [State.completeJob_quiet, State.raise_quiet]
      rfl

theorem execFuseBurnDone_moves {rb : BitVec 512} {n : Nat} (h : execFuseBurnDone rb n s = .next t) :
    t.quiet = s.quiet.moved t.quiet (.fuseBurnDone rb n) := by
  injection h with h
  subst h
  split
  · rfl
  · split
    · unfold State.ownerBurned
      dsimp only
      split
      · rfl
      · split
        · rfl
        · rw [State.raise_quiet]
          rfl
    · unfold State.debugBurned
      dsimp only
      split <;> rfl

end

/-- A command moves of the quiet part at most the pieces that `Quiet.moved` names. -/
theorem exec_moves {s t : State} (c : Instr) (h : exec c s = .next t) : t.quiet = s.quiet.moved t.quiet c := by
  cases c with
  | porRelease => exact execPorRelease_moves h
  | railBelowThreshold => exact execRailBelowThreshold_moves h
  | resetNAssert => exact execResetNAssert_moves h
  | resetNRelease compat => exact State.moved_of_quiet (execResetNRelease_quiet compat s t h) _
  | perstNAssert => exact execPerstNAssert_moves h
  | perstNRelease compat => exact State.moved_of_quiet (execPerstNRelease_quiet compat s t h) _
  | restartEnterReset => exact execRestartEnterReset_moves h
  | restartLeaveReset compat => exact State.moved_of_quiet (execRestartLeaveReset_quiet compat s t h) _
  | clkSysLoss absentNs => exact State.moved_of_quiet (execClkSysLoss_quiet absentNs s t h) _
  | ethRefclkLoss absentNs => exact State.moved_of_quiet (execEthRefclkLoss_quiet absentNs s t h) _
  | pcieRefclkLoss => exact State.moved_of_quiet (execPcieRefclkLoss_quiet s t h) _
  | pcieLinkDown c => exact State.moved_of_quiet (execPcieLinkDown_quiet c s t h) _
  | pcieL1Exit => exact State.moved_of_quiet (execPcieL1Exit_quiet s t h) _
  | thermtrip => exact execThermtrip_moves h
  | thermalWarn ts tj => exact State.moved_of_quiet (execThermalWarn_quiet ts tj s t h) _
  | thermalCrit ts tj => exact State.moved_of_quiet (execThermalCrit_quiet ts tj s t h) _
  | ppsInEdge highNs => exact State.moved_of_quiet (execPpsInEdge_quiet highNs s t h) _
  | powerOnHour tj writeOk => exact State.moved_of_quiet (execPowerOnHour_quiet tj writeOk s t h) _
  | slotCheck => exact execSlotCheck_moves h
  | hbmTrainingComplete working => exact State.moved_of_quiet (execHbmTrainingComplete_quiet working s t h) _
  | imageSectionsCopied => exact State.moved_of_quiet (execImageSectionsCopied_quiet s t h) _
  | tablesLoaded => exact State.moved_of_quiet (execTablesLoaded_quiet s t h) _
  | rotaStart => exact State.moved_of_quiet (execRotaStart_quiet s t h) _
  | sheafRunStart lane idx hp => exact State.moved_of_quiet (execSheafRunStart_quiet lane idx hp s t h) _
  | catchupRunStart lane idx => exact State.moved_of_quiet (execCatchupRunStart_quiet lane idx s t h) _
  | gleanRunStart lane idx => exact State.moved_of_quiet (execGleanRunStart_quiet lane idx s t h) _
  | runOverrun lane => exact State.moved_of_quiet (execRunOverrun_quiet lane s t h) _
  | rotaBacklog ch part frame sheaf => exact State.moved_of_quiet (execRotaBacklog_quiet ch part frame sheaf s t h) _
  | sheafPass lane parsed => exact State.moved_of_quiet (execSheafPass_quiet lane parsed s t h) _
  | threshFail lane parsed => exact State.moved_of_quiet (execThreshFail_quiet lane s parsed t h) _
  | residueMismatch lane value residue => exact State.moved_of_quiet (execResidueMismatch_quiet lane s value residue t h) _
  | gleanResult lane err failed => exact State.moved_of_quiet (execGleanResult_quiet lane err failed s t h) _
  | decodeRunStart dlane idx work writes => exact State.moved_of_quiet (execDecodeRunStart_quiet dlane idx work s writes t h) _
  | decodeRunStop dlane => exact State.moved_of_quiet (execDecodeRunStop_quiet dlane s t h) _
  | decodeGleanRun dlane idx err failed => exact State.moved_of_quiet (execDecodeGleanRun_quiet dlane idx err failed s t h) _
  | decWatchdog dlane => exact State.moved_of_quiet (execDecWatchdog_quiet dlane s t h) _
  | reorderTimeout dcx seq => exact State.moved_of_quiet (execReorderTimeout_quiet dcx seq s t h) _
  | clockStep => exact State.moved_of_quiet (execClockStep_quiet s t h) _
  | syncTimeout => exact State.moved_of_quiet (execSyncTimeout_quiet s t h) _
  | announceTimeout => exact State.moved_of_quiet (execAnnounceTimeout_quiet s t h) _
  | holdoverExpiry => exact State.moved_of_quiet (execHoldoverExpiry_quiet s t h) _
  | portLinkDown port => exact State.moved_of_quiet (execPortLinkDown_quiet port s t h) _
  | portRetrainDone port trained => exact State.moved_of_quiet (execPortRetrainDone_quiet port trained s t h) _
  | serdesBerWindow ber => exact State.moved_of_quiet (execSerdesBerWindow_quiet ber s t h) _
  | laneSubstitution port => exact State.moved_of_quiet (execLaneSubstitution_quiet port s t h) _
  | frameReceive port bytes fcsOk => exact State.moved_of_quiet (execFrameReceive_quiet port bytes fcsOk s t h) _
  | parseStart port => exact State.moved_of_quiet (execParseStart_quiet port s t h) _
  | ext pe => exact State.moved_of_quiet (execExt_quiet pe s t h) _
  | key pe => exact State.moved_of_quiet (execKey_quiet pe s t h) _
  | keyi pe => exact State.moved_of_quiet (execKeyi_quiet pe s t h) _
  | alu pe => exact State.moved_of_quiet (execAlu_quiet pe s t h) _
  | br pe => exact State.moved_of_quiet (execBr_quiet pe s t h) _
  | hdr pe => exact State.moved_of_quiet (execHdr_quiet pe s t h) _
  | len pe => exact State.moved_of_quiet (execLen_quiet pe s t h) _
  | lkp pe => exact State.moved_of_quiet (execLkp_quiet pe s t h) _
  | lookupResult pe => exact State.moved_of_quiet (execLookupResult_quiet pe s t h) _
  | exc pe => exact State.moved_of_quiet (execExc_quiet pe s t h) _
  | done pe m pop => exact State.moved_of_quiet (execDone_quiet pe m s pop t h) _
  | vftRows port => exact State.moved_of_quiet (execVftRows_quiet port s t h) _
  | apertureWrite => exact State.moved_of_quiet (execApertureWrite_quiet s t h) _
  | ingDb w => exact State.moved_of_quiet (execIngDb_quiet w s t h) _
  | doorbell => exact State.moved_of_quiet (execDoorbell_quiet s t h) _
  | sheafDue ch hp frame sheaf => exact State.moved_of_quiet (execSheafDue_quiet ch hp frame sheaf s t h) _
  | sheafReady ch frame sheaf => exact State.moved_of_quiet (execSheafReady_quiet ch frame sheaf s t h) _
  | pfcRepeat port => exact State.moved_of_quiet (execPfcRepeat_quiet port s t h) _
  | rtcpPacket authOk msgs => exact State.moved_of_quiet (execRtcpPacket_quiet authOk msgs s t h) _
  | pass1 ch => exact State.moved_of_quiet (execPass1_quiet ch s t h) _
  | pass1Resume => exact State.moved_of_quiet (execPass1Resume_quiet s t h) _
  | buildStage agree => exact State.moved_of_quiet (execBuildStage_quiet agree s t h) _
  | calendarBucket port => exact State.moved_of_quiet (execCalendarBucket_quiet port s t h) _
  | gateEntry port entry => exact State.moved_of_quiet (execGateEntry_quiet port entry s t h) _
  | schedulerSelect port same => exact State.moved_of_quiet (execSchedulerSelect_quiet port s same t h) _
  | sealStage port o => exact State.moved_of_quiet (execSealStage_quiet port o s t h) _
  | bodyFree ptr => exact State.moved_of_quiet (execBodyFree_quiet ptr s t h) _
  | stashMove slot => exact State.moved_of_quiet (execStashMove_quiet slot s t h) _
  | rulesetFlip => exact State.moved_of_quiet (execRulesetFlip_quiet s t h) _
  | rulesetRetire => exact State.moved_of_quiet (execRulesetRetire_quiet s t h) _
  | refreshDue g readsQueued => exact State.moved_of_quiet (execRefreshDue_quiet g readsQueued s t h) _
  | scrubRead addr e passEnd => exact State.moved_of_quiet (execScrubRead_quiet addr e passEnd s t h) _
  | granaryAccess accs e cyc => exact State.moved_of_quiet (execGranaryAccess_quiet accs e s cyc t h) _
  | drainStart stack => exact State.moved_of_quiet (execDrainStart_quiet stack s t h) _
  | drainSwap stack => exact State.moved_of_quiet (execDrainSwap_quiet stack s t h) _
  | trainingGatherEnd stack => exact State.moved_of_quiet (execTrainingGatherEnd_quiet stack s t h) _
  | trainingDone stack ok => exact State.moved_of_quiet (execTrainingDone_quiet stack ok s t h) _
  | hbmResume stack working => exact State.moved_of_quiet (execHbmResume_quiet stack working s t h) _
  | fabricTransaction reqs => exact State.moved_of_quiet (execFabricTransaction_quiet reqs s t h) _
  | scratchpadAccess accs e => exact State.moved_of_quiet (execScratchpadAccess_quiet accs e s t h) _
  | dmaFifoLevelStart ch cycles => exact State.moved_of_quiet (execDmaFifoLevelStart_quiet ch s cycles t h) _
  | dmaComplete ch => exact State.moved_of_quiet (execDmaComplete_quiet ch s t h) _
  | dmaBeatError ch written ue => exact State.moved_of_quiet (execDmaBeatError_quiet ch written s ue t h) _
  | faultEvent evs => exact State.moved_of_quiet (execFaultEvent_quiet evs s t h) _
  | spareAdmissionDone decode lane err failed => exact State.moved_of_quiet (execSpareAdmissionDone_quiet decode lane err failed s t h) _
  | laneRebind decode lane => exact State.moved_of_quiet (execLaneRebind_quiet decode lane s t h) _
  | stewardTakeover core => exact State.moved_of_quiet (execStewardTakeover_quiet core s t h) _
  | srtpRemap sp => exact State.moved_of_quiet (execSrtpRemap_quiet sp s t h) _
  | quarantineTestEnd unit passed err => exact State.moved_of_quiet (execQuarantineTestEnd_quiet unit passed s err t h) _
  | stwWatchdog core => exact State.moved_of_quiet (execStwWatchdog_quiet core s t h) _
  | stewardLoad => exact State.moved_of_quiet (execStewardLoad_quiet s t h) _
  | irqEvent src level held => exact State.moved_of_quiet (execIrqEvent_quiet src level s held t h) _
  | irqDelivery => exact execIrqDelivery_moves h
  | irqModerationEnd tgt => exact State.moved_of_quiet (execIrqModerationEnd_quiet tgt s t h) _
  | irqRedirect => exact execIrqRedirect_moves h
  | unitBoundary isl => exact State.moved_of_quiet (execUnitBoundary_quiet isl s t h) _
  | islandTransitionDone isl => exact State.moved_of_quiet (execIslandTransitionDone_quiet isl s t h) _
  | flashOpDone => exact execFlashOpDone_moves h
  | fuseBurnDone => exact execFuseBurnDone_moves h
  | mbxSqDb tail => exact State.moved_of_quiet (execMbxSqDb_quiet tail s t h) _
  | mbxCqDb head => exact State.moved_of_quiet (execMbxCqDb_quiet head s t h) _
  | mbxCtrl w => exact State.moved_of_quiet (execMbxCtrl_quiet w s t h) _
  | mbxAbort tag => exact State.moved_of_quiet (execMbxAbort_quiet tag s t h) _
  | abortDrain stack => exact State.moved_of_quiet (execAbortDrain_quiet stack s t h) _
  | sessionOpen hdr a => exact State.moved_of_quiet (execSessionOpen_quiet hdr a s t h) _
  | sessionOpenContext hdr a => exact State.moved_of_quiet (execSessionOpenContext_quiet hdr a s t h) _
  | sessionClose hdr ch rsvOk => exact State.moved_of_quiet (execSessionClose_quiet hdr ch rsvOk s t h) _
  | sessionCloseContext hdr dcx rsvOk => exact State.moved_of_quiet (execSessionCloseContext_quiet hdr dcx rsvOk s t h) _
  | deliveryAdd hdr a => exact State.moved_of_quiet (execDeliveryAdd_quiet hdr a s t h) _
  | deliveryDel hdr handle => exact State.moved_of_quiet (execDeliveryDel_quiet hdr handle s t h) _
  | keyImport hdr src len blob => exact State.moved_of_quiet (execKeyImport_quiet hdr src len blob s t h) _
  | keyErase hdr slot => exact State.moved_of_quiet (execKeyErase_quiet hdr slot s t h) _
  | targetSet hdr ch value => exact State.moved_of_quiet (execTargetSet_quiet hdr ch value s t h) _
  | targetSetDelivery hdr handle value => exact State.moved_of_quiet (execTargetSetDelivery_quiet hdr handle value s t h) _
  | rulesetSwap hdr idx => exact State.moved_of_quiet (execRulesetSwap_quiet hdr idx s t h) _
  | islandState hdr isl st => exact State.moved_of_quiet (execIslandState_quiet hdr isl st s t h) _
  | islandFreq hdr isl mhz => exact State.moved_of_quiet (execIslandFreq_quiet hdr isl mhz s t h) _
  | attest hdr nonceSrc dst => exact State.moved_of_quiet (execAttest_quiet hdr nonceSrc dst s t h) _
  | imageWriteProgram hdr slot off len src => exact State.moved_of_quiet (execImageWriteProgram_quiet hdr slot off len src s t h) _
  | imageWriteErase hdr slot off len => exact State.moved_of_quiet (execImageWriteErase_quiet hdr slot off len s t h) _
  | imageWriteVerify hdr slot rd => exact State.moved_of_quiet (execImageWriteVerify_quiet hdr slot rd s t h) _
  | restart hdr => exact State.moved_of_quiet (execRestart_quiet hdr s t h) _
  | faultAck hdr src => exact State.moved_of_quiet (execFaultAck_quiet hdr src s t h) _
  | statsRead => exact execStatsRead_moves h
  | reservedOpcode hdr opcode => exact State.moved_of_quiet (execReservedOpcode_quiet hdr opcode s t h) _
  | openStream hdr ch width height target => exact State.moved_of_quiet (execOpenStream_quiet hdr ch width height target s t h) _
  | closeStream hdr ch => exact State.moved_of_quiet (execCloseStream_quiet hdr ch s t h) _
  | addDest hdr a => exact State.moved_of_quiet (execAddDest_quiet hdr a s t h) _
  | delDest hdr handle => exact State.moved_of_quiet (execDelDest_quiet hdr handle s t h) _
  | loadKey hdr src len slot blob => exact State.moved_of_quiet (execLoadKey_quiet hdr src len slot blob s t h) _
  | setBitrate hdr ch value => exact State.moved_of_quiet (execSetBitrate_quiet hdr ch value s t h) _
  | getStats => exact execGetStats_moves h
  | clearAlarm hdr src => exact State.moved_of_quiet (execClearAlarm_quiet hdr src s t h) _
  | flashWrite hdr addr len src => exact State.moved_of_quiet (execFlashWrite_quiet hdr addr len src s t h) _
  | reboot hdr => exact State.moved_of_quiet (execReboot_quiet hdr s t h) _
  | badOpcode hdr opcode => exact State.moved_of_quiet (execBadOpcode_quiet hdr opcode s t h) _
  | fuseBurnOwner confirm => exact State.moved_of_quiet (execFuseBurnOwner_quiet confirm s t h) _
  | fuseBurnDebugClose confirm => exact State.moved_of_quiet (execFuseBurnDebugClose_quiet confirm s t h) _
  | fabUnfreeze m => exact State.moved_of_quiet (execFabUnfreeze_quiet m s t h) _
  | fabLock => exact State.moved_of_quiet (execFabLock_quiet s t h) _
  | fabViolLastRead => exact State.moved_of_quiet (execFabViolLastRead_quiet s t h) _
  | secKeyStatRead => exact State.moved_of_quiet (execSecKeyStatRead_quiet s t h) _
  | rotaTimeNsRead => exact State.moved_of_quiet (execRotaTimeNsRead_quiet s t h) _
  | counterLowRead who off size => exact State.moved_of_quiet (execCounterLowRead_quiet who off s size t h) _
  | decFeed dcx loss len => exact State.moved_of_quiet (execDecFeed_quiet dcx loss len s t h) _
  | decRelease dcx buf => exact State.moved_of_quiet (execDecRelease_quiet dcx buf s t h) _
  | dmaStart ch => exact State.moved_of_quiet (execDmaStart_quiet ch s t h) _
  | dmaAbort ch written => exact State.moved_of_quiet (execDmaAbort_quiet ch written s t h) _
  | dmaFifoFlush f ops => exact State.moved_of_quiet (execDmaFifoFlush_quiet f s ops t h) _
  | irqHostAck v => exact State.moved_of_quiet (execIrqHostAck_quiet v s t h) _
  | irqSwSet n => exact State.moved_of_quiet (execIrqSwSet_quiet n s t h) _
  | irqSrcCfg n w => exact State.moved_of_quiet (execIrqSrcCfg_quiet n w s t h) _
  | msixMask w => exact State.moved_of_quiet (execMsixMask_quiet w s t h) _
  | fltForce n w => exact State.moved_of_quiet (execFltForce_quiet n w s t h) _
  | fltAck src => exact State.moved_of_quiet (execFltAck_quiet src s t h) _
  | fltAckAll => exact State.moved_of_quiet (execFltAckAll_quiet s t h) _
  | pwrIslReq n st => exact State.moved_of_quiet (execPwrIslReq_quiet n st s t h) _
  | pwrIslFreq n mhz => exact State.moved_of_quiet (execPwrIslFreq_quiet n mhz s t h) _
  | registerWrite who off size val be => exact State.moved_of_quiet (execRegisterWrite_quiet who off size val s be t h) _
  | smbReadHottestTj => exact State.moved_of_quiet (execSmbReadHottestTj_quiet s t h) _
  | smbReadHottestIndex => exact State.moved_of_quiet (execSmbReadHottestIndex_quiet s t h) _
  | smbReadPower => exact State.moved_of_quiet (execSmbReadPower_quiet s t h) _
  | smbReadState => exact State.moved_of_quiet (execSmbReadState_quiet s t h) _
  | smbReadThermalStatus => exact State.moved_of_quiet (execSmbReadThermalStatus_quiet s t h) _
  | smbReadSensorTj code => exact State.moved_of_quiet (execSmbReadSensorTj_quiet code s t h) _
  | smbReadRailCurrent code => exact State.moved_of_quiet (execSmbReadRailCurrent_quiet code s t h) _
  | smbUnknownCommand code n => exact State.moved_of_quiet (execSmbUnknownCommand_quiet code n s t h) _
  | smbAlertResponse => exact State.moved_of_quiet (execSmbAlertResponse_quiet s t h) _
  | tapReset => exact State.moved_of_quiet (execTapReset_quiet s t h) _
  | extest load => exact State.moved_of_quiet (execExtest_quiet s load t h) _
  | samplePreload load => exact State.moved_of_quiet (execSamplePreload_quiet s load t h) _
  | idcode => exact State.moved_of_quiet (execIdcode_quiet s t h) _
  | highz => exact State.moved_of_quiet (execHighz_quiet s t h) _
  | clamp => exact State.moved_of_quiet (execClamp_quiet s t h) _
  | extestPulse load => exact State.moved_of_quiet (execExtestPulse_quiet s load t h) _
  | extestTrain load => exact State.moved_of_quiet (execExtestTrain_quiet s load t h) _
  | dbgSteward => exact State.moved_of_quiet (execDbgSteward_quiet s t h) _
  | dbgFabric => exact State.moved_of_quiet (execDbgFabric_quiet s t h) _
  | bypass => exact State.moved_of_quiet (execBypass_quiet s t h) _
  | apertureTlpArrival off rd bytes pop => exact State.moved_of_quiet (execApertureTlpArrival_quiet off rd s bytes pop t h) _
  | pcieLinkUp => exact State.moved_of_quiet (execPcieLinkUp_quiet s t h) _
  | configurationRequest r => exact State.moved_of_quiet (execConfigurationRequest_quiet r s t h) _
  | delayReqTransmit => exact State.moved_of_quiet (execDelayReqTransmit_quiet s t h) _
  | thermalAlertClears ts tj => exact State.moved_of_quiet (execThermalAlertClears_quiet ts tj s t h) _
  | stackTemperatureReport stack temp => exact State.moved_of_quiet (execStackTemperatureReport_quiet stack temp s t h) _
  | dmaFifoLevelPause ch words => exact State.moved_of_quiet (execDmaFifoLevelPause_quiet ch words s t h) _
  | stewardCoreWfi core => exact State.moved_of_quiet (execStewardCoreWfi_quiet core s t h) _

/-! ### Piece by piece -/

section
variable (q q' : Quiet) {c : Instr}

theorem Quiet.moved_pending : (q.moved q' c).pending = q.pending := by
  unfold Quiet.moved
  split <;> rfl

theorem Quiet.moved_smbAddr (h : ∀ p e, c ≠ .porRelease p e) : (q.moved q' c).smbAddr = q.smbAddr := by
  unfold Quiet.moved
  split
  case h_1 p e => exact absurd rfl (h p e)
  all_goals rfl

/-- The latch of THERMTRIP_N is only ever set, but by the loss of VDD_AON. -/
theorem Quiet.moved_tripped (h : c ≠ .railBelowThreshold .vddAon) (ht : q.tripped = true) : (q.moved q' c).tripped = true := by
  unfold Quiet.moved
  split
  case h_2 r =>
    have hr : r ≠ .vddAon := fun e => h (by rw [e])
    simp [hr, ht]
  case h_6 => simp [ht]
  all_goals exact ht

theorem Quiet.moved_host (hstats : ∀ x o d l, c ≠ .statsRead x o d l) (hget : ∀ x n d l, c ≠ .getStats x n d l)
    (hdel : ∀ n, c ≠ .irqDelivery n) (hred : ∀ n, c ≠ .irqRedirect n) : (q.moved q' c).host = q.host := by
  unfold Quiet.moved
  split
  case h_8 n => exact absurd rfl (hdel n)
  case h_9 n => exact absurd rfl (hred n)
  case h_10 x o d l => exact absurd rfl (hstats x o d l)
  case h_11 x n d l => exact absurd rfl (hget x n d l)
  all_goals rfl

theorem Quiet.moved_sensed (hrail : ∀ r, c ≠ .railBelowThreshold r) (hburn : ∀ rb n, c ≠ .fuseBurnDone rb n)
    (hpor : ∀ p e, c ≠ .porRelease p e) : (q.moved q' c).sensed = q.sensed := by
  unfold Quiet.moved
  split
  case h_1 p e => exact absurd rfl (hpor p e)
  case h_2 r => exact absurd rfl (hrail r)
  case h_13 rb n => exact absurd rfl (hburn rb n)
  all_goals rfl

section
variable (hrail : ∀ r, c ≠ .railBelowThreshold r) (hresetN : ∀ n, c ≠ .resetNAssert n) (hperstN : ∀ n, c ≠ .perstNAssert n)
  (hrestart : c ≠ .restartEnterReset)
include hrail hresetN hperstN hrestart

theorem Quiet.moved_flash (hop : ∀ ok, c ≠ .flashOpDone ok) : (q.moved q' c).flash = q.flash := by
  unfold Quiet.moved
  split
  case h_2 r => exact absurd rfl (hrail r)
  case h_3 n => exact absurd rfl (hresetN n)
  case h_4 n => exact absurd rfl (hperstN n)
  case h_5 => exact absurd rfl hrestart
  case h_12 ok => exact absurd rfl (hop ok)
  all_goals rfl

theorem Quiet.moved_fuses (hburn : ∀ rb n, c ≠ .fuseBurnDone rb n) : (q.moved q' c).fuses = q.fuses := by
  unfold Quiet.moved
  split
  case h_2 r => exact absurd rfl (hrail r)
  case h_3 n => exact absurd rfl (hresetN n)
  case h_4 n => exact absurd rfl (hperstN n)
  case h_5 => exact absurd rfl hrestart
  case h_13 rb n => exact absurd rfl (hburn rb n)
  all_goals rfl

end

end

/-- Settles O59: `exec_moves` says of each command what it moves; each clause reads one piece of it. -/
theorem whoTouchesWhat : Obligations.WhoTouchesWhat := by
  unfold Obligations.WhoTouchesWhat
  intro c s t hexec
  have hmoved := exec_moves c hexec
  have piece {α : Type} (g : Quiet → α) : g t.quiet = g (s.quiet.moved t.quiet c) := congrArg g hmoved
  refine ⟨?pending, fun hpor => ?smbAddr, fun hrail htrip => ?tripped, fun hstats hget hdel hred => ?host,
    fun hrail hresetN hperstN hrestart => ⟨fun hop => ?flash, fun hburn => ⟨?fuses, fun hpor => ?sensed⟩⟩⟩
  case pending => exact (piece Quiet.pending).trans (Quiet.moved_pending _ _)
  case smbAddr => exact (piece Quiet.smbAddr).trans (Quiet.moved_smbAddr _ _ hpor)
  case tripped => exact (piece Quiet.tripped).trans (Quiet.moved_tripped _ _ hrail htrip)
  case host => exact (piece Quiet.host).trans (Quiet.moved_host _ _ hstats hget hdel hred)
  case flash => exact (piece Quiet.flash).trans (Quiet.moved_flash _ _ hrail hresetN hperstN hrestart hop)
  case fuses => exact (piece Quiet.fuses).trans (Quiet.moved_fuses _ _ hrail hresetN hperstN hrestart hburn)
  case sensed => exact (piece Quiet.sensed).trans (Quiet.moved_sensed _ _ hrail hburn hpor)

end Sys2Proof.Machine
end

section
/-!
SUPPORT. The reset pins, and leaving RESET (R23, R37, R41, R70, R81).
-/

namespace Sys2Proof.Machine

section
variable (s : State)

/-! ### The filter of the reset pins (R41) -/

/-- A low level of 300 ns or less never passes the filter. -/
theorem State.passes_short {n : Nat} (h : n ≤ 300) : s.passes n = (false, s) := by
  have hn : ¬ 340 ≤ n := by omega
  simp [State.passes, hn, h]

/-- Between 300 ns and 340 ns a draw says whether a low level passes. -/
theorem State.passes_between {n : Nat} (h : 300 < n) (h' : n < 340) :
    s.passes n = (true, { s with free := s.free + 1 }) ∨ s.passes n = (false, { s with free := s.free + 1 }) := by
  have hlong : ¬ 340 ≤ n := by omega
  have hshort : ¬ n ≤ 300 := by omega
  have hdraw : s.passes n = ((s.draw 1).1 == 1, { s with free := s.free + 1 }) := by
    simp only [State.passes, if_neg hlong, if_neg hshort]
    rfl
  cases hv : (s.draw 1).1 == 1
  · exact .inr (by rw [hdraw, hv])
  · exact .inl (by rw [hdraw, hv])

theorem exec_resetNAssert_passes {n : Nat} {u : State} (h : s.passes n = (true, u)) :
    exec (.resetNAssert n) s = .next { u.devReset 1 with pins := { (u.devReset 1).pins with resetN := false } } := by
  simp only [exec, execResetNAssert, h, if_true]

theorem exec_resetNAssert_filtered {n : Nat} {u : State} (h : s.passes n = (false, u)) :
    exec (.resetNAssert n) s = .next u := by
  simp only [exec, execResetNAssert, h, Bool.false_eq_true, if_false]

theorem exec_perstNAssert_passes {n : Nat} {u : State} (h : s.passes n = (true, u)) :
    exec (.perstNAssert n) s = .next { u.devReset 2 with pins := { (u.devReset 2).pins with perstN := false } } := by
  simp only [exec, execPerstNAssert, h, if_true]

theorem exec_perstNAssert_filtered {n : Nat} {u : State} (h : s.passes n = (false, u)) :
    exec (.perstNAssert n) s = .next u := by
  simp only [exec, execPerstNAssert, h, Bool.false_eq_true, if_false]

end

/-- Settles O1: the filter passes, drops or draws, and a pulse that passes is a DEV reset. -/
theorem resetPinFilter : Obligations.ResetPinFilter := by
  unfold Obligations.ResetPinFilter
  intro s n
  refine ⟨fun hlong => ?long, fun hshort => ?short, fun hlow hhigh => ?between⟩
  case long =>
    have hp := State.passes_long (s := s) hlong
    exact ⟨_, _, exec_resetNAssert_passes s hp, rfl, rfl, exec_perstNAssert_passes s hp, rfl, rfl⟩
  case short =>
    have hp := s.passes_short hshort
    exact ⟨exec_resetNAssert_filtered s hp, exec_perstNAssert_filtered s hp⟩
  case between =>
    have hfull := State.passes_long (s := { s with free := s.free + 1 }) (n := 340) (Nat.le_refl 340)
    rcases s.passes_between hlow hhigh with hp | hp
    · exact ⟨.inl ((exec_resetNAssert_passes s hp).trans (exec_resetNAssert_passes _ hfull).symm),
        .inl ((exec_perstNAssert_passes s hp).trans (exec_perstNAssert_passes _ hfull).symm)⟩
    · exact ⟨.inr (exec_resetNAssert_filtered s hp), .inr (exec_perstNAssert_filtered s hp)⟩

/-! ### Events while the device neither trains nor runs (R18, R440) -/

/-- A state without the fault collector and the interrupt controller. -/
def State.unflagged (s : State) : State := { s with flt := {}, irq := {} }

section
variable {s : State}

/-- Only from TRAIN and RUN does the device enter SAFE (R18). -/
theorem State.enterSafe_elsewhere (hst : ¬ (s.glb.st = .train ∨ s.glb.st = .run)) : s.enterSafe = s := by
  simp [State.enterSafe, hst]

theorem State.fltNotify_unflagged (hst : ¬ (s.glb.st = .train ∨ s.glb.st = .run)) (n l : Nat) :
    (s.fltNotify n l).unflagged = s.unflagged := by
  have hf := State.irqEvent_frame (s.fltMark n) (irqFlt n)
  rw [State.fltNotify_eq]
  split
  · rw [State.enterSafe_elsewhere (by rw [hf]; exact hst), hf]
    rfl
  · rw [hf]
    rfl

/-- Outside TRAIN and RUN a source whose FAILOVER moves nothing concerns the collector and the interrupt controller alone. -/
theorem State.raise_unflagged {n : Nat} (hst : ¬ (s.glb.st = .train ∨ s.glb.st = .run)) (hk : fltKind n = none)
    (hg : n < 0x040 ∨ 0x060 ≤ n) : (s.raise n).unflagged = s.unflagged := by
  cases hc : s.canRise n with
  | false => rw [State.raise_held s hc]
  | true =>
    rw [State.raise_plain s hc hk hg]
    obtain ⟨f, -, h | ⟨l, h⟩⟩ := State.react_cases s n none false (s.muted (fltUnit n none))
    · rw [h]; rfl
    · rw [h]
      exact State.fltNotify_unflagged (s := { s with flt := f }) hst n l

theorem State.setLine_unflagged {n : Nat} (hst : ¬ (s.glb.st = .train ∨ s.glb.st = .run)) (hk : fltKind n = none)
    (hg : n < 0x040 ∨ 0x060 ≤ n) (level : Bool) : (s.setLine n level).unflagged = s.unflagged := by
  have h := State.raise_unflagged hst hk hg
  unfold State.setLine
  dsimp only
  split
  · exact h
  · rfl

theorem fltKind_srcCrit {j : Nat} (h : j < 16) : fltKind (srcCrit j) = none := by
  have : ∀ j, j < 16 → fltKind (srcCrit j) = none := by decide
  exact this j h

/-- The line of a sensor's critical temperature that lasts rises (R46). -/
def State.critLine (s : State) (t : Nat) : State := if s.therm.crit.get false t then s.setLine (srcCrit t) true else s

theorem State.critLine_unflagged {j : Nat} (hst : ¬ (s.glb.st = .train ∨ s.glb.st = .run)) (hj : j < 16) :
    (s.critLine j).unflagged = s.unflagged := by
  unfold State.critLine
  split
  · exact State.setLine_unflagged hst (fltKind_srcCrit hj) (.inr (by unfold srcCrit; omega)) true
  · rfl

theorem State.critLines_unflagged (hst : s.glb.st = .load) (js : List Nat) (hjs : ∀ j ∈ js, j < 16) :
    (js.foldl State.critLine s).unflagged = s.unflagged := by
  induction js generalizing s with
  | nil => rfl
  | cons j js ih =>
    have hj := State.critLine_unflagged (s := s) (j := j) (by simp [hst]) (hjs j List.mem_cons_self)
    have hload : (s.critLine j).glb.st = .load := ((congrArg (fun t => t.glb.st) hj :)).trans hst
    exact (ih hload fun i hi => hjs i (List.mem_cons_of_mem _ hi)).trans hj

/-! ### Leaving RESET (R37, R51) -/

/-- LOAD as it begins, ahead of the events of what lasts (R51). -/
def State.loading (s : State) : State :=
  let s := { s with
    glb := { s.glb with st := .load, lastReset := s.glb.cause, compat := s.pins.compat }
    pins := { s.pins with xspiRst := true }
    mbx := { s.mbx with fenic := s.pins.compat }
    cfg := { s.cfg with phase := 1 } }
  { s with chip := { s.chip with repairs := s.led.repairs } }.coresSpare.ledgerUnits

/-- A fuse error is an event (R83). -/
def State.fuseEvent (s : State) : State := if s.sec.sensed.eccErr then s.raise srcFuse else s

theorem State.leaveReset_eq (s : State) : s.leaveReset = ((List.range 16).foldl State.critLine s.loading).fuseEvent := by
  have hline : State.critLine = fun s t => if s.therm.crit.get false t then s.setLine (srcCrit t) true else s := rfl
  simp only [State.leaveReset, State.loading, State.fuseEvent, hline]

theorem State.leaveReset_unflagged (s : State) : s.leaveReset.unflagged = s.loading.unflagged := by
  have hst : s.loading.glb.st = .load := rfl
  rw [State.leaveReset_eq]
  generalize s.loading = u at hst ⊢
  have hcrit := State.critLines_unflagged hst (List.range 16) fun j => List.mem_range.mp
  generalize (List.range 16).foldl State.critLine u = v at hcrit ⊢
  have hv : v.glb.st = .load := ((congrArg (fun t => t.glb.st) hcrit :)).trans hst
  unfold State.fuseEvent
  split
  · exact (State.raise_unflagged (by simp [hv]) (by decide) (.inr (by decide))).trans hcrit
  · exact hcrit

/-- LOAD, once its events are raised: the device's own record, its pins, the slots, the layout and the fuses. -/
theorem State.leaveReset_leaves (s : State) :
    s.leaveReset.glb = { s.glb with st := .load, lastReset := s.glb.cause, compat := s.pins.compat }
      ∧ s.leaveReset.pins = { s.pins with xspiRst := true } ∧ s.leaveReset.cfg = { s.cfg with phase := 1 }
      ∧ s.leaveReset.mbx = { s.mbx with fenic := s.pins.compat } ∧ s.leaveReset.sec = s.sec := by
  have hu := s.leaveReset_unflagged
  generalize s.leaveReset = t at hu ⊢
  have hglb : t.glb = s.loading.glb := (congrArg State.glb hu :)
  have hpins : t.pins = s.loading.pins := (congrArg State.pins hu :)
  have hcfg : t.cfg = s.loading.cfg := (congrArg State.cfg hu :)
  have hmbx : t.mbx = s.loading.mbx := (congrArg State.mbx hu :)
  have hsec : t.sec = s.loading.sec := (congrArg State.sec hu :)
  exact ⟨hglb, hpins, hcfg, hmbx, hsec⟩

/-- The device leaves RESET where the last of the three moments has come, and else stays as it is. -/
theorem State.tryLeave_eq (hst : s.glb.st = .reset) (hh : s.glb.restartHold = false) :
    s.tryLeave = if s.glb.por && s.pins.resetN && s.pins.perstN then s.leaveReset else s := by
  simp [State.tryLeave, hst, hh, and_assoc]

theorem State.tryLeave_glb (hst : s.glb.st = .reset) (hh : s.glb.restartHold = false) : s.tryLeave.glb
    = if s.glb.por && s.pins.resetN && s.pins.perstN then
        { s.glb with st := .load, lastReset := s.glb.cause, compat := s.pins.compat } else s.glb := by
  obtain ⟨hglb, -⟩ := s.leaveReset_leaves
  rw [State.tryLeave_eq hst hh, apply_ite State.glb, hglb]

/-- A release with no RESTART to wait for: the device is in LOAD where it was the last of the three, and samples COMPAT then. -/
theorem State.tryLeave_release (hst : s.glb.st = .reset) (hh : s.glb.restartHold = false) :
    s.tryLeave.glb.smbAddr = s.glb.smbAddr
      ∧ s.tryLeave.glb.st = (if s.glb.por && s.pins.resetN && s.pins.perstN then .load else .reset)
      ∧ (s.glb.por = true → s.pins.resetN = true → s.pins.perstN = true → s.tryLeave.glb.compat = s.pins.compat) := by
  rw [State.tryLeave_glb hst hh]
  split
  · exact ⟨rfl, rfl, fun _ _ _ => rfl⟩
  next hlast => exact ⟨rfl, hst, fun h1 h2 h3 => absurd (by simp [h1, h2, h3]) hlast⟩

theorem State.tryLeave_pins (s : State) : s.tryLeave.pins.resetN = s.pins.resetN ∧ s.tryLeave.pins.perstN = s.pins.perstN := by
  obtain ⟨-, hpins, -⟩ := s.leaveReset_leaves
  unfold State.tryLeave
  split
  · rw [hpins]; exact ⟨rfl, rfl⟩
  · exact ⟨rfl, rfl⟩

theorem State.tryLeave_sec (s : State) : s.tryLeave.sec = s.sec := by
  obtain ⟨-, -, -, -, hsec⟩ := s.leaveReset_leaves
  unfold State.tryLeave
  split
  · exact hsec
  · rfl

/-- The release of the power-on reset samples the reset pins and the straps (R31, R37). -/
def State.sampled (s : State) (p : PinLevels) : State :=
  { s with
    glb := { s.glb with por := true, smbAddr := p.smbAddr % 4 }
    pins := { s.pins with resetN := p.resetN, perstN := p.perstN, compat := p.compat, smbAddr := p.smbAddr % 4 } }

theorem exec_porRelease (p : PinLevels) (e : FuseEcc) (h : s.glb.por = false) :
    exec (.porRelease p e) s = .next ((s.sampled p).sense e).tryLeave := by
  simp only [exec, execPorRelease, h, Bool.false_eq_true, if_false]
  rfl

end

/-- Settles O3: each release is `tryLeave` on the state with its own pin; `leaveReset_leaves` says what LOAD begins with. -/
theorem leavingReset : Obligations.LeavingReset := by
  unfold Obligations.LeavingReset
  refine ⟨fun s hst hhold =>
      ⟨fun p e hpor => ?por, fun c => ?resetN, fun c => ?perstN, fun n t h => ?lowReset, fun n t h => ?lowPerst⟩,
    fun s c hst hhold hpor hr hp => ?restart⟩
  case por =>
    obtain ⟨haddr, hload, hcompat⟩ := State.tryLeave_release (s := (s.sampled p).sense e) hst hhold
    have hsec := ((s.sampled p).sense e).tryLeave_sec
    refine ⟨_, exec_porRelease p e hpor, haddr, hload, hcompat rfl, ?_, ?_, fun he => ?_, fun he => ?_⟩
    · rw [hsec]; rfl
    · rw [hsec]; rfl
    · rw [hsec]; simp [State.sense, State.sampled, he]
    · rw [hsec]; simp [State.sense, State.sampled, he]
  case resetN =>
    obtain ⟨haddr, hload, hcompat⟩ := State.tryLeave_release
      (s := { s with pins := { s.pins with resetN := true, compat := c } }) hst hhold
    exact ⟨_, rfl, haddr, (State.tryLeave_pins _).1, by simpa using hload, fun hpor hp => hcompat hpor rfl hp⟩
  case perstN =>
    obtain ⟨haddr, hload, hcompat⟩ := State.tryLeave_release
      (s := { s with pins := { s.pins with perstN := true, compat := c } }) hst hhold
    exact ⟨_, rfl, haddr, (State.tryLeave_pins _).2, by simpa using hload, fun hpor hr => hcompat hpor hr rfl⟩
  case lowReset => exact (congrArg Quiet.smbAddr (exec_moves _ h)).trans (Quiet.moved_smbAddr _ _ nofun)
  case lowPerst => exact (congrArg Quiet.smbAddr (exec_moves _ h)).trans (Quiet.moved_smbAddr _ _ nofun)
  case restart =>
    obtain ⟨hglb, hpins, hcfg, hmbx, hsec⟩ := State.leaveReset_leaves
      { s with glb := { s.glb with restartHold := false }, pins := { s.pins with compat := c } }
    have hrun : exec (.restartLeaveReset c) s = .next (State.leaveReset
        { s with glb := { s.glb with restartHold := false }, pins := { s.pins with compat := c } }) := by
      simp [exec, execRestartLeaveReset, hhold, State.tryLeave, hst, hpor, hr, hp]
    exact ⟨_, hrun, by rw [hglb], by rw [hglb], by rw [hglb], by rw [hglb], by rw [hcfg], by rw [hmbx], by rw [hsec], by rw [hpins]⟩

end Sys2Proof.Machine
end

section
/-!
SUPPORT. Losses of clocks and of the PCIe link (R34, R44), configuration requests (R43, R489), and what a sensor's report does (R29, R46).
-/

namespace Sys2Proof.Machine

/-- A dropped key reads as unlisted. -/
theorem Tbl.get_drop_self {α : Type} (d : α) (t : Tbl α) {p : Nat → Bool} {k : Nat} (h : p k = true) : (t.drop p).get d k = d := by
  induction t with
  | nil => rfl
  | cons e t ih =>
    obtain ⟨k', v⟩ := e
    by_cases hp : p k' = true
    · have hdrop : Tbl.drop ((k', v) :: t) p = Tbl.drop t p := by simp [Tbl.drop, hp]
      rw [hdrop, ih]
    · have hdrop : Tbl.drop ((k', v) :: t) p = (k', v) :: Tbl.drop t p := by simp [Tbl.drop, hp]
      have hk : k ≠ k' := fun e => hp (e ▸ h)
      rw [hdrop, Tbl.get, if_neg hk, ih]
      simp

section
variable (s : State)

/-! ### The link (R44) -/

/-- A fold whose steps concern the interrupt controller alone concerns it alone. -/
theorem foldl_irq_frame {α : Type} {f : State → α → State} (h : ∀ s a, f s a = { s with irq := (f s a).irq }) (l : List α)
    (s : State) : l.foldl f s = { s with irq := (l.foldl f s).irq } := by
  induction l generalizing s with
  | nil => rfl
  | cons a l ih =>
    rw [List.foldl_cons, ih]
    exact congrArg (fun t => { t with irq := (l.foldl f (f s a)).irq }) (h s a)

theorem State.irqWithdraw_frame (ns : List Nat) : s.irqWithdraw ns = { s with irq := (s.irqWithdraw ns).irq } :=
  foldl_irq_frame (fun _ _ => rfl) _ s

/-- The function's reset concerns the link's state, the mailbox's rings, the completion ring and presented messages. -/
theorem State.pcieDown_frame (link : Bool) : s.pcieDown link = { s with
    irq := (s.pcieDown link).irq
    pcie := { link := link && s.pcie.link }
    mbx := s.mbx.pcieReset
    bar2 := s.bar2.drop fun a => decide (cqBase ≤ a ∧ a < cqBase + cqLen) } := by
  have h := foldl_irq_frame (f := fun (s : State) t => s.irqWithdraw (s.irqPresents t))
    (fun s t => s.irqWithdraw_frame (s.irqPresents t)) (range2 4 68) s
  unfold State.pcieDown
  dsimp only
  rw [h]

/-- Beyond the collector an event of a source whose FAILOVER moves nothing can take the device to SAFE, and no more. -/
theorem State.raise_calm {n : Nat} (hk : fltKind n = none) (hg : n < 0x040 ∨ 0x060 ≤ n) :
    ∃ st f, (s.raise n).calm = ({ s with glb := { s.glb with st := st }, flt := f } : State).calm := by
  cases h : s.canRise n with
  | false => exact ⟨s.glb.st, s.flt, by rw [State.raise_held s h]⟩
  | true =>
    rw [State.raise_plain s h hk hg]
    obtain ⟨st, f, -, hc⟩ := State.react_calm s n none false _
    exact ⟨st, f, hc⟩

theorem State.linkDown_leaves (h : s.pcie.link = true) : s.linkDown.pcie = {} ∧ s.linkDown.host = s.host := by
  obtain ⟨st, f, hc⟩ := (s.pcieDown false).raise_calm (n := srcPcieDown) (by decide) (.inr (by decide))
  have hd : s.linkDown = (s.pcieDown false).raise srcPcieDown := by simp [State.linkDown, h]
  rw [hd]
  rw [s.pcieDown_frame false] at hc ⊢
  exact ⟨(congrArg State.pcie hc :), (congrArg State.host hc :)⟩

/-! ### Configuration requests (R43, R489) -/

section
variable {s} {r : CfgReq} (hlink : s.pcie.link = true) (hpcie : s.stopped 8 = false)
include hlink hpcie

theorem exec_configurationRequest_ready (h : s.pcie.cfgReady = true) :
    exec (.configurationRequest r) s = .next ({ s with pcie := { s.pcie with lastCpl := 1 } }.configure r) := by
  simp [exec, execConfigurationRequest, hlink, hpcie, h]

theorem exec_configurationRequest_draws (h : s.pcie.cfgReady = false) :
    exec (.configurationRequest r) s
        = .next ({ s with pcie := { s.pcie with cfgReady := true, lastCpl := 1 }, free := s.free + 1 }.configure r)
      ∨ exec (.configurationRequest r) s = .next { s with pcie := { s.pcie with lastCpl := 2 }, free := s.free + 1 } := by
  cases hv : (s.draw 1).1 == 1
  · exact .inr (by simp [exec, execConfigurationRequest, hlink, hpcie, h, hv])
  · exact .inl (by simp [exec, execConfigurationRequest, hlink, hpcie, h, hv])

end

/-! ### Sensors (R46) -/

theorem State.thermLine_awake (n : Nat) (level : Bool) (h : s.glb.st ≠ .reset) : s.thermLine n level = s.setLine n level := by
  simp [State.thermLine, h]

theorem State.thermLine_reset (n : Nat) (level : Bool) (h : s.glb.st = .reset) : s.thermLine n level = s := by
  simp [State.thermLine, h]

/-- A line that falls is no event: it concerns the collector alone. -/
theorem State.thermLine_falls (n : Nat) : s.thermLine n false = { s with flt := (s.thermLine n false).flt } := by
  unfold State.thermLine
  split <;> rfl

@[simp] theorem State.thermLine_falls_glb (n : Nat) : (s.thermLine n false).glb = s.glb := by rw [State.thermLine_falls]
@[simp] theorem State.thermLine_falls_therm (n : Nat) : (s.thermLine n false).therm = s.therm := by rw [State.thermLine_falls]

end

/-- Settles O4: one branch of each command per clause; what an event leaves is `raise_calm`'s. -/
theorem clocksAndSensors : Obligations.ClocksAndSensors := by
  unfold Obligations.ClocksAndSensors
  refine ⟨fun s n r => ⟨fun hrun hn => ?clkSys, fun hst hn => ?ethClk, fun hn => ?brief, fun hlink => ?down, fun hlink => ?flr,
    fun hst hperst hpcie => ?up, fun hlink hpcie hready => ?ready, fun hlink hpcie hready => ?draws⟩, fun s ts tj => ?sensors⟩
  case clkSys => simp [exec, execClkSysLoss, hrun, hn]
  case ethClk => simp [exec, execEthRefclkLoss, hst, hn]
  case brief =>
    have hn' : ¬ 1000 < n := by omega
    simp [exec, execClkSysLoss, execEthRefclkLoss, hn']
  case down =>
    obtain ⟨hpcie, hhost⟩ := s.linkDown_leaves hlink
    exact ⟨s.linkDown, rfl, rfl, rfl, hpcie, hhost⟩
  case flr =>
    have hrun : exec (.pcieLinkDown .flr) s = .next (s.pcieDown true) := by simp [exec, execPcieLinkDown, hlink]
    rw [s.pcieDown_frame true, hlink] at hrun
    refine ⟨_, hrun, rfl, rfl, rfl, rfl, rfl, rfl, rfl, ?_, fun a hlo hhi => ?_⟩
    · simp [Mbx.pcieReset]
    · exact Tbl.get_drop_self _ _ (p := fun a => decide (cqBase ≤ a ∧ a < cqBase + cqLen)) (decide_eq_true ⟨hlo, hhi⟩)
  case up => simp [exec, execPcieLinkUp, hst, hperst, hpcie]
  case ready => exact exec_configurationRequest_ready hlink hpcie hready
  case draws => exact exec_configurationRequest_draws hlink hpcie hready
  case sensors =>
    intro v
    refine ⟨fun ht hlow => ?trips, fun ht hlow => ?tripped, fun ht hload hst => ?warns, fun ht hst => ?crit, fun ht hst => ?critReset,
      fun ht => ?cools, fun ht => ?clears⟩
    case trips =>
      have h : ¬ tj < tripAt := by unfold tripAt; omega
      simp [exec, execThermtrip, h, State.setTj, hlow, v]
    case tripped =>
      simp [exec, execThermtrip, State.setTj, hlow, v]
    case warns =>
      have h : ¬ tj < warnLow := by unfold warnLow; omega
      simp [exec, execThermalWarn, State.setTj, h, hload, State.thermLine_awake, hst, v]
    case crit =>
      have h : ¬ tj < critAt := by unfold critAt; omega
      simp [exec, execThermalCrit, State.setTj, h, State.thermLine_awake, hst, v]
    case critReset =>
      have h : ¬ tj < critAt := by unfold critAt; omega
      simp [exec, execThermalCrit, State.setTj, h, State.thermLine_reset, hst, v]
    case cools =>
      have h : tj < critAt := ht
      simp only [exec, execThermalAlertClears, h, if_true]
      refine ⟨_, rfl, ?_⟩
      split <;> simp [State.setTj]
    case clears =>
      have hcrit : tj < critAt := by unfold critAt; omega
      have hwarn : tj < warnLow := ht
      simp only [exec, execThermalAlertClears, hcrit, hwarn, true_or, if_true]
      exact ⟨_, rfl, by simp [State.setTj]⟩

end Sys2Proof.Machine
end

section
/-!
SUPPORT. The SMBus target (R31, R47): the hottest sensor, the live thermal sources, and what each read command returns.
-/

namespace Sys2Proof.Machine

/-! ### The hottest sensor -/

/-- The search for the largest of `f 0` to `f n` finds the first of the largest. -/
theorem foldl_argmax (f : Nat → Int) (n : Nat) :
    let k := (List.range (n + 1)).foldl (fun b t => if f b < f t then t else b) 0
    k ≤ n ∧ (∀ j, j ≤ n → f j ≤ f k) ∧ ∀ j, j < k → f j < f k := by
  induction n with
  | zero =>
    have h0 : (List.range 1).foldl (fun b t => if f b < f t then t else b) 0 = 0 := by simp [List.range_succ]
    dsimp only
    rw [h0]
    exact ⟨Nat.le_refl 0, fun j hj => by rw [Nat.le_zero.mp hj], fun j hj => absurd hj (Nat.not_lt_zero j)⟩
  | succ n ih =>
    dsimp only at ih ⊢
    rw [List.range_succ, List.foldl_append, List.foldl_cons, List.foldl_nil]
    generalize (List.range (n + 1)).foldl (fun b t => if f b < f t then t else b) 0 = k at ih ⊢
    obtain ⟨hk, hmax, hfirst⟩ := ih
    split
    next hnew =>
      have hbelow (j : Nat) (hj : j ≤ n) : f j < f (n + 1) := Int.lt_of_le_of_lt (hmax j hj) hnew
      refine ⟨Nat.le_refl _, fun j hj => ?_, fun j hj => hbelow j (Nat.le_of_lt_succ hj)⟩
      rcases Nat.lt_or_eq_of_le hj with h | h
      · exact Int.le_of_lt (hbelow j (Nat.le_of_lt_succ h))
      · rw [h]
    next hold =>
      refine ⟨Nat.le_succ_of_le hk, fun j hj => ?_, hfirst⟩
      rcases Nat.lt_or_eq_of_le hj with h | h
      · exact hmax j (Nat.le_of_lt_succ h)
      · rw [h]; exact Int.not_lt.mp hold

section
variable (s : State)

theorem State.hottest_spec : s.hottest < 16 ∧ (∀ j, j < 16 → s.therm.tj.get 0 j ≤ s.therm.tj.get 0 s.hottest)
    ∧ ∀ j, j < s.hottest → s.therm.tj.get 0 j < s.therm.tj.get 0 s.hottest := by
  obtain ⟨hk, hmax, hfirst⟩ := foldl_argmax (s.therm.tj.get 0) 15
  exact ⟨Nat.lt_succ_of_le hk, fun j hj => hmax j (Nat.le_of_lt_succ hj), hfirst⟩

/-! ### Live thermal sources -/

theorem State.any_warnLive : (List.range 16).any s.warnLive = true
    ↔ ∃ j, j < 16 ∧ (s.therm.warn.get false j = true ∨ s.flt.force.get false (0x130 + j) = true) := by
  simp [State.warnLive, List.any_eq_true]

theorem State.any_critLive : (List.range 16).any s.critLive = true
    ↔ ∃ j, j < 16 ∧ (s.therm.crit.get false j = true ∨ s.flt.force.get false (0x140 + j) = true) := by
  simp [State.critLive, List.any_eq_true]

variable {s}

/-- One live thermal source pulls SMB_ALERT_N low. -/
theorem State.smbAlertLow_of_live {j : Nat} (hj : j < 16) (h : s.therm.warn.get false j = true ∨ s.therm.crit.get false j = true
      ∨ s.flt.force.get false (0x130 + j) = true ∨ s.flt.force.get false (0x140 + j) = true) : s.smbAlertLow = true := by
  unfold State.smbAlertLow
  rw [List.any_eq_true]
  refine ⟨j, List.mem_range.mpr hj, ?_⟩
  rcases h with h | h | h | h <;> simp [State.warnLive, State.critLive, h]

theorem State.smbAlertLow_of_quiet (h : ∀ i, i < 16 → s.therm.warn.get false i = false ∧ s.therm.crit.get false i = false
      ∧ s.flt.force.get false (0x130 + i) = false ∧ s.flt.force.get false (0x140 + i) = false) : s.smbAlertLow = false := by
  unfold State.smbAlertLow
  rw [List.any_eq_false]
  intro i hi
  obtain ⟨hwarn, hcrit, hfwarn, hfcrit⟩ := h i (List.mem_range.mp hi)
  simp [State.warnLive, State.critLive, hwarn, hcrit, hfwarn, hfcrit]

end

/-- Settles O5: a read command is `smbReturn` of its bytes; the hottest sensor and the live sources are read by the lemmas above. -/
theorem smbusReads : Obligations.SmbusReads := by
  unfold Obligations.SmbusReads
  refine ⟨fun s code n => ?reads, fun s j hj => ?alert⟩
  case reads =>
    intro own read drawn word
    refine ⟨?hottest, rfl, rfl, ?status, fun hlo hhi => ?sensor, fun hlo hhi => ?rail, fun hlo hhi => ?unknown⟩
    case hottest =>
      obtain ⟨hk, hmax, hfirst⟩ := s.hottest_spec
      exact ⟨s.hottest, hk, hmax, hfirst, rfl, rfl⟩
    case status => exact ⟨_, _, s.any_warnLive, s.any_critLive, rfl⟩
    case sensor =>
      have h : 0x10 ≤ code ∧ code < 0x20 := ⟨hlo, by omega⟩
      simp only [exec, execSmbReadSensorTj, if_pos h]
      rfl
    case rail =>
      have h : 0x20 ≤ code ∧ code ≤ 0x28 := ⟨hlo, hhi⟩
      simp only [exec, execSmbReadRailCurrent, if_pos h]
      rfl
    case unknown =>
      have h : smbKnown code = false := by
        simp only [smbKnown, Bool.or_eq_false_iff, decide_eq_false_iff_not]
        omega
      simp only [exec, execSmbUnknownCommand, h, Bool.false_eq_true, if_false]
      rfl
  case alert =>
    intro read
    refine ⟨fun hlive => ?answers, fun hquiet => ?silent⟩
    case answers =>
      simp only [exec, execSmbAlertResponse, State.smbAlertLow_of_live hj hlive, if_true]
      rfl
    case silent =>
      simp only [exec, execSmbAlertResponse, State.smbAlertLow_of_quiet hquiet, Bool.false_eq_true, if_false]
      rfl

end Sys2Proof.Machine
end

section
/-!
SUPPORT. The test access port (R50, R98, R99, R104, R106): scans of the boundary register, and the debug instructions.
-/

namespace Sys2Proof.Machine

section
variable (s : State)

/-- A scan after an instruction was selected; no bits shifted in are no scan. -/
theorem State.scanDr_tapSelect (code : Nat) (load : List Bool) : (s.tapSelect code).scanDr load
    = if load = [] then s.tapSelect code else { s with
        free := s.free + 1
        outs := { s.outs with scan := scanCells.mapIdx (s.tapSelect code).pinLevel }
        sec := { s.sec with tap := code, scan := (List.range scanCells.length).map fun i => (load[i]?).getD false } } := rfl

/-! ### Selecting a debug instruction (R98, R99) -/

/-- The keys are discarded and a new internal key is drawn (R99). -/
def State.keysDiscarded (s : State) : State :=
  { s with sec := { s.sec with keys := [], entries := [], keyGen := s.free }, free := s.free + 1 }

variable {s}

theorem State.tapOpen_closed (h : s.sec.sensed.debugClosed = true) (code : Nat) : s.tapOpen code = s.tapSelect 0xFF := by
  simp [State.tapOpen, h]

theorem State.tapOpen_starting (h : s.sec.sensed.debugClosed = false)
    (hst : s.glb.st = .reset ∨ s.glb.st = .load ∨ s.glb.st = .loadfail) (code : Nat) : s.tapOpen code = s.tapSelect code := by
  rcases hst with e | e | e <;> simp [State.tapOpen, h, e]

theorem State.tapOpen_started (h : s.sec.sensed.debugClosed = false)
    (hst : s.glb.st = .train ∨ s.glb.st = .run ∨ s.glb.st = .safe) (code : Nat) :
    s.tapOpen code = (s.keysDiscarded.raise srcDebug).tapSelect code := by
  rcases hst with e | e | e <;> simp [State.tapOpen, h, e, State.keysDiscarded]

/-- DEBUG_OPEN leaves the keys discarded and the fabric as it was. -/
theorem State.raise_srcDebug_leaves (v : State) :
    (v.raise srcDebug).sec = v.sec ∧ (v.raise srcDebug).fab = v.fab := by
  obtain ⟨st, f, hc⟩ := v.raise_calm (n := srcDebug) (by decide) (.inr (by decide))
  generalize v.raise srcDebug = u at hc ⊢
  exact ⟨(congrArg State.sec hc :), (congrArg State.fab hc :)⟩

/-- What a debug instruction leaves once it is active in TRAIN, RUN or SAFE (R99). -/
theorem State.tapOpen_leaves (h : s.sec.sensed.debugClosed = false)
    (hst : s.glb.st = .train ∨ s.glb.st = .run ∨ s.glb.st = .safe) (code : Nat) :
    (s.tapOpen code).sec = { s.sec with keys := [], entries := [], keyGen := s.free, tap := code } ∧ (s.tapOpen code).fab = s.fab
      ∧ (s.canRise 0x16A = true → (s.tapOpen code).flt.sticky.get false 0x16A = true) := by
  obtain ⟨hsec, hfab⟩ := State.raise_srcDebug_leaves s.keysDiscarded
  rw [State.tapOpen_started h hst]
  refine ⟨?_, hfab, fun hc => State.raiseIn_sets s.keysDiscarded none false false _ hc⟩
  exact congrArg (fun v : Sec => { v with tap := code }) hsec

/-! ### DBG_FABRIC (R104, R106) -/

theorem foldl_fabRespond_keeps {β : Type} (g : State → β) (h : ∀ s m, g (s.fabRespond m true []) = g s) (l : List FabReq)
    (s : State) : g (l.foldl (fun s r => s.fabRespond r.master true []) s) = g s := foldl_keeps g (fun s r => h s r.master) l s

/-- Requests that are discarded concern the fabric's queues alone. -/
theorem State.fabDiscard_leaves (s : State) (m : Nat) : (s.fabDiscard m).sec = s.sec ∧ (s.fabDiscard m).flt = s.flt
    ∧ (s.fabDiscard m).fab.frozen = s.fab.frozen :=
  ⟨foldl_fabRespond_keeps State.sec (fun _ _ => rfl) _ _, foldl_fabRespond_keeps State.flt (fun _ _ => rfl) _ _,
    foldl_fabRespond_keeps (fun t => t.fab.frozen) (fun _ _ => rfl) _ _⟩

/-- Requests of master 0xC5 that waited are discarded, and its port is open (R104, R106). -/
theorem execDbgFabric_active (h : (s.tapOpen 0x11).jtagActive = true) : ∃ u, exec .dbgFabric s = .next u
    ∧ u.sec = (s.tapOpen 0x11).sec ∧ u.flt = (s.tapOpen 0x11).flt
    ∧ u.fab.frozen = (s.tapOpen 0x11).fab.frozen.set false 0xC5 false := by
  have hrun : exec .dbgFabric s = .next (
      let v := if (s.tapOpen 0x11).fab.held.any fun r => r.master == 0xC5 then (s.tapOpen 0x11).fabDiscard 0xC5 else s.tapOpen 0x11
      { v with fab := { v.fab with frozen := v.fab.frozen.set false 0xC5 false } }) := by
    simp only [exec, execDbgFabric, h, if_true]
  generalize s.tapOpen 0x11 = v at hrun ⊢
  obtain ⟨hsec, hflt, hfrozen⟩ := v.fabDiscard_leaves 0xC5
  refine ⟨_, hrun, ?_⟩
  dsimp only
  split
  · exact ⟨hsec, hflt, by rw [hfrozen]⟩
  · exact ⟨rfl, rfl, rfl⟩

end

/-- Settles O6: the instructions select and scan; a debug instruction is `tapOpen` in one of its three cases. -/
theorem jtagInstructions : Obligations.JtagInstructions := by
  unfold Obligations.JtagInstructions
  refine ⟨fun s load => ?scan, fun s =>
    ⟨fun hclosed => ?closed, fun hopen hst => ⟨?steward, fun hheld => ?fabric⟩, fun hopen hst => ?opens⟩⟩
  case scan => exact ⟨rfl, rfl, rfl, rfl, rfl, rfl, rfl, rfl, rfl⟩
  case closed =>
    have h := State.tapOpen_closed hclosed
    constructor
    · simp only [exec, execDbgSteward, h]
      rfl
    · simp only [exec, execDbgFabric, h]
      rfl
  case steward =>
    simp only [exec, execDbgSteward, State.tapOpen_starting hopen hst]
    rfl
  case fabric =>
    have hnone : (s.fab.held.any fun r => r.master == 0xC5) = false := by
      simpa using hheld
    have hactive : (s.tapSelect 0x11).jtagActive = true := by simp [State.jtagActive, State.tapSelect, hopen]
    have hheld' : (s.tapSelect 0x11).fab.held = s.fab.held := rfl
    simp only [exec, execDbgFabric, State.tapOpen_starting hopen hst, hactive, hheld', hnone, if_true, Bool.false_eq_true, if_false]
    rfl
  case opens =>
    obtain ⟨hsec, -, hdbg⟩ := State.tapOpen_leaves hopen hst 0x10
    obtain ⟨hsec', hfab', hdbg'⟩ := State.tapOpen_leaves hopen hst 0x11
    have hactive : (s.tapOpen 0x11).jtagActive = true := by simp [State.jtagActive, hsec', hopen]
    obtain ⟨u, hrun, husec, huflt, hufab⟩ := execDbgFabric_active hactive
    rw [hsec'] at husec
    rw [hfab'] at hufab
    rw [← huflt] at hdbg'
    exact ⟨s.tapOpen 0x10, u, rfl, by rw [hsec], by rw [hsec], by rw [hsec], by rw [hsec], hrun, by rw [husec], by rw [husec],
      by rw [husec], by rw [husec], hufab, fun hc => ⟨hdbg hc, hdbg' hc⟩⟩

end Sys2Proof.Machine
end

section
/-!
SUPPORT. Network time (R35, R140 to R142, R148): the entry into holdover and its end, the time pins, and the host's read of the time.
-/

namespace Sys2Proof.Machine

section
variable {s t : State}

/-- Whether a source can rise is a matter of the device's state, the collector and the islands (R18, R439, R477). -/
theorem State.canRise_congr (hg : t.glb = s.glb) (hf : t.flt = s.flt) (hi : t.isl = s.isl) (n : Nat) :
    t.canRise n = s.canRise n := by
  simp only [State.canRise, State.fltLive, State.stopped, State.islOf, hg, hf, hi]

theorem State.raiseBasic_ptp (s : State) (n : Nat) : (s.raiseBasic n).ptp = s.ptp := by
  unfold State.raiseBasic
  split
  · obtain ⟨st, f, -, hc⟩ := State.react_calm s n none false (s.muted (fltUnit n none))
    exact (congrArg State.ptp hc :)
  · rfl

theorem State.raiseBasic_sets {n : Nat} (h : s.canRise n = true) : (s.raiseBasic n).flt.sticky.get false n = true := by
  rw [State.raiseBasic, if_pos h]
  exact State.react_sets s n none false _

/-! ### The lock state (R141) -/

theorem State.setLock_ptp {v : Nat} (h : s.ptp.lock ≠ v) :
    (s.setLock v).ptp = { s.ptp with lock := v, wasLocked := s.ptp.wasLocked || decide (v = 1) } := by
  rw [State.setLock, if_neg h, State.irqEvent_frame]

theorem State.setLock_canRise (s : State) (v n : Nat) : (s.setLock v).canRise n = s.canRise n := by
  unfold State.setLock
  split
  · rfl
  · rw [State.irqEvent_frame]
    exact State.canRise_congr rfl rfl rfl n

/-- A locked clock enters holdover, and PTP_HOLDOVER is raised (R141). -/
theorem State.enterHoldover_locked (h : s.ptp.lock = 1) : ∃ f, f ≤ 2000000
    ∧ s.enterHoldover.ptp = { s.ptp with lock := 2, streak := 0, freq := f, acc := 0, phase := 0 }
    ∧ (s.canRise 0x163 = true → s.enterHoldover.flt.sticky.get false 0x163 = true) := by
  let f := (s.drawBelow 2000001).1
  let u : State := { (s.drawBelow 2000001).2 with ptp := { s.ptp with streak := 0, freq := f, acc := 0, phase := 0 } }
  have he : s.enterHoldover = (u.setLock 2).raiseBasic srcPtpHold := by rw [State.enterHoldover, if_pos h]; rfl
  have hlock : u.ptp.lock ≠ 2 := by
    have : u.ptp.lock = 1 := h
    omega
  have hcan : (u.setLock 2).canRise 0x163 = s.canRise 0x163 := u.setLock_canRise 2 0x163
  refine ⟨f, Nat.le_of_lt_succ (Nat.mod_lt _ (by decide)), ?_, fun hc => ?_⟩
  · rw [he, State.raiseBasic_ptp, State.setLock_ptp hlock]
    simp [u]
  · rw [he]
    exact State.raiseBasic_sets (hcan.trans hc)

theorem State.enterHoldover_unlocked (h : s.ptp.lock ≠ 1) : s.enterHoldover = s := by rw [State.enterHoldover, if_neg h]

/-- Holdover ends, and PTP_UNLOCK is raised (R141). -/
theorem exec_holdoverExpiry_ends (h : s.ptp.lock = 2) (hs : s.ptp.holdoverS ≠ 0) : ∃ t, exec .holdoverExpiry s = .next t
    ∧ t.ptp = { s.ptp with lock := 0 } ∧ (s.canRise 0x164 = true → t.flt.sticky.get false 0x164 = true) := by
  have hrun : exec .holdoverExpiry s = .next ((s.setLock 0).raiseBasic srcPtpUnlock) := by
    simp only [exec, execHoldoverExpiry, h, hs, ne_eq, not_false_eq_true, and_self, if_true]
  refine ⟨_, hrun, ?_, fun hc => State.raiseBasic_sets ((s.setLock_canRise 0 0x164).trans hc)⟩
  rw [State.raiseBasic_ptp, State.setLock_ptp (by omega)]
  simp

/-! ### The time pins (R35, R142) -/

/-- An offset within a second fits the register (R148). -/
theorem sat32_of_second {v : Int} (h : -1000000000 ≤ v) (h' : v ≤ 1000000000) : sat32 v = v := by
  unfold sat32
  omega

/-- An edge that counts records the distance to the nearest second, and in holdover steers the phase (R35, R142). -/
theorem exec_ppsInEdge_seen {n : Nat} (hn : 100 ≤ n) (hrun : s.time.running = true) {off : Int}
    (hoff : (if (s.ptpNsec : Int) < 500000000 then (s.ptpNsec : Int) else (s.ptpNsec : Int) - 1000000000) = off) :
    exec (.ppsInEdge n) s = .next { s with ptp := { s.ptp with
      ppsAt := some s.time.aon, ppsOffset := off
      phase := if s.ptp.lock = 2 ∧ s.ptp.ppsInEn = true then off * 2000 else s.ptp.phase } } := by
  have hlt : s.ptpNsec < 1000000000 := Nat.mod_lt _ (by decide)
  have hsat : sat32 off = off := sat32_of_second (by omega) (by omega)
  simp only [exec, execPpsInEdge, hn, hrun, and_self, if_true, hoff, hsat, Bool.and_eq_true, beq_iff_eq]
  rfl

/-! ### The host's read of the time (R148) -/

/-- ROTA_TIME_NS and the word below it are no counters. -/
theorem State.counterAt_time (s : State) : s.counterAt 0x100030 = none ∧ s.counterAt 0x10002C = none := by
  simp [State.counterAt, entryOf]

theorem State.regRuns_time (s : State) : s.regRuns 0x100030 = true := by simp [State.regRuns, regIsland]

theorem State.regWord_time (s : State) : s.regWord 0x100030 = s.ptpNsec := by
  obtain ⟨hown, hbelow⟩ := s.counterAt_time
  simp [State.regWord, s.regRuns_time, hown, hbelow, State.plainWord, State.regRota]

theorem State.readEffect_time (s : State) :
    s.readEffect 0x100030 = { s with time := { s.time with latched := s.ptpSec } } := by
  simp [State.readEffect, s.regRuns_time]

theorem State.read4_time (s : State) : s.read4 .host 0x100030 = (s.ptpNsec, { s with
    time := { s.time with latched := s.ptpSec }
    outs := { s.outs with bar0 := s.ptpNsec, lastHost := some 0x100030 } }) := by
  obtain ⟨hown, hbelow⟩ := s.counterAt_time
  simp [State.read4, hown, hbelow, s.regWord_time, s.readEffect_time, Outs.readBy]

theorem exec_rotaTimeNsRead_host (h : s.hostBar 0 = true) : exec .rotaTimeNsRead s = .next { s with
    time := { s.time with latched := s.ptpSec }
    outs := { s.outs with bar0 := s.ptpNsec, lastHost := some 0x100030, cpl := 0 } } := by
  have hreach : s.reaches .host = true := h
  simp only [exec, execRotaTimeNsRead, hreach, if_true, State.read4_time]
  rfl

end

/-- Settles O10: the loss of the Sync or of the master is `enterHoldover`; the other clauses are one branch of their command each. -/
theorem networkTime : Obligations.NetworkTime := by
  unfold Obligations.NetworkTime
  refine ⟨fun s tr => ?clock, fun s n => ?pins⟩
  case clock =>
    intro others
    refine ⟨fun h => ?sync, fun h => ?announce, fun h => ?unlocked, exec_holdoverExpiry_ends, fun h => ?endless,
      fun htr hmaster hsend hst hbit => ?delayReq⟩
    case sync =>
      obtain ⟨f, hf, hptp, hflt⟩ := State.enterHoldover_locked h
      exact ⟨_, f, rfl, hf, hptp, hflt⟩
    case announce =>
      obtain ⟨f, hf, hptp, hflt⟩ := State.enterHoldover_locked
        (s := { s with ptp := { s.ptp with master := none, syncTrans := none, foreign := others } }) h
      exact ⟨_, f, rfl, hf, hptp, hflt⟩
    case unlocked =>
      have hlost := State.enterHoldover_unlocked
        (s := { s with ptp := { s.ptp with master := none, syncTrans := none, foreign := others } }) h
      exact ⟨congrArg Host.Outcome.next (State.enterHoldover_unlocked h), congrArg Host.Outcome.next hlost⟩
    case endless => simp [exec, execHoldoverExpiry, h]
    case delayReq =>
      simp only [exec, execDelayReqTransmit, htr, hmaster, hsend, hst, hbit, and_self, if_true]
      exact ⟨_, rfl, rfl, rfl⟩
  case pins =>
    intro seen
    refine ⟨fun hn hrun hns => ?early, fun hn hrun hns => ?late, fun hn => ?short, exec_rotaTimeNsRead_host⟩
    case early => exact exec_ppsInEdge_seen hn hrun (if_pos (by omega))
    case late => exact exec_ppsInEdge_seen hn hrun (if_neg (by omega))
    case short =>
      have hn' : ¬ 100 ≤ n := by omega
      simp [exec, execPpsInEdge, hn']

end Sys2Proof.Machine
end

section
/-!
SUPPORT. A cycle of the AON clock on an empty queue (R33, R142, R143, R147, R455).
-/

namespace Sys2Proof.Machine

/-- A cycle of holdover advances time by 2.5 ns, slewed by at most one half-picosecond. -/
theorem Ptp.coast_bounds (v : Ptp) (n : Nat) (h : n < 2) : 4999 ≤ (v.coast n).1 ∧ (v.coast n).1 ≤ 5001 := by
  unfold Ptp.coast
  dsimp only
  split
  · omega
  · split <;> omega

/-- Time that runs advances by 2.5 ns, slewed by at most one half-picosecond; only in holdover does the PTP unit keep anything of it. -/
theorem State.advance_cases (s : State) : ∃ d v, 4999 ≤ d ∧ d ≤ 5001 ∧ (s.ptp.lock ≠ 2 → v = s.ptp)
    ∧ (if s.ptp.lock = 2 then s.coast else s.slew) = (d, { s with ptp := v, free := s.free + 1 }) := by
  by_cases h : s.ptp.lock = 2
  · obtain ⟨hlo, hhi⟩ := s.ptp.coast_bounds ((Config.freeWord s.free).toNat % 2) (Nat.mod_lt _ (by decide))
    refine ⟨_, (s.ptp.coast ((Config.freeWord s.free).toNat % 2)).2, hlo, hhi, fun hne => absurd h hne, ?_⟩
    rw [if_pos h]
    rfl
  · have hdraw : (Config.freeWord s.free).toNat % 3 < 3 := Nat.mod_lt _ (by decide)
    refine ⟨4999 + (Config.freeWord s.free).toNat % 3, s.ptp, by omega, by omega, fun _ => rfl, ?_⟩
    rw [if_neg h]
    rfl

/-- Settles O55: a step on an empty queue is `tick`, whose advance of time is `advance_cases`'. -/
theorem idleTick : Obligations.IdleTick := by
  unfold Obligations.IdleTick
  intro s hempty
  have hstep : step s = .next s.tick := by rw [step, hempty]
  refine ⟨fun hstop => ?stopped, fun hrun => ?running⟩
  case stopped => rw [hstep, State.tick, if_neg (by simp [hstop])]
  case running =>
    obtain ⟨d, v, hlo, hhi, hv, hd⟩ := State.advance_cases
      { s with time := { s.time with aon := s.time.aon + 1 }, led := s.led.settle }
    let u : State :=
      { s with time := { s.time with aon := s.time.aon + 1 }, led := s.led.settle, ptp := v, free := s.free + 1 }
    have htick : s.tick = u.timeTo (s.time.ptp + d) := by
      rw [State.tick, if_pos hrun]
      dsimp only at hd ⊢
      rw [hd]
    have hcount : (((u.timeTo (s.time.ptp + d)).rota.hpCnt.toNat : Nat) : Cnt) = (u.timeTo (s.time.ptp + d)).rota.hpCnt := by simp
    refine ⟨d, (u.timeTo (s.time.ptp + d)).rota.hpCnt.toNat, s.free + 1, v, hlo, hhi, hv, ?_⟩
    rw [hstep, htick, hcount]
    rfl

end Sys2Proof.Machine
end

section
/-!
SUPPORT. Ethernet links, the lane exchange and the ledger's hour (R438, R446, R449, R451, R452, R456).
-/

namespace Sys2Proof.Machine

/-! ### Quarantine tests of a port's lanes (R449, R451) -/

/-- A unit's entry after another was written, or after its own was. -/
theorem State.setUnitSt_unit_other (s : State) {u w : Nat} {st : UnitSt} (h : st ≠ .inService) (hw : w ≠ u) :
    (s.setUnitSt u st).unit w = s.unit w := by
  have hne : ({ s.unit u with st := st } : UnitEnt) ≠ {} := fun e => h (congrArg UnitEnt.st e)
  show (s.led.setUnit u _).units.get {} w = _
  rw [Ledg.setUnit_units]
  exact Tbl.get_set_other _ _ _ hne hw

theorem State.setUnitSt_unit_same (s : State) (u : Nat) {st : UnitSt} (h : st ≠ .inService) : ((s.setUnitSt u st).unit u).st = st := by
  have hne : ({ s.unit u with st := st } : UnitEnt) ≠ {} := fun e => h (congrArg UnitEnt.st e)
  show ((s.led.setUnit u _).units.get {} u).st = _
  rw [Ledg.setUnit_units, Tbl.get_set_ne _ _ _ _ hne]

/-- A unit that is not retired is retired with a record; the entries of the units are as `setUnitSt` leaves them. -/
theorem State.retire_units (s : State) (u src : Nat) (h : (s.unit u).st ≠ .retired) :
    (s.retire u src).led.units = (s.setUnitSt u .retired).led.units := by
  unfold State.retire
  dsimp only
  rw [if_neg h]
  exact Ledg.put_units (s.setUnitSt u .retired).led { item := .record (s.setUnitSt u .retired).led.records.length }

/-- The test of lane `k` by the retraining of port `p`. -/
def State.laneTest (p : Nat) (trained : List Nat) (s : State) (k : Nat) : State :=
  if (s.unit (unitLane p k)).st ≠ .quarantined then s
  else if trained.contains k then s.setUnitSt (unitLane p k) .spare
  else s.retire (unitLane p k) (s.led.cause.get 0 (unitLane p k))

section
variable (s : State) (p : Nat) (trained : List Nat)

theorem State.laneTests_eq : s.laneTests p trained = (List.range 5).foldl (State.laneTest p trained) s := rfl

theorem State.laneTest_frame (k : Nat) : s.laneTest p trained k = { s with led := (s.laneTest p trained k).led } := by
  unfold State.laneTest
  split
  · rfl
  · split
    · rfl
    · exact State.retire_frame _ _ _

theorem State.laneTest_unit_other {k w : Nat} (h : w ≠ unitLane p k) : (s.laneTest p trained k).unit w = s.unit w := by
  unfold State.laneTest
  split
  · rfl
  next hq =>
    have hq' : (s.unit (unitLane p k)).st = .quarantined := not_not.mp hq
    split
    · exact s.setUnitSt_unit_other (by decide) h
    · rw [State.unit, s.retire_units _ _ (by rw [hq']; decide)]
      exact s.setUnitSt_unit_other (by decide) h

/-- A quarantined lane that trains is spare, another is retired (R451). -/
theorem State.laneTest_unit_same {k : Nat} (h : (s.unit (unitLane p k)).st = .quarantined) :
    ((s.laneTest p trained k).unit (unitLane p k)).st = if k ∈ trained then .spare else .retired := by
  unfold State.laneTest
  rw [if_neg (not_not.mpr h)]
  by_cases hk : k ∈ trained
  · rw [if_pos (List.contains_iff_mem.mpr hk), if_pos hk]
    exact s.setUnitSt_unit_same _ (by decide)
  · rw [if_neg (fun hc => hk (List.contains_iff_mem.mp hc)), if_neg hk, State.unit, s.retire_units _ _ (by rw [h]; decide)]
    exact s.setUnitSt_unit_same _ (by decide)

end

section
variable (p : Nat) (trained : List Nat)

theorem State.laneTests_egr (s : State) : (s.laneTests p trained).egr = s.egr := by
  rw [State.laneTests_eq]
  exact foldl_keeps State.egr (fun s k => by rw [s.laneTest_frame p trained k]) _ s

theorem foldl_laneTest_other {ks : List Nat} {k : Nat} (hk : k ∉ ks) (s : State) :
    (ks.foldl (State.laneTest p trained) s).unit (unitLane p k) = s.unit (unitLane p k) := by
  induction ks generalizing s with
  | nil => rfl
  | cons j js ih =>
    rw [List.mem_cons, not_or] at hk
    rw [List.foldl_cons, ih hk.2]
    exact s.laneTest_unit_other p trained (by unfold unitLane; omega)

theorem foldl_laneTest_tested {ks : List Nat} (hks : ks.Nodup) {k : Nat} (hk : k ∈ ks) (s : State)
    (h : (s.unit (unitLane p k)).st = .quarantined) :
    ((ks.foldl (State.laneTest p trained) s).unit (unitLane p k)).st = if k ∈ trained then .spare else .retired := by
  induction ks generalizing s with
  | nil => exact absurd hk List.not_mem_nil
  | cons j js ih =>
    obtain ⟨hj, hjs⟩ := List.nodup_cons.mp hks
    rw [List.foldl_cons]
    by_cases e : k = j
    · subst e
      rw [foldl_laneTest_other p trained hj]
      exact s.laneTest_unit_same p trained h
    · refine ih hjs ((List.mem_cons.mp hk).resolve_left e) _ ?_
      rw [s.laneTest_unit_other p trained (by unfold unitLane; omega)]
      exact h

/-- Without a quarantined lane the retraining tests none. -/
theorem foldl_laneTest_none {ks : List Nat} {s : State} (h : ∀ k ∈ ks, (s.unit (unitLane p k)).st ≠ .quarantined) :
    ks.foldl (State.laneTest p trained) s = s := by
  induction ks with
  | nil => rfl
  | cons k ks ih =>
    have hk : s.laneTest p trained k = s := if_pos (h k List.mem_cons_self)
    rw [List.foldl_cons, hk, ih fun j hj => h j (List.mem_cons_of_mem _ hj)]

end

/-! ### Links (R446, R449) -/

section
variable {s : State} {p : Nat}

theorem PortSt.ne_of_up {v : PortSt} (h : v.up = true) : v ≠ {} := fun e => by simp [e] at h

theorem State.setPortSt_portSt_of_ne (s : State) (p : Nat) {v : PortSt} (h : v ≠ {}) : (s.setPortSt p v).portSt p = v :=
  Tbl.get_set_ne ({} : PortSt) _ p v h

theorem State.setPortSt_unit (s : State) (p u : Nat) (v : PortSt) : (s.setPortSt p v).unit u = s.unit u := rfl

/-- A link whose lanes all trained is up. -/
theorem exec_portRetrainDone_trained {ts : List Nat} (hup : (s.portSt p).up = false) (hclk : s.stopped (4 + p) = false)
    (hst : s.glb.st = .train ∨ s.glb.st = .run ∨ s.glb.st = .safe) (hts : ∀ i ∈ (s.portSt p).lanes, i ∈ ts) :
    exec (.portRetrainDone p ts) s = .next ((s.laneTests p ts).setPortSt p { s.portSt p with up := true }) := by
  have hon : (s.glb.st == .train || s.glb.st == .run || s.glb.st == .safe) = true := by
    rcases hst with h | h | h <;> simp [h]
  have hport : (s.laneTests p ts).portSt p = s.portSt p := by rw [State.portSt, State.laneTests_egr, State.portSt]
  have hall : ((s.portSt p).lanes.filter fun k => !ts.contains k) = [] := by simpa using hts
  simp only [exec, execPortRetrainDone, hup, hclk, hon, hport, hall, Bool.not_true, Bool.or_false, Bool.false_eq_true, if_false]

/-- A ratio of more than 1 in 10,000 is an event of the lane (R446). -/
theorem exec_serdesBerWindow_high {k e n : Nat} (h : n < 10000 * e) : exec (.serdesBerWindow [(p, k, e, n)]) s
    = .next (s.raiseIn (0x119 + 5 * p + k) (some (241 + 5 * p + k)) false) := by
  simp only [exec, execSerdesBerWindow, State.raiseAll, List.filter, h, decide_true]
  rfl

/-- What the exchange writes of the two lanes' units concerns the ledger alone (R452). -/
theorem State.exchange_leaves (s : State) (u v src : Nat) :
    (((s.countMove u).quarantine u src).setUnitSt v .inService).egr = s.egr
      ∧ (((s.countMove u).quarantine u src).setUnitSt v .inService).flt = s.flt := by
  have hq := (s.countMove u).quarantine_frame u src
  generalize (s.countMove u).quarantine u src = t at hq ⊢
  exact ⟨(congrArg State.egr hq :), (congrArg State.flt hq :)⟩

/-- The exchange in lock puts the spare lane in the lane's place, and concerns the ledger beside (R449, R452). -/
theorem exec_laneSubstitution_exchanges {k v : Nat} (hsub : (s.portSt p).subFor = some k)
    (hv : s.firstSpare (241 + 5 * p) (246 + 5 * p) = some v) : ∃ t, exec (.laneSubstitution p) s = .next t
      ∧ t.egr.ports = s.egr.ports.set {} p { s.portSt p with
          subFor := none, lanes := (s.portSt p).lanes.map fun j => if j = k then v - (241 + 5 * p) else j }
      ∧ t.flt = s.flt := by
  have hv' : s.firstSpare (unitLane p 0) (unitLane p 5) = some v := by
    have h0 : unitLane p 0 = 241 + 5 * p := rfl
    have h5 : unitLane p 5 = 246 + 5 * p := by unfold unitLane; omega
    rw [h0, h5]; exact hv
  simp only [exec, execLaneSubstitution, hsub, hv']
  obtain ⟨hegr, hflt⟩ := s.exchange_leaves (unitLane p k) v (srcLane p k)
  exact ⟨_, rfl, by rw [State.setPortSt, hegr]; rfl, hflt⟩

end

/-- Settles O42: one branch of each command per clause; the quarantined lanes are tested one by one. -/
theorem linksAndWear : Obligations.LinksAndWear := by
  unfold Obligations.LinksAndWear
  intro s p k e n tj ts q
  refine ⟨fun hup hp => ?down, fun hup => ?isDown, fun hup hclk hrun hq hts => ?retrained, fun hup hclk hst hts => ?tested,
    fun hlow => ?low, exec_serdesBerWindow_high, fun v => exec_laneSubstitution_exchanges, fun hpor => ⟨?hour, ?hourFails⟩,
    fun hpor => ?noHour⟩
  case down => simp [exec, execPortLinkDown, State.linkLost, hup, hp, q]
  case isDown => simp [exec, execPortLinkDown, State.linkLost, hup, q]
  case retrained =>
    have hnone : s.laneTests p ts = s := foldl_laneTest_none p ts fun k hk => hq k (List.mem_range.mp hk)
    rw [exec_portRetrainDone_trained hup hclk (.inr (.inl hrun)) hts, hnone]
  case tested =>
    refine ⟨_, exec_portRetrainDone_trained hup hclk hst hts, ?_, fun i hi hqi => ?_⟩
    · rw [State.setPortSt_portSt_of_ne _ p (PortSt.ne_of_up rfl)]
    · rw [State.setPortSt_unit, State.laneTests_eq]
      exact foldl_laneTest_tested p ts List.nodup_range (List.mem_range.mpr hi) s hqi
  case low =>
    have h : ¬ n < 10000 * e := by omega
    simp [exec, execSerdesBerWindow, h, State.raiseAll]
  case hour => simp [exec, execPowerOnHour, hpor]
  case hourFails => simp [exec, execPowerOnHour, hpor, srcLedger]
  case noHour => simp [exec, execPowerOnHour, hpor]

end Sys2Proof.Machine
end

section
/-!
SUPPORT. Which commands move the image in force (R65, R66).
-/

namespace Sys2Proof.Machine

/-- The image in force moves where a slot is taken, and where a reset or a loss of power clears the device. -/
theorem Quiet.moved_img (q q' : Quiet) {c : Instr} (hslot : ∀ n r, c ≠ .slotCheck n r) (hrail : ∀ r, c ≠ .railBelowThreshold r)
    (hresetN : ∀ n, c ≠ .resetNAssert n) (hperstN : ∀ n, c ≠ .perstNAssert n) (hrestart : c ≠ .restartEnterReset) :
    (q.moved q' c).img = q.img := by
  unfold Quiet.moved
  split
  case h_2 r => exact absurd rfl (hrail r)
  case h_3 n => exact absurd rfl (hresetN n)
  case h_4 n => exact absurd rfl (hperstN n)
  case h_5 => exact absurd rfl hrestart
  case h_7 n r => exact absurd rfl (hslot n r)
  all_goals rfl

/-- Settles O60: `exec_moves` says of each command what it moves, and the image is a piece of it. -/
theorem imageKept : Obligations.ImageKept := by
  unfold Obligations.ImageKept
  intro c s t hexec hslot hrail hresetN hperstN hrestart
  have himg : t.quiet.img = (s.quiet.moved t.quiet c).img := congrArg Quiet.img (exec_moves c hexec)
  exact himg.trans (Quiet.moved_img _ _ hslot hrail hresetN hperstN hrestart)

end Sys2Proof.Machine
end

section
/-!
SUPPORT. One lemma per operation that leaves the flash operation as it is (R67, R68): the flash operation is no part of the quiet part
of the state.
-/

namespace Sys2Proof.Machine

@[simp] theorem ite_flashOp {c : Prop} [Decidable c] (a b : State) :
    (if c then a else b).flashOp = if c then a.flashOp else b.flashOp := apply_ite ..

/-- What every step of a fold leaves of its accumulator, the fold leaves: `foldl_keeps` for accumulators of any type. -/
theorem foldl_proj {σ α β : Type} (g : σ → β) {f : σ → α → σ} (h : ∀ s a, g (f s a) = g s) (l : List α) (s : σ) :
    g (l.foldl f s) = g s := by
  induction l generalizing s with
  | nil => rfl
  | cons a l ih => exact (ih _).trans (h s a)

@[simp] theorem foldl_flashOp {α : Type} {f : State → α → State} (h : ∀ s a, (f s a).flashOp = s.flashOp) (l : List α)
    (s : State) : (l.foldl f s).flashOp = s.flashOp := foldl_keeps State.flashOp h l s

@[simp] theorem foldl_fst_flashOp {α β : Type} {f : State × β → α → State × β} (h : ∀ p a, (f p a).1.flashOp = p.1.flashOp)
    (l : List α) (p : State × β) : (l.foldl f p).1.flashOp = p.1.flashOp := foldl_proj (fun p => p.1.flashOp) h l p

/-! ### The shared operations, the packets and the encode side -/

@[simp] theorem State.timeTo_flashOp (s : State) (t : Nat) : (s.timeTo t).flashOp = s.flashOp := by rfl
@[simp] theorem State.reach_flashOp (s : State) (slotAbs : Int) : (s.reach slotAbs).flashOp = s.flashOp := by simp [State.reach]
@[simp] theorem State.hostCpl_flashOp (s : State) (n : Nat) : (s.hostCpl n).flashOp = s.flashOp := by rfl
@[simp] theorem State.unreached_flashOp (s : State) (n : Nat) : (s.unreached n).flashOp = s.flashOp := by simp [State.unreached]
@[simp] theorem State.irqEvent_flashOp (s : State) (n : Nat) : (s.irqEvent n).flashOp = s.flashOp := by simp [State.irqEvent]
@[simp] theorem State.putCpl_flashOp (s : State) (c : Cpl) : (s.putCpl c).flashOp = s.flashOp := by simp [State.putCpl]
@[simp] theorem State.post_flashOp (s : State) (c : Cpl) : (s.post c).flashOp = s.flashOp := by simp [State.post]
@[simp] theorem State.setJobs_flashOp (s : State) (jobs : List Job) : (s.setJobs jobs).flashOp = s.flashOp := by rfl

@[simp] theorem State.finish_flashOp (s : State) (c : Cpl) (begun : Bool) : (s.finish c begun).flashOp = s.flashOp := by
  simp [State.finish]

@[simp] theorem State.complete_flashOp (s : State) (h : CmdHdr) (st : Status) (res0 : Nat) :
    (s.complete h st res0).flashOp = s.flashOp := by simp [State.complete]

@[simp] theorem State.completeJob_flashOp (s : State) (h : CmdHdr) (st : Status) : (s.completeJob h st).flashOp = s.flashOp := by
  simp [State.completeJob]

@[simp] theorem State.fetchOne_flashOp (s : State) : s.fetchOne.flashOp = s.flashOp := by simp [State.fetchOne]

@[simp] theorem State.fetchUpTo_flashOp (n : Nat) (s : State) : (State.fetchUpTo n s).flashOp = s.flashOp := by
  induction n generalizing s with
  | zero => rfl
  | succ n ih =>
    unfold State.fetchUpTo
    split <;> simp [ih]

@[simp] theorem State.fetch_flashOp (s : State) : s.fetch.flashOp = s.flashOp := by simp [State.fetch]

@[simp] theorem State.ramWrite_flashOp (s : State) (al a : Nat) (bs : List Byte) : (s.ramWrite al a bs).flashOp = s.flashOp := by
  simp [State.ramWrite]

@[simp] theorem State.storeExc_flashOp (s : State) (slot : Nat) (p : ExcPkt) : (s.storeExc slot p).flashOp = s.flashOp := by rfl
@[simp] theorem State.queueExc_flashOp (s : State) (p : ExcPkt) : (s.queueExc p).flashOp = s.flashOp := by simp [State.queueExc]

@[simp] theorem State.packetExc_flashOp (s : State) (k r : Nat) (c : PeCtx) : (s.packetExc k r c).flashOp = s.flashOp := by
  simp [State.packetExc]

@[simp] theorem State.sendPfc_flashOp (s : State) (p prios quanta : Nat) : (s.sendPfc p prios quanta).flashOp = s.flashOp := by
  simp [State.sendPfc]

@[simp] theorem State.fifoEval_flashOp (s : State) (f : Nat) : (s.fifoEval f).flashOp = s.flashOp := by simp [State.fifoEval]

@[simp] theorem State.lastPop_flashOp (s : State) (f : Nat) (bs : List Byte) : (s.lastPop f bs).flashOp = s.flashOp := by
  simp [State.lastPop]

@[simp] theorem State.popIng_flashOp (s : State) (f n : Nat) (bs : List Byte) : (s.popIng f n bs).2.flashOp = s.flashOp := by
  unfold State.popIng
  dsimp only
  split <;> simp

@[simp] theorem State.popWords_flashOp (s : State) (f n : Nat) : (s.popWords f n).2.flashOp = s.flashOp := by
  unfold State.popWords
  repeat' split
  all_goals simp

@[simp] theorem State.fifoCycle_flashOp (s : State) (f : Nat) (c : FifoOps) : (s.fifoCycle f c).flashOp = s.flashOp := by
  unfold State.fifoCycle
  dsimp only
  split <;> simp

@[simp] theorem State.fifoFlush_flashOp (s : State) (f : Nat) (c : FifoOps) : (s.fifoFlush f c).flashOp = s.flashOp := by
  simp [State.fifoFlush]

@[simp] theorem State.dmaBegin_flashOp (s : State) (n : Nat) : (s.dmaBegin n).flashOp = s.flashOp := by simp [State.dmaBegin]
@[simp] theorem State.dmaMove_flashOp (s : State) (n k : Nat) : (s.dmaMove n k).flashOp = s.flashOp := by simp [State.dmaMove]
@[simp] theorem State.stacksRest_flashOp (s : State) : s.stacksRest.flashOp = s.flashOp := by simp [State.stacksRest]

@[simp] theorem State.swapDenied_flashOp (s : State) : s.swapDenied.flashOp = s.flashOp := by
  unfold State.swapDenied
  dsimp only
  split <;> simp

@[simp] theorem State.safeState_flashOp (s : State) : s.safeState.flashOp = s.flashOp := by rfl
@[simp] theorem State.enterSafe_flashOp (s : State) : s.enterSafe.flashOp = s.flashOp := by simp [State.enterSafe]

@[simp] theorem State.fltNotify_flashOp (s : State) (n level : Nat) : (s.fltNotify n level).flashOp = s.flashOp := by
  simp [State.fltNotify]

@[simp] theorem State.react_flashOp (s : State) (n : Nat) (u : Option Nat) (held : Bool) (mute : Bool) :
    (s.react n u held mute).2.flashOp = s.flashOp := by
  unfold State.react
  dsimp only
  repeat' split
  all_goals simp

@[simp] theorem State.raiseBasic_flashOp (s : State) (n : Nat) : (s.raiseBasic n).flashOp = s.flashOp := by simp [State.raiseBasic]
@[simp] theorem State.retire_flashOp (s : State) (u src : Nat) : (s.retire u src).flashOp = s.flashOp := by simp [State.retire]

@[simp] theorem State.quarantine_flashOp (s : State) (u src : Nat) : (s.quarantine u src).flashOp = s.flashOp := by
  simp [State.quarantine]

@[simp] theorem State.countMove_flashOp (s : State) (u : Nat) : (s.countMove u).flashOp = s.flashOp := by rfl
@[simp] theorem State.setUnitSt_flashOp (s : State) (u : Nat) (st : UnitSt) : (s.setUnitSt u st).flashOp = s.flashOp := by rfl
@[simp] theorem State.ledgerUnits_flashOp (s : State) : s.ledgerUnits.flashOp = s.flashOp := by rfl

@[simp] theorem State.fabRespond_flashOp (s : State) (m : Nat) (err : Bool) (data : List Byte) :
    (s.fabRespond m err data).flashOp = s.flashOp := by rfl

@[simp] theorem State.fabCancel_flashOp (s : State) (m : Nat) : (s.fabCancel m).flashOp = s.flashOp := by simp [State.fabCancel]
@[simp] theorem State.putPend_flashOp (s : State) (ch p : Nat) (x : ShId) : (s.putPend ch p x).flashOp = s.flashOp := by rfl

@[simp] theorem State.coreIdle_flashOp (s : State) (k : Nat) (verdict : Option Nat) : (s.coreIdle k verdict).flashOp = s.flashOp := by
  rfl

@[simp] theorem State.dropRun_flashOp (s : State) (l verdict : Nat) : (s.dropRun l verdict).flashOp = s.flashOp := by
  unfold State.dropRun
  dsimp only
  split <;> simp

@[simp] theorem State.dropDecRun_flashOp (s : State) (l : Nat) : (s.dropDecRun l).flashOp = s.flashOp := by
  unfold State.dropDecRun
  dsimp only
  split <;> simp

@[simp] theorem State.queueUnit_flashOp (s : State) (x len ts : Nat) (loss : Bool) :
    (s.queueUnit x len ts loss).flashOp = s.flashOp := by simp [State.queueUnit]

@[simp] theorem State.ringPut_flashOp (s : State) (x : Nat) (bs : List Byte) : (s.ringPut x bs).flashOp = s.flashOp := by rfl

@[simp] theorem State.endAu_flashOp (s : State) (x : Nat) : (s.endAu x).flashOp = s.flashOp := by
  unfold State.endAu
  dsimp only
  split <;> simp

@[simp] theorem State.passRtp_flashOp (s : State) (x : Nat) (q : RtpHeld) : (s.passRtp x q).flashOp = s.flashOp := by
  unfold State.passRtp
  dsimp only
  repeat' split
  all_goals simp

@[simp] theorem State.drainRtp_flashOp (n x : Nat) (s : State) : (State.drainRtp n x s).flashOp = s.flashOp := by
  induction n generalizing s with
  | zero => rfl
  | succ n ih =>
    unfold State.drainRtp
    repeat' split
    all_goals simp [ih]

@[simp] theorem State.loseRtp_flashOp (s : State) (x : Nat) : (s.loseRtp x).flashOp = s.flashOp := by
  unfold State.loseRtp
  dsimp only
  repeat' split
  all_goals simp

@[simp] theorem State.rtpArrive_flashOp (s : State) (x : Nat) (bs : List Byte) : (s.rtpArrive x bs).flashOp = s.flashOp := by
  unfold State.rtpArrive
  dsimp only
  repeat' split
  all_goals simp

@[simp] theorem execReorderTimeout_flashOp (dcx seq : Nat) (s : State) :
    (resState s (execReorderTimeout dcx seq s)).flashOp = s.flashOp := by
  dsimp only [execReorderTimeout, resState]
  split <;> simp

@[simp] theorem execDecFeed_flashOp (dcx : Nat) (loss : Bool) (len : Nat) (s : State) :
    (resState s (execDecFeed dcx loss len s)).flashOp = s.flashOp := by simp [execDecFeed, resState]

@[simp] theorem State.setLock_flashOp (s : State) (v : Nat) : (s.setLock v).flashOp = s.flashOp := by simp [State.setLock]
@[simp] theorem State.enterHoldover_flashOp (s : State) : s.enterHoldover.flashOp = s.flashOp := by simp [State.enterHoldover]
@[simp] theorem State.ptpOffset_flashOp (s : State) (off : Int) : (s.ptpOffset off).flashOp = s.flashOp := by simp [State.ptpOffset]
@[simp] theorem State.announce_flashOp (s : State) (a : Announce) : (s.announce a).flashOp = s.flashOp := by rfl

@[simp] theorem State.ptpMessage_flashOp (s : State) (p ts : Nat) (m : PtpMsg) : (s.ptpMessage p ts m).flashOp = s.flashOp := by
  unfold State.ptpMessage
  split <;> simp

@[simp] theorem execSyncTimeout_flashOp (s : State) : (resState s (execSyncTimeout s)).flashOp = s.flashOp := by
  simp [execSyncTimeout, resState]

@[simp] theorem execAnnounceTimeout_flashOp (s : State) : (resState s (execAnnounceTimeout s)).flashOp = s.flashOp := by
  simp [execAnnounceTimeout, resState]

@[simp] theorem execHoldoverExpiry_flashOp (s : State) : (resState s (execHoldoverExpiry s)).flashOp = s.flashOp := by
  simp [execHoldoverExpiry, resState]

@[simp] theorem execDelayReqTransmit_flashOp (s : State) : (resState s (execDelayReqTransmit s)).flashOp = s.flashOp := by
  dsimp only [execDelayReqTransmit, resState]
  split <;> simp

@[simp] theorem execPpsInEdge_flashOp (highNs : Nat) (s : State) : (resState s (execPpsInEdge highNs s)).flashOp = s.flashOp := by
  simp [execPpsInEdge, resState]

@[simp] theorem State.fifoOverflow_flashOp (s : State) (f : Nat) : (s.fifoOverflow f).flashOp = s.flashOp := by rfl

@[simp] theorem State.vftPush_flashOp (s : State) (p : Nat) (q : VftPkt) : (s.vftPush p q).flashOp = s.flashOp := by
  simp [State.vftPush]

@[simp] theorem State.countClass_flashOp (s : State) (c : Nat) : (s.countClass c).flashOp = s.flashOp := by rfl

@[simp] theorem State.consume_flashOp (s : State) (k : Nat) (e : PeEnd) (c : PeCtx) : (s.consume k e c).flashOp = s.flashOp := by
  unfold State.consume
  repeat' split
  all_goals simp

@[simp] theorem State.setOrder_flashOp (s : State) (p : Nat) (l : List Retire) : (s.setOrder p l).flashOp = s.flashOp := by rfl

@[simp] theorem State.retirePort_flashOp (s : State) (p : Nat) : (s.retirePort p).flashOp = s.flashOp := by
  unfold State.retirePort
  exact foldl_flashOp (fun s a => by split <;> simp) _ _

@[simp] theorem State.peFinish_flashOp (s : State) (k : Nat) (e : PeEnd) : (s.peFinish k e).flashOp = s.flashOp := by
  simp [State.peFinish]

@[simp] theorem State.peSettle_flashOp (s : State) (k : Nat) : (s.peSettle k).flashOp = s.flashOp := by simp [State.peSettle]

@[simp] theorem State.peStep_flashOp (s : State) (k op : Nat) (f : PeIns → PeCtx → PeOut) : (s.peStep k op f).flashOp = s.flashOp := by
  unfold State.peStep
  dsimp only
  repeat' split
  all_goals simp

@[simp] theorem execFrameReceive_flashOp (port : Nat) (bytes : List Byte) (fcsOk : Bool) (s : State) :
    (resState s (execFrameReceive port bytes fcsOk s)).flashOp = s.flashOp := by simp [execFrameReceive, resState]

@[simp] theorem execParseStart_flashOp (port : Nat) (s : State) : (resState s (execParseStart port s)).flashOp = s.flashOp := by
  dsimp only [execParseStart, resState]
  split <;> simp

@[simp] theorem execExt_flashOp (pe : Nat) (s : State) : (resState s (execExt pe s)).flashOp = s.flashOp := by simp [execExt, resState]
@[simp] theorem execKey_flashOp (pe : Nat) (s : State) : (resState s (execKey pe s)).flashOp = s.flashOp := by simp [execKey, resState]

@[simp] theorem execKeyi_flashOp (pe : Nat) (s : State) : (resState s (execKeyi pe s)).flashOp = s.flashOp := by
  simp [execKeyi, resState]

@[simp] theorem execAlu_flashOp (pe : Nat) (s : State) : (resState s (execAlu pe s)).flashOp = s.flashOp := by simp [execAlu, resState]
@[simp] theorem execBr_flashOp (pe : Nat) (s : State) : (resState s (execBr pe s)).flashOp = s.flashOp := by simp [execBr, resState]
@[simp] theorem execHdr_flashOp (pe : Nat) (s : State) : (resState s (execHdr pe s)).flashOp = s.flashOp := by simp [execHdr, resState]
@[simp] theorem execLen_flashOp (pe : Nat) (s : State) : (resState s (execLen pe s)).flashOp = s.flashOp := by simp [execLen, resState]
@[simp] theorem execLkp_flashOp (pe : Nat) (s : State) : (resState s (execLkp pe s)).flashOp = s.flashOp := by simp [execLkp, resState]
@[simp] theorem execExc_flashOp (pe : Nat) (s : State) : (resState s (execExc pe s)).flashOp = s.flashOp := by simp [execExc, resState]
@[simp] theorem State.peEnds_flashOp (s : State) (k : Nat) (m : PtpMsg) : (s.peEnds k m).flashOp = s.flashOp := by simp [State.peEnds]

@[simp] theorem execLookupResult_flashOp (pe : Nat) (s : State) : (resState s (execLookupResult pe s)).flashOp = s.flashOp := by
  dsimp only [execLookupResult, resState]
  repeat' split
  all_goals simp

@[simp] theorem State.seekEnc_flashOp (s : State) (l : Nat) : (s.seekEnc l).flashOp = s.flashOp := by
  unfold State.seekEnc
  dsimp only
  split <;> simp

@[simp] theorem State.seekDec_flashOp (s : State) (l : Nat) : (s.seekDec l).flashOp = s.flashOp := by
  unfold State.seekDec
  dsimp only
  split <;> simp

@[simp] theorem State.failEnc_flashOp (s : State) (k src : Nat) : (s.failEnc k src).flashOp = s.flashOp := by
  unfold State.failEnc
  dsimp only
  repeat' split
  all_goals simp

@[simp] theorem State.failDec_flashOp (s : State) (k src : Nat) : (s.failDec k src).flashOp = s.flashOp := by
  unfold State.failDec
  dsimp only
  repeat' split
  all_goals simp

@[simp] theorem State.failStw_flashOp (s : State) (u src : Nat) : (s.failStw u src).flashOp = s.flashOp := by
  unfold State.failStw
  dsimp only
  split <;> simp

@[simp] theorem State.failDma_flashOp (s : State) (u src : Nat) : (s.failDma u src).flashOp = s.flashOp := by
  unfold State.failDma
  dsimp only
  split <;> simp

@[simp] theorem State.failPe_flashOp (s : State) (u src : Nat) : (s.failPe u src).flashOp = s.flashOp := by
  unfold State.failPe
  dsimp only
  split <;> simp

@[simp] theorem State.failSrtp_flashOp (s : State) (u src : Nat) : (s.failSrtp u src).flashOp = s.flashOp := by
  unfold State.failSrtp
  dsimp only
  split <;> simp

@[simp] theorem State.failLane_flashOp (s : State) (u src : Nat) : (s.failLane u src).flashOp = s.flashOp := by
  unfold State.failLane
  dsimp only
  repeat' split
  all_goals simp

@[simp] theorem State.gatherCut_flashOp (s : State) (k : Nat) : (s.gatherCut k).flashOp = s.flashOp := by rfl

@[simp] theorem State.failPc_flashOp (s : State) (u src : Nat) : (s.failPc u src).flashOp = s.flashOp := by
  unfold State.failPc
  dsimp only
  repeat' split
  all_goals simp

@[simp] theorem State.failover_flashOp (s : State) (kind : FoKind) (u src : Nat) : (s.failover kind u src).flashOp = s.flashOp := by
  unfold State.failover
  repeat' split
  all_goals simp

@[simp] theorem State.refreshReq_flashOp (s : State) (ch : Nat) (now : Bool) : (s.refreshReq ch now).flashOp = s.flashOp := by
  simp [State.refreshReq]

@[simp] theorem State.gleanRefresh_flashOp (s : State) (k : Nat) : (s.gleanRefresh k).flashOp = s.flashOp := by
  unfold State.gleanRefresh
  split <;> simp

@[simp] theorem State.raiseIn_flashOp (s : State) (n : Nat) (u : Option Nat) (held : Bool) (forced : Bool) (mute : Bool) :
    (s.raiseIn n u held forced mute).flashOp = s.flashOp := by
  unfold State.raiseIn
  dsimp only
  repeat' split
  all_goals simp

@[simp] theorem State.raise_flashOp (s : State) (n : Nat) : (s.raise n).flashOp = s.flashOp := by simp [State.raise]
@[simp] theorem State.raiseFrom_flashOp (s : State) (n u : Nat) : (s.raiseFrom n u).flashOp = s.flashOp := by simp [State.raiseFrom]

@[simp] theorem State.setLine_flashOp (s : State) (n : Nat) (level : Bool) : (s.setLine n level).flashOp = s.flashOp := by
  simp [State.setLine]

@[simp] theorem State.sortEnc_flashOp (s s₀ : State) : (s.sortEnc s₀).flashOp = s.flashOp := by
  unfold State.sortEnc
  exact foldl_flashOp (fun s a => by split; simp) _ _

@[simp] theorem State.sortDec_flashOp (s s₀ : State) : (s.sortDec s₀).flashOp = s.flashOp := by
  unfold State.sortDec
  exact foldl_flashOp (fun s a => by split; simp) _ _

@[simp] theorem State.raiseAll_flashOp (s : State) (evs : List FaultEv) (forced : Bool) :
    (s.raiseAll evs forced).flashOp = s.flashOp := by simp [State.raiseAll]

@[simp] theorem State.faultHit_flashOp (s : State) (e : FaultEv) : (s.faultHit e).flashOp = s.flashOp := by
  unfold State.faultHit
  dsimp only
  split <;> simp

@[simp] theorem execFaultEvent_flashOp (evs : List FaultEv) (s : State) : (resState s (execFaultEvent evs s)).flashOp = s.flashOp := by
  simp [execFaultEvent, resState]

@[simp] theorem State.ringWrite_flashOp (s : State) (c : Class) (ch slot plane row col : Nat) (vs : List Nat) :
    (s.ringWrite c ch slot plane row col vs).flashOp = s.flashOp := by rfl

@[simp] theorem State.reconWrite_flashOp (s : State) (c : Class) (ch b plane row col : Nat) (vs : List Nat) :
    (s.reconWrite c ch b plane row col vs).flashOp = s.flashOp := by rfl

@[simp] theorem State.decPut_flashOp (s : State) (x b plane row col : Nat) (vs : List Nat) :
    (s.decPut x b plane row col vs).flashOp = s.flashOp := by rfl

@[simp] theorem State.fillRow_flashOp (s : State) (c : Class) (ch plane row w : Nat) :
    (s.fillRow c ch plane row w).flashOp = s.flashOp := by simp [State.fillRow]

@[simp] theorem State.fillSheaf_flashOp (s : State) (c : Class) (ch sh : Nat) : (s.fillSheaf c ch sh).2.2.flashOp = s.flashOp := by
  simp [State.fillSheaf]

@[simp] theorem State.markBuf_flashOp (s : State) (x b : Nat) (f : Marks → Marks) : (s.markBuf x b f).flashOp = s.flashOp := by rfl

@[simp] theorem State.bindClosed_flashOp (s : State) (c : Class) (ch : Nat) : (s.bindClosed c ch).flashOp = s.flashOp := by
  unfold State.bindClosed
  dsimp only
  split <;> simp

@[simp] theorem State.closeSheaf_flashOp (s : State) (c : Class) (ch sh : Nat) (byDue : Bool) :
    (s.closeSheaf c ch sh byDue).flashOp = s.flashOp := by
  unfold State.closeSheaf
  dsimp only
  split <;> simp

@[simp] theorem State.settleSheaf_flashOp (s : State) (c : Class) (ch sh : Nat) : (s.settleSheaf c ch sh).flashOp = s.flashOp := by
  simp [State.settleSheaf]

@[simp] theorem State.bindSkip_flashOp (s : State) (x : Nat) (bufs : List Nat) : (s.bindSkip x bufs).flashOp = s.flashOp := by
  simp [State.bindSkip]

@[simp] theorem State.bindRows_flashOp (s : State) (x b : Nat) : (s.bindRows x b).flashOp = s.flashOp := by
  unfold State.bindRows
  repeat' split
  all_goals simp

@[simp] theorem State.noteConc_flashOp (s : State) (ch x b flags : Nat) : (s.noteConc ch x b flags).flashOp = s.flashOp := by
  simp [State.noteConc]

@[simp] theorem State.takePic_flashOp (s : State) (c : Class) (ch x b : Nat) : (s.takePic c ch x b).flashOp = s.flashOp := by
  simp [State.takePic]

@[simp] theorem State.bindFrame_flashOp (s : State) (c : Class) (ch x : Nat) : (s.bindFrame c ch x).flashOp = s.flashOp := by
  unfold State.bindFrame
  dsimp only
  split <;> simp

@[simp] theorem State.bindDone_flashOp (s : State) (ch fr : Nat) : (s.bindDone ch fr).flashOp = s.flashOp := by
  unfold State.bindDone
  dsimp only
  split <;> simp

@[simp] theorem State.openFrame_flashOp (s : State) (c : Class) (ch fr : Nat) : (s.openFrame c ch fr).flashOp = s.flashOp := by
  unfold State.openFrame
  dsimp only
  repeat' split
  all_goals simp

@[simp] theorem State.closeRest_flashOp (s : State) (c : Class) (ch : Nat) : (s.closeRest c ch).flashOp = s.flashOp := by
  simp [State.closeRest]

@[simp] theorem State.dueArrive_flashOp (s : State) (ch fr sh : Nat) : (s.dueArrive ch fr sh).flashOp = s.flashOp := by
  unfold State.dueArrive
  dsimp only
  split <;> simp

@[simp] theorem State.beginSession_flashOp (s : State) (ch : Nat) (at_ : Bool) : (s.beginSession ch at_).flashOp = s.flashOp := by
  unfold State.beginSession
  dsimp only
  repeat' split
  all_goals simp

@[simp] theorem State.rgbKeep_flashOp (s : State) (ch row col w : Nat) (bs : List Byte) :
    (s.rgbKeep ch row col w bs).flashOp = s.flashOp := by rfl

@[simp] theorem State.writeSeg_flashOp (s : State) (c : Class) (ch plane row seg : Nat) (bs next : List Byte) :
    (s.writeSeg c ch plane row seg bs next).flashOp = s.flashOp := by
  unfold State.writeSeg
  dsimp only
  split <;> simp

@[simp] theorem State.vftAccept_flashOp (s : State) (p : VftPkt) : (s.vftAccept p).flashOp = s.flashOp := by
  unfold State.vftAccept
  dsimp only
  split <;> simp

@[simp] theorem State.aptWrite_flashOp (s : State) (off : Nat) (bs : List Byte) : (s.aptWrite off bs).flashOp = s.flashOp := by
  unfold State.aptWrite
  repeat' split
  all_goals simp

@[simp] theorem State.aptPop_flashOp (s : State) (bs : List Byte) : (s.aptPop bs).flashOp = s.flashOp := by simp [State.aptPop]

@[simp] theorem State.aptTake_flashOp (s : State) (off : Nat) (bs : List Byte) : (s.aptTake off bs).flashOp = s.flashOp := by
  unfold State.aptTake
  dsimp only
  split <;> simp

@[simp] theorem execApertureWrite_flashOp (s : State) : (resState s (execApertureWrite s)).flashOp = s.flashOp := by
  dsimp only [execApertureWrite, resState]
  split <;> simp

@[simp] theorem State.aptArrive_flashOp (s : State) (off : Nat) (bytes : List Byte) : (s.aptArrive off bytes).flashOp = s.flashOp := by
  simp [State.aptArrive]

@[simp] theorem execApertureTlpArrival_flashOp (off rd : Nat) (s : State) (bytes : List Byte) (pop : Bool) :
    (resState s (execApertureTlpArrival off rd s bytes pop)).flashOp = s.flashOp := by
  dsimp only [execApertureTlpArrival, resState]
  repeat' split
  all_goals simp

@[simp] theorem State.queueDb_flashOp (s : State) (w : Word) : (s.queueDb w).flashOp = s.flashOp := by rfl

@[simp] theorem execIngDb_flashOp (w : Word) (s : State) : (resState s (execIngDb w s)).flashOp = s.flashOp := by
  simp [execIngDb, resState]

@[simp] theorem State.dbAccept_flashOp (s : State) (w : Nat) : (s.dbAccept w).flashOp = s.flashOp := by
  unfold State.dbAccept
  dsimp only
  split <;> simp

@[simp] theorem State.noteReady_flashOp (s : State) (c : Class) (ch frame sheaf : Nat) :
    (s.noteReady c ch frame sheaf).flashOp = s.flashOp := by simp [State.noteReady]

@[simp] theorem execPfcRepeat_flashOp (port : Nat) (s : State) : (resState s (execPfcRepeat port s)).flashOp = s.flashOp := by
  dsimp only [execPfcRepeat, resState]
  split <;> simp

@[simp] theorem State.storeRec_flashOp (s : State) (c : Class) (ch p : Nat) : (s.storeRec c ch p).flashOp = s.flashOp := by rfl
@[simp] theorem State.rcEvents_flashOp (s : State) (r : Run) : (s.rcEvents r).flashOp = s.flashOp := by simp [State.rcEvents]

@[simp] theorem State.gleanArea_flashOp (s : State) (k gcase : Nat) : (s.gleanArea k gcase).flashOp = s.flashOp := by
  unfold State.gleanArea
  dsimp only
  split <;> simp

@[simp] theorem State.caseCapped_flashOp (s : State) (k gcase : Nat) : (s.caseCapped k gcase).flashOp = s.flashOp := by
  unfold State.caseCapped
  split <;> simp

@[simp] theorem State.writePkt_flashOp (s : State) (k : Nat) (p : MPkt) : (s.writePkt k p).flashOp = s.flashOp := by
  simp [State.writePkt]

@[simp] theorem State.packetise_flashOp (s : State) (c : Class) (k ch : Nat) (outs : List (Run × Coded)) :
    (s.packetise c k ch outs).flashOp = s.flashOp := by
  unfold State.packetise
  dsimp only
  split <;> simp

@[simp] theorem State.giveUp_flashOp (s : State) (ch a b : Nat) : (s.giveUp ch a b).flashOp = s.flashOp := by rfl
@[simp] theorem State.holdChain_flashOp (s : State) (ch : Nat) : (s.holdChain ch).flashOp = s.flashOp := by simp [State.holdChain]

@[simp] theorem State.partRestart_flashOp (s : State) (ch fr : Nat) : (s.partRestart ch fr).flashOp = s.flashOp := by
  simp [State.partRestart]

@[simp] theorem State.encErrorEnd_flashOp (s : State) (k : Nat) : (s.encErrorEnd k).flashOp = s.flashOp := by
  unfold State.encErrorEnd
  repeat' split
  all_goals simp

@[simp] theorem State.fetchViolates_flashOp (s : State) (k kind : Nat) : (s.fetchViolates k kind).flashOp = s.flashOp := by
  simp [State.fetchViolates]

@[simp] theorem State.barnFill_flashOp (s : State) (c : Class) (r : Run) : (s.barnFill c r).flashOp = s.flashOp := by
  simp [State.barnFill]

@[simp] theorem State.fallow_flashOp (s : State) (l : Nat) : (s.fallow l).flashOp = s.flashOp := by rfl

@[simp] theorem State.holdRun_flashOp (s : State) (c : Class) (l : Nat) (r : Run) : (s.holdRun c l r).flashOp = s.flashOp := by
  unfold State.holdRun
  dsimp only
  repeat' split
  all_goals simp

@[simp] theorem State.startRun_flashOp (s : State) (c : Class) (l k ch p kind : Nat) (x : ShId) :
    (s.startRun c l k ch p kind x).flashOp = s.flashOp := by simp [State.startRun]

@[simp] theorem State.wakeRuns_flashOp (s : State) : s.wakeRuns.flashOp = s.flashOp := by
  unfold State.wakeRuns
  refine foldl_flashOp (fun s l => ?_) _ _
  repeat' split
  all_goals simp

@[simp] theorem execSheafReady_flashOp (ch frame sheaf : Nat) (s : State) :
    (resState s (execSheafReady ch frame sheaf s)).flashOp = s.flashOp := by
  dsimp only [execSheafReady, resState]
  split <;> simp

@[simp] theorem State.gleanEnd_flashOp (s : State) (k gcase : Nat) (sig : Option (BitVec 64)) (ok : Bool) :
    (s.gleanEnd k gcase sig ok).flashOp = s.flashOp := by simp [State.gleanEnd]

@[simp] theorem State.overrun_flashOp (s : State) (l : Nat) : (s.overrun l).flashOp = s.flashOp := by
  unfold State.overrun
  dsimp only
  split <;> simp

@[simp] theorem State.moveFirst_flashOp (s : State) (ch a b : Nat) : (s.moveFirst ch a b).flashOp = s.flashOp := by
  simp [State.moveFirst]

@[simp] theorem State.skipFrames_flashOp (s : State) (ch a b : Nat) : (s.skipFrames ch a b).flashOp = s.flashOp := by
  simp [State.skipFrames]

@[simp] theorem State.appendPend_flashOp (s : State) (ch p : Nat) (x : ShId) : (s.appendPend ch p x).flashOp = s.flashOp := by
  simp [State.appendPend]

@[simp] theorem State.markIssued_flashOp (s : State) (c : Class) (ch p : Nat) (x : ShId) :
    (s.markIssued c ch p x).flashOp = s.flashOp := by simp [State.markIssued]

@[simp] theorem State.sheafRun_flashOp (s : State) (c : Class) (l ch p len : Nat) (x : ShId) :
    (s.sheafRun c l ch p len x).flashOp = s.flashOp := by
  unfold State.sheafRun
  dsimp only
  repeat' split
  all_goals simp

@[simp] theorem execSheafRunStart_flashOp (lane idx hp : Nat) (s : State) :
    (resState s (execSheafRunStart lane idx hp s)).flashOp = s.flashOp := by
  dsimp only [execSheafRunStart, resState]
  repeat' split
  all_goals simp

@[simp] theorem execCatchupRunStart_flashOp (lane idx : Nat) (s : State) :
    (resState s (execCatchupRunStart lane idx s)).flashOp = s.flashOp := by
  dsimp only [execCatchupRunStart, resState]
  repeat' split
  all_goals simp

@[simp] theorem State.nextGlean_flashOp (s : State) (k : Nat) : (s.nextGlean k).2.flashOp = s.flashOp := by rfl

@[simp] theorem execGleanRunStart_flashOp (lane idx : Nat) (s : State) :
    (resState s (execGleanRunStart lane idx s)).flashOp = s.flashOp := by
  dsimp only [execGleanRunStart, resState]
  repeat' split
  all_goals simp

@[simp] theorem execRunOverrun_flashOp (lane : Nat) (s : State) : (resState s (execRunOverrun lane s)).flashOp = s.flashOp := by
  simp [execRunOverrun, resState]

@[simp] theorem execRotaBacklog_flashOp (ch part frame sheaf : Nat) (s : State) :
    (resState s (execRotaBacklog ch part frame sheaf s)).flashOp = s.flashOp := by simp [execRotaBacklog, resState]

@[simp] theorem State.checkFail_flashOp (s : State) (l verdict cnt src : Nat) :
    (s.checkFail l verdict cnt src).flashOp = s.flashOp := by
  unfold State.checkFail
  split <;> simp

@[simp] theorem State.threshFailed_flashOp (s : State) (l : Nat) : (s.threshFailed l).flashOp = s.flashOp := by
  simp [State.threshFailed]

@[simp] theorem execThreshFail_flashOp (lane : Nat) (s : State) (parsed : List Config.Parsed) :
    (resState s (execThreshFail lane s parsed)).flashOp = s.flashOp := by
  dsimp only [execThreshFail, resState]
  split <;> simp

@[simp] theorem execResidueMismatch_flashOp (lane : Nat) (s : State) (value : Int) (residue : Nat) :
    (resState s (execResidueMismatch lane s value residue)).flashOp = s.flashOp := by simp [execResidueMismatch, resState]

@[simp] theorem execGleanResult_flashOp (lane : Nat) (err : BitVec 64) (failed : Bool) (s : State) :
    (resState s (execGleanResult lane err failed s)).flashOp = s.flashOp := by
  dsimp only [execGleanResult, resState]
  split <;> simp

@[simp] theorem State.pictureDone_flashOp (s : State) (c : Class) (r : Run) : (s.pictureDone c r).flashOp = s.flashOp := by
  simp [State.pictureDone]

@[simp] theorem State.releaseSheaf_flashOp (s : State) (c : Class) (k : Nat) (outs : List Run) :
    (s.releaseSheaf c k outs).flashOp = s.flashOp := by
  unfold State.releaseSheaf
  dsimp only
  split <;> simp

@[simp] theorem State.joinParts_flashOp (s : State) (c : Class) (a b : Run) : (s.joinParts c a b).flashOp = s.flashOp := by
  unfold State.joinParts
  dsimp only
  split <;> simp

@[simp] theorem State.passPart_flashOp (s : State) (c : Class) (r : Run) : (s.passPart c r).flashOp = s.flashOp := by
  unfold State.passPart
  dsimp only
  repeat' split
  all_goals simp

@[simp] theorem State.writeRecon_flashOp (s : State) (c : Class) (r : Run) (o : Coded) : (s.writeRecon c r o).flashOp = s.flashOp := by
  unfold State.writeRecon
  dsimp only
  split <;> simp

@[simp] theorem State.noteFilled_flashOp (s : State) (c : Class) (r : Run) (o : Coded) : (s.noteFilled c r o).flashOp = s.flashOp := by
  simp [State.noteFilled]

@[simp] theorem State.commitRun_flashOp (s : State) (c : Class) (r : Run) (o : Coded) : (s.commitRun c r o).flashOp = s.flashOp := by
  simp [State.commitRun]

@[simp] theorem State.passRun_flashOp (s : State) (c : Class) (l : Nat) (r : Run) (o : Coded) :
    (s.passRun c l r o).flashOp = s.flashOp := by simp [State.passRun]

@[simp] theorem execSheafPass_flashOp (lane : Nat) (parsed : List Config.Parsed) (s : State) :
    (resState s (execSheafPass lane parsed s)).flashOp = s.flashOp := by
  dsimp only [execSheafPass, resState]
  repeat' split
  all_goals simp

/-! ### The decode side, the egress, the islands, the memories and the resets -/

@[simp] theorem State.rotaOn_flashOp (s : State) : s.rotaOn.flashOp = s.flashOp := by rfl

@[simp] theorem execRotaStart_flashOp (s : State) : (resState s (execRotaStart s)).flashOp = s.flashOp := by
  simp [execRotaStart, resState]

@[simp] theorem State.gatesFollow_flashOp (s : State) : s.gatesFollow.flashOp = s.flashOp := by rfl
@[simp] theorem State.gatesNow_flashOp (s : State) : s.gatesNow.flashOp = s.flashOp := by rfl

@[simp] theorem State.passSheaves_flashOp (s : State) (c : Class) (ch p : Nat) (xs : List ShId) :
    (s.passSheaves c ch p xs).flashOp = s.flashOp := by simp [State.passSheaves]

@[simp] theorem State.passDues_flashOp (s : State) (c : Class) (ch t0 t1 : Nat) (open_ : Option Nat) :
    (s.passDues c ch t0 t1 open_).flashOp = s.flashOp := by
  unfold State.passDues
  refine foldl_flashOp (fun s e => ?_) _ _
  repeat' split
  all_goals simp

@[simp] theorem State.smallStep_flashOp (s : State) (t0 t1 ch : Nat) : (s.smallStep t0 t1 ch).flashOp = s.flashOp := by
  unfold State.smallStep
  dsimp only
  split <;> simp

@[simp] theorem State.bigStep_flashOp (s : State) (t0 t1 ch : Nat) : (s.bigStep t0 t1 ch).flashOp = s.flashOp := by
  unfold State.bigStep
  dsimp only
  split
  · rfl
  · split
    · rfl
    · simp only [ite_flashOp, State.openFrame_flashOp, State.closeRest_flashOp, State.skipFrames_flashOp, ite_self]
      refine (foldl_flashOp (fun t p => by split <;> simp) _ _).trans ?_
      split
      · refine foldl_flashOp (fun t sh => ?_) _ _
        repeat' split
        all_goals simp
      · rfl

@[simp] theorem State.stepTaken_flashOp (s : State) (d : Int) : (s.stepTaken d).flashOp = s.flashOp := by rfl

@[simp] theorem State.stepRota_flashOp (s : State) (d : Int) (t0 t1 : Nat) : (s.stepRota d t0 t1).flashOp = s.flashOp := by
  simp [State.stepRota]

@[simp] theorem State.stepTime_flashOp (s : State) (d : Int) (t0 t1 : Nat) : (s.stepTime d t0 t1).flashOp = s.flashOp := by
  simp [State.stepTime]

@[simp] theorem execClockStep_flashOp (s : State) : (resState s (execClockStep s)).flashOp = s.flashOp := by
  dsimp only [execClockStep, resState]
  split <;> simp

@[simp] theorem State.vftPop_flashOp (s : State) (port : Nat) (p : VftPkt) : (s.vftPop port p).flashOp = s.flashOp := by
  simp [State.vftPop]

@[simp] theorem State.vftTake_flashOp (s : State) (p : VftPkt) : (s.vftTake p).flashOp = s.flashOp := by
  unfold State.vftTake
  split <;> simp

@[simp] theorem execVftRows_flashOp (port : Nat) (s : State) : (resState s (execVftRows port s)).flashOp = s.flashOp := by
  dsimp only [execVftRows, resState]
  split <;> simp

@[simp] theorem execDone_flashOp (pe : Nat) (m : PtpMsg) (s : State) (pop : Bool) :
    (resState s (execDone pe m s pop)).flashOp = s.flashOp := by
  dsimp only [execDone, resState]
  split <;> simp

@[simp] theorem execDoorbell_flashOp (s : State) : (resState s (execDoorbell s)).flashOp = s.flashOp := by
  dsimp only [execDoorbell, resState]
  repeat' split
  all_goals simp

@[simp] theorem execSheafDue_flashOp (ch hp frame sheaf : Nat) (s : State) :
    (resState s (execSheafDue ch hp frame sheaf s)).flashOp = s.flashOp := by
  dsimp only [execSheafDue, resState]
  split <;> simp

@[simp] theorem State.setFlight_flashOp (s : State) (f : Nat) (v : Flight) : (s.setFlight f v).flashOp = s.flashOp := by rfl
@[simp] theorem State.beginFlight_flashOp (s : State) (v : Flight) : (s.beginFlight v).2.flashOp = s.flashOp := by rfl

@[simp] theorem State.settleFlight_flashOp (s : State) (f : Nat) : (s.settleFlight f).flashOp = s.flashOp := by
  simp [State.settleFlight]

@[simp] theorem State.copyDone_flashOp (s : State) (c : Copy) : (s.copyDone c).flashOp = s.flashOp := by
  unfold State.copyDone
  dsimp only
  split <;> simp

@[simp] theorem execRulesetFlip_flashOp (s : State) : (resState s (execRulesetFlip s)).flashOp = s.flashOp := by
  dsimp only [execRulesetFlip, resState]
  split <;> simp

@[simp] theorem execRulesetRetire_flashOp (s : State) : (resState s (execRulesetRetire s)).flashOp = s.flashOp := by
  dsimp only [execRulesetRetire, resState]
  repeat' split
  all_goals simp

theorem State.emInsert_flashOp {s t : State} {n : Nat} {key : List Byte} {b : EmBody} (h : s.emInsert n key b = some t) :
    t.flashOp = s.flashOp := by
  unfold State.emInsert at h
  split at h
  · exact nomatch h
  · dsimp only at h
    repeat' split at h
    all_goals simp_all [Option.map_eq_some_iff]
    all_goals obtain ⟨_, _, rfl⟩ := h; simp

@[simp] theorem State.emInsert_getD_flashOp (s : State) (n : Nat) (key : List Byte) (b : EmBody) :
    ((s.emInsert n key b).getD s).flashOp = s.flashOp := by
  cases h : s.emInsert n key b with
  | none => rfl
  | some t => exact State.emInsert_flashOp h

@[simp] theorem State.emDelete_flashOp (s : State) (n : Nat) (key : List Byte) : (s.emDelete n key).flashOp = s.flashOp := by
  unfold State.emDelete
  dsimp only
  split <;> simp

@[simp] theorem execStashMove_flashOp (slot : Nat) (s : State) : (resState s (execStashMove slot s)).flashOp = s.flashOp := by
  dsimp only [execStashMove, resState]
  repeat' split
  all_goals simp

@[simp] theorem State.irqWithdraw_flashOp (s : State) (ns : List Nat) : (s.irqWithdraw ns).flashOp = s.flashOp := by
  unfold State.irqWithdraw
  exact foldl_flashOp (fun s a => by simp) _ _

@[simp] theorem execIrqEvent_flashOp (src : Nat) (level : Bool) (s : State) (held : Nat) :
    (resState s (execIrqEvent src level s held)).flashOp = s.flashOp := by simp [execIrqEvent, resState]

@[simp] theorem execIrqModerationEnd_flashOp (tgt : Nat) (s : State) :
    (resState s (execIrqModerationEnd tgt s)).flashOp = s.flashOp := by simp [execIrqModerationEnd, resState]

@[simp] theorem execIrqHostAck_flashOp (v : Nat) (s : State) : (resState s (execIrqHostAck v s)).flashOp = s.flashOp := by
  simp [execIrqHostAck, resState]

@[simp] theorem execIrqSwSet_flashOp (n : Nat) (s : State) : (resState s (execIrqSwSet n s)).flashOp = s.flashOp := by
  simp [execIrqSwSet, resState]

@[simp] theorem execIrqSrcCfg_flashOp (n : Nat) (w : Word) (s : State) : (resState s (execIrqSrcCfg n w s)).flashOp = s.flashOp := by
  simp [execIrqSrcCfg, resState]

@[simp] theorem execMsixMask_flashOp (w : MsixWr) (s : State) : (resState s (execMsixMask w s)).flashOp = s.flashOp := by
  dsimp only [execMsixMask, resState]
  repeat' split
  all_goals simp

@[simp] theorem State.heal_flashOp (s : State) (a n : Nat) : (s.heal a n).flashOp = s.flashOp := by rfl

@[simp] theorem State.accWrite_flashOp (s : State) (al a : Nat) (bs : List Byte) : (s.accWrite al a bs).flashOp = s.flashOp := by
  unfold State.accWrite
  dsimp only
  split
  · rw [State.heal_flashOp]
    exact foldl_flashOp (fun _ _ => by rfl) _ _
  · simp

@[simp] theorem State.takeSet_flashOp (s : State) (x : Nat) (nal : List Byte) : (s.takeSet x nal).flashOp = s.flashOp := by
  unfold State.takeSet
  dsimp only
  split <;> simp

@[simp] theorem State.greyBuf_flashOp (s : State) (x b : Nat) (p : Config.ParamSet) : (s.greyBuf x b p).flashOp = s.flashOp := by
  simp [State.greyBuf]

@[simp] theorem State.writeRow_flashOp (s : State) (x : Nat) (p : CurPic) (copied : List Nat) (r : Nat) :
    (s.writeRow x p copied r).flashOp = s.flashOp := by simp [State.writeRow]

@[simp] theorem State.writeRows_flashOp (s : State) (x n : Nat) (copied : List Nat) : (s.writeRows x n copied).flashOp = s.flashOp := by
  unfold State.writeRows
  dsimp only
  split <;> simp

@[simp] theorem State.outHost_flashOp (s : State) (x b : Nat) : (s.outHost x b).flashOp = s.flashOp := by
  unfold State.outHost
  dsimp only
  split <;> simp

@[simp] theorem State.outBind_flashOp (s : State) (x b : Nat) : (s.outBind x b).flashOp = s.flashOp := by
  unfold State.outBind
  dsimp only
  repeat' split
  all_goals simp

@[simp] theorem State.outputPic_flashOp (s : State) (x b : Nat) (extra : Nat) : (s.outputPic x b extra).flashOp = s.flashOp := by
  simp [State.outputPic]

@[simp] theorem State.bump_flashOp (s : State) (x : Nat) : (s.bump x).flashOp = s.flashOp := by
  unfold State.bump
  dsimp only
  split <;> simp

@[simp] theorem State.bumpWhile_flashOp (f : Dcx → Bool) (x n : Nat) (s : State) : (State.bumpWhile f x n s).flashOp = s.flashOp := by
  induction n generalizing s with
  | zero => rfl
  | succ n ih => simp [State.bumpWhile, ih]

@[simp] theorem State.flushOut_flashOp (s : State) (x : Nat) (noPrior : Bool) : (s.flushOut x noPrior).flashOp = s.flashOp := by
  simp [State.flushOut]

@[simp] theorem State.awaitOut_flashOp (s : State) (x : Nat) (p : CurPic) : (s.awaitOut x p).flashOp = s.flashOp := by rfl

@[simp] theorem State.storeNonRef_flashOp (x : Nat) (p : CurPic) (n : Nat) (s : State) :
    (State.storeNonRef x p n s).flashOp = s.flashOp := by
  induction n generalizing s with
  | zero => simp [State.storeNonRef]
  | succ n ih => simp [State.storeNonRef, ih]

@[simp] theorem State.storeOut_flashOp (s : State) (x : Nat) (p : CurPic) : (s.storeOut x p).flashOp = s.flashOp := by
  unfold State.storeOut
  dsimp only
  repeat' split
  all_goals simp

@[simp] theorem State.flagPic_flashOp (s : State) (x flags : Nat) : (s.flagPic x flags).flashOp = s.flashOp := by rfl

@[simp] theorem State.finishPic_flashOp (s : State) (x : Nat) : (s.finishPic x).flashOp = s.flashOp := by
  unfold State.finishPic
  dsimp only
  repeat' split
  all_goals simp

@[simp] theorem State.takeEarly_flashOp (s : State) (x : Nat) : (s.takeEarly x).flashOp = s.flashOp := by
  unfold State.takeEarly
  dsimp only
  repeat' split
  all_goals simp

@[simp] theorem State.nextSub_flashOp (s : State) (x : Nat) (carry : List Nat) : (s.nextSub x carry).flashOp = s.flashOp := by rfl
@[simp] theorem State.nextItem_flashOp (s : State) (x : Nat) : (s.nextItem x).flashOp = s.flashOp := by rfl

@[simp] theorem State.takeUnit_flashOp (s : State) (x : Nat) : (s.takeUnit x).flashOp = s.flashOp := by
  unfold State.takeUnit
  dsimp only
  split <;> simp

@[simp] theorem State.stepBlock_flashOp (s : State) (x off : Nat) (nal : List Byte) (t : Config.UnitSyn) (p : CurPic) :
    (s.stepBlock x off nal t p).flashOp = s.flashOp := by
  unfold State.stepBlock
  dsimp only
  split <;> simp

theorem State.substitute_flashOp {s t : State} {x : Nat} {p : Config.ParamSet} {l : List Int} (h : s.substitute x p l = some t) :
    t.flashOp = s.flashOp := by
  unfold State.substitute at h
  dsimp only at h
  repeat' split at h
  all_goals simp at h
  all_goals simp [← h]

theorem State.startPic_flashOp {s t : State} {x : Nat} {u : DecUnit} {n : List Byte} {y : Config.PicSyn} {p : Config.ParamSet}
    (h : s.startPic x u n y p = some t) :
    t.flashOp = s.flashOp := by
  unfold State.startPic at h
  dsimp only at h
  split at h
  · exact nomatch h
  next u hu =>
    have hs := State.substitute_flashOp hu
    split at h
    · exact nomatch h
    · injection h with h
      subst h
      simp [hs]

theorem State.showSlot_flashOp {s t : State} {x : Nat} {u : DecUnit} {i : Int} {y : Config.PicSyn} (h : s.showSlot x u i y = some t) :
    t.flashOp = s.flashOp := by
  unfold State.showSlot at h
  dsimp only at h
  split at h
  · injection h with h; rw [h]
  · split at h
    · exact nomatch h
    next u hu =>
      have hs := State.substitute_flashOp hu
      split at h <;> injection h with h
      · rw [← h, hs]
      · rw [← h]; simp [hs]

@[simp] theorem State.dfallow_flashOp (s : State) (l : Nat) : (s.dfallow l).flashOp = s.flashOp := by rfl

theorem State.codedStep_flashOp {s t : State} {x : Nat} {u : DecUnit} {o : Nat} {n : List Byte} {y : Config.UnitSyn}
    (h : s.codedStep x u o n y = some t) :
    t.flashOp = s.flashOp := by
  unfold State.codedStep at h
  dsimp only at h
  split at h
  · injection h with h
    simp [← h]
  · split at h
    · obtain ⟨v, hv, rfl⟩ := Option.map_eq_some_iff.mp h
      simp [State.showSlot_flashOp hv]
    · split at h
      · split at h
        · injection h with h
          simp [← h]
        · split at h
          · injection h with h
            simp [← h]
          · exact State.startPic_flashOp h
      · split at h <;> injection h with h
        · simp [← h]
        · simp [← h]

theorem State.decodeOne_flashOp {s t : State} {x : Nat} (h : s.decodeOne x = some t) : t.flashOp = s.flashOp := by
  unfold State.decodeOne at h
  dsimp only at h
  split at h
  · exact nomatch h
  · split at h
    · injection h with h
      simp [← h]
    · split at h
      · injection h with h
        simp [← h]
      · injection h with h
        simp [← h]
      · injection h with h
        simp [← h]
      · split at h
        · injection h with h
          simp [← h]
        · exact State.codedStep_flashOp h

@[simp] theorem State.endDecRun_flashOp (s : State) (l : Nat) : (s.endDecRun l).flashOp = s.flashOp := by
  unfold State.endDecRun
  dsimp only
  split <;> simp

@[simp] theorem State.portWrite_flashOp (s : State) (k x : Nat) (w : DecWrite) : (s.portWrite k x w).flashOp = s.flashOp := by
  simp [State.portWrite]

@[simp] theorem State.decodeAll_flashOp (k x : Nat) (ws : List DecWrite) (n i : Nat) (s : State) :
    (State.decodeAll k x ws n i s).1.flashOp = s.flashOp := by
  induction n generalizing i s with
  | zero => rfl
  | succ n ih =>
    unfold State.decodeAll
    dsimp only
    split
    · simp
    next u hu => simp [ih, State.decodeOne_flashOp hu]

@[simp] theorem State.decodeRun_flashOp (s : State) (l k x work : Nat) (ws : List DecWrite) :
    (s.decodeRun l k x work ws).flashOp = s.flashOp := by simp [State.decodeRun]

@[simp] theorem State.doverrun_flashOp (s : State) (l : Nat) : (s.doverrun l).flashOp = s.flashOp := by
  unfold State.doverrun
  dsimp only
  repeat' split
  all_goals simp

@[simp] theorem execDecodeRunStart_flashOp (dlane idx work : Nat) (s : State) (writes : List DecWrite) :
    (resState s (execDecodeRunStart dlane idx work s writes)).flashOp = s.flashOp := by
  dsimp only [execDecodeRunStart, resState]
  repeat' split
  all_goals simp

@[simp] theorem execDecodeRunStop_flashOp (dlane : Nat) (s : State) : (resState s (execDecodeRunStop dlane s)).flashOp = s.flashOp := by
  dsimp only [execDecodeRunStop, resState]
  split <;> simp

@[simp] theorem execDecWatchdog_flashOp (dlane : Nat) (s : State) : (resState s (execDecWatchdog dlane s)).flashOp = s.flashOp := by
  dsimp only [execDecWatchdog, resState]
  split <;> simp

@[simp] theorem State.decGleanEnd_flashOp (s : State) (k gcase : Nat) (sig : BitVec 64) (ok : Bool) :
    (s.decGleanEnd k gcase sig ok).flashOp = s.flashOp := by simp [State.decGleanEnd]

@[simp] theorem State.nextDecGlean_flashOp (s : State) (k : Nat) : (s.nextDecGlean k).2.flashOp = s.flashOp := by rfl

@[simp] theorem execDecodeGleanRun_flashOp (dlane idx : Nat) (err : BitVec 64) (failed : Bool) (s : State) :
    (resState s (execDecodeGleanRun dlane idx err failed s)).flashOp = s.flashOp := by
  dsimp only [execDecodeGleanRun, resState]
  repeat' split
  all_goals simp

@[simp] theorem execDecRelease_flashOp (dcx buf : Nat) (s : State) : (resState s (execDecRelease dcx buf s)).flashOp = s.flashOp := by
  simp [execDecRelease, resState]

@[simp] theorem State.unlinkBody_flashOp (s : State) (h : Nat) : (s.unlinkBody h).flashOp = s.flashOp := by
  unfold State.unlinkBody
  dsimp only
  split <;> simp

@[simp] theorem execBodyFree_flashOp (ptr : Nat) (s : State) : (resState s (execBodyFree ptr s)).flashOp = s.flashOp := by
  dsimp only [execBodyFree, resState]
  split <;> simp

@[simp] theorem State.bodyErr_flashOp (s : State) (h : Nat) : (s.bodyErr h).flashOp = s.flashOp := by simp [State.bodyErr]
@[simp] theorem State.cacheUse_flashOp (s : State) (pid len : Nat) : (s.cacheUse pid len).flashOp = s.flashOp := by rfl
@[simp] theorem State.pushCopy_flashOp (s : State) (c : Copy) : (s.pushCopy c).flashOp = s.flashOp := by rfl
@[simp] theorem State.pushRetx_flashOp (s : State) (c : Copy) : (s.pushRetx c).flashOp = s.flashOp := by simp [State.pushRetx]

@[simp] theorem State.emitCopy_flashOp (s : State) (f h : Nat) (b : Body) (mp : MPkt) : (s.emitCopy f h b mp).flashOp = s.flashOp := by
  simp [State.emitCopy]

@[simp] theorem State.passBody_flashOp (s : State) (mp : MPkt) (f h : Nat) : (s.passBody mp f h).flashOp = s.flashOp := by
  simp [State.passBody]

@[simp] theorem State.endPass1_flashOp (s : State) (f : Nat) : (s.endPass1 f).flashOp = s.flashOp := by simp [State.endPass1]

@[simp] theorem State.passChain_flashOp (mp : MPkt) (f : Nat) (seen l : List Nat) (s : State) :
    (State.passChain mp f seen l s).flashOp = s.flashOp := by
  induction l generalizing seen s with
  | nil => simp [State.passChain]
  | cons h hs ih => simp [State.passChain, ih]

@[simp] theorem execPass1_flashOp (ch : Nat) (s : State) : (resState s (execPass1 ch s)).flashOp = s.flashOp := by
  dsimp only [execPass1, resState]
  repeat' split
  all_goals simp

@[simp] theorem execPass1Resume_flashOp (s : State) : (resState s (execPass1Resume s)).flashOp = s.flashOp := by
  dsimp only [execPass1Resume, resState]
  split <;> simp

@[simp] theorem State.setQueue_flashOp (s : State) (p q : Nat) (l : List Copy) : (s.setQueue p q l).flashOp = s.flashOp := by rfl
@[simp] theorem State.storeFull_flashOp (s : State) (p : Nat) : (s.storeFull p).flashOp = s.flashOp := by simp [State.storeFull]
@[simp] theorem State.storeCopy_flashOp (s : State) (c : Copy) : (s.storeCopy c).flashOp = s.flashOp := by simp [State.storeCopy]
@[simp] theorem State.retxJoin_flashOp (s : State) : s.retxJoin.flashOp = s.flashOp := by rfl

@[simp] theorem State.pass2Err_flashOp (s : State) (c : Copy) : (s.pass2Err c).flashOp = s.flashOp := by
  unfold State.pass2Err
  dsimp only
  split <;> simp

@[simp] theorem execBuildStage_flashOp (agree : Bool) (s : State) : (resState s (execBuildStage agree s)).flashOp = s.flashOp := by
  dsimp only [execBuildStage, resState]
  split <;> simp

@[simp] theorem State.nack_flashOp (s : State) (h d : Nat) : (s.nack h d).flashOp = s.flashOp := by
  unfold State.nack
  dsimp only
  split
  · simp
  · split
    · simp
    · split
      · simp
      · generalize (if d < (s.body h).dseq then _ else _) = roc
        simp

@[simp] theorem State.joinQueue_flashOp (s : State) (c : Copy) : (s.joinQueue c).flashOp = s.flashOp := by rfl
@[simp] theorem State.sendTmmbn_flashOp (s : State) (h : Nat) : (s.sendTmmbn h).flashOp = s.flashOp := by simp [State.sendTmmbn]

@[simp] theorem State.rtcpMsg_flashOp (s : State) (h : Nat) (m : RtcpMsg) : (s.rtcpMsg h m).flashOp = s.flashOp := by
  unfold State.rtcpMsg
  dsimp only
  repeat' split
  all_goals simp

@[simp] theorem execRtcpPacket_flashOp (authOk : Bool) (msgs : List RtcpMsg) (s : State) :
    (resState s (execRtcpPacket authOk msgs s)).flashOp = s.flashOp := by
  dsimp only [execRtcpPacket, resState]
  split <;> simp

@[simp] theorem execCalendarBucket_flashOp (port : Nat) (s : State) : (resState s (execCalendarBucket port s)).flashOp = s.flashOp := by
  simp [execCalendarBucket, resState]

@[simp] theorem execGateEntry_flashOp (port entry : Nat) (s : State) :
    (resState s (execGateEntry port entry s)).flashOp = s.flashOp := by simp [execGateEntry, resState]

@[simp] theorem State.dropOversize_flashOp (s : State) (p q n : Nat) (l : List Copy) :
    (s.dropOversize p q n l).flashOp = s.flashOp := by
  induction l generalizing s with
  | nil => simp [State.dropOversize]
  | cons c cs ih => simp [State.dropOversize, ih]

@[simp] theorem State.judgeQueue_flashOp (s : State) (p q : Nat) : (s.judgeQueue p q).2.flashOp = s.flashOp := by
  unfold State.judgeQueue
  dsimp only
  repeat' split
  all_goals simp

@[simp] theorem State.judgeAll_flashOp (s : State) (same : Bool) (p : Nat) : (s.judgeAll same p).2.flashOp = s.flashOp := by
  unfold State.judgeAll
  exact foldl_proj (fun p : List Nat × State => p.2.flashOp) (fun p q => by split <;> simp) _ _

@[simp] theorem State.selectHead_flashOp (s : State) (p q : Nat) : (s.selectHead p q).flashOp = s.flashOp := by
  unfold State.selectHead
  dsimp only
  split <;> simp

@[simp] theorem execSchedulerSelect_flashOp (port : Nat) (s : State) (same : Bool) :
    (resState s (execSchedulerSelect port s same)).flashOp = s.flashOp := by
  dsimp only [execSchedulerSelect, resState]
  repeat' split
  all_goals simp

@[simp] theorem State.transmit_flashOp (s : State) (p : Nat) (c : Copy) : (s.transmit p c).flashOp = s.flashOp := by rfl
@[simp] theorem State.takeTurn_flashOp (s : State) (p : Nat) : (s.takeTurn p).2.flashOp = s.flashOp := by rfl
@[simp] theorem State.readPayload_flashOp (s : State) (c : Copy) : (s.readPayload c).flashOp = s.flashOp := by simp [State.readPayload]

@[simp] theorem execSealStage_flashOp (port : Nat) (o : SealObs) (s : State) :
    (resState s (execSealStage port o s)).flashOp = s.flashOp := by
  dsimp only [execSealStage, resState]
  split <;> simp

@[simp] theorem execSrtpRemap_flashOp (sp : Nat) (s : State) : (resState s (execSrtpRemap sp s)).flashOp = s.flashOp := by
  dsimp only [execSrtpRemap, resState]
  split <;> simp

@[simp] theorem State.addJob_flashOp (s : State) (h : CmdHdr) (opcode : Nat) : (s.addJob h opcode).flashOp = s.flashOp := by
  simp [State.addJob]

@[simp] theorem State.denyJob_flashOp (s : State) (j : Job) (aborted : Bool) : (s.denyJob j aborted).flashOp = s.flashOp := by
  simp [State.denyJob]

@[simp] theorem State.serve_flashOp (s : State) (i : Instr) (fenic safeOk loadOk : Bool) (h : CmdHdr) (f : State → State)
    (hf : ∀ s, (f s).flashOp = s.flashOp) : (s.serve i fenic safeOk loadOk h f).flashOp = s.flashOp := by
  rcases serve_cases s i fenic safeOk loadOk h f with e | e | e | e | e <;> simp [e, hf]

@[simp] theorem State.pcTrained_flashOp (s : State) (g : Nat) : (s.pcTrained g).flashOp = s.flashOp := by rfl
@[simp] theorem State.nextOrder_flashOp (s : State) (k : Nat) : (s.nextOrder k).flashOp = s.flashOp := by rfl

@[simp] theorem State.pcRetire_flashOp (s : State) (g : Nat) : (s.pcRetire g).flashOp = s.flashOp := by
  unfold State.pcRetire
  dsimp only
  split <;> simp

@[simp] theorem State.spentSpares_flashOp (s : State) (k : Nat) : (s.spentSpares k).flashOp = s.flashOp := by simp [State.spentSpares]
@[simp] theorem State.placePc_flashOp (s : State) (i g : Nat) : (s.placePc i g).flashOp = s.flashOp := by rfl
@[simp] theorem State.sparePc_flashOp (s : State) (g : Nat) : (s.sparePc g).flashOp = s.flashOp := by rfl

@[simp] theorem State.trainAll_flashOp (s : State) (k : Nat) (working : List Nat) : (s.trainAll k working).flashOp = s.flashOp := by
  simp [State.trainAll]

@[simp] theorem State.placeAll_flashOp (s : State) (k : Nat) : (s.placeAll k).flashOp = s.flashOp := by
  unfold State.placeAll
  simp only [foldl_flashOp, State.sparePc_flashOp, State.placePc_flashOp, implies_true]
  exact foldl_flashOp (fun _ _ => by rfl) _ _

@[simp] theorem State.afterTraining_flashOp (s : State) (k retired : Nat) : (s.afterTraining k retired).flashOp = s.flashOp := by
  simp [State.afterTraining]

@[simp] theorem State.drainEnds_flashOp (s : State) (k : Nat) : (s.drainEnds k).flashOp = s.flashOp := by rfl

@[simp] theorem State.abandonDrain_flashOp (s : State) (k : Nat) : (s.abandonDrain k).flashOp = s.flashOp := by
  unfold State.abandonDrain
  split <;> simp

@[simp] theorem State.abortDone_flashOp (s : State) (res : Nat) : (s.abortDone res).flashOp = s.flashOp := by simp [State.abortDone]

@[simp] theorem State.putWaiting_flashOp (l : List Cpl) (s : State) : (State.putWaiting l s).flashOp = s.flashOp := by
  induction l generalizing s with
  | nil => rfl
  | cons c cs ih => simp [State.putWaiting, ih]

@[simp] theorem State.retrainStack_flashOp (s : State) (k : Nat) : (s.retrainStack k).flashOp = s.flashOp := by rfl
@[simp] theorem State.loseStack_flashOp (s : State) (k : Nat) : (s.loseStack k).flashOp = s.flashOp := by rfl
@[simp] theorem State.poisonPos_flashOp (s : State) (i : Nat) : (s.poisonPos i).flashOp = s.flashOp := by rfl

@[simp] theorem State.linkLost_flashOp (s : State) (p : Nat) : (s.linkLost p).flashOp = s.flashOp := by
  unfold State.linkLost
  dsimp only
  repeat' split
  all_goals simp

@[simp] theorem execPortLinkDown_flashOp (port : Nat) (s : State) : (resState s (execPortLinkDown port s)).flashOp = s.flashOp := by
  simp [execPortLinkDown, resState]

@[simp] theorem State.laneTests_flashOp (s : State) (p : Nat) (trained : List Nat) : (s.laneTests p trained).flashOp = s.flashOp := by
  unfold State.laneTests
  refine foldl_flashOp (fun s k => ?_) _ _
  repeat' split
  all_goals simp

@[simp] theorem execPortRetrainDone_flashOp (port : Nat) (trained : List Nat) (s : State) :
    (resState s (execPortRetrainDone port trained s)).flashOp = s.flashOp := by
  dsimp only [execPortRetrainDone, resState]
  repeat' split
  all_goals simp

@[simp] theorem execSerdesBerWindow_flashOp (ber : List (Nat × Nat × Nat × Nat)) (s : State) :
    (resState s (execSerdesBerWindow ber s)).flashOp = s.flashOp := by simp [execSerdesBerWindow, resState]

@[simp] theorem execLaneSubstitution_flashOp (port : Nat) (s : State) :
    (resState s (execLaneSubstitution port s)).flashOp = s.flashOp := by
  dsimp only [execLaneSubstitution, resState]
  split <;> simp

@[simp] theorem State.islAnswer_flashOp (s : State) (n : Nat) (hdr : Option CmdHdr) (st : Status) :
    (s.islAnswer n hdr st).flashOp = s.flashOp := by
  unfold State.islAnswer
  dsimp only
  split <;> simp

@[simp] theorem State.islDone_flashOp (s : State) (n : Nat) (hdrs : List CmdHdr) : (s.islDone n hdrs).flashOp = s.flashOp := by
  simp [State.islDone]

@[simp] theorem State.islBegin_flashOp (s : State) (n : Nat) (r : IslReq) (hdrs : List CmdHdr) :
    (s.islBegin n r hdrs).flashOp = s.flashOp := by rfl

@[simp] theorem State.islStoreFreq_flashOp (s : State) (n mhz : Nat) : (s.islStoreFreq n mhz).flashOp = s.flashOp := by
  simp [State.islStoreFreq]

@[simp] theorem State.hbmRetune_flashOp (s : State) (n : Nat) (r : IslReq) (hdrs : List CmdHdr) :
    (s.hbmRetune n r hdrs).flashOp = s.flashOp := by rfl

@[simp] theorem State.islTake_flashOp (s : State) (n : Nat) (r : IslReq) (hdrs : List CmdHdr) :
    (s.islTake n r hdrs).2.flashOp = s.flashOp := by
  unfold State.islTake
  dsimp only
  repeat' split
  all_goals simp

@[simp] theorem State.islHold_flashOp (s : State) (n : Nat) (r : IslReq) : (s.islHold n r).flashOp = s.flashOp := by rfl

@[simp] theorem State.islApply_flashOp (s : State) (n : Nat) (r : IslReq) : (s.islApply n r).flashOp = s.flashOp := by
  simp [State.islApply]

@[simp] theorem State.islApplyHeld_flashOp (n : Nat) (l : List IslReq) (b : Bool) (s : State) :
    (State.islApplyHeld n l b s).flashOp = s.flashOp := by
  induction l generalizing b s with
  | nil => rfl
  | cons r rs ih => simp [State.islApplyHeld, ih]

@[simp] theorem State.islHeldNow_flashOp (s : State) (n : Nat) (fresh : Bool) : (s.islHeldNow n fresh).flashOp = s.flashOp := by
  simp [State.islHeldNow]

@[simp] theorem State.islRequest_flashOp (s : State) (n : Nat) (r : IslReq) (hdr : Option CmdHdr) :
    (s.islRequest n r hdr).flashOp = s.flashOp := by
  unfold State.islRequest
  dsimp only
  repeat' split
  all_goals simp

@[simp] theorem execPwrIslReq_flashOp (n : Nat) (st : Nat) (s : State) : (resState s (execPwrIslReq n st s)).flashOp = s.flashOp := by
  dsimp only [execPwrIslReq, resState]
  repeat' split
  all_goals simp

@[simp] theorem execPwrIslFreq_flashOp (n : Nat) (mhz : Nat) (s : State) :
    (resState s (execPwrIslFreq n mhz s)).flashOp = s.flashOp := by simp [execPwrIslFreq, resState]

@[simp] theorem execPcieL1Exit_flashOp (s : State) : (resState s (execPcieL1Exit s)).flashOp = s.flashOp := by
  simp [execPcieL1Exit, resState]

@[simp] theorem execUnitBoundary_flashOp (isl : Nat) (s : State) : (resState s (execUnitBoundary isl s)).flashOp = s.flashOp := by
  dsimp only [execUnitBoundary, resState]
  repeat' split
  all_goals simp

@[simp] theorem State.netOff_flashOp (s : State) (p : Nat) : (s.netOff p).flashOp = s.flashOp := by simp [State.netOff]
@[simp] theorem State.pktOff_flashOp (s : State) : s.pktOff.flashOp = s.flashOp := by rfl
@[simp] theorem State.keysLost_flashOp (s : State) (k : Nat) : (s.keysLost k).flashOp = s.flashOp := by rfl
@[simp] theorem State.fifosReset_flashOp (s : State) (n : Nat) : (s.fifosReset n).flashOp = s.flashOp := by rfl
@[simp] theorem State.linesLow_flashOp (s : State) (n : Nat) : (s.linesLow n).flashOp = s.flashOp := by rfl

@[simp] theorem State.pulsesGo_flashOp (s : State) (n : Nat) (off : Bool) : (s.pulsesGo n off).flashOp = s.flashOp := by
  simp [State.pulsesGo]

@[simp] theorem State.islStops_flashOp (s : State) (n : Nat) (off : Bool) : (s.islStops n off).flashOp = s.flashOp := by
  unfold State.islStops
  have hpc (l : List Nat) (t : State) : (l.foldl (fun t g => t.setPc g { t.pc g with outst := 0 }) t).flashOp = t.flashOp :=
    foldl_flashOp (fun _ _ => by rfl) l t
  dsimp only
  repeat' split
  all_goals simp [hpc]

@[simp] theorem execRefreshDue_flashOp (g : Nat) (readsQueued : Bool) (s : State) :
    (resState s (execRefreshDue g readsQueued s)).flashOp = s.flashOp := by simp [execRefreshDue, resState]

@[simp] theorem execStackTemperatureReport_flashOp (stack : Nat) (temp : Nat) (s : State) :
    (resState s (execStackTemperatureReport stack temp s)).flashOp = s.flashOp := by simp [execStackTemperatureReport, resState]

@[simp] theorem State.correctedErr_flashOp (s : State) (g : Nat) : (s.correctedErr g).flashOp = s.flashOp := by
  simp [State.correctedErr]

@[simp] theorem State.uncorrectableErr_flashOp (s : State) (g addr : Nat) : (s.uncorrectableErr g addr).flashOp = s.flashOp := by
  simp [State.uncorrectableErr]

@[simp] theorem State.runFilled_flashOp (s : State) (k addr : Nat) : (s.runFilled k addr).flashOp = s.flashOp := by
  unfold State.runFilled
  repeat' split
  all_goals simp

@[simp] theorem State.corruptUnit_flashOp (s : State) (k : Nat) : (s.corruptUnit k).flashOp = s.flashOp := by
  unfold State.corruptUnit
  dsimp only
  split <;> simp

@[simp] theorem State.openRet_flashOp (s : State) (a : GranAcc) : (s.openRet a).2.flashOp = s.flashOp := by rfl
@[simp] theorem State.holdAccess_flashOp (s : State) (a : GranAcc) : (s.holdAccess a).flashOp = s.flashOp := by simp [State.holdAccess]

@[simp] theorem execScrubRead_flashOp (addr : Nat) (e : EccOut) (passEnd : Bool) (s : State) :
    (resState s (execScrubRead addr e passEnd s)).flashOp = s.flashOp := by
  dsimp only [execScrubRead, resState]
  repeat' split
  all_goals simp

@[simp] theorem State.beginDrain_flashOp (s : State) (k t sp : Nat) : (s.beginDrain k t sp).flashOp = s.flashOp := by rfl

@[simp] theorem execDrainStart_flashOp (stack : Nat) (s : State) : (resState s (execDrainStart stack s)).flashOp = s.flashOp := by
  dsimp only [execDrainStart, resState]
  repeat' split
  all_goals simp

@[simp] theorem execTrainingGatherEnd_flashOp (stack : Nat) (s : State) :
    (resState s (execTrainingGatherEnd stack s)).flashOp = s.flashOp := by simp [execTrainingGatherEnd, resState]

@[simp] theorem State.checkFailed_flashOp (s : State) (k : Nat) : (s.checkFailed k).flashOp = s.flashOp := by
  unfold State.checkFailed
  dsimp only
  split <;> simp

@[simp] theorem execTrainingDone_flashOp (stack : Nat) (ok : Bool) (s : State) :
    (resState s (execTrainingDone stack ok s)).flashOp = s.flashOp := by
  dsimp only [execTrainingDone, resState]
  repeat' split
  all_goals simp

@[simp] theorem execDrainSwap_flashOp (stack : Nat) (s : State) : (resState s (execDrainSwap stack s)).flashOp = s.flashOp := by
  simp [execDrainSwap, resState]

@[simp] theorem State.replacePc_flashOp (s : State) (k g : Nat) : (s.replacePc k g).flashOp = s.flashOp := by
  unfold State.replacePc
  dsimp only
  split <;> simp

@[simp] theorem State.retrained_flashOp (s : State) (k : Nat) (working : List Nat) : (s.retrained k working).flashOp = s.flashOp := by
  simp [State.retrained]

@[simp] theorem execHbmResume_flashOp (stack : Nat) (working : List Nat) (s : State) :
    (resState s (execHbmResume stack working s)).flashOp = s.flashOp := by simp [execHbmResume, resState]

@[simp] theorem State.sqDoorbell_flashOp (s : State) (tail : Nat) : (s.sqDoorbell tail).flashOp = s.flashOp := by
  simp [State.sqDoorbell]

@[simp] theorem State.cqDoorbell_flashOp (s : State) (head : Nat) : (s.cqDoorbell head).flashOp = s.flashOp := by
  simp [State.cqDoorbell]

@[simp] theorem State.setLayout_flashOp (s : State) (fenic : Bool) : (s.setLayout fenic).flashOp = s.flashOp := by
  simp [State.setLayout]

@[simp] theorem execMbxSqDb_flashOp (tail : Nat) (s : State) : (resState s (execMbxSqDb tail s)).flashOp = s.flashOp := by
  simp [execMbxSqDb, resState]

@[simp] theorem execMbxCqDb_flashOp (head : Nat) (s : State) : (resState s (execMbxCqDb head s)).flashOp = s.flashOp := by
  simp [execMbxCqDb, resState]

@[simp] theorem execMbxCtrl_flashOp (w : Word) (s : State) : (resState s (execMbxCtrl w s)).flashOp = s.flashOp := by
  simp [execMbxCtrl, resState]

@[simp] theorem State.bar2Write_flashOp (s : State) (o : Nat) (bs : List Byte) : (s.bar2Write o bs).flashOp = s.flashOp := by
  unfold State.bar2Write
  split <;> split <;> simp

@[simp] theorem State.coresSpare_flashOp (s : State) : s.coresSpare.flashOp = s.flashOp := by simp [State.coresSpare]

@[simp] theorem State.leaveReset_flashOp (s : State) : s.leaveReset.flashOp = s.flashOp := by
  unfold State.leaveReset
  have hcrit (t : State) : ((List.range 16).foldl (fun t n => if t.therm.crit.get false n then t.setLine (srcCrit n) true else t)
      t).flashOp = t.flashOp := foldl_flashOp (fun t n => by split <;> simp) _ t
  simp only [ite_flashOp, State.raise_flashOp, ite_self, hcrit, State.ledgerUnits_flashOp, State.coresSpare_flashOp]

@[simp] theorem State.tryLeave_flashOp (s : State) : s.tryLeave.flashOp = s.flashOp := by simp [State.tryLeave]

@[simp] theorem State.cutLedger_flashOp (s : State) : s.cutLedger.flashOp = s.flashOp := by
  unfold State.cutLedger
  dsimp only
  split <;> simp

@[simp] theorem State.passes_flashOp (s : State) (lowNs : Nat) : (s.passes lowNs).2.flashOp = s.flashOp := by
  unfold State.passes
  dsimp only
  repeat' split
  all_goals simp

@[simp] theorem execResetNRelease_flashOp (compat : Bool) (s : State) :
    (resState s (execResetNRelease compat s)).flashOp = s.flashOp := by simp [execResetNRelease, resState]

@[simp] theorem execPerstNRelease_flashOp (compat : Bool) (s : State) :
    (resState s (execPerstNRelease compat s)).flashOp = s.flashOp := by simp [execPerstNRelease, resState]

@[simp] theorem execRestartLeaveReset_flashOp (compat : Bool) (s : State) :
    (resState s (execRestartLeaveReset compat s)).flashOp = s.flashOp := by simp [execRestartLeaveReset, resState]

@[simp] theorem execClkSysLoss_flashOp (absentNs : Nat) (s : State) : (resState s (execClkSysLoss absentNs s)).flashOp = s.flashOp := by
  simp [execClkSysLoss, resState]

@[simp] theorem execEthRefclkLoss_flashOp (absentNs : Nat) (s : State) :
    (resState s (execEthRefclkLoss absentNs s)).flashOp = s.flashOp := by simp [execEthRefclkLoss, resState]

@[simp] theorem State.pcieDown_flashOp (s : State) (link : Bool) : (s.pcieDown link).flashOp = s.flashOp := by
  unfold State.pcieDown
  dsimp only
  exact foldl_flashOp (fun t n => State.irqWithdraw_flashOp t (t.irqPresents n)) _ s

@[simp] theorem State.linkDown_flashOp (s : State) : s.linkDown.flashOp = s.flashOp := by simp [State.linkDown]

@[simp] theorem execPcieRefclkLoss_flashOp (s : State) : (resState s (execPcieRefclkLoss s)).flashOp = s.flashOp := by
  simp [execPcieRefclkLoss, resState]

@[simp] theorem execPcieLinkDown_flashOp (c : LinkDownCause) (s : State) : (resState s (execPcieLinkDown c s)).flashOp = s.flashOp := by
  dsimp only [execPcieLinkDown, resState]
  split <;> simp

@[simp] theorem execPcieLinkUp_flashOp (s : State) : (resState s (execPcieLinkUp s)).flashOp = s.flashOp := by
  simp [execPcieLinkUp, resState]

@[simp] theorem State.configure_flashOp (s : State) (r : CfgReq) : (s.configure r).flashOp = s.flashOp := by
  unfold State.configure
  dsimp only
  split <;> simp

@[simp] theorem execConfigurationRequest_flashOp (r : CfgReq) (s : State) :
    (resState s (execConfigurationRequest r s)).flashOp = s.flashOp := by
  dsimp only [execConfigurationRequest, resState]
  repeat' split
  all_goals simp

@[simp] theorem State.spadUeFrom_flashOp (s : State) (p : Nat) (core : Option Nat) : (s.spadUeFrom p core).flashOp = s.flashOp := by
  unfold State.spadUeFrom
  split <;> simp

@[simp] theorem State.fabBar2_flashOp (s : State) (r : FabReq) : (s.fabBar2 r).flashOp = s.flashOp := by simp [State.fabBar2]
@[simp] theorem State.fabDiscard_flashOp (s : State) (m : Nat) : (s.fabDiscard m).flashOp = s.flashOp := by simp [State.fabDiscard]

@[simp] theorem execFabUnfreeze_flashOp (m : Nat) (s : State) : (resState s (execFabUnfreeze m s)).flashOp = s.flashOp := by
  simp [execFabUnfreeze, resState]

@[simp] theorem execFabLock_flashOp (s : State) : (resState s (execFabLock s)).flashOp = s.flashOp := by simp [execFabLock, resState]
@[simp] theorem State.bindEnc_flashOp (s : State) (l k : Nat) : (s.bindEnc l k).flashOp = s.flashOp := by rfl
@[simp] theorem State.bindDec_flashOp (s : State) (l k : Nat) : (s.bindDec l k).flashOp = s.flashOp := by rfl

@[simp] theorem State.admitEnc_flashOp (s : State) (l k : Nat) (err : BitVec 64) (failed : Bool) :
    (s.admitEnc l k err failed).flashOp = s.flashOp := by simp [State.admitEnc]

@[simp] theorem State.admitDec_flashOp (s : State) (l k : Nat) (err : BitVec 64) (failed : Bool) :
    (s.admitDec l k err failed).flashOp = s.flashOp := by simp [State.admitDec]

@[simp] theorem execSpareAdmissionDone_flashOp (decode : Bool) (lane : Nat) (err : BitVec 64) (failed : Bool) (s : State) :
    (resState s (execSpareAdmissionDone decode lane err failed s)).flashOp = s.flashOp := by
  dsimp only [execSpareAdmissionDone, resState]
  split <;> split <;> simp

@[simp] theorem execLaneRebind_flashOp (decode : Bool) (lane : Nat) (s : State) :
    (resState s (execLaneRebind decode lane s)).flashOp = s.flashOp := by
  dsimp only [execLaneRebind, resState]
  split <;> split <;> simp

@[simp] theorem execStewardTakeover_flashOp (core : Nat) (s : State) :
    (resState s (execStewardTakeover core s)).flashOp = s.flashOp := by simp [execStewardTakeover, resState]

@[simp] theorem execStwWatchdog_flashOp (core : Nat) (s : State) : (resState s (execStwWatchdog core s)).flashOp = s.flashOp := by
  simp [execStwWatchdog, resState]

@[simp] theorem execStewardCoreWfi_flashOp (core : Nat) (s : State) : (resState s (execStewardCoreWfi core s)).flashOp = s.flashOp := by
  simp [execStewardCoreWfi, resState]

@[simp] theorem execStewardLoad_flashOp (s : State) : (resState s (execStewardLoad s)).flashOp = s.flashOp := by
  simp [execStewardLoad, resState]

@[simp] theorem State.retryEnc_flashOp (s : State) : s.retryEnc.flashOp = s.flashOp := by
  unfold State.retryEnc
  split <;> simp

@[simp] theorem State.retryDec_flashOp (s : State) : s.retryDec.flashOp = s.flashOp := by
  unfold State.retryDec
  split <;> simp

@[simp] theorem State.retryDma_flashOp (s : State) (n : Nat) : (s.retryDma n).flashOp = s.flashOp := by
  unfold State.retryDma
  dsimp only
  split <;> simp

@[simp] theorem State.testPassed_flashOp (s : State) (u : Nat) : (s.testPassed u).flashOp = s.flashOp := by simp [State.testPassed]

@[simp] theorem State.testResults_flashOp (s : State) (u : Nat) (err : BitVec 64) : (s.testResults u err).2.flashOp = s.flashOp := by
  unfold State.testResults
  repeat' split
  all_goals simp

@[simp] theorem execQuarantineTestEnd_flashOp (unit : Nat) (passed : Bool) (s : State) (err : BitVec 64) :
    (resState s (execQuarantineTestEnd unit passed s err)).flashOp = s.flashOp := by simp [execQuarantineTestEnd, resState]

/-! ### Scratchpads, DMA, mailbox commands and registers -/

@[simp] theorem execPowerOnHour_flashOp (tj : Nat) (writeOk : Bool) (s : State) :
    (resState s (execPowerOnHour tj writeOk s)).flashOp = s.flashOp := by simp [execPowerOnHour, resState]

@[simp] theorem State.loadFails_flashOp (s : State) : s.loadFails.flashOp = s.flashOp := by simp [State.loadFails]

@[simp] theorem State.slotResult_flashOp (s : State) (slot r : Nat) : (s.slotResult slot r).flashOp = s.flashOp := by
  simp [State.slotResult]

@[simp] theorem State.imageFreqs_flashOp (s : State) (fs : List Nat) : (s.imageFreqs fs).flashOp = s.flashOp := by
  unfold State.imageFreqs
  exact foldl_flashOp (fun _ _ => State.setIsl_flashOp ..) _ s

@[simp] theorem State.installLevels_flashOp (s : State) (ls : List Nat) : (s.installLevels ls).flashOp = s.flashOp := by rfl
@[simp] theorem State.imageRegs_flashOp (s : State) (i : Img) : (s.imageRegs i).flashOp = s.flashOp := by rfl
@[simp] theorem State.startTime_flashOp (s : State) : s.startTime.flashOp = s.flashOp := by rfl
@[simp] theorem State.drawKeys_flashOp (s : State) : s.drawKeys.flashOp = s.flashOp := by rfl

@[simp] theorem State.spanWrite_flashOp (l : List (Nat × Nat)) (bs : List Byte) (s : State) :
    (State.spanWrite l bs s).flashOp = s.flashOp := by
  induction l generalizing bs s with
  | nil => rfl
  | cons e l ih => simp [State.spanWrite, ih]

@[simp] theorem State.stageSlot_flashOp (s : State) (slot : Nat) : (s.stageSlot slot).flashOp = s.flashOp := by simp [State.stageSlot]

@[simp] theorem State.discardStage_flashOp (s : State) : s.discardStage.flashOp = s.flashOp := by
  unfold State.discardStage
  exact foldl_flashOp (fun _ _ => by rfl) _ _

@[simp] theorem State.stackServes_flashOp (s : State) (k : Nat) : (s.stackServes k).flashOp = s.flashOp := by rfl

@[simp] theorem execHbmTrainingComplete_flashOp (working : List Nat) (s : State) :
    (resState s (execHbmTrainingComplete working s)).flashOp = s.flashOp := by simp [execHbmTrainingComplete, resState]

@[simp] theorem State.copySections_flashOp (s : State) : s.copySections.flashOp = s.flashOp := by
  unfold State.copySections
  split
  · rfl
  · exact foldl_flashOp (fun _ _ => State.granWrite_flashOp ..) _ s

@[simp] theorem execImageSectionsCopied_flashOp (s : State) : (resState s (execImageSectionsCopied s)).flashOp = s.flashOp := by
  simp [execImageSectionsCopied, resState]

@[simp] theorem State.writeWindows_flashOp (s : State) (m : Nat) : (s.writeWindows m).flashOp = s.flashOp := by
  unfold State.writeWindows
  dsimp only

@[simp] theorem State.installStatic_flashOp (s : State) (t : Nat) : (s.installStatic t).flashOp = s.flashOp := by
  unfold State.installStatic
  dsimp only
  split <;> simp

@[simp] theorem State.bindNamed_flashOp (s : State) : s.bindNamed.flashOp = s.flashOp := by
  unfold State.bindNamed
  dsimp only
  refine (foldl_flashOp (fun t l => ?_) _ _).trans (foldl_flashOp (fun t l => ?_) _ _)
  · split
    · simp
    · rfl
  · split
    · simp
    · rfl

@[simp] theorem State.bindRest_flashOp (s : State) : s.bindRest.flashOp = s.flashOp := by
  unfold State.bindRest
  dsimp only
  refine (foldl_flashOp (fun t l => ?_) _ _).trans (foldl_flashOp (fun t l => ?_) _ _)
  · split
    · rfl
    · split <;> simp
  · split
    · rfl
    · split <;> simp

@[simp] theorem State.keyBounds_flashOp (s : State) : s.keyBounds.flashOp = s.flashOp := by
  unfold State.keyBounds
  dsimp only
  split <;> simp

@[simp] theorem State.loadTables_flashOp (s : State) : s.loadTables.flashOp = s.flashOp := by
  unfold State.loadTables
  rw [State.bindRest_flashOp, State.bindNamed_flashOp, foldl_flashOp State.installStatic_flashOp]
  dsimp only
  rw [State.keyBounds_flashOp]
  split
  · rfl
  · exact foldl_flashOp State.writeWindows_flashOp _ _

@[simp] theorem State.holdJobs_flashOp (s : State) : s.holdJobs.flashOp = s.flashOp := by rfl
@[simp] theorem State.enterRun_flashOp (s : State) : s.enterRun.flashOp = s.flashOp := by simp [State.enterRun]

@[simp] theorem execTablesLoaded_flashOp (s : State) : (resState s (execTablesLoaded s)).flashOp = s.flashOp := by
  simp [execTablesLoaded, resState]

@[simp] theorem State.spadSources_flashOp (s : State) (reads : List SpadAcc) (e : SpadEcc) :
    (s.spadSources reads e).flashOp = s.flashOp := by
  unfold State.spadSources
  refine foldl_fst_flashOp (fun p a => ?_) _ _
  split
  · rfl
  · dsimp only
    split <;> simp

@[simp] theorem execDmaFifoFlush_flashOp (f : Nat) (s : State) (ops : FifoOps) :
    (resState s (execDmaFifoFlush f s ops)).flashOp = s.flashOp := by simp [execDmaFifoFlush, resState]

@[simp] theorem State.dmaHalt_flashOp (s : State) (n used : Nat) : (s.dmaHalt n used).flashOp = s.flashOp := by simp [State.dmaHalt]

@[simp] theorem State.sendPulse_flashOp (s : State) (e : Nat) : (s.sendPulse e).flashOp = s.flashOp := by
  unfold State.sendPulse
  repeat' split
  all_goals simp

@[simp] theorem State.dmaFinish_flashOp (s : State) (n : Nat) : (s.dmaFinish n).flashOp = s.flashOp := by simp [State.dmaFinish]

@[simp] theorem execDmaStart_flashOp (ch : Nat) (s : State) : (resState s (execDmaStart ch s)).flashOp = s.flashOp := by
  simp [execDmaStart, resState]

@[simp] theorem execDmaFifoLevelStart_flashOp (ch : Nat) (s : State) (cycles : List (Nat × FifoOps)) :
    (resState s (execDmaFifoLevelStart ch s cycles)).flashOp = s.flashOp := by simp [execDmaFifoLevelStart, resState]

@[simp] theorem State.dmaUe_flashOp (s : State) (n : Nat) : (s.dmaUe n).flashOp = s.flashOp := by
  unfold State.dmaUe
  dsimp only
  split <;> simp

@[simp] theorem State.scanDr_flashOp (s : State) (load : List Bool) : (s.scanDr load).flashOp = s.flashOp := by simp [State.scanDr]
@[simp] theorem State.burnResult_flashOp (s : State) (r : Nat) : (s.burnResult r).flashOp = s.flashOp := by rfl

@[simp] theorem execFuseBurnOwner_flashOp (confirm : Nat) (s : State) :
    (resState s (execFuseBurnOwner confirm s)).flashOp = s.flashOp := by
  dsimp only [execFuseBurnOwner, resState]
  repeat' split
  all_goals rfl

@[simp] theorem execFuseBurnDebugClose_flashOp (confirm : Nat) (s : State) :
    (resState s (execFuseBurnDebugClose confirm s)).flashOp = s.flashOp := by
  dsimp only [execFuseBurnDebugClose, resState]
  repeat' split
  all_goals rfl

@[simp] theorem State.tapSelect_flashOp (s : State) (code : Nat) : (s.tapSelect code).flashOp = s.flashOp := by rfl

@[simp] theorem State.tapOpen_flashOp (s : State) (code : Nat) : (s.tapOpen code).flashOp = s.flashOp := by
  unfold State.tapOpen
  repeat' split
  all_goals simp

@[simp] theorem execTapReset_flashOp (s : State) : (resState s (execTapReset s)).flashOp = s.flashOp := by simp [execTapReset, resState]

@[simp] theorem execExtest_flashOp (s : State) (load : List Bool) : (resState s (execExtest s load)).flashOp = s.flashOp := by
  simp [execExtest, resState]

@[simp] theorem execSamplePreload_flashOp (s : State) (load : List Bool) :
    (resState s (execSamplePreload s load)).flashOp = s.flashOp := by simp [execSamplePreload, resState]

@[simp] theorem execIdcode_flashOp (s : State) : (resState s (execIdcode s)).flashOp = s.flashOp := by simp [execIdcode, resState]
@[simp] theorem execHighz_flashOp (s : State) : (resState s (execHighz s)).flashOp = s.flashOp := by simp [execHighz, resState]
@[simp] theorem execClamp_flashOp (s : State) : (resState s (execClamp s)).flashOp = s.flashOp := by simp [execClamp, resState]

@[simp] theorem execExtestPulse_flashOp (s : State) (load : List Bool) : (resState s (execExtestPulse s load)).flashOp = s.flashOp := by
  simp [execExtestPulse, resState]

@[simp] theorem execExtestTrain_flashOp (s : State) (load : List Bool) : (resState s (execExtestTrain s load)).flashOp = s.flashOp := by
  simp [execExtestTrain, resState]

@[simp] theorem execBypass_flashOp (s : State) : (resState s (execBypass s)).flashOp = s.flashOp := by simp [execBypass, resState]

@[simp] theorem execDbgSteward_flashOp (s : State) : (resState s (execDbgSteward s)).flashOp = s.flashOp := by
  simp [execDbgSteward, resState]

@[simp] theorem execDbgFabric_flashOp (s : State) : (resState s (execDbgFabric s)).flashOp = s.flashOp := by
  simp [execDbgFabric, resState]

@[simp] theorem State.startSession_flashOp (s : State) (fenic : Bool) (a : OpenArgs) (host : Nat) :
    (s.startSession fenic a host).flashOp = s.flashOp := by simp [State.startSession]

@[simp] theorem State.openSession_flashOp (s : State) (fenic : Bool) (h : CmdHdr) (a : OpenArgs) (host : Class → Nat) :
    (s.openSession fenic h a host).flashOp = s.flashOp := by
  unfold State.openSession
  split
  · simp
  · simp
  · split
    · simp
    · split
      · rfl
      · dsimp only
        split
        · simp
        · split
          · simp
          · split
            · simp
            next u hu => simp [State.emInsert_flashOp hu]

@[simp] theorem execSessionOpen_flashOp (h : CmdHdr) (a : OpenArgs) (s : State) :
    (resState s (execSessionOpen h a s)).flashOp = s.flashOp := by simp [execSessionOpen, resState]

@[simp] theorem execOpenStream_flashOp (h : CmdHdr) (ch width height target : Nat) (s : State) :
    (resState s (execOpenStream h ch width height target s)).flashOp = s.flashOp := by simp [execOpenStream, resState]

@[simp] theorem State.unbind_flashOp (s : State) (x : Nat) : (s.unbind x).flashOp = s.flashOp := by rfl
@[simp] theorem State.unlinkChain_flashOp (s : State) (ch : Nat) : (s.unlinkChain ch).flashOp = s.flashOp := by simp [State.unlinkChain]

@[simp] theorem State.closeSession_flashOp (s : State) (ch : Nat) : (s.closeSession ch).flashOp = s.flashOp := by
  unfold State.closeSession
  dsimp only
  repeat' split
  all_goals simp

@[simp] theorem State.closeCommand_flashOp (s : State) (h : CmdHdr) (ch : Nat) (rsvOk fenic : Bool) :
    (s.closeCommand h ch rsvOk fenic).flashOp = s.flashOp := by simp [State.closeCommand]

@[simp] theorem execSessionClose_flashOp (h : CmdHdr) (ch : Nat) (rsvOk : Bool) (s : State) :
    (resState s (execSessionClose h ch rsvOk s)).flashOp = s.flashOp := by simp [execSessionClose, resState]

@[simp] theorem execCloseStream_flashOp (h : CmdHdr) (ch : Nat) (s : State) :
    (resState s (execCloseStream h ch s)).flashOp = s.flashOp := by simp [execCloseStream, resState]

@[simp] theorem State.openCtx_flashOp (s : State) (a : CtxArgs) : (s.openCtx a).flashOp = s.flashOp := by simp [State.openCtx]

@[simp] theorem execSessionOpenContext_flashOp (h : CmdHdr) (a : CtxArgs) (s : State) :
    (resState s (execSessionOpenContext h a s)).flashOp = s.flashOp := by
  dsimp only [execSessionOpenContext, resState]
  refine State.serve_flashOp _ _ _ _ _ _ _ fun s => ?_
  split
  · simp
  · split
    · simp
    · split
      · rfl
      · split
        · simp
        · split
          · simp
          · split
            · simp
            next u hu => simp [State.emInsert_flashOp hu]

@[simp] theorem State.closeCtx_flashOp (s : State) (x : Nat) : (s.closeCtx x).flashOp = s.flashOp := by
  unfold State.closeCtx
  dsimp only
  repeat' split
  all_goals simp

@[simp] theorem execSessionCloseContext_flashOp (h : CmdHdr) (dcx : Nat) (rsvOk : Bool) (s : State) :
    (resState s (execSessionCloseContext h dcx rsvOk s)).flashOp = s.flashOp := by simp [execSessionCloseContext, resState]

@[simp] theorem State.allocBody_flashOp (s : State) : s.allocBody.2.flashOp = s.flashOp := by rfl
@[simp] theorem State.linkBody_flashOp (s : State) (k : Nat) (a : AddArgs) : (s.linkBody k a).flashOp = s.flashOp := by rfl

@[simp] theorem State.addBody_flashOp (s : State) (h : CmdHdr) (a : AddArgs) : (s.addBody h a).flashOp = s.flashOp := by
  unfold State.addBody
  dsimp only
  split
  · simp
  · split
    · simp
    · have ha := s.allocBody_flashOp
      split
      next u hu =>
        rw [hu] at ha
        simpa using ha
      next k u hu =>
        rw [hu] at ha
        split
        · simpa using ha
        next v hv => simpa [State.emInsert_flashOp hv] using ha

@[simp] theorem State.addDelivery_flashOp (s : State) (h : CmdHdr) (a : AddArgs) : (s.addDelivery h a).flashOp = s.flashOp := by
  simp [State.addDelivery]

@[simp] theorem execDeliveryAdd_flashOp (h : CmdHdr) (a : AddArgs) (s : State) :
    (resState s (execDeliveryAdd h a s)).flashOp = s.flashOp := by simp [execDeliveryAdd, resState]

@[simp] theorem execAddDest_flashOp (h : CmdHdr) (a : DestArgs) (s : State) : (resState s (execAddDest h a s)).flashOp = s.flashOp := by
  simp [execAddDest, resState]

@[simp] theorem State.delDelivery_flashOp (s : State) (h : CmdHdr) (handle : Nat) : (s.delDelivery h handle).flashOp = s.flashOp := by
  simp [State.delDelivery]

@[simp] theorem execDeliveryDel_flashOp (h : CmdHdr) (handle : Nat) (s : State) :
    (resState s (execDeliveryDel h handle s)).flashOp = s.flashOp := by simp [execDeliveryDel, resState]

@[simp] theorem execDelDest_flashOp (h : CmdHdr) (handle : Nat) (s : State) :
    (resState s (execDelDest h handle s)).flashOp = s.flashOp := by simp [execDelDest, resState]

@[simp] theorem State.setTarget_flashOp (s : State) (h : CmdHdr) (ch value : Nat) : (s.setTarget h ch value).flashOp = s.flashOp := by
  unfold State.setTarget
  dsimp only
  split <;> simp

@[simp] theorem execTargetSet_flashOp (h : CmdHdr) (ch value : Nat) (s : State) :
    (resState s (execTargetSet h ch value s)).flashOp = s.flashOp := by simp [execTargetSet, resState]

@[simp] theorem execSetBitrate_flashOp (h : CmdHdr) (ch value : Nat) (s : State) :
    (resState s (execSetBitrate h ch value s)).flashOp = s.flashOp := by simp [execSetBitrate, resState]

@[simp] theorem execTargetSetDelivery_flashOp (h : CmdHdr) (handle value : Nat) (s : State) :
    (resState s (execTargetSetDelivery h handle value s)).flashOp = s.flashOp := by simp [execTargetSetDelivery, resState]

@[simp] theorem execRulesetSwap_flashOp (h : CmdHdr) (idx : Nat) (s : State) :
    (resState s (execRulesetSwap h idx s)).flashOp = s.flashOp := by simp [execRulesetSwap, resState]

@[simp] theorem State.readEffect_flashOp (s : State) (off : Nat) : (s.readEffect off).flashOp = s.flashOp := by simp [State.readEffect]

@[simp] theorem State.read4_flashOp (s : State) (who : Requester) (off : Nat) : (s.read4 who off).2.flashOp = s.flashOp := by
  simp [State.read4]

@[simp] theorem State.read8_flashOp (s : State) (who : Requester) (off : Nat) : (s.read8 who off).flashOp = s.flashOp := by
  simp [State.read8]

@[simp] theorem State.answered_flashOp (s : State) (who : Requester) : (s.answered who).flashOp = s.flashOp := by
  unfold State.answered
  split <;> simp

@[simp] theorem State.refusedAccess_flashOp (s : State) (who : Requester) : (s.refusedAccess who).flashOp = s.flashOp := by
  unfold State.refusedAccess
  split <;> simp

@[simp] theorem State.offBar0_flashOp (s : State) (who : Requester) : (s.offBar0 who).flashOp = s.flashOp := by
  unfold State.offBar0
  split <;> simp

@[simp] theorem execCounterLowRead_flashOp (who : Requester) (off : Nat) (s : State) (size : Nat) :
    (resState s (execCounterLowRead who off s size)).flashOp = s.flashOp := by simp [execCounterLowRead, resState]

@[simp] theorem execSecKeyStatRead_flashOp (s : State) : (resState s (execSecKeyStatRead s)).flashOp = s.flashOp := by
  simp [execSecKeyStatRead, resState]

@[simp] theorem execFabViolLastRead_flashOp (s : State) : (resState s (execFabViolLastRead s)).flashOp = s.flashOp := by
  simp [execFabViolLastRead, resState]

@[simp] theorem execRotaTimeNsRead_flashOp (s : State) : (resState s (execRotaTimeNsRead s)).flashOp = s.flashOp := by
  simp [execRotaTimeNsRead, resState]

@[simp] theorem State.storeKey_flashOp (s : State) (slot : Nat) (k : List Byte) : (s.storeKey slot k).flashOp = s.flashOp := by rfl

@[simp] theorem State.commitKey_flashOp (s : State) (h : CmdHdr) (slot : Nat) (k : List Byte) :
    (s.commitKey h slot k).flashOp = s.flashOp := by
  unfold State.commitKey
  split <;> simp

@[simp] theorem State.unwrapFailed_flashOp (s : State) : s.unwrapFailed.flashOp = s.flashOp := by simp [State.unwrapFailed]

@[simp] theorem State.importBlob_flashOp (s : State) (h : CmdHdr) (len : Nat) (blob : List Byte) (slot : Option Nat) :
    (s.importBlob h len blob slot).flashOp = s.flashOp := by
  unfold State.importBlob
  repeat' split
  all_goals simp

@[simp] theorem execKeyImport_flashOp (h : CmdHdr) (src len : Nat) (blob : List Byte) (s : State) :
    (resState s (execKeyImport h src len blob s)).flashOp = s.flashOp := by simp [execKeyImport, resState]

@[simp] theorem execLoadKey_flashOp (h : CmdHdr) (src len slot : Nat) (blob : List Byte) (s : State) :
    (resState s (execLoadKey h src len slot blob s)).flashOp = s.flashOp := by simp [execLoadKey, resState]

@[simp] theorem execKeyErase_flashOp (h : CmdHdr) (slot : Nat) (s : State) :
    (resState s (execKeyErase h slot s)).flashOp = s.flashOp := by simp [execKeyErase, resState]

@[simp] theorem execAttest_flashOp (h : CmdHdr) (nonceSrc dst : Nat) (s : State) :
    (resState s (execAttest h nonceSrc dst s)).flashOp = s.flashOp := by simp [execAttest, resState]

@[simp] theorem State.islCommand_flashOp (s : State) (h : CmdHdr) (isl : Nat) (r : Option IslReq) :
    (s.islCommand h isl r).flashOp = s.flashOp := by
  unfold State.islCommand
  repeat' split
  all_goals simp

@[simp] theorem execIslandState_flashOp (h : CmdHdr) (isl st : Nat) (s : State) :
    (resState s (execIslandState h isl st s)).flashOp = s.flashOp := by simp [execIslandState, resState]

@[simp] theorem execIslandFreq_flashOp (h : CmdHdr) (isl mhz : Nat) (s : State) :
    (resState s (execIslandFreq h isl mhz s)).flashOp = s.flashOp := by simp [execIslandFreq, resState]

@[simp] theorem execImageWriteVerify_flashOp (h : CmdHdr) (slot : Nat) (rd : FlashReads) (s : State) :
    (resState s (execImageWriteVerify h slot rd s)).flashOp = s.flashOp := by simp [execImageWriteVerify, resState]

@[simp] theorem State.restartNow_flashOp (s : State) (h : CmdHdr) : (s.restartNow h).flashOp = s.flashOp := by simp [State.restartNow]

@[simp] theorem execRestart_flashOp (h : CmdHdr) (s : State) : (resState s (execRestart h s)).flashOp = s.flashOp := by
  simp [execRestart, resState]

@[simp] theorem execReboot_flashOp (h : CmdHdr) (s : State) : (resState s (execReboot h s)).flashOp = s.flashOp := by
  simp [execReboot, resState]

@[simp] theorem State.clearMark_flashOp (s : State) (n : Nat) : (s.clearMark n).flashOp = s.flashOp := by rfl

@[simp] theorem State.ackFault_flashOp (s : State) (h : CmdHdr) (n : Nat) : (s.ackFault h n).flashOp = s.flashOp := by
  simp [State.ackFault]

@[simp] theorem execFaultAck_flashOp (h : CmdHdr) (src : Nat) (s : State) :
    (resState s (execFaultAck h src s)).flashOp = s.flashOp := by simp [execFaultAck, resState]

@[simp] theorem execClearAlarm_flashOp (h : CmdHdr) (src : Nat) (s : State) :
    (resState s (execClearAlarm h src s)).flashOp = s.flashOp := by simp [execClearAlarm, resState]

@[simp] theorem State.copyRegs_flashOp (n off : Nat) (s : State) : (State.copyRegs n off s).2.flashOp = s.flashOp := by
  induction n generalizing off s with
  | zero => rfl
  | succ n ih => simp [State.copyRegs, ih]

@[simp] theorem execReservedOpcode_flashOp (h : CmdHdr) (opcode : Nat) (s : State) :
    (resState s (execReservedOpcode h opcode s)).flashOp = s.flashOp := by simp [execReservedOpcode, resState]

@[simp] theorem execBadOpcode_flashOp (h : CmdHdr) (opcode : Nat) (s : State) :
    (resState s (execBadOpcode h opcode s)).flashOp = s.flashOp := by simp [execBadOpcode, resState]

@[simp] theorem State.setTj_flashOp (s : State) (ts : Nat) (tj : Int) : (s.setTj ts tj).flashOp = s.flashOp := by rfl

@[simp] theorem State.thermLine_flashOp (s : State) (n : Nat) (level : Bool) : (s.thermLine n level).flashOp = s.flashOp := by
  simp [State.thermLine]

@[simp] theorem execThermalWarn_flashOp (ts : Nat) (tj : Int) (s : State) :
    (resState s (execThermalWarn ts tj s)).flashOp = s.flashOp := by simp [execThermalWarn, resState]

@[simp] theorem execThermalCrit_flashOp (ts : Nat) (tj : Int) (s : State) :
    (resState s (execThermalCrit ts tj s)).flashOp = s.flashOp := by simp [execThermalCrit, resState]

@[simp] theorem execThermalAlertClears_flashOp (ts : Nat) (tj : Int) (s : State) :
    (resState s (execThermalAlertClears ts tj s)).flashOp = s.flashOp := by simp [execThermalAlertClears, resState]

@[simp] theorem State.smbAnswer_flashOp (s : State) (pre bs : List Byte) (nack : Bool) :
    (s.smbAnswer pre bs nack).flashOp = s.flashOp := by rfl

@[simp] theorem State.smbReturn_flashOp (s : State) (code : Nat) (bs : List Byte) (nack : Bool) :
    (s.smbReturn code bs nack).flashOp = s.flashOp := by rfl

@[simp] theorem execSmbReadHottestTj_flashOp (s : State) : (resState s (execSmbReadHottestTj s)).flashOp = s.flashOp := by
  simp [execSmbReadHottestTj, resState]

@[simp] theorem execSmbReadHottestIndex_flashOp (s : State) : (resState s (execSmbReadHottestIndex s)).flashOp = s.flashOp := by
  simp [execSmbReadHottestIndex, resState]

@[simp] theorem execSmbReadPower_flashOp (s : State) : (resState s (execSmbReadPower s)).flashOp = s.flashOp := by
  simp [execSmbReadPower, resState]

@[simp] theorem execSmbReadState_flashOp (s : State) : (resState s (execSmbReadState s)).flashOp = s.flashOp := by
  simp [execSmbReadState, resState]

@[simp] theorem execSmbReadThermalStatus_flashOp (s : State) : (resState s (execSmbReadThermalStatus s)).flashOp = s.flashOp := by
  simp [execSmbReadThermalStatus, resState]

@[simp] theorem execSmbReadSensorTj_flashOp (code : Nat) (s : State) :
    (resState s (execSmbReadSensorTj code s)).flashOp = s.flashOp := by simp [execSmbReadSensorTj, resState]

@[simp] theorem execSmbReadRailCurrent_flashOp (code : Nat) (s : State) :
    (resState s (execSmbReadRailCurrent code s)).flashOp = s.flashOp := by simp [execSmbReadRailCurrent, resState]

@[simp] theorem execSmbUnknownCommand_flashOp (code n : Nat) (s : State) :
    (resState s (execSmbUnknownCommand code n s)).flashOp = s.flashOp := by simp [execSmbUnknownCommand, resState]

@[simp] theorem execSmbAlertResponse_flashOp (s : State) : (resState s (execSmbAlertResponse s)).flashOp = s.flashOp := by
  simp [execSmbAlertResponse, resState]

@[simp] theorem State.forcedUnit_flashOp (s : State) (n : Nat) : (s.forcedUnit n).2.flashOp = s.flashOp := by
  unfold State.forcedUnit
  dsimp only
  split <;> simp

@[simp] theorem State.forceEvents_flashOp (l : List Nat) (s : State) : (State.forceEvents l s).2.flashOp = s.flashOp := by
  induction l generalizing s with
  | nil => rfl
  | cons n ns ih => simp [State.forceEvents, ih]

@[simp] theorem State.setForce_flashOp (s : State) (n : Nat) (w : Nat) : (s.setForce n w).flashOp = s.flashOp := by
  simp [State.setForce]

@[simp] theorem execFltForce_flashOp (n : Nat) (w : Word) (s : State) : (resState s (execFltForce n w s)).flashOp = s.flashOp := by
  simp [execFltForce, resState]

@[simp] theorem execFltAck_flashOp (src : Nat) (s : State) : (resState s (execFltAck src s)).flashOp = s.flashOp := by
  simp [execFltAck, resState]

@[simp] theorem execFltAckAll_flashOp (s : State) : (resState s (execFltAckAll s)).flashOp = s.flashOp := by
  simp [execFltAckAll, resState]

@[simp] theorem State.writeSec_flashOp (s : State) (off w : Nat) : (s.writeSec off w).flashOp = s.flashOp := by
  unfold State.writeSec
  dsimp only
  repeat' split
  all_goals simp

@[simp] theorem State.writeIrq_flashOp (s : State) (off w : Nat) : (s.writeIrq off w).flashOp = s.flashOp := by
  unfold State.writeIrq
  dsimp only
  repeat' split
  all_goals simp

@[simp] theorem State.writeFlt_flashOp (s : State) (off w : Nat) : (s.writeFlt off w).flashOp = s.flashOp := by
  unfold State.writeFlt
  dsimp only
  repeat' split
  all_goals simp

@[simp] theorem State.writeMsix_flashOp (s : State) (v field w : Nat) : (s.writeMsix v field w).flashOp = s.flashOp := by
  unfold State.writeMsix
  dsimp only
  repeat' split
  all_goals simp

@[simp] theorem State.writeFab_flashOp (s : State) (off w : Nat) : (s.writeFab off w).flashOp = s.flashOp := by
  unfold State.writeFab
  dsimp only
  repeat' split
  all_goals simp

@[simp] theorem State.writeRota_flashOp (s : State) (off w : Nat) : (s.writeRota off w).flashOp = s.flashOp := by
  unfold State.writeRota
  repeat' split
  all_goals simp

@[simp] theorem State.writeRc_flashOp (s : State) (ch p o w : Nat) : (s.writeRc ch p o w).flashOp = s.flashOp := by simp [State.writeRc]

@[simp] theorem State.writeDcx_flashOp (s : State) (x o w : Nat) : (s.writeDcx x o w).flashOp = s.flashOp := by
  unfold State.writeDcx
  split
  · simp
  · split <;> simp

@[simp] theorem State.writeHbm_flashOp (s : State) (k o w : Nat) : (s.writeHbm k o w).flashOp = s.flashOp := by
  unfold State.writeHbm
  split <;> split <;> simp

@[simp] theorem State.slew_flashOp (s : State) : s.slew.2.flashOp = s.flashOp := by rfl

@[simp] theorem State.coast_flashOp (s : State) : s.coast.2.flashOp = s.flashOp := by
  have hc : s.coast.2 = { (s.drawBelow 2).2 with ptp := ((s.drawBelow 2).2.ptp.coast (s.drawBelow 2).1).2 } := by rfl
  rw [hc]
  exact s.drawBelow_flashOp 2

@[simp] theorem State.tick_flashOp (s : State) : s.tick.flashOp = s.flashOp := by
  have hc := State.coast_flashOp
  unfold State.tick
  generalize State.coast = c at hc ⊢
  dsimp only
  repeat' split
  all_goals simp [hc]

end Sys2Proof.Machine
end

section
/-!
SUPPORT. The operations in which a job's work may be given up with its flash operation: aborts, and error responses to a steward core
(R419, R420, R447).
-/

namespace Sys2Proof.Machine

/-- The flash operation is `x`, or none runs: what is left of `x` where a command's work may be given up. -/
def State.OpIn (s : State) (x : Option FlashOp) : Prop := s.flashOp = x ∨ s.flashOp = none

section
variable {s t : State} {x : Option FlashOp}

theorem State.OpIn.ite {c : Prop} [Decidable c] (hs : s.OpIn x) (ht : t.OpIn x) : (if c then s else t).OpIn x := by
  split <;> assumption

theorem State.OpIn.congr (h : s.OpIn x) (e : t.flashOp = s.flashOp) : t.OpIn x := by
  rw [State.OpIn, e]
  exact h

/-- What a job had begun is given up: the flash operation goes, where it is the job's. -/
theorem State.dropWork_opIn (h : s.OpIn x) (j : Job) : (s.dropWork j).OpIn x := by
  unfold State.dropWork
  split
  · exact h
  · show s.flashOp.filter _ = x ∨ s.flashOp.filter _ = none
    rcases h with h | h
    · cases hf : s.flashOp.filter (fun o => o.tag ≠ j.tag) with
      | none => exact .inr rfl
      | some o =>
        obtain ⟨ho, -⟩ := Option.filter_eq_some_iff.mp hf
        exact .inl (by rw [← h, ho])
    · exact .inr (by rw [h]; rfl)

theorem State.failJob_opIn (h : s.OpIn x) : s.failJob.OpIn x := by
  unfold State.failJob
  split
  · exact h
  next j _ _ => exact (State.dropWork_opIn h j).congr (by simp)

theorem State.resolveAbort_opIn (h : s.OpIn x) (a : AbortOf) : (s.resolveAbort a).OpIn x := by
  unfold State.resolveAbort
  split
  · split
    next j _ =>
      split
      · exact (State.dropWork_opIn h j).congr (by simp)
      · exact h.congr (by simp)
    · split <;> exact h.congr (by simp)
  · split <;> exact h.congr (by simp)

theorem State.requestAbort_opIn (h : s.OpIn x) (a : AbortOf) : (s.requestAbort a).OpIn x := by
  unfold State.requestAbort
  split
  · exact h
  · split
    · exact h
    · exact State.resolveAbort_opIn h a

theorem State.mailboxReturns_opIn (h : s.OpIn x) : s.mailboxReturns.OpIn x := by
  have hp : (State.putWaiting s.mbx.waiting s).OpIn x := h.congr (by simp)
  unfold State.mailboxReturns
  refine State.OpIn.congr ?_ (State.fetch_flashOp _)
  split
  · split
    · exact hp
    · exact State.resolveAbort_opIn (h.congr (by simp)) _
  · exact hp

theorem State.islReturns_opIn (h : s.OpIn x) (n : Nat) (off : Bool) : (s.islReturns n off).OpIn x := by
  have hp : (s.pulsesGo n false).OpIn x := h.congr (by simp)
  unfold State.islReturns
  dsimp only
  split
  · split
    · exact h.congr (by simp)
    · exact h.congr (by simp)
  · split
    · exact State.mailboxReturns_opIn hp
    · repeat' split
      all_goals exact h.congr (by simp)

/-! ### Error responses and accesses (R358, R447) -/

theorem State.masterError_opIn (h : s.OpIn x) (m addr : Nat) : (s.masterError m addr).OpIn x := by
  unfold State.masterError
  refine .ite (h.congr ?_) (.ite (h.congr ?_) (.ite (h.congr ?_) (.ite (State.failJob_opIn h) h)))
  all_goals simp

theorem State.respond_opIn (h : s.OpIn x) (a : GranAcc) (err : Bool) (data : List Byte) : (s.respond a err data).OpIn x := by
  unfold State.respond
  dsimp only
  split
  · exact State.masterError_opIn (h.congr (by rfl)) _ _
  · exact h.congr (by rfl)

theorem State.deliver_opIn (h : s.OpIn x) (port : Nat) (l : List RetSlot) : (s.deliver port l).OpIn x := by
  induction l generalizing s with
  | nil => exact h
  | cons r rs ih =>
    unfold State.deliver
    split
    · exact ih (State.respond_opIn (h.congr (by rfl)) _ _ _)
    · exact h.congr (by rfl)

theorem State.fillRet_opIn (h : s.OpIn x) (port id : Nat) (err : Bool) (data : List Byte) : (s.fillRet port id err data).OpIn x :=
  State.deliver_opIn h _ _

theorem State.acceptAcc_opIn (h : s.OpIn x) (i : Nat) (a : GranAcc) : (s.acceptAcc i a).OpIn x := by
  unfold State.acceptAcc
  split
  · exact h.congr (by simp)
  · dsimp only
    split
    · exact State.fillRet_opIn (h.congr (by simp)) _ _ _ _
    · exact h.congr (by simp)

theorem State.issueRead_opIn (h : s.OpIn x) (g : Nat) (q : QRead) (e : EccOut) : (s.issueRead g q e).OpIn x := by
  unfold State.issueRead
  dsimp only
  split
  · exact State.fillRet_opIn (h.congr (by simp)) _ _ _ _
  · split
    · exact State.fillRet_opIn h _ _ _ _
    · split
      · exact (State.fillRet_opIn h q.acc.port q.id false q.data).congr (by simp)
      · exact State.fillRet_opIn (h.congr (by simp)) _ _ _ _
      · exact State.fillRet_opIn h _ _ _ _

theorem State.issueWrite_opIn (h : s.OpIn x) (g : Nat) (a : GranAcc) (e : EccOut) : (s.issueWrite g a e).OpIn x := by
  unfold State.issueWrite
  split <;> exact State.respond_opIn (h.congr (by simp)) _ _ _

theorem State.issuePos_opIn (slow : List Nat) {p : State × List EccOut} (h : p.1.OpIn x) (i : Nat) :
    (State.issuePos slow p i).1.OpIn x := by
  unfold State.issuePos
  dsimp only
  split
  · split
    · exact h
    · split
      · exact State.issueWrite_opIn (h.congr (by rfl)) _ _ _
      · exact State.respond_opIn (h.congr (by rfl)) _ _ _
      · exact h
  · split
    · exact h
    · split
      · exact State.issueRead_opIn (h.congr (by rfl)) _ _ _
      · exact State.fillRet_opIn (h.congr (by rfl)) _ _ _ _
      · exact h

theorem State.present_opIn {p : State × List Nat × List Nat} (h : p.1.OpIn x) (a : GranAcc) : (State.present p a).1.OpIn x := by
  unfold State.present
  dsimp only
  split
  · exact h
  · split
    · exact h
    · split
      · exact State.respond_opIn h _ _ _
      · exact State.fillRet_opIn (h.congr (by simp)) _ _ _ _
    · split
      · exact h
      · exact State.acceptAcc_opIn h _ _

theorem execGranaryAccess_opIn (h : s.OpIn x) (accs : List GranAcc) (e : EccOut) (cyc : GranCyc) :
    (resState s (execGranaryAccess accs e s cyc)).OpIn x := by
  dsimp only [execGranaryAccess, resState]
  refine List.foldlRecOn (motive := fun p : State × List EccOut => p.1.OpIn x) _ _ ?_ fun p hp i _ => State.issuePos_opIn _ hp i
  refine List.foldlRecOn (motive := fun p : State × List Nat × List Nat => p.1.OpIn x) _ _ ?_ fun p hp a _ => State.present_opIn hp a
  exact h.congr (foldl_flashOp State.holdAccess_flashOp _ _)

/-! ### The fabric (R102, R105, R358) -/

theorem State.fabRead_opIn (h : s.OpIn x) (r : FabReq) (a : Nat) : (s.fabRead r a).OpIn x := by
  unfold State.fabRead
  split
  · exact h.congr (by simp)
  · exact State.masterError_opIn (h.congr (by simp)) _ _
  · exact h.congr (by simp)

theorem State.fabPerform_opIn (h : s.OpIn x) (r : FabReq) : (s.fabPerform r).OpIn x := by
  unfold State.fabPerform
  dsimp only
  split
  · exact State.masterError_opIn (h.congr (by simp)) _ _
  · exact h.congr (by rfl)
  · split
    · exact h.congr (by simp)
    · exact State.fabRead_opIn h _ _

theorem State.fabOne_opIn {p : State × List (Nat × Nat)} (h : p.1.OpIn x) (r : FabReq) : (State.fabOne p r).1.OpIn x := by
  unfold State.fabOne
  dsimp only
  split
  · exact h
  · split
    · exact h.congr (by simp)
    · split
      · exact h.congr (by simp)
      · split
        · split
          · exact h.congr (by dsimp only; split <;> simp)
          · exact h.congr (by rfl)
        · split
          · exact State.fabPerform_opIn h r
          · exact h.congr (by simp)
          · exact h.congr (by simp)

theorem State.freezeUnit_opIn (h : s.OpIn x) (m : Nat) : (s.freezeUnit m).OpIn x := by
  unfold State.freezeUnit
  dsimp only
  split
  · exact h.congr (by simp)
  · split
    · exact h.congr (by simp)
    · exact State.masterError_opIn h _ _

theorem State.fabViolations_opIn (h : s.OpIn x) (bad : List (Nat × Nat)) : (s.fabViolations bad).OpIn x := by
  unfold State.fabViolations
  split
  · exact h
  · refine State.OpIn.congr ?_ (State.raiseAll_flashOp _ _ _)
    exact List.foldlRecOn (motive := fun s : State => s.OpIn x) _ _ (h.congr (by rfl)) fun s hs e _ => State.freezeUnit_opIn hs e.1

theorem execFabricTransaction_opIn (h : s.OpIn x) (reqs : List FabReq) : (resState s (execFabricTransaction reqs s)).OpIn x := by
  dsimp only [execFabricTransaction, resState]
  split
  · exact h
  · refine State.fabViolations_opIn ?_ _
    refine List.foldlRecOn (motive := fun p : State × List (Nat × Nat) => p.1.OpIn x) _ _ ?_ fun p hp r _ => State.fabOne_opIn hp r
    exact List.foldlRecOn (motive := fun s : State => s.OpIn x) _ _ (h.congr (by rfl)) fun s hs r _ => State.fabPerform_opIn hs r

/-! ### Scratchpads and DMA (R385, R398) -/

theorem State.spadPortError_opIn (h : s.OpIn x) (p : Nat) (a : SpadAcc) : (s.spadPortError p a).OpIn x := by
  unfold State.spadPortError
  split
  · exact State.masterError_opIn h _ _
  · split
    · exact h.congr (by simp)
    · split
      · exact h.congr (by simp)
      · exact State.failJob_opIn h

theorem State.spadAnswer_opIn (h : s.OpIn x) (bad : List SpadAcc) : (s.spadAnswer bad).OpIn x := by
  unfold State.spadAnswer
  refine List.foldlRecOn (motive := fun s : State => s.OpIn x) _ _ h fun s hs a _ => ?_
  split
  · exact State.spadPortError_opIn hs _ _
  · exact hs

theorem execScratchpadAccess_opIn (h : s.OpIn x) (accs : List SpadAcc) (e : SpadEcc) :
    (resState s (execScratchpadAccess accs e s)).OpIn x := by
  dsimp only [execScratchpadAccess, resState]
  split
  · exact h
  · refine (State.spadAnswer_opIn ?_ _).congr (State.spadSources_flashOp _ _ _)
    exact h.congr (foldl_flashOp (fun _ _ => State.chipWrite_flashOp ..) _ s)

theorem State.dmaAdvance_opIn (h : s.OpIn x) (n k : Nat) : (s.dmaAdvance n k).OpIn x := by
  unfold State.dmaAdvance
  dsimp only
  split
  · exact h.congr (by simp)
  · split
    · exact h.congr (by simp)
    · split
      · exact h.congr (by simp)
      · exact h.congr (by simp)
      · exact State.fabViolations_opIn (h.congr (by simp)) _

theorem execDmaFifoLevelPause_opIn (h : s.OpIn x) (ch words : Nat) : (resState s (execDmaFifoLevelPause ch words s)).OpIn x := by
  dsimp only [execDmaFifoLevelPause, resState]
  split
  · exact h
  · exact (State.dmaAdvance_opIn h ch ((s.dma ch).done + words * (s.dma ch).sw)).congr (by simp)

theorem execDmaComplete_opIn (h : s.OpIn x) (ch : Nat) : (resState s (execDmaComplete ch s)).OpIn x := by
  dsimp only [execDmaComplete, resState]
  split
  · exact h
  · exact (State.dmaAdvance_opIn h ch (s.dma ch).len).congr (by simp)

theorem execDmaBeatError_opIn (h : s.OpIn x) (ch written : Nat) (ue : Bool) : (resState s (execDmaBeatError ch written s ue)).OpIn x := by
  dsimp only [execDmaBeatError, resState]
  split
  · exact h
  · exact (State.dmaAdvance_opIn h ch (min written ((s.dma ch).len - (s.dma ch).dw))).congr (by simp)

theorem execDmaAbort_opIn (h : s.OpIn x) (ch written : Nat) : (resState s (execDmaAbort ch written s)).OpIn x := by
  have hadv : (if s.dmaRuns ch && decide (written < (s.dma ch).len) then s.dmaAdvance ch written else s).OpIn x := by
    split
    · exact State.dmaAdvance_opIn h _ _
    · exact h
  dsimp only [execDmaAbort, resState]
  split
  · exact h
  · split
    · exact hadv.congr (by simp)
    · exact h.congr (by rfl)

/-! ### Islands, aborts and register writes (R419, R471, R482) -/

theorem execIslandTransitionDone_opIn (h : s.OpIn x) (isl : Nat) : (resState s (execIslandTransitionDone isl s)).OpIn x := by
  dsimp only [execIslandTransitionDone, resState]
  split
  · exact h
  · split
    · exact h
    · split
      · split
        · exact h
        · exact h.congr (by simp)
      · split
        · exact h
        · refine State.OpIn.congr ?_ (State.islHeldNow_flashOp _ _ _)
          split
          · exact h.congr (by simp)
          · split
            · exact State.islReturns_opIn (h.congr (by simp)) _ _
            · exact h.congr (by simp)

theorem execMbxAbort_opIn (h : s.OpIn x) (tag : Nat) : (resState s (execMbxAbort tag s)).OpIn x := by
  dsimp only [execMbxAbort, resState]
  split
  · exact State.requestAbort_opIn h _
  · exact h.congr (by simp)

theorem execAbortDrain_opIn (h : s.OpIn x) (stack : Nat) : (resState s (execAbortDrain stack s)).OpIn x := by
  dsimp only [execAbortDrain, resState]
  split
  · exact State.requestAbort_opIn h _
  · exact h.congr (by simp)

theorem State.writeMbx_opIn (h : s.OpIn x) (off w : Nat) : (s.writeMbx off w).OpIn x := by
  unfold State.writeMbx
  split
  · exact h.congr (by simp)
  · split
    · split
      · exact State.requestAbort_opIn h _
      · exact State.requestAbort_opIn h _
      · exact State.requestAbort_opIn h _
      · exact h
    · split
      · exact h.congr (by simp)
      · exact h

theorem State.writeDmaCh_opIn (h : s.OpIn x) (who : Requester) (n r w : Nat) : (s.writeDmaCh who n r w).OpIn x := by
  have habort : (if bitOf w 1 then resState s (execDmaAbort n (s.dma n).done s) else s).OpIn x := by
    split
    · exact execDmaAbort_opIn h _ _
    · exact h
  unfold State.writeDmaCh
  dsimp only
  split
  · exact h
  · split
    case h_7 =>
      split
      · exact habort.congr (by simp)
      · exact habort
    all_goals exact h.congr (by simp)

theorem State.writeDma_opIn (h : s.OpIn x) (who : Requester) (off w : Nat) : (s.writeDma who off w).OpIn x := by
  unfold State.writeDma
  dsimp only
  split
  · exact State.writeDmaCh_opIn h _ _ _ _
  · split
    · split
      · exact h
      · split
        · exact h.congr (by split <;> simp)
        · exact h.congr (by simp)
    · exact h

theorem State.write4_opIn (h : s.OpIn x) (who : Requester) (off w : Nat) : (s.write4 who off w).OpIn x := by
  unfold State.write4
  refine .ite h (.ite h (.ite ?islands (.ite h (.ite (h.congr ?_) (.ite (h.congr ?_) (.ite (h.congr ?_)
    (.ite (State.writeMbx_opIn h _ _) (.ite (h.congr ?_) (.ite h (.ite (h.congr ?_) (.ite (h.congr ?_) (.ite (h.congr ?_)
    (.ite (h.congr ?_) (.ite (h.congr ?_) (.ite (State.writeDma_opIn h _ _ _) h)))))))))))))))
  case islands =>
    split
    · exact h.congr (by simp)
    · exact h.congr (by simp)
    · exact h
  all_goals simp

theorem execRegisterWrite_opIn (h : s.OpIn x) (who : Requester) (off size : Nat) (val : BitVec 64) (be : Bool) :
    (resState s (execRegisterWrite who off size val s be)).OpIn x := by
  have h4 (o v : Nat) := State.write4_opIn h who o v
  dsimp only [execRegisterWrite, resState]
  split
  · exact h.congr (by simp)
  · split
    · exact h.congr (by simp)
    · split
      · exact (h4 _ _).congr (State.answered_flashOp _ _)
      · split
        · exact (State.write4_opIn (h4 _ _) _ _ _).congr (State.answered_flashOp _ _)
        · exact h.congr (by simp)

end

end Sys2Proof.Machine
end

section
/-!
SUPPORT. What becomes of the flash and of its operation in a step (R55, R67, R68, R69).
-/

namespace Sys2Proof.Machine

/-! ### Operations that begin (R67, R79) -/

/-- An operation's range lies in a slot, with as many bytes of data as it is long (R55, R67). -/
def FlashOp.InSlot (o : FlashOp) : Prop :=
  (∃ k, k < 2 ∧ slotBase k ≤ o.base ∧ o.base + o.len ≤ slotBase k + slotLen) ∧ ∀ bs, o.data = some bs → bs.length = o.len

/-- After an operation that may begin one, the flash operation is what it was, none, or one in a slot. -/
def State.OpHeld (s : State) (x : Option FlashOp) : Prop := s.OpIn x ∨ ∃ o, s.flashOp = some o ∧ o.InSlot

section
variable {s t : State} {x : Option FlashOp}

theorem State.OpIn.held (h : s.OpIn x) : s.OpHeld x := .inl h

theorem State.beginFlash_flashOp (s : State) (h : CmdHdr) (opcode base len : Nat) (data : Option (List Byte)) :
    (s.beginFlash h opcode base len data).flashOp = some { tag := h.tag, irq := h.irq, base := base, len := len, data := data } := by
  simp [State.beginFlash]

theorem rangeOk_inSlot {slot off len : Nat} (h : rangeOk slot off len = true) : slot < 2 ∧ off + len ≤ slotLen := by
  simp only [rangeOk, Bool.and_eq_true, decide_eq_true_eq] at h
  obtain ⟨⟨⟨⟨hslot, -⟩, -⟩, -⟩, hend⟩ := h
  exact ⟨hslot, hend⟩

theorem State.erase_opHeld {slot off len : Nat} (hr : rangeOk slot off len = true) (h : CmdHdr) (opcode : Nat) :
    (s.beginFlash h opcode (slotBase slot + off) len none).OpHeld x := by
  obtain ⟨hslot, hlen⟩ := rangeOk_inSlot hr
  refine .inr ⟨_, State.beginFlash_flashOp .., ⟨slot, hslot, Nat.le_add_right _ _, ?_⟩, nofun⟩
  show slotBase slot + off + len ≤ _
  omega

theorem State.program_opHeld {k base len src : Nat} (hk : k < 2) (hlo : slotBase k ≤ base) (hhi : base + len ≤ slotBase k + slotLen)
    (h : CmdHdr) (opcode : Nat) : (s.program h opcode base len src).OpHeld x := by
  refine .inr ⟨_, State.beginFlash_flashOp .., ⟨k, hk, hlo, hhi⟩, fun bs hbs => ?_⟩
  rw [← Option.some.inj hbs, Tbl.getList_length]

theorem slotOfAddr_some {a len k off : Nat} (h : slotOfAddr a len = some (k, off)) :
    k < 2 ∧ slotBase k ≤ a ∧ a + len ≤ slotBase k + slotLen := by
  unfold slotOfAddr at h
  obtain ⟨j, hj, hk⟩ := List.exists_of_findSome?_eq_some h
  split at hk
  next hin =>
    obtain ⟨rfl, -⟩ := Prod.mk.inj (Option.some.inj hk)
    refine ⟨?_, hin⟩
    simp only [List.mem_cons, List.not_mem_nil, or_false] at hj
    omega
  · exact nomatch hk

/-- A command that is served has its own effect on the flash operation, or none. -/
theorem State.serve_opHeld (i : Instr) (fenic safeOk loadOk : Bool) (h : CmdHdr) {f : State → State} (hf : (f s).OpHeld s.flashOp) :
    (s.serve i fenic safeOk loadOk h f).OpHeld s.flashOp := by
  have hs : s.OpHeld s.flashOp := .inl (.inl rfl)
  have hc (st : Status) : (s.complete h st).OpHeld s.flashOp := .inl (.inl (by simp))
  rcases serve_cases s i fenic safeOk loadOk h f with e | e | e | e | e <;> rw [e]
  · exact hf
  · exact hs
  all_goals exact hc _

theorem execImageWriteProgram_opHeld (h : CmdHdr) (slot off len src : Nat) :
    (resState s (execImageWriteProgram h slot off len src s)).OpHeld s.flashOp := by
  refine State.serve_opHeld _ _ _ _ h ?_
  split
  · exact .inl (.inl rfl)
  · split
    · exact .inl (.inl (by simp))
    next hr =>
      simp only [Bool.or_eq_true, Bool.not_eq_true', not_or, Bool.not_eq_false] at hr
      obtain ⟨hslot, hlen⟩ := rangeOk_inSlot hr.1
      exact State.program_opHeld hslot (Nat.le_add_right _ _) (by omega) h _

theorem execImageWriteErase_opHeld (h : CmdHdr) (slot off len : Nat) :
    (resState s (execImageWriteErase h slot off len s)).OpHeld s.flashOp := by
  refine State.serve_opHeld _ _ _ _ h ?_
  split
  · exact .inl (.inl rfl)
  · split
    · exact .inl (.inl (by simp))
    next hr => exact State.erase_opHeld (by simpa using hr) h _

theorem execFlashWrite_opHeld (h : CmdHdr) (addr len src : Nat) : (resState s (execFlashWrite h addr len src s)).OpHeld s.flashOp := by
  refine State.serve_opHeld _ _ _ _ h ?_
  split
  · exact .inl (.inl rfl)
  · split
    · exact .inl (.inl (by simp))
    next k off hslot =>
      obtain ⟨hk, hlo, hhi⟩ := slotOfAddr_some hslot
      split
      · exact State.program_opHeld hk hlo hhi h _
      · exact .inl (.inl (by simp))

/-! ### Operations that end (R68, R69) -/

theorem execFlashOpDone_opIn (ok : Bool) : (resState s (execFlashOpDone ok s)).OpIn x := by
  dsimp only [execFlashOpDone, resState]
  split
  next h => exact .inr h
  · refine .inr ?_
    split
    · rw [State.completeJob_flashOp]
      split <;> rfl
    · simp [State.flashSpoil]

theorem execRailBelowThreshold_opIn (r : Rail) : (resState s (execRailBelowThreshold r s)).OpIn x := by
  refine .inr ?_
  dsimp only [execRailBelowThreshold, resState]
  split <;> rfl

theorem execResetNAssert_opIn (n : Nat) : (resState s (execResetNAssert n s)).OpIn s.flashOp := by
  dsimp only [execResetNAssert, resState]
  split
  · exact .inr rfl
  · exact .inl (by simp)

theorem execPerstNAssert_opIn (n : Nat) : (resState s (execPerstNAssert n s)).OpIn s.flashOp := by
  dsimp only [execPerstNAssert, resState]
  split
  · exact .inr rfl
  · exact .inl (by simp)

theorem execRestartEnterReset_opIn : (resState s (execRestartEnterReset s)).OpIn s.flashOp := by
  dsimp only [execRestartEnterReset, resState]
  split
  · exact .inr rfl
  · exact .inl rfl

end

/-! ### The commands that move other pieces of the quiet part -/

section
variable (s : State)

@[simp] theorem execPorRelease_flashOp (p : PinLevels) (e : FuseEcc) : (resState s (execPorRelease p e s)).flashOp = s.flashOp := by
  simp [execPorRelease, resState, State.sense]

@[simp] theorem execThermtrip_flashOp (ts : Nat) (tj : Int) : (resState s (execThermtrip ts tj s)).flashOp = s.flashOp := by
  simp [execThermtrip, resState]

@[simp] theorem State.enterTrain_flashOp (slot : Nat) (i : Img) : (s.enterTrain slot i).flashOp = s.flashOp := by
  simp [State.enterTrain]

@[simp] theorem execSlotCheck_flashOp (slot : Nat) (rd : FlashReads) : (resState s (execSlotCheck slot rd s)).flashOp = s.flashOp := by
  dsimp only [execSlotCheck, resState]
  split
  · rfl
  · split <;> simp

@[simp] theorem State.irqAccept_flashOp (n : Nat) (ns : List Nat) : (s.irqAccept n ns).flashOp = s.flashOp := by
  unfold State.irqAccept
  have hfold (l : List Nat) : (l.foldl (fun s n => s.setIrqSrc n (s.irqSrc n).accepted) s).flashOp = s.flashOp :=
    foldl_flashOp (fun _ _ => by rfl) l s
  split
  · rfl
  · dsimp only
    split
    · exact hfold _
    · exact hfold _

@[simp] theorem execIrqDelivery_flashOp (n : Nat) : (resState s (execIrqDelivery n s)).flashOp = s.flashOp := by
  simp [execIrqDelivery, resState]

@[simp] theorem execIrqRedirect_flashOp (n : Nat) : (resState s (execIrqRedirect n s)).flashOp = s.flashOp := by
  dsimp only [execIrqRedirect, resState]
  split
  · rfl
  · exact (State.irqAccept_flashOp _ _ _).trans (foldl_flashOp (fun _ _ => by rfl) _ s)

@[simp] theorem State.stats_flashOp (h : CmdHdr) (off dst len : Nat) : (s.stats h off dst len).flashOp = s.flashOp := by
  simp [State.stats]

@[simp] theorem execStatsRead_flashOp (h : CmdHdr) (off dst len : Nat) :
    (resState s (execStatsRead h off dst len s)).flashOp = s.flashOp := by
  simp [execStatsRead, resState]

@[simp] theorem execGetStats_flashOp (h : CmdHdr) (ch dst len : Nat) :
    (resState s (execGetStats h ch dst len s)).flashOp = s.flashOp := by
  simp [execGetStats, resState]

@[simp] theorem execFuseBurnDone_flashOp (rb : BitVec 512) (n : Nat) : (resState s (execFuseBurnDone rb n s)).flashOp = s.flashOp := by
  dsimp only [execFuseBurnDone, resState]
  split
  · rfl
  · split
    · simp [State.ownerBurned]
    · simp [State.debugBurned, State.closeDebug]

end

/-- What a command leaves of the flash operation: those that are not named have their lemma `exec…_flashOp`. -/
theorem exec_opHeld (c : Instr) (s : State) : (resState s (exec c s)).OpHeld s.flashOp := by
  cases c with
  | imageWriteProgram h slot off len src => exact execImageWriteProgram_opHeld h slot off len src
  | imageWriteErase h slot off len => exact execImageWriteErase_opHeld h slot off len
  | flashWrite h addr len src => exact execFlashWrite_opHeld h addr len src
  | flashOpDone ok => exact (execFlashOpDone_opIn ok).held
  | railBelowThreshold r => exact (execRailBelowThreshold_opIn r).held
  | resetNAssert n => exact (execResetNAssert_opIn n).held
  | perstNAssert n => exact (execPerstNAssert_opIn n).held
  | restartEnterReset => exact execRestartEnterReset_opIn.held
  | granaryAccess accs e cyc => exact (execGranaryAccess_opIn (.inl rfl) accs e cyc).held
  | fabricTransaction reqs => exact (execFabricTransaction_opIn (.inl rfl) reqs).held
  | scratchpadAccess accs e => exact (execScratchpadAccess_opIn (.inl rfl) accs e).held
  | dmaFifoLevelPause ch words => exact (execDmaFifoLevelPause_opIn (.inl rfl) ch words).held
  | dmaComplete ch => exact (execDmaComplete_opIn (.inl rfl) ch).held
  | dmaBeatError ch written ue => exact (execDmaBeatError_opIn (.inl rfl) ch written ue).held
  | dmaAbort ch written => exact (execDmaAbort_opIn (.inl rfl) ch written).held
  | islandTransitionDone isl => exact (execIslandTransitionDone_opIn (.inl rfl) isl).held
  | mbxAbort tag => exact (execMbxAbort_opIn (.inl rfl) tag).held
  | abortDrain stack => exact (execAbortDrain_opIn (.inl rfl) stack).held
  | registerWrite who off size val be => exact (execRegisterWrite_opIn (.inl rfl) who off size val be).held
  | _ => exact .inl (.inl (by dsimp only [exec]; simp))

/-! ### The flash itself (R55, R68, R69) -/

/-- A byte of the flash that belongs to neither slot (R55). -/
def reservedAddr (a : Nat) : Prop := (0x07800000 ≤ a ∧ a < 0x08000000) ∨ 0x0F800000 ≤ a

/-- The flash is in its canonical form, and holds at every reserved address what `f` does. -/
def FlashKept (f f' : Tbl Byte) : Prop := Tbl.wf 0xFF f' = true ∧ ∀ a, reservedAddr a → f'.get 0xFF a = f.get 0xFF a

section
variable {s t : State}

/-- The range of an operation in a slot holds no reserved address. -/
theorem FlashOp.InSlot.reserved {o : FlashOp} (h : o.InSlot) {a : Nat} (ha : reservedAddr a) : a < o.base ∨ o.base + o.len ≤ a := by
  obtain ⟨⟨k, hk, hlo, hhi⟩, -⟩ := h
  have hkk : k = 0 ∨ k = 1 := by omega
  unfold reservedAddr at ha
  rcases hkk with rfl | rfl <;> simp only [slotBase, slotLen, if_true, one_ne_zero, if_false] at hlo hhi <;> omega

theorem FlashKept.refl (h : s.flashHeld) : FlashKept s.flash s.flash := ⟨h.1, fun _ _ => rfl⟩

/-- Bytes written over an operation's range. -/
theorem FlashKept.setList (h : s.flashHeld) {o : FlashOp} (ho : s.flashOp = some o) {bs : List Byte} (hlen : bs.length = o.len) :
    FlashKept s.flash (s.flash.setList 0xFF o.base bs) :=
  ⟨Tbl.setList_wf bs h.1 _, fun a ha => Tbl.get_setList_outside bs h.1 _ (by rw [hlen]; exact FlashOp.InSlot.reserved (h.2 o ho) ha)⟩

/-- An erase of an operation's range. -/
theorem FlashKept.drop (h : s.flashHeld) {o : FlashOp} (ho : s.flashOp = some o) :
    FlashKept s.flash (s.flash.drop fun k => decide (o.base ≤ k ∧ k < o.base + o.len)) := by
  refine ⟨Tbl.drop_wf h.1 _, fun a ha => ?_⟩
  have hout : ¬ (o.base ≤ a ∧ a < o.base + o.len) := by
    rcases FlashOp.InSlot.reserved (h.2 o ho) ha with hlt | hle <;> omega
  rw [Tbl.get_drop h.1]
  simp [hout]

theorem State.cutBurn_flash (s : State) : s.cutBurn.flash = s.flash := congrArg Quiet.flash s.cutBurn_quiet

theorem State.cutBurn_flashOp (s : State) : s.cutBurn.flashOp = s.flashOp := by
  unfold State.cutBurn
  split <;> rfl

theorem State.flashHeld_of_eq (h : s.flashHeld) (hf : t.flash = s.flash) (ho : t.flashOp = s.flashOp) : t.flashHeld := by
  rw [State.flashHeld, hf, ho]
  exact h

theorem State.cutFlash_kept (h : s.flashHeld) : FlashKept s.flash s.cutFlash.flash := by
  unfold State.cutFlash
  split
  · exact .refl h
  next o ho => exact .setList h ho (by simp)

/-- A DEV reset spoils no more than the range of a flash operation under way (R69). -/
theorem State.devReset_kept (h : s.flashHeld) (cause : Nat) : FlashKept s.flash (s.devReset cause).flash := by
  have hk := State.cutFlash_kept (State.flashHeld_of_eq h s.cutBurn_flash s.cutBurn_flashOp)
  rw [State.cutBurn_flash] at hk
  exact hk

theorem execRailBelowThreshold_kept (h : s.flashHeld) {r : Rail} (hx : execRailBelowThreshold r s = .next t) :
    FlashKept s.flash t.flash := by
  injection hx with hx
  subst hx
  by_cases hr : r = .vddAon
  · have hcut : s.cutLedger.flash = s.flash := congrArg Quiet.flash s.cutLedger_quiet
    have hk := State.devReset_kept (State.flashHeld_of_eq h hcut s.cutLedger_flashOp) 0
    rw [hcut] at hk
    simp only [hr, if_true]
    exact hk
  · simp only [hr, if_false]
    exact State.devReset_kept h 0

theorem State.passes_flash (s : State) (n : Nat) : (s.passes n).2.flash = s.flash := congrArg Quiet.flash (s.passes_quiet n)

theorem State.passes_devReset_kept (h : s.flashHeld) (n cause : Nat) : FlashKept s.flash ((s.passes n).2.devReset cause).flash := by
  have hk := State.devReset_kept (State.flashHeld_of_eq h (s.passes_flash n) (s.passes_flashOp n)) cause
  rw [State.passes_flash] at hk
  exact hk

theorem execResetNAssert_kept (h : s.flashHeld) {n : Nat} (hx : execResetNAssert n s = .next t) : FlashKept s.flash t.flash := by
  injection hx with hx
  subst hx
  dsimp only
  split
  · exact State.passes_devReset_kept h n 1
  · rw [State.passes_flash]
    exact .refl h

theorem execPerstNAssert_kept (h : s.flashHeld) {n : Nat} (hx : execPerstNAssert n s = .next t) : FlashKept s.flash t.flash := by
  injection hx with hx
  subst hx
  dsimp only
  split
  · exact State.passes_devReset_kept h n 2
  · rw [State.passes_flash]
    exact .refl h

theorem execRestartEnterReset_kept (h : s.flashHeld) (hx : execRestartEnterReset s = .next t) : FlashKept s.flash t.flash := by
  injection hx with hx
  subst hx
  split
  · exact State.devReset_kept h 3
  · exact .refl h

theorem State.completeJob_flash (s : State) (h : CmdHdr) (st : Status) : (s.completeJob h st).flash = s.flash := by
  rw [State.completeJob_frame]

theorem execFlashOpDone_kept (h : s.flashHeld) {ok : Bool} (hx : execFlashOpDone ok s = .next t) : FlashKept s.flash t.flash := by
  injection hx with hx
  subst hx
  split
  · exact .refl h
  next o ho =>
    split
    · rw [State.completeJob_flash]
      split
      next bs hbs => exact .setList h ho ((h.2 o ho).2 bs hbs)
      · exact .drop h ho
    · have hraise (u : State) : (u.raise srcXspi).flash = u.flash := congrArg Quiet.flash (State.raise_quiet _ _)
      rw [State.completeJob_flash, hraise]
      exact .setList h ho (by simp)

/-- What a command leaves of the flash: it moves only where an operation of it ends or is cut short. -/
theorem exec_flashKept (c : Instr) (h : s.flashHeld) (hx : exec c s = .next t) : FlashKept s.flash t.flash := by
  have hmoved : t.flash = (s.quiet.moved t.quiet c).flash := congrArg Quiet.flash (exec_moves c hx)
  have hsame (e : (s.quiet.moved t.quiet c).flash = s.flash) : FlashKept s.flash t.flash := by
    rw [hmoved, e]
    exact .refl h
  cases c with
  | railBelowThreshold => exact execRailBelowThreshold_kept h hx
  | resetNAssert => exact execResetNAssert_kept h hx
  | perstNAssert => exact execPerstNAssert_kept h hx
  | restartEnterReset => exact execRestartEnterReset_kept h hx
  | flashOpDone => exact execFlashOpDone_kept h hx
  | _ => exact hsame (Quiet.moved_flash _ _ nofun nofun nofun nofun nofun)

/-! ### The step -/

/-- The invariant follows from what became of the flash and of its operation. -/
theorem State.flashHeld_of_kept (h : s.flashHeld) (hf : FlashKept s.flash t.flash) (ho : t.OpHeld s.flashOp) : t.flashHeld := by
  refine ⟨hf.1, fun o hto => ?_⟩
  rcases ho with (hsame | hnone) | ⟨o', ho', hslot⟩
  · exact h.2 o (by rw [← hsame, hto])
  · rw [hnone] at hto
    exact nomatch hto
  · obtain rfl : o' = o := Option.some.inj (ho'.symm.trans hto)
    exact hslot

theorem exec_flashHeld (c : Instr) (h : s.flashHeld) (hx : exec c s = .next t) : t.flashHeld ∧ FlashKept s.flash t.flash := by
  have hkept := exec_flashKept c h hx
  have hop := exec_opHeld c s
  rw [hx] at hop
  exact ⟨State.flashHeld_of_kept h hkept hop, hkept⟩

end

/-- Settles O58: a step is a command's or a tick, and a tick leaves the flash and its operation alone. -/
theorem reservedFlashKept : Obligations.ReservedFlashKept := by
  unfold Obligations.ReservedFlashKept
  intro s t hheld hstep
  unfold step at hstep
  split at hstep
  · injection hstep with hstep
    have hflash : s.tick.flash = s.flash := congrArg Quiet.flash s.tick_quiet
    subst hstep
    exact ⟨State.flashHeld_of_eq hheld hflash s.tick_flashOp, fun a _ => by rw [hflash]⟩
  next c rest _ =>
    obtain ⟨hheld', _, hkept⟩ := exec_flashHeld (s := { s with pending := rest }) c hheld hstep
    exact ⟨hheld', hkept⟩

end Sys2Proof.Machine
end

section
/-!
SUPPORT. From TRAIN to RUN (R51, R113, R134, R354): what the tables' loading and a fault meanwhile leave of the device's state.
-/

namespace Sys2Proof.Machine

/-! ### Faults in TRAIN (R18, R444) -/

section
variable (s : State)

/-- The entry into SAFE changes nothing, or takes the device there. -/
theorem State.enterSafe_cases : s.enterSafe = s ∨ s.enterSafe.calm = s.safeState.calm := by
  by_cases hr : s.glb.restartPend = true ∧ s.glb.restartAt = s.time.aon
  · exact .inl (State.enterSafe_restarted s hr.1 hr.2)
  by_cases hst : s.glb.st = .train ∨ s.glb.st = .run
  · exact .inr (State.enterSafe_calm s hr hst)
  · exact .inl (by simp [State.enterSafe, hr, hst])

/-- A notification leaves the device as it is beyond the collector and an interrupt, or takes it to SAFE. -/
theorem State.fltNotify_cases (n l : Nat) : (∃ f i, s.fltNotify n l = { s with flt := f, irq := i })
    ∨ ∃ f, (s.fltNotify n l).calm = ({ s.safeState with flt := f } : State).calm := by
  have hirq := State.irqEvent_frame (s.fltMark n) (irqFlt n)
  have hplain : ∃ f i, (s.fltMark n).irqEvent (irqFlt n) = { s with flt := f, irq := i } := ⟨_, _, hirq⟩
  rw [State.fltNotify_eq]
  split
  · rcases State.enterSafe_cases ((s.fltMark n).irqEvent (irqFlt n)) with h | h
    · rw [h]
      exact .inl hplain
    · refine .inr ⟨(s.fltMark n).flt, h.trans ?_⟩
      rw [hirq]
      rfl
  · exact .inl hplain

/-- An event of a source that moves no unit and asks for no refresh does the same. -/
theorem State.raise_plain_cases {n : Nat} (hk : fltKind n = none) (hg : n < 0x040 ∨ 0x060 ≤ n) :
    (∃ f i, s.raise n = { s with flt := f, irq := i }) ∨ ∃ f, (s.raise n).calm = ({ s.safeState with flt := f } : State).calm := by
  cases hc : s.canRise n with
  | false => exact .inl ⟨s.flt, s.irq, State.raise_held s hc⟩
  | true =>
    rw [State.raise_plain s hc hk hg]
    obtain ⟨f, -, h | ⟨l, h⟩⟩ := State.react_cases s n none false _
    · exact .inl ⟨f, s.irq, h⟩
    · rw [h]
      exact State.fltNotify_cases _ n l

end

/-! ### Step 14: training (R354) -/

/-- The stack serves, or a fault has taken the device to SAFE. -/
def State.Serves (s : State) (k : Nat) : Prop := (s.stack k).st = .service ∨ s.glb.st = .safe

section
variable {s : State} {j : Nat}

theorem State.Serves.raise (h : s.Serves j) {n : Nat} (hk : fltKind n = none) (hg : n < 0x040 ∨ 0x060 ≤ n) : (s.raise n).Serves j := by
  rcases State.raise_plain_cases s hk hg with ⟨f, i, e⟩ | ⟨f, e⟩
  · rw [e]
    exact h
  · exact .inr (congrArg (fun t => t.glb.st) e :)

/-- A stack's record that differs from the one of reset reads back, and the other stack's stays. -/
theorem State.setStack_stack_of_ne (s : State) (k : Nat) {v : Stack} (hv : v ≠ {}) (j : Nat) :
    (s.setStack k v).stack j = if j = k then v else s.stack j := by
  split
  next h => rw [h]; exact Tbl.get_set_ne ({} : Stack) _ _ _ hv
  next h => exact Tbl.get_set_other ({} : Stack) _ _ hv h

theorem State.stackServes_stack (s : State) (k j : Nat) :
    ((s.stackServes k).stack j).st = if j = k then .service else (s.stack j).st := by
  have hne : { s.stack k with st := .service, rate := rateOf (s.islOf (2 + k)).effMhz } ≠ ({} : Stack) := fun e =>
    StackSt.noConfusion (congrArg Stack.st e)
  rw [State.stackServes, State.setStack_stack_of_ne _ _ hne]
  split <;> rfl

/-- The end of a training can record that the spares are gone, and raise events that move nothing. -/
theorem State.Serves.afterTraining (h : s.Serves j) {k : Nat} (hk : k < 2) (retired : Nat) : (s.afterTraining k retired).Serves j := by
  have hset : (s.setStack k { s.stack k with exhausted := true }).Serves j := by
    refine h.imp_left fun hst => ?_
    have hne : { s.stack k with exhausted := true } ≠ ({} : Stack) := fun e => Bool.noConfusion (congrArg Stack.exhausted e)
    rw [State.setStack_stack_of_ne _ _ hne]
    split
    next hj => rw [← hj]; exact hst
    · exact hst
  have hkind : fltKind (srcHbmTrain k) = none ∧ fltKind (srcHbmSpares k) = none := by
    have hkk : k = 0 ∨ k = 1 := by omega
    rcases hkk with rfl | rfl <;> decide
  unfold State.afterTraining
  dsimp only
  have hite {c : Prop} [Decidable c] {a b : State} (ha : a.Serves j) (hb : b.Serves j) : (if c then a else b).Serves j := by
    split <;> assumption
  have h1 := hite (c := (s.stackSpares k).isEmpty = true) hset h
  have h2 {t : State} (ht : t.Serves j) : (if t.worksOf k < 30 then t.raise (srcHbmTrain k) else t).Serves j :=
    hite (ht.raise hkind.1 (.inr (by simp only [srcHbmTrain]; omega))) ht
  exact hite ((h2 h1).raise hkind.2 (.inr (by simp only [srcHbmSpares]; omega))) (h2 h1)

end

/-! ### Step 15: the sections -/

/-- Sections are copied by writes of the granary alone. -/
theorem State.copySections_keeps {β : Type} (g : State → β) (hg : ∀ (t : State) a bs, g (t.granWrite a bs) = g t) (s : State) :
    g s.copySections = g s := by
  unfold State.copySections
  split
  · rfl
  · exact foldl_keeps g (fun _ _ => hg _ _ _) _ s

/-! ### Step 16: the tables (R113, R134) -/

/-- Of the image, the fabric, time and the device's state, `t` has what `s` has, but that a fault may have taken it to SAFE. -/
def State.BootsFrom (s t : State) : Prop :=
  t.img = s.img ∧ t.fab = s.fab ∧ t.time = s.time ∧ (t.glb.st = s.glb.st ∨ t.glb.st = .safe)

section
variable {s t u : State}

theorem State.BootsFrom.refl (s : State) : s.BootsFrom s := ⟨rfl, rfl, rfl, .inl rfl⟩

theorem State.BootsFrom.trans (h : s.BootsFrom t) (h' : t.BootsFrom u) : s.BootsFrom u := by
  obtain ⟨himg, hfab, htime, hst⟩ := h
  obtain ⟨himg', hfab', htime', hst'⟩ := h'
  refine ⟨himg'.trans himg, hfab'.trans hfab, htime'.trans htime, ?_⟩
  rcases hst' with e | e
  · rw [e]
    exact hst
  · exact .inr e

theorem State.bootsFrom_foldl {α : Type} {f : State → α → State} (h : ∀ t a, State.BootsFrom t (f t a)) (l : List α) (s : State) :
    s.BootsFrom (l.foldl f s) := by
  induction l generalizing s with
  | nil => exact .refl s
  | cons a l ih => exact (h s a).trans (ih _)

theorem State.bootsFrom_raise (s : State) {n : Nat} (hk : fltKind n = none) (hg : n < 0x040 ∨ 0x060 ≤ n) : s.BootsFrom (s.raise n) := by
  rcases State.raise_plain_cases s hk hg with ⟨f, i, e⟩ | ⟨f, e⟩
  · rw [e]
    exact .refl s
  · exact ⟨(congrArg State.img e :), (congrArg State.fab e :), (congrArg State.time e :), .inr (congrArg (fun t => t.glb.st) e :)⟩

/-- An insertion into an exact-match table concerns that table and the draws (R295). -/
theorem State.emInsert_bootsFrom {n : Nat} {key : List Byte} {b : EmBody} (h : s.emInsert n key b = some t) : s.BootsFrom t := by
  unfold State.emInsert at h
  split at h
  · exact nomatch h
  · dsimp only at h
    split at h
    · exact nomatch h
    · split at h
      · exact nomatch h
      · obtain ⟨m, -, rfl⟩ := Option.map_eq_some_iff.mp h
        split
        · exact .refl s
        · exact .refl s

theorem State.installStatic_bootsFrom (s : State) (n : Nat) : s.BootsFrom (s.installStatic n) := by
  unfold State.installStatic
  split
  · exact .refl s
  · split
    · exact .refl s
    · refine State.bootsFrom_foldl (fun t i => ?_) _ s
      dsimp only
      split
      · exact .refl t
      · cases h : t.emInsert n _ _ with
        | none => exact .refl t
        | some v => exact State.emInsert_bootsFrom h

theorem State.bindNamed_bootsFrom (s : State) : s.BootsFrom s.bindNamed := by
  unfold State.bindNamed
  refine (State.bootsFrom_foldl (fun t l => ?_) _ s).trans (State.bootsFrom_foldl (fun t l => ?_) _ _)
  all_goals
    split
    · split
      · exact .refl t
      · exact .refl t
    · exact .refl t

theorem State.bindRest_bootsFrom (s : State) : s.BootsFrom s.bindRest := by
  have hmove (t : State) : t.BootsFrom (t.raise srcMoveFail) := State.bootsFrom_raise t (by decide) (by decide)
  unfold State.bindRest
  refine (State.bootsFrom_foldl (fun t l => ?_) _ s).trans (State.bootsFrom_foldl (fun t l => ?_) _ _)
  all_goals
    split
    · exact .refl t
    · split
      · exact .refl t
      · exact (State.BootsFrom.refl t).trans (hmove _)

/-- The windows are written, unless they are locked already (R103). -/
def State.windowsWritten (s : State) : State := if s.fab.lock then s else Machine.masters.foldl State.writeWindows s

/-- What step 16 sets beside the windows, ahead of the STATIC entries and the lanes (R95, R103). -/
def State.tablesSet (s : State) : State :=
  { s with
    glb := { s.glb with tables := true }
    fab := { s.fab with lock := true }
    ing := { s.ing with apt := aptWindows s.img.classes }
    rep := { s.rep with active := 0, epoch := 0, setOf := [] } }

theorem State.loadTables_eq (s : State) :
    s.loadTables = ((List.range 8).foldl State.installStatic s.windowsWritten.keyBounds.tablesSet).bindNamed.bindRest := rfl

theorem State.writeWindows_frame (s : State) (m : Nat) : s.writeWindows m = { s with fab := (s.writeWindows m).fab } := by
  unfold State.writeWindows
  dsimp only

theorem State.windowsWritten_keeps {β : Type} (g : State → β) (hg : ∀ t m, g (State.writeWindows t m) = g t) (s : State) :
    g s.windowsWritten = g s := by
  unfold State.windowsWritten
  split
  · rfl
  · exact foldl_keeps g hg _ s

theorem State.keyBounds_frame (s : State) : s.keyBounds = { s with sec := s.keyBounds.sec } := by
  unfold State.keyBounds
  split <;> rfl

/-- The windows are locked; the rest of the tables moves no more than a fault does. -/
theorem State.loadTables_leaves (s : State) : s.loadTables.fab.lock = true ∧ s.loadTables.img = s.img ∧ s.loadTables.time = s.time
    ∧ (s.loadTables.glb.st = s.glb.st ∨ s.loadTables.glb.st = .safe) := by
  have himg := State.windowsWritten_keeps State.img (fun _ _ => by rw [State.writeWindows_frame]) s
  have htime := State.windowsWritten_keeps State.time (fun _ _ => by rw [State.writeWindows_frame]) s
  have hglb := State.windowsWritten_keeps State.glb (fun _ _ => by rw [State.writeWindows_frame]) s
  have hkey := s.windowsWritten.keyBounds_frame
  rw [State.loadTables_eq]
  generalize s.windowsWritten.keyBounds = w at hkey
  obtain ⟨himg', hfab', htime', hst'⟩ := ((State.bootsFrom_foldl State.installStatic_bootsFrom (List.range 8) w.tablesSet).trans
    (State.bindNamed_bootsFrom _)).trans (State.bindRest_bootsFrom _)
  have himgw : w.img = s.img := by rw [hkey]; exact himg
  have htimew : w.time = s.time := by rw [hkey]; exact htime
  have hstw : w.glb.st = s.glb.st := by rw [hkey]; exact congrArg Glb.st hglb
  exact ⟨by rw [hfab']; rfl, himg'.trans himgw, htime'.trans htimew, by rw [← hstw]; exact hst'⟩

/-- RUN begins, unless a fault has taken the device out of TRAIN (R18, R321). -/
theorem State.enterRun_leaves (s : State) : s.enterRun.fab = s.fab ∧ s.enterRun.img = s.img
    ∧ (s.glb.st = .train → s.enterRun.glb.st = .run ∧ s.enterRun.time.runAt = s.time.aon) ∧ (s.glb.st ≠ .train → s.enterRun = s) := by
  unfold State.enterRun
  split
  next h => exact ⟨rfl, rfl, fun h' => absurd h' h, fun _ => rfl⟩
  next h =>
    have hc (t : State) : t.gatesFollow.fetch.holdJobs.calm = t.calm := (State.fetch_calm _ :)
    have hcalm := hc { s with glb := { s.glb with st := .run }, time := { s.time with runAt := s.time.aon } }
    exact ⟨(congrArg State.fab hcalm :), (congrArg State.img hcalm :),
      fun _ => ⟨(congrArg (fun t => t.glb.st) hcalm :), (congrArg (fun t => t.time.runAt) hcalm :)⟩, fun h' => absurd h' h⟩

end

/-- Settles O9: training ends with both stacks in service, copying writes the granary alone, and the tables' loading moves the device's
state only where an event of it takes the device to SAFE. -/
theorem trainToRun : Obligations.TrainToRun := by
  unfold Obligations.TrainToRun
  intro s working htrain
  refine ⟨fun h0 h1 => ?train, fun h0 h1 hcop => ?copy, fun hcop => ?run⟩
  case train =>
    simp only [exec, execHbmTrainingComplete, htrain, h0, h1, ne_eq, not_true_eq_false, or_self, if_false]
    generalize (((s.trainAll 0 working).placeAll 0).trainAll 1 working).placeAll 1 = t
    have hserves (k : Nat) (hk : k < 2) : ((t.stackServes 0).stackServes 1).Serves k := by
      refine .inl ?_
      rw [State.stackServes_stack, State.stackServes_stack]
      have hkk : k = 0 ∨ k = 1 := by omega
      rcases hkk with rfl | rfl <;> rfl
    exact ⟨_, rfl, ((hserves 0 (by decide)).afterTraining (by decide) _).afterTraining (by decide) _,
      ((hserves 1 (by decide)).afterTraining (by decide) _).afterTraining (by decide) _⟩
  case copy =>
    have hcfg := State.copySections_keeps State.cfg (fun _ _ _ => rfl) s
    refine ⟨by simp [exec, execImageSectionsCopied, htrain, h0, h1, hcop, hcfg], ?_, ?_, ?_⟩
    · exact State.copySections_keeps State.glb (fun _ _ _ => rfl) s
    · exact State.copySections_keeps State.img (fun _ _ _ => rfl) s
    · exact State.copySections_keeps State.flt (fun _ _ _ => rfl) s
  case run =>
    obtain ⟨hlock, himg, htime, hst⟩ := s.loadTables_leaves
    obtain ⟨hfab', himg', hrun, hsame⟩ := s.loadTables.enterRun_leaves
    refine ⟨s.loadTables.enterRun, by simp [exec, execTablesLoaded, htrain, hcop], ?_, by rw [hfab', hlock], ?_, himg'.trans himg⟩
    · rcases hst with e | e
      · exact .inl (hrun (e.trans htrain)).1
      · exact .inr (by rw [hsame (by rw [e]; decide), e])
    · intro hr
      rcases hst with e | e
      · rw [(hrun (e.trans htrain)).2, htime]
      · rw [hsame (by rw [e]; decide), e] at hr
        exact absurd hr (by decide)

end Sys2Proof.Machine
end

section
/-!
SUPPORT. What a mailbox command whose turn it is does: its own work and nothing else (R79, R80).
-/

namespace Sys2Proof.Machine

/-- A command that is served leaves what its work leaves. -/
theorem exec_of_serving {s t : State} {i : Instr} {f a b : Bool} {h : CmdHdr} {g : State → State} (hs : s.serving i f h = true)
    (he : exec i s = .next (s.serve (bareCommand i) f a b h g)) (hg : g s = t) : exec i s = .next t :=
  he.trans (congrArg _ ((serve_run s i f a b h g hs).trans hg))

/-- Settles O47: both are served with their completion. -/
theorem reservedOpcodes : Obligations.ReservedOpcodes :=
  fun _ _ _ => ⟨fun hs => exec_of_serving hs rfl rfl, fun hs => exec_of_serving hs rfl rfl⟩

end Sys2Proof.Machine
end

section
/-!
SUPPORT. The mailbox's registers (R76, R412, R419, R420, R431 to R433).
-/

namespace Sys2Proof.Machine

section
variable {s : State}

/-! ### Doorbells -/

/-- Nothing is fetched from an empty submission ring (R412). -/
theorem State.fetch_empty (h : s.mbx.sqHead = s.mbx.sqTail) : s.fetch = s := by
  have hidle : s.fetches = false := by simp [State.fetches, h]
  have hupTo (n : Nat) : State.fetchUpTo n s = s := by
    cases n with
    | zero => rfl
    | succ n => simp [State.fetchUpTo, hidle]
  exact hupTo 4096

/-- No completion waits, and none is written. -/
theorem State.putWaiting_nil (h : s.mbx.waiting = []) : State.putWaiting [] s = s := by
  show { s with mbx := { s.mbx with waiting := [] } } = s
  rw [← h]

theorem State.dbReached_iff : s.dbReached = true ↔ s.hostBar 2 = true ∧ s.stopped 8 = false ∧ s.isFrozen 0xC4 = false := by
  simp [State.dbReached, and_assoc]

theorem exec_mbxSqDb_reached (n : Nat) (h : s.dbReached = true) :
    exec (.mbxSqDb n) s = .next { s with mbx := { s.mbx with locked := true, sqTail := n % 4096 } }.fetch := by
  simp [exec, execMbxSqDb, h, State.sqDoorbell]

theorem exec_mbxCqDb_reached (n : Nat) (h : s.dbReached = true) : exec (.mbxCqDb n) s
    = .next (State.putWaiting s.mbx.waiting { s with mbx := { s.mbx with locked := true, cqHead := n % 4096 } }).fetch := by
  simp [exec, execMbxCqDb, h, State.cqDoorbell]

/-! ### The layout and the abort register -/

theorem State.mbxReached_iff : s.mbxReached = true ↔ s.hostBar 0 = true ∧ s.stopped 8 = false := by
  simp [State.mbxReached]

theorem exec_mbxCtrl_reached (w : Word) (h : s.mbxReached = true) : exec (.mbxCtrl w) s = .next (s.setLayout (w.getLsbD 0)) := by
  simp [exec, execMbxCtrl, h]

theorem exec_mbxAbort_reached (tag : Nat) (h : s.mbxReached = true) : exec (.mbxAbort tag) s = .next (s.requestAbort (.command tag)) := by
  simp [exec, execMbxAbort, h]

/-- An abort of a command while none is being resolved and the steward runs is resolved at once (R419). -/
theorem State.requestAbort_now (a : AbortOf) (h8 : s.stopped 8 = false) (h1 : s.stopped 1 = false) (hp : s.mbx.abortPend = none) :
    s.requestAbort a = s.resolveAbort a := by
  simp [State.requestAbort, h8, h1, hp]

/-- An abort whose TAG no job has: a completion that waits is done already, and else nothing is found (R419). -/
theorem State.resolveAbort_noJob {tag : Nat} (h : ∀ j ∈ s.mbx.jobs, j.tag ≠ tag) : s.resolveAbort (.command tag)
    = if s.mbx.waiting.any fun c => c.tag == tag then s.abortDone 2 else s.abortDone 3 := by
  have hnone : s.mbx.jobs.find? (fun j => j.tag == tag) = none := List.find?_eq_none.mpr fun j hj => by simpa using h j hj
  simp only [State.resolveAbort, hnone]

/-- An abort of the oldest job with the TAG (R420). -/
theorem State.resolveAbort_job {tag : Nat} {j : Job} (h : s.mbx.jobs.find? (fun j => j.tag == tag) = some j) :
    s.resolveAbort (.command tag)
      = if s.abortable j.opcode && !s.swapCommitted j then ((s.dropWork j).denyJob j true).abortDone 1 else s.abortDone 2 := by
  simp only [State.resolveAbort, h]

end

/-- Settles O46: each register by whether the host reaches it, an abort by what has its TAG. -/
theorem mailboxRegisters : Obligations.MailboxRegisters := by
  unfold Obligations.MailboxRegisters
  intro s n tag w h8
  refine ⟨fun hbar hfr => ?doorbells, fun hun => ?lost, fun hbar => ?registers, fun hbar => ?unreached⟩
  case doorbells =>
    have hdb := State.dbReached_iff.mpr ⟨hbar, h8, hfr⟩
    refine ⟨exec_mbxSqDb_reached n hdb, exec_mbxCqDb_reached n hdb, fun hsq => ?_, fun hsq hw => ?_⟩
    · rw [exec_mbxSqDb_reached n hdb, State.fetch_empty hsq]
    · have hput := State.putWaiting_nil (s := { s with mbx := { s.mbx with locked := true, cqHead := n % 4096 } }) hw
      rw [exec_mbxCqDb_reached n hdb, hw]
      exact congrArg _ ((congrArg State.fetch hput).trans (State.fetch_empty hsq))
  case lost =>
    have hdb : s.dbReached = false := by
      rcases hun with h | h <;> simp [State.dbReached, h]
    exact ⟨by simp [exec, execMbxSqDb, hdb], by simp [exec, execMbxCqDb, hdb]⟩
  case registers =>
    have hmb := State.mbxReached_iff.mpr ⟨hbar, h8⟩
    refine ⟨fun hl => ?_, fun hl => ?_, fun hp => ?_, fun hp h1 => ?_, fun hp h1 => ?_⟩
    · simp [exec_mbxCtrl_reached w hmb, State.setLayout, hl]
    · simp [exec_mbxCtrl_reached w hmb, State.setLayout, hl]
    · simp [exec_mbxAbort_reached tag hmb, State.requestAbort, h8, hp]
    · simp [exec_mbxAbort_reached tag hmb, State.requestAbort, h8, hp, h1]
    · rw [exec_mbxAbort_reached tag hmb, State.requestAbort_now _ h8 h1 hp]
      refine ⟨fun hj hc => ?_, fun hj hc => ?_, fun j hj => ⟨fun ha hs => ?_, fun ha => ?_⟩⟩
      · rw [State.resolveAbort_noJob hj, if_neg (by simpa using hc)]
      · rw [State.resolveAbort_noJob hj, if_pos (by simpa using hc)]
      · rw [State.resolveAbort_job hj, if_pos (by simp [ha, hs])]
      · rw [State.resolveAbort_job hj, if_neg (by rcases ha with h | h <;> simp [h])]
  case unreached =>
    have hmb : s.mbxReached = false := by simp [State.mbxReached, hbar]
    exact ⟨by simp [exec, execMbxCtrl, hmb], by simp [exec, execMbxAbort, hmb]⟩

end Sys2Proof.Machine
end

section
/-!
SUPPORT. Sessions and decode contexts (R77, R125, R223, R253, R276, R418).
-/

namespace Sys2Proof.Machine

/-! ### Opening (R125, R223, R418) -/

section
variable {s : State}

theorem State.complete_rc (s : State) (h : CmdHdr) (st : Status) (r : Nat) : (s.complete h st r).rc = s.rc := by
  rw [State.complete_frame]

theorem State.complete_sess (s : State) (h : CmdHdr) (st : Status) (r : Nat) : (s.complete h st r).sess = s.sess := by
  rw [State.complete_frame]

/-- A fault on the way of the packets leaves the rate control as it is. -/
theorem State.raise_plain_rc (s : State) {n : Nat} (hk : fltKind n = none) (hg : n < 0x040 ∨ 0x060 ≤ n) : (s.raise n).rc = s.rc := by
  rcases State.raise_plain_cases s hk hg with ⟨f, i, e⟩ | ⟨f, e⟩
  · rw [e]
  · exact (congrArg State.rc e :)

/-- The frame of a channel without a binding opens or is skipped; its rate control has no part in it (R166). -/
theorem State.openFrame_rc (c : Class) {ch : Nat} (fr : Nat) (h : (s.sessOf ch).bind = none) : (s.openFrame c ch fr).rc = s.rc := by
  unfold State.openFrame
  dsimp only
  split
  · rw [h]
    rfl
  · exact State.raise_plain_rc _ (by decide) (by decide)

theorem State.beginSession_rc {ch : Nat} (at_ : Bool) (h : (s.sessOf ch).bind = none) : (s.beginSession ch at_).rc = s.rc := by
  have hbind (n : Nat) : ((s.setSess ch { s.sessOf ch with n0 := n, n0set := true }).sessOf ch).bind = none := by
    have hne : { s.sessOf ch with n0 := n, n0set := true } ≠ ({} : Sess) := fun e => Bool.noConfusion (congrArg Sess.n0set e)
    exact (congrArg Sess.bind (Tbl.get_set_ne ({} : Sess) s.sess ch _ hne)).trans h
  unfold State.beginSession
  split
  next c n _ _ =>
    exact iteInduction (motive := fun t : State => t.rc = s.rc) (fun _ => State.openFrame_rc c n (hbind n)) fun _ => rfl
  · rfl

/-- The session that opens in a channel, with the offset and the sequence number drawn for it (R207, R418). -/
def newSession (s : State) (fenic : Bool) (a : OpenArgs) (tsOff seq : Nat) : Sess :=
  { isOpen := true, id := (s.sessOf a.channel).id + 1, w := a.width, h := a.height, pt := a.pt, ssrc := a.ssrc, seed := a.seed
    fenic := fenic, srcAddr := a.srcAddr, srcPort := a.srcPort, ipv6 := a.ipv6, tsOff := tsOff, seq := seq }

/-- The state in which a session has opened and its first frame is not yet considered. -/
def State.sessionSet (s : State) (fenic : Bool) (a : OpenArgs) (host : Nat) : State :=
  let (seq, s) := s.draw 16
  let (ts, s) := s.draw 32
  let s := (s.setSess a.channel (newSession s fenic a ts seq)).setRc a.channel { host := host }
  (s.setPart a.channel 0 { passed := s.pairAwaited a.channel 0 }).setPart a.channel 1 { passed := s.pairAwaited a.channel 1 }

theorem State.startSession_eq (s : State) (fenic : Bool) (a : OpenArgs) (host : Nat) : s.startSession fenic a host
    = if s.rota.started then (s.sessionSet fenic a host).beginSession a.channel false else s.sessionSet fenic a host := rfl

theorem State.sessionSet_rc (s : State) (fenic : Bool) (a : OpenArgs) (host : Nat) :
    (s.sessionSet fenic a host).rc = s.rc.set {} a.channel { host := host } := rfl

theorem State.sessionSet_sess (s : State) (fenic : Bool) (a : OpenArgs) (host : Nat) :
    ∃ ts seq, (s.sessionSet fenic a host).sess = s.sess.set {} a.channel (newSession s fenic a ts seq) := ⟨_, _, rfl⟩

theorem State.startSession_rc (s : State) (fenic : Bool) (a : OpenArgs) (host : Nat) :
    (s.startSession fenic a host).rc = s.rc.set {} a.channel { host := host } := by
  obtain ⟨ts, seq, hsess⟩ := s.sessionSet_sess fenic a host
  have hne : newSession s fenic a ts seq ≠ ({} : Sess) := fun e => Bool.noConfusion (congrArg Sess.isOpen e)
  have hbind : ((s.sessionSet fenic a host).sessOf a.channel).bind = none := by
    rw [State.sessOf, hsess, Tbl.get_set_ne _ _ _ _ hne]
    rfl
  rw [State.startSession_eq]
  split
  · rw [State.beginSession_rc false hbind, State.sessionSet_rc]
  · exact State.sessionSet_rc s fenic a host

/-- Before the rota starts, an opened session is its arguments and what is drawn. -/
theorem State.startSession_sess (fenic : Bool) (a : OpenArgs) (host : Nat) (h : s.rota.started = false) :
    ∃ ts seq, (s.startSession fenic a host).sess = s.sess.set {} a.channel (newSession s fenic a ts seq) := by
  rw [State.startSession_eq, h]
  exact s.sessionSet_sess fenic a host

variable {fenic : Bool} {h : CmdHdr} {a : OpenArgs} {host : Class → Nat} {c : Class}

theorem State.openSession_refused {st : Status} (hr : s.openRefused fenic a = some st) :
    s.openSession fenic h a host = s.complete h st := by
  simp [State.openSession, hr]

theorem State.openSession_plain (hr : s.openRefused fenic a = none) (hc : s.cls a.channel = some c) (hv : c.base.pathVft = false) :
    s.openSession fenic h a host = (s.startSession fenic a (host c)).complete h .ok := by
  simp [State.openSession, hr, hc, hv]

/-- A session that takes VFT opens behind the insertion of its source. -/
theorem State.openSession_vft {n : Nat} {u : State} (hr : s.openRefused fenic a = none) (hc : s.cls a.channel = some c)
    (hv : c.base.pathVft = true) (h6 : s.stopped 6 = false) (ht : s.emTable 1 = some n)
    (hk : s.emHas n (vftKey a.srcAddr a.srcPort a.ipv6) = false)
    (hu : s.emInsert n (vftKey a.srcAddr a.srcPort a.ipv6) (.vft a.channel) = some u) :
    s.openSession fenic h a host = (u.startSession fenic a (host c)).complete h .ok := by
  simp [State.openSession, hr, hc, hv, h6, roleVft, ht, hk, hu]

/-- The Fenic layout opens a closed HEVC channel without VFT for a size its class has (R77, R418). -/
theorem State.openRefused_fenic_none (hr : a.rsvOk = true) (hc : s.cls a.channel = some c) (h63 : a.channel ≤ 63)
    (ho : (s.sessOf a.channel).isOpen = false) (hv : c.base.pathVft = false) (hf : c.base.format < 2) (hl : layerPeriod c = 1)
    (hb : badSize (some c) a.width a.height = false) : s.openRefused true a = none := by
  simp [State.openRefused, hr, hc, ho, usesVft, fenicRefuses, isHevc, hv, hf, hl, hb, h63]

end

/-! ### Closing (R276, R418) -/

section
variable {s : State} {ch : Nat} {h : CmdHdr} {fenic : Bool}

theorem State.closeCommand_open (hc : (s.cls ch).isSome = true) (hf : fenic = true → ch ≤ 63) (ho : (s.sessOf ch).isOpen = true)
    (h6 : s.stopped 6 = false) : s.closeCommand h ch true fenic = (s.closeSession ch).complete h .ok := by
  have hnone : (s.cls ch).isNone = false := by simpa using hc
  have h63 : (fenic && decide (63 < ch)) = false := by
    cases fenic
    · rfl
    · simpa using hf rfl
  simp [State.closeCommand, hnone, h63, ho, h6]

theorem State.closeCommand_closed (hc : (s.cls ch).isSome = true) (ho : (s.sessOf ch).isOpen = false) :
    s.closeCommand h ch true false = s.complete h .alreadyDone := by
  have hnone : (s.cls ch).isNone = false := by simpa using hc
  simp [State.closeCommand, hnone, ho]

theorem State.closeCommand_unknown (hc : s.cls ch = none) : s.closeCommand h ch true false = s.complete h .noChannel := by
  simp [State.closeCommand, hc]

end

/-- Settles O49: each command is served with its own work, which the checks that hold decide. -/
theorem sessions : Obligations.Sessions := by
  unfold Obligations.Sessions
  intro s h a x c ch tgt w ht d on onF
  refine ⟨⟨?opRefused, ?opPlain, ?opVft, ?closes, ?closed, ?unknown, ?ctxRefused, ?ctxOpens, ?ctxCloses, ?ctxClosed⟩, ?stream,
    ⟨?streamRefused, ?streamVft⟩, ?streamCloses⟩
  case opRefused => exact fun st hr hs => exec_of_serving hs rfl (State.openSession_refused hr)
  case opPlain =>
    intro hr hc hv hs
    have hrc := (State.complete_rc (s.startSession false a c.cod.target) h .ok 0).trans (State.startSession_rc s false a c.cod.target)
    have he := exec_of_serving hs rfl (State.openSession_plain (host := fun c => c.cod.target) (h := h) hr hc hv)
    by_cases hst : s.rota.started = false
    · obtain ⟨ts, seq, hsess⟩ := State.startSession_sess false a c.cod.target hst
      exact ⟨_, _, he, hrc, fun _ => ⟨(State.complete_sess _ h .ok 0).trans hsess, rfl, rfl, rfl, rfl, rfl, rfl, rfl, rfl, rfl⟩⟩
    · exact ⟨_, {}, he, hrc, fun hst' => absurd hst' hst⟩
  case opVft =>
    exact fun hr hc hv h6 ht hk u hu hs => exec_of_serving hs rfl (State.openSession_vft hr hc hv h6 ht hk hu)
  case closes => exact fun hc ho h6 hs => exec_of_serving hs rfl (State.closeCommand_open hc nofun ho h6)
  case closed => exact fun hc ho hs => exec_of_serving hs rfl (State.closeCommand_closed hc ho)
  case unknown => exact fun hc hs => exec_of_serving hs rfl (State.closeCommand_unknown hc)
  case ctxRefused => exact fun st hr hs => exec_of_serving hs rfl (by simp [hr])
  case ctxOpens => exact fun hr hrtp hb hs => exec_of_serving hs rfl (by simp [hr, hrtp, hb, State.openCtx])
  case ctxCloses => exact fun hd ho hr hs => exec_of_serving hs rfl (by simp [hd, ho, hr])
  case ctxClosed => exact fun hd ho hs => exec_of_serving hs rfl (by simp [hd, ho])
  case stream =>
    intro hc h63 ho hv hf hl hb hs
    exact ⟨_, exec_of_serving hs rfl
        (State.openSession_plain (State.openRefused_fenic_none rfl hc h63 ho hv hf hl hb) hc hv),
      (State.complete_rc _ h .ok 0).trans (State.startSession_rc s true _ tgt)⟩
  case streamRefused => exact fun st hr hs => exec_of_serving hs rfl (State.openSession_refused hr)
  case streamVft =>
    exact fun hr hc hv h6 ht hk u hu hs => exec_of_serving hs rfl (State.openSession_vft hr hc hv h6 ht hk hu)
  case streamCloses => exact fun hc h63 ho h6 hs => exec_of_serving hs rfl (State.closeCommand_open hc (fun _ => h63) ho h6)

end Sys2Proof.Machine
end

section
/-!
SUPPORT. Deliveries, chains and targets (R79, R223, R239, R298 to R300, R326).
-/

namespace Sys2Proof.Machine

section
variable {s : State} {h : CmdHdr} {a : AddArgs}

/-! ### DELIVERY_ADD's statuses (R299) -/

/-- The channel has no place for the delivery: a second player, or a viewer where it serves its player only (R239, R299). -/
def State.addDenied (s : State) (a : AddArgs) : Bool :=
  a.player && s.hasPlayer a.channel || !a.player && s.playerOnly a.channel

theorem State.addDelivery_eq : s.addDelivery h a
    = if !(s.sessOf a.channel).isOpen then s.complete h .noChannel
      else if s.addDenied a then s.complete h .denied
      else if !addOk a then s.complete h .badArg
      else if s.stopped 6 then s
      else s.addBody h a := by rfl

theorem State.addDelivery_closed (ho : (s.sessOf a.channel).isOpen = false) : s.addDelivery h a = s.complete h .noChannel := by
  simp [State.addDelivery_eq, ho]

theorem State.addDelivery_denied (ho : (s.sessOf a.channel).isOpen = true) (hd : s.addDenied a = true) :
    s.addDelivery h a = s.complete h .denied := by
  simp [State.addDelivery_eq, ho, hd]

theorem State.addDelivery_badArg (ho : (s.sessOf a.channel).isOpen = true) (hd : s.addDenied a = false) (hok : addOk a = false) :
    s.addDelivery h a = s.complete h .badArg := by
  simp [State.addDelivery_eq, ho, hd, hok]

/-- With its checks passed, a body free and its key inserted, a delivery is linked and its handle answered. -/
theorem State.addDelivery_linked (ho : (s.sessOf a.channel).isOpen = true) (hd : s.addDenied a = false) (hok : addOk a = true)
    (h6 : s.stopped 6 = false) {t k : Nat} {u v : State} (ht : s.emTable 2 = some t) (hk : s.emHas t (audKey (destOf a)) = false)
    (hu : s.allocBody = (some k, u)) (hv : u.emInsert t (audKey (destOf a)) (.aud k) = some v) :
    s.addDelivery h a = (v.linkBody k a).complete h .ok k := by
  simp [State.addDelivery_eq, ho, hd, hok, h6, State.addBody, roleAud, ht, hk, hu, hv]

/-- A player stands at the head of its channel's chain, anyone else at its end (R299). -/
theorem State.linkBody_chain (s : State) (k : Nat) (a : AddArgs) : (s.linkBody k a).rep.chain
    = s.rep.chain.set [] a.channel
      (if a.player then k :: s.rep.chain.get [] a.channel else s.rep.chain.get [] a.channel ++ [k]) := by rfl

/-! ### DELIVERY_DEL (R300) -/

theorem State.delDelivery_unnamed {n : Nat} (hn : s.named n = false) : s.delDelivery h n = s.complete h .badArg := by
  simp [State.delDelivery, hn]

theorem State.delDelivery_named {n : Nat} (hn : s.named n = true) (h6 : s.stopped 6 = false) :
    s.delDelivery h n = (s.unlinkBody n).complete h .ok := by
  simp [State.delDelivery, hn, h6]

/-- A deletion concerns its table alone (R295). -/
theorem State.emDelete_rep (s : State) (n : Nat) (key : List Byte) : (s.emDelete n key).rep = s.rep := by
  unfold State.emDelete
  split <;> rfl

/-- What an unlinked delivery leaves of the replicator: its chain without it, and its body waiting for the packets in flight. -/
theorem State.unlinkBody_rep (s : State) (k : Nat) : (s.unlinkBody k).rep = { s.rep with
    chain := s.rep.chain.set [] (s.body k).d.ch ((s.rep.chain.get [] (s.body k).d.ch).filter fun j => j != k)
    bodies := s.rep.bodies.set {} k { s.body k with st := .empty, waits := some s.liveFlights } } := by
  unfold State.unlinkBody
  dsimp only
  split
  · simp only [State.setBody, State.liveFlights, State.emDelete_rep]
    rfl
  · rfl

/-! ### Targets (R223, R326) -/

section
variable {c : Class} {ch v : Nat}

theorem State.setTarget_none (hc : s.cls ch = none) : s.setTarget h ch v = s.complete h .noChannel := by
  simp [State.setTarget, hc]

theorem State.setTarget_closed (ho : (s.sessOf ch).isOpen = false) : s.setTarget h ch v = s.complete h .noChannel := by
  unfold State.setTarget
  split <;> simp [ho]

theorem State.setTarget_outside (hc : s.cls ch = some c) (ho : (s.sessOf ch).isOpen = true) (hv : v < c.cod.minK ∨ c.cod.peak < v) :
    s.setTarget h ch v = s.complete h .badArg := by
  simp [State.setTarget, hc, ho, hv]

theorem State.setTarget_inside (hc : s.cls ch = some c) (ho : (s.sessOf ch).isOpen = true) (hlo : c.cod.minK ≤ v) (hhi : v ≤ c.cod.peak) :
    s.setTarget h ch v = ({ s with rc := s.rc.set {} ch { s.rcOf ch with host := v } } : State).complete h .ok := by
  have hv : ¬ (v < c.cod.minK ∨ c.cod.peak < v) := by omega
  simp only [State.setTarget, hc, ho, Bool.not_true, Bool.false_eq_true, if_false, if_neg hv]
  rfl

theorem rateOk_iff : rateOk v = true ↔ 64 ≤ v ∧ v ≤ 400000000 := by
  simp [rateOk]

end
end

/-- Settles O50: the commands by the checks that hold, and linking and unlinking by what they leave of the replicator. -/
theorem deliveries : Obligations.Deliveries := by
  unfold Obligations.Deliveries
  refine ⟨?commands, ?chains, ?targets⟩
  case commands =>
    intro s h a b n t on onF
    refine ⟨⟨?closed, ?player, ?viewer, ?fields, ?linked, ?unnamed, ?unlinked⟩, ?destClosed, ?destLinked, ?destUnlinked⟩
    case closed => exact fun ho hs => exec_of_serving hs rfl (State.addDelivery_closed ho)
    case player => exact fun ho hp hh hs => exec_of_serving hs rfl (State.addDelivery_denied ho (by simp [State.addDenied, hp, hh]))
    case viewer => exact fun ho hp hh hs => exec_of_serving hs rfl (State.addDelivery_denied ho (by simp [State.addDenied, hp, hh]))
    case fields => exact fun ho hd hok hs => exec_of_serving hs rfl (State.addDelivery_badArg ho hd hok)
    case linked =>
      exact fun ho hd hok h6 ht hk k u v hu hv hs => exec_of_serving hs rfl (State.addDelivery_linked ho hd hok h6 ht hk hu hv)
    case unnamed => exact fun hn hs => exec_of_serving hs rfl (State.delDelivery_unnamed hn)
    case unlinked => exact fun hn h6 hs => exec_of_serving hs rfl (State.delDelivery_named hn h6)
    case destClosed => exact fun ho hs => exec_of_serving hs rfl (State.addDelivery_closed ho)
    case destLinked =>
      intro d ho had hp hok h6 ht hk k u v hu hv hs
      have hd : s.addDenied d = false := by
        have hplayer : d.player = false := by simp [d, had]
        have honly : s.playerOnly d.channel = false := hp
        simp [State.addDenied, hplayer, honly]
      exact exec_of_serving hs rfl (State.addDelivery_linked ho hd hok h6 ht hk hu hv)
    case destUnlinked => exact fun hn h6 hs => exec_of_serving hs rfl (State.delDelivery_named hn h6)
  case chains =>
    intro s k a
    refine ⟨fun hp => ?_, fun hp => ?_, ⟨_, rfl, rfl, rfl, rfl, rfl, rfl⟩, by rw [State.unlinkBody_rep],
      ⟨_, congrArg Rep.bodies (s.unlinkBody_rep k), rfl, rfl, rfl⟩⟩
    · rw [State.linkBody_chain, if_pos hp]
    · rw [State.linkBody_chain, if_neg (by rw [hp]; decide)]
  case targets =>
    intro s h ch v n c on onF
    refine ⟨⟨?noChannel, ?outside, ?inside, ?rate, ?badRate⟩, ?fenicNoChannel, ?fenicInside⟩
    case noChannel =>
      exact fun hn hs => exec_of_serving hs rfl (hn.elim State.setTarget_none State.setTarget_closed)
    case outside => exact fun hc ho hv hs => exec_of_serving hs rfl (State.setTarget_outside hc ho hv)
    case inside => exact fun hc ho hlo hhi hs => exec_of_serving hs rfl (State.setTarget_inside hc ho hlo hhi)
    case rate =>
      intro hn h6 hlo hhi hs
      exact exec_of_serving hs rfl (by simp [hn, rateOk_iff.mpr ⟨hlo, hhi⟩, h6])
    case badRate =>
      intro hv hs
      have hbad : rateOk v = false := Bool.eq_false_iff.mpr (mt rateOk_iff.mp (by omega))
      exact exec_of_serving hs rfl (by simp [hbad])
    case fenicNoChannel => exact fun h63 hs => exec_of_serving hs rfl (by simp [h63])
    case fenicInside =>
      intro h63 hc ho hlo hhi hs
      exact exec_of_serving hs rfl ((if_neg (by omega)).trans (State.setTarget_inside hc ho hlo hhi))

end Sys2Proof.Machine
end

section
/-!
SUPPORT. Keys and attestation (R79, R89, R94 to R97, R411).
-/

namespace Sys2Proof.Machine

section
variable {s : State} {h : CmdHdr} {len slot x : Nat} {b k : List Byte} {named : Option Nat}

/-! ### The private path (R95) -/

theorem State.commitKey_served (hp : s.keyPath slot = .served x) : s.commitKey h slot k = (s.storeKey slot k).complete h .ok := by
  simp [State.commitKey, hp]

theorem State.commitKey_error (hp : s.keyPath slot = .error) : s.commitKey h slot k = s.complete h .denied := by
  simp [State.commitKey, hp]

theorem State.commitKey_wait (hp : s.keyPath slot = .wait) : s.commitKey h slot k = s := by
  simp [State.commitKey, hp]

/-! ### An import (R94) -/

theorem State.importBlob_denied (hm : s.masters = false) : s.importBlob h len b named = s.complete h .denied := by
  simp [State.importBlob, hm]

theorem State.importBlob_length (hm : s.masters = true) (hl : len ≠ 240) : s.importBlob h len b named = s.complete h .badArg := by
  simp [State.importBlob, hm, hl]

theorem State.importBlob_badHeader (h7 : s.stopped 7 = false) (hm : s.masters = true) (hb : blobOk b = false) :
    s.importBlob h 240 b named = s.complete h .badArg := by
  simp [State.importBlob, h7, hm, hb]

theorem State.importBlob_otherSlot (h7 : s.stopped 7 = false) (hm : s.masters = true) (hb : blobOk b = true) (hs : slot ≠ blobSlot b) :
    s.importBlob h 240 b (some slot) = s.complete h .badArg := by
  simp [State.importBlob, h7, hm, hb, hs]

/-- A blob of the named slot that unwraps is committed (R79, R95). -/
theorem State.importBlob_unwraps (h7 : s.stopped 7 = false) (hm : s.masters = true) (hb : blobOk b = true)
    (hn : named.any (fun k => k != blobSlot b) = false) (hk : s.unwrap b = some k) :
    s.importBlob h 240 b named = s.commitKey h (blobSlot b) k := by
  simp [State.importBlob, h7, hm, hb, hn, hk]

theorem State.importBlob_fails (h7 : s.stopped 7 = false) (hm : s.masters = true) (hb : blobOk b = true)
    (hn : named.any (fun k => k != blobSlot b) = false) (hk : s.unwrap b = none) :
    s.importBlob h 240 b named = s.unwrapFailed.complete h .denied := by
  simp [State.importBlob, h7, hm, hb, hn, hk]

end

/-- Settles O51: an import by the checks that hold and by what the private path answers; an erasure and a report likewise. -/
theorem keysAndReports : Obligations.KeysAndReports := by
  unfold Obligations.KeysAndReports
  intro s h src len slot nonce dst b h7 on onF
  have hany : (some (blobSlot b)).any (fun k => k != blobSlot b) = false := by simp
  refine ⟨⟨?length, ?denied, ?header, ?imported, ?pathFails, ?fails, ?erased, ?noSlot, ?report⟩, ?loadLength,
    fun hm hb => ⟨?otherSlot, ?loaded, ?loadFails⟩⟩
  case length => exact fun hm hl hs => exec_of_serving hs rfl (State.importBlob_length hm hl)
  case denied =>
    exact fun hm => ⟨fun hs => exec_of_serving hs rfl (State.importBlob_denied hm), fun hs => exec_of_serving hs rfl (by simp [hm])⟩
  case header => exact fun hm hb hs => exec_of_serving hs rfl (State.importBlob_badHeader h7 hm hb)
  case imported =>
    exact fun k x hm hb hk hp hs =>
      exec_of_serving hs rfl ((State.importBlob_unwraps h7 hm hb rfl hk).trans (State.commitKey_served hp))
  case pathFails =>
    exact fun k hm hb hk =>
      ⟨fun hp hs => exec_of_serving hs rfl ((State.importBlob_unwraps h7 hm hb rfl hk).trans (State.commitKey_error hp)),
        fun hp hs => exec_of_serving hs rfl ((State.importBlob_unwraps h7 hm hb rfl hk).trans (State.commitKey_wait hp))⟩
  case fails => exact fun hm hb hk hs => exec_of_serving hs rfl (State.importBlob_fails h7 hm hb rfl hk)
  case erased =>
    intro x hm hslot hp hs
    have hin : ¬ keySlots ≤ slot := by simpa [keySlots] using hslot
    exact exec_of_serving hs rfl (by simp [hm, hin, h7, State.commitKey_served hp])
  case noSlot =>
    intro hm hslot hs
    have hout : keySlots ≤ slot := hslot
    exact exec_of_serving hs rfl (by simp [hm, hout])
  case report =>
    intro hfirst hn hn' hd hd'
    have hargs : ¬ (nonce % 64 ≠ 0 ∨ aptLen < nonce + 64 ∨ dst % 4096 ≠ 0 ∨ aptLen < dst + 548) := by
      simp only [aptLen]
      omega
    refine ⟨fun hid hs => exec_of_serving hs rfl ?_, fun hid hs => exec_of_serving hs rfl ?_⟩
    · simp only [hfirst, h7, hid, Bool.or_self, Bool.false_eq_true, Bool.not_false, if_false, if_true, if_neg hargs]
    · simp only [hfirst, h7, hid, Bool.or_self, Bool.false_eq_true, Bool.not_true, if_false, if_neg hargs]
      rfl
  case loadLength => exact fun hm hl hs => exec_of_serving hs rfl (State.importBlob_length hm hl)
  case otherSlot => exact fun hne hs => exec_of_serving hs rfl (State.importBlob_otherSlot h7 hm hb hne)
  case loaded =>
    rintro k x rfl hk hp hs
    exact exec_of_serving hs rfl ((State.importBlob_unwraps h7 hm hb hany hk).trans (State.commitKey_served hp))
  case loadFails =>
    rintro rfl hk hs
    exact exec_of_serving hs rfl (State.importBlob_fails h7 hm hb hany hk)

end Sys2Proof.Machine
end

section
/-!
SUPPORT. Updates of the flash and restart (R55, R67, R68, R70, R79).
-/

namespace Sys2Proof.Machine

/-! ### Ranges (R55, R67) -/

/-- A range of a slot lies in that slot alone: the slots are disjoint and the range is not empty. -/
theorem slotOfAddr_of_rangeOk {slot off len : Nat} (hr : rangeOk slot off len = true) :
    slotOfAddr (slotBase slot + off) len = some (slot, off) := by
  simp only [rangeOk, inRange, Bool.and_eq_true, decide_eq_true_eq] at hr
  obtain ⟨⟨⟨⟨hslot, -⟩, -⟩, hmin, -⟩, hend⟩ := hr
  rw [slotLen] at hend
  have hcases : slot = 0 ∨ slot = 1 := by omega
  rcases hcases with rfl | rfl
  · simp only [slotOfAddr, slotBase, slotLen, List.findSome?_cons, if_true]
    rw [if_pos (by omega)]
    simp
  · simp only [slotOfAddr, slotBase, slotLen, List.findSome?_cons, if_true, one_ne_zero, if_false]
    rw [if_neg (by omega), if_pos (by omega)]
    simp

/-! ### The end of an operation (R68) -/

/-- An operation that fails disturbs its range alone, and an event that can rise is recorded. -/
theorem flashFailure_leaves (s : State) (base len : Nat) (h : CmdHdr) (hwf : Tbl.wf 0xFF s.flash = true) :
    (∀ a, a < base ∨ base + len ≤ a →
      (((s.flashSpoil base len).raise srcXspi).completeJob h .denied).flash.get 0xFF a = s.flash.get 0xFF a)
    ∧ (s.canRise srcXspi = true →
      (((s.flashSpoil base len).raise srcXspi).completeJob h .denied).flt.sticky.get false srcXspi = true) := by
  constructor
  · intro a ha
    have hflash : (((s.flashSpoil base len).raise srcXspi).completeJob h .denied).flash = (s.flashSpoil base len).flash := by
      rw [State.completeJob_frame]
      exact congrArg Quiet.flash (State.raise_quiet _ _)
    rw [hflash]
    exact Tbl.get_setList_outside _ hwf base (by simpa using ha)
  · intro hc
    rw [State.completeJob_sticky, State.raise_plain_sticky (s.flashSpoil base len) hc (by decide) (by decide)]
    exact Tbl.get_set_ne _ _ _ _ (by decide)

/-- A completion takes no time: the restart is dated as the command finds the device (R70). -/
theorem State.restartNow_eq (s : State) (h : CmdHdr) :
    let u := (s.complete h .ok).setJobs []
    s.restartNow h = { u with glb := { u.glb with restartPend := true, restartAt := s.time.aon } } := by
  have htime : ((s.complete h .ok).setJobs []).time = s.time := (congrArg State.time (s.complete_frame h .ok 0) :)
  simp only [State.restartNow, htime]

/-- Settles O52: the commands by the checks that hold, the end of an operation by what it was. -/
theorem flashUpdates : Obligations.FlashUpdates := by
  unfold Obligations.FlashUpdates
  intro s h slot off len src rd on onF base data begun
  refine ⟨fun hfirst => ⟨?program, ?refused, ?erase, ?verify, ?restart⟩, fun hfirst => ⟨?write, ?reboot⟩,
    fun o ho => ⟨?programmed, ?erased, ?failed⟩⟩
  case program => exact fun hr hsrc hs => exec_of_serving hs rfl (by simp [hfirst, hr, hsrc]; rfl)
  case refused =>
    exact fun hr => ⟨fun hs => exec_of_serving hs rfl (by simp [hfirst, hr]), fun hs => exec_of_serving hs rfl (by simp [hfirst, hr])⟩
  case erase => exact fun hr hs => exec_of_serving hs rfl (by simp [hfirst, hr]; rfl)
  case verify =>
    intro hslot hs
    have hin : ¬ 2 ≤ slot := by omega
    exact exec_of_serving hs rfl (by simp [hfirst, hin])
  case restart => exact fun hs => exec_of_serving hs rfl ((if_neg (by simp [hfirst])).trans (s.restartNow_eq h))
  case write =>
    intro _ hr hsrc hs
    exact exec_of_serving hs rfl (by simp [hfirst, base, slotOfAddr_of_rangeOk hr, hr, hsrc]; rfl)
  case reboot => exact fun hs => exec_of_serving hs rfl ((if_neg (by simp [hfirst])).trans (s.restartNow_eq h))
  case programmed => exact fun bs hd => by simp [exec, execFlashOpDone, ho, hd, State.flashWrite]
  case erased => exact fun hd => by simp [exec, execFlashOpDone, ho, hd, State.flashErase]
  case failed =>
    intro hwf
    refine ⟨_, by simp [exec, execFlashOpDone, ho]; rfl, ?_⟩
    exact flashFailure_leaves { s with flashOp := none } o.base o.len { tag := o.tag, irq := o.irq } hwf

end Sys2Proof.Machine
end

section
/-!
SUPPORT. The fuse burns (R86, R87, R100, R107, R108): how a command begins or refuses one, and what its end leaves.
-/

namespace Sys2Proof.Machine

section
variable {s : State}

/-! ### Beginnings (R86, R100, R108) -/

theorem exec_fuseBurnOwner_running (hb : s.sec.burn.isSome = true) (c : Nat) : exec (.fuseBurnOwner c) s = .next s := by
  simp only [exec, execFuseBurnOwner, hb, or_true, if_true]

theorem exec_fuseBurnDebugClose_running (hb : s.sec.burn.isSome = true) (c : Nat) :
    exec (.fuseBurnDebugClose c) s = .next s := by
  simp only [exec, execFuseBurnDebugClose, hb, or_true, if_true]

section
variable (hst : s.glb.st ≠ .reset) (hb : s.sec.burn = none)
include hst hb

theorem exec_fuseBurnOwner_refused {c : Nat} (h : s.sec.sensed.ownerSet = true ∨ s.glb.st ≠ .loadfail ∨ c ≠ 0xA55A) :
    exec (.fuseBurnOwner c) s = .next (s.burnResult burnRefused) := by
  have h' : s.sec.sensed.ownerSet = true ∨ s.glb.st ≠ .loadfail ∨ c ≠ burnConfirm := h
  simp only [exec, execFuseBurnOwner, hst, hb, Option.isSome_none, Bool.false_eq_true, or_self, if_false, if_pos h']

theorem exec_fuseBurnDebugClose_refused {c : Nat} (h : c ≠ 0xA55A) :
    exec (.fuseBurnDebugClose c) s = .next (s.burnResult burnRefused) := by
  simp [exec, execFuseBurnDebugClose, hst, hb, burnConfirm, h]

theorem exec_fuseBurnDebugClose_begins :
    exec (.fuseBurnDebugClose 0xA55A) s = .next { s with sec := { s.sec with burn := some 2 } } := by
  simp [exec, execFuseBurnDebugClose, hst, hb, burnConfirm]

end

/-- In LOADFAIL, with no owner set, the digest decides whether the burn begins: a bit that already reads 1 cannot be taken back. -/
theorem exec_fuseBurnOwner_confirmed (hb : s.sec.burn = none) (hset : s.sec.sensed.ownerSet = false) (hload : s.glb.st = .loadfail) :
    exec (.fuseBurnOwner 0xA55A) s
      = .next (if (s.sec.sensed.owner ||| s.sec.fuses.owner) &&& ~~~s.sec.digest ≠ 0 then s.burnResult burnMismatch
        else { s with sec := { s.sec with burn := some 1 } }) := by
  have hawake : ¬ (s.glb.st = .reset ∨ s.sec.burn.isSome = true) := by simp [hload, hb]
  have hgo : ¬ (s.sec.sensed.ownerSet = true ∨ s.glb.st ≠ .loadfail ∨ 0xA55A ≠ burnConfirm) := by simp [hset, hload, burnConfirm]
  simp only [exec, execFuseBurnOwner, if_neg hawake, if_neg hgo]

/-! ### Ends (R86, R87, R100) -/

/-- OWNER_HASH as it reads at the end of the owner burn: what was burned before, and what took of the digest. -/
def State.ownerRead (s : State) (rb : BitVec 512) : BitVec 512 := s.sec.fuses.owner ||| (rb &&& s.sec.digest)

/-- The owner burn has ended; OWNER_SET is burned where OWNER_HASH reads as the digest (R86). -/
def State.ownerEnded (s : State) (rb : BitVec 512) : State :=
  { s with sec := { s.sec with
    burn := none
    fuses := { s.sec.fuses with
      owner := s.ownerRead rb, ownerOnes := if s.ownerRead rb = s.sec.digest then 3 else s.sec.fuses.ownerOnes }
    sensed := { s.sec.sensed with
      owner := s.ownerRead rb, ownerSet := s.sec.sensed.ownerSet || decide (s.ownerRead rb = s.sec.digest) } } }

/-- The result of the owner burn by what OWNER_HASH then reads. -/
theorem State.ownerBurned_eq (s : State) (rb : BitVec 512) : s.ownerBurned rb
    = if s.ownerRead rb = s.sec.digest then (s.ownerEnded rb).burnResult burnDone
      else if s.ownerRead rb &&& s.sec.digest = s.sec.digest then (s.ownerEnded rb).burnResult burnMismatch
      else ((s.ownerEnded rb).burnResult burnError).raise srcFuse := by
  simp only [State.ownerBurned, decide_eq_true_eq]
  rfl

/-- DEBUG_CLOSE fuses that read 1 at the end of the debug burn. -/
def State.debugRead (s : State) (ones : Nat) : Nat := max s.sec.fuses.debugOnes (min 3 ones)

/-- The debug burn has ended. -/
def State.debugEnded (s : State) (ones : Nat) : State :=
  { s with sec := { s.sec with burn := none, fuses := { s.sec.fuses with debugOnes := s.debugRead ones } } }

theorem State.debugBurned_eq (s : State) (ones : Nat) : s.debugBurned ones
    = if 2 ≤ s.debugRead ones then ((s.debugEnded ones).burnResult burnDone).closeDebug
      else (s.debugEnded ones).burnResult burnError := rfl

/-- FUSE_ERR leaves SEC as it is. -/
theorem State.raise_srcFuse_sec (v : State) : (v.raise srcFuse).sec = v.sec := by
  obtain ⟨st, f, hc⟩ := v.raise_calm (n := srcFuse) (by decide) (.inr (by decide))
  exact (congrArg State.sec hc :)

theorem exec_fuseBurnDone_owner (h : s.sec.burn = some 1) (rb : BitVec 512) (ones : Nat) :
    exec (.fuseBurnDone rb ones) s = .next (s.ownerBurned rb) := by
  simp only [exec, execFuseBurnDone, h, if_true]

theorem exec_fuseBurnDone_debug (h : s.sec.burn = some 2) (rb : BitVec 512) (ones : Nat) :
    exec (.fuseBurnDone rb ones) s = .next (s.debugBurned ones) := by
  simp only [exec, execFuseBurnDone, h, OfNat.ofNat_ne_one, if_false]

/-- After closure no debug instruction is active (R98, R100). -/
theorem State.closeDebug_tap (v : State) : v.closeDebug.sec.tap ≠ 0x10 ∧ v.closeDebug.sec.tap ≠ 0x11 := by
  show (if tapDebug v.sec.tap then 0xFF else v.sec.tap) ≠ 0x10 ∧ (if tapDebug v.sec.tap then 0xFF else v.sec.tap) ≠ 0x11
  split
  · decide
  next h => simpa [tapDebug] using h

end

/-- Settles O7: a command begins a burn by its branch; an end is `ownerBurned_eq` or `debugBurned_eq` in one of its cases. -/
theorem fuseBurns : Obligations.FuseBurns := by
  unfold Obligations.FuseBurns
  intro s c ones rb hst
  refine ⟨fun hb => ⟨exec_fuseBurnOwner_running hb c, exec_fuseBurnDebugClose_running hb c⟩,
    fun hb hc => ⟨exec_fuseBurnOwner_refused hst hb (.inr (.inr hc)), exec_fuseBurnDebugClose_refused hst hb hc⟩,
    fun hb h => exec_fuseBurnOwner_refused hst hb (h.imp_right .inl),
    fun hb hset hload => ⟨fun hbad => ?mismatched, fun hgood => ?begins⟩, exec_fuseBurnDebugClose_begins hst,
    fun hb hread => ?whole, fun hb hne htook => ?tooMany, fun hb hshort => ?short, fun hb h2 => ?closed, fun hb h2 => ?notClosed⟩
  case mismatched => rw [exec_fuseBurnOwner_confirmed hb hset hload, if_pos hbad]; rfl
  case begins => rw [exec_fuseBurnOwner_confirmed hb hset hload, if_neg (not_not.mpr hgood)]
  case whole =>
    have hread' : s.ownerRead rb = s.sec.digest := hread
    refine ⟨_, exec_fuseBurnDone_owner hb rb ones, ?_⟩
    rw [State.ownerBurned_eq, if_pos hread']
    exact ⟨rfl, rfl, hread', if_pos hread', by simp [State.burnResult, State.ownerEnded, hread'], rfl⟩
  case tooMany =>
    have hne' : ¬ s.ownerRead rb = s.sec.digest := hne
    have htook' : s.ownerRead rb &&& s.sec.digest = s.sec.digest := htook
    refine ⟨_, exec_fuseBurnDone_owner hb rb ones, ?_⟩
    rw [State.ownerBurned_eq, if_neg hne', if_pos htook']
    exact ⟨rfl, if_neg hne', rfl⟩
  case short =>
    have hshort' : ¬ s.ownerRead rb &&& s.sec.digest = s.sec.digest := hshort
    have hne : ¬ s.ownerRead rb = s.sec.digest := fun e => hshort' (by rw [e, BitVec.and_self])
    refine ⟨_, exec_fuseBurnDone_owner hb rb ones, ?_⟩
    rw [State.ownerBurned_eq, if_neg hne, if_neg hshort', State.raise_srcFuse_sec]
    exact ⟨rfl, if_neg hne, fun hc => State.raiseIn_sets _ none false false _ hc⟩
  case closed =>
    refine ⟨_, exec_fuseBurnDone_debug hb rb ones, ?_⟩
    rw [State.debugBurned_eq, if_pos (show 2 ≤ s.debugRead ones from h2)]
    obtain ⟨hsteward, hfabric⟩ := State.closeDebug_tap ((s.debugEnded ones).burnResult burnDone)
    exact ⟨rfl, rfl, rfl, rfl, hsteward, hfabric, rfl, rfl⟩
  case notClosed =>
    have hlt : ¬ 2 ≤ s.debugRead ones := Nat.not_le.mpr h2
    refine ⟨_, exec_fuseBurnDone_debug hb rb ones, ?_⟩
    rw [State.debugBurned_eq, if_neg hlt]
    exact ⟨rfl, rfl, rfl⟩

end Sys2Proof.Machine
end

section
/-!
SUPPORT. What becomes of the fuses in a step (R81, R87, R100): they move only where a burn ends or is cut short, and are sensed at the
release of the power-on reset.
-/

namespace Sys2Proof.Machine

/-- No burned fuse of `f` is taken back in `g`, and the factory's fields are the same. -/
structure Fuses.Rises (f g : Fuses) : Prop where
  serial : g.serial = f.serial
  rootSecret : g.rootSecret = f.rootSecret
  idkey : g.idkey = f.idkey
  owner : f.owner &&& g.owner = f.owner
  ownerOnes : f.ownerOnes ≤ g.ownerOnes
  debugOnes : f.debugOnes ≤ g.debugOnes

theorem Fuses.Rises.refl (f : Fuses) : f.Rises f := ⟨rfl, rfl, rfl, BitVec.and_self, Nat.le_refl _, Nat.le_refl _⟩

/-- Owner bits that are burned in addition leave those that were burned. -/
theorem and_or_self_left {w : Nat} (x y : BitVec w) : x &&& (x ||| y) = x := by
  ext i hi
  simp only [BitVec.getElem_and, BitVec.getElem_or]
  cases x[i] <;> rfl

/-- The invariant is kept, and the fuses only rise. -/
def State.FusesKept (s t : State) : Prop := t.FusesHold ∧ s.sec.fuses.Rises t.sec.fuses

section
variable {s t : State}

theorem State.FusesHold.congr (h : s.FusesHold) (hf : t.sec.fuses = s.sec.fuses) (hs : t.sec.sensed = s.sec.sensed) :
    t.FusesHold := by
  rw [State.FusesHold, hf, hs]
  exact h

theorem State.FusesKept.of_same (h : s.FusesHold) (hf : t.sec.fuses = s.sec.fuses) (hs : t.sec.sensed = s.sec.sensed) :
    s.FusesKept t := ⟨h.congr hf hs, by rw [hf]; exact .refl _⟩

/-- What is kept of the fuses depends on what a state holds burned and sensed alone. -/
theorem State.FusesKept.congr {u : State} (h : s.FusesKept t) (hf : u.sec.fuses = t.sec.fuses)
    (hs : u.sec.sensed = t.sec.sensed) : s.FusesKept u := ⟨h.1.congr hf hs, by rw [hf]; exact h.2⟩

/-- The same, where nothing is sensed any more. -/
theorem State.FusesKept.unsensed {u : State} (h : s.FusesKept t) (hf : u.sec.fuses = t.sec.fuses)
    (hs : u.sec.sensed = {}) : s.FusesKept u := by
  obtain ⟨⟨hdebug, howner, -, -⟩, hrises⟩ := h
  refine ⟨?_, by rw [hf]; exact hrises⟩
  rw [State.FusesHold, hf, hs]
  exact ⟨hdebug, howner, nofun, nofun⟩

/-! ### Burns that a reset cuts short (R87) -/

/-- A DEBUG_CLOSE burn that is cut short leaves at most the three fuses burned. -/
theorem debugOnes_cut {n : Nat} (h : n ≤ 3) (k : Nat) : n + k % (4 - n) ≤ 3 := by
  have : k % (4 - n) < 4 - n := Nat.mod_lt _ (by omega)
  omega

theorem State.cutBurn_kept (h : s.FusesHold) : s.FusesKept s.cutBurn := by
  obtain ⟨hdebug, howner, hclosed, hset⟩ := h
  unfold State.cutBurn
  split
  · exact .of_same ⟨hdebug, howner, hclosed, hset⟩ rfl rfl
  · dsimp only
    split
    · exact ⟨⟨hdebug, howner, hclosed, hset⟩, rfl, rfl, rfl, and_or_self_left _ _, Nat.le_refl _, Nat.le_refl _⟩
    · exact ⟨⟨debugOnes_cut hdebug _, howner, fun hc => Nat.le_trans (hclosed hc) (Nat.le_add_right _ _), hset⟩,
        rfl, rfl, rfl, BitVec.and_self, Nat.le_refl _, Nat.le_add_right _ _⟩

theorem State.cutFlash_sec (s : State) : s.cutFlash.sec = s.sec := by
  unfold State.cutFlash
  split <;> rfl

theorem State.devReset_kept_fuses (h : s.FusesHold) (cause : Nat) : s.FusesKept (s.devReset cause) := by
  have hsec : (s.devReset cause).sec.fuses = s.cutBurn.cutFlash.sec.fuses
      ∧ (s.devReset cause).sec.sensed = s.cutBurn.cutFlash.sec.sensed := ⟨rfl, rfl⟩
  rw [State.cutFlash_sec] at hsec
  exact (State.cutBurn_kept h).congr hsec.1 hsec.2

theorem State.powerOn_kept_fuses (h : s.FusesHold) : s.FusesKept s.powerOn :=
  (State.devReset_kept_fuses h 0).unsensed rfl rfl

theorem State.cutLedger_sec (s : State) : s.cutLedger.sec = s.sec := by
  unfold State.cutLedger
  split
  · rfl
  · dsimp only
    split <;> rfl

theorem execRailBelowThreshold_kept_fuses (h : s.FusesHold) {r : Rail} (hx : execRailBelowThreshold r s = .next t) :
    s.FusesKept t := by
  injection hx with hx
  subst hx
  by_cases hr : r = .vddAon
  · have hcut : s.cutLedger.sec = s.sec := s.cutLedger_sec
    have hk := State.powerOn_kept_fuses (s := s.cutLedger) (h.congr (by rw [hcut]) (by rw [hcut]))
    rw [State.FusesKept, hcut] at hk
    simp only [hr, if_true]
    exact hk
  · simp only [hr, if_false]
    exact State.powerOn_kept_fuses h

theorem State.passes_sec (s : State) (n : Nat) : (s.passes n).2.sec = s.sec := by
  unfold State.passes
  split
  · rfl
  · split <;> rfl

theorem State.passes_devReset_kept_fuses (h : s.FusesHold) (n cause : Nat) : s.FusesKept ((s.passes n).2.devReset cause) := by
  have hsec := s.passes_sec n
  have hk := State.devReset_kept_fuses (s := (s.passes n).2) (h.congr (by rw [hsec]) (by rw [hsec])) cause
  rw [State.FusesKept, hsec] at hk
  exact hk

theorem execResetNAssert_kept_fuses (h : s.FusesHold) {n : Nat} (hx : execResetNAssert n s = .next t) : s.FusesKept t := by
  injection hx with hx
  subst hx
  dsimp only
  split
  · exact State.passes_devReset_kept_fuses h n 1
  · exact .of_same h (by rw [State.passes_sec]) (by rw [State.passes_sec])

theorem execPerstNAssert_kept_fuses (h : s.FusesHold) {n : Nat} (hx : execPerstNAssert n s = .next t) : s.FusesKept t := by
  injection hx with hx
  subst hx
  dsimp only
  split
  · exact State.passes_devReset_kept_fuses h n 2
  · exact .of_same h (by rw [State.passes_sec]) (by rw [State.passes_sec])

theorem execRestartEnterReset_kept_fuses (h : s.FusesHold) (hx : execRestartEnterReset s = .next t) : s.FusesKept t := by
  injection hx with hx
  subst hx
  split
  · exact State.devReset_kept_fuses h 3
  · exact .of_same h rfl rfl

/-! ### Sensing (R81) -/

/-- What is sensed is what at least two of a control fuse's three copies say. -/
theorem State.sense_kept (h : s.FusesHold) (e : FuseEcc) : s.FusesKept (s.sense e) := by
  obtain ⟨hdebug, howner, -, -⟩ := h
  exact ⟨⟨hdebug, howner, of_decide_eq_true, of_decide_eq_true⟩, .refl _⟩

theorem execPorRelease_kept_fuses (h : s.FusesHold) {p : PinLevels} {e : FuseEcc} (hx : execPorRelease p e s = .next t) :
    s.FusesKept t := by
  injection hx with hx
  subst hx
  split
  · exact .of_same h rfl rfl
  · exact (State.sense_kept (s := s.sampled p) h e).congr (by rw [State.tryLeave_sec]; rfl) (by rw [State.tryLeave_sec]; rfl)

/-! ### Burns that end (R86, R87, R100) -/

/-- The burn's result is all that its end leaves beyond what was burned and sensed. -/
theorem State.ownerBurned_sec (s : State) (rb : BitVec 512) :
    ∃ r, (s.ownerBurned rb).sec = { (s.ownerEnded rb).sec with result := r } := by
  rw [State.ownerBurned_eq]
  split
  · exact ⟨burnDone, rfl⟩
  · split
    · exact ⟨burnMismatch, rfl⟩
    · exact ⟨burnError, State.raise_srcFuse_sec _⟩

theorem State.ownerRead_keeps (s : State) (rb : BitVec 512) : s.sec.fuses.owner &&& s.ownerRead rb = s.sec.fuses.owner :=
  and_or_self_left _ _

theorem State.ownerBurned_kept (h : s.FusesHold) (rb : BitVec 512) : s.FusesKept (s.ownerBurned rb) := by
  obtain ⟨hdebug, howner, hclosed, hset⟩ := h
  have hended : s.FusesKept (s.ownerEnded rb) := by
    by_cases hok : s.ownerRead rb = s.sec.digest
    · have hones : (s.ownerEnded rb).sec.fuses.ownerOnes = 3 := if_pos hok
      exact ⟨⟨hdebug, Nat.le_of_eq hones, hclosed, fun _ => by rw [hones]; decide⟩, rfl, rfl, rfl, s.ownerRead_keeps rb,
        by rw [hones]; exact howner, Nat.le_refl _⟩
    · have hones : (s.ownerEnded rb).sec.fuses.ownerOnes = s.sec.fuses.ownerOnes := if_neg hok
      have hsensed : (s.ownerEnded rb).sec.sensed.ownerSet = s.sec.sensed.ownerSet := by simp [State.ownerEnded, hok]
      exact ⟨⟨hdebug, by rw [hones]; exact howner, hclosed, by rw [hones, hsensed]; exact hset⟩, rfl, rfl, rfl, s.ownerRead_keeps rb,
        Nat.le_of_eq hones.symm, Nat.le_refl _⟩
  obtain ⟨r, hsec⟩ := s.ownerBurned_sec rb
  exact hended.congr (by rw [hsec]) (by rw [hsec])

theorem State.debugBurned_kept (h : s.FusesHold) (n : Nat) : s.FusesKept (s.debugBurned n) := by
  obtain ⟨hdebug, howner, hclosed, hset⟩ := h
  have hread : s.debugRead n ≤ 3 := Nat.max_le.mpr ⟨hdebug, Nat.min_le_left _ _⟩
  have hrises : s.sec.fuses.debugOnes ≤ s.debugRead n := Nat.le_max_left _ _
  rw [State.debugBurned_eq]
  split
  next h2 => exact ⟨⟨hread, howner, fun _ => h2, hset⟩, rfl, rfl, rfl, BitVec.and_self, Nat.le_refl _, hrises⟩
  · exact ⟨⟨hread, howner, fun hc => Nat.le_trans (hclosed hc) hrises, hset⟩, rfl, rfl, rfl, BitVec.and_self, Nat.le_refl _,
      hrises⟩

theorem execFuseBurnDone_kept_fuses (h : s.FusesHold) {rb : BitVec 512} {n : Nat} (hx : execFuseBurnDone rb n s = .next t) :
    s.FusesKept t := by
  injection hx with hx
  subst hx
  split
  · exact .of_same h rfl rfl
  · split
    · exact State.ownerBurned_kept h rb
    · exact State.debugBurned_kept h n

/-! ### The step -/

/-- The commands that are not named move neither the fuses nor what is sensed of them. -/
theorem exec_kept_fuses (c : Instr) (h : s.FusesHold) (hx : exec c s = .next t) : s.FusesKept t := by
  by_cases hpor : ∃ p e, c = .porRelease p e
  · obtain ⟨p, e, rfl⟩ := hpor
    exact execPorRelease_kept_fuses h hx
  by_cases hrail : ∃ r, c = .railBelowThreshold r
  · obtain ⟨r, rfl⟩ := hrail
    exact execRailBelowThreshold_kept_fuses h hx
  by_cases hresetN : ∃ n, c = .resetNAssert n
  · obtain ⟨n, rfl⟩ := hresetN
    exact execResetNAssert_kept_fuses h hx
  by_cases hperstN : ∃ n, c = .perstNAssert n
  · obtain ⟨n, rfl⟩ := hperstN
    exact execPerstNAssert_kept_fuses h hx
  by_cases hrestart : c = .restartEnterReset
  · subst hrestart
    exact execRestartEnterReset_kept_fuses h hx
  by_cases hburn : ∃ rb n, c = .fuseBurnDone rb n
  · obtain ⟨rb, n, rfl⟩ := hburn
    exact execFuseBurnDone_kept_fuses h hx
  simp only [not_exists] at hpor hrail hresetN hperstN hburn
  have hmoved := exec_moves c hx
  exact .of_same h ((congrArg Quiet.fuses hmoved).trans (Quiet.moved_fuses _ _ hrail hresetN hperstN hrestart hburn))
    ((congrArg Quiet.sensed hmoved).trans (Quiet.moved_sensed _ _ hrail hburn hpor))

end

/-- Settles O57: a step is a command's or a tick, and a tick moves neither the fuses nor what is sensed of them. -/
theorem fusesOnlyRise : Obligations.FusesOnlyRise := by
  unfold Obligations.FusesOnlyRise
  intro s t hhold hstep
  have hkept : s.FusesKept t := by
    unfold step at hstep
    split at hstep
    · injection hstep with hstep
      subst hstep
      exact .of_same hhold (congrArg Quiet.fuses s.tick_quiet) (congrArg Quiet.sensed s.tick_quiet)
    next c rest _ => exact exec_kept_fuses (s := { s with pending := rest }) c hhold hstep
  obtain ⟨hhold', hserial, hroot, hidkey, howner, hownerOnes, hdebugOnes⟩ := hkept
  exact ⟨hhold', hserial, hroot, hidkey, howner, hownerOnes, hdebugOnes⟩

end Sys2Proof.Machine
end

section
/-!
SUPPORT. The firewall's verdict (R102, R103, R111), by the windows that cover a transaction and by those of them that grant it.
-/

namespace Sys2Proof.Machine

section
variable (s : State) (r : FabReq)

/-- The windows of its master that cover a transaction. -/
def State.coverWins : List Nat := (List.range 8).filter fun w => s.inWindow r w

/-- Those of them that grant its access. -/
def State.grantWins : List Nat := (s.coverWins r).filter fun w => s.winGrants r w

variable {s r}

theorem State.mem_coverWins {w : Nat} : w ∈ s.coverWins r ↔ w < 8 ∧ s.inWindow r w = true := by
  simp [State.coverWins]

theorem State.mem_grantWins {w : Nat} : w ∈ s.grantWins r ↔ w < 8 ∧ s.inWindow r w = true ∧ s.winGrants r w = true := by
  simp [State.grantWins, State.mem_coverWins, and_assoc]

theorem State.coverWins_nonempty {w : Nat} (h8 : w < 8) (hin : s.inWindow r w = true) : (s.coverWins r).isEmpty = false :=
  List.isEmpty_eq_false_iff_exists_mem.mpr ⟨w, State.mem_coverWins.mpr ⟨h8, hin⟩⟩

theorem State.fabVerdict_alias (h : aliasOf r.addr = 3) : s.fabVerdict r = .violation 3 := by rw [State.fabVerdict, if_pos h]

section
variable (ha : aliasOf r.addr ≠ 3) (hl : s.fab.lock = true)
include ha hl

theorem State.fabVerdict_locked : s.fabVerdict r
    = if (s.coverWins r).isEmpty then .violation 0
      else if (s.grantWins r).isEmpty then .violation 1
      else if (s.grantWins r).any fun w => s.winAlias r w then .allow
      else .violation 2 := by
  simp only [State.fabVerdict, if_neg ha, hl, Bool.not_true, Bool.false_eq_true, if_false]
  rfl

theorem State.fabVerdict_uncovered (h : ∀ w, w < 8 → s.inWindow r w = false) : s.fabVerdict r = .violation 0 := by
  have hnone : s.coverWins r = [] := List.eq_nil_iff_forall_not_mem.mpr fun w hw => by
    obtain ⟨h8, hin⟩ := State.mem_coverWins.mp hw
    simp [h w h8] at hin
  simp [State.fabVerdict_locked ha hl, hnone]

section
variable {w : Nat} (h8 : w < 8) (hin : s.inWindow r w = true)
include h8 hin

theorem State.fabVerdict_ungranted (h : ∀ w, w < 8 → s.inWindow r w = true → s.winGrants r w = false) :
    s.fabVerdict r = .violation 1 := by
  have hnone : s.grantWins r = [] := List.eq_nil_iff_forall_not_mem.mpr fun w hw => by
    obtain ⟨h8, hin, hgrant⟩ := State.mem_grantWins.mp hw
    simp [h w h8 hin] at hgrant
  simp [State.fabVerdict_locked ha hl, State.coverWins_nonempty h8 hin, hnone]

/-- Where a window grants the access, the alias decides. -/
theorem State.fabVerdict_granted (hgrant : s.winGrants r w = true) : s.fabVerdict r
    = if (s.grantWins r).any fun w => s.winAlias r w then .allow else .violation 2 := by
  have hsome : (s.grantWins r).isEmpty = false :=
    List.isEmpty_eq_false_iff_exists_mem.mpr ⟨w, State.mem_grantWins.mpr ⟨h8, hin, hgrant⟩⟩
  simp only [State.fabVerdict_locked ha hl, State.coverWins_nonempty h8 hin, hsome, Bool.false_eq_true, if_false]

theorem State.fabVerdict_unaliased (hgrant : s.winGrants r w = true)
    (h : ∀ w, w < 8 → s.inWindow r w = true → s.winGrants r w = true → s.winAlias r w = false) :
    s.fabVerdict r = .violation 2 := by
  rw [State.fabVerdict_granted ha hl h8 hin hgrant, if_neg]
  rw [List.any_eq_true]
  rintro ⟨v, hv, halias⟩
  obtain ⟨hv8, hvin, hvgrant⟩ := State.mem_grantWins.mp hv
  simp [h v hv8 hvin hvgrant] at halias

theorem State.fabVerdict_allowed (hgrant : s.winGrants r w = true) (halias : s.winAlias r w = true) : s.fabVerdict r = .allow := by
  rw [State.fabVerdict_granted ha hl h8 hin hgrant, if_pos]
  exact List.any_eq_true.mpr ⟨w, State.mem_grantWins.mpr ⟨h8, hin, hgrant⟩, halias⟩

end

/-- Without a window that covers, grants and takes the alias the verdict is a violation of one KIND or another. -/
theorem State.fabVerdict_refused
    (h : ¬ ∃ w, w < 8 ∧ s.inWindow r w = true ∧ s.winGrants r w = true ∧ s.winAlias r w = true) :
    ∃ k, s.fabVerdict r = .violation k := by
  by_cases hcover : ∃ w, w < 8 ∧ s.inWindow r w = true
  · obtain ⟨w, h8, hin⟩ := hcover
    by_cases hgrant : ∃ w, w < 8 ∧ s.inWindow r w = true ∧ s.winGrants r w = true
    · obtain ⟨v, hv8, hvin, hvgrant⟩ := hgrant
      refine ⟨2, State.fabVerdict_unaliased ha hl hv8 hvin hvgrant fun u hu8 huin hugrant => ?_⟩
      exact Bool.eq_false_iff.mpr fun halias => h ⟨u, hu8, huin, hugrant, halias⟩
    · refine ⟨1, State.fabVerdict_ungranted ha hl h8 hin fun u hu8 huin => ?_⟩
      exact Bool.eq_false_iff.mpr fun hugrant => hgrant ⟨u, hu8, huin, hugrant⟩
  · refine ⟨0, State.fabVerdict_uncovered ha hl fun u hu8 => ?_⟩
    exact Bool.eq_false_iff.mpr fun huin => hcover ⟨u, hu8, huin⟩

end

end

/-- Settles O34: a verdict by the best of the windows: none, one that covers, one that grants, or one that allows. -/
theorem firewallVerdict : Obligations.FirewallVerdict := by
  unfold Obligations.FirewallVerdict
  intro s r
  refine ⟨State.fabVerdict_alias, fun ha hl => ⟨State.fabVerdict_uncovered ha hl,
    fun ⟨w, h8, hin⟩ => State.fabVerdict_ungranted ha hl h8 hin,
    fun ⟨w, h8, hin, hgrant⟩ => State.fabVerdict_unaliased ha hl h8 hin hgrant, fun hallow => ?allowed,
    fun ⟨w, h8, hin, hgrant, halias⟩ => State.fabVerdict_allowed ha hl h8 hin hgrant halias⟩⟩
  case allowed =>
    by_contra hnone
    obtain ⟨k, hk⟩ := State.fabVerdict_refused ha hl hnone
    rw [hk] at hallow
    exact nomatch hallow

end Sys2Proof.Machine
end

section
/-!
SUPPORT. The ingress FIFOs (R157 to R164, R172, R175, R177, R407): what leaves them, the aperture's requests, and doorbells.
-/

namespace Sys2Proof.Machine

section
variable {s : State} (hrun : s.ingRuns = true)
include hrun

/-! ### VFT packets (R160, R172) -/

/-- The packet at the head of port 0's FIFO leaves it. -/
theorem exec_vftRows_port0 {p : VftPkt} {ps : List VftPkt} (hq : s.ing.q0 = p :: ps) : exec (.vftRows 0) s
    = .next (((({ s with ing := { s.ing with q0 := ps } }.lastPop 0 (padWords p.bytes)).fifoEval 0)).vftTake p) := by
  simp [exec, execVftRows, State.vftHead, State.vftPop, hrun, hq]

/-- The packet at the head of port 1's FIFO leaves it. -/
theorem exec_vftRows_port1 {p : VftPkt} {ps : List VftPkt} (hq : s.ing.q1 = p :: ps) : exec (.vftRows 1) s
    = .next (((({ s with ing := { s.ing with q1 := ps } }.lastPop 1 (padWords p.bytes)).fifoEval 1)).vftTake p) := by
  simp [exec, execVftRows, State.vftHead, State.vftPop, hrun, hq]

/-! ### Writes of the aperture (R163) -/

/-- The write at the head of FIFO 2 leaves it. -/
theorem exec_apertureWrite_head {off : Nat} {bs : List Byte} {rest : List AptItem} (hq : s.ing.q2 = .tlp off bs :: rest) :
    exec .apertureWrite s
      = .next (((({ s with ing := { s.ing with q2 := rest } }.lastPop 2 (padWords bs)).fifoEval 2)).aptTake off bs) := by
  simp [exec, execApertureWrite, State.aptHead, State.aptPop, hrun, hq]

/-! ### Doorbells (R164, R175) -/

theorem exec_ingDb_queues (w : Word) :
    exec (.ingDb w) s = .next { s with ing := { s.ing with q2 := s.ing.q2 ++ [.db w] } } := by
  simp only [State.ingRuns, Bool.and_eq_true, beq_iff_eq, Bool.not_eq_true'] at hrun
  obtain ⟨hst, hclk⟩ := hrun
  simp only [exec, execIngDb, State.awake, hst, hclk]
  rfl

/-- The doorbell at the head of FIFO 2 leaves it, and is discarded and counted. -/
theorem exec_doorbell_discarded {w : Word} {rest : List AptItem} {r : Nat} (hq : s.ing.q2 = .db w :: rest)
    (h : ({ s with ing := { s.ing with q2 := rest } } : State).dbReason w.toNat = some r) :
    exec .doorbell s = .next (({ s with ing := { s.ing with q2 := rest } } : State).ingDrop r) := by
  simp only [exec, execDoorbell, hq, hrun, h, Bool.not_true, Bool.false_eq_true, if_false]

/-- The doorbell at the head of FIFO 2 leaves it, and takes effect. -/
theorem exec_doorbell_accepted {w : Word} {rest : List AptItem} (hq : s.ing.q2 = .db w :: rest)
    (h : ({ s with ing := { s.ing with q2 := rest } } : State).dbReason w.toNat = none) :
    exec .doorbell s = .next (({ s with ing := { s.ing with q2 := rest } } : State).dbAccept w.toNat).wakeRuns := by
  simp only [exec, execDoorbell, hq, hrun, h, Bool.not_true, Bool.false_eq_true, if_false]

end

section
variable {s : State} {off : Nat} {bs : List Byte}

/-- The groups of a TLP of 8 aligned bytes: the one at its offset. -/
theorem aptGroups_single (hoff : off % 8 = 0) : (range2 (off / 8) (ceilDiv (off + 8) 8)).map (8 * ·) = [off] := by
  have hone : ceilDiv (off + 8) 8 - off / 8 = 1 := by
    unfold ceilDiv
    omega
  have hback : 8 * (off / 8) = off := by omega
  simp [range2, hone, hback]

theorem State.aptTake_written (s : State) (hoff : off % 8 = 0) (hlen : bs.length = 8)
    (h : s.aptReason off off (off + 8) = none) : s.aptTake off bs = s.aptWrite off bs := by
  have hslice : slice bs (off - off) 8 = bs := by simp [slice, ← hlen]
  simp only [State.aptTake, hlen, aptGroups_single hoff, List.filterMap_cons, List.filterMap_nil, List.foldl_cons, List.foldl_nil, h,
    Option.isNone_none, if_true, hslice]
  rfl

theorem State.aptTake_discarded (s : State) {r : Nat} (hoff : off % 8 = 0) (hlen : bs.length = 8)
    (h : s.aptReason off off (off + 8) = some r) : s.aptTake off bs = s.ingDrop (aptDrop r) := by
  simp only [State.aptTake, hlen, aptGroups_single hoff, List.filterMap_cons, List.filterMap_nil, List.foldl_cons, List.foldl_nil, h,
    Option.isNone_some, Bool.false_eq_true, if_false]
  rfl

/-! ### The aperture's requests (R103, R105, R163, R172) -/

section
variable (hbar : s.hostBar 4 = true)
include hbar

/-- A read completes with zeros, or with an abort before the lock and while the function is frozen. -/
theorem exec_apertureTlpArrival_read {n : Nat} (hn : 1 ≤ n) (hend : off + max n bs.length ≤ aptTop) :
    exec (.apertureTlpArrival off n bs) s = .next { s with outs := { s.outs with
      bar4 := if s.isFrozen 0xC4 = true ∨ s.fab.lock = false then none else some (List.replicate n 0) } } := by
  have hn' : n ≠ 0 := by omega
  simp [exec, execApertureTlpArrival, hbar, hn', hend]

variable (hend : off + bs.length ≤ aptTop)
include hend

/-- A write before the lock, or while the function is frozen, is discarded. -/
theorem exec_apertureTlpArrival_discarded (h : s.isFrozen 0xC4 = true ∨ s.fab.lock = false) :
    exec (.apertureTlpArrival off 0 bs) s = .next s := by
  rcases h with h | h <;> simp [exec, execApertureTlpArrival, hbar, hend, h]

/-- A write is presented to FIFO 2. -/
theorem exec_apertureTlpArrival_write (hrun : s.ingRuns = true) (hopen : s.isFrozen 0xC4 = false) (hlock : s.fab.lock = true) :
    exec (.apertureTlpArrival off 0 bs) s = .next ((s.aptArrive off bs).fifoEval 2) := by
  simp [exec, execApertureTlpArrival, hbar, hend, hrun, hopen, hlock]

end

end

/-- Settles O19: the head of a FIFO leaves it and is judged; a request of the aperture by its kind and by the room that FIFO 2 has. -/
theorem ingressFifos : Obligations.IngressFifos := by
  unfold Obligations.IngressFifos
  intro s p ps off bs w rest r hrun
  refine ⟨fun hq => ?port0, fun hq => ?port1, fun hq hoff hlen => ?aperture, exec_ingDb_queues hrun w, 
    fun hq => ⟨exec_doorbell_discarded hrun hq, exec_doorbell_accepted hrun hq⟩,
    fun hbar hend => ⟨fun hopen hlock hfits => ?enters, fun hopen hlock hfull => ?stays, fun n hn hend' => ?read,
      exec_apertureTlpArrival_discarded hbar hend⟩⟩
  case port0 =>
    intro u
    rw [exec_vftRows_port0 hrun hq]
    exact ⟨fun h => by rw [State.vftTake, h], fun h => by rw [State.vftTake, h]⟩
  case port1 =>
    intro u
    rw [exec_vftRows_port1 hrun hq]
    exact ⟨fun h => by rw [State.vftTake, h], fun h => by rw [State.vftTake, h]⟩
  case aperture =>
    intro u
    rw [exec_apertureWrite_head hrun hq]
    exact ⟨fun h => by rw [State.aptTake_written _ hoff hlen h], fun h => by rw [State.aptTake_discarded _ hoff hlen h]⟩
  case enters =>
    intro u
    rw [exec_apertureTlpArrival_write hbar hend hrun hopen hlock, State.aptArrive, if_pos hfits]
    exact ⟨fun h => by rw [if_neg (Nat.not_lt.mpr h)], fun h => by rw [if_pos h]⟩
  case stays =>
    rw [exec_apertureTlpArrival_write hbar hend hrun hopen hlock, State.aptArrive, if_neg (Nat.not_le.mpr hfull)]
  case read => exact exec_apertureTlpArrival_read hbar hn (by rw [aptTop]; omega)

end Sys2Proof.Machine
end

section
/-!
SUPPORT. The fabric (R101 to R106, R110, R111, R386, R410, R489): one transaction on a fabric where none waits, and the registers of FAB
and SEC.
-/

namespace Sys2Proof.Machine

/-! ### One transaction (R101 to R105) -/

/-- A cycle of the fabric begins without responses. -/
def State.fabFresh (s : State) : State := { s with fab := { s.fab with resps := [] } }

/-- What becomes of a cycle's transaction at an open port, by the firewall's verdict. -/
def State.fabJudged (s : State) (r : FabReq) : Verdict → State × List (Nat × Nat)
  | .allow => (s.fabFresh.fabPerform r, [])
  | .abort => (s.fabFresh.fabRespond r.master true [], [])
  | .violation k =>
    (({ s with fab := { s.fab with
        frozen := s.fab.frozen.set false r.master true
        resps := [{ master := r.master, err := true, data := [] }] } } : State).fabCancel r.master, [(r.master, k)])

section
variable {s : State} {r : FabReq}

/-- A cycle of one transaction, on a fabric where none waits. -/
theorem exec_fabricTransaction_single (hst : s.glb.st ≠ .reset) (hw : s.fab.waiting = []) :
    exec (.fabricTransaction [r]) s
      = .next ((State.fabOne (s.fabFresh, []) r).1.fabViolations (State.fabOne (s.fabFresh, []) r).2) := by
  have hfresh : ({ s with fab := { s.fab with resps := [], waiting := [] } } : State) = s.fabFresh := by
    rw [← hw]
    rfl
  have hawake : s.awake = true := by simpa [State.awake] using hst
  rw [← hfresh]
  simp only [exec, execFabricTransaction, hawake, hw]
  rfl

/-- Without a violation a cycle leaves what its transaction leaves. -/
theorem exec_fabricTransaction_next {t : State} (hst : s.glb.st ≠ .reset) (hw : s.fab.waiting = [])
    (h : State.fabOne (s.fabFresh, []) r = (t, [])) : exec (.fabricTransaction [r]) s = .next t := by
  rw [exec_fabricTransaction_single hst hw, h]
  rfl

section
variable (hm : masterIssued r.master = true)
include hm

/-- A closed port keeps what its master issues. -/
theorem State.fabOne_closed (hne : r.master ≠ 0xC4) (hclosed : s.portClosed r.master = true) :
    State.fabOne (s.fabFresh, []) r = ({ s with fab := { s.fab with resps := [], held := s.fab.held ++ [r] } }, []) := by
  have hclosed' : s.fabFresh.portClosed r.master = true := hclosed
  simp only [State.fabOne, hm, hne, hclosed', Bool.not_true, Bool.false_eq_true, false_and, if_false, if_true]
  rfl

/-- BAR4 is not decoded. -/
theorem State.fabOne_unreached (hbar2 : r.bar2 = false) (hhost : r.master = 0xC4) (hbar : s.hostBar 4 = false) :
    State.fabOne (s.fabFresh, []) r = (s.fabFresh.unreached 4, []) := by
  have hbar' : s.fabFresh.hostBar 4 = false := hbar
  rw [hhost] at hm
  simp [State.fabOne, hm, hhost, hbar2, hbar']

/-- A request of the host to BAR2 does not meet the firewall. -/
theorem State.fabOne_bar2 (hbar2 : r.bar2 = true) (hhost : r.master = 0xC4) :
    State.fabOne (s.fabFresh, []) r = (s.fabFresh.fabBar2 r, []) := by
  rw [hhost] at hm
  simp [State.fabOne, hm, hhost, hbar2]

/-- At an open port the firewall decides. -/
theorem State.fabOne_open (hbar2 : r.bar2 = false) (hopen : s.portClosed r.master = false)
    (hbar : r.master = 0xC4 → s.hostBar 4 = true) : State.fabOne (s.fabFresh, []) r = s.fabJudged r (s.fabVerdict r) := by
  have hopen' : s.fabFresh.portClosed r.master = false := hopen
  have hverdict : s.fabFresh.fabVerdict r = s.fabVerdict r := rfl
  have hbar' : ¬ (r.master = 0xC4 ∧ (!s.fabFresh.hostBar 4) = true) := by
    rintro ⟨hhost, h⟩
    have hb : s.fabFresh.hostBar 4 = true := hbar hhost
    simp [hb] at h
  simp only [State.fabOne, hm, hbar2, hopen', hverdict, Bool.not_true, Bool.false_eq_true, and_false, if_false, if_neg hbar']
  cases s.fabVerdict r <;> rfl

end

/-- Before the lock the PCIe function's requests are aborted (R103). -/
theorem State.fabVerdict_unlocked (hl : s.fab.lock = false) (ha : aliasOf r.addr ≠ 3) (hhost : r.master = 0xC4) :
    s.fabVerdict r = .abort := by
  simp [State.fabVerdict, hl, ha, hhost]

/-! ### An allowed transaction at its target (R105, R385, R386, R466) -/

section
variable {g : Nat} (hg : s.rangeMeets (plainOf r.addr) r.len r.write = .served g)
include hg

theorem State.fabPerform_write (hw : r.write = true) : s.fabFresh.fabPerform r
    = (s.fabFresh.accWrite (aliasOf r.addr) (plainOf r.addr) r.data).fabRespond r.master false [] := by
  have hg' : s.fabFresh.rangeMeets (plainOf r.addr) r.len r.write = .served g := hg
  simp only [State.fabPerform, hg', if_pos hw]

theorem State.fabPerform_read (hw : r.write = false) : s.fabFresh.fabPerform r = s.fabFresh.fabRead r (plainOf r.addr) := by
  have hg' : s.fabFresh.rangeMeets (plainOf r.addr) r.len r.write = .served g := hg
  have hw' : ¬ r.write = true := by simp [hw]
  simp only [State.fabPerform, hg', if_neg hw']

end

theorem State.fabPerform_wait (hw : s.fab.waiting = []) (h : s.rangeMeets (plainOf r.addr) r.len r.write = .wait) :
    s.fabFresh.fabPerform r = { s with fab := { s.fab with resps := [], waiting := [r] } } := by
  have h' : s.fabFresh.rangeMeets (plainOf r.addr) r.len r.write = .wait := h
  have hwait : s.fabFresh.fab.waiting = [] := hw
  simp only [State.fabPerform, h', hwait]
  rfl

theorem State.fabRead_clean (a : Nat) (h : r.ecc = .clean) :
    s.fabRead r a = s.fabRespond r.master false (s.accRead a r.len) := by
  unfold State.fabRead
  rw [h]
  cases spadOf a <;> rfl

theorem State.fabRead_single {a p : Nat} (h : r.ecc = .single) (hp : spadOf a = some p) :
    s.fabRead r a = (s.fabRespond r.master false (s.accRead a r.len)).raise (spadCe p) := by
  simp only [State.fabRead, h, hp]

/-! ### BAR2 (R105, R410, R489) -/

theorem State.fabBar2_unreached (h : s.hostBar 2 = false) : s.fabBar2 r = s.unreached 2 := by
  simp [State.fabBar2, h]

/-- The host's request reaches BAR2's memory while its port is open. -/
theorem State.fabBar2_reached (hbar : s.hostBar 2 = true) (hin : r.addr + r.len ≤ bar2Len) (hclk : s.stopped 8 = false)
    (hopen : s.isFrozen 0xC4 = false) : s.fabBar2 r
    = if r.write then (s.bar2Write r.addr r.data).hostCpl 0 else (s.fabRespond 0xC4 false (s.bar2Read r.addr r.len)).hostCpl 0 := by
  simp [State.fabBar2, hbar, Nat.not_lt.mpr hin, hclk, hopen]

end

/-! ### The registers of FAB and SEC (R106, R110, R111) -/

/-- Responses of a list of requests that are discarded. -/
theorem foldl_fabRespond_eq (l : List FabReq) (s : State) : l.foldl (fun s r => s.fabRespond r.master true []) s
    = { s with fab := { s.fab with resps := s.fab.resps ++ l.map fun r => { master := r.master, err := true, data := [] } } } := by
  induction l generalizing s with
  | nil => simp
  | cons r l ih =>
    rw [List.foldl_cons, ih]
    simp [State.fabRespond]

section
variable {s : State} (hst : s.glb.st ≠ .reset)
include hst

theorem State.awake_of_ne : s.awake = true := by simpa [State.awake] using hst

theorem exec_fabLock_sets (hload : s.glb.st ≠ .loadfail) :
    exec .fabLock s = .next { s with fab := { s.fab with lock := true } } := by
  simp [exec, execFabLock, State.awake_of_ne hst, hload]

theorem exec_fabUnfreeze_opens {m : Nat} (hm : masterIssued m = true) (hne : m ≠ 0xC5) (hfrozen : s.fab.frozen.get false m = true) :
    exec (.fabUnfreeze m) s = .next { s with fab := { s.fab with
      held := s.fab.held.filter fun r => r.master != m
      resps := (s.fab.held.filter fun r => r.master == m).map fun _ => { master := m, err := true, data := [] }
      frozen := s.fab.frozen.set false m false } } := by
  have hmine : ((s.fab.held.filter fun r => r.master == m).map fun r => ({ master := r.master, err := true, data := [] } : FabResp))
      = (s.fab.held.filter fun r => r.master == m).map fun _ => { master := m, err := true, data := [] } :=
    List.map_congr_left fun r hr => by
      rw [beq_iff_eq.mp (List.mem_filter.mp hr).2]
  simp [exec, execFabUnfreeze, State.awake_of_ne hst, hm, hne, hfrozen, State.fabDiscard, foldl_fabRespond_eq, hmine]

end

section
variable (s : State)

/-- FAB_VIOL_LAST and the word below it are no counters. -/
theorem State.counterAt_violLast : s.counterAt 0x70008 = none ∧ s.counterAt 0x70004 = none := by
  simp [State.counterAt, entryOf]

theorem State.read4_violLast : (s.read4 .host 0x70008).2 = { s with
    fab := { s.fab with violCnt := 0 }
    outs := { s.outs with bar0 := s.fabViolLast, lastHost := some 0x70008 } } := by
  obtain ⟨hown, hbelow⟩ := s.counterAt_violLast
  have hruns : s.regRuns 0x70008 = true := by simp [State.regRuns, regIsland]
  have hword : s.regWord 0x70008 = s.fabViolLast := by
    simp [State.regWord, hruns, hown, hbelow, State.plainWord, State.regFab]
  have heffect : s.readEffect 0x70008 = { s with fab := { s.fab with violCnt := 0 } } := by simp [State.readEffect, hruns]
  simp [State.read4, hown, hbelow, hword, heffect, Outs.readBy]

theorem State.read4_keyStat (hclk : s.stopped 7 = false) : (s.read4 .host 0x300C0).2.sec = { s.sec with failCnt := 0 }
    ∧ (s.read4 .host 0x300C0).2.outs.lastHost = some 0x300C0 := by
  have hruns : s.regRuns 0x300C0 = true := by simp [State.regRuns, regIsland, hclk]
  exact ⟨by simp [State.read4, State.readEffect, hruns], rfl⟩

end

/-- Settles O33: a transaction by its port, its BAR, the verdict and its target; the registers one by one. -/
theorem fabricTransactions : Obligations.FabricTransactions := by
  unfold Obligations.FabricTransactions
  refine ⟨fun s r hst hw hm => ?transaction, fun s m hst => ?registers⟩
  case transaction =>
    intro u a
    refine ⟨fun hclosed hne => exec_fabricTransaction_next hst hw (State.fabOne_closed hm hne hclosed), fun hopen hbar2 hbar => ?_,
      fun hhost hbar2 hbar => exec_fabricTransaction_next hst hw (State.fabOne_unreached hm hbar2 hhost hbar),
      fun hhost hbar2 => ?bar2⟩
    · have hone := State.fabOne_open hm hbar2 hopen hbar
      have hallowed {t : State} (hv : s.fabVerdict r = .allow) (ht : s.fabFresh.fabPerform r = t) :
          exec (.fabricTransaction [r]) s = .next t :=
        exec_fabricTransaction_next hst hw (by rw [hone, hv, ← ht]; rfl)
      refine ⟨fun hl hhost ha => ?aborted,
        fun hv g hg => ⟨fun hread hecc => ?clean, fun p hread hecc hp => ?single, fun hwrite => ?write⟩,
        fun hv hwait => hallowed hv (State.fabPerform_wait hw hwait), fun k hv => ?violation⟩
      case aborted =>
        refine exec_fabricTransaction_next hst hw ?_
        rw [hone, State.fabVerdict_unlocked hl ha hhost, ← hhost]
        rfl
      case clean => exact hallowed hv ((State.fabPerform_read hg hread).trans (State.fabRead_clean _ hecc))
      case single => exact hallowed hv ((State.fabPerform_read hg hread).trans (State.fabRead_single hecc hp))
      case write => exact hallowed hv (State.fabPerform_write hg hwrite)
      case violation =>
        rw [exec_fabricTransaction_single hst hw, hone, hv]
        rfl
    case bar2 =>
      have hone := State.fabOne_bar2 (s := s) hm hbar2 hhost
      refine ⟨fun hbar => ?_, fun hbar hin hclk hfree => ?_⟩
      · exact exec_fabricTransaction_next hst hw (hone.trans (by rw [State.fabBar2_unreached (s := s.fabFresh) hbar]; rfl))
      · have hreached := State.fabBar2_reached (s := s.fabFresh) (r := r) hbar hin hclk hfree
        refine ⟨fun hwrite => ?_, fun hread => ?_⟩
        · exact exec_fabricTransaction_next hst hw (hone.trans (by rw [hreached, if_pos hwrite]; rfl))
        · exact exec_fabricTransaction_next hst hw (hone.trans (by rw [hreached, hread]; rfl))
  case registers =>
    refine ⟨exec_fabLock_sets hst, fun hload => ?loadfail, fun hm hne hfrozen => ?unfreeze, ?debug, fun hbar => ?violLast,
      fun hbar hclk => ?keyStat, fun hbar => ?unreached⟩
    case loadfail => simp [exec, execFabLock, hload]
    case unfreeze => exact ⟨_, exec_fabUnfreeze_opens hst hm hne hfrozen, rfl, rfl, rfl, rfl, rfl, rfl, rfl⟩
    case debug => simp [exec, execFabUnfreeze]
    case violLast =>
      have hreach : s.reaches .host = true := hbar
      have hexec : exec .fabViolLastRead s = .next ((s.read4 .host 0x70008).2.hostCpl 0) := by
        simp only [exec, execFabViolLastRead, hreach, if_true]
      refine ⟨_, hexec, ?_⟩
      rw [State.read4_violLast]
      exact ⟨rfl, rfl, rfl⟩
    case keyStat =>
      have hreach : s.reaches .host = true := hbar
      have hexec : exec .secKeyStatRead s = .next ((s.read4 .host 0x300C0).2.hostCpl 0) := by
        simp only [exec, execSecKeyStatRead, hreach, if_true]
      exact ⟨_, hexec, s.read4_keyStat hclk⟩
    case unreached =>
      have hreach : s.reaches .host = false := hbar
      constructor
      · simp only [exec, execFabViolLastRead, hreach, Bool.false_eq_true, if_false]
      · simp only [exec, execSecKeyStatRead, hreach, Bool.false_eq_true, if_false]

end Sys2Proof.Machine
end

section
/-!
SUPPORT. Reads and writes of BAR0 (R110, R148, R417, R483, R484, R486, R489).
-/

namespace Sys2Proof.Machine

/-! ### STATS_READ and GET_STATS (R417) -/

section
variable {s : State} {h : CmdHdr} {off dst len : Nat}

theorem State.stats_denied (hm : s.masters = false) : s.stats h off dst len = s.complete h .denied := by
  simp only [State.stats, hm, Bool.not_false, if_true]

theorem State.stats_short (hm : s.masters = true) (hlen : len < 8) : s.stats h off dst len = s.complete h .badArg := by
  have hbad : off % 8 ≠ 0 ∨ len % 8 ≠ 0 ∨ len < 8 ∨ 65536 < len ∨ bar0Len < off + len := .inr (.inr (.inl hlen))
  simp only [State.stats, hm, Bool.not_true, Bool.false_eq_true, if_false, if_pos hbad]

/-- The words of a range that is as it must be are written to host memory, whose other bytes no read of a register changes. -/
theorem State.stats_host (hm : s.masters = true) (hoff : off % 8 = 0) (hlen : len % 8 = 0) (hmin : 8 ≤ len) (hmax : len ≤ 65536)
    (hend : off + len ≤ bar0Len) :
    (s.stats h off dst len).host = s.host.setList 0 dst (State.copyRegs (len / 4) off s).1 := by
  have hok : ¬ (off % 8 ≠ 0 ∨ len % 8 ≠ 0 ∨ len < 8 ∨ 65536 < len ∨ bar0Len < off + len) := by omega
  have hhost : (State.copyRegs (len / 4) off s).2.host = s.host := congrArg Quiet.host (State.copyRegs_quiet _ _ s)
  simp only [State.stats, hm, Bool.not_true, Bool.false_eq_true, if_false, if_neg hok]
  rw [State.complete_frame, ← hhost]

end

/-! ### Counters (R486) -/

section
variable {s : State} {who : Requester} {off n : Nat} {c : Cnt}

theorem State.readEffect_outs (s : State) (off : Nat) : (s.readEffect off).outs = s.outs := by
  unfold State.readEffect
  repeat' split
  all_goals rfl

theorem Outs.readBy_latch (o : Outs) (who : Requester) (off : Option Nat) : (o.readBy who off).latch = o.latch := by
  cases who <;> rfl

theorem State.answered_outs (s : State) (who : Requester) : (s.answered who).outs.latch = s.outs.latch
    ∧ (s.answered who).outs.bar0 = s.outs.bar0 := by
  cases who <;> exact ⟨rfl, rfl⟩

/-- A read of a counter's lower word latches the upper one. -/
theorem State.read4_latch (hr : s.regRuns off = true) (hc : s.counterAt off = some (n, c)) :
    (s.read4 who off).2.outs.latch = s.outs.latch.set 0 n (c.toNat / 2 ^ 32) := by
  simp only [State.read4, hc, hr, if_true]

theorem State.regWord_lower (hr : s.regRuns off = true) (hc : s.counterAt off = some (n, c)) :
    s.regWord off = c.toNat % 2 ^ 32 := by
  simp [State.regWord, hr, hc]

theorem State.regWord_upper (hr : s.regRuns (off + 4) = true) (hc : s.counterAt off = some (n, c))
    (hnone : s.counterAt (off + 4) = none) : s.regWord (off + 4) = c.toNat / 2 ^ 32 := by
  simp [State.regWord, hr, hc, hnone]

/-- A read of 8 bytes takes both words of a counter as they stand, and latches nothing. -/
theorem State.read8_counter (hr : s.regRuns off = true) (hr' : s.regRuns (off + 4) = true) (hc : s.counterAt off = some (n, c))
    (hnone : s.counterAt (off + 4) = none) :
    (s.read8 who off).outs.bar0 = c.toNat ∧ (s.read8 who off).outs.latch = s.outs.latch := by
  constructor
  · show s.regWord (off + 4) * 2 ^ 32 + s.regWord off = c.toNat
    rw [State.regWord_lower hr hc, State.regWord_upper hr' hc hnone]
    exact Nat.div_add_mod' _ _
  · show (((s.readEffect off).readEffect (off + 4)).outs.readBy who none).latch = s.outs.latch
    rw [Outs.readBy_latch, State.readEffect_outs, State.readEffect_outs]

end

/-! ### Requests of BAR0 (R483, R489) -/

section
variable {s : State} {who : Requester} {off : Nat}

theorem exec_counterLowRead_off (h : s.reaches who = false ∨ bar0Len ≤ off) (len : Nat) :
    exec (.counterLowRead who off len) s = .next (s.offBar0 who) := by
  have hoff : (!s.reaches who) = true ∨ 2 ^ 26 ≤ off := h.imp_left fun e => by rw [e]; rfl
  simp only [exec, execCounterLowRead, if_pos hoff]

theorem exec_registerWrite_off (h : s.reaches who = false ∨ bar0Len ≤ off) (len : Nat) (v : BitVec 64) (partialBe : Bool) :
    exec (.registerWrite who off len v partialBe) s = .next (s.offBar0 who) := by
  have hoff : (!s.reaches who) = true ∨ bar0Len ≤ off := h.imp_left fun e => by rw [e]; rfl
  simp only [exec, execRegisterWrite, if_pos hoff]

section
variable (hreach : s.reaches who = true) (hin : off < bar0Len)
include hreach hin

theorem State.onBar0 : ¬ ((!s.reaches who) = true ∨ bar0Len ≤ off) := by
  rintro (h | h)
  · simp [hreach] at h
  · omega

theorem exec_counterLowRead_word (hal : off % 4 = 0) :
    exec (.counterLowRead who off) s = .next ((s.read4 who off).2.answered who) := by
  have hon : ¬ ((!s.reaches who) = true ∨ 2 ^ 26 ≤ off) := State.onBar0 hreach hin
  simp only [exec, execCounterLowRead, if_neg hon, hal, and_self, if_true]

theorem exec_counterLowRead_pair (hal : off % 8 = 0) :
    exec (.counterLowRead who off 8) s = .next ((s.read8 who off).answered who) := by
  have hon : ¬ ((!s.reaches who) = true ∨ 2 ^ 26 ≤ off) := State.onBar0 hreach hin
  have hpair : ¬ (8 = 4 ∧ off % 4 = 0) := by omega
  simp only [exec, execCounterLowRead, if_neg hon, if_neg hpair, hal, and_self, if_true]

theorem exec_registerWrite_word (hal : off % 4 = 0) (v : BitVec 64) :
    exec (.registerWrite who off 4 v) s = .next ((s.write4 who off (v.toNat % 2 ^ 32)).answered who) := by
  simp only [exec, execRegisterWrite, if_neg (State.onBar0 hreach hin), hal, and_self, if_true, Bool.false_eq_true, if_false]

theorem exec_registerWrite_pair (hal : off % 8 = 0) (v : BitVec 64) : exec (.registerWrite who off 8 v) s
    = .next (((s.write4 who off (v.toNat % 2 ^ 32)).write4 who (off + 4) (v.toNat / 2 ^ 32)).answered who) := by
  have hpair : ¬ (8 = 4 ∧ off % 4 = 0) := by omega
  simp only [exec, execRegisterWrite, if_neg (State.onBar0 hreach hin), if_neg hpair, hal, and_self, if_true, Bool.false_eq_true,
    if_false]

theorem exec_registerWrite_partial (len : Nat) (v : BitVec 64) :
    exec (.registerWrite who off len v true) s = .next (s.refusedAccess who) := by
  simp only [exec, execRegisterWrite, if_neg (State.onBar0 hreach hin), if_true]

/-- Only 4 aligned bytes, or 8, are a size and alignment that BAR0 accepts. -/
theorem exec_bar0_misfit {len : Nat} (v : BitVec 64) (h : len ≠ 4 ∧ len ≠ 8 ∨ off % 4 ≠ 0 ∨ len = 8 ∧ off % 8 ≠ 0) :
    exec (.registerWrite who off len v) s = .next (s.refusedAccess who)
      ∧ exec (.counterLowRead who off len) s = .next (s.refusedAccess who) := by
  have hon : ¬ ((!s.reaches who) = true ∨ 2 ^ 26 ≤ off) := State.onBar0 hreach hin
  have h4 : ¬ (len = 4 ∧ off % 4 = 0) := by omega
  have h8 : ¬ (len = 8 ∧ off % 8 = 0) := by omega
  constructor
  · simp only [exec, execRegisterWrite, if_neg (State.onBar0 hreach hin), if_neg h4, if_neg h8, Bool.false_eq_true, if_false]
  · simp only [exec, execCounterLowRead, if_neg hon, if_neg h4, if_neg h8]

end

/-- PTP_CFG is a register of plain fields (R148). -/
theorem State.write4_ptpCfg (s : State) (who : Requester) (w : Nat) : s.write4 who 0x100010 w = { s with ptp := { s.ptp with
    holdoverS := bitsOf w 24 8, ppsInEn := bitOf w 16, stepUs := bitsOf w 0 16 } } := by
  simp [State.write4, State.regRuns, regIsland, State.writeRota]

end

/-- Settles O53: the statistics by `stats_host`, a request of BAR0 by whether it reaches it and by its size and alignment. -/
theorem registers : Obligations.Registers := by
  unfold Obligations.Registers
  intro s h off dst len n c v who on
  refine ⟨fun hm hoff hlen hmin hmax hend hs => ?stats, fun hm hlen hs => ?short, fun hm hs => ?denied, fun hm hn hlen hmin hs => ?channel,
    fun hreach hal hin hr hc => ?lower, fun hreach hal hin hr hr' hc hnone => ?both,
    fun hoff => ⟨exec_counterLowRead_off hoff 4, exec_registerWrite_off hoff len v false⟩,
    fun hreach hin => ⟨exec_bar0_misfit hreach hin v, exec_registerWrite_partial hreach hin len v⟩,
    fun hreach hal hin => exec_registerWrite_word hreach hin hal v, fun hreach hal hin => exec_registerWrite_pair hreach hin hal v,
    fun hreach => ?plain⟩
  case stats => exact ⟨_, exec_of_serving hs rfl rfl, State.stats_host hm hoff hlen hmin hmax hend⟩
  case short => exact exec_of_serving hs rfl (State.stats_short hm hlen)
  case denied => exact exec_of_serving hs rfl (State.stats_denied hm)
  case channel =>
    exact ⟨_, exec_of_serving hs rfl rfl,
      State.stats_host hm (by omega) (by omega) (by omega) (by omega) (by rw [bar0Len]; omega)⟩
  case lower =>
    refine ⟨_, exec_counterLowRead_word hreach hin hal, ?_⟩
    rw [(State.answered_outs _ who).1, State.read4_latch hr hc]
  case both =>
    obtain ⟨hbar0, hlatch⟩ := State.read8_counter (who := who) hr hr' hc hnone
    obtain ⟨hlatch', hbar0'⟩ := State.answered_outs (s.read8 who off) who
    exact ⟨_, exec_counterLowRead_pair hreach hin hal, hbar0'.trans hbar0, hlatch'.trans hlatch⟩
  case plain =>
    rw [exec_registerWrite_word hreach (by decide) (by decide), State.write4_ptpCfg]

end Sys2Proof.Machine
end

section
/-!
SUPPORT. What an error response does to its master (R358, R447) leaves the granary's queues as they are, and clears no sticky bit.
-/

namespace Sys2Proof.Machine

/-- The read and write queues of the granary's positions (R355, R356). -/
def State.granQ (s : State) : Tbl (List QRead) × Tbl (List GranAcc) := (s.hbm.rq, s.hbm.wq)

@[simp] theorem ite_granQ {c : Prop} [Decidable c] (a b : State) :
    (if c then a else b).granQ = if c then a.granQ else b.granQ := apply_ite ..

section
variable (s : State)

/-! ### Completions, exceptions and the entry into SAFE -/

@[simp] theorem State.irqEvent_granQ (n : Nat) : (s.irqEvent n).granQ = s.granQ := by rw [State.irqEvent_frame]; rfl
@[simp] theorem State.post_granQ (c : Cpl) : (s.post c).granQ = s.granQ := by rw [State.post_frame]; rfl
@[simp] theorem State.finish_granQ (c : Cpl) (b : Bool) : (s.finish c b).granQ = s.granQ := by
  rw [State.finish_frame s c b]; rfl
@[simp] theorem State.sendPfc_granQ (p m q : Nat) : (s.sendPfc p m q).granQ = s.granQ := by rw [State.sendPfc_frame]; rfl
@[simp] theorem State.fifoEval_granQ (f : Nat) : (s.fifoEval f).granQ = s.granQ := by rw [State.fifoEval_frame]; rfl

@[simp] theorem State.queueExc_granQ (p : ExcPkt) : (s.queueExc p).granQ = s.granQ := by
  unfold State.queueExc
  dsimp only
  split
  · split
    · exact State.irqEvent_granQ _ _
    · rfl
  · rfl

@[simp] theorem State.packetExc_granQ (k r : Nat) (c : PeCtx) : (s.packetExc k r c).granQ = s.granQ := by
  unfold State.packetExc
  dsimp only
  split
  · rfl
  · exact State.queueExc_granQ _ _

@[simp] theorem State.stacksRest_granQ : s.stacksRest.granQ = s.granQ :=
  foldl_keeps State.granQ (fun s k => by dsimp only; split <;> rfl) _ s

@[simp] theorem State.swapDenied_granQ : s.swapDenied.granQ = s.granQ := by
  unfold State.swapDenied
  split
  · rfl
  · split
    · rfl
    · exact State.finish_granQ _ _ _

@[simp] theorem State.fetchOne_granQ : s.fetchOne.granQ = s.granQ := by
  unfold State.fetchOne
  dsimp only
  split
  · rfl
  · exact State.post_granQ _ _

@[simp] theorem State.fetchUpTo_granQ (n : Nat) (s : State) : (State.fetchUpTo n s).granQ = s.granQ := by
  induction n generalizing s with
  | zero => rfl
  | succ n ih =>
    unfold State.fetchUpTo
    split
    · rw [ih, State.fetchOne_granQ]
    · rfl

@[simp] theorem State.enterSafe_granQ : s.enterSafe.granQ = s.granQ := by
  unfold State.enterSafe
  split
  · rfl
  · split
    · rw [State.fetch, State.fetchUpTo_granQ, State.swapDenied_granQ, State.stacksRest_granQ, State.sendPfc_granQ,
        State.sendPfc_granQ, State.irqEvent_granQ]
      rfl
    · rfl

@[simp] theorem State.react_granQ (n : Nat) (u : Option Nat) (held mute : Bool) : (s.react n u held mute).2.granQ = s.granQ := by
  obtain ⟨f, -, h | ⟨l, h⟩⟩ := State.react_cases s n u held mute
  · rw [h]; rfl
  · rw [h, State.fltNotify_eq]
    split
    · rw [State.enterSafe_granQ, State.irqEvent_granQ]; rfl
    · rw [State.irqEvent_granQ]; rfl

/-- An event of a source whose FAILOVER moves nothing. -/
theorem State.raise_granQ {n : Nat} (hk : fltKind n = none) (hg : n < 0x040 ∨ 0x060 ≤ n) : (s.raise n).granQ = s.granQ := by
  cases h : s.canRise n with
  | false => rw [State.raise_held s h]
  | true => rw [State.raise_plain s h hk hg, State.react_granQ]

/-! ### Decode contexts and PTP -/

@[simp] theorem State.queueUnit_granQ (x len ts : Nat) (loss : Bool) : (s.queueUnit x len ts loss).granQ = s.granQ := by
  unfold State.queueUnit
  dsimp only
  split <;> rfl

@[simp] theorem State.ringPut_granQ (x : Nat) (bs : List Byte) : (s.ringPut x bs).granQ = s.granQ := rfl

@[simp] theorem State.setDcx_granQ (x : Nat) (v : Dcx) : (s.setDcx x v).granQ = s.granQ := rfl

@[simp] theorem State.dcxCount_granQ (x i n : Nat) : (s.dcxCount x i n).granQ = s.granQ := rfl

@[simp] theorem State.endAu_granQ (x : Nat) : (s.endAu x).granQ = s.granQ := by
  unfold State.endAu
  dsimp only
  split
  · rfl
  · split
    · rfl
    · split <;> simp

@[simp] theorem State.passRtp_granQ (x : Nat) (q : RtpHeld) : (s.passRtp x q).granQ = s.granQ := by
  unfold State.passRtp
  dsimp only
  repeat' split
  all_goals simp

@[simp] theorem State.drainRtp_granQ (n x : Nat) (s : State) : (State.drainRtp n x s).granQ = s.granQ := by
  induction n generalizing s with
  | zero => rfl
  | succ n ih =>
    unfold State.drainRtp
    split
    · rfl
    · split
      · rfl
      · rw [ih, State.passRtp_granQ, State.setDcx_granQ]

@[simp] theorem State.loseRtp_granQ (x : Nat) : (s.loseRtp x).granQ = s.granQ := by
  unfold State.loseRtp
  dsimp only
  repeat' split
  all_goals simp

@[simp] theorem State.rtpArrive_granQ (x : Nat) (bs : List Byte) : (s.rtpArrive x bs).granQ = s.granQ := by
  unfold State.rtpArrive
  dsimp only
  repeat' split
  all_goals simp

@[simp] theorem State.setLock_granQ (v : Nat) : (s.setLock v).granQ = s.granQ := by
  unfold State.setLock
  split
  · rfl
  · exact State.irqEvent_granQ _ _

@[simp] theorem State.ptpOffset_granQ (off : Int) : (s.ptpOffset off).granQ = s.granQ := by
  unfold State.ptpOffset
  dsimp only
  rw [ite_granQ, State.setLock_granQ]
  exact ite_self _

@[simp] theorem State.ptpMessage_granQ (p ts : Nat) (m : PtpMsg) : (s.ptpMessage p ts m).granQ = s.granQ := by
  unfold State.ptpMessage
  dsimp only
  repeat' split
  case _ => rfl
  case _ => rfl
  case _ => rfl
  case _ => exact State.ptpOffset_granQ _ _
  all_goals rfl

/-! ### A parse engine's packet -/

@[simp] theorem State.countClass_granQ (c : Nat) : (s.countClass c).granQ = s.granQ := rfl

@[simp] theorem State.vftPush_granQ (p : Nat) (q : VftPkt) : (s.vftPush p q).granQ = s.granQ := by
  unfold State.vftPush
  dsimp only
  split
  · rfl
  · rw [State.fifoEval_granQ]
    split <;> split <;> rfl

@[simp] theorem State.consume_granQ (k : Nat) (e : PeEnd) (c : PeCtx) : (s.consume k e c).granQ = s.granQ := by
  unfold State.consume
  dsimp only
  repeat' split
  case h_3.isFalse => rfl
  all_goals simp

@[simp] theorem State.retirePort_granQ (p : Nat) : (s.retirePort p).granQ = s.granQ := by
  unfold State.retirePort
  exact foldl_keeps State.granQ (fun s (r : Retire) => by split <;> simp) _ _

@[simp] theorem State.peFinish_granQ (k : Nat) (e : PeEnd) : (s.peFinish k e).granQ = s.granQ := by
  unfold State.peFinish
  exact State.retirePort_granQ _ _

/-! ### A run that ends by an error response (R447, R448) -/

theorem State.dropRun_granQ (l v : Nat) : (s.dropRun l v).granQ = s.granQ := by
  unfold State.dropRun
  dsimp only
  repeat' split
  all_goals rfl

theorem State.holdChain_leaves (ch : Nat) : (s.holdChain ch).granQ = s.granQ ∧ (s.holdChain ch).flt = s.flt :=
  ⟨foldl_keeps State.granQ (fun s h => by dsimp only; split <;> rfl) _ s,
    foldl_keeps State.flt (fun s h => by dsimp only; split <;> rfl) _ s⟩

/-- An event clears no sticky bit, whatever its reaction (R439). -/
theorem State.raiseIn_stickyIn (n : Nat) (u : Option Nat) (held forced mute : Bool) :
    s.StickyIn (s.raiseIn n u held forced mute) := by
  have hreact := State.react_stickyIn s n u held mute
  have hglean (c : Prop) [Decidable c] :
      s.StickyIn (if c then (s.react n u held mute).2.gleanRefresh (n - 0x040) else (s.react n u held mute).2) := by
    split
    · exact hreact.trans (.of_flt (State.gleanRefresh_flt _ _))
    · exact hreact
  unfold State.raiseIn
  split
  · exact .of_flt rfl
  · dsimp only
    split
    · split
      · exact (hglean _).trans (State.failover_stickyIn _ _ _ _)
      · exact hglean _
    · exact hglean _

theorem State.giveUp_leaves (ch a b : Nat) : (s.giveUp ch a b).granQ = s.granQ ∧ (s.giveUp ch a b).flt = s.flt := by
  unfold State.giveUp
  exact ⟨foldl_keeps State.granQ (fun s (p : Nat) => by rfl) _ _, foldl_keeps State.flt (fun s (p : Nat) => by rfl) _ _⟩

@[simp] theorem State.addSkipped_granQ (ch n : Nat) : (s.addSkipped ch n).granQ = s.granQ := rfl
@[simp] theorem State.setRc_granQ (ch : Nat) (v : Rc) : (s.setRc ch v).granQ = s.granQ := rfl
@[simp] theorem State.setSess_granQ (ch : Nat) (v : Sess) : (s.setSess ch v).granQ = s.granQ := rfl

theorem State.partRestart_leaves (ch fr : Nat) :
    (s.partRestart ch fr).granQ = s.granQ ∧ s.StickyIn (s.partRestart ch fr) := by
  unfold State.partRestart
  generalize List.foldl _ _ _ = after
  dsimp only
  constructor
  · rw [State.raise_granQ _ (by decide) (by decide), (State.holdChain_leaves _ _).1, State.setSess_granQ, State.setRc_granQ,
      State.addSkipped_granQ, (s.giveUp_leaves ch fr after).1]
  · refine (StickyIn.of_flt ?_).trans (State.raiseIn_stickyIn _ _ _ _ _ _)
    rw [(State.holdChain_leaves _ _).2, State.setSess_flt, State.setRc_flt, State.addSkipped_flt, (s.giveUp_leaves ch fr after).2]

theorem State.encErrorEnd_leaves (k : Nat) : (s.encErrorEnd k).granQ = s.granQ ∧ s.StickyIn (s.encErrorEnd k) := by
  have hsame : s.granQ = s.granQ ∧ s.StickyIn s := ⟨rfl, .of_flt rfl⟩
  unfold State.encErrorEnd
  split
  · exact hsame
  next l _ =>
    split
    · exact hsame
    · have hdrop : (s.dropRun l 3).granQ = s.granQ ∧ s.StickyIn (s.dropRun l 3) :=
        ⟨State.dropRun_granQ s l 3, .of_flt (State.dropRun_flt s l 3)⟩
      dsimp only
      split
      · exact hdrop
      · split
        · obtain ⟨hq, hsticky⟩ := State.partRestart_leaves (s.dropRun l 3) _ _
          exact ⟨hq.trans hdrop.1, hdrop.2.trans hsticky⟩
        · exact hdrop

theorem State.runFilled_leaves (k addr : Nat) : (s.runFilled k addr).granQ = s.granQ ∧ (s.runFilled k addr).flt = s.flt := by
  unfold State.runFilled
  repeat' split
  all_goals exact ⟨rfl, rfl⟩

theorem State.corruptUnit_leaves (k : Nat) : (s.corruptUnit k).granQ = s.granQ ∧ (s.corruptUnit k).flt = s.flt := by
  unfold State.corruptUnit
  split
  · exact ⟨rfl, rfl⟩
  · dsimp only
    split <;> exact ⟨rfl, rfl⟩

theorem State.dropWork_leaves (j : Job) : (s.dropWork j).granQ = s.granQ ∧ (s.dropWork j).flt = s.flt := by
  unfold State.dropWork
  split <;> exact ⟨rfl, rfl⟩

theorem State.failJob_leaves : s.failJob.granQ = s.granQ ∧ s.StickyIn s.failJob := by
  unfold State.failJob
  split
  · exact ⟨rfl, .of_flt rfl⟩
  next j _ _ =>
    obtain ⟨hq, hflt⟩ := s.dropWork_leaves j
    refine ⟨(State.finish_granQ _ _ _).trans hq, (StickyIn.of_flt hflt).trans fun n hn => ?_⟩
    rw [State.denyJob, State.finish_frame _ _ j.begun]
    exact hn

/-- What an error response does to its master leaves the queues, and clears no sticky bit. -/
theorem State.masterError_leaves (m addr : Nat) :
    (s.masterError m addr).granQ = s.granQ ∧ s.StickyIn (s.masterError m addr) := by
  have of_flt {t : State} (h : t.granQ = s.granQ ∧ t.flt = s.flt) : t.granQ = s.granQ ∧ s.StickyIn t := ⟨h.1, .of_flt h.2⟩
  unfold State.masterError
  split
  · split
    · exact of_flt (s.runFilled_leaves m addr)
    · exact s.encErrorEnd_leaves m
  · split
    · exact of_flt (s.corruptUnit_leaves _)
    · split
      · split
        · exact of_flt ⟨State.peFinish_granQ _ _ _, State.peFinish_flt _ _ _⟩
        · exact of_flt ⟨rfl, rfl⟩
      · split
        · exact s.failJob_leaves
        · exact of_flt ⟨rfl, rfl⟩

/-! ### Responses (R356, R358) -/

theorem State.respond_stickyIn (a : GranAcc) (err : Bool) (data : List Byte) : s.StickyIn (s.respond a err data) := by
  unfold State.respond
  dsimp only
  split
  · exact fun n hn => (State.masterError_leaves _ _ _).2 n hn
  · exact .of_flt rfl

theorem State.deliver_stickyIn (port : Nat) (xs : List RetSlot) (s : State) : s.StickyIn (s.deliver port xs) := by
  induction xs generalizing s with
  | nil => exact .of_flt rfl
  | cons x xs ih =>
    unfold State.deliver
    split
    · exact fun n hn => ih _ n (State.respond_stickyIn _ _ _ _ n hn)
    · exact .of_flt rfl

theorem State.fillRet_stickyIn (port id : Nat) (err : Bool) (data : List Byte) : s.StickyIn (s.fillRet port id err data) :=
  State.deliver_stickyIn _ _ _

end

end Sys2Proof.Machine
end

section
/-!
SUPPORT. One access of the granary (R355, R356, R358): what it leaves queued, and how its DRAM access answers it.
-/

namespace Sys2Proof.Machine

/-- What accesses leave at the granary beside its contents: kept at the ports, answered, queued, awaited, and the batches that run. -/
structure GranQueues where
  stalled : List GranAcc := []
  rets : List GranRet := []
  rq : Tbl (List QRead) := []
  wq : Tbl (List GranAcc) := []
  retq : Tbl (List RetSlot) := []
  batch : Tbl Bool := []

/-- The granary with these queues. -/
def State.withQueues (s : State) (q : GranQueues) : State :=
  { s with hbm := { s.hbm with
      stalled := q.stalled, rets := q.rets, rq := q.rq, wq := q.wq, retq := q.retq, batch := q.batch } }

/-- Nothing is queued at the granary. -/
structure State.NoneQueued (s : State) : Prop where
  stalled : s.hbm.stalled = []
  rq : s.hbm.rq = []
  wq : s.hbm.wq = []
  retq : s.hbm.retq = []
  batch : s.hbm.batch = []

section
variable {s : State}

theorem State.NoneQueued.answered (h : s.NoneQueued) (st : List GranAcc) (l : List GranRet) :
    ({ s with hbm := { s.hbm with stalled := st, rets := l } } : State) = s.withQueues { stalled := st, rets := l } := by
  obtain ⟨-, hrq, hwq, hretq, hbatch⟩ := h
  simp only [State.withQueues, hrq, hwq, hretq, hbatch]

theorem State.NoneQueued.rets (h : s.NoneQueued) (l : List GranRet) :
    ({ s with hbm := { s.hbm with rets := l } } : State) = s.withQueues { rets := l } := by
  obtain ⟨hstalled, hrq, hwq, hretq, hbatch⟩ := h
  simp only [State.withQueues, hstalled, hrq, hwq, hretq, hbatch]

end

/-! ### A write's bytes do not depend on the queues -/

section
variable (s : State)

/-- What no write of a body and none of a memory changes, a write of an access leaves. -/
theorem State.accWrite_leaves {β : Type} (g : State → β) (hbody : ∀ t h v, g (State.setBody t h v) = g t)
    (hheal : ∀ t a n, g (State.heal t a n) = g t) (hgran : ∀ t a bs, g (State.granWrite t a bs) = g t)
    (hchip : ∀ t a bs, g (State.chipWrite t a bs) = g t) (al a : Nat) (bs : List Byte) : g (s.accWrite al a bs) = g s := by
  unfold State.accWrite
  split
  · exact (hheal _ _ _).trans (foldl_keeps g (fun t (h : Nat) => by exact hbody t h _) _ s)
  · unfold State.ramWrite
    split
    · exact hgran _ _ _
    · split
      · exact hchip _ _ _
      · rfl

theorem State.accWrite_sec (al a : Nat) (bs : List Byte) : (s.accWrite al a bs).sec = s.sec :=
  s.accWrite_leaves State.sec (fun _ _ _ => rfl) (fun _ _ _ => rfl) (fun _ _ _ => rfl) (fun _ _ _ => rfl) al a bs

theorem State.accWrite_flt (al a : Nat) (bs : List Byte) : (s.accWrite al a bs).flt = s.flt :=
  s.accWrite_leaves State.flt (fun _ _ _ => rfl) (fun _ _ _ => rfl) (fun _ _ _ => rfl) (fun _ _ _ => rfl) al a bs

theorem State.accWrite_meets (al a : Nat) (bs : List Byte) (b : Nat) : (s.accWrite al a bs).meets b = s.meets b :=
  s.accWrite_leaves (fun t => t.meets b) (fun _ _ _ => rfl) (fun _ _ _ => rfl) (fun _ _ _ => rfl) (fun _ _ _ => rfl) al a bs

theorem foldl_setBody_withQueues (q : GranQueues) (v : Nat → Body) (l : List Nat) (s : State) :
    l.foldl (fun t h => t.setBody h (v h)) (s.withQueues q) = (l.foldl (fun t h => t.setBody h (v h)) s).withQueues q :=
  List.foldl_hom (State.withQueues · q) fun _ _ => rfl

theorem State.withQueues_accWrite (q : GranQueues) (al a : Nat) (bs : List Byte) :
    (s.withQueues q).accWrite al a bs = (s.accWrite al a bs).withQueues q := by
  unfold State.accWrite
  have hin : (s.withQueues q).inAudience a bs.length = s.inAudience a bs.length := rfl
  rw [hin]
  split
  · exact congrArg (State.heal · a bs.length) (foldl_setBody_withQueues q _ _ s)
  · unfold State.ramWrite
    split
    · rfl
    · split <;> rfl

end

/-! ### Positions with a queued access -/

/-- The one position that holds an access. -/
theorem State.queuedPos_single {s : State} {i : Nat} (hi : i < 60)
    (h : ∀ j, (!(s.hbm.rq.get [] j).isEmpty || !(s.hbm.wq.get [] j).isEmpty) = (j == i)) : s.queuedPos = [i] := by
  unfold State.queuedPos
  simp only [h]
  rw [List.filter_beq, List.count_eq_one_of_mem List.nodup_range (List.mem_range.mpr hi)]
  rfl

theorem State.queuedPos_nil {s : State} (h : s.granQ = ([], [])) : s.queuedPos = [] := by
  obtain ⟨hrq, hwq⟩ := Prod.mk.inj h
  simp [State.queuedPos, hrq, hwq, Tbl.get]

/-- A table with one entry. -/
theorem Tbl.get_single_isEmpty {α : Type} (i j : Nat) (x : α) :
    (!(Tbl.get ([] : List α) [(i, [x])] j).isEmpty) = (j == i) := by
  by_cases h : j = i <;> simp [Tbl.get, h]

/-! ### The access is presented -/

/-- One write queued for position `i`. -/
def State.withWrite (s : State) (i : Nat) (a : GranAcc) : State := s.withQueues { wq := [(i, [a])] }

/-- One read queued for position `i`, and what the ports await. -/
def State.withRead (s : State) (i : Nat) (q : QRead) (l : Tbl (List RetSlot)) : State := s.withQueues { rq := [(i, [q])], retq := l }

section
variable {s : State} {a : GranAcc} {g i : Nat}

/-- The read's place among its port's reads. -/
def awaited (a : GranAcc) : Tbl (List RetSlot) := [(a.port, [{ id := 0, acc := a, ret := none }])]

/-- The read as it is queued, with the bytes that it found. -/
def State.queued (s : State) (a : GranAcc) : QRead :=
  { id := 0, acc := a, data := s.accRead a.addr a.len, bad := s.unitPoisoned (a.addr / 64) }

/-- What a cycle's only access leaves before the DRAM accesses. -/
def State.presented (s : State) (a : GranAcc) : State := (State.present (s.withQueues {}, [], []) a).1

/-- The result of a port's only read is its response. -/
theorem State.fillRet_awaited (s : State) (a : GranAcc) (err : Bool) (data : List Byte) :
    (s.withQueues { retq := awaited a }).fillRet a.port 0 err data = (s.withQueues {}).respond a err data := by
  simp [State.fillRet, State.withQueues, awaited, Tbl.get, State.deliver, Tbl.set, Tbl.cons]

theorem State.openRet_awaited (s : State) (a : GranAcc) : (s.withQueues {}).openRet a = (0, s.withQueues { retq := awaited a }) := rfl

theorem State.presented_wait (h : s.meets a.addr = .wait) : s.presented a = s.withQueues { stalled := [a] } := by
  have h' : (s.withQueues {}).meets a.addr = .wait := h
  simp only [State.presented, State.present, List.contains_nil, Bool.false_eq_true, if_false, h']
  rfl

theorem State.presented_error (h : s.meets a.addr = .error) : s.presented a = (s.withQueues {}).respond a true [] := by
  have h' : (s.withQueues {}).meets a.addr = .error := h
  simp only [State.presented, State.present, List.contains_nil, Bool.false_eq_true, if_false, h', State.openRet_awaited,
    State.fillRet_awaited, ite_self]

theorem State.presented_served (h : s.meets a.addr = .served g) : s.presented a = (s.withQueues {}).acceptAcc (s.posOf a.addr) a := by
  have h' : (s.withQueues {}).meets a.addr = .served g := h
  have hroom : (s.withQueues {}).hasRoom (s.posOf a.addr) a = true := by
    simp [State.hasRoom, State.withQueues, Tbl.get]
  have hpos : (s.withQueues {}).posOf a.addr = s.posOf a.addr := rfl
  simp only [State.presented, State.present, List.contains_nil, Bool.false_eq_true, if_false, h', hpos, hroom, Bool.not_true, Bool.or_self]

theorem State.presented_write (h : s.meets a.addr = .served g) (hw : a.write = true) :
    s.presented a = (s.accWrite 0 a.addr a.data).withWrite (s.posOf a.addr) a := by
  rw [State.presented_served h, State.acceptAcc, if_pos hw]
  exact s.withQueues_accWrite { wq := [(s.posOf a.addr, [a])] } 0 a.addr a.data

theorem State.presented_read (h : s.meets a.addr = .served g) (hw : a.write = false) :
    s.presented a = s.withRead (s.posOf a.addr) (s.queued a) (awaited a) := by
  have hnone : ((s.withQueues {}).inWq (s.posOf a.addr) a).1 = false := by simp [State.inWq, State.withQueues, Tbl.get]
  have hread : ¬ a.write = true := by simp [hw]
  rw [State.presented_served h, State.acceptAcc, if_neg hread]
  simp only [hnone, State.openRet_awaited, Bool.false_eq_true, if_false]
  rfl

/-! ### The DRAM access -/

section
variable (hmeets : (s.withWrite i a).meets a.addr = .served g)
include hmeets

/-- A position with one write queued and no read: the write goes out, and no batch runs after it. -/
theorem State.issuePos_write (slow : List Nat) (e : EccOut) (es : List EccOut) :
    State.issuePos slow (s.withWrite i a, e :: es) i = ((s.withQueues {}).issueWrite g a e, es) := by
  have hreads : (s.withWrite i a).hbm.rq.get [] i = [] := rfl
  have hwrites : (s.withWrite i a).hbm.wq.get [] i = [a] := by simp [State.withWrite, State.withQueues, Tbl.get]
  have htaken (run : Bool) : ({ s.withWrite i a with hbm := { (s.withWrite i a).hbm with
      wq := (s.withWrite i a).hbm.wq.set [] i []
      batch := ((s.withWrite i a).hbm.batch.set false i run).set false i false } } : State) = s.withQueues {} := by
    cases run <;> simp [State.withWrite, State.withQueues, Tbl.set, Tbl.cons]
  have hover (t : State) (run : Bool) (h : t.hbm.wq.get [] i = []) : (t.batchRuns i && run) = false := by simp [State.batchRuns, h]
  simp only [State.issuePos, hreads, hwrites, List.isEmpty_nil, Bool.or_true, if_true, List.headD_cons, List.tail_cons]
  rw [hover _ _ (by simp [State.withWrite, State.withQueues, Tbl.set, Tbl.cons, Tbl.get])]
  split
  next g' hg =>
    injection hmeets.symm.trans hg with hg
    rw [← htaken ((s.withWrite i a).batchRuns i), hg]
  next hg => cases hmeets.symm.trans hg
  next hg => cases hmeets.symm.trans hg

end

section
variable {q : QRead} {l : Tbl (List RetSlot)} (hmeets : (s.withRead i q l).meets q.acc.addr = .served g)
include hmeets

/-- A position with one read queued and no write: no batch runs, and the read goes out where its bank is ready. -/
theorem State.issuePos_read (slow : List Nat) (e : EccOut) (es : List EccOut) : State.issuePos slow (s.withRead i q l, e :: es) i
    = if slow.isEmpty || !slow.contains (Config.bankOf q.acc.addr) then ((s.withQueues { retq := l }).issueRead g q e, es)
      else (s.withRead i q l, e :: es) := by
  have hrun : (s.withRead i q l).batchRuns i = false := by simp [State.batchRuns, State.withRead, State.withQueues, Tbl.get]
  have hreads : (s.withRead i q l).hbm.rq.get [] i = [q] := by simp [State.withRead, State.withQueues, Tbl.get]
  have hready : (s.withRead i q l).readyRead i slow
      = if slow.isEmpty || !slow.contains (Config.bankOf q.acc.addr) then some q else none := by
    rw [State.readyRead, hreads, List.find?_singleton]
  have htaken : ({ s.withRead i q l with hbm := { (s.withRead i q l).hbm with
      rq := (s.withRead i q l).hbm.rq.upd [] i fun l => l.filter fun x => decide (x ≠ q)
      batch := (s.withRead i q l).hbm.batch.set false i false } } : State) = s.withQueues { retq := l } := by
    simp [State.withRead, State.withQueues, Tbl.upd, Tbl.get, Tbl.set, Tbl.cons]
  simp only [State.issuePos, hrun, hreads, List.headD_cons, List.tail_cons, List.isEmpty_cons, Bool.or_self, Bool.false_eq_true, if_false]
  split
  next hnone =>
    have hb := hready.symm.trans hnone
    rw [if_neg (by simpa using hb)]
    rfl
  next q' hsome =>
    obtain ⟨hb, hq⟩ := Option.ite_none_right_eq_some.mp (hready.symm.trans hsome)
    injection hq with hq
    subst hq
    rw [if_pos hb, ← htaken]
    split
    next g' hg =>
      injection hmeets.symm.trans hg with hg
      rw [hg]
    next hg => cases hmeets.symm.trans hg
    next hg => cases hmeets.symm.trans hg

end

/-! ### A cycle of one access -/

theorem State.posOf_lt (s : State) (addr : Nat) : s.posOf addr < 60 := Nat.mod_lt _ (by decide)

section
variable (h : s.NoneQueued) (hlen : a.addr % 64 + a.len ≤ 64) (hopen : s.portClosed a.master = false)
include h hlen hopen

/-- The access is presented, and then every position with a queued access makes one of its own. -/
theorem exec_granaryAccess_open (e : EccOut) (c : GranCyc) : exec (.granaryAccess [a] e c) s
      = .next ((s.presented a).queuedPos.foldl (State.issuePos c.slow) (s.presented a, e :: c.eccs)).1 := by
  have hsplit : GranAcc.split a = [a] := if_pos hlen
  have hstalled : s.hbm.stalled = [] := h.stalled
  simp only [exec, execGranaryAccess, List.filter_cons, List.filter_nil, hopen, hstalled, h.answered [] [], Bool.not_false,
    Bool.false_eq_true, if_true, if_false, List.flatMap_cons, List.flatMap_nil, hsplit]
  rfl

theorem exec_granaryAccess_none (hq : (s.presented a).granQ = ([], [])) (e : EccOut) (c : GranCyc) :
    exec (.granaryAccess [a] e c) s = .next (s.presented a) := by
  rw [exec_granaryAccess_open h hlen hopen, State.queuedPos_nil hq]
  rfl

theorem exec_granaryAccess_write (hg : s.meets a.addr = .served g) (hw : a.write = true) (e : EccOut) (c : GranCyc) :
    exec (.granaryAccess [a] e c) s = .next (((s.accWrite 0 a.addr a.data).withQueues {}).issueWrite g a e) := by
  have hpos : ((s.accWrite 0 a.addr a.data).withWrite (s.posOf a.addr) a).queuedPos = [s.posOf a.addr] :=
    State.queuedPos_single (s.posOf_lt _) fun j => (Tbl.get_single_isEmpty (s.posOf a.addr) j a :)
  have hmeets : ((s.accWrite 0 a.addr a.data).withWrite (s.posOf a.addr) a).meets a.addr = .served g :=
    (s.accWrite_meets 0 a.addr a.data a.addr).trans hg
  rw [exec_granaryAccess_open h hlen hopen, State.presented_write hg hw, hpos, List.foldl_cons, State.issuePos_write hmeets]
  rfl

theorem exec_granaryAccess_read (hg : s.meets a.addr = .served g) (hw : a.write = false) (e : EccOut) (c : GranCyc) :
    exec (.granaryAccess [a] e c) s
      = .next (if c.slow.isEmpty || !c.slow.contains (Config.bankOf a.addr)
          then (s.withQueues { retq := awaited a }).issueRead g (s.queued a) e
          else s.withRead (s.posOf a.addr) (s.queued a) (awaited a)) := by
  have hpos : (s.withRead (s.posOf a.addr) (s.queued a) (awaited a)).queuedPos = [s.posOf a.addr] :=
    State.queuedPos_single (s.posOf_lt _) fun j => by
      rw [← Tbl.get_single_isEmpty (s.posOf a.addr) j (s.queued a)]
      exact Bool.or_false _
  have hmeets : (s.withRead (s.posOf a.addr) (s.queued a) (awaited a)).meets (s.queued a).acc.addr = .served g := hg
  rw [exec_granaryAccess_open h hlen hopen, State.presented_read hg hw, hpos, List.foldl_cons, State.issuePos_read hmeets]
  have hacc : (s.queued a).acc = a := rfl
  rw [hacc]
  split <;> rfl

end

/-- A closed port holds the access. -/
theorem exec_granaryAccess_closed (h : s.NoneQueued) (hclosed : s.portClosed a.master = true) (hne : a.master ≠ 0xC4) (e : EccOut)
    (c : GranCyc) : exec (.granaryAccess [a] e c) s = .next ((s.withQueues {}).holdAccess a) := by
  have hstalled : s.hbm.stalled = [] := h.stalled
  have hheld : ((s.withQueues {}).holdAccess a).queuedPos = [] := by
    refine State.queuedPos_nil ?_
    rw [State.holdAccess, if_neg hne]
    rfl
  simp only [exec, execGranaryAccess, List.filter_cons, hclosed, hstalled, h.answered [] [], Bool.not_true,
    Bool.false_eq_true, if_false, if_true, List.filter_nil, List.flatMap_nil, List.append_nil, List.foldl_cons,
    List.foldl_nil, List.foldr_nil, hheld]

/-! ### What a read's DRAM access finds (R358) -/

/-- The response that one access leaves. -/
def GranAcc.response (a : GranAcc) (err : Bool) (data : List Byte) : GranQueues :=
  { rets := [{ port := a.port, err := err, data := data }] }

/-- A write is answered without error; its bytes are there already. -/
theorem State.issueWrite_leaves (t : State) (g : Nat) (a : GranAcc) :
    let u := (t.withQueues {}).issueWrite g a .clean
    u.hbm.rets = (GranAcc.response a false []).rets ∧ u.hbm.mem = t.hbm.mem ∧ u.rep.bodies = t.rep.bodies ∧ u.hbm.stalled = []
      ∧ u.hbm.wq = [] ∧ u.flt = t.flt ∧ u.chip = t.chip ∧ u.sec = t.sec := ⟨rfl, rfl, rfl, rfl, rfl, rfl, rfl, rfl⟩

theorem State.issueRead_clean (hp : s.unitPoisoned (a.addr / 64) = false) :
    (s.withQueues { retq := awaited a }).issueRead g (s.queued a) .clean
      = s.withQueues (GranAcc.response a false (s.accRead a.addr a.len)) := by
  have hbad : (s.queued a).bad = false := hp
  simp only [State.issueRead, hbad, Bool.false_eq_true, if_false]
  exact State.fillRet_awaited s a false _

theorem State.issueRead_poisoned (hp : s.unitPoisoned (a.addr / 64) = true) :
    (s.withQueues { retq := awaited a }).issueRead g (s.queued a) .clean
      = (s.withQueues (GranAcc.response a true [])).masterError a.master a.addr := by
  have hbad : (s.queued a).bad = true := hp
  simp only [State.issueRead, hbad, if_true]
  exact State.fillRet_awaited s a true _

theorem State.correctedErr_sets (s : State) (g : Nat) (h : s.canRise (srcHbmCe (g / 32)) = true) :
    (s.correctedErr g).flt.sticky.get false (srcHbmCe (g / 32)) = true := by
  refine State.raiseIn_sets _ _ _ _ _ ((State.canRise_congr ?_ ?_ ?_ _).trans h) <;> split <;> rfl

theorem State.uncorrectableErr_sets (s : State) (g addr : Nat) (h : s.canRise (srcHbmUe (g / 32)) = true) :
    (s.uncorrectableErr g addr).flt.sticky.get false (srcHbmUe (g / 32)) = true :=
  State.raiseIn_sets _ _ _ _ _ h

theorem State.issueRead_corrected_sets (hp : s.unitPoisoned (a.addr / 64) = false) (h : s.canRise (srcHbmCe (g / 32)) = true) :
    ((s.withQueues { retq := awaited a }).issueRead g (s.queued a) .corrected).flt.sticky.get false (srcHbmCe (g / 32)) = true := by
  have hbad : (s.queued a).bad = false := hp
  have hfill : (s.withQueues { retq := awaited a }).fillRet (s.queued a).acc.port (s.queued a).id false (s.queued a).data
      = s.withQueues (GranAcc.response a false (s.queued a).data) := State.fillRet_awaited s a false _
  simp only [State.issueRead, hbad, Bool.false_eq_true, if_false, hfill]
  exact State.correctedErr_sets _ g h

/-- The error response that follows leaves HBM_UE set. -/
theorem State.issueRead_uncorrectable_sets (hp : s.unitPoisoned (a.addr / 64) = false) (h : s.canRise (srcHbmUe (g / 32)) = true) :
    ((s.withQueues { retq := awaited a }).issueRead g (s.queued a) .uncorrectable).flt.sticky.get false (srcHbmUe (g / 32)) = true := by
  have hbad : (s.queued a).bad = false := hp
  simp only [State.issueRead, hbad, Bool.false_eq_true, if_false]
  exact State.fillRet_stickyIn _ _ _ _ _ _ (State.uncorrectableErr_sets _ g _ h)

end

/-- Settles O29: the port first; at an open port what the access meets, and of a served one its queue and its DRAM access. -/
theorem granaryAccesses : Obligations.GranaryAccesses := by
  unfold Obligations.GranaryAccesses
  intro s a g hstalled hrq hwq hretq hbatch hlen ret rets data
  have hnone : s.NoneQueued := ⟨hstalled, hrq, hwq, hretq, hbatch⟩
  have hrets (err : Bool) (bs : List Byte) : s.withQueues (GranAcc.response a err bs) = rets (ret err bs) := (hnone.rets _).symm
  refine ⟨fun hopen => ⟨fun hg => ⟨fun hw => ?write, fun hw hp => ⟨?clean, ?corrected, ?uncorrectable, fun c hslow => ?slow⟩,
    fun hw hp => ?poisoned⟩, fun hwait => ?wait, fun herror => ?error⟩, fun hclosed hne => ?closed⟩
  case write =>
    obtain ⟨hret, hmem, hbodies, hstall, hqueue, hflt, hchip, hsec⟩ := State.issueWrite_leaves (s.accWrite 0 a.addr a.data) g a
    exact ⟨_, exec_granaryAccess_write hnone hlen hopen hg hw .clean {}, hret, hmem, hbodies, hstall, hqueue,
      hflt.trans (s.accWrite_flt _ _ _), hchip, hsec.trans (s.accWrite_sec _ _ _)⟩
  case clean =>
    rw [exec_granaryAccess_read hnone hlen hopen hg hw, ← hrets, ← State.issueRead_clean (g := g) hp]
    rfl
  case corrected =>
    exact ⟨_, exec_granaryAccess_read hnone hlen hopen hg hw .corrected {}, State.issueRead_corrected_sets hp⟩
  case uncorrectable =>
    exact ⟨_, exec_granaryAccess_read hnone hlen hopen hg hw .uncorrectable {}, State.issueRead_uncorrectable_sets hp⟩
  case slow =>
    have hbusy : ¬ (c.slow.isEmpty || !c.slow.contains (Config.bankOf a.addr)) = true := by
      simpa [hslow] using List.ne_nil_of_mem hslow
    refine ⟨_, exec_granaryAccess_read hnone hlen hopen hg hw .clean c, ?_⟩
    rw [if_neg hbusy, hrq, ← hp]
    exact ⟨rfl, rfl, rfl⟩
  case poisoned =>
    rw [exec_granaryAccess_read hnone hlen hopen hg hw, ← hrets, ← State.issueRead_poisoned (g := g) hp]
    rfl
  case wait =>
    have hkept := State.presented_wait hwait
    rw [exec_granaryAccess_none hnone hlen hopen (by rw [hkept]; rfl), hkept, hnone.answered]
  case error =>
    have hanswered : s.presented a = (rets (ret true [])).masterError a.master a.addr := by
      rw [State.presented_error herror, ← hrets]
      rfl
    have hqueues : (rets (ret true [])).granQ = ([], []) := Prod.ext hrq hwq
    rw [exec_granaryAccess_none hnone hlen hopen (by rw [hanswered, (State.masterError_leaves _ _ _).1, hqueues]), hanswered]
  case closed =>
    rw [exec_granaryAccess_closed hnone hclosed hne, ← hnone.rets, State.holdAccess, if_neg hne]

end Sys2Proof.Machine
end
section
/-!
SUPPORT. Two clauses of the rota that a reaction of the fault collector breaks (R145, R211, R440, R444, R446): the states that show it.
-/

namespace Sys2Proof.Machine

/-! ### A clock step whose event takes the device to SAFE (R143, R444) -/

/-- RUN before the rota starts, with port 0 up, a step of 8 µs pending, and a reaction table that gives PTP_STEP the level SAFE. -/
def steppedToSafe : State :=
  { glb := { st := .run }
    ptp := { stepPend := some 8000 }
    egr := { ports := [(0, { up := true })] }
    flt := { installed := true, level := [(srcPtpStep, 3)] } }

theorem steppedToSafe_pfc : ∀ t, exec .clockStep steppedToSafe = .next t → t.ing.pfc = [(0, 1)] := by
  intro t h
  cases h
  decide

/-- Refutes O11: PTP_STEP may react at SAFE, which sends PFC frames on every port that is up, and the ingress unit counts them. -/
theorem not_clockSteps : ¬ Obligations.ClockSteps := by
  unfold Obligations.ClockSteps
  intro h
  obtain ⟨t, hexec, -, -, -, -, -, -, hstill⟩ := h steppedToSafe 8000 rfl
  have hing : t.ing = steppedToSafe.ing := (hstill rfl fun _ => rfl).2.1
  have hpfc := steppedToSafe_pfc t hexec
  rw [hing] at hpfc
  exact absurd hpfc (by decide)

/-! ### A gleaning run whose overrun asks for a refresh (R129, R211, R446) -/

/-- A channel class of 60 frames per second on one lane. -/
def oneLaneClass : Machine.Class :=
  { base := { maxW := 1920, maxH := 1088, rate := 2, format := 0, layers := 1, lanes := 1, latency := 0, pixFmt := 0, hint := false
              cut := false, transfer := 0, primaries := 0, segs := 0, pathVft := true, pathPcie := false, pathBind := false, ring := 4 }
    cod := { mode := 0, modelSet := 0, maxPay := 1200, target := 5000, peak := 9000, minK := 1000, qpMin := 10, qpMax := 40, cqQp := 20
             refreshN := 60, refreshHold := 10, feedback := false, ackRef := false, mark := false, cutRefresh := false, ackDepth := 1
             markEvery := 0, markDelta := 0, extId := 1 } }

/-- A gleaning run of core 0. -/
def gleaningRun : Run := { kind := 2, core := 0, ch := 0, part := 0, fr := 0, sh := 0 }

/-- RUN, with core 0 gleaning on lane 0, which carries the SHEAF runs of channel 0, whose session is open; the reaction table gives the
gleaning mismatch of core 0 the level FAILOVER. -/
def gleaningOnLane : State :=
  { glb := { st := .run }
    img := { classes := [oneLaneClass]
             encRota := [(0, [{ kind := 0, start := 0, part := 0, len := 1, ch := 0, sheaf := 0, frame := 0, lead := 0 }])] }
    sess := [(0, { isOpen := true, w := 1920, h := 1080 })]
    rota := { started := true, lanes := [(0, { bound := some 0, run := some gleaningRun })] }
    flt := { installed := true, level := [(srcGlean 0, 2)] } }

theorem gleaningOnLane_overrun_rc : ∀ t, exec (.runOverrun 0) gleaningOnLane = .next t → (t.rcOf 0).reqNow = 1 := by
  intro t h
  cases h
  decide

/-- Refutes O13: the overrun of a gleaning run is a gleaning mismatch too, whose reaction at FAILOVER requests a refresh of every channel
on the lane, so that the channel state does not stay as it was. -/
theorem not_runsFail : ¬ Obligations.RunsFail := by
  unfold Obligations.RunsFail
  intro h
  obtain ⟨-, hgleaning, -⟩ := h.1 gleaningOnLane 0 gleaningRun rfl
  obtain ⟨t, hexec, hrc, -⟩ := hgleaning rfl
  have hreq := gleaningOnLane_overrun_rc t hexec
  rw [State.rcOf, hrc] at hreq
  exact absurd hreq (by decide)

end Sys2Proof.Machine
end
section
/-!
SUPPORT. Spares: which core takes a lane, how its admission case ends, and what a quarantine test leaves (R136, R450, R451, R453).
-/

namespace Sys2Proof.Machine

/-! ### The core that takes a lane (R136) -/

/-- A search from 0 finds the lowest number that is usable and not taken. -/
theorem find?_range_untaken (n k : Nat) (taken usable : Nat → Bool) :
    (List.range n).find? (fun j => !taken j && usable j) = some k
      ↔ k < n ∧ taken k = false ∧ usable k = true ∧ ∀ j, j < k → taken j = true ∨ usable j = false := by
  rw [List.find?_range_eq_some]
  simp only [Bool.and_eq_true, Bool.not_eq_true', List.mem_range, Bool.not_and, Bool.not_not, Bool.or_eq_true]
  tauto

/-- Settles O40: each search runs over the cores from 0 on. -/
theorem spareSelection : Obligations.SpareSelection := by
  unfold Obligations.SpareSelection
  exact fun s k => ⟨find?_range_untaken 32 k s.encTaken s.encUsable, find?_range_untaken 9 k s.decTaken s.decUsable⟩

/-! ### Gleaning cases (R211, R450) -/

section
variable (s : State)

theorem State.gleanArea_frame (k g : Nat) : s.gleanArea k g = { s with hbm := (s.gleanArea k g).hbm } := by
  unfold State.gleanArea
  dsimp only
  split <;> rfl

theorem State.caseCapped_frame (k g : Nat) : s.caseCapped k g = { s with enc := (s.caseCapped k g).enc } := by
  unfold State.caseCapped
  split <;> rfl

/-- An admission case that matches concerns the core's results and the GLEAN region, and makes the core ready for its lane. -/
theorem State.admitEnc_matches (l k : Nat) (err : BitVec 64)
    (h : s.caseMatches (gleanCaseAt s.img.glean 0 (s.encOf k).gleans)
      (s.encCaseSig (gleanCaseAt s.img.glean 0 (s.encOf k).gleans) err) = true) :
    ∃ e m, s.admitEnc l k err false = { s.setLane l { s.lane l with adm := none, ready := some k } with enc := e, hbm := m } := by
  have hok : ((s.nextGlean k).2.caseMatches (s.nextGlean k).1 ((s.nextGlean k).2.encCaseSig (s.nextGlean k).1 err) && !false) = true := by
    rw [Bool.not_false, Bool.and_true]
    exact h
  unfold State.admitEnc
  dsimp only
  rw [hok, if_pos rfl, State.gleanEnd, if_pos rfl, State.caseCapped_frame, State.gleanArea_frame]
  exact ⟨_, _, rfl⟩

theorem State.admitDec_matches (l k : Nat) (err : BitVec 64)
    (h : s.caseMatches (gleanCaseAt s.img.glean 1 (s.decOf k).gleans)
      (s.decCaseSig (gleanCaseAt s.img.glean 1 (s.decOf k).gleans) ^^^ err) = true) :
    ∃ d, s.admitDec l k err false = { s.setDLane l { s.dlane l with adm := none, ready := some k } with dec := d } := by
  have hok : ((s.nextDecGlean k).2.caseMatches (s.nextDecGlean k).1
      ((s.nextDecGlean k).2.decCaseSig (s.nextDecGlean k).1 ^^^ err) && !false) = true := by
    rw [Bool.not_false, Bool.and_true]
    exact h
  unfold State.admitDec
  dsimp only
  rw [hok, if_pos rfl, State.decGleanEnd_ok]
  exact ⟨_, rfl⟩

end

/-! ### Quarantine tests (R449, R451, R453) -/

section
variable (s : State)

theorem Ledg.setUnit_cause (l : Ledg) (u : Nat) (v : UnitEnt) : (l.setUnit u v).cause = l.cause := by
  unfold Ledg.setUnit
  dsimp only
  repeat' split
  all_goals simp only [Ledg.put_cause]

theorem State.raiseBasic_led (n : Nat) : (s.raiseBasic n).led = s.led := by
  unfold State.raiseBasic
  split
  · obtain ⟨st, f, -, hc⟩ := State.react_calm s n none false (s.muted (fltUnit n none))
    exact (congrArg State.led hc :)
  · rfl

theorem State.seekEnc_led (l : Nat) : (s.seekEnc l).led = s.led := by
  unfold State.seekEnc
  dsimp only
  split
  · rfl
  · exact State.raiseBasic_led _ _

theorem State.seekDec_led (l : Nat) : (s.seekDec l).led = s.led := by
  unfold State.seekDec
  dsimp only
  split
  · rfl
  · exact State.raiseBasic_led _ _

theorem State.retryEnc_led : s.retryEnc.led = s.led := by
  unfold State.retryEnc
  split
  · exact State.seekEnc_led _ _
  · rfl

theorem State.retryDec_led : s.retryDec.led = s.led := by
  unfold State.retryDec
  split
  · exact State.seekDec_led _ _
  · rfl

theorem State.fabDiscard_led (m : Nat) : (s.fabDiscard m).led = s.led :=
  foldl_fabRespond_keeps State.led (fun _ _ => rfl) _ _

/-- A core that passed is spare, whatever lane seeks a core then. -/
theorem State.testPassed_core {n : Nat} (h : n < 41) : ((s.testPassed n).unit n).st = .spare := by
  have hspare : ((s.setUnitSt n .spare).unit n).st = .spare := s.setUnitSt_unit_same n (by decide)
  rw [← hspare]
  refine congrArg (fun l : Ledg => (l.units.get {} n).st) (a₁ := (s.testPassed n).led)
    (a₂ := { (s.setUnitSt n .spare).led with cause := (s.setUnitSt n .spare).led.cause.set 0 n 0 }) ?_
  unfold State.testPassed
  dsimp only
  split
  · rw [State.retryEnc_led, State.fabDiscard_led]
  · rw [State.retryDec_led, State.fabDiscard_led]

/-- What waits for a unit of a pair's kind, none takes. -/
theorem State.testPassed_pair {n : Nat} (h : 251 ≤ n) : s.testPassed n
    = { s.setUnitSt n .spare with led := { (s.setUnitSt n .spare).led with cause := s.led.cause.set 0 n 0 } } := by
  have hcause : (s.setUnitSt n .spare).led.cause = s.led.cause := Ledg.setUnit_cause _ _ _
  unfold State.testPassed
  dsimp only
  rw [if_neg (by omega), if_neg (by omega), if_neg (by omega), hcause]

/-- A unit that fails is retired, with its record; nothing else than the ledger has part in it (R451, R454). -/
theorem State.retire_leaves {u : Nat} (src : Nat) (h : (s.unit u).st ≠ .retired) :
    ((s.retire u src).unit u).st = .retired ∧ (s.retire u src).led.records.length = s.led.records.length + 1
      ∧ (s.retire u src).flt = s.flt := by
  refine ⟨?_, ?_, State.retire_flt s u src⟩
  · rw [State.unit, s.retire_units u src h]
    exact s.setUnitSt_unit_same u (by decide)
  · have hrec : (s.setUnit u { s.unit u with st := .retired }).led.records = s.led.records := Ledg.setUnit_records _ _ _
    unfold State.retire
    dsimp only
    rw [if_neg h, List.length_append, List.length_singleton, Ledg.put_records]
    exact congrArg (fun rs : List RetRec => rs.length + 1) hrec

theorem State.testResults_frame (u : Nat) (err : BitVec 64) :
    (s.testResults u err).2 = { s with enc := (s.testResults u err).2.enc, dec := (s.testResults u err).2.dec } := by
  unfold State.testResults
  repeat' split
  all_goals rfl

theorem State.testResults_pair {n : Nat} (h : 251 ≤ n) (err : BitVec 64) : s.testResults n err = (true, s) := by
  rw [State.testResults, if_neg (by omega), if_neg (by omega)]

variable {s}

theorem exec_quarantineTestEnd_passed {n : Nat} {err : BitVec 64} (ht : s.testable n = true) (h : (s.testResults n err).1 = true) :
    exec (.quarantineTestEnd n true err) s = .next ((s.testResults n err).2.testPassed n) := by
  simp only [exec, execQuarantineTestEnd, ht, h, Bool.not_true, Bool.false_eq_true, if_false, Bool.and_self, if_true]

/-- Only a quarantined unit is tested. -/
theorem State.testable_quarantined {n : Nat} (ht : s.testable n = true) : (s.unit n).st = .quarantined := by
  simp only [State.testable, Bool.and_eq_true, beq_iff_eq] at ht
  exact ht.1.1.1.2

theorem exec_quarantineTestEnd_failed {n : Nat} {err : BitVec 64} (ht : s.testable n = true) :
    ∃ t, exec (.quarantineTestEnd n false err) s = .next t ∧ (t.unit n).st = .retired
      ∧ t.led.records.length = s.led.records.length + 1 ∧ t.flt = s.flt := by
  have hexec : exec (.quarantineTestEnd n false err) s
      = .next ((s.testResults n err).2.retire n ((s.testResults n err).2.led.cause.get 0 n)) := by
    simp only [exec, execQuarantineTestEnd, ht, Bool.not_true, Bool.false_eq_true, if_false, Bool.false_and]
  have hst : ((s.testResults n err).2.unit n).st ≠ .retired := by
    rw [State.testResults_frame]
    show (s.unit n).st ≠ .retired
    rw [State.testable_quarantined ht]
    decide
  refine ⟨_, hexec, ?_⟩
  have hleaves := (s.testResults n err).2.retire_leaves ((s.testResults n err).2.led.cause.get 0 n) hst
  generalize (s.testResults n err).2.retire n _ = t at hleaves ⊢
  rw [State.testResults_frame] at hleaves
  exact hleaves

end

/-- Settles O41: an admitted core by `admitEnc_matches` and `admitDec_matches`; the units outside the lanes by the branches of their
commands; a tested unit by what `testPassed` and `retire` leave of its entry. -/
theorem sparesMove : Obligations.SparesMove := by
  unfold Obligations.SparesMove
  refine ⟨fun s l k err => ?lanes, fun s c n m err hc => ?units⟩
  case lanes =>
    intro g d
    refine ⟨fun hadm hmatch => ?_, fun hadm hmatch => ?_, fun hready huse => ?_, fun hready huse => ?_⟩
    · obtain ⟨e, b, hready⟩ := s.admitEnc_matches l k err hmatch
      have hexec : exec (.spareAdmissionDone false l err false) s = .next (s.admitEnc l k err false) := by
        simp only [exec, execSpareAdmissionDone, hadm, Bool.false_eq_true, if_false]
      rw [hready] at hexec
      exact ⟨_, hexec, rfl, rfl, rfl⟩
    · obtain ⟨e, hready⟩ := s.admitDec_matches l k err hmatch
      have hexec : exec (.spareAdmissionDone true l err false) s = .next (s.admitDec l k err false) := by
        simp only [exec, execSpareAdmissionDone, hadm, if_true]
      rw [hready] at hexec
      exact ⟨_, hexec, rfl, rfl, rfl⟩
    · simp only [exec, execLaneRebind, hready, huse, Bool.false_eq_true, if_false, if_true]
      rfl
    · simp only [exec, execLaneRebind, hready, huse, if_true]
      rfl
  case units =>
    refine ⟨fun hspare hfew hst => ?takeover, fun hmany => ?enough, fun hserves hbusy hclk => ?watchdog, fun hidle => ?waits, rfl,
      fun hload hclk => ?load, fun hload => ?light, fun hremap => ?remap, fun ht hn => ?pair, fun ht hn hmatch => ?enc,
      fun ht hlo hhi hmatch => ?dec, fun ht => exec_quarantineTestEnd_failed ht⟩
    case takeover => simp [exec, execStewardTakeover, State.awake, unitStw, hspare, hfew, hst]
    case enough => simp [exec, execStewardTakeover, Nat.not_lt.mpr hmany]
    case watchdog => simp [exec, execStwWatchdog, unitStw, srcStwWd, hserves, hbusy, hclk]
    case waits => simp [exec, execStwWatchdog, hidle]
    case load => simp [exec, execStewardLoad, loadLimit, srcStwLoad, hload, hclk]
    case light => simp [exec, execStewardLoad, loadLimit, Nat.not_lt.mpr hload]
    case remap => simp only [exec, execSrtpRemap, hremap]
    case pair =>
      have hres := s.testResults_pair hn err
      rw [exec_quarantineTestEnd_passed ht (by rw [hres]), hres, State.testPassed_pair s hn]
    case enc =>
      have hres : (s.testResults n err).1 = true := by rw [State.testResults, if_pos hn]; exact hmatch
      exact ⟨_, exec_quarantineTestEnd_passed ht hres, State.testPassed_core _ (by omega)⟩
    case dec =>
      have hres : (s.testResults n err).1 = true := by rw [State.testResults, if_neg (by omega), if_pos hhi]; exact hmatch
      exact ⟨_, exec_quarantineTestEnd_passed ht hres, State.testPassed_core _ hhi⟩

end Sys2Proof.Machine
end
section
/-!
SUPPORT. A sheaf of a one-lane channel that passes: its commit, and the packets that its release signals (R203 to R210, R213, R215).
-/

namespace Sys2Proof.Machine

open Config (Parsed)

/-! ### Packets of a sheaf (R205 to R208) -/

/-- The packets belong to one sheaf of one channel. -/
def MPkt.SameSheaf (p b : MPkt) : Prop := p.ch = b.ch ∧ p.fr = b.fr ∧ p.sh = b.sh

theorem numberPkts_sameSheaf (b : MPkt) (seq var : Nat) (fin : Bool) (ps : List (List Byte)) :
    ∀ p ∈ numberPkts b seq var fin ps, p.SameSheaf b := by
  intro p hp
  obtain ⟨i, hi, rfl⟩ := List.mem_mapIdx.mp hp
  exact ⟨rfl, rfl, rfl⟩

theorem rootPkts_sameSheaf (c : Class) (q : Sess) (b : MPkt) (ps : List (List Byte)) : ∀ p ∈ rootPkts c q b ps, p.SameSheaf b := by
  intro p hp
  obtain ⟨i, hi, rfl⟩ := List.mem_mapIdx.mp hp
  exact ⟨rfl, rfl, rfl⟩

theorem sheafPkts_sameSheaf (c : Class) (b : MPkt) (seq : Nat) (fin : Bool) (o : Coded) :
    ∀ p ∈ (sheafPkts c b seq fin o).1, p.SameSheaf b := by
  intro p hp
  unfold sheafPkts at hp
  dsimp only at hp
  split at hp
  · have hmarked := numberPkts_sameSheaf { b with bit := (b.fr + b.sh) % 32 }
    rcases List.mem_append.mp hp with h | h
    · rcases List.mem_append.mp h with h | h
      · exact hmarked _ _ _ _ p h
      · exact hmarked _ _ _ _ p h
    · exact hmarked _ _ _ _ p h
  · exact numberPkts_sameSheaf _ _ _ _ _ p hp

theorem markFirst_sameSheaf {b : MPkt} {ps : List MPkt} (h : ∀ p ∈ ps, p.SameSheaf b) : ∀ p ∈ markFirst ps, p.SameSheaf b := by
  cases ps with
  | nil => exact h
  | cons p ps =>
    rw [List.forall_mem_cons] at h
    exact List.forall_mem_cons.mpr ⟨h.1, h.2⟩

theorem firstPay_sameSheaf (c : Class) (sent : Bool) {p b : MPkt} (h : p.SameSheaf b) : (firstPay c sent p).SameSheaf b := by
  unfold firstPay
  split <;> exact h

/-! ### The packetiser (R208, R215) -/

/-- A state without what the release of a sheaf changes: the session's numbers, the ring slot, the core's counters, and the packets. -/
def State.unreleased (s : State) : State := { s with ing := {}, sess := [], enc := [], rep := {}, egr := {} }

/-- The core is idle after a run that passed (R213). -/
def State.IdlePassed (s : State) (k : Nat) : Prop := (s.encOf k).act = 0 ∧ (s.encOf k).verdict = 1

section
variable {s : State} {k : Nat}

theorem State.setEnc_idlePassed (s : State) (k : Nat) {v : EncCore} (ha : v.act = 0) (hv : v.verdict = 1) :
    (s.setEnc k v).IdlePassed k := by
  have hne : v ≠ {} := fun e => absurd hv (by rw [e]; decide)
  have hget : (s.setEnc k v).encOf k = v := Tbl.get_set_ne ({} : EncCore) _ k v hne
  exact ⟨by rw [hget]; exact ha, by rw [hget]; exact hv⟩

theorem State.IdlePassed.encCnt (h : s.IdlePassed k) (i n : Nat) : (s.encCnt k i n).IdlePassed k :=
  State.setEnc_idlePassed s k (v := { s.encOf k with cnt := (s.encOf k).cnt.upd 0 i (cntAdd n) }) h.1 h.2

theorem State.IdlePassed.of_enc {t : State} (h : s.IdlePassed k) (he : t.enc = s.enc) : t.IdlePassed k := by
  unfold State.IdlePassed State.encOf
  rw [he]
  exact h

theorem State.writePkt_unreleased (s : State) (k : Nat) (p : MPkt) : (s.writePkt k p).unreleased = s.unreleased := by
  unfold State.writePkt
  dsimp only
  split <;> rfl

theorem State.IdlePassed.writePkt (h : s.IdlePassed k) (p : MPkt) : (s.writePkt k p).IdlePassed k := by
  unfold State.writePkt
  dsimp only
  split
  · exact h
  · exact State.IdlePassed.encCnt (State.IdlePassed.encCnt (h.of_enc rfl) 8 1) 9 _

/-- A packet is signalled, unless the packet engine's clock is stopped (R476). -/
theorem State.writePkt_sigQ (s : State) (k : Nat) (p : MPkt) :
    ∃ qs, (s.writePkt k p).rep.sigQ = s.rep.sigQ ++ qs ∧ ∀ q ∈ qs, q.SameSheaf p := by
  have hsig : (s.writePkt k p).rep.sigQ = if s.stopped 6 then s.rep.sigQ else s.rep.sigQ ++ [{ p with pid := s.rep.nextPid }] := by
    unfold State.writePkt
    dsimp only
    split <;> rfl
  rw [hsig]
  split
  · exact ⟨[], (List.append_nil _).symm, fun q hq => absurd hq List.not_mem_nil⟩
  · refine ⟨_, rfl, fun q hq => ?_⟩
    rw [List.mem_singleton.mp hq]
    exact ⟨rfl, rfl, rfl⟩

theorem foldl_writePkt_unreleased (k : Nat) (ps : List MPkt) (s : State) :
    (ps.foldl (fun s p => s.writePkt k p) s).unreleased = s.unreleased :=
  foldl_keeps State.unreleased (fun s p => s.writePkt_unreleased k p) ps s

theorem State.IdlePassed.foldl_writePkt (h : s.IdlePassed k) (ps : List MPkt) :
    (ps.foldl (fun s p => s.writePkt k p) s).IdlePassed k := by
  induction ps generalizing s with
  | nil => exact h
  | cons p ps ih => exact ih (h.writePkt p)

theorem foldl_writePkt_sigQ (k : Nat) {b : MPkt} {ps : List MPkt} (h : ∀ p ∈ ps, p.SameSheaf b) (s : State) :
    ∃ qs, (ps.foldl (fun s p => s.writePkt k p) s).rep.sigQ = s.rep.sigQ ++ qs ∧ ∀ q ∈ qs, q.SameSheaf b := by
  induction ps generalizing s with
  | nil => exact ⟨[], (List.append_nil _).symm, fun q hq => absurd hq List.not_mem_nil⟩
  | cons p ps ih =>
    obtain ⟨hp, hps⟩ := List.forall_mem_cons.mp h
    obtain ⟨as, hwrite, has⟩ := s.writePkt_sigQ k p
    obtain ⟨qs, hrest, hqs⟩ := ih hps (s.writePkt k p)
    refine ⟨as ++ qs, by rw [List.foldl_cons, hrest, hwrite, List.append_assoc], fun q hq => ?_⟩
    rcases List.mem_append.mp hq with hq | hq
    · obtain ⟨hch, hfr, hsh⟩ := has q hq
      exact ⟨hch.trans hp.1, hfr.trans hp.2.1, hsh.trans hp.2.2⟩
    · exact hqs q hq

/-- The packetiser of a one-part sheaf writes packets of that sheaf, one after the other. -/
theorem State.packetise_single (s : State) (c : Class) (k ch : Nat) (r : Run) (o : Coded) :
    ∃ (ps : List MPkt) (v : Tbl Sess) (b : MPkt), s.packetise c k ch [(r, o)] = ps.foldl (fun s p => s.writePkt k p) { s with sess := v }
      ∧ (∀ p ∈ ps, p.SameSheaf b) ∧ b.ch = ch ∧ b.fr = r.fr ∧ b.sh = r.sh := by
  let q := s.ownSess r
  let b := basePkt c q r.dec ch r.fr r.sh
  let root := rootPkts c q b (rootPackets c o.rootN o.root)
  let pre := numberPkts b q.seq 0 false (prePackets c o.pre)
  let body := (sheafPkts c b (q.seq + pre.length) (decide (r.sh + 1 = sheavesOf q.h) && decide (0 + 1 = 1)) o).1
  let next := (sheafPkts c b (q.seq + pre.length) (decide (r.sh + 1 = sheavesOf q.h) && decide (0 + 1 = 1)) o).2
  let all := root ++ (if r.sh = 0 then markFirst (pre ++ body) else pre ++ body)
  have hpre : ∀ p ∈ pre ++ body, p.SameSheaf b :=
    List.forall_mem_append.mpr ⟨numberPkts_sameSheaf _ _ _ _ _, sheafPkts_sameSheaf _ _ _ _ _⟩
  have hall : ∀ p ∈ all, p.SameSheaf b := by
    refine List.forall_mem_append.mpr ⟨rootPkts_sameSheaf _ _ _ _, ?_⟩
    split
    · exact markFirst_sameSheaf hpre
    · exact hpre
  have hsess : (if (s.sessOf ch).id = q.id then
        s.setSess ch { q with seq := next % 65536, sent := true, grey := q.grey && decide (r.sh ≠ 0) } else s)
      = { s with sess := if (s.sessOf ch).id = q.id then
          s.sess.set {} ch { q with seq := next % 65536, sent := true, grey := q.grey && decide (r.sh ≠ 0) } else s.sess } := by
    split <;> rfl
  have hpack : s.packetise c k ch [(r, o)]
      = (match all with | p :: ps => firstPay c q.sent p :: ps | [] => []).foldl (fun s p => s.writePkt k p)
        (if (s.sessOf ch).id = q.id then
          s.setSess ch { q with seq := next % 65536, sent := true, grey := q.grey && decide (r.sh ≠ 0) } else s) := rfl
  rw [hpack, hsess]
  refine ⟨_, _, b, rfl, ?_, rfl, rfl, rfl⟩
  cases hl : all with
  | nil => exact fun p hp => absurd hp List.not_mem_nil
  | cons p ps =>
    rw [hl, List.forall_mem_cons] at hall
    exact List.forall_mem_cons.mpr ⟨firstPay_sameSheaf c _ hall.1, hall.2⟩

end

/-! ### The release of a sheaf before the last (R166, R208) -/

/-- A coded sheaf that is not its picture's last is packetised, and its ring slot holds one sheaf fewer. -/
theorem State.releaseSheaf_inside (s : State) (c : Class) (k : Nat) {r : Run} {o : Coded} (ho : r.coded = some o)
    (hlast : r.sh + 1 ≠ sheavesOf r.own.h) :
    ∃ i, s.releaseSheaf c k [r] = { s.packetise c k r.ch [(r, o)] with ing := i } := by
  have hout : ([r].filterMap fun r => r.coded.map fun o => (r, o)) = [(r, o)] := by simp [ho]
  unfold State.releaseSheaf
  dsimp only
  rw [hout, if_neg fun h => hlast h.1]
  split
  · exact ⟨_, rfl⟩
  · exact ⟨_, rfl⟩

/-- What the release leaves: all but the packets, the numbers and the counters; it signals packets of the sheaf alone. -/
theorem State.releaseSheaf_leaves {s : State} (c : Class) {k : Nat} {r : Run} {o : Coded} (ho : r.coded = some o)
    (hlast : r.sh + 1 ≠ sheavesOf r.own.h) (hk : s.IdlePassed k) :
    (s.releaseSheaf c k [r]).unreleased = s.unreleased ∧ (s.releaseSheaf c k [r]).IdlePassed k
      ∧ ∃ ps, (s.releaseSheaf c k [r]).rep.sigQ = s.rep.sigQ ++ ps ∧ ∀ p ∈ ps, p.ch = r.ch ∧ p.fr = r.fr ∧ p.sh = r.sh := by
  obtain ⟨i, hrel⟩ := s.releaseSheaf_inside c k ho hlast
  obtain ⟨ps, v, b, hpack, hps, hch, hfr, hsh⟩ := s.packetise_single c k r.ch r o
  rw [hrel, hpack]
  obtain ⟨qs, hsig, hqs⟩ := foldl_writePkt_sigQ k hps { s with sess := v }
  have hidle : ({ s with sess := v } : State).IdlePassed k := hk.of_enc rfl
  refine ⟨foldl_writePkt_unreleased k ps { s with sess := v }, (hidle.foldl_writePkt ps).of_enc rfl, qs, hsig, fun p hp => ?_⟩
  obtain ⟨hpch, hpfr, hpsh⟩ := hqs p hp
  exact ⟨hpch.trans hch, hpfr.trans hfr, hpsh.trans hsh⟩

/-! ### The commit (R203, R209, R210) -/

section
variable (s : State) (c : Class) (r : Run) (o : Coded)

theorem State.rcEvents_frame : s.rcEvents r = { s with rcCnt := (s.rcEvents r).rcCnt } := by
  have hcount (b : Bool) (i : Nat) (t : State) : (if b then t.rcCount r.ch r.part i 1 else t)
      = { t with rcCnt := if b then (t.rcCount r.ch r.part i 1).rcCnt else t.rcCnt } := by cases b <;> rfl
  unfold State.rcEvents
  dsimp only
  simp only [hcount]

theorem State.noteFilled_frame : s.noteFilled c r o = { s with ing := (s.noteFilled c r o).ing } := by
  unfold State.noteFilled
  dsimp only
  split <;> rfl

/-- A fold of writes of the granary is a write of the granary. -/
theorem foldl_hbm {α : Type} {f : State → α → State} (h : ∀ s a, ∃ m, f s a = { s with hbm := m }) (as : List α) (s : State) :
    ∃ m, as.foldl f s = { s with hbm := m } := by
  induction as generalizing s with
  | nil => exact ⟨s.hbm, rfl⟩
  | cons a as ih =>
    obtain ⟨m, hm⟩ := h s a
    obtain ⟨n, hn⟩ := ih (f s a)
    exact ⟨n, by rw [List.foldl_cons, hn, hm]⟩

theorem State.writeRecon_frame : ∃ m, s.writeRecon c r o = { s with hbm := m } := by
  unfold State.writeRecon
  split
  · exact foldl_hbm (fun _ _ => ⟨_, rfl⟩) o.rows s
  · exact ⟨s.hbm, rfl⟩

/-- The samples of a run depend on nothing of the rota, the cores and the counters. -/
theorem State.writeRecon_with (ro : Rota) (e : Tbl EncCore) (n : Tbl Cnt) :
    ({ s with rota := ro, enc := e, rcCnt := n } : State).writeRecon c r o
      = { s.writeRecon c r o with rota := ro, enc := e, rcCnt := n } := by
  have hbuf : (({ s with rota := ro, enc := e, rcCnt := n } : State).rcOf r.ch).bufOf r.part (r.fr + 1)
      = (s.rcOf r.ch).bufOf r.part (r.fr + 1) := rfl
  unfold State.writeRecon
  rw [hbuf]
  split
  · exact List.foldl_hom (fun t : State => ({ t with rota := ro, enc := e, rcCnt := n } : State)) (fun _ _ => rfl)
  · rfl

/-- The channel state that a sheaf commits (R210). -/
def State.committed : Rc :=
  { (s.rcOf r.ch).commit c (s.sessOf r.ch) r o with old := (s.rcOf r.ch).runCopy (s.sessOf r.ch).seq }

/-- The state with the channel state committed, and with it the picture's samples and the record (R209, R210). -/
def State.stored : State := (({ s with rc := s.rc.set {} r.ch (s.committed c r o) } : State).writeRecon c r o).storeRec c r.ch r.part

theorem State.stored_frame :
    s.stored c r o = { s with rc := s.rc.set {} r.ch (s.committed c r o), hbm := (s.stored c r o).hbm } := by
  obtain ⟨m, hm⟩ := State.writeRecon_frame { s with rc := s.rc.set {} r.ch (s.committed c r o) } c r o
  unfold State.stored
  rw [hm]
  rfl

/-- The sheaf of a run that passed leaves its pending list (R126). -/
def Rota.unpended (ro : Rota) (r : Run) : Rota :=
  let v := ro.parts.get {} (2 * r.ch + r.part)
  { ro with parts := ro.parts.set {} (2 * r.ch + r.part) { v.keepOnly (fun x => !(x.fr == r.fr && x.sh == r.sh)) with errRun := none } }

/-- The commit: the pending list, what the channel state and the samples store, the events, and the core's counter. -/
theorem State.commitRun_eq (ro : Rota) (e : Tbl EncCore) : ∃ i n, ({ s with rota := ro, enc := e } : State).commitRun c r o
    = ({ s.stored c r o with rota := ro.unpended r, enc := e, ing := i, rcCnt := n } : State).encCnt r.core 1 1 := by
  let u : State := { s with rota := ro.unpended r, enc := e, rc := s.rc.set {} r.ch (s.committed c r o) }
  obtain ⟨n, hevents⟩ : ∃ n, u.rcEvents r = { u with rcCnt := n } := ⟨_, u.rcEvents_frame r⟩
  have hstored : ((u.rcEvents r).writeRecon c r o).storeRec c r.ch r.part
      = { s.stored c r o with rota := ro.unpended r, enc := e, rcCnt := n } := by
    rw [hevents]
    exact congrArg (fun t : State => t.storeRec c r.ch r.part)
      (State.writeRecon_with { s with rc := s.rc.set {} r.ch (s.committed c r o) } c r o (ro.unpended r) e n)
  have hfilled := State.noteFilled_frame (((u.rcEvents r).writeRecon c r o).storeRec c r.ch r.part) c r o
  have hcommit : ({ s with rota := ro, enc := e } : State).commitRun c r o
      = ((((u.rcEvents r).writeRecon c r o).storeRec c r.ch r.part).noteFilled c r o).encCnt r.core 1 1 := rfl
  rw [hcommit, hfilled, hstored]
  exact ⟨_, n, rfl⟩

end

/-! ### SHEAF_PASS (R126, R203 to R213) -/

section
variable {s : State} {l : Nat} {r : Run} {c : Class} {o : Coded}

/-- The rota once the lane's run has ended. -/
def State.rotaEnded (s : State) (l : Nat) : Rota := { s.rota with lanes := s.rota.lanes.set {} l { s.lane l with run := none } }

/-- The cores once the run's core is idle, with the verdict PASS (R213). -/
def State.encPassed (s : State) (r : Run) : Tbl EncCore := s.enc.set {} r.core { s.encOf r.core with act := 0, verdict := 1 }

/-- A sheaf of a one-lane channel that passes is committed and released. -/
theorem State.passRun_oneLane (hlanes : c.base.lanes ≠ 2) (hown : s.ownRun r = true) (hgone : s.frameGone c r.ch r.fr = false) :
    s.passRun c l r o = ((({ s with rota := s.rotaEnded l, enc := s.encPassed r } : State).commitRun c r o).releaseSheaf c r.core [r]) := by
  have hidle : (s.setLane l { s.lane l with run := none }).coreIdle r.core (some 1)
      = { s with rota := s.rotaEnded l, enc := s.encPassed r } := rfl
  have hown' : ({ s with rota := s.rotaEnded l, enc := s.encPassed r } : State).ownRun r = true := hown
  have hgone' : ({ s with rota := s.rotaEnded l, enc := s.encPassed r } : State).frameGone c r.ch r.fr = false := hgone
  rw [State.passRun]
  dsimp only
  rw [hidle, hown', hgone', if_neg (by decide), if_neg (by decide), State.passPart, if_pos hlanes]

/-- What a sheaf that passes leaves. -/
theorem State.passRun_leaves (ho : r.coded = some o) (hlanes : c.base.lanes ≠ 2) (hown : s.ownRun r = true)
    (hgone : s.frameGone c r.ch r.fr = false) (hlast : r.sh + 1 ≠ sheavesOf r.own.h) :
    ∃ n, (s.passRun c l r o).unreleased
        = ({ s with rota := (s.rotaEnded l).unpended r, rc := s.rc.set {} r.ch (s.committed c r o), hbm := (s.stored c r o).hbm, rcCnt := n }
          : State).unreleased
      ∧ (s.passRun c l r o).IdlePassed r.core
      ∧ ∃ ps, (s.passRun c l r o).rep.sigQ = s.rep.sigQ ++ ps ∧ ∀ p ∈ ps, p.ch = r.ch ∧ p.fr = r.fr ∧ p.sh = r.sh := by
  obtain ⟨i, n, hcommit⟩ := s.commitRun_eq c r o (s.rotaEnded l) (s.encPassed r)
  obtain ⟨m, hstored⟩ : ∃ m, s.stored c r o = { s with rc := s.rc.set {} r.ch (s.committed c r o), hbm := m } :=
    ⟨_, s.stored_frame c r o⟩
  let u : State := { s with
    rota := (s.rotaEnded l).unpended r, rc := s.rc.set {} r.ch (s.committed c r o), hbm := m, enc := s.encPassed r, ing := i, rcCnt := n }
  have hidle : u.IdlePassed r.core :=
    (s.setEnc_idlePassed r.core (v := { s.encOf r.core with act := 0, verdict := 1 }) rfl rfl).of_enc rfl
  obtain ⟨hleft, hpassed, hsig⟩ := State.releaseSheaf_leaves c ho hlast (hidle.encCnt 1 1)
  rw [State.passRun_oneLane hlanes hown hgone, hcommit, hstored]
  exact ⟨n, hleft, hpassed, hsig⟩

theorem exec_sheafPass (ps : List Parsed) (hr : (s.lane l).run = some r) (hk : r.kind ≠ 2) (hc : s.cls r.ch = some c)
    (ho : r.coded = some o) :
    exec (.sheafPass l ps) s = .next (if o.passes ps = true then s.passRun c l r o else s.threshFailed l) := by
  simp only [exec, execSheafPass, hr, hc, ho, if_neg hk]

theorem exec_threshFail (ps : List Parsed) (hr : (s.lane l).run = some r) :
    exec (.threshFail l ps) s = .next (if r.fails ps = true then s.threshFailed l else s) := by
  simp only [exec, execThreshFail, hr]

end

/-- Settles O14: the commit by `commitRun_eq`, the packets by `releaseSheaf_leaves`; a failed check is that of THRESH_FAIL. -/
theorem sheafPasses : Obligations.SheafPasses := by
  unfold Obligations.SheafPasses
  intro s l ps r c o hr hk hc ho
  refine ⟨fun hlanes hown hgone hpass hlast => ?passes, fun hfail => ?fails⟩
  case passes =>
    obtain ⟨n, hleft, ⟨hact, hverdict⟩, hsig⟩ := State.passRun_leaves (l := l) ho hlanes hown hgone hlast
    exact ⟨s.passRun c l r o, (exec_sheafPass ps hr hk hc ho).trans (by rw [if_pos hpass]), (congrArg State.rota hleft :),
      (congrArg State.rc hleft :), (congrArg State.hbm hleft :), hact, hverdict, hsig, (congrArg State.flt hleft :),
      (congrArg State.sec hleft :), (congrArg State.led hleft :), (congrArg State.chip hleft :)⟩
  case fails =>
    have hfails : r.fails ps = true := by simp [Run.fails, ho, hfail]
    rw [exec_sheafPass ps hr hk hc ho, exec_threshFail ps hr, if_neg (by simp [hfail]), if_pos hfails]

end Sys2Proof.Machine
end
section
/-!
SUPPORT. How runs of the encode lanes start (R124 to R128, R171, R191, R210, R401): a frame's decisions while its runs are in progress,
the ordering condition, and what a run that starts leaves.
-/

namespace Sys2Proof.Machine

/-! ### A frame's decisions (R191, R210, R223) -/

/-- A search that falls back on a value finds the same where some of the places that held nothing come to hold what it found. -/
theorem findSome?_getD_filled {α β : Type} {f g : α → Option β} {d₀ d : β} {l : List α} (hd : (l.findSome? f).getD d₀ = d)
    (h : ∀ j ∈ l, g j = f j ∨ (f j = none ∧ g j = some d)) : (l.findSome? g).getD d₀ = d := by
  induction l with
  | nil => exact hd
  | cons j l ih =>
    obtain ⟨hj, hl⟩ := List.forall_mem_cons.mp h
    rw [List.findSome?_cons] at hd ⊢
    cases hf : f j with
    | some e =>
      have hg : g j = some e := by
        rcases hj with hj | ⟨hnone, -⟩
        · rw [hj, hf]
        · rw [hf] at hnone; cases hnone
      rw [hf] at hd
      rw [hg]
      exact hd
    | none =>
      rw [hf] at hd
      rcases hj with hj | ⟨-, hj⟩
      · rw [hj, hf]
        exact ih hd hl
      · rw [hj]
        rfl

/-- The decisions with which the run of a lane executes a frame of the channel's session. -/
def State.runDec (s : State) (ch fr l : Nat) : Option FrDec :=
  (s.lane l).run.bind fun r =>
    if r.kind ≠ 2 ∧ r.ch = ch ∧ r.fr = fr ∧ r.own.id = (s.sessOf ch).id then some r.dec else none

section
variable {s t : State} {c : Class} {ch fr : Nat}

theorem State.frameDec_decided (h : (s.rcOf ch).decided fr = true) : s.frameDec c ch fr = (s.rcOf ch).dec := by
  rw [State.frameDec, if_pos h]

theorem State.frameDec_undecided (h : (s.rcOf ch).decided fr = false) : s.frameDec c ch fr
    = (laneNums.findSome? (s.runDec ch fr)).getD (frameDecision c (s.sessOf ch) (s.rcOf ch) fr (s.frameCut c ch fr)) := by
  rw [State.frameDec, if_neg (by simp [h])]
  unfold State.runDec
  split <;> rename_i hd <;> rw [hd] <;> rfl

/-- A run that begins with the frame's decisions leaves them as they are. -/
theorem State.frameDec_congr (hrc : t.rc = s.rc) (hsess : t.sess = s.sess) (hing : t.ing = s.ing)
    (h : ∀ l ∈ laneNums, t.runDec ch fr l = s.runDec ch fr l
      ∨ (s.runDec ch fr l = none ∧ t.runDec ch fr l = some (s.frameDec c ch fr))) :
    t.frameDec c ch fr = s.frameDec c ch fr := by
  have hrcOf : t.rcOf ch = s.rcOf ch := by rw [State.rcOf, hrc, State.rcOf]
  have hsessOf : t.sessOf ch = s.sessOf ch := by rw [State.sessOf, hsess, State.sessOf]
  have hcut : t.frameCut c ch fr = s.frameCut c ch fr := by simp only [State.frameCut, State.ingOf, hing]
  cases hd : (s.rcOf ch).decided fr with
  | true => rw [State.frameDec_decided hd, State.frameDec_decided (by rw [hrcOf]; exact hd), hrcOf]
  | false =>
    rw [State.frameDec_undecided (s := t) (by rw [hrcOf]; exact hd), hrcOf, hsessOf, hcut]
    exact findSome?_getD_filled (State.frameDec_undecided hd).symm h

theorem Rc.setRec_dec (v : Rc) (p : Nat) (k : ChanRec) : (v.setRec p k).dec = v.dec := rfl

theorem Rc.xsStart_dec (v : Rc) (c : Class) (q : Sess) : (v.xsStart c q).dec = v.dec :=
  foldl_proj Rc.dec (fun v p => v.setRec_dec p _) _ v

theorem Rc.takeBuf_dec (v : Rc) (c : Class) (fr : Nat) : (v.takeBuf c fr).dec = v.dec :=
  foldl_proj Rc.dec (fun v p => by split <;> rfl) _ v

theorem Rc.applyDecision_dec (v : Rc) (c : Class) (q : Sess) (d : FrDec) : (v.applyDecision c q d).dec = d := by
  unfold Rc.applyDecision
  dsimp only
  rw [Rc.takeBuf_dec]
  dsimp only
  split
  · rw [Rc.xsStart_dec]
  · rfl

/-- A run starts with its frame's decisions in effect. -/
theorem State.rcAt_dec (s : State) (c : Class) (ch fr : Nat) : (s.rcAt c ch fr).dec = s.frameDec c ch fr := by
  unfold State.rcAt
  dsimp only
  split
  next hd => rw [State.frameDec_decided hd]
  next => exact Rc.applyDecision_dec _ _ _ _

theorem State.rcAt_congr (hrc : t.rc = s.rc) (hsess : t.sess = s.sess) (hdec : t.frameDec c ch fr = s.frameDec c ch fr) :
    t.rcAt c ch fr = s.rcAt c ch fr := by
  have hrcOf : t.rcOf ch = s.rcOf ch := by rw [State.rcOf, hrc, State.rcOf]
  have hsessOf : t.sessOf ch = s.sessOf ch := by rw [State.sessOf, hsess, State.sessOf]
  unfold State.rcAt
  rw [hrcOf, hsessOf, hdec]

/-! ### The fetch of a run's reference (R188, R401) -/

theorem State.fabVerdict_congr (hfab : t.fab = s.fab) (q : FabReq) : t.fabVerdict q = s.fabVerdict q := by
  unfold State.fabVerdict State.inWindow State.winGrants State.winAlias
  rw [hfab]

theorem State.fetchVerdict_congr {r : Run} (hrc : t.rcAt c r.ch r.fr = s.rcAt c r.ch r.fr) (himg : t.img = s.img)
    (hfab : t.fab = s.fab) : t.fetchVerdict c r = s.fetchVerdict c r := by
  have haddr (b plane row : Nat) : t.reconAddr c r.ch b plane row = s.reconAddr c r.ch b plane row := by
    simp only [State.reconAddr, State.regionBase, himg]
  simp only [State.fetchVerdict, hrc, haddr, State.fabVerdict_congr hfab]

theorem State.codeReady_eq (s : State) (c : Class) (r : Run) :
    ∃ o, s.codeReady c r = { r with coded := o } ∧ (r.coded = none → (o.isSome = true ↔ s.noticed c r = true)) := by
  unfold State.codeReady
  split
  next h => exact ⟨_, rfl, fun _ => iff_of_true rfl h⟩
  next h => exact ⟨r.coded, rfl, fun hn => iff_of_false (by simp [hn]) h⟩

/-- A fold of writes of the scratchpads is a write of the scratchpads. -/
theorem foldl_chip {α : Type} {f : State → α → State} (h : ∀ s a, ∃ m, f s a = { s with chip := m }) (as : List α) (s : State) :
    ∃ m, as.foldl f s = { s with chip := m } := by
  induction as generalizing s with
  | nil => exact ⟨s.chip, rfl⟩
  | cons a as ih =>
    obtain ⟨m, hm⟩ := h s a
    obtain ⟨n, hn⟩ := ih (f s a)
    exact ⟨n, by rw [List.foldl_cons, hn, hm]⟩

theorem State.barnFill_frame (s : State) (c : Class) (r : Run) : ∃ m, s.barnFill c r = { s with chip := m } :=
  foldl_chip (fun s e => by split; exacts [⟨_, rfl⟩, ⟨s.chip, rfl⟩]) _ s

/-- A run whose fetch the firewall allows is held by its lane; beyond that it concerns the core's counters and the barn's scratchpad. -/
theorem State.holdRun_allowed (s : State) (c : Class) (l : Nat) (r : Run)
    (h : ∀ n, (s.setLane l { s.lane l with run := some (s.codeReady c r) }).fetchVerdict c (s.codeReady c r) ≠ .violation n) :
    ∃ e m, s.holdRun c l r = { s.setLane l { s.lane l with run := some (s.codeReady c r) } with enc := e, chip := m } := by
  unfold State.holdRun
  dsimp only
  split
  · split
    next n hn => exact absurd hn (h n)
    next =>
      obtain ⟨m, hm⟩ := (s.setLane l { s.lane l with run := some (s.codeReady c r) }).barnFill_frame c (s.codeReady c r)
      rw [hm]
      split
      · exact ⟨_, _, rfl⟩
      · exact ⟨_, _, rfl⟩
  · exact ⟨_, _, rfl⟩

end

/-! ### A run starts (R124, R171, R210) -/

section
variable (s : State)

/-- A lane that holds anything reads back, and leaves the other lanes. -/
theorem State.setLane_lane_of_ne (l : Nat) {v : Lane} (h : v ≠ {}) (j : Nat) :
    (s.setLane l v).lane j = if j = l then v else s.lane j := by
  by_cases hj : j = l
  · rw [if_pos hj, hj]
    exact Tbl.get_set_ne ({} : Lane) _ l v h
  · rw [if_neg hj]
    exact Tbl.get_set_other ({} : Lane) _ v h hj

theorem Lane.ne_of_run {v : Lane} {r : Run} (h : v.run = some r) : v ≠ {} := fun e => by simp [e] at h

theorem Lane.ne_of_bound {v : Lane} {k : Nat} (h : v.bound = some k) : v ≠ {} := fun e => by simp [e] at h

variable {s}

/-- A run of a SHEAF entry on an idle lane whose fetch is allowed: its lane holds the run as it was planned, coded where its sheaf's notice
has been sent; the channel state and the sessions are as they were. -/
theorem State.startRun_allowed {c : Class} {l k ch p : Nat} {x : ShId} (hidle : (s.lane l).run = none)
    (hbound : (s.lane l).bound = some k)
    (hfetch : ∀ n, s.fetchVerdict c (s.planRun c k ch p 0 x) ≠ .violation n) :
    ∃ r, ((s.startRun c l k ch p 0 x).lane l).run = some r
      ∧ (∃ o, r = { s.planRun c k ch p 0 x with coded := o } ∧ (o.isSome = true ↔ s.noticed c (s.planRun c k ch p 0 x) = true))
      ∧ (s.startRun c l k ch p 0 x).rc = s.rc ∧ (s.startRun c l k ch p 0 x).sess = s.sess := by
  let u : State := ((s.setLane l { s.lane l with nRun := (s.lane l).nRun + 1 }).setEnc k
    { s.encOf k with ch := ch, sh := x.sh, part := partCode c p, act := 1 }).encCnt k 0 1
  have hstart : s.startRun c l k ch p 0 x = u.holdRun c l (s.planRun c k ch p 0 x) := rfl
  obtain ⟨o, hcode, hcoded⟩ := u.codeReady_eq c (s.planRun c k ch p 0 x)
  have hu (j : Nat) : u.lane j = if j = l then { s.lane l with nRun := (s.lane l).nRun + 1 } else s.lane j :=
    s.setLane_lane_of_ne l (v := { s.lane l with nRun := (s.lane l).nRun + 1 }) (Lane.ne_of_bound hbound) j
  let w : State := u.setLane l { u.lane l with run := some (u.codeReady c (s.planRun c k ch p 0 x)) }
  have hw (j : Nat) : w.lane j = if j = l then { u.lane l with run := some (u.codeReady c (s.planRun c k ch p 0 x)) } else u.lane j :=
    u.setLane_lane_of_ne l
      (Lane.ne_of_run (v := { u.lane l with run := some (u.codeReady c (s.planRun c k ch p 0 x)) }) rfl) j
  have hdec : w.frameDec c ch x.fr = s.frameDec c ch x.fr := by
    refine State.frameDec_congr rfl rfl rfl fun j _ => ?_
    by_cases hj : j = l
    · refine .inr ⟨?_, ?_⟩
      · rw [State.runDec, hj, hidle]
        rfl
      · rw [State.runDec, hw, if_pos hj, hcode]
        dsimp only [Option.bind]
        rw [if_pos ⟨(by decide : (0 : Nat) ≠ 2), rfl, rfl, rfl⟩]
        exact congrArg some (s.rcAt_dec c ch x.fr)
    · refine .inl ?_
      rw [State.runDec, hw, if_neg hj, hu, if_neg hj]
      rfl
  have hverdict : w.fetchVerdict c (u.codeReady c (s.planRun c k ch p 0 x)) = s.fetchVerdict c (s.planRun c k ch p 0 x) := by
    rw [hcode]
    exact State.fetchVerdict_congr (r := s.planRun c k ch p 0 x) (State.rcAt_congr rfl rfl hdec) rfl rfl
  obtain ⟨e, m, hhold⟩ := u.holdRun_allowed c l (s.planRun c k ch p 0 x) fun n => by rw [hverdict]; exact hfetch n
  rw [hstart, hhold]
  refine ⟨_, (congrArg Lane.run ((hw l).trans (if_pos rfl)) :), ⟨o, hcode, hcoded rfl⟩, rfl, rfl⟩

end

/-! ### The ordering condition (R125, R145) -/

theorem ShId.lt_asymm {a b : ShId} (h : a.lt b = true) : b.lt a = false := by
  simp only [ShId.lt, Bool.or_eq_true, Bool.and_eq_true, decide_eq_true_eq, Bool.or_eq_false_iff, Bool.and_eq_false_iff,
    decide_eq_false_iff_not] at h ⊢
  omega

/-- Every sheaf of a channel part earlier than `x` has passed in it. -/
def State.partPassed (s : State) (c : Class) (ch : Nat) (x : ShId) (p : Nat) : Bool :=
  (s.unissued c ch p x).isEmpty && (s.part ch p).pend.all (fun y => !y.lt x)
    && (s.part ch p).passed.all (fun r => r.own.id != (s.sessOf ch).id || !({ fr := r.fr, sh := r.sh } : ShId).lt x)
    && (match s.runningSheaf ch p with
        | some y => !y.lt x
        | none => true)

section
variable {s : State} {c : Class} {ch p : Nat} {x : ShId}

theorem State.earlierPassed_eq (s : State) (c : Class) (ch : Nat) (x : ShId) :
    s.earlierPassed c ch x = (partsOf c).all (s.partPassed c ch x) := rfl

/-- Every sheaf issued so far is earlier than `x`: its own run has neither started nor been passed over. -/
theorem PartSt.issued_before {v : PartSt} (h : ∀ y, v.issued = some y → y.lt x = true) : (v.issued.all fun y => y.lt x) = true := by
  cases hi : v.issued with
  | none => rfl
  | some y => exact h y hi

theorem PartSt.fresh_of_before {v : PartSt} (h : ∀ y, v.issued = some y → y.lt x = true) : v.fresh x = true := by
  rw [PartSt.fresh, PartSt.issued_before h, Bool.true_or]

/-- A sheaf after the last that was issued is noted as issued, and what it overtakes is owed. -/
theorem State.markIssued_next (h : ∀ y, (s.part ch p).issued = some y → y.lt x = true) :
    s.markIssued c ch p x = s.setPart ch p { s.part ch p with owed := s.unissued c ch p x, issued := some x } := by
  unfold State.markIssued
  dsimp only
  rw [if_pos (PartSt.issued_before h)]

theorem PartSt.ne_of_issued {v : PartSt} {x : ShId} (h : v.issued = some x) : v ≠ {} := fun e => by simp [e] at h

/-- Once a sheaf is issued, no earlier one but an owed one has its own run still to come. -/
theorem State.unissued_of_issued (hissued : (s.part ch p).issued = some x) (howed : (s.part ch p).owed = []) :
    s.unissued c ch p x = [] := by
  unfold State.unissued
  simp only [hissued, howed, List.filter_nil, List.nil_append, List.filter_eq_nil_iff]
  intro y _ hy
  simp only [Option.all_some, Bool.and_eq_true] at hy
  rw [ShId.lt_asymm hy.1.1] at hy
  exact absurd hy.1.2 (by decide)

theorem State.unissued_setPart {v : PartSt} {p' : Nat} (h : (s.setPart ch p v).part ch p' = s.part ch p') :
    (s.setPart ch p v).unissued c ch p' x = s.unissued c ch p' x := by
  unfold State.unissued
  rw [h]
  rfl

/-- The issue of a sheaf leaves the ordering condition that it met. -/
theorem State.earlierPassed_markIssued (h : ∀ y, (s.part ch p).issued = some y → y.lt x = true)
    (hpassed : s.earlierPassed c ch x = true) : (s.markIssued c ch p x).earlierPassed c ch x = true := by
  rw [State.earlierPassed_eq, List.all_eq_true] at hpassed ⊢
  rw [State.markIssued_next h]
  intro p' hp'
  have hs := hpassed p' hp'
  simp only [State.partPassed, Bool.and_eq_true] at hs ⊢
  obtain ⟨⟨⟨hunissued, hpend⟩, hpairs⟩, hrunning⟩ := hs
  let v : PartSt := { s.part ch p with owed := s.unissued c ch p x, issued := some x }
  have hne : v ≠ {} := PartSt.ne_of_issued (x := x) rfl
  by_cases hp : p' = p
  · subst hp
    have hpart : (s.setPart ch p' v).part ch p' = v := Tbl.get_set_ne ({} : PartSt) _ _ v hne
    refine ⟨⟨⟨?_, ?_⟩, ?_⟩, hrunning⟩
    · rw [State.unissued_of_issued (by rw [hpart]) (by rw [hpart]; exact List.isEmpty_iff.mp hunissued)]
      rfl
    · rw [hpart]; exact hpend
    · rw [hpart]; exact hpairs
  · have hpart : (s.setPart ch p v).part ch p' = s.part ch p' := Tbl.get_set_other ({} : PartSt) _ v hne (by omega)
    refine ⟨⟨⟨?_, ?_⟩, ?_⟩, hrunning⟩
    · rw [State.unissued_setPart hpart]
      exact hunissued
    · rw [hpart]; exact hpend
    · rw [hpart]; exact hpairs

end

/-! ### Entries of an idle lane (R124 to R128, R144, R211) -/

section
variable {s : State} {l idx k : Nat} {e : RunEnt}

theorem State.overrun_idle (h : (s.lane l).run = none) : s.overrun l = s := by rw [State.overrun, h]

theorem State.laneCore_bound (h : s.laneCore l = some k) : (s.lane l).bound = some k := by
  simp only [State.laneCore, Option.filter_eq_some_iff] at h
  exact h.1

theorem State.issues_of_run {n : Nat} (hstart : s.rota.started = true) (hst : s.glb.st = .run)
    (hnow : s.rota.notBefore ≤ n * slotTime) : s.issues n = true := by
  simp [State.issues, hstart, hst, hnow]

theorem State.reach_past {n : Nat} (h : n * slotTime ≤ s.time.ptp) : s.reach n = s := by
  simp only [State.reach, Int.toNat_natCast, if_neg (Nat.not_lt.mpr h)]

/-- A sheaf of the session, with nothing pending before it, runs in its own run (R125, R127). -/
theorem State.sheafRun_own {c : Class} {ch p len : Nat} {x : ShId} (hcore : s.laneCore l = some k)
    (hissued : ∀ y, (s.part ch p).issued = some y → y.lt x = true) (hown : s.ownSheaf c ch x = true) (hpend : (s.part ch p).pend = [])
    (hpassed : s.earlierPassed c ch x = true) :
    s.sheafRun c l ch p len x = (s.markIssued c ch p x).startRun c l k ch p 0 x := by
  have hpassed' := State.earlierPassed_markIssued hissued hpassed
  have hmark := State.markIssued_next (c := c) hissued
  have hfresh : (s.part ch p).fresh x = true := PartSt.fresh_of_before hissued
  have hpart : ((s.markIssued c ch p x).part ch p).pend = [] := by
    rw [hmark]
    have hne := PartSt.ne_of_issued (v := { s.part ch p with owed := s.unissued c ch p x, issued := some x }) (x := x) rfl
    exact (congrArg PartSt.pend (Tbl.get_set_ne ({} : PartSt) _ _ _ hne)).trans hpend
  have hcore' : (s.markIssued c ch p x).laneCore l = some k := by rw [hmark]; exact hcore
  have hfit : (s.markIssued c ch p x).oldestFit c ch p len = none := by
    simp only [State.oldestFit, State.oldestShort, hpart, Option.filter_none]
  have hbegun : (!(s.sessOf ch).isOpen || !(s.sessOf ch).n0set || decide (x.fr < (s.sessOf ch).n0)
      || decide (sheavesOf (s.sessOf ch).h ≤ x.sh)) = false := by
    simp only [State.ownSheaf, Bool.and_eq_true, decide_eq_true_eq] at hown
    obtain ⟨⟨⟨⟨hopen, hset⟩, hfirst⟩, hsh⟩, -⟩ := hown
    simp [hopen, hset, hfirst, hsh]
  unfold State.sheafRun
  dsimp only
  rw [hbegun, if_neg Bool.false_ne_true, hcore', hfit]
  simp only [hown, hfresh, hpart, hpassed', List.isEmpty_nil, Bool.and_self, if_true]

section
variable (he : s.laneEnt l idx = some e) (hlen : 1 ≤ e.len) (hpart : e.part ≠ 3) (hstart : s.rota.started = true)
  (hst : s.glb.st = .run) (hidle : (s.lane l).run = none) (hcore : s.laneCore l = some k)
include he hlen hpart hstart hst hidle hcore

theorem exec_sheafRunStart_own {c : Class} {hp : Nat} (hkind : e.kind = 0) (hc : s.cls e.ch = some c)
    (hnow : (12500 * hp + e.start) * slotTime ≤ s.time.ptp) (hbefore : s.rota.notBefore ≤ (12500 * hp + e.start) * slotTime)
    (hissued : ∀ y, (s.part e.ch (partOfCode e.part)).issued = some y
      → y.lt { fr := hp * framesPerHp c.base.rate + e.frame, sh := e.sheaf } = true)
    (hown : s.ownSheaf c e.ch { fr := hp * framesPerHp c.base.rate + e.frame, sh := e.sheaf } = true)
    (hpend : (s.part e.ch (partOfCode e.part)).pend = [])
    (hpassed : s.earlierPassed c e.ch { fr := hp * framesPerHp c.base.rate + e.frame, sh := e.sheaf } = true) :
    exec (.sheafRunStart l idx hp) s = .next
      ((s.markIssued c e.ch (partOfCode e.part) { fr := hp * framesPerHp c.base.rate + e.frame, sh := e.sheaf }).startRun
        c l k e.ch (partOfCode e.part) 0 { fr := hp * framesPerHp c.base.rate + e.frame, sh := e.sheaf }) := by
  have hissue := State.issues_of_run hstart hst hbefore
  have hlen' : (e.len == 0) = false := by simp; omega
  have hent : isSheafEnt e = true := by simp [isSheafEnt, hkind, hlen, hpart]
  have hfresh := PartSt.fresh_of_before hissued
  simp only [exec, execSheafRunStart, he, hissue, hlen', hkind, hc, State.reach_past hnow, State.overrun_idle hidle, hent, hfresh,
    State.sheafRun_own hcore hissued hown hpend hpassed]
  rfl

theorem exec_catchupRunStart_idle (hkind : e.kind = 1) (hnow : s.rota.notBefore ≤ s.nowSlot * slotTime) :
    exec (.catchupRunStart l idx) s = .next (match s.catchupPick l e.len with
      | some (c, ch, p, x) => s.startRun c l k ch p 1 x
      | none => s.fallow l) := by
  have hissue := State.issues_of_run hstart hst hnow
  have hlen' : (e.len == 0) = false := by simp; omega
  simp only [exec, execCatchupRunStart, he, hissue, hlen', hkind, State.overrun_idle hidle, if_neg hpart, hcore]
  cases s.catchupPick l e.len <;> rfl

/-- A GLEAN run counts for the lane and for the core, whose next case it encodes; its data go to the GLEAN region (R211). -/
theorem exec_gleanRunStart_idle (hkind : e.kind = 2) (hnow : s.rota.notBefore ≤ s.nowSlot * slotTime) : ∃ n m,
    exec (.gleanRunStart l idx) s = .next { s with
      rota := { s.rota with lanes := s.rota.lanes.set {} l { s.lane l with
        run := some { kind := 2, core := k, ch := 0, part := 0, fr := 0, sh := 0, gcase := gleanCaseAt s.img.glean 0 (s.encOf k).gleans }
        nRun := (s.lane l).nRun + 1 } }
      enc := n, hbm := m } := by
  have hissue := State.issues_of_run hstart hst hnow
  have hlen' : (e.len == 0) = false := by simp; omega
  have hgo : (!s.issues s.nowSlot || e.len == 0 || e.kind != 2) = false := by simp [hissue, hlen', hkind]
  have hrun : exec (.gleanRunStart l idx) s = .next (
      let t := (s.nextGlean k).2.setLane l { s.lane l with
        run := some { kind := 2, core := k, ch := 0, part := 0, fr := 0, sh := 0, gcase := (s.nextGlean k).1 }
        nRun := (s.lane l).nRun + 1 }
      ((t.gleanArea k (s.nextGlean k).1).setEnc k { t.encOf k with act := 2 }).encCnt k 6 1) := by
    simp only [exec, execGleanRunStart, he, hgo, State.overrun_idle hidle, if_neg hpart, hcore, Bool.false_eq_true, if_false]
    rfl
  rw [hrun]
  dsimp only
  rw [State.gleanArea_frame]
  exact ⟨_, _, rfl⟩

end

end

/-! ### The start of the rota (R144) -/

/-- What the sequencer's start sets, beside the sessions and the frames that open. -/
def State.sequencer (s : State) : Clock × Bool × Cnt × Tbl Lane := (s.time, s.rota.started, s.rota.hpCnt, s.rota.lanes)

section
variable (s : State)

theorem State.raise_sequencer {n : Nat} (hk : fltKind n = none) (hg : n < 0x040 ∨ 0x060 ≤ n) :
    (s.raise n).sequencer = s.sequencer := by
  obtain ⟨st, f, hc⟩ := s.raise_calm hk hg
  exact (congrArg State.sequencer hc :)

theorem State.bindClosed_sequencer (c : Class) (ch : Nat) : (s.bindClosed c ch).sequencer = s.sequencer := by
  unfold State.bindClosed
  dsimp only
  split <;> rfl

theorem State.setIng_sequencer (ch : Nat) (v : IngCh) : (s.setIng ch v).sequencer = s.sequencer := rfl

theorem State.refreshReq_sequencer (ch : Nat) (now : Bool) : (s.refreshReq ch now).sequencer = s.sequencer := by
  rw [State.refreshReq_frame]
  rfl

/-- A sheaf that closes complete concerns the ingress unit, rate control and the bound context. -/
theorem State.closeSheaf_complete_sequencer (c : Class) (ch sh : Nat) : (s.closeSheaf c ch sh false).sequencer = s.sequencer := by
  unfold State.closeSheaf
  dsimp only
  rw [if_neg Bool.false_ne_true]
  dsimp only
  refine iteInduction (motive := fun t : State => t.sequencer = s.sequencer) (fun _ => ?_) fun _ => ?_
  · rw [State.bindClosed_sequencer, State.setIng_sequencer]
    exact iteInduction (motive := fun t : State => t.sequencer = s.sequencer) (fun _ => State.refreshReq_sequencer _ ch true) fun _ => rfl
  · exact iteInduction (motive := fun t : State => t.sequencer = s.sequencer) (fun _ => State.refreshReq_sequencer _ ch true) fun _ => rfl

theorem State.settleSheaf_sequencer (c : Class) (ch sh : Nat) : (s.settleSheaf c ch sh).sequencer = s.sequencer := by
  unfold State.settleSheaf
  split
  · exact State.closeSheaf_complete_sequencer s c ch sh
  · rfl

theorem State.bindRows_sequencer (x b : Nat) : (s.bindRows x b).sequencer = s.sequencer := by
  unfold State.bindRows
  split
  · rfl
  · split
    · rfl
    · dsimp only
      split
      · exact foldl_keeps State.sequencer (fun s sh => s.settleSheaf_sequencer _ _ sh) _ _
      · rfl

theorem State.bindSkip_sequencer (x : Nat) (bufs : List Nat) : (s.bindSkip x bufs).sequencer = s.sequencer :=
  foldl_keeps State.sequencer (f := fun (s : State) b => s.markBuf x b fun m => { m with out := false }) (fun _ _ => rfl) bufs s

theorem State.noteConc_sequencer (ch x b flags : Nat) : (s.noteConc ch x b flags).sequencer = s.sequencer := by
  unfold State.noteConc
  split <;> rfl

theorem State.takePic_sequencer (c : Class) (ch x b : Nat) : (s.takePic c ch x b).sequencer = s.sequencer :=
  State.bindRows_sequencer _ x b

theorem State.bindFrame_sequencer (c : Class) (ch x : Nat) : (s.bindFrame c ch x).sequencer = s.sequencer := by
  unfold State.bindFrame
  dsimp only
  split
  · rfl
  next b w h flags older _ =>
    have hskip := ((s.setDcx x { s.dcxOf x with waiting := [] }).bindSkip_sequencer x (older.map fun e => e.1))
    split
    · rw [State.noteConc_sequencer, State.takePic_sequencer]
      exact hskip
    · rw [State.bindSkip_sequencer]
      exact hskip

theorem State.openFrame_sequencer (c : Class) (ch fr : Nat) : (s.openFrame c ch fr).sequencer = s.sequencer := by
  unfold State.openFrame
  dsimp only
  split
  · split
    · rw [State.bindFrame_sequencer]
      rfl
    · rfl
  · rw [State.raise_sequencer _ (by decide) (by decide)]
    rfl

theorem State.beginSession_sequencer (ch : Nat) (at_ : Bool) : (s.beginSession ch at_).sequencer = s.sequencer := by
  unfold State.beginSession
  split
  next c n _ _ =>
    exact iteInduction (motive := fun t : State => t.sequencer = s.sequencer) (fun _ => State.openFrame_sequencer _ c ch n) fun _ => rfl
  · rfl

variable {s}

theorem exec_rotaStart_starts (hoff : s.rota.started = false) (hst : s.glb.st = .run)
    (hlock : s.ptp.wasLocked = true ∨ s.rota.startNoLock = true) :
    ∃ t, exec .rotaStart s = .next t ∧ t.sequencer = (s.timeTo (ceilDiv s.time.ptp hpTime * hpTime)).rotaOn.sequencer := by
  have hgo : (s.glb.st == .run && !s.rota.started && (s.ptp.wasLocked || s.rota.startNoLock)) = true := by
    rcases hlock with h | h <;> simp [hoff, hst, h]
  refine ⟨_, by simp only [exec, execRotaStart]; rw [if_pos hgo], ?_⟩
  exact foldl_keeps State.sequencer (fun s ch => s.beginSession_sequencer ch true) _ _

end

/-- A sheaf's own run, started: the lane holds the sheaf's run, and the channel state is as it was unless the firewall refuses the fetch. -/
theorem State.startRun_markIssued {s : State} {c : Class} {l k ch p : Nat} {x : ShId}
    (hissued : ∀ y, (s.part ch p).issued = some y → y.lt x = true) (hidle : (s.lane l).run = none) (hcore : s.laneCore l = some k)
    (hfetch : ∀ n, s.fetchVerdict c ((s.markIssued c ch p x).planRun c k ch p 0 x) ≠ .violation n) :
    ∃ r, (((s.markIssued c ch p x).startRun c l k ch p 0 x).lane l).run = some r ∧ r.kind = 0 ∧ r.core = k ∧ r.ch = ch ∧ r.part = p
      ∧ r.fr = x.fr ∧ r.sh = x.sh ∧ r.own = s.sessOf ch ∧ (r.coded.isSome = true ↔ s.noticed c r = true)
      ∧ ((s.markIssued c ch p x).startRun c l k ch p 0 x).rc = s.rc ∧ ((s.markIssued c ch p x).startRun c l k ch p 0 x).sess = s.sess := by
  rw [State.markIssued_next hissued] at hfetch ⊢
  have hverdict (r : Run) (hch : r.ch = ch) (hfr : r.fr = x.fr) :
      (s.setPart ch p { s.part ch p with owed := s.unissued c ch p x, issued := some x }).fetchVerdict c r = s.fetchVerdict c r :=
    State.fetchVerdict_congr
      (by rw [hch, hfr]; exact State.rcAt_congr rfl rfl (State.frameDec_congr rfl rfl rfl fun _ _ => .inl rfl)) rfl rfl
  obtain ⟨r, hr, ⟨o, hplan, hcoded⟩, hrc, hsess⟩ := State.startRun_allowed hidle (State.laneCore_bound hcore)
    (s := s.setPart ch p { s.part ch p with owed := s.unissued c ch p x, issued := some x }) fun n => by
      rw [hverdict _ rfl rfl]
      exact hfetch n
  subst hplan
  exact ⟨_, hr, rfl, rfl, rfl, rfl, rfl, rfl, rfl, hcoded, hrc, hsess⟩

/-- What the rota's start at `b` leaves of the sequencer. -/
theorem State.sequencer_rotaOn {s t : State} {b : Nat} (h : t.sequencer = (s.timeTo b).rotaOn.sequencer) :
    t.rota.started = true ∧ t.rota.hpCnt = 0 ∧ t.time.ptp = b ∧ t.time.aon = s.time.aon ∧ t.rota.lanes = s.rota.lanes := by
  simp only [State.sequencer, Prod.mk.injEq] at h
  obtain ⟨htime, hon, hcnt, hlanes⟩ := h
  exact ⟨hon, hcnt, congrArg Clock.ptp htime, (congrArg Clock.aon htime :), hlanes⟩

/-- Settles O12: the start of the rota by `exec_rotaStart_starts`, and one lemma for each kind of entry. -/
theorem runsStart : Obligations.RunsStart := by
  unfold Obligations.RunsStart
  refine ⟨fun s hoff => ⟨fun hst hlock => ?starts, fun hst => ?elsewhere, fun hlock hforce => ?unlocked⟩,
    fun s l idx hp k e c he hlen hpart hstart hst hidle hcore => ⟨fun hkind hc => ?sheaf,
      fun hkind hnow cc ch p x hpick => ?catchup, fun hkind hnow hpick => ?fallow, fun hkind hnow => ?glean⟩⟩
  case starts =>
    obtain ⟨t, hexec, hseq⟩ := exec_rotaStart_starts hoff hst hlock
    exact ⟨t, hexec, State.sequencer_rotaOn hseq⟩
  case elsewhere => simp [exec, execRotaStart, hst]
  case unlocked => simp [exec, execRotaStart, hlock, hforce]
  case sheaf =>
    intro x p hnow hbefore hissued hown hpend hpassed u
    have hexec := exec_sheafRunStart_own he hlen hpart hstart hst hidle hcore hkind hc hnow hbefore hissued hown hpend hpassed
    refine ⟨hexec, fun hfetch => ?_⟩
    obtain ⟨r, hrun⟩ := State.startRun_markIssued hissued hidle hcore hfetch
    exact ⟨_, r, hexec, hrun⟩
  case catchup => rw [exec_catchupRunStart_idle he hlen hpart hstart hst hidle hcore hkind hnow, hpick]
  case fallow =>
    rw [exec_catchupRunStart_idle he hlen hpart hstart hst hidle hcore hkind hnow, hpick]
    rfl
  case glean =>
    obtain ⟨n, m, hexec⟩ := exec_gleanRunStart_idle he hlen hpart hstart hst hidle hcore hkind hnow
    exact ⟨_, _, hexec, rfl, rfl, rfl, rfl, rfl, rfl⟩

end Sys2Proof.Machine
end
section
/-!
SUPPORT. Due times of sheaves, sheaf-ready notices and repeated pause frames (R123, R166, R167, R171, R173, R444).
-/

namespace Sys2Proof.Machine

section
variable {s : State} {c : Class} {ch fr sh : Nat}

/-! ### Due times (R123, R166, R167) -/

theorem State.frameNo_of_cls (hc : s.cls ch = some c) (hp f : Nat) : s.frameNo ch hp f = hp * framesPerHp c.base.rate + f := by
  simp only [State.frameNo, hc]

/-- The instant of a slot that comes concerns the clock and the count of hyperperiods. -/
theorem State.reach_frame (s : State) (d : Int) : ∃ m r, s.reach d = { s with time := m, rota := r } := by
  unfold State.reach
  dsimp only
  split
  · exact ⟨_, _, rfl⟩
  · exact ⟨s.time, s.rota, rfl⟩

/-- The due time of a sheaf before the frame's last one, of the frame that is open: no frame opens with it, and the sheaf closes. -/
theorem State.dueArrive_closes (hc : s.cls ch = some c) (hclk : s.stopped 6 = false) (hsess : (s.sessOf ch).isOpen = true)
    (hset : (s.sessOf ch).n0set = true) (hfirst : (s.sessOf ch).n0 ≤ fr) (hopen : (s.ingOf ch).isOpen = true)
    (hfr : (s.ingOf ch).fr = fr) (hnext : (s.ingOf ch).next = fr + 1) (hclosed : (s.ingOf ch).closed.get false sh = false)
    (hlast : sh + 1 < sheavesOf (s.sessOf ch).h) : s.dueArrive ch fr sh = s.closeSheaf c ch sh true := by
  have hbegun : ¬ fr + 1 < (s.sessOf ch).n0 := by omega
  have hsheaf : ¬ sheavesOf (s.sessOf ch).h ≤ sh := by omega
  have hopened : ¬ fr + 1 ≤ fr := by omega
  simp [State.dueArrive, hc, hclk, hsess, hset, hbegun, hsheaf, hnext, hopened, hopen, hfr, hclosed, hlast.ne]

/-- A due time in RUN, the rota started: device time comes to it and it arrives. -/
theorem exec_sheafDue_arrives {hp f : Nat} {d : Int} (hc : s.cls ch = some c) (hstart : s.rota.started = true)
    (hst : s.glb.st = .run) (hdue : s.dueSlot ch (hp * framesPerHp c.base.rate + f) sh = some d) :
    exec (.sheafDue ch hp f sh) s = .next ((s.reach d).dueArrive ch (hp * framesPerHp c.base.rate + f) sh).wakeRuns := by
  simp [exec, execSheafDue, State.frameNo_of_cls hc, hdue, hstart, hst]

/-! ### Notices (R167, R171) -/

/-- The notice of a sheaf is sent: the slot of its frame holds the sheaf as ready. -/
def State.noticeSent (s : State) (c : Class) (ch fr sh : Nat) : State :=
  let slot := (s.ingOf ch).slots.get {} (slotOf c fr)
  s.setIng ch { s.ingOf ch with
    slots := (s.ingOf ch).slots.set {} (slotOf c fr) { slot with ready := slot.ready.set false sh true } }

/-- The notice of a closed sheaf whose frame still holds its slot. -/
theorem State.noteReady_closed (hslot : ((s.ingOf ch).slots.get {} (slotOf c fr)).fr1 = fr + 1)
    (hsh : sh < sheavesOf (s.sessOf ch).h) (hclosed : (s.ingOf ch).fr ≠ fr ∨ (s.ingOf ch).closed.get false sh = true) :
    s.noteReady c ch fr sh = s.noticeSent c ch fr sh := by
  unfold State.noteReady
  dsimp only
  rw [if_pos ⟨hslot, by simpa [hsh] using hclosed⟩]
  rfl

theorem exec_sheafReady_closed (hc : s.cls ch = some c) (hslot : ((s.ingOf ch).slots.get {} (slotOf c fr)).fr1 = fr + 1)
    (hsh : sh < sheavesOf (s.sessOf ch).h) (hclosed : (s.ingOf ch).fr ≠ fr ∨ (s.ingOf ch).closed.get false sh = true) :
    exec (.sheafReady ch fr sh) s = .next (s.noticeSent c ch fr sh).wakeRuns := by
  simp only [exec, execSheafReady, hc, State.noteReady_closed hslot hsh hclosed]

/-- A gleaning run waits for no notice: none is woken where every other run is coded (R171). -/
theorem State.wakeRuns_of_none_waits (h : ∀ l r, (s.lane l).run = some r → r.kind ≠ 2 → r.coded.isSome = true) :
    s.wakeRuns = s := by
  refine List.foldl_fixed' (fun l => ?_) laneNums
  cases hr : (s.lane l).run with
  | none => rfl
  | some r =>
    have hwaits : ¬ (r.kind ≠ 2 ∧ r.coded.isNone = true) := fun ⟨hkind, hnone⟩ =>
      Option.isSome_iff_ne_none.mp (h l r hr hkind) (Option.isNone_iff_eq_none.mp hnone)
    dsimp only
    split
    · rw [if_neg hwaits]
    · rfl

end

/-! ### Pause frames (R173, R444) -/

section
variable {s : State} {port : Nat}

/-- The pause frame of a port for the priorities of a bit mask, with the longest quanta. -/
def pauseFrame (port prios : Nat) : TxFrame :=
  { port := port, kind := 1, len := 64, hdr := leBytes 1 prios ++ [0xFF, 0xFF], dseq := 0, roc := 0, key := 0, pid := 0 }

/-- A pause frame that goes out is the port's last frame, and counts. -/
theorem State.sendPfc_pause (hsend : s.canSend port = true) (prios : Nat) : s.sendPfc port prios 0xFFFF = { s with
    egr := { s.egr with sent := s.egr.sent.set none port (some (pauseFrame port prios)) }
    ing := { s.ing with pfc := s.ing.pfc.upd 0 port (cntAdd 1) } } := by
  rw [State.sendPfc, if_pos hsend]
  rfl

theorem exec_pfcRepeat_run (hst : s.glb.st = .run) (hwm : s.ing.asserted.get false port = true) :
    exec (.pfcRepeat port) s = .next (s.sendPfc port (2 ^ s.img.net.vftPrio) 0xFFFF) := by
  simp only [exec, execPfcRepeat, hst, hwm, if_true]

theorem exec_pfcRepeat_safe (hst : s.glb.st = .safe) : exec (.pfcRepeat port) s = .next (s.sendPfc port 0xFF 0xFFFF) := by
  simp only [exec, execPfcRepeat, hst]

end

/-- Settles O20: the sheaf of a due time by `State.dueArrive_closes`, a notice by `exec_sheafReady_closed`, and each device state's pause
frame by `State.sendPfc_pause`. -/
theorem dueTimes : Obligations.DueTimes := by
  unfold Obligations.DueTimes
  intro s ch hp f sh port d c hc v q fr
  refine ⟨fun hstart hst hclk hdue hsess hset hfirst hopen hfr hnext hclosed hlast => ?due, fun hslot hsh hclosed => ?notice,
    fun hsend hst hwm => ?run, fun hsend hst => ?safe⟩
  case due =>
    rw [exec_sheafDue_arrives hc hstart hst hdue]
    obtain ⟨m, r, hreach⟩ := s.reach_frame d
    rw [hreach]
    exact congrArg (fun t : State => (.next t.wakeRuns : Res))
      (State.dueArrive_closes hc hclk hsess hset hfirst hopen hfr hnext hclosed hlast)
  case notice =>
    have hexec := exec_sheafReady_closed hc hslot hsh hclosed
    exact ⟨hexec, fun hcoded => hexec.trans (congrArg _ (State.wakeRuns_of_none_waits hcoded))⟩
  case run =>
    exact ⟨_, (exec_pfcRepeat_run hst hwm).trans (congrArg _ (State.sendPfc_pause hsend _)), rfl, rfl, rfl⟩
  case safe =>
    exact ⟨_, (exec_pfcRepeat_safe hst).trans (congrArg _ (State.sendPfc_pause hsend _)), rfl, rfl, rfl⟩

end Sys2Proof.Machine
end

section
/-!
SUPPORT. The ledger that a passed sheaf commits (R210, R219, R221): the debt that it spends, and that the release of the sheaf leaves
it. SESSION_OPEN starts every ledger anew.
-/

namespace Sys2Proof.Machine

/-! ### The ledgers of a channel (R209, R221) -/

/-- A key that is listed reads the same after a write of another key, also where that removes its entry. -/
theorem Tbl.get_set_listed {α : Type} [DecidableEq α] {d : α} {t : Tbl α} {j k : Nat} (v : α) (hj : t.get d j ≠ d) (hjk : j ≠ k) :
    (t.set d k v).get d j = t.get d j := by
  by_cases hv : v = d
  case neg => exact Tbl.get_set_other d t v hv hjk
  case pos =>
    induction t with
    | nil => exact absurd rfl hj
    | cons e t ih =>
      obtain ⟨k', v'⟩ := e
      simp only [Tbl.get] at hj ⊢
      simp only [Tbl.set, Tbl.cons, if_pos hv]
      split <;> grind [Tbl.get]

/-- The records of a channel's parts, and the parts whose debt has saturated. -/
def Rc.ledgers (v : Rc) : Tbl Copies × Tbl Bool := (v.recs, v.debtSat)

section
variable (v : Rc) (c : Class) (q : Sess)

theorem Rc.ne_of_recs {v : Rc} (h : v.recs ≠ []) : v ≠ {} := fun e => h (congrArg Rc.recs e)

theorem Rc.picturePassed_ledgers (fr layer : Nat) : (v.picturePassed c q fr layer).ledgers = v.ledgers := rfl

theorem Rc.setRec_debtSat (p : Nat) (k : ChanRec) : (v.setRec p k).debtSat = v.debtSat := rfl

theorem Rc.xsStart_debtSat : (v.xsStart c q).debtSat = v.debtSat := foldl_proj Rc.debtSat (fun v p => v.setRec_debtSat p _) _ v

theorem Rc.takeBuf_debtSat (fr : Nat) : (v.takeBuf c fr).debtSat = v.debtSat :=
  foldl_proj Rc.debtSat (fun v p => by split <;> rfl) _ v

theorem Rc.applyDecision_debtSat (d : FrDec) : (v.applyDecision c q d).debtSat = v.debtSat := by
  unfold Rc.applyDecision
  dsimp only
  rw [Rc.takeBuf_debtSat]
  dsimp only
  split
  · rw [Rc.xsStart_debtSat]
  · rfl

end

/-! ### What a passed sheaf commits (R210, R219, R221) -/

/-- The record committed is the one in force. -/
theorem Copies.commit_cur (k : Copies) (x : ChanRec) : (k.commit x).cur = x := by
  unfold Copies.commit
  split <;> rfl

theorem Copies.commit_ne (k : Copies) {x : ChanRec} (h : x ≠ {}) : k.commit x ≠ {} :=
  fun e => h ((k.commit_cur x).symm.trans (congrArg Copies.cur e))

section
variable (v : Rc) (c : Class) (q : Sess) (r : Run) (o : Coded)

/-- The commit lists the part's record, which holds the ledger after the sheaf's bits. -/
theorem Rc.commit_part_led :
    ((v.commit c q r o).part r.part).led = (r.led.spend r o.bits (r.sh + 1 == sheavesOf q.h)).1
      ∧ (v.commit c q r o).recs ≠ [] := by
  obtain ⟨x, k, t, hx, hled, hrecs⟩ : ∃ (x : ChanRec) (k : Copies) (t : Tbl Copies), x ≠ {}
      ∧ x.led = (r.led.spend r o.bits (r.sh + 1 == sheavesOf q.h)).1 ∧ (v.commit c q r o).recs = t.set {} r.part (k.commit x) :=
    ⟨_, _, _, fun e => Nat.succ_ne_zero r.fr (congrArg ChanRec.fr1 e), rfl, rfl⟩
  have hget : (t.set {} r.part (k.commit x)).get {} r.part = k.commit x := Tbl.get_set_ne _ _ _ _ (k.commit_ne hx)
  refine ⟨?_, fun e => k.commit_ne hx ?_⟩
  · rw [Rc.part, hrecs, hget, Copies.commit_cur, hled]
  · rw [← hget, ← hrecs, e]
    rfl

theorem Rc.commit_debtSat : (v.commit c q r o).debtSat
    = v.debtSat.set false r.part (v.debtSat.get false r.part || (r.led.spend r o.bits (r.sh + 1 == sheavesOf q.h)).2) := by
  have hdecided : (if v.decided r.fr then v else v.applyDecision c q r.dec).debtSat = v.debtSat := by
    split
    · rfl
    · exact v.applyDecision_debtSat c q r.dec
  unfold Rc.commit
  dsimp only
  rw [hdecided]

end

/-! ### The release leaves the ledgers (R203, R208) -/

section
variable (s : State) (c : Class)

theorem State.packetise_rc (k ch : Nat) (outs : List (Run × Coded)) : (s.packetise c k ch outs).rc = s.rc := by
  have hwrite (ps : List MPkt) (t : State) : (ps.foldl (fun s p => s.writePkt k p) t).rc = t.rc :=
    (congrArg State.rc (foldl_writePkt_unreleased k ps t) :)
  unfold State.packetise
  split
  · rfl
  · dsimp only
    rw [hwrite]
    split <;> rfl

theorem State.joinParts_rc (a b : Run) : (s.joinParts c a b).rc = s.rc := by
  unfold State.joinParts
  split
  · refine foldl_keeps State.rc (fun t e => ?_) _ s
    obtain ⟨plane, row, _⟩ := e
    dsimp only
    split <;> rfl
  · rfl

theorem State.markBuf_rc (x b : Nat) (f : Marks → Marks) : (s.markBuf x b f).rc = s.rc := rfl

theorem State.bindDone_rc (ch fr : Nat) : (s.bindDone ch fr).rc = s.rc := by
  unfold State.bindDone
  dsimp only
  split
  · rfl
  · exact foldl_keeps State.rc (fun t b => t.markBuf_rc _ b _) (List.range 32) s

variable {s c} {ch : Nat}

/-- The rate control of a channel depends on the table of all of them alone. -/
theorem State.rcOf_congr {t : State} (h : t.rc = s.rc) (ch : Nat) : t.rcOf ch = s.rcOf ch := by rw [State.rcOf, h, State.rcOf]

theorem State.pictureDone_ledgers (r : Run) (h : (s.rcOf ch).recs ≠ []) : ((s.pictureDone c r).rcOf ch).ledgers = (s.rcOf ch).ledgers := by
  let v := (s.rcOf r.ch).picturePassed c (s.sessOf r.ch) r.fr r.dec.layer
  rw [State.pictureDone, State.rcOf_congr (State.bindDone_rc _ _ _)]
  change ((s.rc.set {} r.ch v).get {} ch).ledgers = _
  by_cases hch : ch = r.ch
  · subst hch
    rw [Tbl.get_set_ne _ _ _ _ (Rc.ne_of_recs (v := v) h)]
    exact Rc.picturePassed_ledgers _ _ _ _ _
  · exact congrArg Rc.ledgers (Tbl.get_set_listed v (Rc.ne_of_recs h) hch)

theorem State.releaseSheaf_ledgers (k : Nat) (outs : List Run) (h : (s.rcOf ch).recs ≠ []) :
    ((s.releaseSheaf c k outs).rcOf ch).ledgers = (s.rcOf ch).ledgers := by
  unfold State.releaseSheaf
  split
  · rfl
  next r rs =>
    have hpack := State.packetise_rc s c k r.ch ((r :: rs).filterMap fun r => r.coded.map fun o => (r, o))
    generalize s.packetise c k r.ch _ = t at hpack ⊢
    dsimp only
    have hdone (u : State) (hu : u.rc = s.rc) (p : Prop) [Decidable p] :
        ((if p then u.pictureDone c r else u).rcOf ch).ledgers = (s.rcOf ch).ledgers := by
      have hrc := State.rcOf_congr hu ch
      split
      · rw [State.pictureDone_ledgers r (by rw [hrc]; exact h), hrc]
      · rw [hrc]
    split
    · exact hdone (t.setIng r.ch _) hpack _
    · exact hdone t hpack _

theorem State.passPart_ledgers (r : Run) (h : (s.rcOf ch).recs ≠ []) : ((s.passPart c r).rcOf ch).ledgers = (s.rcOf ch).ledgers := by
  unfold State.passPart
  dsimp only
  split
  case isTrue => exact State.releaseSheaf_ledgers _ _ h
  case isFalse =>
    split
    case h_1 e he =>
      let t := s.setPart r.ch (1 - r.part)
        { s.part r.ch (1 - r.part) with passed := (s.part r.ch (1 - r.part)).passed.filter fun e => !r.sameSheaf e }
      have hjoin (a b : Run) : (t.joinParts c a b).rcOf ch = s.rcOf ch := State.rcOf_congr (State.joinParts_rc t c a b) ch
      exact (State.releaseSheaf_ledgers _ _ (by rw [hjoin]; exact h)).trans (congrArg Rc.ledgers (hjoin _ _))
    case h_2 => split <;> rfl

end

/-! ### SHEAF_PASS and SESSION_OPEN (R203, R221, R418) -/

section
variable {s : State} {l : Nat} {c : Class} {r : Run} {o : Coded}

theorem State.commitRun_rc : (s.commitRun c r o).rc = s.rc.set {} r.ch (s.committed c r o) := by
  obtain ⟨i, n, hcommit⟩ := s.commitRun_eq c r o s.rota s.enc
  have hstored := congrArg State.rc (s.stored_frame c r o)
  exact (congrArg State.rc hcommit).trans hstored

/-- A sheaf that passes in its session leaves the ledgers that it committed, whether its picture is complete or not. -/
theorem State.passRun_ledgers (hown : s.ownRun r = true) (hgone : s.frameGone c r.ch r.fr = false) :
    ((s.passRun c l r o).rcOf r.ch).ledgers = (s.committed c r o).ledgers := by
  let u : State := { s with rota := s.rotaEnded l, enc := s.encPassed r }
  have hpass : s.passRun c l r o = (u.commitRun c r o).passPart c r := by
    have hown' : u.ownRun r = true := hown
    have hgone' : u.frameGone c r.ch r.fr = false := hgone
    have hidle : (s.setLane l { s.lane l with run := none }).coreIdle r.core (some 1) = u := rfl
    rw [State.passRun]
    dsimp only
    rw [hidle, hown', hgone', if_neg (by decide), if_neg (by decide)]
  have hrecs : (s.committed c r o).recs ≠ [] := (Rc.commit_part_led _ c _ r o).2
  have hget : (u.commitRun c r o).rcOf r.ch = s.committed c r o := by
    rw [State.rcOf, State.commitRun_rc]
    exact Tbl.get_set_ne _ _ _ _ (Rc.ne_of_recs hrecs)
  rw [hpass, State.passPart_ledgers r (by rw [hget]; exact hrecs), hget]

end

/-- Settles O15: the debt committed is that of `Ledger.spend`, and an opened session's records are those of reset. -/
theorem debtSaturates : Obligations.DebtSaturates := by
  unfold Obligations.DebtSaturates
  refine ⟨fun s l ps r c o hr hk hc ho hown hgone hpass => ?passes, fun s h a c hs hrefused hc hvft => ?opens⟩
  case passes =>
    have hledgers := State.passRun_ledgers (l := l) (o := o) hown hgone
    have hrecs : ((s.passRun c l r o).rcOf r.ch).recs = (s.committed c r o).recs := congrArg Prod.fst hledgers
    have hsat : ((s.passRun c l r o).rcOf r.ch).debtSat = (s.committed c r o).debtSat := congrArg Prod.snd hledgers
    refine ⟨s.passRun c l r o, (exec_sheafPass ps hr hk hc ho).trans (by rw [if_pos hpass]), ?_, ?_⟩
    · have hled := (Rc.commit_part_led (s.rcOf r.ch) c (s.sessOf r.ch) r o).1
      have hpart : ((s.passRun c l r o).rcOf r.ch).part r.part = (s.committed c r o).part r.part := by rw [Rc.part, hrecs, Rc.part]
      rw [hpart]
      refine (congrArg Ledger.debt hled).trans ?_
      simp only [Ledger.spend, beq_iff_eq]
    · rw [hsat]
      refine (Rc.commit_debtSat (s.rcOf r.ch) c (s.sessOf r.ch) r o).trans ?_
      simp only [Ledger.spend, beq_iff_eq]
  case opens =>
    have hopen := State.openSession_plain (host := fun c => c.cod.target) (h := h) hrefused hc hvft
    exact ⟨_, _, exec_of_serving hs rfl hopen,
      (State.complete_rc _ h .ok 0).trans (State.startSession_rc s false a c.cod.target), fun _ => rfl⟩

end Sys2Proof.Machine
end

section
/-!
SUPPORT. The steward's work on the bodies and the index, and RTCP from a delivery (R233, R295, R297, R301, R305).
-/

namespace Sys2Proof.Machine

/-! ### Islands whose clock runs -/

theorem State.stopped_eq_false_iff {s : State} {n : Nat} : s.stopped n = false ↔ (s.islOf n).st ≠ .hold ∧ (s.islOf n).st ≠ .off := by
  unfold State.stopped
  cases (s.islOf n).st <;> simp

/-! ### Bodies and stash slots (R295, R297) -/

section
variable {s : State}

/-- A body is freed once nothing is under way that could name it. -/
theorem exec_bodyFree {ptr : Nat} {fs : List Nat} (hw : (s.body ptr).waits = some fs) : exec (.bodyFree ptr) s
    = .next (if s.stewardFree = true ∧ (∀ f ∈ fs, (s.flight f).live = false) ∧ s.foundBody ptr = false then s.setBody ptr {} else s) := by
  simp only [exec, execBodyFree, hw, Bool.and_eq_true, List.all_eq_true, Bool.not_eq_true', and_assoc]

/-- An entry of the stash goes to the first free slot of its buckets. -/
theorem exec_stashMove {slot : Nat} {e : EmEnt} (he : s.pkt.em.get none (655360 + slot) = some e) (hfree : s.stewardFree = true)
    (hclk : s.stopped 6 = false) : exec (.stashMove slot) s
      = .next (match EmIdx.firstFree s.pkt.em (bucketSlots (s.emBucket1 e.tbl e.key) ++ bucketSlots (s.emBucket2 e.tbl e.key)) with
        | some j => { s with pkt := { s.pkt with em := (s.pkt.em.set none j (some e)).set none (655360 + slot) none } }
        | none => s) := by
  have hat : EmIdx.at s.pkt.em (emStash + slot) = some e := he
  simp only [exec, execStashMove, hat, hfree, hclk]
  rfl

end

/-! ### RTCP from a delivery (R233, R301, R305) -/

section
variable (s : State)

/-- The state once its oldest RTCP packet is taken. -/
def State.rtcpTaken (hs : List Nat) : State := { s with pkt := { s.pkt with rtcpQ := hs } }

variable {s} {h : Nat} {hs : List Nat} {msgs : List RtcpMsg}

/-- The oldest RTCP packet of a delivery that can be named and read has its messages dispatched where it authenticates, and is counted
where it does not. -/
theorem exec_rtcpPacket (authOk : Bool) (hrun : s.repRuns = true) (hq : s.pkt.rtcpQ = h :: hs) (hclk : s.stopped 7 = false)
    (hkey : s.keyWaits (s.body h).d.keySlot = false) (hnamed : s.named h = true) (hbody : s.bodyBad h = false) :
    exec (.rtcpPacket authOk msgs) s
      = .next (if authOk = true ∧ s.keyAt (s.body h).d.keySlot ≠ [] then msgs.foldl (fun s m => s.rtcpMsg h m) (s.rtcpTaken hs)
        else (s.rtcpTaken hs).pktCount 5 1) := by
  obtain ⟨hhold, hoff⟩ := State.stopped_eq_false_iff.mp hclk
  have hnamed' : (s.rtcpTaken hs).named h = true := hnamed
  have hbody' : (s.rtcpTaken hs).bodyBad h = false := hbody
  have hoff' : ((s.rtcpTaken hs).islOf 7).st ≠ .off := hoff
  have hexec : exec (.rtcpPacket authOk msgs) s = .next (
      if !authOk || (s.keyAt (s.body h).d.keySlot).isEmpty then (s.rtcpTaken hs).pktCount 5 1
      else msgs.foldl (fun s m => s.rtcpMsg h m) (s.rtcpTaken hs)) := by
    simp only [exec, execRtcpPacket, hq]
    rw [if_neg (by simp [hrun, hhold, hkey])]
    change (.next (if ((s.rtcpTaken hs).islOf 7).st == .off || !(s.rtcpTaken hs).named h then _
      else if (s.rtcpTaken hs).bodyBad h then _ else _) : Res) = _
    rw [if_neg (by simp [hoff', hnamed']), if_neg (by simp [hbody'])]
    rfl
  rw [hexec]
  cases authOk <;> by_cases hkeyed : s.keyAt (s.body h).d.keySlot = [] <;> simp [hkeyed]

theorem State.rtcpMsg_pli (h : Nat) : s.rtcpMsg h .pli = if (s.body h).d.player = true then
    (s.rcCount (s.body h).d.ch 0 8 1).refreshReq (s.body h).d.ch false else s.rcCount (s.body h).d.ch 0 9 1 := rfl

theorem State.rtcpMsg_nack_unresolved {d : Nat} (hnone : (s.body h).resolve (d % 65536) = none) :
    s.rtcpMsg h (.nack [d]) = s.pktCount 8 1 := by
  change s.nack h (d % 65536) = _
  rw [State.nack]
  dsimp only
  rw [hnone]

end

/-- Settles O25: the steward's steps by `exec_bodyFree` and `exec_stashMove`, RTCP by `exec_rtcpPacket` and the rule of each message. -/
theorem indexAndRtcp : Obligations.IndexAndRtcp := by
  unfold Obligations.IndexAndRtcp
  refine ⟨fun s ptr slot i fs e => ⟨fun hw hdead hfound hfree => ?freed, fun hw hbusy => ?waits,
    fun he hfree hclk => ⟨fun hroom => ?moves, fun hroom => ?stays⟩⟩,
    fun s h d hs msgs hrun hq hclk hkey hnamed hbody => ?rtcp⟩
  case freed =>
    rw [exec_bodyFree hw, if_pos ⟨hfree, hdead, hfound⟩]
    rfl
  case waits =>
    rw [exec_bodyFree hw, if_neg]
    rintro ⟨hfree, hdead, hfound⟩
    rcases hbusy with ⟨f, hf, hlive⟩ | hfound' | hfree'
    · exact Bool.eq_false_iff.mp (hdead f hf) hlive
    · exact Bool.eq_false_iff.mp hfound hfound'
    · exact Bool.eq_false_iff.mp hfree' hfree
  case moves => rw [exec_stashMove he hfree hclk, hroom]
  case stays => rw [exec_stashMove he hfree hclk, hroom]
  case rtcp =>
    have hpacket (authOk : Bool) (msgs : List RtcpMsg) := exec_rtcpPacket (msgs := msgs) authOk hrun hq hclk hkey hnamed hbody
    have hmessage (m : RtcpMsg) (hkeyed : s.keyAt (s.body h).d.keySlot ≠ []) :
        exec (.rtcpPacket true [m]) s = .next ((s.rtcpTaken hs).rtcpMsg h m) := (hpacket true [m]).trans (by rw [if_pos ⟨rfl, hkeyed⟩]; rfl)
    refine ⟨?badTag, fun hkeyless => ?noKey, fun hkeyed => ?empty, fun hkeyed hplayer => ?pliPlayer, fun hkeyed hplayer => ?pliOther,
      fun hkeyed hnone => ?nack⟩
    case badTag => exact (hpacket false msgs).trans (by rw [if_neg (by simp)]; rfl)
    case noKey => exact (hpacket true msgs).trans (by rw [if_neg fun hk => hkeyless hk.2]; rfl)
    case empty => exact (hpacket true []).trans (by rw [if_pos ⟨rfl, hkeyed⟩]; rfl)
    case pliPlayer => exact (hmessage .pli hkeyed).trans (congrArg _ ((State.rtcpMsg_pli h).trans (if_pos hplayer)))
    case pliOther =>
      exact (hmessage .pli hkeyed).trans (congrArg _ ((State.rtcpMsg_pli h).trans (if_neg (Bool.eq_false_iff.mp hplayer))))
    case nack => exact (hmessage (.nack [d]) hkeyed).trans (congrArg _ (State.rtcpMsg_nack_unresolved hnone))

end Sys2Proof.Machine
end

section
/-!
SUPPORT. What reaches a decode context between its runs, and the free list of its buffers (R255, R256, R257, R261, R264, R273, R276).
-/

namespace Sys2Proof.Machine

/-! ### The free list (R261) -/

/-- The free list asks for every mark clear; which picture the buffer held last is no mark. -/
theorem Marks.free_iff {m : Marks} : m.free = true ↔ m = { pic1 := m.pic1 } := by
  obtain ⟨cur, ref, out, host, bind, hist, pin, pic1⟩ := m
  simp only [Marks.free, Marks.mk.injEq, Bool.and_eq_true, Bool.not_eq_true', beq_iff_eq]
  tauto

theorem freeBuf_eq_some_iff {pool : Tbl Marks} {n b : Nat} :
    freeBuf pool n = some b ↔ (pool.get {} b).free = true ∧ b < n ∧ ∀ j, j < b → ¬ (pool.get {} j).free = true := by
  simp [freeBuf, List.find?_range_eq_some]

theorem freeBuf_eq_none_iff {pool : Tbl Marks} {n : Nat} :
    freeBuf pool n = none ↔ ∀ j, j < n → ¬ (pool.get {} j).free = true := by
  simp [freeBuf]

/-- Settles O17: the search runs from index 0 on, and `Marks.free_iff` says what it looks for. -/
theorem lowestFreeBuffer : Obligations.LowestFreeBuffer := by
  unfold Obligations.LowestFreeBuffer
  intro pool n b
  refine ⟨fun hsome => ?found, fun hnone j hj hfree => freeBuf_eq_none_iff.mp hnone j hj (Marks.free_iff.mpr hfree)⟩
  case found =>
    obtain ⟨hfree, hlt, hlowest⟩ := freeBuf_eq_some_iff.mp hsome
    exact ⟨hlt, Marks.free_iff.mp hfree, fun j hj hj_free => hlowest j hj (Marks.free_iff.mpr hj_free)⟩

/-! ### Feeds, releases, the watchdog and the reorder window (R255, R256, R257, R264, R273, R276) -/

section
variable {s : State} {x : Nat}

theorem State.queueUnit_fits {len : Nat} (ts : Nat) (loss : Bool) (hfits : len ≤ s.ringFree x) :
    s.queueUnit x len ts loss = s.setDcx x { s.dcxOf x with
      inWp := ((s.dcxOf x).inWp + len) % s.ringBytes x, feeds := (s.dcxOf x).feeds + 1, lossPend := false
      units := (s.dcxOf x).units ++ [{ len := len, loss := loss || (s.dcxOf x).lossPend, ts := ts }] } :=
  if_neg (Nat.not_lt.mpr hfits)

theorem State.queueUnit_full {len : Nat} (ts : Nat) (loss : Bool) (hfull : s.ringFree x < len) :
    s.queueUnit x len ts loss = (s.setDcx x { s.dcxOf x with lossPend := true }).dcxCount x 5 1 :=
  if_pos hfull

/-- A context takes feeds where it is open and its units do not come as RTP. -/
theorem exec_decFeed_taken (len : Nat) (loss : Bool) (hst : s.glb.st ≠ .reset) (hopen : (s.dcxOf x).isOpen = true)
    (hrtp : (s.dcxOf x).rtp = none) :
    exec (.decFeed x loss len) s = .next (s.queueUnit x len (s.dcxOf x).feeds loss) := by
  simp [exec, execDecFeed, State.awake_of_ne hst, hopen, hrtp]

theorem exec_decFeed_dropped (len : Nat) (loss : Bool) (hst : s.glb.st ≠ .reset)
    (hdrop : (s.dcxOf x).isOpen = false ∨ (s.dcxOf x).rtp.isSome = true) :
    exec (.decFeed x loss len) s = .next (s.dcxCount x 3 1) := by
  have htest : (!(s.dcxOf x).isOpen || (s.dcxOf x).rtp.isSome) = true := by simpa using hdrop
  simp [exec, execDecFeed, State.awake_of_ne hst, htest]

theorem exec_decRelease_awake (buf : Nat) (hst : s.glb.st ≠ .reset) :
    exec (.decRelease x buf) s = .next (s.markBuf x buf fun m => { m with host := false }) := by
  simp [exec, execDecRelease, State.awake_of_ne hst]

/-- The watchdog of a lane acts on the picture in decoding of the context that the lane runs. -/
theorem exec_decWatchdog_running {l : Nat} (hrun : (s.dlane l).run = some x) :
    exec (.decWatchdog l) s = .next (if (s.dcxOf x).cur.isNone = true then s
      else ((((s.flagPic x 8).finishPic x).nextSub x (s.dcxOf x).carry).dcxCount x 7 1).wakeRuns.raise srcDecWd) := by
  simp only [exec, execDecWatchdog, hrun]

theorem exec_reorderTimeout_missing {r : RtpIn} {nx : Nat} (hrtp : (s.dcxOf x).rtp = some r) (hnext : r.next = some nx)
    (hbuf : r.buf ≠ []) : exec (.reorderTimeout x nx) s = .next (s.loseRtp x) := by
  simp [exec, execReorderTimeout, hrtp, hnext, hbuf]

end

/-- Settles O18: a feed by whether its context takes it and whether it fits; the other inputs by the rule of each command. -/
theorem decodeInput : Obligations.DecodeInput := by
  unfold Obligations.DecodeInput
  intro s x len buf l nx loss hst
  refine ⟨fun hopen hrtp hfits => ?queued, fun hopen hrtp hfull => ?lost, exec_decFeed_dropped len loss hst,
    exec_decRelease_awake buf hst, fun hrun hcur => ?watchdog, fun hrun hcur => ?noPicture,
    fun r hrtp hnext hbuf => exec_reorderTimeout_missing hrtp hnext hbuf⟩
  case queued => exact (exec_decFeed_taken len loss hst hopen hrtp).trans (congrArg _ (State.queueUnit_fits _ loss hfits))
  case lost => exact (exec_decFeed_taken len loss hst hopen hrtp).trans (congrArg _ (State.queueUnit_full _ loss hfull))
  case watchdog =>
    rw [exec_decWatchdog_running hrun, if_neg (by simp [Option.isNone_eq_false_iff.mpr hcur])]
    rfl
  case noPicture => rw [exec_decWatchdog_running hrun, if_pos (by rw [hcur]; rfl)]

end Sys2Proof.Machine
end
section
/-!
SUPPORT. What the MAC does with a frame, how an engine takes it, and what each instruction of a parse program answers (R283 to R291, R294).
-/

namespace Sys2Proof.Machine

/-! ### Frames (R283, R284) -/

section
variable {s : State}

theorem State.pktRuns_iff : s.pktRuns = true ↔ (s.glb.st = .run ∨ s.glb.st = .safe) ∧ s.stopped 6 = false := by
  simp [State.pktRuns]

/-- Where the packet engine runs, the MAC's two checks decide whether a frame waits for an engine. -/
theorem exec_frameReceive_running {p : Nat} (bs : List Byte) (ok : Bool) (hsend : s.canSend p = true) (hrun : s.pktRuns = true) :
    exec (.frameReceive p bs ok) s = .next (if 9212 < bs.length then s.pktCount p 1 else if ok = false then s.pktCount (2 + p) 1
      else { s with pkt := { s.pkt with rx := s.pkt.rx.set [] p (s.pkt.rx.get [] p ++ [(s.ptpNs, bs)]) } }) := by
  have hst : (s.glb.st == .run || s.glb.st == .safe) = true := by simpa using (State.pktRuns_iff.mp hrun).1
  have hlen : (9216 < bs.length + 4) = (9212 < bs.length) := propext (by omega)
  simp [exec, execFrameReceive, hsend, hst, hrun, hlen]

/-- A context that has a program to run reads back as it was written. -/
theorem State.setPe_pe_busy {k : Nat} {c : PeCtx} (hbusy : c.busy = true) : (s.setPe k c).pe k = c :=
  Tbl.get_set_ne ({} : PeCtx) _ k c fun h => by simp [h] at hbusy

/-- An engine whose next instruction has an opcode that executes runs on. -/
theorem State.peSettle_of_opcode {k : Nat} {w : BitVec 64} (hcode : s.img.parser.code[(s.pe k).pc]? = some w)
    (hlo : 1 ≤ (PeIns.ofWord w).op) (hhi : (PeIns.ofWord w).op ≤ 0x0A) : s.peSettle k = s := by
  simp [State.peSettle, hcode, Nat.ne_of_gt hlo, Nat.not_lt.mpr hhi]

/-- The context in which an engine starts a port's program. -/
def State.peEntry (s : State) (p ts : Nat) (f : List Byte) : PeCtx :=
  { busy := true, port := p, frame := f, fin := f.length, ts := ts
    pc := if p = 0 then s.img.parser.entry0 else s.img.parser.entry1 }

/-- Engine `k` has taken the frame at the head of a port's queue, of which `fs` is left. -/
def State.peStarted (s : State) (k p ts : Nat) (f : List Byte) (fs : List (Nat × List Byte)) : State := { s with pkt := { s.pkt with
  rx := s.pkt.rx.set [] p fs
  pes := s.pkt.pes.set {} k (s.peEntry p ts f)
  order := s.pkt.order.set [] p (s.order p ++ [{ pe := k, res := none }]) } }

/-- The free engine takes the port's oldest frame; a program whose first opcode executes is not ended at once. -/
theorem exec_parseStart_taken {p k ts : Nat} {f : List Byte} {fs : List (Nat × List Byte)} {w : BitVec 64} (hrun : s.pktRuns = true)
    (hrx : s.pkt.rx.get [] p = (ts, f) :: fs) (hfree : s.freePe = some k)
    (hcode : s.img.parser.code[(s.peEntry p ts f).pc]? = some w) (hlo : 1 ≤ (PeIns.ofWord w).op) (hhi : (PeIns.ofWord w).op ≤ 0x0A) :
    exec (.parseStart p) s = .next (s.peStarted k p ts f fs) := by
  have hexec : exec (.parseStart p) s = .next ((s.peStarted k p ts f fs).peSettle k) := by
    simp only [exec, execParseStart, hrx, hfree, hrun, if_true]
    rfl
  have hpe : (s.peStarted k p ts f fs).pe k = s.peEntry p ts f := State.setPe_pe_busy (s := s) rfl
  have hcode' : (s.peStarted k p ts f fs).img.parser.code[((s.peStarted k p ts f fs).pe k).pc]? = some w := hpe.symm ▸ hcode
  exact hexec.trans (congrArg _ (State.peSettle_of_opcode hcode' hlo hhi))

end

/-! ### A step of a program (R285) -/

/-- Engine `k` is about to execute the instruction `w`. -/
structure State.PeReady (s : State) (k : Nat) (w : BitVec 64) : Prop where
  runs : s.pktRuns = true
  busy : (s.pe k).busy = true
  noLookup : (s.pe k).lookup = none
  code : s.img.parser.code[(s.pe k).pc]? = some w

/-- The context that an instruction works on: its step counted, and the next instruction next. -/
def PeCtx.counted (c : PeCtx) : PeCtx := { c with steps := c.steps + 1, pc := c.pc + 1 }

namespace State.PeReady

variable {s : State} {k op : Nat} {w : BitVec 64} {f : PeIns → PeCtx → PeOut} {c : PeCtx} (h : s.PeReady k w)
include h

/-- The step of the opcode at hand: the budget first, then the instruction's own answer. -/
theorem peStep_eq (hop : (PeIns.ofWord w).op = op) : s.peStep k op f = if 96 ≤ (s.pe k).steps then s.peFinish k (.exc 3) else
    match f (PeIns.ofWord w) (s.pe k).counted with
    | .go c => if c.lookup.isSome then s.setPe k c else (s.setPe k c).peSettle k
    | .fin e => s.peFinish k e := by
  simp only [State.peStep, h.code]
  rw [if_neg (by simp [h.busy, h.noLookup, hop, h.runs])]
  rfl

theorem goes (hsteps : (s.pe k).steps < 96) (hop : (PeIns.ofWord w).op = op)
    (hf : f (PeIns.ofWord w) (s.pe k).counted = .go c) (hc : c.lookup = none) : s.peStep k op f = (s.setPe k c).peSettle k := by
  rw [h.peStep_eq hop, if_neg (Nat.not_le.mpr hsteps), hf]
  exact if_neg (by simp [hc])

theorem waits (hsteps : (s.pe k).steps < 96) (hop : (PeIns.ofWord w).op = op)
    (hf : f (PeIns.ofWord w) (s.pe k).counted = .go c) (hc : c.lookup.isSome = true) : s.peStep k op f = s.setPe k c := by
  rw [h.peStep_eq hop, if_neg (Nat.not_le.mpr hsteps), hf]
  exact if_pos hc

theorem ends {e : PeEnd} (hsteps : (s.pe k).steps < 96) (hop : (PeIns.ofWord w).op = op)
    (hf : f (PeIns.ofWord w) (s.pe k).counted = .fin e) : s.peStep k op f = s.peFinish k e := by
  rw [h.peStep_eq hop, if_neg (Nat.not_le.mpr hsteps), hf]

theorem overBudget (hsteps : 96 ≤ (s.pe k).steps) (hop : (PeIns.ofWord w).op = op) : s.peStep k op f = s.peFinish k (.exc 3) := by
  rw [h.peStep_eq hop, if_pos hsteps]

end State.PeReady

/-! ### The instructions that move data (R288) -/

section
variable {i : PeIns} {c : PeCtx}

theorem PeCtx.inWindow_iff {p n : Nat} : c.inWindow p n = true ↔ p + n ≤ 256 ∧ p + n ≤ c.fin := by simp [PeCtx.inWindow]

theorem peExt_inside (hn : i.n = 1 ∨ i.n = 2) (hin : c.inWindow (c.cur + i.off) i.n = true) :
    peExt i c = .go (c.setReg i.a (beAt c.frame (c.cur + i.off) i.n / 2 ^ i.f &&& i.imm)) := by
  rw [peExt, if_neg (by omega), if_neg (by simp [hin])]

theorem peExt_outside (hn : i.n = 1 ∨ i.n = 2) (hout : ¬ c.inWindow (c.cur + i.off) i.n = true) : peExt i c = .fin (.exc 2) := by
  rw [peExt, if_neg (by omega), if_pos (by simpa using hout)]
  rfl

theorem peExt_unsupported (h1 : i.n ≠ 1) (h2 : i.n ≠ 2) : peExt i c = .fin (.exc 8) := if_pos ⟨h1, h2⟩

theorem peKey_inside (hlo : 1 ≤ i.n) (hhi : i.n ≤ 48) (hfits : i.imm % 64 + i.n ≤ 48) (hin : c.inWindow (c.cur + i.off) i.n = true) :
    peKey i c = .go { c with kb := c.kb.setList 0 (i.imm % 64) (slice c.frame (c.cur + i.off) i.n) } := by
  rw [peKey, if_neg (by omega), if_neg (by simp [hin])]

theorem peKey_outside (hlo : 1 ≤ i.n) (hhi : i.n ≤ 48) (hfits : i.imm % 64 + i.n ≤ 48)
    (hout : ¬ c.inWindow (c.cur + i.off) i.n = true) : peKey i c = .fin (.exc 2) := by
  rw [peKey, if_neg (by omega), if_pos (by simpa using hout)]
  rfl

theorem peKey_unsupported (hbad : i.n = 0 ∨ 48 < i.n ∨ 48 < i.imm % 64 + i.n) : peKey i c = .fin (.exc 8) := if_pos hbad

theorem peKeyi_fits (hfits : i.off ≤ 46) :
    peKeyi i c = .go { c with kb := c.kb.setList 0 i.off [BitVec.ofNat 8 (i.imm / 256), BitVec.ofNat 8 i.imm] } :=
  if_neg (Nat.not_lt.mpr hfits)

theorem peKeyi_unsupported (hbad : 46 < i.off) : peKeyi i c = .fin (.exc 8) := if_pos hbad

theorem peAlu_unsupported (hbad : 6 < i.f) : peAlu i c = .fin (.exc 8) := by
  obtain ⟨n, hn⟩ := Nat.exists_eq_add_of_le' hbad
  rw [peAlu, hn]
  rfl

end

/-- Settles O21: a frame by the MAC's checks and by `exec_parseStart_taken`, an instruction by what its own rule answers. -/
theorem framesAndFields : Obligations.FramesAndFields := by
  unfold Obligations.FramesAndFields
  refine ⟨fun s p bs hsend hrun => ?frames, fun s k w hrun hbusy hlookup hsteps hcode => ?moves⟩
  case frames =>
    have hmac := exec_frameReceive_running bs (hsend := hsend) (hrun := hrun)
    exact ⟨fun hlong ok => (hmac ok).trans (by rw [if_pos hlong]),
      fun hfits => (hmac false).trans (by rw [if_neg (Nat.not_lt.mpr hfits), if_pos rfl]),
      fun hfits => (hmac true).trans (by rw [if_neg (Nat.not_lt.mpr hfits), if_neg (by decide)]),
      fun k ts f fs w hrx hfree hcode hlo hhi => exec_parseStart_taken hrun hrx hfree hcode hlo hhi⟩
  case moves =>
    intro i c at_ inside go put a b
    have h : s.PeReady k w := ⟨hrun, hbusy, hlookup, hcode⟩
    have hin : c.inWindow at_ i.n = true ↔ inside := PeCtx.inWindow_iff
    refine ⟨fun hop => ⟨fun hn hi => ?ext, fun hn ho => ?extWindow, fun h1 h2 => ?extBad⟩,
      fun hop => ⟨fun hlo hhi hfits => ⟨fun hi => ?key, fun ho => ?keyWindow⟩, fun hbad => ?keyBad⟩,
      fun hop => ⟨fun hfits => ?keyi, fun hbad => ?keyiBad⟩, fun hop => ?alu⟩
    case ext => exact congrArg _ (h.goes hsteps hop (peExt_inside hn (hin.mpr hi)) hlookup)
    case extWindow => exact congrArg _ (h.ends hsteps hop (peExt_outside hn (mt hin.mp ho)))
    case extBad => exact congrArg _ (h.ends hsteps hop (peExt_unsupported h1 h2))
    case key => exact congrArg _ (h.goes hsteps hop (peKey_inside hlo hhi hfits (hin.mpr hi)) hlookup)
    case keyWindow => exact congrArg _ (h.ends hsteps hop (peKey_outside hlo hhi hfits (mt hin.mp ho)))
    case keyBad => exact congrArg _ (h.ends hsteps hop (peKey_unsupported hbad))
    case keyi => exact congrArg _ (h.goes hsteps hop (peKeyi_fits hfits) hlookup)
    case keyiBad => exact congrArg _ (h.ends hsteps hop (peKeyi_unsupported hbad))
    case alu =>
      have hput (v : Nat) (hv : peAlu i c = .go (c.setReg i.a v)) : exec (.alu k) s = .next (put v) :=
        congrArg _ (h.goes hsteps hop hv hlookup)
      refine ⟨fun hf => hput _ ?_, fun hf => hput _ ?_, fun hf => hput _ ?_, fun hf => hput _ ?_, fun hf => hput _ ?_,
        fun hf => hput _ ?_, fun hf => hput _ ?_, fun hbad => congrArg _ (h.ends hsteps hop (peAlu_unsupported hbad))⟩
      all_goals
        rw [peAlu, hf]
        rfl

/-! ### The instructions that decide (R288, R289, R291) -/

section
variable {i : PeIns} {c : PeCtx} {size : Nat}

/-- BR with a condition of the table and a target in the store. -/
theorem peBr_decides (hf : i.f ≤ 7) (htgt : i.tgt < size) {p : Prop} [Decidable p]
    (hcond : peCond i.f (c.reg i.a) (c.reg i.b) i.imm = true ↔ p) : peBr size i c = .go (if p then { c with pc := i.tgt } else c) := by
  rw [peBr, if_neg (by omega)]
  by_cases hp : p
  · rw [if_pos (hcond.mpr hp), if_pos hp]
  · rw [if_neg (mt hcond.mp hp), if_neg hp]

theorem peBr_unsupported (hbad : 7 < i.f ∨ size ≤ i.tgt) : peBr size i c = .fin (.exc 8) := if_pos hbad

theorem peHdr_unsupported (hbad : i.n = 0 ∨ 0x0A < i.n ∨ bitOf i.f 2 = true) : peHdr i c = .fin (.exc 8) := if_pos hbad

/-- HDR of a layer type: the window first, then the depth. -/
theorem peHdr_typed (hlo : 1 ≤ i.n) (hhi : i.n ≤ 0x0A) (hf : bitOf i.f 2 = false) :
    peHdr i c = if 256 < c.cur + hdrLen i c then .fin (.exc 2) else if 12 ≤ c.layers.length then .fin (.exc 1) else
      .go { c with layers := c.layers ++ [{ type := i.n, off := c.cur, len := hdrLen i c }], cur := c.cur + hdrLen i c } := by
  rw [peHdr, if_neg (by simp [hf]; omega)]
  rfl

/-- The end that LEN declares (R289). -/
def lenEnd (i : PeIns) (c : PeCtx) : Nat := c.cur + i.off + c.reg i.a * 2 ^ (i.f % 4)

theorem peLen_exact (h : lenEnd i c = c.fin) : peLen i c = .go c := if_pos h

theorem peLen_padded (h : lenEnd i c < c.fin) (hmin : c.frame.length = 60) : peLen i c = .go { c with fin := lenEnd i c } :=
  (if_neg (Nat.ne_of_lt h)).trans (if_pos ⟨h, by rw [hmin]⟩)

theorem peLen_wrong (h : lenEnd i c ≠ c.fin) (hmin : c.fin < lenEnd i c ∨ c.frame.length ≠ 60) : peLen i c = .fin (.exc 4) :=
  (if_neg h).trans (if_neg fun hpad : lenEnd i c < c.fin ∧ c.frame.length + 4 = 64 => by omega)

theorem peLkp_asks (hlo : 1 ≤ i.n) (hhi : i.n ≤ 48) (htgt : i.tgt < size) :
    peLkp size i c = .go { c with lookup := some (i.imm % 8, i.n, i.tgt) } := if_neg (by omega)

theorem peLkp_unsupported (hbad : i.n = 0 ∨ 48 < i.n ∨ size ≤ i.tgt) : peLkp size i c = .fin (.exc 8) := if_pos hbad

theorem peExcIns_software (hf : 5 ≤ i.f) : peExcIns i c = .fin (.exc i.f) := if_neg (by omega)

theorem peExcIns_unsupported (hf : i.f < 5) : peExcIns i c = .fin (.exc 8) := if_pos (Nat.le_of_lt_succ hf)

theorem peDone_class {m : PtpMsg} (hf : i.f ≤ 5) : peDone m i c = .fin (.done i.f m) := if_neg (Nat.not_lt.mpr hf)

theorem peDone_unsupported {m : PtpMsg} (hf : 5 < i.f) : peDone m i c = .fin (.exc 8) := if_pos hf

end

/-! ### The result of a lookup (R288, R294) -/

section
variable {s : State} {k t n tgt : Nat} (hrun : s.pktRuns = true) (hlookup : (s.pe k).lookup = some (t, n, tgt))
include hrun hlookup

theorem exec_lookupResult_hit {b : EmBody} (hhit : s.emLookup t ((s.pe k).kb.getList 0 0 n) = some b) :
    exec (.lookupResult k) s = .next ((s.setPe k { s.pe k with lookup := none, hit := some b }).peSettle k) := by
  simp only [exec, execLookupResult, hlookup]
  rw [if_neg (by simp [hrun]), hhit]

theorem exec_lookupResult_miss (hmiss : s.emLookup t ((s.pe k).kb.getList 0 0 n) = none) :
    exec (.lookupResult k) s = .next ((s.setPe k { s.pe k with lookup := none, pc := tgt }).peSettle k) := by
  simp only [exec, execLookupResult, hlookup]
  rw [if_neg (by simp [hrun]), hmiss]

end

/-- Settles O22: an instruction by what its own rule answers, BR by its condition, a lookup's result by hit or miss. -/
theorem parseDecides : Obligations.ParseDecides := by
  unfold Obligations.ParseDecides
  refine ⟨fun s k w m hrun hbusy hlookup hcode => ?decides, fun s k t n tgt hrun hlookup => ?result⟩
  case decides =>
    intro i c go a b size hl o
    have h : s.PeReady k w := ⟨hrun, hbusy, hlookup, hcode⟩
    refine ⟨fun hsteps => ⟨fun hop htgt => ?br, fun hop htgt => ?brOutside, fun hop hbad => ?hdrBad,
      fun hop hlo hhi hf => ⟨fun hwin => ?hdrWindow, fun hwin hdeep => ?hdrDepth, fun hwin hdeep => ?hdr⟩,
      fun hop => ⟨fun heq => ?len, fun hlt hmin => ?lenPadded, fun hlt hmin => ?lenShort, fun hgt => ?lenLong⟩,
      fun hop hlo hhi htgt => ?lkp, fun hop hbad => ?lkpBad, fun hop hf => ?exc, fun hop hf => ?excBad,
      fun hop hf => ?done, fun hop hf => ?doneBad⟩, fun hsteps hop => ?budget⟩
    case br =>
      have hbr (p : Prop) [Decidable p] (hf : i.f ≤ 7) (hcond : peCond i.f a b i.imm = true ↔ p) :
          exec (.br k) s = .next (go (if p then { c with pc := i.tgt } else c)) :=
        congrArg _ (h.goes hsteps hop (peBr_decides (c := c) hf htgt hcond) (by split <;> exact hlookup))
      have hstay (p : Prop) [Decidable p] (hf : i.f ≤ 7) (hcond : peCond i.f a b i.imm = true ↔ ¬ p) :
          exec (.br k) s = .next (go (if p then c else { c with pc := i.tgt })) := by
        simpa only [ite_not] using hbr (¬ p) hf hcond
      exact ⟨fun hf => hbr _ (by omega) (by simp [hf, peCond]), fun hf => hstay _ (by omega) (by simp [hf, peCond]),
        fun hf => hbr _ (by omega) (by simp [hf, peCond]), fun hf => hstay _ (by omega) (by simp [hf, peCond]),
        fun hf => hstay _ (by omega) (by simp [hf, peCond]), fun hf => hbr _ (by omega) (by simp [hf, peCond]),
        fun hf => hbr True (by omega) (by simp [hf, peCond]), fun hf => hbr _ (by omega) (by simp [hf, peCond]),
        fun hbad => congrArg _ (h.ends hsteps hop (peBr_unsupported (.inl hbad)))⟩
    case brOutside => exact congrArg _ (h.ends hsteps hop (peBr_unsupported (.inr htgt)))
    case hdrBad => exact congrArg _ (h.ends hsteps hop (peHdr_unsupported hbad))
    case hdrWindow => exact congrArg _ (h.ends hsteps hop ((peHdr_typed hlo hhi hf).trans (if_pos hwin)))
    case hdrDepth =>
      exact congrArg _ (h.ends hsteps hop ((peHdr_typed hlo hhi hf).trans ((if_neg (Nat.not_lt.mpr hwin)).trans (if_pos hdeep))))
    case hdr =>
      exact congrArg _ (h.goes hsteps hop ((peHdr_typed hlo hhi hf).trans
        ((if_neg (Nat.not_lt.mpr hwin)).trans (if_neg (Nat.not_le.mpr hdeep)))) hlookup)
    case len => exact congrArg _ (h.goes hsteps hop (peLen_exact heq) hlookup)
    case lenPadded => exact congrArg _ (h.goes hsteps hop (peLen_padded hlt hmin) hlookup)
    case lenShort => exact congrArg _ (h.ends hsteps hop (peLen_wrong (Nat.ne_of_lt hlt) (.inr hmin)))
    case lenLong => exact congrArg _ (h.ends hsteps hop (peLen_wrong (Nat.ne_of_gt hgt) (.inl hgt)))
    case lkp => exact congrArg _ (h.waits hsteps hop (peLkp_asks hlo hhi htgt) rfl)
    case lkpBad => exact congrArg _ (h.ends hsteps hop (peLkp_unsupported hbad))
    case exc => exact congrArg _ (h.ends hsteps hop (peExcIns_software hf))
    case excBad => exact congrArg _ (h.ends hsteps hop (peExcIns_unsupported hf))
    case done => exact congrArg _ (h.ends hsteps hop (peDone_class hf))
    case doneBad => exact congrArg _ (h.ends hsteps hop (peDone_unsupported hf))
    case budget => exact congrArg _ (h.overBudget hsteps hop)
  case result => exact ⟨fun _ => exec_lookupResult_hit hrun hlookup, exec_lookupResult_miss hrun hlookup⟩

end Sys2Proof.Machine
end
section
/-!
SUPPORT. Pass 1 over an audience chain: how it starts, what it does with one body, and where it ends (R303, R304, R310, R312, R325).
-/

namespace Sys2Proof.Machine

/-! ### The start and the end of a pass (R303, R310, R312) -/

section
variable {s : State} {ch : Nat} {mp : MPkt}

/-- A packet is taken from the signalled ones, in a new flight, and its payload is used. -/
def State.passStart (s : State) (mp : MPkt) : State :=
  ({ s with rep := { s.rep with sigQ := s.rep.sigQ.erase mp } }.beginFlight { pass1 := true, pid := mp.pid }).2.cacheUse mp.pid mp.len

/-- With no pass paused, the oldest signalled packet of the channel's session goes over the channel's chain. -/
theorem exec_pass1_starts (hrun : s.repRuns = true) (hidle : s.rep.paused = none)
    (hfirst : s.rep.sigQ.find? (fun p => p.ch == ch) = some mp) (hsess : mp.sess = (s.sessOf ch).id) :
    exec (.pass1 ch) s = .next ((s.passStart mp).passChain mp s.rep.nextFlight [] (s.chain ch)) := by
  have hsess' : ¬ mp.sess ≠ (State.sessOf { s with rep := { s.rep with sigQ := s.rep.sigQ.erase mp } } ch).id := fun h => h hsess
  simp only [exec, execPass1]
  rw [if_neg (by simp [hrun, hidle]), hfirst]
  exact congrArg _ (if_neg hsess')

theorem exec_pass1_paused (hpaused : s.rep.paused.isSome = true) : exec (.pass1 ch) s = .next s := by
  simp [exec, execPass1, hpaused]

/-- The flight of a pass that starts is alive under the active rule set. -/
theorem State.passStart_flight (s : State) (mp : MPkt) :
    (s.passStart mp).flight s.rep.nextFlight = { live := true, epoch := s.rep.epoch, pass1 := true, pid := mp.pid } :=
  Tbl.get_set_ne ({} : Flight) _ _ _ fun h => by simp at h

/-- The end of a pass is a matter of the flights alone. -/
theorem State.endPass1_leaves (s : State) (f : Nat) : ∃ fl, s.endPass1 f = { s with rep := { s.rep with flights := fl } } := by
  rw [State.endPass1, State.settleFlight]
  split
  · exact ⟨_, rfl⟩
  · exact ⟨_, rfl⟩

/-- A pass over one body that can be read, with room for its copy. -/
theorem State.passChain_single {f h : Nat} (hroom : s.rep.recirc.length < 16384) (hbody : s.bodyBad h = false) :
    s.passChain mp f [] [h] = (s.passBody mp f h).endPass1 f := by
  have hroom' : ¬ recircCap ≤ s.rep.recirc.length := Nat.not_le.mpr hroom
  rw [State.passChain, if_neg hroom', if_neg (Bool.eq_false_iff.mp hbody), State.passChain]

variable {w : Paused}

/-- A paused pass goes on over the bodies behind the last one passed. -/
theorem exec_pass1Resume_room (hrun : s.repRuns = true) (hpaused : s.rep.paused = some w) (hroom : s.rep.recirc.length < 16384)
    (hsess : w.mp.sess = (s.sessOf w.mp.ch).id) : exec .pass1Resume s = .next ({ s with rep := { s.rep with paused := none } }.passChain
      w.mp w.flight w.seen (afterSeen w.seen (s.chain w.mp.ch))) := by
  have hgo : ¬ (!s.repRuns || decide (recircCap ≤ s.rep.recirc.length)) = true := by
    simp only [hrun, Bool.not_true, Bool.false_or, decide_eq_true_eq]
    exact Nat.not_le.mpr hroom
  have hsess' : ¬ w.mp.sess ≠ (State.sessOf { s with rep := { s.rep with paused := none } } w.mp.ch).id := fun h => h hsess
  simp only [exec, execPass1Resume, hpaused]
  rw [if_neg hgo]
  exact congrArg _ (if_neg hsess')

theorem exec_pass1Resume_full (hpaused : s.rep.paused = some w) (hfull : 16384 ≤ s.rep.recirc.length) :
    exec .pass1Resume s = .next s := by
  simp [exec, execPass1Resume, hpaused, recircCap, hfull]

end

/-! ### One body (R304, R325) -/

section
variable {s : State} {f h : Nat} {mp : MPkt}

/-- The body once a packet of the base layer has been logged in it. -/
def Body.logged (b : Body) (mp : MPkt) : Body := { b with root := false }.logOff ((mp.seq + 65536 - b.dseq) % 65536)

/-- The log of offsets is apart from what a copy is made from. -/
theorem Body.logged_leaves (b : Body) (mp : MPkt) : (b.logged mp).d = b.d ∧ (b.logged mp).sh = b.sh ∧ (b.logged mp).dseq = b.dseq
    ∧ (b.logged mp).roc = b.roc := by
  rw [Body.logged, Body.logOff]
  split
  · exact ⟨rfl, rfl, rfl, rfl⟩
  · exact ⟨rfl, rfl, rfl, rfl⟩

theorem Body.logged_advance (b : Body) (mp : MPkt) : (b.logged mp).advance.dseq = b.advance.dseq
    ∧ (b.logged mp).advance.roc = b.advance.roc := by
  obtain ⟨-, -, hdseq, hroc⟩ := b.logged_leaves mp
  simp [Body.advance, hdseq, hroc]

/-- The shaper admits a copy of `l` bytes: neither the wait nor the debt passes its limit. -/
def Shaper.admits (v : Shaper) (l : Nat) : Prop := v.wait ≤ 8191 ∧ v.tooDeep l = false

/-- A copy that the shaper admits is charged, and its descriptor joins the recirculation queue. -/
theorem State.emitCopy_admitted {b : Body}
    (hadmits : (b.sh.update s.egrTime).admits ((s.ruleSet (s.flight f).epoch).copyLen b.d mp.len)) :
    s.emitCopy f h b mp = (s.setBody h { b.advance with
        sh := (b.sh.update s.egrTime).charge ((s.ruleSet (s.flight f).epoch).copyLen b.d mp.len) }).pushCopy
      (s.descriptor f h b.d mp b.dseq b.roc ((s.egrTime + (b.sh.update s.egrTime).wait) % 2 ^ 32) false) := by
  obtain ⟨hwait, hdebt⟩ := hadmits
  rw [State.emitCopy]
  exact if_neg (by simp [hwait, hdebt])

/-- An active body receives every packet of the base layer of a picture that it does not drop. -/
theorem State.passBody_base (hactive : (s.body h).st = .active) (hdrop : (s.body h).dropPic = false) (hjoin : mp.join = false)
    (hfirst : mp.first = false) (htid : mp.tid = 0) (hvar : mp.var = 0) :
    s.passBody mp f h = s.emitCopy f h ((s.body h).logged mp) mp := by
  simp [State.passBody, Body.logged, hactive, hdrop, hjoin, hfirst, htid, hvar]

/-- Pass 1 of a base-layer packet over one active body whose shaper admits the copy: the descriptor carries the delivery's DSEQ and
ROC, which advance. -/
theorem State.passChain_base (hroom : s.rep.recirc.length < 16384) (hbody : s.bodyBad h = false) (hactive : (s.body h).st = .active)
    (hdrop : (s.body h).dropPic = false) (hjoin : mp.join = false) (hfirst : mp.first = false) (htid : mp.tid = 0) (hvar : mp.var = 0)
    (hadmits : ((s.body h).sh.update s.egrTime).admits ((s.ruleSet (s.flight f).epoch).copyLen (s.body h).d mp.len)) :
    ∃ c v fl, s.passChain mp f [] [h] = { s with rep := { s.rep with
        recirc := s.rep.recirc ++ [c], bodies := s.rep.bodies.set {} h v, flights := fl } }
      ∧ (c.mp = mp ∧ c.handle = h ∧ c.d = (s.body h).d ∧ c.dseq = (s.body h).dseq ∧ c.roc = (s.body h).roc ∧ c.retx = false)
      ∧ v.d = (s.body h).d ∧ v.dseq = (s.body h).advance.dseq ∧ v.roc = (s.body h).advance.roc := by
  obtain ⟨hd, hsh, hdseq, hroc⟩ := (s.body h).logged_leaves mp
  have hemit := State.emitCopy_admitted (f := f) (h := h) (b := (s.body h).logged mp) (by rwa [hsh, hd])
  rw [State.passChain_single hroom hbody, State.passBody_base hactive hdrop hjoin hfirst htid hvar, hemit]
  obtain ⟨fl, hend⟩ := State.endPass1_leaves _ f
  obtain ⟨hnext, hnextRoc⟩ := (s.body h).logged_advance mp
  exact ⟨_, _, fl, hend, ⟨rfl, rfl, hd, hdseq, hroc, rfl⟩, hd, hnext, hnextRoc⟩

end

/-- Settles O23: a pass starts by `exec_pass1_starts`; over one body it makes the copy of `State.emitCopy_admitted`, and its end
leaves all but the flights. -/
theorem passOne : Obligations.PassOne := by
  unfold Obligations.PassOne
  intro s ch h mp hrun hfind hsess b
  refine ⟨fun hidle hchain => ?nobody, fun hidle hchain hbody hroom hactive hdrop hjoin hfirst htid hvar hwait hdebt => ?one,
    exec_pass1_paused, fun w hpaused hroom hsess' => exec_pass1Resume_room hrun hpaused hroom hsess',
    fun w hpaused hfull => exec_pass1Resume_full hpaused hfull⟩
  case nobody =>
    have hexec := exec_pass1_starts hrun hidle hfind hsess
    rw [hchain, State.passChain] at hexec
    obtain ⟨fl, hend⟩ := (s.passStart mp).endPass1_leaves s.rep.nextFlight
    exact ⟨_, hexec.trans (congrArg _ hend), rfl, rfl, rfl, rfl⟩
  case one =>
    have hadmits : (((s.passStart mp).body h).sh.update (s.passStart mp).egrTime).admits
        (((s.passStart mp).ruleSet ((s.passStart mp).flight s.rep.nextFlight).epoch).copyLen ((s.passStart mp).body h).d mp.len) := by
      rw [State.passStart_flight]
      exact ⟨hwait, hdebt⟩
    obtain ⟨c, v, fl, hpass, ⟨hmp, hhandle, hd, hdseq, hroc, hretx⟩, hvd, hvdseq, hvroc⟩ :=
      State.passChain_base (s := s.passStart mp) hroom hbody hactive hdrop hjoin hfirst htid hvar hadmits
    have hexec := exec_pass1_starts hrun hidle hfind hsess
    rw [hchain, hpass] at hexec
    exact ⟨_, c, v, hexec, rfl, rfl, hmp, hhandle, hd, hdseq, hroc, hretx, rfl, hvd, hvdseq, hvroc, rfl, rfl, rfl⟩

end Sys2Proof.Machine
end

section
/-!
SUPPORT. The build stage and the swap of rule sets (R303, R306, R308, R312, R322, R413, R477).
-/

namespace Sys2Proof.Machine

/-! ### The build stage (R306, R308, R322) -/

section
variable {s : State} {c : Copy}

/-- The recirculation queue once its oldest descriptor, of which `cs` is left, has been taken. -/
def State.recircPopped (s : State) (cs : List Copy) : State := { s with rep := { s.rep with recirc := cs } }.retxJoin

/-- The oldest descriptor is built; its body is read first, then the copy is checked. -/
theorem exec_buildStage_oldest {cs : List Copy} (agree : Bool) (hq : s.rep.recirc = c :: cs) (hrun : s.pktRuns = true) :
    exec (.buildStage agree) s = .next (if s.bodyBad c.handle = true then (s.recircPopped cs).pass2Err { c with hdr := s.copyHdr c }
      else if rewriteOk { c with hdr := s.copyHdr c } agree = true then (s.recircPopped cs).storeCopy { c with hdr := s.copyHdr c }
      else (((s.recircPopped cs).pktCount 6 1).raise 0x171).copyDone { c with hdr := s.copyHdr c }) := by
  simp only [exec, execBuildStage, hq, hrun]
  rfl

variable (hclk : (s.islOf (4 + c.port)).st ≠ .off)
include hclk

theorem State.storeCopy_storeFull (hfull : 65536 ≤ s.storeUsed c.port) :
    s.storeCopy c = ((s.egrCount c.port 2 1).storeFull c.port).copyDone c := by
  rw [State.storeCopy, if_neg hclk]
  exact if_pos hfull

variable (hroom : s.storeUsed c.port < 65536)
include hroom

theorem State.storeCopy_queueFull (hfull : (s.queueCfg c.port c.queue).depth ≤ s.queueDepth c.port c.queue) :
    s.storeCopy c = (s.egrCount c.port 3 1).copyDone c := by
  rw [State.storeCopy, if_neg hclk]
  exact (if_neg (Nat.not_le.mpr hroom)).trans (if_pos hfull)

/-- A copy for which its store and its queue have room enters the calendar. -/
theorem State.storeCopy_enters (hdeep : s.queueDepth c.port c.queue < (s.queueCfg c.port c.queue).depth) (hretx : c.retx = false) :
    s.storeCopy c = { s with egr := { s.egr with cal := s.egr.cal.set [] c.port (s.egr.cal.get [] c.port ++ [c]) } } := by
  rw [State.storeCopy, if_neg hclk, hretx]
  exact (if_neg (Nat.not_le.mpr hroom)).trans (if_neg (Nat.not_le.mpr hdeep))

end

/-- Settles O24: `exec_buildStage_oldest` says which check decides, `State.storeCopy` what the copy store does. -/
theorem copiesBuilt : Obligations.CopiesBuilt := by
  unfold Obligations.CopiesBuilt
  intro s agree c₀ cs hq hrun c u
  have hbuild := exec_buildStage_oldest agree hq hrun
  refine ⟨fun hbody => ?error, fun hbody hcheck => ?mismatch, fun hbody hcheck hclk => ?admission⟩
  case error => exact hbuild.trans (congrArg _ (if_pos hbody))
  case mismatch => exact hbuild.trans (congrArg _ ((if_neg (Bool.eq_false_iff.mp hbody)).trans (if_neg (Bool.eq_false_iff.mp hcheck))))
  case admission =>
    have hstore : exec (.buildStage agree) s = .next (u.storeCopy c) :=
      hbuild.trans (congrArg _ ((if_neg (Bool.eq_false_iff.mp hbody)).trans (if_pos hcheck)))
    refine ⟨fun hfull => ?storeFull, fun hroom hdeep => ?queueFull, fun hroom hdeep hretx => ?enters⟩
    case storeFull => exact hstore.trans (congrArg _ (State.storeCopy_storeFull (s := u) hclk hfull))
    case queueFull => exact hstore.trans (congrArg _ (State.storeCopy_queueFull (s := u) hclk hroom hdeep))
    case enters => exact hstore.trans (congrArg _ (State.storeCopy_enters (s := u) hclk hroom hdeep hretx))

/-! ### Rule sets (R312, R413) -/

section
variable {s : State} {w : Swap}

theorem exec_rulesetFlip_loaded (hswap : s.rep.swap = some w) (hclk : s.stopped 6 = false) (hwait : w.flipped = none) :
    exec .rulesetFlip s = .next { s with rep := { s.rep with
      epoch := (s.rep.epoch + 1) % 16
      active := w.idx
      setOf := s.rep.setOf.set 0 ((s.rep.epoch + 1) % 16) w.idx
      swap := some { w with flipped := some s.rep.epoch } } } := by
  simp [exec, execRulesetFlip, hswap, hwait, hclk]

/-- A flipped set stays in the swap while a packet of the old epoch is in flight. -/
theorem exec_rulesetRetire_flipped {e : Nat} (hswap : s.rep.swap = some w) (hclk : s.stopped 6 = false) (hflip : w.flipped = some e) :
    exec .rulesetRetire s = .next (if s.inFlight e ≠ 0 then s else if w.answered = true then { s with rep := { s.rep with swap := none } }
      else { s with rep := { s.rep with swap := none } }.completeJob { tag := w.tag, irq := w.irq } .ok) := by
  simp [exec, execRulesetRetire, hswap, hflip, hclk]

end

/-- Settles O28: the command by its three refusals in order, the flip and the retirement by the swap's state. -/
theorem rulesetSwaps : Obligations.RulesetSwaps := by
  unfold Obligations.RulesetSwaps
  intro s h idx w on
  refine ⟨⟨fun hout hs => ?badArg, fun hin hact hs => ?active, fun hin hact hbusy hs => ?busy, fun hin hact hfree hs => ?taken⟩,
    fun hswap hclk => ⟨fun hwait => exec_rulesetFlip_loaded hswap hclk hwait, fun e hflip hlive => ?stays,
      fun e hflip hnone ha => ?completes, fun e hflip hnone ha => ?retires⟩⟩
  case badArg => exact exec_of_serving hs rfl (if_pos hout)
  case active => exact exec_of_serving hs rfl ((if_neg (Nat.not_le.mpr hin)).trans (if_pos hact))
  case busy => exact exec_of_serving hs rfl ((if_neg (Nat.not_le.mpr hin)).trans ((if_neg hact).trans (if_pos hbusy)))
  case taken =>
    exact exec_of_serving hs rfl ((if_neg (Nat.not_le.mpr hin)).trans ((if_neg hact).trans (if_neg (by simp [hfree]))))
  case stays => rw [exec_rulesetRetire_flipped hswap hclk hflip, if_pos hlive]
  case completes =>
    rw [exec_rulesetRetire_flipped hswap hclk hflip, if_neg (not_not.mpr hnone), if_neg (Bool.eq_false_iff.mp ha)]
  case retires => rw [exec_rulesetRetire_flipped hswap hclk hflip, if_neg (not_not.mpr hnone), if_pos ha]

end Sys2Proof.Machine
end

section
/-!
SUPPORT. Egress: the calendar, the gates, selection, and the seal stage with the MAC boundary (R323, R328, R329, R333, R337, R338, R341,
R342).
-/

namespace Sys2Proof.Machine

/-! ### The calendar (R323, R329) -/

section
variable {s : State} {p : Nat} {c : Copy}

/-- The copies of a port whose bucket has started, in the order in which they join (R323). -/
def State.dueCopies (s : State) (p : Nat) : List Copy :=
  ((s.egr.cal.get [] p).filter fun c => aheadOf s.egrTime c.elig == 0).foldl (fun a c => insBucket s.egrTime c a) []

/-- The copies of a port whose bucket lies ahead. -/
def State.laterCopies (s : State) (p : Nat) : List Copy := (s.egr.cal.get [] p).filter fun c => aheadOf s.egrTime c.elig != 0

theorem State.calendar_early (hearly : ∀ x ∈ s.egr.cal.get [] p, aheadOf s.egrTime x.elig ≠ 0) :
    s.dueCopies p = [] ∧ s.laterCopies p = s.egr.cal.get [] p := by
  have hdue : ((s.egr.cal.get [] p).filter fun c => aheadOf s.egrTime c.elig == 0) = [] :=
    List.filter_eq_nil_iff.mpr fun x hx => by simpa using hearly x hx
  exact ⟨congrArg _ hdue, List.filter_eq_self.mpr fun x hx => by simpa using hearly x hx⟩

theorem State.calendar_due (hcal : s.egr.cal.get [] p = [c]) (hdue : aheadOf s.egrTime c.elig = 0) :
    s.dueCopies p = [c] ∧ s.laterCopies p = [] := by
  simp [State.dueCopies, State.laterCopies, hcal, hdue, insBucket]

/-- A port's calendar holds `later`; its counts of joined copies begin anew, from which `joining` counts the copies that join. -/
def State.calendarLeft (s : State) (p : Nat) (later : List Copy) (joining : Tbl Nat → Tbl Nat) : State :=
  { s with egr := { s.egr with
    cal := s.egr.cal.set [] p later, joined := joining (s.egr.joined.drop fun k => k / 1024 == p) } }

/-- The finish tag of a copy that joins: by its queue's weight after the queue's last tag, or, in an empty queue, after the class's
virtual time (R329). -/
def State.joinTag (s : State) (c : Copy) : Nat :=
  ((if s.queue c.port c.queue = [] then s.egr.vtime.get 0 (8 * c.port + (s.queueCfg c.port c.queue).cls)
    else s.egr.ftag.get 0 (qKey c.port c.queue)) + ceilDiv (c.len * 16) (s.queueCfg c.port c.queue).weight) % 2 ^ 32

theorem State.joinQueue_eq (s : State) (c : Copy) : s.joinQueue c = { s with egr := { s.egr with
    ftag := s.egr.ftag.set 0 (qKey c.port c.queue) (s.joinTag c)
    queues := s.egr.queues.set [] (qKey c.port c.queue) (s.queue c.port c.queue ++ [{ c with ftag := s.joinTag c }]) } } := by
  simp only [State.joinQueue, State.joinTag, State.setQueue, State.queue, List.isEmpty_iff]
  rfl

variable (hclk : s.stopped (4 + p) = false) (hst : s.glb.st = .run ∨ s.glb.st = .safe)
include hclk hst

/-- In RUN and SAFE the copies of a port whose bucket has started join their queues, the others stay. -/
theorem exec_calendarBucket_runs : exec (.calendarBucket p) s = .next (
    (s.dueCopies p).foldl State.joinQueue (s.calendarLeft p (s.laterCopies p)
      fun t => (s.dueCopies p).foldl (fun t c => t.upd 0 (qKey c.port c.queue) fun n => n + 1) t)) := by
  have hgo : ¬ (s.stopped (4 + p) || !(s.glb.st == .run || s.glb.st == .safe)) = true := by
    rcases hst with h | h <;> simp [hclk, h]
  exact congrArg _ (if_neg hgo)

theorem exec_calendarBucket_early (hearly : ∀ x ∈ s.egr.cal.get [] p, aheadOf s.egrTime x.elig ≠ 0) :
    exec (.calendarBucket p) s = .next (s.calendarLeft p (s.egr.cal.get [] p) id) := by
  obtain ⟨hdue, hlater⟩ := State.calendar_early hearly
  rw [exec_calendarBucket_runs hclk hst, hdue, hlater]
  rfl

theorem exec_calendarBucket_due (hcal : s.egr.cal.get [] p = [c]) (hdue : aheadOf s.egrTime c.elig = 0) :
    exec (.calendarBucket p) s
      = .next ((s.calendarLeft p [] fun t => t.upd 0 (qKey c.port c.queue) fun n => n + 1).joinQueue c) := by
  obtain ⟨hnow, hlater⟩ := State.calendar_due hcal hdue
  rw [exec_calendarBucket_runs hclk hst, hnow, hlater]
  rfl

end

/-! ### Gates (R333) -/

section
variable {s : State} {p e : Nat}

/-- The first whole nanosecond from now on at which entry `e` of a port's list begins. -/
def State.entryStart (s : State) (p e : Nat) : Nat :=
  let g := s.gateImg p
  let now := ceilDiv s.time.ptp nsTime
  now + ((g.phaseNs + g.startOf e) % g.cycleNs + g.cycleNs - now % g.cycleNs) % g.cycleNs

theorem State.le_entryStart (s : State) (p e : Nat) : s.time.ptp ≤ s.entryStart p e * nsTime := by
  have hup : s.time.ptp ≤ ceilDiv s.time.ptp nsTime * nsTime := by
    unfold ceilDiv nsTime
    omega
  exact hup.trans (Nat.mul_le_mul_right _ (Nat.le_add_right _ _))

/-- Waiting for the rest of the cycle brings any instant to the offset `a` of the cycle. -/
theorem add_rest_mod {n a cyc : Nat} (ha : a < cyc) : (n + (a + cyc - n % cyc) % cyc) % cyc = a := by
  have hn : n % cyc < cyc := Nat.mod_lt n (by omega)
  have hsum : n + (a + cyc - n % cyc) = a + cyc * (n / cyc + 1) := by
    have hdiv := Nat.div_add_mod n cyc
    rw [Nat.mul_add_one]
    omega
  rw [Nat.add_mod_mod, hsum, Nat.add_mul_mod_self_left, Nat.mod_eq_of_lt ha]

theorem State.entryStart_mod (hcyc : (s.gateImg p).cycleNs ≠ 0) :
    s.entryStart p e % (s.gateImg p).cycleNs = ((s.gateImg p).phaseNs + (s.gateImg p).startOf e) % (s.gateImg p).cycleNs :=
  add_rest_mod (Nat.mod_lt _ (Nat.pos_of_ne_zero hcyc))

/-- An entry that is not in force begins at its next instant. -/
theorem exec_gateEntry_begins (hst : s.glb.st = .run ∨ s.glb.st = .safe) (he : e < (s.gateImg p).ents.length)
    (hcyc : (s.gateImg p).cycleNs ≠ 0) (hoff : gateAt (s.gateImg p) s.ptpNs ≠ e) :
    exec (.gateEntry p e) s = .next (s.timeTo (s.entryStart p e * nsTime)).gatesNow := by
  have hgo : ¬ (!(s.glb.st == .run || s.glb.st == .safe) || decide ((s.gateImg p).ents.length ≤ e)
      || decide ((s.gateImg p).cycleNs = 0)) = true := by
    rcases hst with h | h <;> simp [h, he, hcyc]
  exact congrArg _ ((if_neg hgo).trans (if_neg hoff))

end

/-! ### Selection (R328, R329) -/

section
variable {s : State} {p : Nat} {same : Bool}

theorem exec_schedulerSelect_idle (hno : s.canStart p = false) : exec (.schedulerSelect p same) s = .next s := by
  simp [exec, execSchedulerSelect, hno]

variable {qs : List Nat} {u : State} (hgo : s.canStart p = true) (hjudged : s.gatesNow.judgeAll same p = (qs, u))
include hgo hjudged

theorem exec_schedulerSelect_none (hnone : u.chooseQueue p qs = none) : exec (.schedulerSelect p same) s = .next u := by
  simp [exec, execSchedulerSelect, hgo, hjudged, hnone]

/-- The head of the queue chosen leaves it for the seal stage, and gives its tag to its class's virtual time. -/
theorem exec_schedulerSelect_some {q : Nat} {c : Copy} {cs : List Copy} (hsome : u.chooseQueue p qs = some q)
    (hq : u.queue p q = c :: cs) : exec (.schedulerSelect p same) s = .next { u with egr := { u.egr with
      queues := u.egr.queues.set [] (1024 * p + q) cs
      vtime := u.egr.vtime.set 0 (8 * p + (u.queueCfg p q).cls) c.ftag
      waited := u.egr.waited.set false (1024 * p + q) false
      sealing := u.egr.sealing.set [] p (u.egr.sealing.get [] p ++ [c]) } } := by
  have hhead : exec (.schedulerSelect p same) s = .next (u.selectHead p q) := by
    simp [exec, execSchedulerSelect, hgo, hjudged, hsome]
  rw [hhead, State.selectHead, hq]
  rfl

end

/-- Settles O26: a bucket by whether its copy is due, an entry by the instant at which it next begins, a port by the queue chosen. -/
theorem queuesAndGates : Obligations.QueuesAndGates := by
  unfold Obligations.QueuesAndGates
  refine ⟨?calendar, fun s p e => ⟨fun hst he hcyc hoff => ?begins, fun hgo same qs u hjudged => ⟨exec_schedulerSelect_none hgo hjudged,
    fun q c cs => exec_schedulerSelect_some hgo hjudged⟩, fun same hno => exec_schedulerSelect_idle hno⟩⟩
  case calendar =>
    intro s p c hclk hst l key cfg q start tag old
    exact ⟨fun hearly => exec_calendarBucket_early hclk hst hearly, fun hcal hdue =>
      (exec_calendarBucket_due hclk hst hcal hdue).trans (congrArg _ (State.joinQueue_eq _ c))⟩
  case begins =>
    refine ⟨_, exec_gateEntry_begins hst he hcyc hoff, s.le_entryStart p e, Nat.mul_mod_left _ _, ?_, rfl, rfl⟩
    calc s.entryStart p e * nsTime / nsTime % (s.gateImg p).cycleNs
        = s.entryStart p e % (s.gateImg p).cycleNs := by rw [Nat.mul_div_cancel _ (by decide)]
      _ = _ := State.entryStart_mod hcyc

/-! ### The seal stage and the MAC boundary (R337, R338, R341, R342) -/

section
variable (s : State) (c : Copy)

/-- A copy that leaves pass 2 is a matter of the flights alone. -/
theorem State.copyDone_leaves : ∃ fl, s.copyDone c = { s with rep := { s.rep with flights := fl } } := by
  unfold State.copyDone
  split
  · exact ⟨s.rep.flights, rfl⟩
  · dsimp only
    unfold State.settleFlight
    dsimp only
    split
    · exact ⟨_, rfl⟩
    · exact ⟨_, rfl⟩

/-- A payload is read from the cache, or from the granary under a counter. -/
theorem State.readPayload_leaves : ∃ l n, s.readPayload c
    = { s with rep := { s.rep with cache := l }, pkt := { s.pkt with cnt := n } } := by
  unfold State.readPayload
  split
  · exact ⟨s.rep.cache, s.pkt.cnt, rfl⟩
  · split
    · exact ⟨_, s.pkt.cnt, rfl⟩
    · exact ⟨s.rep.cache, _, rfl⟩

theorem State.copyDone_flt : (s.copyDone c).flt = s.flt := by
  obtain ⟨fl, h⟩ := s.copyDone_leaves c
  rw [h]

end

section
variable {s : State} {p : Nat} {c : Copy} {cs : List Copy}

/-- The seal stage of a port, of which `cs` is left, in the next logical pair's turn. -/
def State.sealTaken (s : State) (p : Nat) (cs : List Copy) : State :=
  ({ s with egr := { s.egr with sealing := s.egr.sealing.set [] p cs } }.takeTurn p).2

/-- The physical pair whose turn it is on a port (R338). -/
def State.turnPair (s : State) (p : Nat) : Nat := s.physPair (s.takeTurn p).1

/-- The fate of a copy under a key: its pair's two engines disagree, its frame fails at the MAC boundary, or it is sent. -/
def State.keyedFate (s : State) (p pair : Nat) (o : SealObs) (c : Copy) : State :=
  if o.agree = false then ((s.egrCount p 6 1).raise (0x114 + pair)).copyDone c
  else if o.sealed = false ∨ itag s.egr.itSeed (tagSeen c p o) ≠ c.tag then
    (({ s with egr := { s.egr with tagPort := p, tagCh := c.mp.ch } }.egrCount p 7 1).raise 0x172).copyDone c
  else (s.transmit p c).copyDone c

theorem exec_sealStage_oldest (o : SealObs) (hgo : s.canStart p = true) (hq : s.egr.sealing.get [] p = c :: cs)
    (hwait : s.keyWaits c.d.keySlot = false) :
    exec (.sealStage p o) s = .next (if s.keyAt c.d.keySlot = [] then ((s.sealTaken p cs).egrCount p 5 1).copyDone c
      else ((s.sealTaken p cs).readPayload c).keyedFate p (s.turnPair p) o c) := by
  have hgo' : ¬ (!s.canStart p || s.keyWaits c.d.keySlot) = true := by simp [hgo, hwait]
  have hpair : ((s.sealTaken p cs).readPayload c).physPair (s.takeTurn p).1 = s.turnPair p := by
    obtain ⟨l, n, hread⟩ := (s.sealTaken p cs).readPayload_leaves c
    rw [hread]
    rfl
  rw [← hpair]
  simp only [exec, execSealStage, hq]
  rw [if_neg hgo']
  simp only [List.isEmpty_iff, State.keyedFate, Bool.not_eq_true', Bool.or_eq_true, bne_iff_ne]
  rfl

theorem State.raise_copyDone_sets {n : Nat} (h : s.canRise n = true) :
    ((s.raise n).copyDone c).flt.sticky.get false n = true := by
  rw [State.copyDone_flt]
  exact State.raiseIn_sets s none false false _ h

end

/-- Settles O27: the copy leaves the seal stage by `exec_sealStage_oldest`, without a key or with its fate under one. -/
theorem sealAndSend : Obligations.SealAndSend := by
  unfold Obligations.SealAndSend
  intro s p o c cs hgo hq hwait keyed same
  have hexec := exec_sealStage_oldest o hgo hq hwait
  obtain ⟨l, n, hread⟩ := (s.sealTaken p cs).readPayload_leaves c
  have hfate (hkey : keyed) := hexec.trans (congrArg _ ((if_neg hkey).trans (congrArg (State.keyedFate · p (s.turnPair p) o c) hread)))
  refine ⟨fun hkey => ?unkeyed, fun hkey hag => ?disagree, fun hkey hag hbad => ?badTag, fun hkey hag hsealed hsame => ?sent⟩
  case unkeyed =>
    obtain ⟨fl, hdone⟩ := ((s.sealTaken p cs).egrCount p 5 1).copyDone_leaves c
    exact ⟨_, hexec.trans (congrArg _ ((if_pos (not_not.mp hkey)).trans hdone)), rfl, rfl, rfl, rfl⟩
  case disagree =>
    refine ⟨_, (hfate hkey).trans (congrArg _ (if_pos hag)), fun hrise => State.raise_copyDone_sets ?_⟩
    exact (State.canRise_congr rfl rfl rfl _).trans hrise
  case badTag =>
    refine ⟨_, (hfate hkey).trans (congrArg _ ((if_neg (by simp [hag])).trans (if_pos hbad))),
      fun hrise => State.raise_copyDone_sets ?_⟩
    exact (State.canRise_congr rfl rfl rfl _).trans hrise
  case sent =>
    have hgood : ¬ (o.sealed = false ∨ ¬ same) := not_or.mpr ⟨by simp [hsealed], not_not.mpr hsame⟩
    have hsent := (hfate hkey).trans (congrArg _ ((if_neg (by simp [hag])).trans (if_neg hgood)))
    obtain ⟨fl, hdone⟩ := State.copyDone_leaves _ c
    exact ⟨_, _, hsent.trans (congrArg _ hdone), rfl, rfl, rfl, rfl, rfl, rfl, rfl, rfl, rfl, rfl⟩

end Sys2Proof.Machine
end

section
/-!
SUPPORT. Refresh, scrub and stack temperature; drains, and a full retraining that keeps the contents (R353, R354, R357 to R359, R361,
R362, R364, R367, R368).
-/

namespace Sys2Proof.Machine

/-! ### Address decoding (R353) -/

/-- The granules of a position are numbered by the offset, so position and offset give the granule and the byte in it. -/
theorem eq_of_position_offset {a b G n : Nat} (hG : 0 < G) (hpos : a / G % n = b / G % n)
    (hoff : a / G / n * G + a % G = b / G / n * G + b % G) : a = b := by
  have hbyte : a % G = b % G := by simpa [Nat.mul_add_mod_self_right] using congrArg (· % G) hoff
  have hround : a / G / n = b / G / n := Nat.eq_of_mul_eq_mul_right hG (by omega)
  have hgran : a / G = b / G := by rw [← Nat.div_add_mod (a / G) n, ← Nat.div_add_mod (b / G) n, hround, hpos]
  rw [← Nat.div_add_mod a G, ← Nat.div_add_mod b G, hgran, hbyte]

/-- Settles O30: the granule by the position and the offset's quotient, the byte in it by the remainder. -/
theorem positionsApart : Obligations.PositionsApart := by
  unfold Obligations.PositionsApart
  intro s a b hpos hoff
  exact eq_of_position_offset (Nat.mul_pos (by decide) (Nat.two_pow_pos _)) hpos hoff

/-! ### Refresh and temperature (R357, R375) -/

section
variable {s : State} {g k n addr : Nat}

theorem Stack.ne_reset_of_st {v : Stack} (h : v.st ≠ .training) : v ≠ {} := fun e => h (congrArg Stack.st e)

theorem Stack.ne_reset_of_phase {v : Stack} (h : v.drain.phase ≠ .idle) : v ≠ {} := fun e => h (congrArg (fun v => v.drain.phase) e)

/-- A stack's record that differs from the one of reset reads back. -/
theorem State.setStack_stack_same (s : State) (k : Nat) {v : Stack} (hv : v ≠ {}) : (s.setStack k v).stack k = v :=
  (s.setStack_stack_of_ne k hv k).trans (if_pos rfl)

section
variable (hst : (s.stack (g / 32)).st = .service) (hrole : (s.pc g).role ≠ .retired)
include hst hrole

theorem exec_refreshDue_free : exec (.refreshDue g false) s = .next (s.setPc g { s.pc g with outst := 0 }) := by
  simp [exec, execRefreshDue, Stack.alive, hst, hrole]

/-- With reads queued a refresh is postponed, or issued with 8 outstanding; the stack notes that the limit was hit. -/
theorem exec_refreshDue_reads : exec (.refreshDue g true) s
    = .next ((s.setPc g { s.pc g with outst := if (s.pc g).outst < 8 then (s.pc g).outst + 1 else 7 }).setStack (g / 32)
      { s.stack (g / 32) with maxHit := (s.stack (g / 32)).maxHit || decide (7 ≤ (s.pc g).outst) }) := by
  simp [exec, execRefreshDue, Stack.alive, hst, hrole]

/-- The limit is hit with 7 outstanding or more. -/
theorem exec_refreshDue_hits (h7 : 7 ≤ (s.pc g).outst) {m : Nat} (hm : m = if (s.pc g).outst < 8 then (s.pc g).outst + 1 else 7) :
    ∃ t, exec (.refreshDue g true) s = .next t ∧ t.hbm.pcs = s.hbm.pcs.set {} g { s.pc g with outst := m }
      ∧ (t.stack (g / 32)).maxHit = true := by
  refine ⟨_, exec_refreshDue_reads hst hrole, by rw [hm]; rfl, ?_⟩
  rw [State.setStack_stack_same _ _ (Stack.ne_reset_of_st (by simp [hst]))]
  simp [h7]

end

theorem exec_stackTemperatureReport_runs (hup : s.glb.st ≠ .reset) (hclk : s.stopped (2 + k) = false) :
    exec (.stackTemperatureReport k n) s = .next (s.setStack k { s.stack k with temp := n % 256, hot := decide (85 ≤ n) }) := by
  simp [exec, execStackTemperatureReport, State.awake, hup, hclk]

/-! ### The scrub (R358, R359) -/

section
variable (hmeets : s.meets addr = .served g) (hst : (s.stack (s.posOf addr % 2)).st = .service)
  (hidle : s.posIdle (s.posOf addr) = true)
include hmeets hst hidle

theorem exec_scrubRead_clean (passEnd : Bool) : exec (.scrubRead addr .clean passEnd) s
    = .next (if passEnd then s.hbmCount (s.posOf addr % 2) 2 1 else s) := by
  simp [exec, execScrubRead, stackOf, hmeets, hst, hidle]

theorem exec_scrubRead_corrected (hgood : s.unitPoisoned (addr / 64) = false) :
    exec (.scrubRead addr .corrected false) s = .next (s.correctedErr g) := by
  simp [exec, execScrubRead, stackOf, hmeets, hst, hidle, hgood]

end

end

/-- Settles O31: a refresh by whether reads are queued, a scrub by what it finds; `correctedErr_sets` gives HBM_CE. -/
theorem refreshAndScrub : Obligations.RefreshAndScrub := by
  unfold Obligations.RefreshAndScrub
  intro s g k n addr
  refine ⟨fun hst hrole => ⟨exec_refreshDue_free hst hrole, fun hlt => ?postponed, fun h7 => ?eighth, fun h8 => ?ninth⟩,
    fun hmeets hst hidle => ⟨exec_scrubRead_clean hmeets hst hidle false, exec_scrubRead_clean hmeets hst hidle true,
      fun hgood => ?corrected⟩,
    exec_stackTemperatureReport_runs⟩
  case postponed => exact ⟨_, exec_refreshDue_reads hst hrole, by rw [if_pos (by omega)]; rfl⟩
  case eighth => exact exec_refreshDue_hits hst hrole h7.ge (by simp [h7])
  case ninth => exact exec_refreshDue_hits hst hrole (by omega) (if_neg (by omega)).symm
  case corrected => exact ⟨_, exec_scrubRead_corrected hmeets hst hidle hgood, State.correctedErr_sets s g⟩

/-! ### A drain (R361, R362, R364, R368) -/

section
variable {s : State} {k x t : Nat} {xs : List Nat}

theorem exec_drainStart_begins (hrun : s.drainsRun k = true) (hidle : (s.stack k).drain.phase = .idle)
    (hwant : (s.stack k).drain.want = []) (hsp : s.stackSpares k = x :: xs) (hleft : (s.stack k).exhausted = false)
    (htgt : s.drainTarget k = some t) : exec (.drainStart k) s = .next (s.beginDrain k t x) := by
  simp [exec, execDrainStart, hrun, hidle, hwant, hsp, hleft, htgt]

/-- An exhausted stack starts no periodic drain (R365). -/
theorem exec_drainStart_exhausted (hrun : s.drainsRun k = true) (hidle : (s.stack k).drain.phase = .idle)
    (hwant : (s.stack k).drain.want = []) (hspent : (s.stack k).exhausted = true) : exec (.drainStart k) s = .next s := by
  cases hsp : s.stackSpares k <;> simp [exec, execDrainStart, hrun, hidle, hwant, hsp, hspent]

/-- Nothing is held, so nothing applies. -/
theorem State.islHeldNow_none {n : Nat} (h : (s.islOf n).held = []) (fresh : Bool) : s.islHeldNow n fresh = s := by
  simp [State.islHeldNow, h]

theorem exec_trainingGatherEnd_unheld (hg : (s.stack k).gather = true) (hheld : (s.islOf (2 + k)).held = []) :
    exec (.trainingGatherEnd k) s = .next (s.setStack k { s.stack k with gather := false }) := by
  have hnone : ((s.setStack k { s.stack k with gather := false }).islOf (2 + k)).held = [] := hheld
  simp [exec, execTrainingGatherEnd, hg, State.islHeldNow_none hnone]

/-- A spare whose check succeeds is trained, and the copy to it begins. -/
theorem exec_trainingDone_copies (hg : (s.stack k).gather = false) (hr : (s.stack k).retrain = false)
    (hst : (s.stack k).st = .service) (hph : (s.stack k).drain.phase = .check) : exec (.trainingDone k true) s
      = .next (((s.pcTrained (s.stack k).drain.spare).nextOrder k).setStack k
        { ((s.pcTrained (s.stack k).drain.spare).nextOrder k).stack k with drain := { (s.stack k).drain with phase := .copy } }) := by
  simp [exec, execTrainingDone, hg, hr, hst, hph]

theorem State.trained_leaves (s : State) (g k : Nat) :
    ((s.pcTrained g).nextOrder k).hbm.map = s.hbm.map ∧ ((s.pcTrained g).nextOrder k).flt = s.flt := ⟨rfl, rfl⟩

theorem exec_trainingDone_leaves (hg : (s.stack k).gather = false) (hr : (s.stack k).retrain = false)
    (hst : (s.stack k).st = .service) (hph : (s.stack k).drain.phase = .check) : ∃ u, exec (.trainingDone k true) s = .next u
      ∧ (u.stack k).drain = { (s.stack k).drain with phase := .copy } ∧ u.hbm.map = s.hbm.map ∧ u.flt = s.flt := by
  obtain ⟨hmap, hflt⟩ := s.trained_leaves (s.stack k).drain.spare k
  refine ⟨_, exec_trainingDone_copies hg hr hst hph, ?_, ?_, ?_⟩
  · rw [State.setStack_stack_same]
    exact Stack.ne_reset_of_phase DrainPh.noConfusion
  · rw [State.setStack_hbm, hmap]
  · rw [State.setStack_flt, hflt]

/-- What a drain's swap does to the map, the pseudo-channels and their units: the spare serves the target's position, and the target
is out of service. -/
def State.swapUnits (s : State) (d : Drain) : State :=
  let s := s.placePc (s.pc d.tgt).pos d.spare
  let s := s.setPc d.tgt { s.pc d.tgt with role := .offline }
  let s := s.setUnitSt (unitPc d.tgt) .quarantined
  if d.want.contains d.tgt then s.countMove (unitPc d.tgt) else s

theorem exec_drainSwap_copied (hph : (s.stack k).drain.phase = .copy) (hst : (s.stack k).st = .service) : exec (.drainSwap k) s
    = .next (((s.swapUnits (s.stack k).drain).hbmCount k 0 1).setStack k
      { ((s.swapUnits (s.stack k).drain).hbmCount k 0 1).stack k with
        gather := true, drain := { (s.stack k).drain with phase := .offline } }) := by
  simp only [exec, execDrainSwap, hph, hst, ne_eq, not_true_eq_false, or_self, if_false]
  rfl

/-- Counting a move of a unit out of service leaves it so. -/
theorem State.countMove_unit_st (s : State) {u : Nat} (h : (s.unit u).st ≠ .inService) :
    ((s.countMove u).unit u).st = (s.unit u).st := by
  have hne : { s.unit u with fo := min 255 ((s.unit u).fo + 1), foSat := (s.unit u).foSat || decide (254 ≤ (s.unit u).fo) }
      ≠ ({} : UnitEnt) := fun e => h (congrArg UnitEnt.st e)
  show ((s.led.setUnit u _).units.get {} u).st = _
  rw [Ledg.setUnit_units, Tbl.get_set_ne _ _ _ _ hne]

theorem State.swapUnits_target (s : State) (d : Drain) : ((s.swapUnits d).unit (unitPc d.tgt)).st = .quarantined := by
  unfold State.swapUnits
  dsimp only
  split
  · rw [State.countMove_unit_st] <;> simp [State.setUnitSt_unit_same]
  · exact State.setUnitSt_unit_same _ _ (by decide)

theorem State.placePc_leaves (s : State) (i g : Nat) : (s.placePc i g).hbm.map = s.hbm.map.set none i (some g)
    ∧ (s.placePc i g).hbm.mem = s.hbm.mem ∧ (s.placePc i g).flt = s.flt := ⟨rfl, rfl, rfl⟩

/-- The swap writes no contents and raises nothing; of the map it writes the target's position. -/
theorem State.swapUnits_leaves (s : State) (d : Drain) : (s.swapUnits d).hbm.map = s.hbm.map.set none (s.pc d.tgt).pos (some d.spare)
    ∧ (s.swapUnits d).hbm.mem = s.hbm.mem ∧ (s.swapUnits d).flt = s.flt := by
  obtain ⟨hmap, hmem, hflt⟩ := s.placePc_leaves (s.pc d.tgt).pos d.spare
  simp only [← hmap, ← hmem, ← hflt, State.swapUnits, State.countMove, State.setUnitSt]
  split <;> simp

theorem exec_drainSwap_leaves (hph : (s.stack k).drain.phase = .copy) (hst : (s.stack k).st = .service) :
    ∃ u, exec (.drainSwap k) s = .next u
      ∧ u.hbm.map = s.hbm.map.set none (s.pc (s.stack k).drain.tgt).pos (some (s.stack k).drain.spare)
      ∧ (u.stack k).drain.phase = .offline ∧ (u.stack k).gather = true
      ∧ (u.unit (unitPc (s.stack k).drain.tgt)).st = .quarantined ∧ u.hbm.mem = s.hbm.mem ∧ u.flt = s.flt := by
  obtain ⟨hmap, hmem, hflt⟩ := s.swapUnits_leaves (s.stack k).drain
  have hstack := State.setStack_stack_same ((s.swapUnits (s.stack k).drain).hbmCount k 0 1) k
    (v := { ((s.swapUnits (s.stack k).drain).hbmCount k 0 1).stack k with
      gather := true, drain := { (s.stack k).drain with phase := .offline } }) (Stack.ne_reset_of_phase DrainPh.noConfusion)
  refine ⟨_, exec_drainSwap_copied hph hst, ?_, by rw [hstack], by rw [hstack], ?_, ?_, ?_⟩
  · rw [State.setStack_hbm, State.hbmCount, State.setStack_hbm, hmap]
  · rw [State.unit, State.setStack_led, State.hbmCount_led]
    exact s.swapUnits_target (s.stack k).drain
  · rw [State.setStack_hbm, State.hbmCount, State.setStack_hbm, hmem]
  · rw [State.setStack_flt, State.hbmCount_flt, hflt]

/-! ### An abort of a drain (R364, R419) -/

theorem exec_abortDrain_reached (h : s.mbxReached = true) : exec (.abortDrain k) s = .next (s.requestAbort (.drain k)) := by
  simp [exec, execAbortDrain, h]

theorem exec_abortDrain_resolved (hmb : s.mbxReached = true) (hp : s.mbx.abortPend = none) (h1 : s.stopped 1 = false) :
    exec (.abortDrain k) s = .next (s.resolveAbort (.drain k)) := by
  rw [exec_abortDrain_reached hmb, State.requestAbort_now _ (State.mbxReached_iff.mp hmb).2 h1 hp]

theorem State.abortDone_frame (s : State) (res : Nat) :
    s.abortDone res = { s with mbx := { s.mbx with abortRes := res }, irq := (s.abortDone res).irq } :=
  State.irqEvent_frame _ _

theorem State.resolveAbort_idle (h : (s.stack k).drain.phase = .idle) : s.resolveAbort (.drain k) = s.abortDone 3 := by
  simp [State.resolveAbort, h]

/-- After its swap a drain goes on. -/
theorem State.resolveAbort_offline (h : (s.stack k).drain.phase = .offline) : s.resolveAbort (.drain k) = s.abortDone 2 := by
  simp [State.resolveAbort, h]

theorem State.resolveAbort_before (h : (s.stack k).drain.phase = .check ∨ (s.stack k).drain.phase = .copy) :
    s.resolveAbort (.drain k) = ((s.gatherCut k).drainEnds k).abortDone 1 := by
  rcases h with h | h <;> simp [State.resolveAbort, State.abandonDrain, h]

/-- An abandoned drain is idle. -/
theorem State.drainEnds_phase (hst : (s.stack k).st ≠ .training) : ((s.drainEnds k).stack k).drain.phase = .idle := by
  unfold State.drainEnds
  dsimp only
  rw [State.setStack_stack_same _ _ (Stack.ne_reset_of_st ?_)]
  show (if _ then StackSt.selfRef else (s.stack k).st) ≠ _
  split
  · decide
  · exact hst

theorem State.gatherCut_st (h : (s.stack k).drain.phase ≠ .idle) : ((s.gatherCut k).stack k).st = (s.stack k).st := by
  have hne : { s.stack k with gather := (s.stack k).gather && !(s.islOf (2 + k)).held.isEmpty } ≠ ({} : Stack) :=
    Stack.ne_reset_of_phase h
  exact (congrArg Stack.st (s.setStack_stack_same k hne) :)

/-- Before its swap a drain is abandoned: it is idle, and the map, the contents and the ledger are as they were. -/
theorem State.resolveAbort_abandons (hph : (s.stack k).drain.phase = .check ∨ (s.stack k).drain.phase = .copy)
    (hst : (s.stack k).st ≠ .training) :
    ((s.resolveAbort (.drain k)).stack k).drain.phase = .idle ∧ (s.resolveAbort (.drain k)).hbm.map = s.hbm.map
      ∧ (s.resolveAbort (.drain k)).hbm.mem = s.hbm.mem ∧ (s.resolveAbort (.drain k)).led = s.led
      ∧ (s.resolveAbort (.drain k)).mbx.abortRes = 1 := by
  have hbusy : (s.stack k).drain.phase ≠ .idle := by rcases hph with h | h <;> simp [h]
  have hcut : ((s.gatherCut k).stack k).st ≠ .training := by rwa [State.gatherCut_st hbusy]
  rw [State.resolveAbort_before hph, State.abortDone_frame]
  exact ⟨State.drainEnds_phase hcut, rfl, rfl, rfl, rfl⟩

end

/-! ### A full retraining that keeps the contents (R354, R367) -/

section
variable {s : State} {k : Nat} {ws : List Nat}

/-- A pseudo-channel's record that differs from the one of reset reads back, and the others' stay. -/
theorem State.setPc_pc_of_ne (s : State) (g : Nat) {v : Pc} (hv : v ≠ {}) (j : Nat) : (s.setPc g v).pc j = if j = g then v else s.pc j := by
  split
  next h => rw [h]; exact Tbl.get_set_ne ({} : Pc) _ _ _ hv
  next h => exact Tbl.get_set_other ({} : Pc) _ _ hv h

theorem State.pcTrained_role (s : State) (g j : Nat) : ((s.pcTrained g).pc j).role = (s.pc j).role := by
  have hne : { s.pc g with ce := 0, ue := 0, ceTrain := 0, limAt := 0, trainAt := (s.stack (g / 32)).orderN + 1 } ≠ ({} : Pc) := fun e =>
    Nat.succ_ne_zero _ (congrArg Pc.trainAt e)
  have hpc := s.setPc_pc_of_ne g hne j
  refine (congrArg Pc.role hpc).trans ?_
  split
  next h => rw [h]
  · rfl

theorem State.sparePc_role (s : State) (g j : Nat) : ((s.sparePc g).pc j).role = if j = g then .spare else (s.pc j).role := by
  have hne : { s.pc g with role := .spare } ≠ ({} : Pc) := fun e => PcRole.noConfusion (congrArg Pc.role e)
  have hpc := s.setPc_pc_of_ne g hne j
  refine (congrArg Pc.role hpc).trans ?_
  split <;> rfl

/-- Pseudo-channels that become spares are spares; the others keep their roles. -/
theorem foldl_sparePc_role (l : List Nat) (s : State) (j : Nat) :
    ((l.foldl State.sparePc s).pc j).role = .spare ∨ ((l.foldl State.sparePc s).pc j).role = (s.pc j).role := by
  induction l generalizing s with
  | nil => exact .inr rfl
  | cons g l ih =>
    rcases ih (s.sparePc g) with h | h
    · exact .inl h
    · rw [List.foldl_cons, h, State.sparePc_role]
      split
      · exact .inl rfl
      · exact .inr rfl

/-- A state without what a training that retires nothing can change: the pseudo-channels, the stacks and the ledger. -/
def State.untrained (s : State) : State := { s with led := {}, hbm := { s.hbm with pcs := [], stk := [] } }

/-- No pseudo-channel of the stack is retired, and each has found a working setting among `ws`. -/
def State.AllWork (s : State) (k : Nat) (ws : List Nat) : Prop := ∀ g ∈ pcsOf k, g ∈ ws ∧ (s.pc g).role ≠ .retired

section
variable (hall : s.AllWork k ws)
include hall

/-- Nothing is retired and no position changes hands: each pseudo-channel is trained, and an offline one becomes a spare. -/
theorem State.retrained_allWork : ∃ offline : List Nat,
    s.retrained k ws = offline.foldl State.sparePc (((pcsOf k).foldl State.pcTrained s).nextOrder k) := by
  have hlive : ((pcsOf k).filter fun g => (s.pc g).role != .retired) = pcsOf k :=
    List.filter_eq_self.mpr fun g hg => by simpa using (hall g hg).2
  have hworks : ((pcsOf k).filter fun g => ws.contains g) = pcsOf k := List.filter_eq_self.mpr fun g hg => by simpa using (hall g hg).1
  have hbad : ((pcsOf k).filter fun g => !ws.contains g) = [] := List.filter_eq_nil_iff.mpr fun g hg => by simpa using (hall g hg).1
  simp only [State.retrained, hlive, hworks, hbad, List.filter_nil, List.foldl_nil]
  exact ⟨_, rfl⟩

theorem State.retrained_untrained : (s.retrained k ws).untrained = s.untrained := by
  obtain ⟨offline, h⟩ := State.retrained_allWork hall
  rw [h, foldl_keeps State.untrained (f := State.sparePc) fun _ _ => rfl]
  exact foldl_keeps State.untrained (f := State.pcTrained) (fun _ _ => rfl) (pcsOf k) s

theorem State.retrained_role (j : Nat) :
    ((s.retrained k ws).pc j).role = .spare ∨ ((s.retrained k ws).pc j).role = (s.pc j).role := by
  obtain ⟨offline, h⟩ := State.retrained_allWork hall
  have htrained : (((pcsOf k).foldl State.pcTrained s).pc j).role = (s.pc j).role :=
    foldl_keeps (fun s => (s.pc j).role) (fun s g => s.pcTrained_role g j) (pcsOf k) s
  rw [h, ← htrained]
  exact foldl_sparePc_role offline _ j

theorem State.retrained_stackSpares (hsp : s.stackSpares k ≠ []) : (s.retrained k ws).stackSpares k ≠ [] := by
  obtain ⟨g, hg⟩ := List.exists_mem_of_ne_nil _ hsp
  obtain ⟨hmem, hrole⟩ := List.mem_filter.mp hg
  refine List.ne_nil_of_mem (a := g) (List.mem_filter.mpr ⟨hmem, beq_iff_eq.mpr ?_⟩)
  exact (State.retrained_role hall g).elim id fun h => h.trans (beq_iff_eq.mp hrole)

theorem State.retrained_worksOf : (s.retrained k ws).worksOf k = 32 := by
  have hlive : ((pcsOf k).filter fun g => ((s.retrained k ws).pc g).role != .retired) = pcsOf k :=
    List.filter_eq_self.mpr fun g hg => by
      rcases State.retrained_role hall g with h | h
      · simp [h]
      · simpa [h] using (hall g hg).2
  rw [State.worksOf, hlive]
  simp [pcsOf, range2]

/-- With a spare left and nothing retired, nothing is lacking (R354, R365). -/
theorem State.retrained_afterTraining (hsp : s.stackSpares k ≠ []) : (s.retrained k ws).afterTraining k 0 = s.retrained k ws := by
  have hleft : ((s.retrained k ws).stackSpares k).isEmpty = false := by simp [State.retrained_stackSpares hall hsp]
  simp [State.afterTraining, hleft, State.retrained_worksOf hall]

end

/-! ### The resumption (R367, R368) -/

theorem State.islDone_hbm (s : State) (n : Nat) (hs : List CmdHdr) : (s.islDone n hs).hbm = s.hbm :=
  foldl_keeps State.hbm (fun s h => by rw [State.completeJob_frame]) hs _

theorem State.islDone_isl (s : State) (n : Nat) (hs : List CmdHdr) : (s.islDone n hs).isl = s.isl.set {} n { s.islOf n with result := 1 } :=
  foldl_keeps State.isl (fun s h => by rw [State.completeJob_frame]) hs _

theorem Isl.settle_held (i : Isl) : i.settle.held = i.held := by
  unfold Isl.settle
  split
  · split <;> rfl
  · rfl

/-- The change in progress was one of the rate, which was `rate`. -/
def Isl.rerates (i : Isl) (rate : Nat) : Bool :=
  match i.trans with
  | some t => t.req.isFreq || decide (rateOf i.effMhz ≠ rate)
  | none => false

/-- The change that a retraining was for, from rate `rate`, is over, and counts where it was one of the rate. -/
def State.changeEnds (s : State) (k rate : Nat) (i : Isl) : State :=
  let s := s.setIsl (2 + k) { i with trans := none }
  if i.rerates rate then s.hbmCount k 3 1 else s

/-- A stack's record as it resumes, which was `v` before. -/
def State.resumedStack (s : State) (k : Nat) (v : Stack) (i : Isl) : Stack :=
  { s.stack k with
    st := if s.glb.st = .safe then .selfRef else .service
    retrain := false, lost := false, owed := false, rate := rateOf i.effMhz
    pendRate := if i.held.isEmpty then none else v.pendRate }

/-- A stack whose record was `v` resumes after its training: its change is over, and what was held until then applies. -/
def State.resume (s : State) (k : Nat) (v : Stack) : State :=
  let i := (s.islOf (2 + k)).settle
  let s := s.changeEnds k v.rate i
  ((s.setStack k (s.resumedStack k v i)).islDone (2 + k) i.waiting).islHeldNow (2 + k) false

theorem exec_hbmResume_eq (s : State) (k : Nat) (ws : List Nat) : exec (.hbmResume k ws) s = .next (
    if !(s.stack k).retrain ∨ (s.stack k).gather ∨ s.stopped (2 + k) then s
    else
      let gone := ((pcsOf k).filter fun g => (s.pc g).role != .retired && !ws.contains g).length
      let s' := if (s.stack k).lost then (s.trainAll k ws).placeAll k else s.retrained k ws
      (s'.afterTraining k gone).resume k (s.stack k)) := rfl

theorem State.changeEnds_leaves (s : State) (k rate : Nat) (i : Isl) :
    (s.changeEnds k rate i).isl = s.isl.set {} (2 + k) { i with trans := none } ∧ (s.changeEnds k rate i).hbm.mem = s.hbm.mem
      ∧ (s.changeEnds k rate i).hbm.map = s.hbm.map ∧ (s.changeEnds k rate i).glb = s.glb := by
  unfold State.changeEnds
  split <;> exact ⟨rfl, rfl, rfl, rfl⟩

theorem State.resumedStack_st {s : State} (h : s.glb.st ≠ .safe) (k : Nat) (v : Stack) (i : Isl) : (s.resumedStack k v i).st = .service :=
  if_neg h

/-- The island of a resumption has no change in progress, and holds what it held. -/
theorem State.resumed_islOf (hw : s.isl.wf {} = true) (rate : Nat) (i : Isl) (v : Stack) (hs : List CmdHdr) :
    (((s.changeEnds k rate i).setStack k v).islDone (2 + k) hs).islOf (2 + k) = { i with trans := none, result := 1 } := by
  have hisl : ((s.changeEnds k rate i).setStack k v).isl = s.isl.set {} (2 + k) { i with trans := none } :=
    (s.changeEnds_leaves k rate i).1
  have hread : ((s.changeEnds k rate i).setStack k v).islOf (2 + k) = { i with trans := none } := by
    rw [State.islOf, hisl, Tbl.get_set hw, if_pos rfl]
  rw [State.islOf, State.islDone_isl, hisl, hread, Tbl.get_set (Tbl.set_wf hw _ _), if_pos rfl]

/-- In RUN, with nothing held, the stack serves again with its contents and its map. -/
theorem State.resume_leaves (hw : s.isl.wf {} = true) (hheld : (s.islOf (2 + k)).held = []) (hrun : s.glb.st = .run) (v : Stack) :
    ((s.resume k v).stack k).st = .service ∧ ((s.resume k v).stack k).retrain = false ∧ ((s.resume k v).islOf (2 + k)).trans = none
      ∧ (s.resume k v).hbm.mem = s.hbm.mem ∧ (s.resume k v).hbm.map = s.hbm.map := by
  have hnone : (s.islOf (2 + k)).settle.held = [] := (Isl.settle_held _).trans hheld
  obtain ⟨-, hmem, hmap, hglb⟩ := s.changeEnds_leaves k v.rate (s.islOf (2 + k)).settle
  have hst := State.resumedStack_st (s := s.changeEnds k v.rate (s.islOf (2 + k)).settle) (by simp [hglb, hrun]) k v
    (s.islOf (2 + k)).settle
  have hstack := State.setStack_stack_same (s.changeEnds k v.rate (s.islOf (2 + k)).settle) k
    (Stack.ne_reset_of_st (hst.trans_ne nofun))
  have hisl := State.resumed_islOf (k := k) hw v.rate (s.islOf (2 + k)).settle
  rw [State.resume, State.islHeldNow_none (by rw [hisl]; exact hnone), hisl, State.stack, State.islDone_hbm]
  exact ⟨(congrArg Stack.st hstack).trans hst, congrArg Stack.retrain hstack, rfl, hmem, hmap⟩

/-- A stack that kept its contents, of which every pseudo-channel works and a spare is left, resumes as it is retrained. -/
theorem exec_hbmResume_kept (hall : s.AllWork k ws) (hsp : s.stackSpares k ≠ []) (hr : (s.stack k).retrain = true)
    (hg : (s.stack k).gather = false) (hl : (s.stack k).lost = false) (hclk : s.stopped (2 + k) = false) :
    exec (.hbmResume k ws) s = .next ((s.retrained k ws).resume k (s.stack k)) := by
  have hgone : ((pcsOf k).filter fun g => (s.pc g).role != .retired && !ws.contains g) = [] :=
    List.filter_eq_nil_iff.mpr fun g hg => by simp [(hall g hg).1]
  rw [exec_hbmResume_eq, if_neg (by simp [hr, hg, hclk])]
  simp only [hl, hgone, Bool.false_eq_true, if_false, List.length_nil, State.retrained_afterTraining hall hsp]

/-- While a gather runs or the clock is stopped nothing resumes (R368). -/
theorem exec_hbmResume_waits (h : (s.stack k).gather = true ∨ s.stopped (2 + k) = true) : exec (.hbmResume k ws) s = .next s := by
  rw [exec_hbmResume_eq, if_pos (.inr h)]

theorem mem_pcsOf {g : Nat} : g ∈ pcsOf k ↔ 32 * k ≤ g ∧ g < 32 * k + 32 := by
  simp only [pcsOf, range2, List.mem_map, List.mem_range]
  exact ⟨fun ⟨j, hj, h⟩ => by omega, fun h => ⟨g - 32 * k, by omega, by omega⟩⟩

end

/-- Settles O32: a drain step by step, its abort by its phase, and the resumption by `exec_hbmResume_kept` and `State.resume_leaves`. -/
theorem drainsAndResumption : Obligations.DrainsAndResumption := by
  unfold Obligations.DrainsAndResumption
  refine ⟨?drains, fun s k ws _ hr hw => ⟨fun hg hl hclk hrun hheld hpcs hsp => ?resumes, exec_hbmResume_waits⟩⟩
  case drains =>
    intro s k x t xs _ v
    refine ⟨exec_drainStart_begins, exec_drainStart_exhausted, exec_trainingGatherEnd_unheld, exec_trainingDone_leaves,
      exec_drainSwap_leaves, fun hmb hp h1 => ?aborts, fun hmb => ?unreached, fun hmb hp => ?busy⟩
    case aborts =>
      rw [exec_abortDrain_resolved hmb hp h1]
      exact ⟨fun h => congrArg _ (State.resolveAbort_idle h), fun h hst => ⟨_, rfl, State.resolveAbort_abandons h hst⟩,
        fun h => congrArg _ (State.resolveAbort_offline h)⟩
    case unreached => simp [exec, execAbortDrain, hmb]
    case busy => simp [exec_abortDrain_reached hmb, State.requestAbort, hp]
  case resumes =>
    have hall : s.AllWork k ws := fun g hg => hpcs g (mem_pcsOf.mp hg).1 (mem_pcsOf.mp hg).2
    have hkept := State.retrained_untrained hall
    have hisl : (s.retrained k ws).isl = s.isl := (congrArg State.isl hkept :)
    have hglb : (s.retrained k ws).glb = s.glb := (congrArg State.glb hkept :)
    have hmem : (s.retrained k ws).hbm.mem = s.hbm.mem := (congrArg (fun t => t.hbm.mem) hkept :)
    have hmap : (s.retrained k ws).hbm.map = s.hbm.map := (congrArg (fun t => t.hbm.map) hkept :)
    refine ⟨_, exec_hbmResume_kept hall hsp hr hg hl hclk, ?_⟩
    rw [← hmem, ← hmap]
    exact State.resume_leaves (by rwa [hisl]) (by rwa [State.islOf, hisl]) (by rwa [hglb]) _

end Sys2Proof.Machine
end

section
/-!
SUPPORT. Tables: writes of one key, runs of writes, and the entries of the canonical form.
-/

namespace Sys2Proof.Machine

/-! ### Writes of one key -/

theorem Tbl.set_below {α : Type} [DecidableEq α] (d : α) {t : Tbl α} {k : Nat} (w : Tbl.wfFrom d (k + 1) t = true) (v : α) :
    t.set d k v = Tbl.cons d k v t := by
  cases t with
  | nil => rfl
  | cons e t =>
    simp only [Tbl.wfFrom, Bool.and_eq_true, decide_eq_true_eq] at w
    rw [Tbl.set, if_neg (by omega), if_pos (by omega)]

/-- The later of two writes of a key stands. -/
theorem Tbl.set_set {α : Type} [DecidableEq α] {d : α} {lo : Nat} {t : Tbl α} (w : Tbl.wfFrom d lo t = true) (k : Nat) (u v : α) :
    (t.set d k u).set d k v = t.set d k v := by
  have hcons {t : Tbl α} (w : Tbl.wfFrom d (k + 1) t = true) : (Tbl.cons d k u t).set d k v = Tbl.cons d k v t := by
    by_cases hu : u = d
    · rw [Tbl.cons, if_pos hu, Tbl.set_below d w]
    · rw [Tbl.cons, if_neg hu, Tbl.set, if_pos rfl]
  induction t generalizing lo with
  | nil => exact hcons rfl
  | cons e t ih =>
    obtain ⟨k', v'⟩ := e
    have hw := w
    simp only [Tbl.wfFrom, Bool.and_eq_true, decide_eq_true_eq] at hw
    simp only [Tbl.set]
    split
    next h => exact hcons (h ▸ hw.2)
    next h =>
      split
      next hlt => exact hcons (by simp [Tbl.wfFrom, hw.1.2, hw.2, Nat.succ_le_of_lt hlt])
      next hge => rw [Tbl.set, if_neg h, if_neg hge, ih hw.2]

/-- Of a run of writes, each at its own key, a bit that one raises stays. -/
theorem Tbl.foldl_set_get {f : Nat → Bool} {j : Nat} (hf : f j = true) (l : List Nat) (t : Tbl Bool)
    (h : t.get false j = true ∨ j ∈ l) : (l.foldl (fun t i => t.set false i (f i)) t).get false j = true := by
  induction l generalizing t with
  | nil => simpa using h
  | cons i l ih =>
    refine ih _ ?_
    by_cases hij : j = i
    · subst hij
      exact .inl ((Tbl.get_set_ne false t j (f j) (by simp [hf])).trans hf)
    · refine h.imp (fun ht => ?_) fun hl => (List.mem_cons.mp hl).resolve_left hij
      rw [Tbl.get_set_listed (f i) (by simp [ht]) hij, ht]

/-! ### The entries of a table -/

/-- In a table in canonical form the entry of a key holds what the key reads. -/
theorem Tbl.mem_iff_get {α : Type} [DecidableEq α] {d : α} {lo : Nat} {t : Tbl α} (w : Tbl.wfFrom d lo t = true) {k : Nat} {v : α} :
    (k, v) ∈ t ↔ t.get d k = v ∧ v ≠ d := by
  induction t generalizing lo with
  | nil => simp only [List.not_mem_nil, Tbl.get, false_iff]; exact fun ⟨h, hne⟩ => hne h.symm
  | cons e t ih =>
    obtain ⟨k', v'⟩ := e
    simp only [Tbl.wfFrom, Bool.and_eq_true, decide_eq_true_eq] at w
    obtain ⟨⟨-, hv'⟩, hw⟩ := w
    have hbelow (h : k ≤ k') : Tbl.get d t k = d := Tbl.get_below d hw (by omega)
    rw [List.mem_cons, Prod.mk.injEq, ih hw, Tbl.get]
    split
    next h =>
      rw [hbelow h.le]
      constructor
      · rintro (⟨-, e⟩ | ⟨e, hne⟩)
        · exact ⟨e.symm, fun h => hv' (e.symm.trans h)⟩
        · exact absurd e.symm hne
      · exact fun ⟨e, _⟩ => .inl ⟨h, e.symm⟩
    next h =>
      simp only [h, false_and, false_or]
      split
      next hlt => rw [hbelow hlt.le]
      next => exact Iff.rfl

theorem Tbl.keys_sorted {α : Type} [DecidableEq α] {d : α} {lo : Nat} {t : Tbl α} (w : Tbl.wfFrom d lo t = true) :
    (t.map Prod.fst).Pairwise (· < ·) ∧ ∀ k ∈ t.map Prod.fst, lo ≤ k := by
  induction t generalizing lo with
  | nil => simp
  | cons e t ih =>
    obtain ⟨k', v'⟩ := e
    simp only [Tbl.wfFrom, Bool.and_eq_true, decide_eq_true_eq] at w
    obtain ⟨hs, hlo⟩ := ih w.2
    simp only [List.map_cons, List.pairwise_cons, List.mem_cons, forall_eq_or_imp]
    exact ⟨⟨hlo, hs⟩, w.1.1, fun k hk => w.1.1.trans (Nat.le_of_succ_le (hlo k hk))⟩

end Sys2Proof.Machine
end

section
/-!
SUPPORT. A cycle of the scratchpads (R381, R382, R385, R386): who is served, and what the cycle leaves.
-/

namespace Sys2Proof.Machine

/-! ### Who is served (R381, R382) -/

theorem bankOf_of_spadOf {a p : Nat} (h : spadOf a = some p) : bankOf a = some (p, a / 8 % (if 32 ≤ p ∧ p < 40 then 16 else 8)) := by
  simp [bankOf, h]

/-- Two words of one bank lie in one scratchpad. -/
theorem spadOf_of_bankOf_eq {a b p : Nat} (ha : spadOf a = some p) (hab : bankOf a = bankOf b) : spadOf b = some p := by
  rw [bankOf_of_spadOf ha] at hab
  cases hb : spadOf b with
  | none => simp [bankOf, hb] at hab
  | some q =>
    rw [bankOf_of_spadOf hb] at hab
    rw [(Prod.mk.inj (Option.some.inj hab)).1]

/-- The accesses that a cycle serves of those that it is presented. -/
def spadWon (accs : List SpadAcc) : List SpadAcc := spadServed [] [] ((spadHeads [] accs).foldr insRank [])

/-- An access alone has its bank. -/
theorem spadWon_single {a : SpadAcc} {p : Nat} (h : spadOf a.addr = some p) : spadWon [a] = [a] := by
  simp [spadWon, spadHeads, insRank, spadServed, bankOf_of_spadOf h]

/-- Of two accesses to different words of one bank the one of higher priority is served. -/
theorem spadWon_conflict {a b : SpadAcc} {p : Nat} (h : spadOf a.addr = some p) (hbank : bankOf a.addr = bankOf b.addr)
    (haddr : a.addr ≠ b.addr) (hrank : a.rank < b.rank) : spadWon [b, a] = [a] := by
  have hbb := hbank.symm.trans (bankOf_of_spadOf h)
  have hheads : spadHeads [] [b, a] = [b, a] := by simp [spadHeads, hrank.ne]
  have horder : [b, a].foldr insRank [] = [a, b] := by simp [insRank, hrank]
  rw [spadWon, hheads, horder]
  simp [spadServed, bankOf_of_spadOf h, hbb, haddr]

/-! ### What a cycle leaves (R382, R385, R386) -/

/-- State of the island of the scratchpad that an access names. -/
def State.spadSt (s : State) (a : SpadAcc) : IslSt := ((spadOf a.addr).map fun p => (s.islOf (spadIsland p)).st).getD .off

/-- A cycle that serves `won` while `rest` stall, towards islands whose clocks run. -/
def State.spadCycle (s : State) (e : SpadEcc) (won rest : List SpadAcc) : State :=
  let reads := won.filter fun a => a.op == 0
  let bad := reads.filter fun a => wordEcc reads e a.addr == .double
  let data := (reads.filter fun a => wordEcc reads e a.addr != .double).map fun a => (a, s.spadWord a.addr)
  let t := (won.filter fun a => a.op != 0).foldl (fun s a => s.chipWrite a.addr (s.spadStore a)) s
  (({ t with chip := { t.chip with reads := data, errs := bad, stalled := rest } } : State).spadAnswer bad).spadSources reads e

section
variable {s : State} {a b : SpadAcc} {p : Nat}

theorem exec_scratchpadAccess_runs {accs : List SpadAcc} (e : SpadEcc) (hst : s.glb.st ≠ .reset) (hno : s.chip.stalled = [])
    (hrun : ∀ a ∈ accs, ∃ p, spadOf a.addr = some p ∧ s.stopped (spadIsland p) = false) :
    exec (.scratchpadAccess accs e) s = .next (s.spadCycle e (spadWon accs) (dropAccs (spadWon accs) accs)) := by
  have hisl (a : SpadAcc) (ha : a ∈ accs) : s.spadSt a ≠ .hold ∧ s.spadSt a ≠ .off := by
    obtain ⟨p, hp, hclk⟩ := hrun a ha
    simpa [State.spadSt, hp] using State.stopped_eq_false_iff.mp hclk
  have hall : accs.filter (fun a => (spadOf a.addr).isSome) = accs := List.filter_eq_self.mpr fun a ha => by
    obtain ⟨p, hp, -⟩ := hrun a ha
    simp [hp]
  have hoff : accs.filter (fun a => s.spadSt a == .off) = [] := List.filter_eq_nil_iff.mpr fun a ha => by simpa using (hisl a ha).2
  have hable : accs.filter (fun a => s.spadSt a != .off && s.spadSt a != .hold) = accs :=
    List.filter_eq_self.mpr fun a ha => by simp [hisl a ha]
  simp only [State.spadSt] at hoff hable
  simp only [exec, execScratchpadAccess, State.awake_of_ne hst, hno, List.nil_append, hall, hoff, hable]
  rw [List.append_nil]
  rfl

/-- A read of a sound word answers it (R386). -/
theorem State.spadCycle_read (s : State) (h : a.op = 0) (rest : List SpadAcc) : s.spadCycle .clean [a] rest
    = { s with chip := { s.chip with reads := [(a, s.spadWord a.addr)], stalled := rest, errs := [] } } := by
  simp [State.spadCycle, h, wordEcc, State.spadAnswer, State.spadSources]

/-- A read that finds a single-bit error answers the corrected word, and raises SPAD_CE (R386). -/
theorem State.spadCycle_corrected (s : State) (h : a.op = 0) (hp : spadOf a.addr = some p) (rest : List SpadAcc) :
    s.spadCycle .single [a] rest = ({ s with chip := { s.chip with
      reads := [(a, s.spadWord a.addr)], stalled := rest, errs := [] } } : State).raise (spadCe p) := by
  simp [State.spadCycle, h, wordEcc, State.spadAnswer, State.spadSources, hp]

/-- A write or an alias operation leaves its word, and answers nothing (R385). -/
theorem State.spadCycle_write (s : State) (h : 1 ≤ a.op) (rest : List SpadAcc) : s.spadCycle .clean [a] rest
    = { s with chip := { s.chip with mem := s.chip.mem.setList 0 a.addr (s.spadStore a), reads := [], stalled := rest, errs := [] } } := by
  have hop : a.op ≠ 0 := by omega
  simp [State.spadCycle, hop, State.spadAnswer, State.spadSources, State.chipWrite]

/-- The bytes that an operation leaves in its word, operation by operation (R385). -/
theorem State.spadStore_eq (s : State) (h : 1 ≤ a.op) : s.spadStore a = (leBytes 8 a.data.toNat).mapIdx fun i x =>
    let old := s.ramByte (a.addr + i)
    if bitOf a.be i then (if a.op = 2 then old ||| x else if a.op = 3 then old &&& ~~~x else x) else old := by
  have halias (old x : Byte) : aliasByte (a.op - 1) old x = if a.op = 2 then old ||| x else if a.op = 3 then old &&& ~~~x else x := by
    by_cases h2 : a.op = 2
    · simp [h2, aliasByte]
    · by_cases h3 : a.op = 3
      · simp [h3, aliasByte]
      · rw [if_neg h2, if_neg h3]
        unfold aliasByte
        split
        · omega
        · omega
        · rfl
  simp only [State.spadStore, halias]

end

/-- Settles O35: `exec_scratchpadAccess_runs` says that the cycle serves the accesses of `spadWon`, `State.spadCycle` what it leaves. -/
theorem scratchpadAccesses : Obligations.ScratchpadAccesses := by
  unfold Obligations.ScratchpadAccesses
  intro s a b p hst hno hp hclk word
  have halone (e : SpadEcc) : exec (.scratchpadAccess [a] e) s = .next (s.spadCycle e [a] []) := by
    rw [exec_scratchpadAccess_runs e hst hno (by simpa using ⟨p, hp, hclk⟩), spadWon_single hp]
    simp [dropAccs]
  refine ⟨fun hop => ?read, fun hop => ⟨_, halone .single, fun hc => ?corrected⟩, fun hop => ⟨_, halone .clean, ?write⟩,
    fun hbank haddr hrank hop _ => ?conflict⟩
  case read =>
    rw [halone, State.spadCycle_read s hop]
    rfl
  case corrected =>
    rw [State.spadCycle_corrected s hop hp]
    exact State.raiseIn_sets _ none false false _ hc
  case write =>
    rw [State.spadCycle_write s hop, State.spadStore_eq s hop]
    exact ⟨rfl, rfl, rfl, rfl⟩
  case conflict =>
    have hpb := spadOf_of_bankOf_eq hp hbank
    have hne : b ≠ a := fun h => hrank.ne (congrArg SpadAcc.rank h).symm
    rw [exec_scratchpadAccess_runs .clean hst hno (by simpa [hp, hpb] using hclk), spadWon_conflict hp hbank haddr hrank,
      State.spadCycle_read s hop]
    have hrest : dropAccs [a] [b, a] = [b] := by simp [dropAccs, hne]
    rw [hrest]
    rfl

end Sys2Proof.Machine
end

section
/-!
SUPPORT. A DMA channel at work (R395 to R400, R405): how far it moves, what a move leaves alone, and its completion pulse.
-/

namespace Sys2Proof.Machine

section
variable {s : State} {n k : Nat}

/-! ### A channel with nothing in its way (R389, R395, R398) -/

theorem State.dma_run_of_runs (h : s.dmaRuns n = true) : (s.dma n).st = .run := by
  simp only [State.dmaRuns, Bool.and_eq_true, beq_iff_eq] at h
  exact h.1

theorem State.dmaCap_le (s : State) (n k : Nat) : s.dmaCap n k ≤ k := by
  unfold State.dmaCap
  dsimp only
  split
  · exact Nat.min_le_left ..
  · exact le_rfl

theorem State.dmaCap_of_canEnd (h : s.dmaCanEnd n = true) : s.dmaCap n (s.dma n).len = (s.dma n).len :=
  le_antisymm (s.dmaCap_le n _) (of_decide_eq_true h)

/-- A FIFO's words are at most 64 bytes wide. -/
theorem fifoKind_width_le {f w cap : Nat} {large : Bool} (h : fifoKind f = some (large, w, cap)) : w ≤ 64 := by
  unfold fifoKind at h
  split_ifs at h <;> cases h <;> decide

theorem DmaCh.sw_le_of_fifoLevel {c : DmaCh} (h : c.trig = 1) : c.sw ≤ 64 := by
  rw [DmaCh.sw, if_pos h]
  split
  next hk => exact fifoKind_width_le hk
  next => decide

/-- Words above the low watermark are no more than a channel can pop (R389, R395). -/
theorem State.dmaCap_of_words {w : Nat} (htrig : (s.dma n).trig = 1)
    (hw : w ≤ s.fifoFill (s.dma n).fifo - s.fifoLow (s.dma n).fifo) :
    s.dmaCap n ((s.dma n).done + w * (s.dma n).sw) = (s.dma n).done + w * (s.dma n).sw := by
  have hpop : w * (s.dma n).sw ≤ 64 * (s.fifoFill (s.dma n).fifo - s.fifoLow (s.dma n).fifo) := by
    rw [Nat.mul_comm]
    exact Nat.mul_le_mul (DmaCh.sw_le_of_fifoLevel htrig) hw
  rw [State.dmaCap, if_pos htrig]
  exact Nat.min_eq_left (by omega)

theorem State.dmaAdvance_unstopped (hreach : s.dmaReach n = none) (k : Nat) : s.dmaAdvance n k = s.dmaMove n (s.dmaCap n k) := by
  simp only [State.dmaAdvance, hreach]

/-- A channel moves forward only. -/
theorem State.dmaMove_done (h : k ≤ (s.dma n).done) : s.dmaMove n k = s := by
  have hk : min k (s.dma n).len / (s.dma n).dw * (s.dma n).dw ≤ (s.dma n).done :=
    (Nat.div_mul_le_self ..).trans ((Nat.min_le_left ..).trans h)
  simp only [State.dmaMove, if_pos hk]

theorem State.dmaAdvance_done (hreach : s.dmaReach n = none) (h : k ≤ (s.dma n).done) : s.dmaAdvance n k = s := by
  rw [State.dmaAdvance_unstopped hreach, State.dmaMove_done ((s.dmaCap_le n k).trans h)]

/-! ### What a move leaves alone -/

/-- A state without what the bytes of a transfer touch: FIFOs and frames, the memories, and the channels themselves. -/
def State.besideDma (s : State) : State :=
  { s with ing := {}, egr := {}, hbm := {}, chip := { pulse := s.chip.pulse, heldPulses := s.chip.heldPulses } }

/-- What two states share that differ in no more. -/
theorem State.besideDma_shares {s t : State} (h : t.besideDma = s.besideDma) :
    t.chip.pulse = s.chip.pulse ∧ t.chip.heldPulses = s.chip.heldPulses ∧ t.irq = s.irq ∧ t.flt = s.flt ∧ t.led = s.led
      ∧ t.mbx = s.mbx ∧ t.bar2 = s.bar2 ∧ t.host = s.host ∧ t.fab = s.fab :=
  ⟨(congrArg (fun t => t.chip.pulse) h :), (congrArg (fun t => t.chip.heldPulses) h :), (congrArg State.irq h :),
    (congrArg State.flt h :), (congrArg State.led h :), (congrArg State.mbx h :), (congrArg State.bar2 h :),
    (congrArg State.host h :), (congrArg State.fab h :)⟩

theorem State.ramWrite_besideDma (s : State) (al a : Nat) (bs : List Byte) : (s.ramWrite al a bs).besideDma = s.besideDma := by
  unfold State.ramWrite
  split
  · rfl
  · split <;> rfl

theorem State.fifoEval_besideDma (s : State) (f : Nat) : (s.fifoEval f).besideDma = s.besideDma := by
  unfold State.fifoEval
  dsimp only
  split
  · split
    · rw [State.sendPfc_frame]
      rfl
    · rfl
  · rfl

theorem State.popIng_besideDma (s : State) (f n : Nat) (bs : List Byte) : (s.popIng f n bs).2.besideDma = s.besideDma := by
  have hlast : (s.lastPop f bs).besideDma = s.besideDma := by
    unfold State.lastPop
    split <;> rfl
  unfold State.popIng
  dsimp only
  split
  · exact hlast
  · exact hlast

theorem State.popWords_besideDma (s : State) (f n : Nat) : (s.popWords f n).2.besideDma = s.besideDma := by
  unfold State.popWords
  split
  · exact State.popIng_besideDma _ _ _ _
  split
  · exact State.popIng_besideDma _ _ _ _
  split
  · exact State.popIng_besideDma _ _ _ _
  · rfl

/-- A move concerns the data that it carries and its own channel. -/
theorem State.dmaMove_besideDma (s : State) (n k : Nat) : (s.dmaMove n k).besideDma = s.besideDma := by
  have hset (t : State) (v : DmaCh) : (t.setDma n v).besideDma = t.besideDma := rfl
  unfold State.dmaMove
  dsimp only
  split
  · rfl
  · split
    · rw [hset, State.ramWrite_besideDma, State.fifoEval_besideDma, State.popWords_besideDma]
    · rw [hset, State.ramWrite_besideDma]

/-! ### The end of a transfer (R399, R466) -/

theorem DmaCh.ne_default_of_st {v : DmaCh} (h : v.st ≠ .idle) : v ≠ {} := fun e => h (congrArg DmaCh.st e)

theorem State.setDma_dma_same (s : State) (n : Nat) {v : DmaCh} (h : v.st ≠ .idle) : (s.setDma n v).dma n = v :=
  Tbl.get_set_ne _ _ _ _ (DmaCh.ne_default_of_st h)

/-- The last byte of a transfer is written in whole beats. -/
theorem DmaCh.beats_len {c : DmaCh} (h : c.len % c.dw = 0) : min c.len c.len / c.dw * c.dw = c.len := by
  rw [Nat.min_self, Nat.div_mul_cancel (Nat.dvd_of_mod_eq_zero h)]

theorem DmaCh.withDone_self {c : DmaCh} (h : c.done = c.len) : { c with done := c.len } = c := by
  cases c
  cases h
  rfl

/-- A running channel that moves all its bytes has them done. -/
theorem State.dmaMove_dma (hrun : (s.dma n).st = .run) (hdone : (s.dma n).done ≤ (s.dma n).len)
    (hbeats : (s.dma n).len % (s.dma n).dw = 0) :
    ∃ h, (s.dmaMove n (s.dma n).len).dma n = { s.dma n with done := (s.dma n).len, hold := h } := by
  have hset (t : State) (h : List Byte) : (t.setDma n { s.dma n with done := (s.dma n).len, hold := h }).dma n
      = { s.dma n with done := (s.dma n).len, hold := h } := State.setDma_dma_same t n (by simp [hrun])
  simp only [State.dmaMove, DmaCh.beats_len hbeats]
  split
  next hle => exact ⟨(s.dma n).hold, (DmaCh.withDone_self (le_antisymm hdone hle)).symm⟩
  next =>
    split
    · exact ⟨_, hset _ _⟩
    · exact ⟨(s.dma n).hold, hset _ _⟩

/-- A pulse is sent, waits where its island is in HOLD, and is discarded where it is OFF (R399, R466). -/
theorem State.sendPulse_eq (s : State) (e : Nat) : s.sendPulse e = { s with chip := { s.chip with
    pulse := if e = 0 ∨ s.stopped (eventIsland e) = true then s.chip.pulse else some e
    heldPulses := if e ≠ 0 ∧ (s.islOf (eventIsland e)).st = .hold then s.chip.heldPulses ++ [e] else s.chip.heldPulses } } := by
  unfold State.sendPulse State.stopped
  by_cases he : e = 0
  · simp [he]
  · cases (s.islOf (eventIsland e)).st <;> simp [he]

/-- A pulse looks at no data that a move carries. -/
theorem State.sendPulse_besideDma (s : State) (e : Nat) : (s.sendPulse e).besideDma = s.besideDma.sendPulse e := by
  rw [State.sendPulse_eq, State.sendPulse_eq]
  rfl

theorem State.sendPulse_dma (s : State) (e n : Nat) : (s.sendPulse e).dma n = s.dma n := by
  rw [State.sendPulse_eq]
  rfl

theorem State.dmaFinish_ends (hrun : (s.dma n).st = .run) (hdone : (s.dma n).done = (s.dma n).len) :
    s.dmaFinish n = (s.setDma n { s.dma n with st := .done }).sendPulse (s.dma n).event := by
  simp [State.dmaFinish, hrun, hdone]

/-- A transfer that has moved all its bytes is DONE. -/
theorem State.dmaFinish_dma (hrun : (s.dma n).st = .run) (hdone : (s.dma n).done = (s.dma n).len) :
    (s.dmaFinish n).dma n = { s.dma n with st := .done } := by
  rw [State.dmaFinish_ends hrun hdone, State.sendPulse_dma]
  exact State.setDma_dma_same s n nofun

/-- The end of a transfer touches no memory. -/
theorem State.dmaFinish_memories (s : State) (n : Nat) :
    (s.dmaFinish n).chip.mem = s.chip.mem ∧ (s.dmaFinish n).hbm = s.hbm := by
  unfold State.dmaFinish
  dsimp only
  split
  · rw [State.sendPulse_eq]
    exact ⟨rfl, rfl⟩
  · exact ⟨rfl, rfl⟩

theorem State.dmaFinish_besideDma (hrun : (s.dma n).st = .run) (hdone : (s.dma n).done = (s.dma n).len) :
    (s.dmaFinish n).besideDma = s.besideDma.sendPulse (s.dma n).event := by
  rw [State.dmaFinish_ends hrun hdone, State.sendPulse_besideDma]
  rfl

theorem exec_dmaComplete_ends (hruns : s.dmaRuns n = true) (hreach : s.dmaReach n = none) (hend : s.dmaCanEnd n = true) :
    exec (.dmaComplete n) s = .next ((s.dmaMove n (s.dma n).len).dmaFinish n) := by
  simp [exec, execDmaComplete, hruns, hend, State.dmaAdvance_unstopped hreach, State.dmaCap_of_canEnd hend]

/-! ### IMMEDIATE transfers (R395, R397) -/

theorem State.dmaCanEnd_immediate (h : (s.dma n).trig = 0) : s.dmaCanEnd n = true := by
  simp [State.dmaCanEnd, State.dmaCap, h]

/-- An IMMEDIATE transfer that is moved whole copies what its source held. -/
theorem State.dmaMove_immediate (htrig : (s.dma n).trig = 0) (hstart : (s.dma n).done = 0) (hlen : (s.dma n).len ≠ 0)
    (hbeats : (s.dma n).len % (s.dma n).dw = 0) : s.dmaMove n (s.dma n).len
      = (s.ramWrite (aliasOf (s.dma n).dst) (plainOf (s.dma n).dst) (s.ramRead (plainOf (s.dma n).src) (s.dma n).len)).setDma n
        { s.dma n with done := (s.dma n).len } := by
  have hahead : ¬ (s.dma n).len ≤ (s.dma n).done := by omega
  have hwhole : (if (s.dma n).descends then (s.dma n).len - (s.dma n).len else (s.dma n).done) = 0 := by simp [hstart]
  have htrig' : ¬ (s.dma n).trig = 1 := by omega
  simp only [State.dmaMove, DmaCh.beats_len hbeats, if_neg hahead, if_neg htrig', hwhole]
  simp only [hstart, Nat.sub_zero, Nat.add_zero]

/-- A plain write of scratchpad bytes. -/
theorem State.ramWrite_spad (s : State) {a : Nat} {bs : List Byte} (hlo : spadBase ≤ a) (hhi : a + bs.length ≤ spadTop) :
    s.ramWrite 0 a bs = s.chipWrite a bs := by
  have hbase : granTop ≤ spadBase := by decide
  have hplain : (bs.mapIdx fun i b => aliasByte 0 (s.chip.mem.get 0 (a + i)) b) = bs := List.ext_getElem (by simp) (by simp [aliasByte])
  rw [State.ramWrite, if_neg (by omega), if_pos ⟨hlo, hhi⟩, hplain]

@[simp] theorem State.ramRead_length (s : State) (a n : Nat) : (s.ramRead a n).length = n := by simp [State.ramRead]

/-- What a transfer that runs to its end leaves (R399, R466): its channel is DONE, its pulse is sent, and nothing else is told. -/
theorem State.dmaEnds_leaves (hruns : s.dmaRuns n = true) (hdone : (s.dma n).done ≤ (s.dma n).len)
    (hbeats : (s.dma n).len % (s.dma n).dw = 0) :
    (∃ h, ((s.dmaMove n (s.dma n).len).dmaFinish n).dma n = { s.dma n with done := (s.dma n).len, hold := h, st := .done })
      ∧ ((s.dmaMove n (s.dma n).len).dmaFinish n).besideDma = (s.sendPulse (s.dma n).event).besideDma := by
  have hrun := State.dma_run_of_runs hruns
  obtain ⟨h, hdma⟩ := State.dmaMove_dma hrun hdone hbeats
  have hrun' : ((s.dmaMove n (s.dma n).len).dma n).st = .run := by rw [hdma, hrun]
  have hdone' : ((s.dmaMove n (s.dma n).len).dma n).done = ((s.dmaMove n (s.dma n).len).dma n).len := by rw [hdma]
  refine ⟨⟨h, by rw [State.dmaFinish_dma hrun' hdone', hdma]⟩, ?_⟩
  rw [State.dmaFinish_besideDma hrun' hdone', hdma, State.dmaMove_besideDma, State.sendPulse_besideDma]

end

/-- Settles O37: `State.dmaEnds_leaves` says what the end of a transfer leaves, `State.sendPulse_eq` what its pulse does. -/
theorem dmaCompletes : Obligations.DmaCompletes := by
  unfold Obligations.DmaCompletes
  refine ⟨fun s n hruns hreach hend hdone hbeats => ?pulse, ?immediate⟩
  case pulse =>
    obtain ⟨⟨h, hdma⟩, hbeside⟩ := State.dmaEnds_leaves hruns hdone hbeats
    obtain ⟨hpulse, hheld, hirq, hflt, hled, hmbx, hbar2, hhost, -⟩ := State.besideDma_shares hbeside
    rw [State.sendPulse_eq] at hpulse hheld hirq hflt hled hmbx hbar2 hhost
    exact ⟨_, exec_dmaComplete_ends hruns hreach hend, congrArg DmaCh.st hdma, hpulse, hheld, hirq, hflt, hled, hmbx, hbar2, hhost⟩
  case immediate =>
    intro s n hruns hreach htrig hstart c hsrc hdst htop halias hlen hbeats hclk
    have hcopy : s.ramWrite (aliasOf c.dst) (plainOf c.dst) (s.ramRead (plainOf c.src) c.len)
        = s.chipWrite (plainOf c.dst) (s.ramRead (plainOf c.src) c.len) := by
      rw [halias]
      exact s.ramWrite_spad hdst (by rwa [State.ramRead_length])
    have hmove : s.dmaMove n c.len
        = (s.chipWrite (plainOf c.dst) (s.ramRead (plainOf c.src) c.len)).setDma n { c with done := c.len } :=
      (State.dmaMove_immediate htrig hstart hlen hbeats).trans (congrArg (·.setDma n { c with done := c.len }) hcopy)
    obtain ⟨⟨h, hdma⟩, hbeside⟩ := State.dmaEnds_leaves hruns (by omega) hbeats
    obtain ⟨hpulse, -, -, hflt, -, -, -, -, hfab⟩ := State.besideDma_shares hbeside
    obtain ⟨hmem, hhbm⟩ := State.dmaFinish_memories (s.dmaMove n c.len) n
    rw [State.sendPulse_eq] at hpulse hflt hfab
    refine ⟨_, exec_dmaComplete_ends hruns hreach (State.dmaCanEnd_immediate htrig), ?_, congrArg DmaCh.st hdma,
      congrArg DmaCh.done hdma, hpulse.trans (by simp [c, hclk]), ?_, hflt, hfab⟩
    · rw [hmem, hmove]
      rfl
    · rw [hhbm, hmove]
      rfl

end Sys2Proof.Machine
end

section
/-!
SUPPORT. How a DMA transfer starts, waits, fails and is aborted (R395 to R398, R400, R402, R405).
-/

namespace Sys2Proof.Machine

section
variable {s : State} {n : Nat}

/-! ### The start of a transfer (R395, R396) -/

/-- A channel as START leaves it, but for its state. -/
def DmaCh.ready (c : DmaCh) : DmaCh := { c with abortRes := 0, done := 0, used := 0, usedAt := 0, hold := [] }

section
variable {c : DmaCh}

/-- A transfer begins, waits for its FIFO, or is refused for its settings. -/
theorem DmaCh.begin_eq (c : DmaCh) (asserted : Bool) : c.begin asserted =
    if c.cfgOk = false then { c.ready with st := .cfgErr }
    else if c.trig = 1 ∧ asserted = false then { c.ready with st := .waitHigh } else { c.ready with st := .run } := by
  simp only [DmaCh.begin, Bool.not_eq_true']
  rfl

theorem DmaCh.begin_immediate (hcfg : c.cfgOk = true) (htrig : c.trig = 0) (asserted : Bool) :
    c.begin asserted = { c.ready with st := .run } := by
  rw [DmaCh.begin_eq, if_neg (by simp [hcfg]), if_neg (by omega)]

theorem DmaCh.begin_fifoLevel (hcfg : c.cfgOk = true) (htrig : c.trig = 1) (asserted : Bool) :
    c.begin asserted = { c.ready with st := if asserted then .run else .waitHigh } := by
  rw [DmaCh.begin_eq, if_neg (by simp [hcfg])]
  cases asserted <;> simp [htrig]

theorem DmaCh.begin_refused (hcfg : c.cfgOk = false) (asserted : Bool) : c.begin asserted = { c.ready with st := .cfgErr } := by
  rw [DmaCh.begin_eq, if_pos hcfg]

end

theorem exec_dmaStart_active (h : (s.dma n).st.active = true) : exec (.dmaStart n) s = .next s := by
  simp [exec, execDmaStart, State.dmaBegin, h]

section
variable (hst : s.glb.st ≠ .reset)
include hst

theorem exec_dmaStart_idle {v : DmaCh} (h : (s.dma n).st.active = false)
    (hv : (s.dma n).begin (s.fifoAsserted (s.dma n).fifo) = v) : exec (.dmaStart n) s = .next (s.setDma n v) := by
  simp [exec, execDmaStart, State.awake_of_ne hst, State.dmaBegin, h, hv]

/-! ### Aborts (R400, R402) -/

/-- A running transfer of which no beat more is written stops where it stands. -/
theorem exec_dmaAbort_running (hruns : s.dmaRuns n = true) (hreach : s.dmaReach n = none) (hlen : (s.dma n).done < (s.dma n).len) :
    exec (.dmaAbort n 0) s = .next (s.setDma n { s.dma n with st := .aborted, abortRes := 1, hold := [] }) := by
  have hact : (s.dma n).st.active = true := by rw [State.dma_run_of_runs hruns]; rfl
  have hpos : 0 < (s.dma n).len := by omega
  simp [exec, execDmaAbort, State.awake_of_ne hst, hact, hruns, hpos, State.dmaAdvance_done hreach (Nat.zero_le _)]

theorem exec_dmaAbort_inactive (h : (s.dma n).st.active = false) (k : Nat) :
    exec (.dmaAbort n k) s = .next (s.setDma n { s.dma n with abortRes := 2 }) := by
  simp [exec, execDmaAbort, State.awake_of_ne hst, h]

end

/-! ### Under way (R395, R398) -/

theorem exec_dmaFifoLevelStart_goes (htrig : (s.dma n).trig = 1) (hst : (s.dma n).st = .waitHigh ∨ (s.dma n).st = .paused)
    (hfifo : s.fifoAsserted (s.dma n).fifo = true) :
    exec (.dmaFifoLevelStart n) s = .next (s.setDma n { s.dma n with st := .run }) := by
  have hgo : (s.dma n).mayGo = true := by simpa [DmaCh.mayGo, htrig] using hst
  simp [exec, execDmaFifoLevelStart, hgo, hfifo]

/-- The beat at which a channel stands fails: it is retried, or the channel halts. -/
theorem exec_dmaBeatError_here (hruns : s.dmaRuns n = true) (hreach : s.dmaReach n = none) :
    let c := s.dma n
    let used := if c.done = c.usedAt then c.used else 0
    exec (.dmaBeatError n c.done) s
      = .next (if used < c.limit then s.setDma n { c with used := used + 1, usedAt := c.done } else s.dmaHalt n used) := by
  simp [exec, execDmaBeatError, hruns, State.dma_run_of_runs hruns,
    State.dmaAdvance_done hreach (Nat.min_le_left (s.dma n).done _)]

/-- After the words that lie above the low watermark a transfer pauses where its FIFO is no longer asserted. -/
theorem exec_dmaFifoLevelPause_words {w : Nat} (hruns : s.dmaRuns n = true) (htrig : (s.dma n).trig = 1)
    (hw : w ≤ s.fifoFill (s.dma n).fifo - s.fifoLow (s.dma n).fifo) (hreach : s.dmaReach n = none) :
    let u := (s.dmaMove n ((s.dma n).done + w * (s.dma n).sw)).dmaFinish n
    exec (.dmaFifoLevelPause n w) s = .next (if (u.dma n).st = .run ∧ u.fifoAsserted (u.dma n).fifo = false then
      u.setDma n { u.dma n with st := .paused } else u) := by
  simp [exec, execDmaFifoLevelPause, hruns, htrig, State.dmaAdvance_unstopped hreach, State.dmaCap_of_words htrig hw]

end

/-- Settles O36: each clause is one branch of its command, with nothing in the channel's way. -/
theorem dmaTransfers : Obligations.DmaTransfers := by
  unfold Obligations.DmaTransfers
  intro s n hst c ready used
  refine ⟨fun hact htrig hcfg => exec_dmaStart_idle hst hact (DmaCh.begin_immediate hcfg htrig _),
    fun hact htrig hcfg => exec_dmaStart_idle hst hact (DmaCh.begin_fifoLevel hcfg htrig _),
    fun hact hcfg => exec_dmaStart_idle hst hact (DmaCh.begin_refused hcfg _), exec_dmaStart_active,
    exec_dmaFifoLevelStart_goes, fun hruns hreach => ⟨fun hlt => ?_, fun hle => ?_⟩, exec_dmaAbort_running hst,
    fun hact => exec_dmaAbort_inactive hst hact _, fun w => exec_dmaFifoLevelPause_words, fun f ops hclk => ?_⟩
  · exact (exec_dmaBeatError_here hruns hreach).trans (congrArg _ (if_pos hlt))
  · exact (exec_dmaBeatError_here hruns hreach).trans (congrArg _ (if_neg (Nat.not_lt.mpr hle)))
  · simp [exec, execDmaFifoFlush, State.awake_of_ne hst, hclk]

end Sys2Proof.Machine
end

section
/-!
SUPPORT. A step, and that every command answers (R412).
-/

namespace Sys2Proof.Machine

/-- No command is refused, and none ends in a fault: the arm of each answers a next state. -/
theorem exec_answers (c : Instr) (s : State) : ∃ t, exec c s = .next t := by
  cases c <;> exact ⟨_, rfl⟩

/-- Settles O54: a step on a queue with a front is `exec` by definition, and `exec_answers` goes command by command. -/
theorem stepRunsFront : Obligations.StepRunsFront := ⟨fun _ _ _ => rfl, fun s c => exec_answers c s⟩

end Sys2Proof.Machine
end

section
/-!
SUPPORT. Acknowledgements, and forced sources (R439, R441, R461, R462).
-/

namespace Sys2Proof.Machine

/-! ### Acknowledgements (R441) -/

section
variable {s : State} {n : Nat} (h : CmdHdr)

theorem State.ackFault_reserved (hr : fltReserved n = true) : s.ackFault h n = s.complete h .badArg := by
  simp [State.ackFault, hr]

theorem State.ackFault_marked (hr : fltReserved n = false) (hm : s.flt.mark.get false n = true) :
    s.ackFault h n = (s.clearMark n).complete h .ok := by
  simp [State.ackFault, hr, hm]

theorem State.ackFault_unmarked (hr : fltReserved n = false) (hm : s.flt.mark.get false n = false) :
    s.ackFault h n = s.complete h .alreadyDone := by
  simp [State.ackFault, hr, hm]

end

/-! ### The bits of a FLT_FORCE word (R461) -/

/-- A word with one bit set has that bit alone. -/
theorem bitOf_two_pow (k i : Nat) : bitOf (2 ^ k) i = decide (i = k) := by
  have h : bitOf (2 ^ k) i = (2 ^ k).testBit i := by
    rw [Nat.testBit_eq_decide_div_mod_eq]
    rfl
  rw [h, Nat.testBit_two_pow]
  exact decide_eq_decide.mpr eq_comm

theorem mem_forceSrcs {n j : Nat} : j ∈ forceSrcs n ↔ (32 * n ≤ j ∧ j < 32 * n + 32) ∧ fltReserved j = false := by
  simp only [forceSrcs, range2, List.mem_filter, List.mem_map, List.mem_range, Bool.not_eq_true']
  exact and_congr_left fun _ => ⟨fun ⟨i, hi, h⟩ => by omega, fun h => ⟨j - 32 * n, by omega, by omega⟩⟩

theorem forceSrcs_nodup (n : Nat) : (forceSrcs n).Nodup :=
  (List.nodup_range.map fun _ _ h => Nat.add_left_cancel h).filter _

/-- The one force bit that a word raises. -/
theorem forceSrcs_rises {f : Tbl Bool} {n k : Nat} (hk : k < 32) (hr : fltReserved (32 * n + k) = false)
    (hf : f.get false (32 * n + k) = false) :
    (forceSrcs n).filter (fun i => bitOf (2 ^ k) (i - 32 * n) && !f.get false i) = [32 * n + k] := by
  have hmem : 32 * n + k ∈ forceSrcs n := mem_forceSrcs.mpr ⟨by omega, hr⟩
  have hsame : ∀ i ∈ forceSrcs n, (bitOf (2 ^ k) (i - 32 * n) && !f.get false i) = (i == 32 * n + k) := by
    intro i hi
    obtain ⟨⟨hlo, -⟩, -⟩ := mem_forceSrcs.mp hi
    rw [bitOf_two_pow, beq_eq_decide]
    by_cases h : i = 32 * n + k
    · simp [h, hf]
    · have hne : i - 32 * n ≠ k := by omega
      simp [h, hne]
  rw [List.filter_congr hsame, List.filter_beq, List.count_eq_one_of_mem (forceSrcs_nodup n) hmem]
  rfl

/-! ### The event of a forced source (R439) -/

section
variable {s : State} {j : Nat}

/-- Drawing the unit of a forced source moves nothing but the count of draws. -/
theorem State.forceEvents_single (s : State) (j : Nat) :
    ∃ u fr, State.forceEvents [j] s = ([{ src := j, unit := u }], { s with free := fr }) := by
  simp only [State.forceEvents, State.forcedUnit]
  split
  · exact ⟨_, _, rfl⟩
  · exact ⟨_, s.free, rfl⟩

/-- One forced event sets its source's sticky bit, where the source can rise (R439). -/
theorem State.raiseAll_forced_sets (u : Nat) (hc : s.canRise j true = true) :
    (s.raiseAll [{ src := j, unit := u }] true).flt.sticky.get false j = true :=
  State.raiseIn_sets s (some u) false true _ hc

/-- A FLT_FORCE word that raises one force bit is one event of its source (R439, R461). -/
theorem State.setForce_raises {n k : Nat} (hk : k < 32) (hr : fltReserved (32 * n + k) = false)
    (hf : s.flt.force.get false (32 * n + k) = false) :
    (s.setForce n (2 ^ k)).flt.force.get false (32 * n + k) = true
      ∧ (s.canRise (32 * n + k) true = true → (s.setForce n (2 ^ k)).flt.sticky.get false (32 * n + k) = true) := by
  obtain ⟨u, fr, hev⟩ := s.forceEvents_single (32 * n + k)
  have hsets (hc : s.canRise (32 * n + k) true = true) := State.raiseAll_forced_sets (s := { s with free := fr }) u hc
  have hbit : bitOf (2 ^ k) (32 * n + k - 32 * n) = true := by simp [bitOf_two_pow]
  simp only [State.setForce, forceSrcs_rises hk hr hf, hev]
  exact ⟨Tbl.foldl_set_get (f := fun i => bitOf (2 ^ k) (i - 32 * n)) hbit _ _ (.inr (mem_forceSrcs.mpr ⟨by omega, hr⟩)),
    hsets⟩

end

/-- Settles O39: FAULT_ACK by its three answers, and a raised force bit by `State.setForce_raises`. -/
theorem acknowledge : Obligations.Acknowledge := by
  unfold Obligations.Acknowledge
  intro s h n k on onF clear
  refine ⟨⟨fun hr hs => ?_, fun hr hm hs => ?_, fun hr hm hs => ?_⟩, fun hr hm hs => ?_, fun hst => ⟨?_, ?_⟩,
    fun hst hn hk hr hf => ?force⟩
  · exact exec_of_serving hs rfl (State.ackFault_reserved h hr)
  · exact exec_of_serving hs rfl (State.ackFault_marked h hr hm)
  · exact exec_of_serving hs rfl (State.ackFault_unmarked h hr hm)
  · exact exec_of_serving hs rfl (State.ackFault_marked h hr hm)
  · simp [exec, execFltAck, State.awake_of_ne hst, State.clearMark, clear]
  · simp [exec, execFltAckAll, State.awake_of_ne hst]
  case force =>
    have hword : (BitVec.ofNat 32 (2 ^ k)).toNat = 2 ^ k := by
      rw [BitVec.toNat_ofNat, Nat.mod_eq_of_lt (Nat.pow_lt_pow_right (by decide) hk)]
    have hexec : exec (.fltForce n (BitVec.ofNat 32 (2 ^ k))) s = .next (s.setForce n (2 ^ k)) := by
      simp only [exec, execFltForce, State.awake_of_ne hst, hn, and_self, if_true, hword]
    exact ⟨_, hexec, State.setForce_raises hk hr hf⟩

end Sys2Proof.Machine
end

section
/-!
SUPPORT. Power and clock islands: what becomes of a request, and what ends a change (R468 to R476).
-/

namespace Sys2Proof.Machine

section
variable {s : State} {n : Nat} {r : IslReq}

theorem State.setIsl_setIsl (hw : s.isl.wf {} = true) (u v : Isl) : (s.setIsl n u).setIsl n v = s.setIsl n v := by
  rw [State.setIsl, State.setIsl_isl, Tbl.set_set hw n u v]
  rfl

theorem State.setIsl_islOf_same (hw : s.isl.wf {} = true) (v : Isl) : (s.setIsl n v).islOf n = v := by
  rw [State.setIsl_islOf s n v hw, if_pos rfl]

/-! ### What becomes of a request (R469, R471, R473) -/

/-- What the island may be asked for: a frequency on the grid and within the rating, a state that it permits (R469). -/
def State.islAllows (s : State) (n : Nat) : IslReq → Bool
  | .freq m => islFreqOk n m
  | .state x => s.islPermits n x

theorem State.islAllows_freq (s : State) (n m : Nat) : s.islAllows n (.freq m) = islFreqOk n m := rfl

theorem State.islAllows_state (s : State) (n : Nat) (x : IslSt) : s.islAllows n (.state x) = s.islPermits n x := rfl

theorem State.gathering_of_not_hbm (hn : islHbm n = false) : s.gathering n = false := by simp [State.gathering, hn]

section
variable (hdr : Option CmdHdr)

/-- While a change is in progress a request is refused (R473). -/
theorem State.islRequest_busy (hn : islHbm n = false) (hb : (s.islOf n).trans.isSome = true) :
    s.islRequest n r hdr = s.islAnswer n hdr .busy := by
  simp [State.islRequest, State.gathering_of_not_hbm hn, hb]

variable (hn : islHbm n = false) (hb : (s.islOf n).trans = none)
include hn hb

/-- With no change in progress a request is answered at once, or begins a change, which its command waits for as a job. -/
theorem State.islRequest_idle : s.islRequest n r hdr =
    if s.islAllows n r = false then s.islAnswer n hdr (if r.isFreq then .badArg else .denied)
    else if (s.islOf n).same r then s.islAnswer n hdr .alreadyDone
    else if (s.islOf n).legal r = false then s.islAnswer n hdr .denied
    else if (s.islTake n r hdr.toList).1 then (s.islTake n r hdr.toList).2.islAnswer n hdr .ok
    else hdr.elim (s.islTake n r hdr.toList).2 fun h => (s.islTake n r hdr.toList).2.addJob h r.opcode := by
  have hgather : s.gathering n = false := State.gathering_of_not_hbm hn
  cases r with
  | freq m =>
    simp only [State.islRequest, State.islAllows_freq, hb, hgather, Bool.not_eq_true', Option.isSome_none, Bool.false_and,
      Bool.false_eq_true, if_false, IslReq.isFreq, if_true]
    cases hdr <;> rfl
  | state x =>
    simp only [State.islRequest, State.islAllows_state, hb, hgather, Bool.not_eq_true', Option.isSome_none, Bool.false_and,
      Bool.false_eq_true, if_false, IslReq.isFreq]
    cases hdr <;> rfl

/-- What the island may not be asked for is refused by what was asked. -/
theorem State.islRequest_refused (hall : s.islAllows n r = false) :
    s.islRequest n r hdr = s.islAnswer n hdr (if r.isFreq then .badArg else .denied) := by
  rw [State.islRequest_idle hdr hn hb, if_pos hall]

theorem State.islRequest_same (hall : s.islAllows n r = true) (hsame : (s.islOf n).same r = true) :
    s.islRequest n r hdr = s.islAnswer n hdr .alreadyDone := by
  rw [State.islRequest_idle hdr hn hb, if_neg (by simp [hall]), if_pos hsame]

/-- Any other request of an island in RUN begins a change. -/
theorem State.islRequest_begins (hall : s.islAllows n r = true) (hsame : (s.islOf n).same r = false)
    (hrun : (s.islOf n).st = .run) : s.islRequest n r hdr
    = hdr.elim (s.islBegin n r []) fun h => (s.islBegin n r [h]).addJob h r.opcode := by
  have hlegal : (s.islOf n).legal r = true := by cases r <;> simp [Isl.legal, hrun]
  have htake (hs : List CmdHdr) : s.islTake n r hs = (false, s.islBegin n r hs) := by
    cases r <;> simp [State.islTake, hrun, hn, IslSt.halts]
  simp only [State.islRequest_idle hdr hn hb, hall, hsame, hlegal, htake]
  cases hdr <;> rfl

end

/-! ### Requests by command and by register (R468, R473) -/

theorem IslSt.ofCode_code (x : IslSt) : IslSt.ofCode x.code = some x := by cases x <;> rfl

theorem State.run_of_serving {i : Instr} {f : Bool} {h : CmdHdr} (hs : s.serving i f h = true) : s.glb.st = .run := by
  simp only [State.serving, Bool.and_eq_true, beq_iff_eq] at hs
  obtain ⟨⟨⟨⟨⟨-, -⟩, hrun⟩, -⟩, -⟩, -⟩ := hs
  exact hrun

/-- A command that is served in RUN is its request. -/
theorem State.islCommand_run (hrun : s.glb.st = .run) (hn : n < 59) (h : CmdHdr) :
    s.islCommand h n (some r) = s.islRequest n r (some h) := by
  have hst : s.glb.st ≠ .loadfail := by simp [hrun]
  simp [State.islCommand, Nat.not_le.mpr hn, hst]

variable {h : CmdHdr}

theorem exec_islandState_served {x : IslSt} {t : State} (hn : n < 59) (hreq : s.islRequest n (.state x) (some h) = t)
    (hs : s.serving (.islandState h n x.code) false h = true) : exec (.islandState h n x.code) s = .next t := by
  refine exec_of_serving hs rfl ?_
  rw [IslSt.ofCode_code]
  exact (State.islCommand_run (State.run_of_serving hs) hn h).trans hreq

theorem exec_islandFreq_served {mhz : Nat} {t : State} (hn : n < 59) (hreq : s.islRequest n (.freq mhz) (some h) = t)
    (hs : s.serving (.islandFreq h n mhz) false h = true) : exec (.islandFreq h n mhz) s = .next t :=
  exec_of_serving hs rfl ((State.islCommand_run (State.run_of_serving hs) hn h).trans hreq)

section
variable (hok : s.islRegOk = true) (hn : n < 59)
include hok hn

theorem exec_pwrIslFreq_accepted (mhz : Nat) : exec (.pwrIslFreq n mhz) s = .next (s.islRequest n (.freq mhz) none) := by
  simp [exec, execPwrIslFreq, hok, Nat.not_le.mpr hn]

/-- A register write during a change leaves the state asked for as it was. -/
theorem exec_pwrIslReq_busy (x : IslSt) (hb : (s.islOf n).trans.isSome = true) :
    exec (.pwrIslReq n x.code) s = .next (s.islRequest n (.state x) none) := by
  simp [exec, execPwrIslReq, hok, Nat.not_le.mpr hn, IslSt.ofCode_code, hb]

/-- A register write that is taken records the state asked for. -/
theorem exec_pwrIslReq_taken {x : IslSt} (hb : (s.islOf n).trans = none) (hp : s.islPermits n x = true) (hrun : (s.islOf n).st = .run) :
    exec (.pwrIslReq n x.code) s = .next ((s.setIsl n { s.islOf n with req := x.code }).islRequest n (.state x) none) := by
  have hlegal : (s.islOf n).legal (.state x) = true := by simp [Isl.legal, hrun]
  simp [exec, execPwrIslReq, hok, Nat.not_le.mpr hn, IslSt.ofCode_code, hb, hp, hlegal]

end

/-- A state other than RUN has a code other than the reset one, so it reads back. -/
theorem State.setIsl_req_islOf {x : IslSt} (hx : x ≠ .run) : (s.setIsl n { s.islOf n with req := x.code }).islOf n
    = { s.islOf n with req := x.code } := by
  refine Tbl.get_set_ne _ _ _ _ fun e => ?_
  have hcode : x.code = 0 := congrArg Isl.req e
  cases x
  case run => exact hx rfl
  all_goals exact absurd hcode (by decide)

/-! ### The end of a change (R471 to R473) -/

section
variable {t : IslTrans} (ht : (s.islOf n).trans = some t)
include ht

/-- A unit that is not at work is at its boundary. -/
theorem exec_unitBoundary_idle (hw : t.waits = true) (h49 : n < 49) (hidle : s.unitBusy n = false) :
    exec (.unitBoundary n) s = .next (s.setIsl n { s.islOf n with trans := some { t with waits := false } }) := by
  simp [exec, execUnitBoundary, ht, hw, Nat.not_le.mpr h49, hidle]

theorem exec_unitBoundary_busy (hw : t.waits = true) (h49 : n < 49) (hbusy : s.unitBusy n = true) :
    exec (.unitBoundary n) s = .next s := by
  simp [exec, execUnitBoundary, ht, hw, Nat.not_le.mpr h49, hbusy]

variable (hwf : s.isl.wf {} = true) (hn : islHbm n = false) (hw : t.waits = false) (hno : t.hdrs = [])
include hwf hn hw hno

/-- At the end of its change an island has its new frequency. -/
theorem exec_islandTransitionDone_freq {m : Nat} (hreq : t.req = .freq m) : exec (.islandTransitionDone n) s
    = .next (s.setIsl n { s.islOf n with freq := m, trans := none, result := 1 }) := by
  simp only [exec, execIslandTransitionDone, ht, hw, hreq, hn, hno, State.islDone, List.foldl_nil, State.setIsl_islOf_same hwf,
    State.setIsl_setIsl hwf, Bool.false_eq_true, if_false]

/-- At the end of its change an island whose clock runs before and after has its new state. -/
theorem exec_islandTransitionDone_state {x : IslSt} (hreq : t.req = .state x) (hx : x.halts = false)
    (hst : (s.islOf n).st.halts = false) (hheld : (s.islOf n).held = []) : exec (.islandTransitionDone n) s
    = .next (s.setIsl n { s.islOf n with st := x, trans := none, result := 1 }) := by
  have hnone : ((s.setIsl n { s.islOf n with st := x, trans := none, result := 1 }).islOf n).held = [] := by
    rw [State.setIsl_islOf_same hwf]
    exact hheld
  have hwf' (v : Isl) : (s.setIsl n v).isl.wf {} = true := Tbl.set_wf hwf n v
  simp only [exec, execIslandTransitionDone, ht, hw, hreq, hn, hno, hx, hst, State.islDone, List.foldl_nil,
    State.setIsl_islOf_same hwf, State.setIsl_setIsl hwf, Bool.false_eq_true, if_false, false_and,
    State.islHeldNow_none hnone]

end

theorem exec_pcieL1Exit_hold (hst : (s.islOf 8).st = .hold) (hok : s.islRegOk = true) :
    exec .pcieL1Exit s = .next (s.islRequest 8 (.state .run) none) := by
  simp [exec, execPcieL1Exit, hst, hok]

theorem exec_pcieL1Exit_other (hst : (s.islOf 8).st ≠ .hold) : exec .pcieL1Exit s = .next s := by
  simp [exec, execPcieL1Exit, hst]

end

/-- Settles O45: a request by whether a change is in progress, whether the island allows it, and whether it asks for something new; a
change by its step. -/
theorem islands : Obligations.Islands := by
  unfold Obligations.Islands
  refine ⟨fun s h n mhz x hn h2 h3 => ?requests, fun s n mhz t x h9 hn ht => ?changes⟩
  case requests =>
    intro on i
    have hhbm : islHbm n = false := by simp [islHbm, h2, h3]
    refine ⟨fun hb => ?busy, fun hb => ⟨?denied, ?sameState, ?newState, ?badArg, ?sameFreq, ?newFreq⟩, ?noIsland⟩
    case busy =>
      refine ⟨exec_islandState_served hn (State.islRequest_busy _ hhbm hb), exec_islandFreq_served hn (State.islRequest_busy _ hhbm hb),
        fun hok => ⟨?_, ?_⟩⟩
      · rw [exec_pwrIslReq_busy hok hn x hb, State.islRequest_busy _ hhbm hb]
        rfl
      · rw [exec_pwrIslFreq_accepted hok hn, State.islRequest_busy _ hhbm hb]
        rfl
    case denied => exact fun hp => exec_islandState_served hn (State.islRequest_refused _ hhbm hb hp)
    case sameState => exact fun hp hx => exec_islandState_served hn (State.islRequest_same _ hhbm hb hp (by simp [Isl.same, ← hx, i]))
    case newState =>
      intro hp hx hrun
      have hsame : (s.islOf n).same (.state x) = false := by simpa [Isl.same] using hx
      have hxrun : x ≠ .run := fun e => hx (hrun.trans e.symm)
      refine ⟨exec_islandState_served hn (State.islRequest_begins _ hhbm hb hp hsame hrun), fun hok => ?_⟩
      have hread := State.setIsl_req_islOf (s := s) (n := n) hxrun
      rw [exec_pwrIslReq_taken hok hn hb hp hrun]
      exact congrArg _ (State.islRequest_begins (s := s.setIsl n { s.islOf n with req := x.code }) none hhbm (by rw [hread]; exact hb) hp
        (by rw [hread]; exact hsame) (by rw [hread]; exact hrun))
    case badArg => exact fun hf => exec_islandFreq_served hn (State.islRequest_refused _ hhbm hb hf)
    case sameFreq => exact fun hf hm => exec_islandFreq_served hn (State.islRequest_same _ hhbm hb hf (by simpa [Isl.same] using hm))
    case newFreq =>
      intro hf hm hrun
      have hsame : (s.islOf n).same (.freq mhz) = false := by simpa [Isl.same] using hm
      refine ⟨exec_islandFreq_served hn (State.islRequest_begins _ hhbm hb hf hsame hrun), fun hok => ?_⟩
      exact (exec_pwrIslFreq_accepted hok hn mhz).trans (congrArg _ (State.islRequest_begins none hhbm hb hf hsame hrun))
    case noIsland =>
      intro hs
      refine exec_of_serving hs rfl ?_
      simp [State.islCommand, State.run_of_serving hs]
  case changes =>
    intro i
    have hhbm : islHbm n = false := by simp [islHbm]; omega
    exact ⟨exec_unitBoundary_idle ht, exec_unitBoundary_busy ht,
      fun hw hreq hno hwf => exec_islandTransitionDone_freq ht hwf hhbm hw hno hreq,
      fun hw hreq hno hx hst hheld hwf => exec_islandTransitionDone_state ht hwf hhbm hw hno hreq hx hst hheld,
      exec_pcieL1Exit_hold, exec_pcieL1Exit_other⟩

end Sys2Proof.Machine
end

section
/-!
SUPPORT. The interrupt controller: events and masks (R424, R425, R427 to R429, R434 to R436).
-/

namespace Sys2Proof.Machine

section
variable {s : State} {n : Nat}

/-! ### Events (R424, R425, R436) -/

/-- A source that names an outcome reads back, whatever the table. -/
theorem State.setIrqSrc_irqSrc_same (s : State) (n : Nat) {v : IrqSrc} (h : v.outcome ≠ 0) : (s.setIrqSrc n v).irqSrc n = v :=
  Tbl.get_set_ne _ _ _ _ fun e => h (congrArg IrqSrc.outcome e)

/-- A reserved source, the line of a stopped island, and a level shorter than FILTER are not accepted (R424, R425, R477). -/
theorem exec_irqEvent_ignored {d : Nat}
    (h : irqReserved n = true ∨ (irqIsland n).any s.stopped = true ∨ d < (s.irqSrc n).filter) (l : Bool) :
    exec (.irqEvent n l d) s = .next s := by
  rcases h with h | h | h <;> simp [exec, execIrqEvent, h]

theorem exec_irqSwSet_event (hst : s.glb.st ≠ .reset) (hn : n < 64) :
    exec (.irqSwSet n) s = .next (s.setIrqSrc (0x80 + n) (s.irqSrc (0x80 + n)).event) := by
  have hres : irqReserved (0x80 + n) = false := by
    simp only [irqReserved, Bool.or_eq_false_iff, Bool.and_eq_false_iff, decide_eq_false_iff_not]
    omega
  have hisl : irqIsland (0x80 + n) = none := by
    rw [irqIsland, if_neg (by omega), if_neg (by omega)]
  simp [exec, execIrqSwSet, State.awake_of_ne hst, State.irqEvent, irqSw, hres, hisl]

section
variable (hst : s.glb.st ≠ .reset)
include hst

/-- A level that lasts is followed; an accepted rise is an event (R425). -/
theorem exec_irqEvent_accepted {d : Nat} (hres : irqReserved n = false) (hclk : (irqIsland n).any s.stopped = false)
    (hd : (s.irqSrc n).filter ≤ d) (l : Bool) : exec (.irqEvent n l d) s
    = .next (s.setIrqSrc n { (if l && !(s.irqSrc n).line then (s.irqSrc n).event else s.irqSrc n) with line := l }) := by
  simp [exec, execIrqEvent, State.awake_of_ne hst, hres, hclk, Nat.not_lt.mpr hd]

/-! ### Masks (R428, R429, R434) -/

/-- The fields that a word written to a source's configuration gives it (R434). -/
def IrqSrc.configured (v : IrqSrc) (x : Nat) : IrqSrc :=
  { v with en := bitOf x 31, target := bitsOf x 24 7, filter := bitsOf x 16 6, prio := bitsOf x 0 8 }

/-- A write that withdraws nothing takes its fields; one that clears EN or names another target ends a redirection. -/
theorem exec_irqSrcCfg_unpresented {w : Word} (hres : irqReserved n = false)
    (hp : (s.irqPresents (s.irqSrc n).goesTo).contains n = false) : exec (.irqSrcCfg n w) s
    = .next (s.setIrqSrc n { (s.irqSrc n).configured w.toNat with
      alt := if bitOf w.toNat 31 = true ∧ bitsOf w.toNat 24 7 = (s.irqSrc n).target then (s.irqSrc n).alt else none }) := by
  simp only [exec, execIrqSrcCfg, State.awake_of_ne hst, hres, hp, Bool.false_and, Bool.false_eq_true, if_false, Bool.not_true,
    Bool.or_false]
  by_cases h : bitOf w.toNat 31 = true ∧ bitsOf w.toNat 24 7 = (s.irqSrc n).target
  · simp [IrqSrc.configured, h]
  · have hoff : (!bitOf w.toNat 31 || decide (bitsOf w.toNat 24 7 ≠ (s.irqSrc n).target)) = true := by
      simpa [Decidable.or_iff_not_imp_left] using h
    rw [if_pos hoff, if_neg h]
    rfl

/-- A write that clears EN while the source's delivery is presented withdraws it (R428). -/
theorem exec_irqSrcCfg_withdraws {w : Word} (hres : irqReserved n = false)
    (hp : (s.irqPresents (s.irqSrc n).goesTo).contains n = true) (hen : bitOf w.toNat 31 = false) :
    exec (.irqSrcCfg n w) s
      = .next ((s.irqWithdraw [n]).setIrqSrc n { (s.irqSrc n).configured w.toNat with outcome := 2, alt := none }) := by
  have hread : ((s.irqWithdraw [n]).irqSrc n).outcome = 2 :=
    congrArg IrqSrc.outcome (State.setIrqSrc_irqSrc_same s n (v := { s.irqSrc n with outcome := 2 }) nofun)
  have hp' : n ∈ s.irqPresents (s.irqSrc n).goesTo := by simpa using hp
  simp [exec, execIrqSrcCfg, State.awake_of_ne hst, hres, hp', hen, hread, IrqSrc.configured]

/-- A vector's mask bit; setting it withdraws what the vector is presented (R428). -/
theorem exec_msixMask_vector (v : Nat) (m : Bool) : exec (.msixMask (.vector v m)) s
    = .next (let t := if m then s.irqWithdraw (s.irqPresents (4 + v)) else s
      { t with pcie := { t.pcie with msix := t.pcie.msix.upd {} v fun x => { x with mask := m } } }) := by
  simp [exec, execMsixMask, State.awake_of_ne hst]

end
end

/-- Settles O43: an event by whether it is accepted, a mask by what it withdraws. -/
theorem interruptEvents : Obligations.InterruptEvents := by
  unfold Obligations.InterruptEvents
  refine ⟨fun s n t d hst => ?events, fun s n v w hst => ?masks⟩
  case events =>
    intro u hit still
    refine ⟨fun h l => exec_irqEvent_ignored h l, fun hres hclk hd => ⟨fun hl => ?_, fun hl => ?_, ?_⟩,
      exec_irqSwSet_event hst, ?_, rfl⟩
    · rw [exec_irqEvent_accepted hst hres hclk hd, hl]
      rfl
    · have hsame : { u with line := true } = u := by rw [← hl]
      rw [exec_irqEvent_accepted hst hres hclk hd, if_neg (by simpa using hl)]
      exact congrArg (fun v => Host.Outcome.next (s.setIrqSrc n v)) hsame
    · exact exec_irqEvent_accepted hst hres hclk hd false
    · simp [exec, execIrqHostAck, State.awake_of_ne hst]
  case masks =>
    intro x new
    refine ⟨fun hres hp => exec_irqSrcCfg_unpresented hst hres hp,
      fun hres hp hen => ⟨_, exec_irqSrcCfg_withdraws hst hres hp hen, ?_, rfl, rfl⟩, ?_, fun hp => ?_, fun hp => ?_, ?_⟩
    · exact State.setIrqSrc_irqSrc_same _ n nofun
    · exact exec_msixMask_vector hst v false
    · rw [exec_msixMask_vector hst v true, hp]
      rfl
    · rw [exec_msixMask_vector hst v true, hp]
      rfl
    · simp [exec, execMsixMask, State.awake_of_ne hst]

end Sys2Proof.Machine
end

section
/-!
SUPPORT. Deliveries of interrupts, and their redirection (R426 to R428, R430).
-/

namespace Sys2Proof.Machine

section
variable {s : State} {n t : Nat}

/-! ### The pending sources of a target (R426, R430) -/

theorem State.mem_irqFor (hw : s.irq.srcs.wf {} = true) :
    n ∈ s.irqFor t ↔ ((s.irqSrc n).pend = true ∧ (s.irqSrc n).en = true) ∧ (s.irqSrc n).goesTo = t := by
  have hentry : n ∈ s.irqPending ↔ (s.irqSrc n).pend = true ∧ (s.irqSrc n).en = true := by
    simp only [State.irqPending, List.mem_map, List.mem_filter, Bool.and_eq_true, Prod.exists, exists_and_right, exists_eq_right,
      Tbl.mem_iff_get hw]
    refine ⟨fun ⟨v, ⟨hv, _⟩, h⟩ => ?_, fun h => ⟨s.irqSrc n, ⟨rfl, fun e => ?_⟩, h⟩⟩
    · rw [State.irqSrc, hv]
      exact h
    · rw [e] at h
      exact absurd h.1 nofun
  rw [State.irqFor, List.mem_filter, hentry, beq_iff_eq]

theorem State.irqFor_nodup (hw : s.irq.srcs.wf {} = true) (t : Nat) : (s.irqFor t).Nodup := by
  have hkeys : (s.irq.srcs.map Prod.fst).Nodup := (Tbl.keys_sorted hw).1.imp fun h => h.ne
  exact ((List.filter_sublist.map Prod.fst).nodup hkeys).filter _

/-! ### A change of several sources -/

/-- Each source of a list changes by `f`. -/
def State.mapSrcs (s : State) (f : IrqSrc → IrqSrc) (ns : List Nat) : State := ns.foldl (fun s n => s.setIrqSrc n (f (s.irqSrc n))) s

theorem State.mapSrcs_frame (s : State) (f : IrqSrc → IrqSrc) (ns : List Nat) :
    s.mapSrcs f ns = { s with irq := { s.irq with srcs := (s.mapSrcs f ns).irq.srcs } } := by
  induction ns generalizing s with
  | nil => rfl
  | cons n ns ih => exact ih (s.setIrqSrc n (f (s.irqSrc n)))

theorem State.mapSrcs_wf (hw : s.irq.srcs.wf {} = true) (f : IrqSrc → IrqSrc) (ns : List Nat) :
    (s.mapSrcs f ns).irq.srcs.wf {} = true := by
  induction ns generalizing s with
  | nil => exact hw
  | cons n ns ih => exact ih (Tbl.set_wf hw n _)

/-- Each source of the list changes once, and no other. -/
theorem State.mapSrcs_irqSrc (hw : s.irq.srcs.wf {} = true) (f : IrqSrc → IrqSrc) {ns : List Nat} (hns : ns.Nodup) (j : Nat) :
    (s.mapSrcs f ns).irqSrc j = if j ∈ ns then f (s.irqSrc j) else s.irqSrc j := by
  induction ns generalizing s with
  | nil => rfl
  | cons n ns ih =>
    obtain ⟨hn, hns⟩ := List.nodup_cons.mp hns
    have hstep : (s.mapSrcs f (n :: ns)).irqSrc j = ((s.setIrqSrc n (f (s.irqSrc n))).mapSrcs f ns).irqSrc j := rfl
    rw [hstep, ih (Tbl.set_wf hw n _) hns, State.setIrqSrc_irqSrc s n _ hw]
    by_cases hj : j = n
    · subst hj
      simp [hn]
    · simp [hj]

/-- Whether a target is ready is no matter of the sources. -/
theorem State.mapSrcs_irqReady (s : State) (f : IrqSrc → IrqSrc) (ns : List Nat) (t : Nat) :
    (s.mapSrcs f ns).irqReady t = s.irqReady t := by
  rw [State.mapSrcs_frame]
  rfl

/-! ### What is presented to a target, and what it accepts (R426 to R428) -/

theorem State.irqPresents_unready (h : s.irqReady t = false) : s.irqPresents t = [] := by simp [State.irqPresents, h]

section
variable (ht : t < 4) (hr : s.irqReady t = true) (hbest : s.irqBest (s.irqFor t) = some n)
include ht hr hbest

/-- A steward core that serves none takes the best source. -/
theorem State.irqPresents_idleCore (hserv : (s.irqTgt t).serving = none) : s.irqPresents t = [n] := by
  simp only [State.irqPresents, hr, if_true, State.irqTakes, if_pos ht, hbest, hserv]

/-- A steward core that serves a source takes the best one where its group is above. -/
theorem State.irqPresents_servingCore {m : Nat} (hserv : (s.irqTgt t).serving = some m) :
    s.irqPresents t = if s.irqGroup m < s.irqGroup n then [n] else [] := by
  simp only [State.irqPresents, hr, if_true, State.irqTakes, if_pos ht, hbest, hserv]

end

theorem State.irqPresents_vector (ht : 4 ≤ t) (hr : s.irqReady t = true) :
    s.irqPresents t = if s.vecOpen (t - 4) then s.irqFor t else [] := by
  simp only [State.irqPresents, hr, if_true, State.irqTakes, if_neg (Nat.not_lt.mpr ht)]

theorem State.irqPresents_closed (ht : 4 ≤ t) (hv : s.vecOpen (t - 4) = false) : s.irqPresents t = [] := by
  cases hr : s.irqReady t with
  | false => exact State.irqPresents_unready hr
  | true => rw [State.irqPresents_vector ht hr, hv]; rfl

theorem exec_irqDelivery_none (h : s.irqPresents t = []) : exec (.irqDelivery t) s = .next s := by
  simp [exec, execIrqDelivery, h, State.irqAccept]

/-- A target as it accepts a delivery whose first source is `n` (R427). -/
def IrqTgt.accepting (v : IrqTgt) (t n : Nat) : IrqTgt :=
  { v with idle := false, moder := decide (v.interval ≠ 0), serving := if t < 4 then some n else none }

theorem State.irqAccept_cons (s : State) (t n : Nat) (ns : List Nat) : s.irqAccept t (n :: ns)
    = if t < 4 then (s.mapSrcs IrqSrc.accepted (n :: ns)).setIrqTgt t ((s.irqTgt t).accepting t n)
      else ((s.mapSrcs IrqSrc.accepted (n :: ns)).setIrqTgt t ((s.irqTgt t).accepting t n)).sendMsi (t - 4) := by
  have htgt : (s.mapSrcs IrqSrc.accepted (n :: ns)).irqTgt t = s.irqTgt t := by
    rw [State.mapSrcs_frame]
    rfl
  rw [← htgt]
  rfl

/-- Every source of an accepted delivery is accepted, and no other. -/
theorem State.irqAccept_irqSrc (hw : s.irq.srcs.wf {} = true) {ns : List Nat} (hns : ns.Nodup) (j : Nat) :
    (s.irqAccept t ns).irqSrc j = if j ∈ ns then (s.irqSrc j).accepted else s.irqSrc j := by
  cases ns with
  | nil => rfl
  | cons n ns =>
    rw [← State.mapSrcs_irqSrc hw IrqSrc.accepted hns, State.irqAccept_cons]
    split <;> rfl

/-- A steward core accepts one source, and serves it. -/
theorem exec_irqDelivery_core (ht : t < 4) (h : s.irqPresents t = [n]) : exec (.irqDelivery t) s
    = .next ((s.setIrqSrc n (s.irqSrc n).accepted).setIrqTgt t
      { s.irqTgt t with idle := false, moder := decide ((s.irqTgt t).interval ≠ 0), serving := some n }) := by
  simp only [exec, execIrqDelivery, h, State.irqAccept_cons, IrqTgt.accepting, if_pos ht]
  rfl

/-- A vector accepts one source, and sends its message. -/
theorem exec_irqDelivery_vector (ht : 4 ≤ t) (h : s.irqPresents t = [n]) : exec (.irqDelivery t) s
    = .next (((s.setIrqSrc n (s.irqSrc n).accepted).setIrqTgt t ((s.irqTgt t).accepting t n)).sendMsi (t - 4)) := by
  simp only [exec, execIrqDelivery, h, State.irqAccept_cons, if_neg (Nat.not_lt.mpr ht)]
  rfl

/-! ### Redirection (R430) -/

/-- Sources whose delivery to target `t` has not been redirected. -/
def State.irqDue (s : State) (t : Nat) : List Nat := (s.irqFor t).filter fun n => (s.irqSrc n).alt.isNone

/-- The source's delivery goes to another target. -/
def IrqSrc.redirected (a : Nat) (v : IrqSrc) : IrqSrc := { v with alt := some a }

theorem exec_irqRedirect_unheld (h : s.irqHeld t = false) : exec (.irqRedirect t) s = .next s := by
  simp [exec, execIrqRedirect, h]

theorem exec_irqRedirect_none (h : s.irqDue t = []) : exec (.irqRedirect t) s = .next s := by
  have hdue : ((s.irqFor t).filter fun n => (s.irqSrc n).alt.isNone).isEmpty = true := List.isEmpty_iff.mpr h
  simp only [exec, execIrqRedirect, hdue, or_true, if_true]

/-- A held target's due deliveries go to its alternative, which takes what it can at once. -/
theorem exec_irqRedirect_goes (hheld : s.irqHeld t = true) (hen : (s.irqTgt t).altEn = true) (halt : (s.irqTgt t).altTgt < 68)
    (hdue : n ∈ s.irqDue t) : exec (.irqRedirect t) s
    = .next (let u := s.mapSrcs (IrqSrc.redirected (s.irqTgt t).altTgt) (s.irqDue t)
      u.irqAccept (s.irqTgt t).altTgt (u.irqPresents (s.irqTgt t).altTgt)) := by
  have hsome : ¬ ((s.irqFor t).filter fun n => (s.irqSrc n).alt.isNone).isEmpty = true := fun h => by
    rw [State.irqDue, List.isEmpty_iff.mp h] at hdue
    exact absurd hdue List.not_mem_nil
  have hgo : ¬ (!s.irqHeld t ∨ !(s.irqTgt t).altEn ∨ 68 ≤ (s.irqTgt t).altTgt
      ∨ ((s.irqFor t).filter fun n => (s.irqSrc n).alt.isNone).isEmpty = true) := by
    simp only [hheld, hen, Nat.not_le.mpr halt, hsome, Bool.not_true, Bool.false_eq_true, or_self, not_false_eq_true]
  simp only [exec, execIrqRedirect, if_neg hgo]
  rfl

theorem State.irqDue_nodup (hw : s.irq.srcs.wf {} = true) (t : Nat) : (s.irqDue t).Nodup := (State.irqFor_nodup hw t).filter _

section
variable (hw : s.irq.srcs.wf {} = true) (hdue : n ∈ s.irqDue t) (a : Nat)
include hw hdue

/-- A due source goes to the alternative. -/
theorem State.redirected_irqSrc : (s.mapSrcs (IrqSrc.redirected a) (s.irqDue t)).irqSrc n = (s.irqSrc n).redirected a := by
  rw [State.mapSrcs_irqSrc hw _ (State.irqDue_nodup hw t), if_pos hdue]

theorem State.redirected_mem_irqFor : n ∈ (s.mapSrcs (IrqSrc.redirected a) (s.irqDue t)).irqFor a := by
  obtain ⟨hpend, -⟩ := (State.mem_irqFor hw).mp (List.mem_filter.mp hdue).1
  rw [State.mem_irqFor (State.mapSrcs_wf hw _ _), State.redirected_irqSrc hw hdue]
  exact ⟨hpend, rfl⟩

end
end

/-- Settles O44: a delivery by what is presented to the target, a redirection by what the alternative is presented. -/
theorem interruptDeliveries : Obligations.InterruptDeliveries := by
  unfold Obligations.InterruptDeliveries
  intro s t n m took due
  refine ⟨fun hr => exec_irqDelivery_none (State.irqPresents_unready hr), fun ht hr hbest hserv => ?idle,
    fun ht hr hbest hserv hgrp => ?above, fun ht hr hbest hserv hgrp => ?below, fun ht hr hv hfor => ?vector,
    fun ht hv => exec_irqDelivery_none (State.irqPresents_closed ht hv), fun hheld hen halt hr hdue hw => ?waits,
    fun ht hheld hen halt hr hv hdue hw => ?redirected, exec_irqRedirect_none, exec_irqRedirect_unheld⟩
  case idle => exact exec_irqDelivery_core ht (State.irqPresents_idleCore ht hr hbest hserv)
  case above => exact exec_irqDelivery_core ht ((State.irqPresents_servingCore ht hr hbest hserv).trans (if_pos hgrp))
  case below =>
    exact exec_irqDelivery_none ((State.irqPresents_servingCore ht hr hbest hserv).trans (if_neg (Nat.not_lt.mpr hgrp)))
  case vector =>
    have hp : s.irqPresents t = [n] := by rw [State.irqPresents_vector ht hr, hv, hfor]; rfl
    exact ⟨_, exec_irqDelivery_vector ht hp, rfl, rfl, rfl⟩
  case waits =>
    have hnone := State.irqPresents_unready ((s.mapSrcs_irqReady (IrqSrc.redirected (s.irqTgt t).altTgt) (s.irqDue t) _).trans hr)
    have hgoes := exec_irqRedirect_goes hheld hen halt hdue
    have hframe := s.mapSrcs_frame (IrqSrc.redirected (s.irqTgt t).altTgt) (s.irqDue t)
    simp only [hnone] at hgoes
    exact ⟨_, hgoes, State.redirected_irqSrc hw hdue _, (congrArg (fun u => u.irq.tgts) hframe :), (congrArg State.host hframe :)⟩
  case redirected =>
    have hw' := State.mapSrcs_wf hw (IrqSrc.redirected (s.irqTgt t).altTgt) (s.irqDue t)
    have hpresents : (s.mapSrcs (IrqSrc.redirected (s.irqTgt t).altTgt) (s.irqDue t)).irqPresents (s.irqTgt t).altTgt
        = (s.mapSrcs (IrqSrc.redirected (s.irqTgt t).altTgt) (s.irqDue t)).irqFor (s.irqTgt t).altTgt := by
      have hopen : (s.mapSrcs (IrqSrc.redirected (s.irqTgt t).altTgt) (s.irqDue t)).vecOpen ((s.irqTgt t).altTgt - 4) = true := by
        rw [State.mapSrcs_frame]
        exact hv
      rw [State.irqPresents_vector ht ((s.mapSrcs_irqReady _ _ _).trans hr), hopen]
      rfl
    refine ⟨_, exec_irqRedirect_goes hheld hen halt hdue, ?_⟩
    dsimp only
    rw [hpresents, State.irqAccept_irqSrc hw' (State.irqFor_nodup hw' _), if_pos (State.redirected_mem_irqFor hw hdue _),
      State.redirected_irqSrc hw hdue]
    rfl

end Sys2Proof.Machine
end
